-- ==== Sys2Proof/Word.lean ====
section
/-! DEFINITION. The words, codes and small records that instructions and events carry (spec/02_encoding_and_assembly.md). -/

namespace Sys2Proof

/-- One byte (00 R4). -/
abbrev Byte := BitVec 8
/-- A double, the width of a scalar register (03 R57). -/
abbrev Word := BitVec 64
/-- A register field of an instruction word, naming one of 64 registers (02 R32). -/
abbrev RegNo := BitVec 6

/-- The form field of a 64-bit word (02 R33); form 0b11 is illegal and has no name. -/
inductive Form where
  | vv | vs | vi
  deriving DecidableEq, Repr

/-- The replicated operand selected by rsel (02 R33, R42). -/
inductive RSel where
  | none | a | b | c
  deriving DecidableEq, Repr

/-- The element types of Table 2.3 in the order of their codes; code 15 is illegal and has no name (02 R34). -/
inductive EType where
  | i8 | i16 | i32 | i64 | n8 | n16 | n32 | n64 | bf16 | fp16 | fp32 | fp64 | e4m3 | e5m2 | fmt
  deriving DecidableEq, Repr

/-- The fields of a 64-bit word other than its major opcode and its length bit (02 R33, Table 2.2). -/
structure VWord where
  form : Form
  mask : BitVec 3
  chain : Bool
  rsel : RSel
  rsz : BitVec 2
  ridx : BitVec 6
  ety : EType
  fn : BitVec 12
  vd : RegNo
  va : RegNo
  vb : RegNo
  vc : RegNo
  deriving DecidableEq, Repr

/-- The stop causes of Table 12.1 (12 R349). -/
inductive ExcCause where
  | illegal | controlFlow | misaligned | pageFault | kindCross | poison | arithmetic | deadline | skew
  | peerLost | machineCheck | trap | breakpoint | doubleFault | preemption | debugStop
  deriving DecidableEq, Repr

/-- The permission an access needs of its page (07 R176). -/
inductive Access where
  | read | write | exec
  deriving DecidableEq, Repr

/-- A request of an agent other than a thread's own words to a slice ALU: the atomic operation of Table 10.3 numbered
`op` on `bytes` bytes at a physical address (10 R267). -/
structure AluRequest where
  pa : Nat
  bytes : Nat
  op : Nat
  ety : EType
  operand : BitVec 64
  deriving DecidableEq, Repr

/-- A deferred write that arrives at a window of this package from another package (11 R308, R311). -/
structure RemoteWrite where
  ctx : Nat
  handle : Nat
  elem : Nat
  bytes : Nat
  data : BitVec 64
  rank : Nat
  place : Nat
  launch : Nat
  order : Nat
  deriving DecidableEq, Repr

/-- A read or translation request from another package for bytes of a window of this package; `store` says that a translation is asked
for a vstr (11 R326, R329). -/
structure RemoteRead where
  ctx : Nat
  handle : Nat
  offset : Nat
  bytes : Nat
  rank : Nat
  store : Bool
  deriving DecidableEq, Repr

/-- A remote access that waits at the gateway of a package whose apply is in progress (11 R315). -/
inductive RemoteAccess where
  | write (f : RemoteWrite)
  | read (f : RemoteRead)
  deriving DecidableEq, Repr

/-- A message about a stream from another package, with the header's source rank and sequence number: the communicator of a context, the
sender's and the receiver's member index, the bytes a request asks for, and the data (11 R331, R332, R342). -/
structure StreamMsg where
  src : Nat
  seq : Nat
  ctx : Nat
  comm : Nat
  sender : Nat
  receiver : Nat
  bytes : Nat
  data : List Nat
  deriving DecidableEq, Repr

/-- What the header of a flit about a stream and its first words say: the source rank, the sequence number, the communicator, and the
sender's and the receiver's member index (11 R331, R332, R342). -/
structure StreamHead where
  src : Nat
  seq : Nat
  comm : Nat
  sender : Nat
  receiver : Nat
  deriving DecidableEq, Repr

/-- The message with a head, for a context, that asks for bytes or carries data (11 R342). -/
def StreamHead.msg (h : StreamHead) (ctx bytes : Nat) (data : List Nat) : StreamMsg :=
  { src := h.src, seq := h.seq, ctx := ctx, comm := h.comm, sender := h.sender, receiver := h.receiver, bytes := bytes, data := data }

/-- What an acknowledgement of a deferred write says: the overflow and the conflict mark, and that the page is under invalidation
(11 R311, R330). -/
structure WriteAnswer where
  overflow : Bool
  conflict : Bool
  refused : Bool
  deriving DecidableEq, Repr

/-- An acknowledgement of the invalidation of a window of package `target`, from package `rank` next to this one in the whistle tree
and from every package behind it (11 R330). -/
structure HandleAck where
  target : Nat
  handle : Nat
  rank : Nat
  deriving DecidableEq, Repr

/-- The Ethernet port at which a request of the host arrives, and whether its packet carries the ECN mark of congestion (00 R3; 14 R405). -/
structure HostPort where
  port : Nat
  marked : Bool
  deriving DecidableEq, Repr

/-- A torus port of a package (11 R333). -/
structure PodPort where
  rank : Nat
  port : Nat
  deriving DecidableEq, Repr

/-- The incoming side of a gang switch: the context, the time of the switch and the time its threads resume, where one is given
(12 R366). -/
structure SwitchIn where
  ctx : Nat
  at_ : BitVec 64
  resume : Option (BitVec 64)
  deriving DecidableEq, Repr

/-- One entry of a die's remote translation cache (11 R329). -/
structure RemoteTrans where
  ctx : Nat
  rank : Nat
  handle : Nat
  page : Nat
  pa : Nat
  key : Nat
  store : Bool
  deriving DecidableEq, Repr

/-- What the go carries down the whistle tree: the status, the window reported, how many have the status, and the latest T of
step.at (11 R315, R318, R320). -/
structure WhistleMarks where
  status : Nat
  rank : Nat
  handle : Nat
  nwin : Nat
  applyAt : Nat
  deriving DecidableEq, Repr

/-- Whose arrival a package counts: a member's, or a child package's with its smallest timeout, its windows marked overflowed and in
conflict as (rank, handle) pairs, and its latest T of step.at (11 R315, R318, R320). -/
inductive WhistleSource where
  | member (t : Nat)
  | child (rank timeout : Nat) (overflow conflict : List (Nat × Nat)) (applyAt : Nat)
  deriving DecidableEq, Repr

/-- What a torus port learns of its neighbour at training (14 R416). -/
structure PortExchange where
  dx : Nat
  dy : Nat
  dz : Nat
  x : Nat
  y : Nat
  z : Nat
  deriving DecidableEq, Repr

/-- Where Eloaler places the pages of a code object: the die and the physical pages, in order (13 R401), and the page
table entries it writes for them as (physical address of the entry, value) pairs. -/
structure LoadPlan where
  die : Nat
  pages : List Nat
  ptes : List (Nat × Nat)
  deriving DecidableEq, Repr

/-- Eloaler's placement of one gang: for each thread of it on this package, in order of flat index, its die, core and lowest cluster and
its image area, the shared-store run taken on each die, which indices of the gang other packages place and where (their dies counted
from 4 × (rank + 1)), what the gang's lowest-ranked package says of its start time, the dispatch code of a refusal on another package, and
what the other packages report: the clusters that valid records hold there, counted alike, the launches that cannot be bound there now, the
entries they have taken, and the communicators, as JOIN and number, that their queued launches join (13 R390, R393, R394, R438; 11 R334;
01 R13). -/
structure BindPlan where
  first : Nat
  places : List (Nat × Nat × Nat)
  images : List Nat
  runs : List (Nat × Nat)
  elsewhere : List (Nat × Nat × Nat × Nat)
  start : BitVec 64
  refused : Option Nat
  held : List (Nat × Nat × Nat) := []
  cannot : List Nat := []
  entries : List (Nat × List (BitVec 8)) := []
  joins : List (Nat × Nat) := []
  deriving DecidableEq, Repr

/-- What the other packages of a launch report as it ends: their ended threads, the OR of their flags, and of their first fatal end the
flat index, the status, cause code and lost containment, and the report (13 R438). -/
structure LaunchShare where
  ended : Nat
  flags : BitVec 6
  firstFatal : Option Nat
  status : Nat
  code : Nat
  unc : Bool
  report : List (BitVec 64)
  deriving DecidableEq, Repr

/-- A launch that ends, and what its other packages report (13 R382, R438). -/
structure LaunchEnd where
  number : Nat
  elsewhere : LaunchShare
  deriving DecidableEq, Repr

/-- The share of a launch that no other package takes part in (13 R438). -/
def LaunchShare.nothing : LaunchShare :=
  { ended := 0, flags := 0, firstFatal := none, status := 0, code := 0, unc := false, report := [] }

/-- A debugger's edit of a stopped thread's image, section by section: a scalar register, spc, a register of the control section, a
format or shape register, a VIQ entry or the whole VIQ section, a byte of a mask, vector, accumulator or held strip entry, an entry of
the history or a byte of the store queue, an accumulator tag, a counter, an element of a window copy or of a triangle with its column and
counts, a byte of a receive buffer, a lane's PC or its join, and how far a paused copy command has come (12 R368, Table 12.8). -/
inductive ImageEdit where
  | scalar (r : Nat) (v : BitVec 64)
  | spc (v : BitVec 64)
  | vectorByte (r : Nat) (byte : Nat) (v : BitVec 8)
  | viqWord (n : Nat) (w : BitVec 64)
  | progress (n : Nat) (p : Nat)
  | control (n : Nat) (v : BitVec 64)
  | fmt (n : Nat) (v : BitVec 64)
  | shape (n : Nat) (v : BitVec 64)
  | viqSection (bytes : List (BitVec 8))
  | maskByte (m : Nat) (byte : Nat) (v : BitVec 8)
  | accByte (n : Nat) (byte : Nat) (v : BitVec 8)
  | stripByte (n : Nat) (byte : Nat) (v : BitVec 8)
  | history (n : Nat) (v : BitVec 64)
  | storeByte (n : Nat) (byte : Nat) (v : BitVec 8)
  | accTag (n : Nat) (int : Bool)
  | counter (n : Nat) (v : BitVec 64)
  | windowCopy (lane : Nat) (elem : Nat) (v : BitVec 64)
  | triangle (n : Nat) (elem : Nat) (v : BitVec 32)
  | triColumn (n : Nat) (elem : Nat) (v : BitVec 32)
  | triCount (n : Nat) (col : Nat) (v : BitVec 8)
  | streamByte (n : Nat) (byte : Nat) (v : BitVec 8)
  | lanePc (lane : Nat) (v : BitVec 64)
  | laneJoined (lane : Nat) (b : Bool)
  | copyPos (n : Nat) (pos : Nat)
  deriving DecidableEq, Repr

/-- The code of an element type in Table 2.3 (02 R34). -/
def EType.code : EType → Nat
  | .i8 => 0 | .i16 => 1 | .i32 => 2 | .i64 => 3 | .n8 => 4 | .n16 => 5 | .n32 => 6 | .n64 => 7
  | .bf16 => 8 | .fp16 => 9 | .fp32 => 10 | .fp64 => 11 | .e4m3 => 12 | .e5m2 => 13 | .fmt => 14

/-- The element type of a code, none for code 15 and above (02 R34). -/
def EType.ofCode : Nat → Option EType
  | 0 => some .i8 | 1 => some .i16 | 2 => some .i32 | 3 => some .i64
  | 4 => some .n8 | 5 => some .n16 | 6 => some .n32 | 7 => some .n64
  | 8 => some .bf16 | 9 => some .fp16 | 10 => some .fp32 | 11 => some .fp64
  | 12 => some .e4m3 | 13 => some .e5m2 | 14 => some .fmt
  | _ => none

/-- The value of the form field (02 R33). -/
def Form.code : Form → Nat
  | .vv => 0 | .vs => 1 | .vi => 2

/-- The form of a field value, none for 0b11 (02 R33). -/
def Form.ofCode : Nat → Option Form
  | 0 => some .vv | 1 => some .vs | 2 => some .vi | _ => none

/-- The value of the rsel field (02 R33). -/
def RSel.code : RSel → Nat
  | .none => 0 | .a => 1 | .b => 2 | .c => 3

/-- The replicated operand of a field value (02 R33). -/
def RSel.ofCode : Nat → RSel
  | 1 => .a | 2 => .b | 3 => .c | _ => .none

/-- The cause code of Table 12.1 (12 R349); Misaligned and KindCross have codes 0x03 and 0x05. -/
def ExcCause.code : ExcCause → Nat
  | .illegal => 0x01 | .controlFlow => 0x02 | .misaligned => 0x03 | .pageFault => 0x04 | .kindCross => 0x05
  | .poison => 0x06 | .arithmetic => 0x07 | .deadline => 0x08 | .skew => 0x09 | .peerLost => 0x0A
  | .machineCheck => 0x0B | .trap => 0x10 | .breakpoint => 0x11 | .doubleFault => 0x12
  | .preemption => 0x20 | .debugStop => 0x21

end Sys2Proof
end

