-- ==== Sys2Proof/Machine/Fields.lean ====
section
/-! DEFINITION. The fields of a 64-bit word and the decode checks of R43 that rest on the word alone
(spec/02_encoding_and_assembly.md and the entries of the class chapters). -/

namespace Sys2Proof

/-- The integer element types, codes 0 to 7 (05 R124). -/
def EType.isInt (e : EType) : Bool := e.code < 8
/-- The signed integer element types, codes 0 to 3 (05 Table 5.7, vabs). -/
def EType.isSignedInt (e : EType) : Bool := e.code < 4
/-- The floating-point element types, codes 8 to 14 (05 R129). -/
def EType.isFp (e : EType) : Bool := 8 ≤ e.code
/-- Every legal code, 0 to 14 (05 R128). -/
def EType.isAny (e : EType) : Bool := e.code < 15
/-- The types of the divide unit, codes 10 and 11 (06 R162). -/
def EType.isDiv (e : EType) : Bool := e.code == 10 || e.code == 11
/-- The types of an atomic: 2, 3, 6, 7, 10, 11 (10 R269). -/
def EType.isAmo (e : EType) : Bool := [2, 3, 6, 7, 10, 11].contains e.code
/-- The integer types of an atomic (10 Table 10.3). -/
def EType.isAmoInt (e : EType) : Bool := [2, 3, 6, 7].contains e.code
/-- Container bits of an element type with a fixed width; the format type counts as 8 here (05 R105). -/
def EType.fixedBits (e : EType) : Nat :=
  match e with
  | .i8 | .n8 | .e4m3 | .e5m2 | .fmt => 8
  | .i16 | .n16 | .bf16 | .fp16 => 16
  | .i32 | .n32 | .fp32 => 32
  | .i64 | .n64 | .fp64 => 64

/-- Bits [lo + n - 1 : lo] of fn12 as a number (02 Table 2.2). -/
def VWord.fnBits (w : VWord) (lo n : Nat) : Nat := w.fn.toNat / 2 ^ lo % 2 ^ n
/-- The function of a word: fn12, or fn6 in the vb field for a VI form (02 R40). -/
def VWord.key (w : VWord) : Nat := if w.form = .vi then w.vb.toNat else w.fn.toNat
/-- FN of a front or copy word, fn12 [8:5] (10 Table 10.1). -/
def VWord.fnFN (w : VWord) : Nat := w.fnBits 5 4
/-- The group-form bit of a memory word, fn12 [11] (07 Table 7.9). -/
def VWord.grp (w : VWord) : Nat := w.fnBits 11 1
/-- The chunk bit, fn12 [5] (07 Table 7.9). -/
def VWord.ch (w : VWord) : Nat := w.fnBits 5 1
/-- The index type, fn12 [9:8] (07 Table 7.9). -/
def VWord.ixt (w : VWord) : Nat := w.fnBits 8 2
/-- The cache hint, fn12 [7:6] (07 Table 7.9). -/
def VWord.hint (w : VWord) : Nat := w.fnBits 6 2
/-- The scope, fn12 [4:2] (07 Table 7.9; 10 Table 10.1). -/
def VWord.scope (w : VWord) : Nat := w.fnBits 2 3
/-- The ordering, fn12 [1:0] (07 Table 7.9; 10 Table 10.1). -/
def VWord.ord (w : VWord) : Nat := w.fnBits 0 2
/-- The forms a word accepts (02 R43). -/
def VWord.formIn (w : VWord) (vv vs vi : Bool) : Bool :=
  match w.form with | .vv => vv | .vs => vs | .vi => vi
/-- No replication: rsel, rsz and ridx are zero (02 R42). -/
def VWord.noRep (w : VWord) : Bool := w.rsel == .none && w.rsz == 0 && w.ridx == 0
/-- A two-source word's unused source field is zero; in VI form vb holds fn6 (02 R40). -/
def VWord.unusedTwo (w : VWord) : Bool :=
  match w.form with | .vv => w.vc == 0 | .vs => w.vb == 0 | .vi => w.vc == 0
/-- A one-source word's unused source fields are zero (02 R40). -/
def VWord.unusedOne (w : VWord) : Bool := w.vb == 0 && w.vc == 0
/-- The rules of R42 and R116 on rsel, rsz and ridx that rest on the word: `ra`, `rb`, `rc` say which operands the word
reads as vectors in VV form, and `vdVec` whether vd names a vector register. -/
def VWord.repOk (w : VWord) (ra rb rc vdVec : Bool) : Bool :=
  match w.rsel with
  | .none => w.rsz == 0 && w.ridx == 0
  | .a => ra && (!vdVec || w.vd != w.va)
  | .b => rb && w.form == .vv && (!vdVec || w.vd != w.vb)
  | .c => rc && w.form == .vv && (!vdVec || w.vd != w.vc)
/-- The words on masks: VV, etype 0, no mask, vc 0, va names a mask (05 R126). -/
def VWord.maskWord (w : VWord) : Bool :=
  w.form == .vv && w.ety == .i8 && w.mask == 0 && w.vc == 0 && w.noRep && w.va.toNat < 8
/-- The ORD and SCOPE rules of R197, with `a` the ordering the word may carry (1 acquire, 2 release). -/
def VWord.ordOk (w : VWord) (a : Nat) : Bool :=
  (w.ord == 0 && w.scope == 0) || (w.ord == a && w.scope ≤ 4)
/-- HINT of 0 or 1 (07 R197). -/
def VWord.hintOk (w : VWord) : Bool := w.hint < 2
/-- The ORD and SCOPE rules of R263: `allowed` is the set of legal ORD values as a bit set, SCOPE at most package. -/
def VWord.scopeOk (w : VWord) (allowed : Nat) : Bool :=
  allowed.testBit w.ord && w.scope < 4 && (w.ord != 0 || w.scope == 0)
/-- No mask and an etype field of zero (07 R203, R204). -/
def VWord.plain (w : VWord) : Bool := w.mask == 0 && w.ety == .i8
/-- The decode rules of vcvt (06 R151). -/
def VWord.vcvtOk (w : VWord) : Bool :=
  let dt := w.fnBits 0 4
  let rm := w.fnBits 4 3
  match EType.ofCode dt with
  | none => false
  | some d =>
    d != w.ety && rm < 6 && !(rm != 0 && d.isInt && w.ety.isInt) && !(w.fnBits 7 1 == 1 && d.isFp)
      && w.fnBits 8 4 == 0
      && !(w.vd == w.va && d != .fmt && w.ety != .fmt && w.ety.fixedBits < d.fixedBits)
/-- The decode rules of vcvt.ef (06 R154). -/
def VWord.vcvtEfOk (w : VWord) : Bool :=
  match EType.ofCode (w.fnBits 0 4) with
  | none => false
  | some d =>
    [8, 9, 12, 13, 14].contains d.code && (w.ety == .bf16 || w.ety == .fp16 || w.ety == .fp32)
      && d.fixedBits < w.ety.fixedBits && w.vd != w.va && w.fnBits 4 8 == 0
/-- The decode rules shared by vpack and vunpack (06 R158); the width of a format register is checked at issue. -/
def VWord.packOk (w : VWord) : Bool :=
  (w.ety == .i8 || w.ety == .n8 || w.ety == .fmt) && w.vd != w.va && 2 ≤ w.fnBits 0 4 && w.fnBits 0 4 < 8
    && w.fnBits 6 6 == 0 && !(w.fnBits 4 1 == 1 && w.ety == .fmt)
/-- A fence names a prior direction, a later direction and a kind, and d [5:4] are zero (10 R292). -/
def VWord.fenceOk (w : VWord) : Bool :=
  w.vd.toNat < 16 && w.vd.toNat % 4 != 0 && w.vd.toNat / 4 != 0 && w.fnBits 9 3 != 0
/-- The decode rules of mmode's imm12 (08 R214). -/
def VWord.mmodeOk (w : VWord) : Bool :=
  w.fnBits 7 5 == 0 && w.fnBits 0 2 != 3 && w.fnBits 4 2 != 3
    && !(w.fnBits 2 2 != 0 && w.fnBits 4 2 != 0) && !(w.fnBits 0 2 == 2 && w.fnBits 6 1 == 1)

end Sys2Proof

namespace Sys2Proof.Machine

/-- A scalar rounding mode is one of RNE, RTZ, RDN, RUP, RNA (03 R75). -/
def okRounding (m : BitVec 3) : Bool := m.toNat < 5
/-- The size code and register of smbcfg (04 R93). -/
def okSmbcfg (d : RegNo) (z : BitVec 3) : Bool := z.toNat < 6 && !(d == 0 && z != 0)

/-- The decode checks of R43 for vadd, vsub, vrsub, vmul, vsadd, vssub and the rows like them (R124). -/
def okVadd (w : VWord) : Bool :=
  w.formIn true true true && w.ety.isInt && w.unusedTwo && w.repOk true true false true

/-- The decode checks of R43 for vmulh, vmacc, vredt_and, vredt_or, vredt_xor (R124). -/
def okVmulh (w : VWord) : Bool :=
  w.formIn true true false && w.ety.isInt && w.unusedTwo && w.repOk true true false true

/-- The decode checks of R43 for vabs (R124). -/
def okVabs (w : VWord) : Bool :=
  w.formIn true false false && w.ety.isSignedInt && w.unusedOne && w.repOk true false false true

/-- The decode checks of R43 for vcmp_eq, vcmp_ne, vcmp_lt, vcmp_le, vcmp_gt, vcmp_ge (R125). -/
def okVcmpEq (w : VWord) : Bool :=
  w.formIn true true true && w.ety.isInt && w.unusedTwo && w.repOk true true false false && w.vd.toNat < 8

/-- The decode checks of R43 for mand, mor, mxor, mandn (R126). -/
def okMand (w : VWord) : Bool :=
  w.maskWord && w.vd.toNat < 8 && w.vb.toNat < 8

/-- The decode checks of R43 for mnot (R126). -/
def okMnot (w : VWord) : Bool :=
  w.maskWord && w.vd.toNat < 8 && w.vb == 0

/-- The decode checks of R43 for mpop, mfirst (R126). -/
def okMpop (w : VWord) : Bool :=
  w.maskWord && w.vb == 0

/-- The decode checks of R43 for vsel (R128). -/
def okVsel (w : VWord) : Bool :=
  w.formIn true true true && w.unusedTwo && w.repOk true true false true && w.mask != 0

/-- The decode checks of R43 for vbcast (R128). -/
def okVbcast (w : VWord) : Bool :=
  w.formIn false true true && w.unusedTwo && w.va == 0 && w.noRep

/-- The decode checks of R43 for vmv (R128). -/
def okVmv (w : VWord) : Bool :=
  w.formIn true false false && w.unusedOne && w.repOk true false false true

/-- The decode checks of R43 for vmvs_v (R128). -/
def okVmvsV (w : VWord) : Bool :=
  w.formIn false true false && w.va == 0 && w.vb == 0 && w.noRep && w.mask == 0

/-- The decode checks of R43 for vmvs_x (R128). -/
def okVmvsX (w : VWord) : Bool :=
  w.formIn true false false && w.unusedOne && w.repOk true false false false && w.mask == 0

/-- The decode checks of R43 for vfadd, vfsub, vfmul, vfmacc, vfmin, vfmax (R129). -/
def okVfadd (w : VWord) : Bool :=
  w.formIn true true true && w.ety.isFp && w.unusedTwo && w.repOk true true false true

/-- The decode checks of R43 for vfmadd, vfmsub, vfnmadd, vfnmsub (R129). -/
def okVfmadd (w : VWord) : Bool :=
  w.formIn true true false && w.ety.isFp && true && w.repOk true true true true

/-- The decode checks of R43 for vfabs, vfneg (R129). -/
def okVfabs (w : VWord) : Bool :=
  w.formIn true false false && w.ety.isFp && w.unusedOne && w.repOk true false false true

/-- The decode checks of R43 for vfsign_c, vfsign_n, vfsign_x (R129). -/
def okVfsignC (w : VWord) : Bool :=
  w.formIn true true false && w.ety.isFp && w.unusedTwo && w.repOk true true false true

/-- The decode checks of R43 for vfcmp_eq, vfcmp_ne, vfcmp_lt, vfcmp_le, vfcmp_gt, vfcmp_ge (R125). -/
def okVfcmpEq (w : VWord) : Bool :=
  w.formIn true true true && w.ety.isFp && w.unusedTwo && w.repOk true true false false && w.vd.toNat < 8

/-- The decode checks of R43 for vfcmp_un (R125). -/
def okVfcmpUn (w : VWord) : Bool :=
  w.formIn true true false && w.ety.isFp && w.unusedTwo && w.repOk true true false false && w.vd.toNat < 8

/-- The decode checks of R43 for vredo_add, vredo_min, vredo_max, vredt_add, vredt_min, vredt_max (R130). -/
def okVredoAdd (w : VWord) : Bool :=
  w.formIn true true false && w.ety.isAny && w.unusedTwo && w.repOk true true false true

/-- The decode checks of R43 for vscan_in_add, vscan_in_min, vscan_in_max, vscan_ex_add, vscan_ex_min, vscan_ex_max (R131). -/
def okVscanInAdd (w : VWord) : Bool :=
  w.formIn true true false && w.unusedTwo && w.noRep && w.vd != w.va && (w.form != .vv || w.vd != w.vb)

/-- The decode checks of R43 for vslip_up, vslip_dn (R132). -/
def okVslipUp (w : VWord) : Bool :=
  w.formIn false true true && w.unusedTwo && w.noRep && w.vd != w.va && (w.form != .vi || w.fn.toNat < 2048)

/-- The decode checks of R43 for vslip_upin, vslip_dnin (R132). -/
def okVslipUpin (w : VWord) : Bool :=
  w.formIn false true false && w.unusedTwo && w.noRep && w.vd != w.va

/-- The decode checks of R43 for vpick (R133). -/
def okVpick (w : VWord) : Bool :=
  w.formIn true true true && w.unusedTwo && w.noRep && w.vd != w.va && (w.form != .vv || w.vd != w.vb) &&
    (w.form != .vi || w.fn.toNat < 2048)

/-- The decode checks of R43 for vcompress, vexpand (R134). -/
def okVcompress (w : VWord) : Bool :=
  w.formIn true false false && w.unusedOne && w.noRep && w.vd != w.va

/-- The decode checks of R43 for vcvt (R151). -/
def okVcvt (w : VWord) : Bool :=
  w.formIn true false false && w.unusedOne && w.repOk true false false true && w.vcvtOk

/-- The decode checks of R43 for vcvt_ef (R155). -/
def okVcvtEf (w : VWord) : Bool :=
  w.formIn true false false && w.unusedOne && w.repOk true false false true && w.vcvtEfOk

/-- The decode checks of R43 for vpack (R158). -/
def okVpack (w : VWord) : Bool :=
  w.formIn true false false && w.unusedOne && w.repOk true false false true && w.mask == 0 && w.packOk

/-- The decode checks of R43 for vunpack (R158). -/
def okVunpack (w : VWord) : Bool :=
  w.formIn true false false && w.unusedOne && w.repOk true false false true && w.mask == 0 && w.packOk && w.fnBits 4 1 == 0

/-- The decode checks of R43 for vscale_mul, vscale_div (R159). -/
def okVscaleMul (w : VWord) : Bool :=
  w.formIn true true false && w.ety.isFp && w.unusedTwo && w.repOk true true false true && w.fnBits 4 8 == 0

/-- The decode checks of R43 for vfclass (R160). -/
def okVfclass (w : VWord) : Bool :=
  w.formIn true false false && w.ety.isFp && w.unusedOne && w.repOk true false false false && w.vd.toNat < 8 &&
    w.fnBits 10 2 == 0

/-- The decode checks of R43 for vdiv, vrdiv (R162). -/
def okVdiv (w : VWord) : Bool :=
  w.formIn true true false && w.ety.isDiv && w.unusedTwo && w.repOk true true false true

/-- The decode checks of R43 for vsqrt, vrsq (R162). -/
def okVsqrt (w : VWord) : Bool :=
  w.formIn true false false && w.ety.isDiv && w.unusedOne && w.repOk true false false true

/-- The decode checks of R43 for vld (R199). -/
def okVld (w : VWord) : Bool :=
  w.formIn false true false && w.noRep && w.ordOk 1 && w.hintOk && w.fnBits 8 3 == 0 && w.vb == 0

/-- The decode checks of R43 for vld_c (R336). -/
def okVldC (w : VWord) : Bool :=
  w.formIn false true false && w.noRep && w.ordOk 1 && w.hintOk && w.fnBits 8 3 == 0 && w.vb == 0 && w.va == 0

/-- The decode checks of R43 for vld_q (R200). -/
def okVldQ (w : VWord) : Bool :=
  w.formIn false true false && w.noRep && w.ch == 0 && w.ordOk 1 && w.hintOk && w.fnBits 8 3 == 0 && w.mask == 0 &&
    w.vd.toNat % 4 == 0

/-- The decode checks of R43 for vlds (R199). -/
def okVlds (w : VWord) : Bool :=
  w.formIn false true false && w.noRep && w.ordOk 1 && w.hintOk && w.fnBits 8 4 == 0 && w.fnBits 5 1 == 0

/-- The decode checks of R43 for vldx (R199). -/
def okVldx (w : VWord) : Bool :=
  w.formIn false true false && w.noRep && w.ordOk 1 && w.hintOk && w.grp == 0 && w.ch == 0 && w.ixt < 3 &&
    w.vb == 0 && w.vd != w.va

/-- The decode checks of R43 for vldg (R201). -/
def okVldg (w : VWord) : Bool :=
  w.formIn false true false && w.noRep && w.ordOk 1 && w.hint == 0 && w.grp == 0 && w.ch == 0 && w.ixt < 3 &&
    w.vb == 0 && w.vd != w.va

/-- The decode checks of R43 for vst (R199). -/
def okVst (w : VWord) : Bool :=
  w.formIn false true false && w.noRep && w.ordOk 2 && w.hintOk && w.fnBits 8 3 == 0 && w.vb == 0

/-- The decode checks of R43 for vst_c (R336). -/
def okVstC (w : VWord) : Bool :=
  w.formIn false true false && w.noRep && w.ordOk 2 && w.hintOk && w.fnBits 8 3 == 0 && w.vb == 0 && w.va == 0

/-- The decode checks of R43 for vst_q (R200). -/
def okVstQ (w : VWord) : Bool :=
  w.formIn false true false && w.noRep && w.ch == 0 && w.ordOk 2 && w.hintOk && w.fnBits 8 3 == 0 && w.mask == 0 &&
    w.vd.toNat % 4 == 0

/-- The decode checks of R43 for vsts (R199). -/
def okVsts (w : VWord) : Bool :=
  w.formIn false true false && w.noRep && w.ordOk 2 && w.hintOk && w.fnBits 8 4 == 0 && w.fnBits 5 1 == 0

/-- The decode checks of R43 for vstx, vstxo (R199). -/
def okVstx (w : VWord) : Bool :=
  w.formIn false true false && w.noRep && w.ordOk 2 && w.hintOk && w.grp == 0 && w.ch == 0 && w.ixt < 3 && w.vb == 0

/-- The decode checks of R43 for vstg (R201). -/
def okVstg (w : VWord) : Bool :=
  w.formIn false true false && w.noRep && w.ordOk 2 && w.hint == 0 && w.grp == 0 && w.ch == 0 && w.ixt < 3 &&
    w.vb == 0

/-- The decode checks of R43 for vpref (R202). -/
def okVpref (w : VWord) : Bool :=
  w.formIn false true false && w.noRep && w.fn == 0 && w.vd == 0 && w.vb == 0

/-- The decode checks of R43 for scommit (R203). -/
def okScommit (w : VWord) : Bool :=
  w.formIn false true false && w.noRep && w.plain && w.fn == 0 && w.vd == 0 && w.va == 0 && w.vb == 0 && w.vc == 0 &&
    !w.chain

/-- The decode checks of R43 for cutstep (R204). -/
def okCutstep (w : VWord) : Bool :=
  w.formIn false true false && w.noRep && w.plain && w.fn == 0 && w.vd == 0 && w.va == 0 && w.vb == 0 && !w.chain

/-- The decode checks of R43 for mzero (R227). -/
def okMzero (w : VWord) : Bool :=
  w.formIn true false false && w.noRep && w.mask == 0 && w.fn == 0 && w.vd.toNat < 2 && w.va == 0 && w.vb == 0 &&
    w.vc == 0 && (w.ety == .fp32 || w.ety == .i32)

/-- The decode checks of R43 for mouter (R223). -/
def okMouter (w : VWord) : Bool :=
  w.formIn true false false && w.noRep && w.mask == 0 && w.fn == 0 && w.vd.toNat < 2 && w.va.toNat % 4 == 0 &&
    w.vb.toNat % 4 == 0 && w.vc.toNat % 4 == 0 && w.ety == .fp32

/-- The decode checks of R43 for mouteri (R223). -/
def okMouteri (w : VWord) : Bool :=
  w.formIn true false false && w.noRep && w.mask == 0 && w.fn == 0 && w.vd.toNat < 2 && w.va.toNat % 4 == 0 &&
    w.vb.toNat % 4 == 0 && w.vc.toNat % 4 == 0 && w.ety == .i32

/-- The decode checks of R43 for mouterc (R224). -/
def okMouterc (w : VWord) : Bool :=
  w.formIn true false false && w.noRep && w.mask == 0 && w.fn == 0 && w.vd.toNat < 2 && w.va.toNat % 4 == 0 &&
    w.vb.toNat % 4 == 0 && w.vc.toNat % 4 == 0 && (w.ety == .fp32 || w.ety == .i32)

/-- The decode checks of R43 for mlacc (R228). -/
def okMlacc (w : VWord) : Bool :=
  w.formIn true false false && w.noRep && w.mask == 0 && w.fn == 0 && w.vd.toNat < 2 && w.va.toNat % 4 == 0 &&
    w.vb == 0 && w.vc == 0 && (w.ety == .fp32 || w.ety == .i32)

/-- The decode checks of R43 for mdrain (R231). -/
def okMdrain (w : VWord) : Bool :=
  w.formIn false true false && w.noRep && w.vd.toNat < 2 && w.ordOk 2 && w.hintOk && w.fnBits 8 4 == 0 &&
    w.fnBits 5 1 == 0 && (w.ety == .fp32 || w.ety == .i32 || w.ety == .bf16 || w.ety == .fp16)

/-- The decode checks of R43 for mtov (R230). -/
def okMtov (w : VWord) : Bool :=
  w.formIn true false false && w.noRep && w.mask == 0 && w.fn == 0 && w.vd.toNat % 4 == 0 && w.va.toNat < 2 &&
    w.vb == 0 && w.vc == 0 && (w.ety == .fp32 || w.ety == .i32 || w.ety == .bf16 || w.ety == .fp16)

/-- The decode checks of R43 for mscale (R229). -/
def okMscale (w : VWord) : Bool :=
  w.formIn true false false && w.noRep && w.mask == 0 && w.fn == 0 && w.vd.toNat < 2 && w.vc == 0 && w.ety == .fp32

/-- The decode checks of R43 for bclr (R251). -/
def okBclr (w : VWord) : Bool :=
  w.formIn true false false && w.noRep && w.mask == 0 && w.fn == 0 && w.ety == .fp32 && w.vd == 0 && w.va == 0 &&
    w.vb == 0 && w.vc.toNat < 4

/-- The decode checks of R43 for btload (R252). -/
def okBtload (w : VWord) : Bool :=
  w.formIn false true false && w.noRep && w.mask == 0 && w.ety == .fp32 && w.vd.toNat < 4 && w.ordOk 1 &&
    w.hintOk && w.fnBits 8 2 == 0 && w.ch == 0

/-- The decode checks of R43 for btdrain (R252). -/
def okBtdrain (w : VWord) : Bool :=
  w.formIn false true false && w.noRep && w.mask == 0 && w.ety == .fp32 && w.vd.toNat < 4 && w.ordOk 2 &&
    w.hintOk && w.fnBits 8 2 == 0 && w.ch == 0

/-- The decode checks of R43 for bqr (R253). -/
def okBqr (w : VWord) : Bool :=
  w.formIn true false false && w.noRep && w.mask == 0 && w.ety == .fp32 && w.vd == 0 && w.va.toNat % 4 == 0 &&
    w.vb == 0 && w.vc.toNat < 4

/-- The decode checks of R43 for bqra, bapply, bapply_c0 (R253). -/
def okBqra (w : VWord) : Bool :=
  w.formIn true false false && w.noRep && w.mask == 0 && w.ety == .fp32 && w.va.toNat % 4 == 0 && w.vc.toNat < 4

/-- The decode checks of R43 for bqr_d (R253). -/
def okBqrD (w : VWord) : Bool :=
  w.formIn true false false && w.noRep && w.mask == 0 && w.ety == .fp32 && w.vd.toNat % 4 == 0 &&
    w.va.toNat % 4 == 0 && w.vb == 0 && w.vc.toNat < 4

/-- The decode checks of R43 for bvec (R256). -/
def okBvec (w : VWord) : Bool :=
  w.formIn true false false && w.noRep && w.ety == .fp32 && w.vc == 0 && w.vd != w.va && w.vd != w.vb

/-- The decode checks of R43 for bangle_d, bangle_a (R256). -/
def okBangleD (w : VWord) : Bool :=
  w.formIn true false false && w.noRep && w.ety == .n32 && w.vb == 0 && w.vc == 0 && w.vd != w.va

/-- The decode checks of R43 for brot (R257). -/
def okBrot (w : VWord) : Bool :=
  w.formIn true false false && w.noRep && w.mask == 0 && w.ety == .fp32 && w.vc == 0 && w.fnBits 5 7 == 0 &&
    w.fnBits 1 4 < 14 && w.vd != w.va && w.vd != w.vb

/-- The decode checks of R43 for vrotate (R256). -/
def okVrotate (w : VWord) : Bool :=
  w.formIn true false false && w.noRep && w.ety == .fp32 && w.fnBits 1 5 == 0 && w.fnBits 7 5 == 0 &&
    w.vd.toNat % 2 == 0

/-- The decode checks of R43 for bgain (R258). -/
def okBgain (w : VWord) : Bool :=
  w.formIn false false true && w.noRep && w.mask == 0 && w.ety == .i8 && w.vd == 0 && w.va == 0 && w.vc == 0 &&
    w.fnBits 1 11 == 0

/-- The decode checks of R43 for bsolve (R255). -/
def okBsolve (w : VWord) : Bool :=
  w.formIn true false false && w.noRep && w.mask == 0 && w.ety == .fp32 && w.va == 0 && w.vb == 0 && w.vc.toNat < 4

/-- The decode checks of R43 for amo_swap, amo_add, amo_min, amo_max (R269). -/
def okAmoSwap (w : VWord) : Bool :=
  w.formIn false true false && w.noRep && w.mask == 0 && !w.chain && w.ety.isAmo && w.scopeOk 15 &&
    w.fnBits 9 3 == 0 && w.vc == 0

/-- The decode checks of R43 for amo_and, amo_or, amo_xor (R269). -/
def okAmoAnd (w : VWord) : Bool :=
  w.formIn false true false && w.noRep && w.mask == 0 && !w.chain && w.ety.isAmoInt && w.scopeOk 15 &&
    w.fnBits 9 3 == 0 && w.vc == 0

/-- The decode checks of R43 for amocas (R270). -/
def okAmocas (w : VWord) : Bool :=
  w.formIn false true false && w.noRep && w.mask == 0 && !w.chain && (w.ety == .i32 || w.ety == .i64) &&
    w.fnFN == 0 && w.scopeOk 15 && w.fnBits 9 3 == 0

/-- The decode checks of R43 for vamo, vamoo (R272, R273). -/
def okVamo (w : VWord) : Bool :=
  w.formIn false true false && w.noRep && w.ety.isAmo && w.fnFN < 7 && (w.ety.isAmoInt || !(2 <= w.fnFN &&
    w.fnFN < 5)) && w.scope < 4 && (if w.fnBits 9 1 == 1 then w.vd == 0 else w.vd != w.va && w.vd != w.vb)

/-- The decode checks of R43 for accw (R277). -/
def okAccw (w : VWord) : Bool :=
  w.formIn false true false && w.noRep && w.mask == 0 && w.ety.isAmo && w.fnBits 0 5 == 0 && w.fnBits 9 2 < 3 &&
    w.fnBits 11 1 == 0 && w.vd == 0 && w.va == 0 && w.vb == 0

/-- The decode checks of R43 for vacc (R278). -/
def okVacc (w : VWord) : Bool :=
  w.formIn true false false && w.noRep && w.ety.isAmo && w.fnBits 0 5 == 0 && w.fnBits 9 3 == 0 && w.vd == 0 &&
    w.vc == 0

/-- The decode checks of R43 for amerge: any SCOPE with ORD 0 or 2 (R276, R279). (DEDUCED, log 74.) -/
def okAmerge (w : VWord) : Bool :=
  w.formIn false true false && w.noRep && w.mask == 0 && w.ety.isAmo && (w.ord == 0 || w.ord == 2) && w.fnBits 9 3 == 0 &&
    w.vd == 0 && w.va == 0 && w.vb == 0

/-- The decode checks of R43 for accrel (R280). -/
def okAccrel (w : VWord) : Bool :=
  w.formIn true false false && w.noRep && w.mask == 0 && w.ety == .i8 && w.fnBits 0 5 == 0 && w.fnBits 9 3 == 0 &&
    w.vd == 0 && w.va == 0 && w.vb == 0 && w.vc == 0

/-- The decode checks of R43 for sync_rd (R283). -/
def okSyncRd (w : VWord) : Bool :=
  w.formIn false true false && w.noRep && w.mask == 0 && !w.chain && w.ety == .i8 && w.fnBits 9 3 == 0 &&
    w.scopeOk 3 && w.vb == 0 && w.vc == 0

/-- The decode checks of R43 for sync_wr, aw_init, aw_add (R283). -/
def okSyncWr (w : VWord) : Bool :=
  w.formIn false true false && w.noRep && w.mask == 0 && !w.chain && w.ety == .i8 && w.fnBits 9 3 == 0 &&
    w.scopeOk 5 && w.vd == 0 && w.vc == 0

/-- The decode checks of R43 for sync_tas (R283). -/
def okSyncTas (w : VWord) : Bool :=
  w.formIn false true false && w.noRep && w.mask == 0 && !w.chain && w.ety == .i8 && w.fnBits 9 3 == 0 &&
    w.scopeOk 15 && w.vb == 0 && w.vc == 0

/-- The decode checks of R43 for sync_fadd (R283). -/
def okSyncFadd (w : VWord) : Bool :=
  w.formIn false true false && w.noRep && w.mask == 0 && !w.chain && w.ety == .i8 && w.fnBits 9 3 == 0 &&
    w.scopeOk 15 && w.vc == 0

/-- The decode checks of R43 for hud_init (R286). -/
def okHudInit (w : VWord) : Bool :=
  w.formIn false true false && w.noRep && w.mask == 0 && !w.chain && w.ety == .i8 && w.fnBits 9 3 == 0 &&
    w.fnBits 0 5 == 0 && w.vc == 0

/-- The decode checks of R43 for hud_arr, hud_drop (R287). -/
def okHudArr (w : VWord) : Bool :=
  w.formIn false true false && w.noRep && w.mask == 0 && !w.chain && w.ety == .i8 && w.fnBits 9 3 == 0 &&
    w.fnBits 0 5 == 0 && w.vb == 0 && w.vc == 0

/-- The decode checks of R43 for hud_wait (R288). -/
def okHudWait (w : VWord) : Bool :=
  w.formIn false true false && w.noRep && w.mask == 0 && !w.chain && w.ety == .i8 && w.fnBits 9 3 == 0 &&
    w.fnBits 0 5 == 0 && w.vd == 0 && w.vc == 0

/-- The decode checks of R43 for post, post_set, waiti (R291). -/
def okPost (w : VWord) : Bool :=
  w.formIn false true false && w.noRep && w.mask == 0 && !w.chain && w.ety == .i8 && w.fnBits 9 3 == 0 &&
    w.fnBits 0 5 == 0 && w.vd == 0 && w.vb == 0 && w.vc == 0

/-- The decode checks of R43 for fence (R292). -/
def okFence (w : VWord) : Bool :=
  w.formIn false true false && w.noRep && w.mask == 0 && !w.chain && w.ety == .i8 && w.fnFN == 0 &&
    w.fnBits 0 2 == 0 && w.fnBits 2 3 < 4 && w.va == 0 && w.vb == 0 && w.vc == 0 && w.fenceOk

/-- The decode checks of R43 for aw_wait (R295). -/
def okAwWait (w : VWord) : Bool :=
  w.formIn false true false && w.noRep && w.mask == 0 && !w.chain && w.ety == .i8 && w.fnBits 9 3 == 0 &&
    w.scopeOk 3 && w.vc == 0

/-- The decode checks of R43 for cp (R297). -/
def okCp (w : VWord) : Bool :=
  w.formIn false true false && w.noRep && w.mask == 0 && w.ety == .i8 && w.fnBits 0 5 == 0 && w.fnBits 10 2 == 0

/-- The decode checks of R43 for cp2, cpx; the limits of the table are checked at issue (R297). -/
def okCp2 (w : VWord) : Bool :=
  w.formIn false true false && w.noRep && w.mask == 0 && w.ety == .i8 && w.fnBits 0 5 == 0 && w.fnBits 10 2 == 0

/-- The decode checks of R43 for cpq; the limits of the table are checked at issue (R297). (DEDUCED, log 75.) -/
def okCpq (w : VWord) : Bool :=
  w.formIn false true false && w.noRep && w.mask == 0 && w.ety == .i8 && w.fnBits 0 5 == 0 && w.fnBits 10 2 == 0 &&
    w.fnBits 9 1 == 0 && w.vd == 0 && w.va == 0

/-- The decode checks of R43 for cpw (R301). (DEDUCED, log 75.) -/
def okCpw (w : VWord) : Bool :=
  w.formIn false true false && w.noRep && w.mask == 0 && w.ety == .i8 && w.fnBits 0 5 == 0 && w.fnBits 10 2 == 0 &&
    w.fnBits 9 1 == 0 && w.vd == 0 && w.vb == 0 && w.vc == 0

/-- The decode checks of R43 for wdecl (R309). -/
def okWdecl (w : VWord) : Bool :=
  w.formIn false true false && w.noRep && w.mask == 0 && w.ety == .i8

/-- The decode checks of R43 for wdecl_rel (R310). -/
def okWdeclRel (w : VWord) : Bool :=
  w.formIn false true false && w.noRep && w.mask == 0 && w.ety == .i8 && w.vd == 0 && w.vb == 0 && w.vc == 0

/-- The decode checks of R43 for vldr (R326). -/
def okVldr (w : VWord) : Bool :=
  w.formIn false true false && w.noRep && w.fnBits 0 11 == 0 && (w.fnBits 11 1 == 1 || w.va == 0) &&
    (w.fnBits 11 1 == 0 || w.vd != w.va)

/-- The decode checks of R43 for vstr (R327). -/
def okVstr (w : VWord) : Bool :=
  w.formIn false true false && w.noRep && w.fnBits 0 11 == 0 && (w.fnBits 11 1 == 1 || w.va == 0)

/-- The decode checks of R43 for step, stepq (R314). -/
def okStep (w : VWord) : Bool :=
  w.formIn false true false && w.noRep && w.mask == 0 && w.ety == .i8 && w.vb == 0 && w.vc == 0

/-- The decode checks of R43 for step_at (R320). -/
def okStepAt (w : VWord) : Bool :=
  w.formIn false true false && w.noRep && w.mask == 0 && w.ety == .i8 && w.vc == 0

/-- The decode checks of R43 for fsbind_rx, fsbind_tx (R337). -/
def okFsbindRx (w : VWord) : Bool :=
  w.formIn false true false && w.noRep && w.mask == 0 && w.ety == .i8 && w.vd.toNat < 8 && w.va == 0 && w.vb == 0

/-- The decode checks of R43 for fsbind_u (R337). -/
def okFsbindU (w : VWord) : Bool :=
  w.formIn false true false && w.noRep && w.mask == 0 && w.ety == .i8 && w.vd.toNat < 8 && w.va == 0 &&
    w.vb == 0 && w.vc == 0

/-- The decode checks of R43 for vcred (R343). -/
def okVcred (w : VWord) : Bool :=
  w.formIn true false false && w.noRep && w.vc == 0

/-- The decode checks of R43 for setvl (R109). -/
def okSetvl (w : VWord) : Bool :=
  w.formIn false true true && w.noRep && w.mask == 0 && !w.chain && w.ety == .i8 && w.va == 0 && w.unusedTwo &&
    (w.form != .vi || w.fn.toNat < 2048)

/-- The decode checks of R43 for setvt (R110). -/
def okSetvt (w : VWord) : Bool :=
  w.formIn false true true && w.noRep && w.mask == 0 && !w.chain && w.ety == .i8 && w.va == 0 && w.vd == 0 &&
    w.unusedTwo

/-- The decode checks of R43 for setfmt (R141). -/
def okSetfmt (w : VWord) : Bool :=
  w.formIn false true false && w.noRep && w.mask == 0 && !w.chain && w.ety == .i8 && w.vd.toNat < 8 && w.va == 0 &&
    w.vb == 0

/-- The decode checks of R43 for mshape (R114). -/
def okMshape (w : VWord) : Bool :=
  w.formIn false true false && w.noRep && w.mask == 0 && !w.chain && w.vd.toNat % 4 == 0 && w.va == 0 && w.vb == 0

/-- The decode checks of R43 for tshape (R215). -/
def okTshape (w : VWord) : Bool :=
  w.formIn false true false && w.noRep && w.mask == 0 && !w.chain && w.ety == .i8 && w.va == 0 && w.vb == 0

/-- The decode checks of R43 for mmode (R214). -/
def okMmode (w : VWord) : Bool :=
  w.formIn false false true && w.noRep && w.mask == 0 && !w.chain && w.ety == .i8 && w.vd == 0 && w.va == 0 &&
    w.vb == 0 && w.vc == 0 && w.mmodeOk

end Sys2Proof.Machine
end

