-- ==== Sys2Proof/Syntax.lean ====
section
/-! DEFINITION. The instructions and events of spec/opcode_table.json, one constructor per row. -/

namespace Sys2Proof

/-- Every row of spec/opcode_table.json: the 32-bit words with their operand fields (02 R31, R32), the 64-bit words with
the fields of Table 2.2 (02 R33), and the events of the other agents with what each carries. -/
inductive Instr where
  /-- s[d] := s[a] + s[b], wrapping modulo 2^64. (R66). -/
  | add (d : BitVec 6) (a : BitVec 6) (b : BitVec 6)
  /-- s[d] := s[a] − s[b], wrapping modulo 2^64. (R66). -/
  | sub (d : BitVec 6) (a : BitVec 6) (b : BitVec 6)
  /-- s[d] := s[a] AND s[b]. (R66). -/
  | and (d : BitVec 6) (a : BitVec 6) (b : BitVec 6)
  /-- s[d] := s[a] OR s[b]. (R66). -/
  | or (d : BitVec 6) (a : BitVec 6) (b : BitVec 6)
  /-- s[d] := s[a] XOR s[b]. (R66). -/
  | xor (d : BitVec 6) (a : BitVec 6) (b : BitVec 6)
  /-- s[d] := s[a] AND NOT s[b]. (R66). -/
  | andn (d : BitVec 6) (a : BitVec 6) (b : BitVec 6)
  /-- Shifts s[a] left by s[b] bits [5:0]. (R66). -/
  | sll (d : BitVec 6) (a : BitVec 6) (b : BitVec 6)
  /-- Shifts s[a] right logically by s[b] bits [5:0]. (R66). -/
  | srl (d : BitVec 6) (a : BitVec 6) (b : BitVec 6)
  /-- Shifts s[a] right arithmetically by s[b] bits [5:0]. (R66). -/
  | sra (d : BitVec 6) (a : BitVec 6) (b : BitVec 6)
  /-- Rotates s[a] right by s[b] bits [5:0]. (R66). -/
  | ror (d : BitVec 6) (a : BitVec 6) (b : BitVec 6)
  /-- Sets s[d] to 1 when s[a] < s[b] signed. (R66). -/
  | slt (d : BitVec 6) (a : BitVec 6) (b : BitVec 6)
  /-- Sets s[d] to 1 when s[a] < s[b] unsigned. (R66). -/
  | sltn (d : BitVec 6) (a : BitVec 6) (b : BitVec 6)
  /-- Signed minimum of s[a] and s[b]. (R66). -/
  | min (d : BitVec 6) (a : BitVec 6) (b : BitVec 6)
  /-- Signed maximum of s[a] and s[b]. (R66). -/
  | max (d : BitVec 6) (a : BitVec 6) (b : BitVec 6)
  /-- Unsigned minimum of s[a] and s[b]. (R66). -/
  | minn (d : BitVec 6) (a : BitVec 6) (b : BitVec 6)
  /-- Unsigned maximum of s[a] and s[b]. (R66). -/
  | maxn (d : BitVec 6) (a : BitVec 6) (b : BitVec 6)
  /-- Counts the leading zero bits of s[a]. (R66). -/
  | clz (d : BitVec 6) (a : BitVec 6)
  /-- Counts the trailing zero bits of s[a]. (R66). -/
  | ctz (d : BitVec 6) (a : BitVec 6)
  /-- Counts the one bits of s[a]. (R66). -/
  | cpop (d : BitVec 6) (a : BitVec 6)
  /-- Low 64 bits of s[a] × s[b]. (R67). -/
  | mul (d : BitVec 6) (a : BitVec 6) (b : BitVec 6)
  /-- High 64 bits of the signed product. (R67). -/
  | mulh (d : BitVec 6) (a : BitVec 6) (b : BitVec 6)
  /-- High 64 bits of the unsigned product. (R67). -/
  | mulhn (d : BitVec 6) (a : BitVec 6) (b : BitVec 6)
  /-- Signed quotient on the non-pipelined divider, 34 cyc. (R67). -/
  | div (d : BitVec 6) (a : BitVec 6) (b : BitVec 6)
  /-- Unsigned quotient on the divider. (R67). -/
  | divn (d : BitVec 6) (a : BitVec 6) (b : BitVec 6)
  /-- Signed remainder on the divider. (R67). -/
  | rem (d : BitVec 6) (a : BitVec 6) (b : BitVec 6)
  /-- Unsigned remainder on the divider. (R67). -/
  | remn (d : BitVec 6) (a : BitVec 6) (b : BitVec 6)
  /-- s[d] := s[a] + sign-extended imm13. (R68). -/
  | addi (d : BitVec 6) (a : BitVec 6) (i : BitVec 13)
  /-- s[d] := s[a] AND sign-extended imm13. (R68). -/
  | andi (d : BitVec 6) (a : BitVec 6) (i : BitVec 13)
  /-- s[d] := s[a] OR sign-extended imm13. (R68). -/
  | ori (d : BitVec 6) (a : BitVec 6) (i : BitVec 13)
  /-- s[d] := s[a] XOR sign-extended imm13. (R68). -/
  | xori (d : BitVec 6) (a : BitVec 6) (i : BitVec 13)
  /-- Shifts s[a] left by an immediate amount. (R68). -/
  | slli (d : BitVec 6) (a : BitVec 6) (h : BitVec 6)
  /-- Shifts s[a] right logically by an immediate amount. (R68). -/
  | srli (d : BitVec 6) (a : BitVec 6) (h : BitVec 6)
  /-- Shifts s[a] right arithmetically by an immediate amount. (R68). -/
  | srai (d : BitVec 6) (a : BitVec 6) (h : BitVec 6)
  /-- Signed compare of s[a] with an immediate. (R68). -/
  | slti (d : BitVec 6) (a : BitVec 6) (i : BitVec 13)
  /-- Unsigned compare of s[a] with an immediate. (R68). -/
  | sltin (d : BitVec 6) (a : BitVec 6) (i : BitVec 13)
  /-- s[d] := Sext(imm19) × 2^13. (R69). -/
  | lui (d : BitVec 6) (i : BitVec 19)
  /-- s[d] := word address + Sext(imm19) × 2^13. (R69). -/
  | addpc (d : BitVec 6) (i : BitVec 19)
  /-- Loads a sign-extended byte. (R70). -/
  | ldI8 (d : BitVec 6) (a : BitVec 6) (i : BitVec 13)
  /-- Loads a sign-extended half. (R70). -/
  | ldI16 (d : BitVec 6) (a : BitVec 6) (i : BitVec 13)
  /-- Loads a sign-extended word. (R70). -/
  | ldI32 (d : BitVec 6) (a : BitVec 6) (i : BitVec 13)
  /-- Loads a double. (R70). -/
  | ldI64 (d : BitVec 6) (a : BitVec 6) (i : BitVec 13)
  /-- Loads a zero-extended byte. (R70). -/
  | ldN8 (d : BitVec 6) (a : BitVec 6) (i : BitVec 13)
  /-- Loads a zero-extended half. (R70). -/
  | ldN16 (d : BitVec 6) (a : BitVec 6) (i : BitVec 13)
  /-- Loads a zero-extended word. (R70). -/
  | ldN32 (d : BitVec 6) (a : BitVec 6) (i : BitVec 13)
  /-- Stores the low byte of s[b] through the scalar store queue. (R70). -/
  | stI8 (a : BitVec 6) (b : BitVec 6) (i : BitVec 13)
  /-- Stores the low half of s[b] through the scalar store queue. (R70). -/
  | stI16 (a : BitVec 6) (b : BitVec 6) (i : BitVec 13)
  /-- Stores the low word of s[b] through the scalar store queue. (R70). -/
  | stI32 (a : BitVec 6) (b : BitVec 6) (i : BitVec 13)
  /-- Stores s[b] through the scalar store queue. (R70). -/
  | stI64 (a : BitVec 6) (b : BitVec 6) (i : BitVec 13)
  /-- Reads control register n into s[d], draining the VIQ for lane registers. (R74). -/
  | mfc (d : BitVec 6) (n : BitVec 12)
  /-- Writes s[a] to control register n under the field types; lane registers get a one-slot VIQ entry. (R74). -/
  | mtc (a : BitVec 6) (n : BitVec 12)
  /-- FP64 add rounded in the word's mode. (R76). -/
  | faddD (d : BitVec 6) (a : BitVec 6) (b : BitVec 6) (m : BitVec 3)
  /-- FP64 subtract. (R76). -/
  | fsubD (d : BitVec 6) (a : BitVec 6) (b : BitVec 6) (m : BitVec 3)
  /-- FP64 multiply. (R76). -/
  | fmulD (d : BitVec 6) (a : BitVec 6) (b : BitVec 6) (m : BitVec 3)
  /-- FP64 divide on the front's FP divide unit. (R76). -/
  | fdivD (d : BitVec 6) (a : BitVec 6) (b : BitVec 6) (m : BitVec 3)
  /-- FP64 square root on the FP divide unit. (R76). -/
  | fsqrtD (d : BitVec 6) (a : BitVec 6) (m : BitVec 3)
  /-- FP64 minimum. (R76). -/
  | fminD (d : BitVec 6) (a : BitVec 6) (b : BitVec 6)
  /-- FP64 maximum. (R76). -/
  | fmaxD (d : BitVec 6) (a : BitVec 6) (b : BitVec 6)
  /-- FP64 a with the sign of b. (R76). -/
  | fsignCD (d : BitVec 6) (a : BitVec 6) (b : BitVec 6)
  /-- FP64 a with the inverted sign of b. (R76). -/
  | fsignND (d : BitVec 6) (a : BitVec 6) (b : BitVec 6)
  /-- FP64 a with sign(a) XOR sign(b). (R76). -/
  | fsignXD (d : BitVec 6) (a : BitVec 6) (b : BitVec 6)
  /-- FP32 add. (R76). -/
  | faddS (d : BitVec 6) (a : BitVec 6) (b : BitVec 6) (m : BitVec 3)
  /-- FP32 subtract. (R76). -/
  | fsubS (d : BitVec 6) (a : BitVec 6) (b : BitVec 6) (m : BitVec 3)
  /-- FP32 multiply. (R76). -/
  | fmulS (d : BitVec 6) (a : BitVec 6) (b : BitVec 6) (m : BitVec 3)
  /-- FP32 divide on the FP divide unit. (R76). -/
  | fdivS (d : BitVec 6) (a : BitVec 6) (b : BitVec 6) (m : BitVec 3)
  /-- FP32 square root on the FP divide unit. (R76). -/
  | fsqrtS (d : BitVec 6) (a : BitVec 6) (m : BitVec 3)
  /-- FP32 minimum. (R76). -/
  | fminS (d : BitVec 6) (a : BitVec 6) (b : BitVec 6)
  /-- FP32 maximum. (R76). -/
  | fmaxS (d : BitVec 6) (a : BitVec 6) (b : BitVec 6)
  /-- FP32 a with the sign of b. (R76). -/
  | fsignCS (d : BitVec 6) (a : BitVec 6) (b : BitVec 6)
  /-- FP32 a with the inverted sign of b. (R76). -/
  | fsignNS (d : BitVec 6) (a : BitVec 6) (b : BitVec 6)
  /-- FP32 a with sign(a) XOR sign(b). (R76). -/
  | fsignXS (d : BitVec 6) (a : BitVec 6) (b : BitVec 6)
  /-- FP64 fused a × b + d into d. (R77). -/
  | fmaddD (d : BitVec 6) (a : BitVec 6) (b : BitVec 6) (m : BitVec 3)
  /-- FP64 fused a × b − d into d. (R77). -/
  | fmsubD (d : BitVec 6) (a : BitVec 6) (b : BitVec 6) (m : BitVec 3)
  /-- FP64 fused −(a × b) − d into d. (R77). -/
  | fnmaddD (d : BitVec 6) (a : BitVec 6) (b : BitVec 6) (m : BitVec 3)
  /-- FP64 fused −(a × b) + d into d. (R77). -/
  | fnmsubD (d : BitVec 6) (a : BitVec 6) (b : BitVec 6) (m : BitVec 3)
  /-- FP32 fused a × b + d into d. (R77). -/
  | fmaddS (d : BitVec 6) (a : BitVec 6) (b : BitVec 6) (m : BitVec 3)
  /-- FP32 fused a × b − d into d. (R77). -/
  | fmsubS (d : BitVec 6) (a : BitVec 6) (b : BitVec 6) (m : BitVec 3)
  /-- FP32 fused −(a × b) − d into d. (R77). -/
  | fnmaddS (d : BitVec 6) (a : BitVec 6) (b : BitVec 6) (m : BitVec 3)
  /-- FP32 fused −(a × b) + d into d. (R77). -/
  | fnmsubS (d : BitVec 6) (a : BitVec 6) (b : BitVec 6) (m : BitVec 3)
  /-- Converts FP32 to FP64 exactly. (R78). -/
  | cvtDS (d : BitVec 6) (a : BitVec 6)
  /-- Converts FP64 to FP32. (R78). -/
  | cvtSD (d : BitVec 6) (a : BitVec 6) (m : BitVec 3)
  /-- Converts I64 to FP64. (R78). -/
  | cvtDI64 (d : BitVec 6) (a : BitVec 6) (m : BitVec 3)
  /-- Converts N64 to FP64. (R78). -/
  | cvtDN64 (d : BitVec 6) (a : BitVec 6) (m : BitVec 3)
  /-- Converts I64 to FP32. (R78). -/
  | cvtSI64 (d : BitVec 6) (a : BitVec 6) (m : BitVec 3)
  /-- Converts N64 to FP32. (R78). -/
  | cvtSN64 (d : BitVec 6) (a : BitVec 6) (m : BitVec 3)
  /-- Converts FP64 to I64 with range clamping. (R78). -/
  | cvtI64D (d : BitVec 6) (a : BitVec 6) (m : BitVec 3)
  /-- Converts FP64 to N64. (R78). -/
  | cvtN64D (d : BitVec 6) (a : BitVec 6) (m : BitVec 3)
  /-- Converts FP32 to I64. (R78). -/
  | cvtI64S (d : BitVec 6) (a : BitVec 6) (m : BitVec 3)
  /-- Converts FP32 to N64. (R78). -/
  | cvtN64S (d : BitVec 6) (a : BitVec 6) (m : BitVec 3)
  /-- FP64 equality compare. (R79). -/
  | fcmpEqD (d : BitVec 6) (a : BitVec 6) (b : BitVec 6)
  /-- FP64 less-than compare. (R79). -/
  | fcmpLtD (d : BitVec 6) (a : BitVec 6) (b : BitVec 6)
  /-- FP64 less-or-equal compare. (R79). -/
  | fcmpLeD (d : BitVec 6) (a : BitVec 6) (b : BitVec 6)
  /-- Class mask of an FP64 value. (R79). -/
  | fkindD (d : BitVec 6) (a : BitVec 6)
  /-- FP32 equality compare. (R79). -/
  | fcmpEqS (d : BitVec 6) (a : BitVec 6) (b : BitVec 6)
  /-- FP32 less-than compare. (R79). -/
  | fcmpLtS (d : BitVec 6) (a : BitVec 6) (b : BitVec 6)
  /-- FP32 less-or-equal compare. (R79). -/
  | fcmpLeS (d : BitVec 6) (a : BitVec 6) (b : BitVec 6)
  /-- Class mask of an FP32 value. (R79). -/
  | fkindS (d : BitVec 6) (a : BitVec 6)
  /-- Direct branch to P + imm25 × 4. (R81). -/
  | b (i : BitVec 25)
  /-- Direct call, s1 := P + 4. (R81). -/
  | call (i : BitVec 25)
  /-- Branches when s[a] = s[b]. (R82). -/
  | bcEq (a : BitVec 6) (b : BitVec 6) (i : BitVec 13)
  /-- Branches when s[a] ≠ s[b]. (R82). -/
  | bcNe (a : BitVec 6) (b : BitVec 6) (i : BitVec 13)
  /-- Branches when s[a] < s[b] signed. (R82). -/
  | bcLt (a : BitVec 6) (b : BitVec 6) (i : BitVec 13)
  /-- Branches when s[a] ≥ s[b] signed. (R82). -/
  | bcGe (a : BitVec 6) (b : BitVec 6) (i : BitVec 13)
  /-- Branches when s[a] < s[b] unsigned. (R82). -/
  | bcLtn (a : BitVec 6) (b : BitVec 6) (i : BitVec 13)
  /-- Branches when s[a] ≥ s[b] unsigned. (R82). -/
  | bcGen (a : BitVec 6) (b : BitVec 6) (i : BitVec 13)
  /-- Does nothing. (R83). -/
  | nop
  /-- Indirect call to s[a], which must hold lpad.c. (R84). -/
  | calli (a : BitVec 6)
  /-- Indirect jump to s[a], which must hold lpad.j. (R84). -/
  | jmpi (a : BitVec 6)
  /-- Return to s[a], which must hold lpad.r. (R84). -/
  | ret (a : BitVec 6)
  /-- Landing pad for calli; a nop in sequence. (R84). -/
  | lpadC
  /-- Landing pad for jmpi. (R84). -/
  | lpadJ
  /-- Landing pad for ret. (R84). -/
  | lpadR
  /-- Clears A and N of loop set n and its inner set. (R90). -/
  | lbrk (n : BitVec 1)
  /-- Commits the open strip, waits for the VIQ, stores and shared-store copies, ORs flags and leaves the slot. (R103). -/
  | endThread
  /-- Holds the front until gtime ≥ s[a], then returns gtime. (R100). -/
  | waitT (d : BitVec 6) (a : BitVec 6)
  /-- dline := min(dline, s[a]). (R101). -/
  | dline (a : BitVec 6)
  /-- Drains the VIQ, fills lane buffers and starts 8W lane threads at s[a]. (R95). -/
  | lsplit (a : BitVec 6) (b : BitVec 6)
  /-- Ends the lane; the last join ends the section. (R99). -/
  | ljoin
  /-- Activates zero-overhead loop set n with count s[a], or skips the body when it is 0. (R87). -/
  | loop (n : BitVec 1) (a : BitVec 6) (i : BitVec 13)
  /-- Decrements the count, advances pointers and sbase, sends a commit entry and branches while work remains. (R94). -/
  | smb (a : BitVec 6) (i : BitVec 13)
  /-- Sets slot j of smbc to advance s[d] by a size code. (R93). -/
  | smbcfg (d : BitVec 6) (z : BitVec 3) (j : BitVec 2)
  /-- After older VIQ words retire, raises cause Trap with mindex := s[a]. (R358). -/
  | trap (a : BitVec 6)
  /-- Returns to U, takes a pending stop, reissues the parked convoy and fetches from mspc. (R359). -/
  | eret
  /-- Debug stop with a debugger attached, otherwise Breakpoint to the M handler. (R358). -/
  | bkpt
  /-- Waits for older work, then invalidates the context's instruction cache lines and fetch buffer. (R370). -/
  | ifence
  /-- Removes TLB entries mapping s[a] from every cluster and copy-engine TLB. (R371). -/
  | tlbinv (a : BitVec 6)
  /-- Ends the thread fatally with handler code s[a]. (R360). -/
  | halt (a : BitVec 6)
  /-- Writes the parked convoy as a VIQ image at s[a] and clears PK. (R361). -/
  | vqsave (a : BitVec 6)
  /-- Reads and checks a VIQ image at s[a] and parks it. (R361). -/
  | vqrestore (a : BitVec 6)
  /-- After older VIQ words retire, reads counter s[a] into s[d]. (R373). -/
  | smplCnt (d : BitVec 6) (a : BitVec 6)
  /-- Marks the next vector memory word for sampling. (R375). -/
  | smplMark
  /-- Emits a software trace record when trccfg.SW = 1. (R376). -/
  | trc (a : BitVec 6)
  /-- Removes every TLB entry of the context. (R371). -/
  | tlbinvAll
  /-- Privileged read of any control register. (R356). -/
  | mfcM (d : BitVec 6) (n : BitVec 12)
  /-- Privileged write of any control register. (R356). -/
  | mtcM (a : BitVec 6) (n : BitVec 12)
  /-- Element-wise integer add. (R124). -/
  | vadd (w : VWord)
  /-- Element-wise integer subtract. (R124). -/
  | vsub (w : VWord)
  /-- Element-wise reverse subtract. (R124). -/
  | vrsub (w : VWord)
  /-- Element-wise integer multiply. (R124). -/
  | vmul (w : VWord)
  /-- High half of element-wise products. (R124). -/
  | vmulh (w : VWord)
  /-- Element-wise multiply-accumulate into vd. (R124). -/
  | vmacc (w : VWord)
  /-- Saturating add. (R124). -/
  | vsadd (w : VWord)
  /-- Saturating subtract. (R124). -/
  | vssub (w : VWord)
  /-- Saturating multiply. (R124). -/
  | vsmul (w : VWord)
  /-- Element-wise shift left. (R124). -/
  | vsll (w : VWord)
  /-- Element-wise logical shift right. (R124). -/
  | vsrl (w : VWord)
  /-- Element-wise arithmetic shift right. (R124). -/
  | vsra (w : VWord)
  /-- Element-wise rotate right. (R124). -/
  | vror (w : VWord)
  /-- Element-wise AND. (R124). -/
  | vand (w : VWord)
  /-- Element-wise OR. (R124). -/
  | vor (w : VWord)
  /-- Element-wise XOR. (R124). -/
  | vxor (w : VWord)
  /-- Element-wise AND NOT. (R124). -/
  | vandn (w : VWord)
  /-- Element-wise integer minimum. (R124). -/
  | vmin (w : VWord)
  /-- Element-wise integer maximum. (R124). -/
  | vmax (w : VWord)
  /-- Element-wise absolute value. (R124). -/
  | vabs (w : VWord)
  /-- Integer equality compare to a mask. (R125). -/
  | vcmpEq (w : VWord)
  /-- Integer inequality compare to a mask. (R125). -/
  | vcmpNe (w : VWord)
  /-- Integer less-than compare to a mask. (R125). -/
  | vcmpLt (w : VWord)
  /-- Integer less-or-equal compare to a mask. (R125). -/
  | vcmpLe (w : VWord)
  /-- Integer greater-than compare to a mask. (R125). -/
  | vcmpGt (w : VWord)
  /-- Integer greater-or-equal compare to a mask. (R125). -/
  | vcmpGe (w : VWord)
  /-- Mask AND below vl. (R126). -/
  | mand (w : VWord)
  /-- Mask OR below vl. (R126). -/
  | mor (w : VWord)
  /-- Mask XOR below vl. (R126). -/
  | mxor (w : VWord)
  /-- Mask AND NOT below vl. (R126). -/
  | mandn (w : VWord)
  /-- Mask NOT below vl. (R126). -/
  | mnot (w : VWord)
  /-- Counts set mask bits below vl into a scalar register. (R126). -/
  | mpop (w : VWord)
  /-- Returns the lowest set mask bit below vl. (R126). -/
  | mfirst (w : VWord)
  /-- Selects A or B per element by a mask. (R128). -/
  | vsel (w : VWord)
  /-- Broadcasts a scalar or immediate to active elements. (R128). -/
  | vbcast (w : VWord)
  /-- Copies active elements of a register. (R128). -/
  | vmv (w : VWord)
  /-- Writes a scalar into element 0. (R128). -/
  | vmvsV (w : VWord)
  /-- Reads element 0 into a scalar register. (R128). -/
  | vmvsX (w : VWord)
  /-- Element-wise FP add. (R129). -/
  | vfadd (w : VWord)
  /-- Element-wise FP subtract. (R129). -/
  | vfsub (w : VWord)
  /-- Element-wise FP multiply. (R129). -/
  | vfmul (w : VWord)
  /-- Fused a × b + c. (R129). -/
  | vfmadd (w : VWord)
  /-- Fused a × b − c. (R129). -/
  | vfmsub (w : VWord)
  /-- Fused −(a × b) − c. (R129). -/
  | vfnmadd (w : VWord)
  /-- Fused −(a × b) + c. (R129). -/
  | vfnmsub (w : VWord)
  /-- Fused a × b + old vd. (R129). -/
  | vfmacc (w : VWord)
  /-- Element-wise FP minimum. (R129). -/
  | vfmin (w : VWord)
  /-- Element-wise FP maximum. (R129). -/
  | vfmax (w : VWord)
  /-- Clears the sign of each element. (R129). -/
  | vfabs (w : VWord)
  /-- Inverts the sign of each element. (R129). -/
  | vfneg (w : VWord)
  /-- a with the sign of b. (R129). -/
  | vfsignC (w : VWord)
  /-- a with the inverted sign of b. (R129). -/
  | vfsignN (w : VWord)
  /-- a with sign(a) XOR sign(b). (R129). -/
  | vfsignX (w : VWord)
  /-- FP equality compare to a mask. (R125). -/
  | vfcmpEq (w : VWord)
  /-- FP inequality compare to a mask. (R125). -/
  | vfcmpNe (w : VWord)
  /-- FP less-than compare to a mask. (R125). -/
  | vfcmpLt (w : VWord)
  /-- FP less-or-equal compare to a mask. (R125). -/
  | vfcmpLe (w : VWord)
  /-- FP greater-than compare to a mask. (R125). -/
  | vfcmpGt (w : VWord)
  /-- FP greater-or-equal compare to a mask. (R125). -/
  | vfcmpGe (w : VWord)
  /-- Marks elements where either operand is a NaN. (R125). -/
  | vfcmpUn (w : VWord)
  /-- Ordered add reduction into element 0. (R130). -/
  | vredoAdd (w : VWord)
  /-- Ordered min reduction. (R130). -/
  | vredoMin (w : VWord)
  /-- Ordered max reduction. (R130). -/
  | vredoMax (w : VWord)
  /-- Tree add reduction. (R130). -/
  | vredtAdd (w : VWord)
  /-- Tree min reduction. (R130). -/
  | vredtMin (w : VWord)
  /-- Tree max reduction. (R130). -/
  | vredtMax (w : VWord)
  /-- Tree AND reduction. (R130). -/
  | vredtAnd (w : VWord)
  /-- Tree OR reduction. (R130). -/
  | vredtOr (w : VWord)
  /-- Tree XOR reduction. (R130). -/
  | vredtXor (w : VWord)
  /-- Inclusive add scan. (R131). -/
  | vscanInAdd (w : VWord)
  /-- Inclusive min scan. (R131). -/
  | vscanInMin (w : VWord)
  /-- Inclusive max scan. (R131). -/
  | vscanInMax (w : VWord)
  /-- Exclusive add scan. (R131). -/
  | vscanExAdd (w : VWord)
  /-- Exclusive min scan. (R131). -/
  | vscanExMin (w : VWord)
  /-- Exclusive max scan. (R131). -/
  | vscanExMax (w : VWord)
  /-- Slides elements up by k. (R132). -/
  | vslipUp (w : VWord)
  /-- Slides elements down by k. (R132). -/
  | vslipDn (w : VWord)
  /-- Slides up by one, inserting B at element 0. (R132). -/
  | vslipUpin (w : VWord)
  /-- Slides down by one, inserting B at element vl − 1. (R132). -/
  | vslipDnin (w : VWord)
  /-- Register gather by index. (R133). -/
  | vpick (w : VWord)
  /-- Packs active elements to the low end. (R134). -/
  | vcompress (w : VWord)
  /-- Spreads low elements to active positions. (R134). -/
  | vexpand (w : VWord)
  /-- Converts elements between types with a chosen mode and saturation. (R151). -/
  | vcvt (w : VWord)
  /-- Error-feedback narrowing carrying the residual in efc. (R155). -/
  | vcvtEf (w : VWord)
  /-- Packs elements into dense P-bit fields. (R158). -/
  | vpack (w : VWord)
  /-- Unpacks dense P-bit fields into elements. (R158). -/
  | vunpack (w : VWord)
  /-- Multiplies elements by block scales. (R159). -/
  | vscaleMul (w : VWord)
  /-- Divides elements by block scales. (R159). -/
  | vscaleDiv (w : VWord)
  /-- Marks elements whose class is in a set. (R160). -/
  | vfclass (w : VWord)
  /-- Element-wise a / b on the divide unit. (R162). -/
  | vdiv (w : VWord)
  /-- Element-wise b / a on the divide unit. (R162). -/
  | vrdiv (w : VWord)
  /-- Element-wise square root. (R162). -/
  | vsqrt (w : VWord)
  /-- Element-wise reciprocal square root. (R162). -/
  | vrsq (w : VWord)
  /-- Unit-stride vector load. (R199). -/
  | vld (w : VWord)
  /-- Chunk-addressed vector load advancing cchunk. (R336). -/
  | vldC (w : VWord)
  /-- Loads a tile into a group through its shape entry. (R200). -/
  | vldQ (w : VWord)
  /-- Strided vector load. (R199). -/
  | vlds (w : VWord)
  /-- Indexed vector load. (R199). -/
  | vldx (w : VWord)
  /-- Indexed load gathered by home slice. (R201). -/
  | vldg (w : VWord)
  /-- Unit-stride vector store into the strip store buffer. (R199). -/
  | vst (w : VWord)
  /-- Chunk-addressed vector store advancing cchunk. (R336). -/
  | vstC (w : VWord)
  /-- Stores a tile from a group through its shape entry. (R200). -/
  | vstQ (w : VWord)
  /-- Strided vector store. (R199). -/
  | vsts (w : VWord)
  /-- Indexed vector store. (R199). -/
  | vstx (w : VWord)
  /-- Indexed store performed in increasing index order. (R191). -/
  | vstxo (w : VWord)
  /-- Indexed store scattered by home slice. (R201). -/
  | vstg (w : VWord)
  /-- Prefetches lines into the L2 without faults. (R202). -/
  | vpref (w : VWord)
  /-- Advances sbase and commits the open strip. (R203). -/
  | scommit (w : VWord)
  /-- Raises the context's schedule pointer on the die. (R204). -/
  | cutstep (w : VWord)
  /-- Zeroes an accumulator tile and sets its tag. (R227). -/
  | mzero (w : VWord)
  /-- Float outer-product accumulation on the Truss. (R223). -/
  | mouter (w : VWord)
  /-- Integer outer-product accumulation on the Truss. (R223). -/
  | mouteri (w : VWord)
  /-- Outer product with a sparsity-compressed B operand. (R224). -/
  | mouterc (w : VWord)
  /-- Loads an accumulator tile from a group. (R228). -/
  | mlacc (w : VWord)
  /-- Stores accumulator rows through the strip store buffer. (R231). -/
  | mdrain (w : VWord)
  /-- Copies an accumulator tile into a group. (R230). -/
  | mtov (w : VWord)
  /-- Scales an accumulator by row and column factors. (R229). -/
  | mscale (w : VWord)
  /-- Clears a triangle register. (R251). -/
  | bclr (w : VWord)
  /-- Loads a triangle from memory. (R252). -/
  | btload (w : VWord)
  /-- Stores a triangle through the strip store buffer. (R252). -/
  | btdrain (w : VWord)
  /-- Folds tile rows into a triangle with zero right-hand values. (R253). -/
  | bqr (w : VWord)
  /-- Folds tile rows with right-hand values and writes residuals. (R253). -/
  | bqra (w : VWord)
  /-- Folds rows and records the direction words. (R253). -/
  | bqrD (w : VWord)
  /-- Applies recorded directions to a new right-hand side. (R254). -/
  | bapply (w : VWord)
  /-- As bapply after clearing the column c. (R254). -/
  | bapplyC0 (w : VWord)
  /-- Vectorises element pairs into DIR32 words. (R256). -/
  | bvec (w : VWord)
  /-- Converts ANG32 to DIR32 words. (R256). -/
  | bangleD (w : VWord)
  /-- Converts DIR32 to ANG32 words. (R256). -/
  | bangleA (w : VWord)
  /-- Applies rotations to element pairs in butterfly strides. (R257). -/
  | brot (w : VWord)
  /-- Rotates element pairs of two registers. (R256). -/
  | vrotate (w : VWord)
  /-- Sets bcfg.DEF. (R258). -/
  | bgain (w : VWord)
  /-- Back-substitutes on a triangle through the divide units. (R255). -/
  | bsolve (w : VWord)
  /-- Atomic swap at the home slice. (R269). -/
  | amoSwap (w : VWord)
  /-- Atomic add at the home slice. (R269). -/
  | amoAdd (w : VWord)
  /-- Atomic AND. (R269). -/
  | amoAnd (w : VWord)
  /-- Atomic OR. (R269). -/
  | amoOr (w : VWord)
  /-- Atomic XOR. (R269). -/
  | amoXor (w : VWord)
  /-- Atomic minimum. (R269). -/
  | amoMin (w : VWord)
  /-- Atomic maximum. (R269). -/
  | amoMax (w : VWord)
  /-- Atomic compare and swap. (R270). -/
  | amocas (w : VWord)
  /-- Unordered vector atomic; check phase at issue. (R273). -/
  | vamo (w : VWord)
  /-- Vector atomic ordered per word by index. (R273). -/
  | vamoo (w : VWord)
  /-- Opens an accumulation window of per-lane copies. (R277). -/
  | accw (w : VWord)
  /-- Updates lane copies of the window. (R278). -/
  | vacc (w : VWord)
  /-- Merges lane copies into memory in lane order. (R279). -/
  | amerge (w : VWord)
  /-- Releases the window without merging. (R280). -/
  | accrel (w : VWord)
  /-- Reads a sync register from the die's sync block. (R283). -/
  | syncRd (w : VWord)
  /-- Writes a sync register at its home. (R283). -/
  | syncWr (w : VWord)
  /-- Test-and-set of a sync register. (R283). -/
  | syncTas (w : VWord)
  /-- Fetch-and-add of a sync register. (R283). -/
  | syncFadd (w : VWord)
  /-- Sets a huddle's expected count if no arrivals. (R286). -/
  | hudInit (w : VWord)
  /-- Arrives at a huddle. (R287). -/
  | hudArr (w : VWord)
  /-- Arrives and leaves a huddle from the next phase. (R287). -/
  | hudDrop (w : VWord)
  /-- Waits for a huddle's generation to change. (R288). -/
  | hudWait (w : VWord)
  /-- Posts the maximum into a pass-ring entry. (R291). -/
  | post (w : VWord)
  /-- Sets a pass-ring entry. (R291). -/
  | postSet (w : VWord)
  /-- Waits until a pass-ring entry reaches s[a]. (R291). -/
  | waiti (w : VWord)
  /-- Orders prior and later accesses of named kinds. (R292). -/
  | fence (w : VWord)
  /-- Initialises an arrival word. (R295). -/
  | awInit (w : VWord)
  /-- Delivers bytes to an arrival word. (R294). -/
  | awAdd (w : VWord)
  /-- Registers a watch until an arrival word's generation changes. (R295). -/
  | awWait (w : VWord)
  /-- Issues a linear copy command to the copy engine. (R297). -/
  | cp (w : VWord)
  /-- Issues a two-dimensional copy command. (R297). -/
  | cp2 (w : VWord)
  /-- Issues an indexed copy command. (R297). -/
  | cpx (w : VWord)
  /-- Queues a delivery after older copy commands. (R297). -/
  | cpq (w : VWord)
  /-- Waits until at most s[a] copy commands are outstanding. (R301). -/
  | cpw (w : VWord)
  /-- Declares a step-deferred window. (R309). -/
  | wdecl (w : VWord)
  /-- Releases a window at the next whistle. (R310). -/
  | wdeclRel (w : VWord)
  /-- Remote load from a window by target and offset. (R326). -/
  | vldr (w : VWord)
  /-- Remote deferred store to a window. (R327). -/
  | vstr (w : VWord)
  /-- Commits, drains and arrives at the whistle, then waits for release. (R314). -/
  | step (w : VWord)
  /-- Step whose apply waits for global time T. (R320). -/
  | stepAt (w : VWord)
  /-- Step that lets non-DS work run on until release. (R321). -/
  | stepq (w : VWord)
  /-- Binds a receive stream register. (R337). -/
  | fsbindRx (w : VWord)
  /-- Binds a send stream register. (R337). -/
  | fsbindTx (w : VWord)
  /-- Unbinds a stream register. (R337). -/
  | fsbindU (w : VWord)
  /-- Reduces an incoming partial with a local contribution. (R343). -/
  | vcred (w : VWord)
  /-- Grants a vector length and element size. (R109). -/
  | setvl (w : VWord)
  /-- Sets FSEL, FRM and MP of vtype. (R110). -/
  | setvt (w : VWord)
  /-- Writes a format register. (R141). -/
  | setfmt (w : VWord)
  /-- Sets the shape entry of a group. (R114). -/
  | mshape (w : VWord)
  /-- Grants Truss tile extents. (R215). -/
  | tshape (w : VWord)
  /-- Sets the matrix mode and resets tile extents. (R214). -/
  | mmode (w : VWord)
  /-- Event: A closed convoy issues its element groups once its operands and pipes allow. (R119). -/
  | convoyIssue (t : Nat) (g : Nat)
  /-- Event: A convoy retires when every member has written its last group and is fault-safe. (R119). -/
  | convoyRetire (t : Nat)
  /-- Event: A history entry retires and its pending flags reach vxflags. (R60). -/
  | historyEntryRetire (t : Nat)
  /-- Event: The oldest scalar store leaves the queue once older VIQ words are fault-safe. (R61). -/
  | storeQueueLeave (t : Nat)
  /-- Event: A one-slot mtc entry takes effect in the lanes in program order. (R74). -/
  | mtcLaneEntry (t : Nat)
  /-- Event: A commit entry issues, closing the open strip and opening a new one. (R185). -/
  | commitEntry (t : Nat)
  /-- Event: A committed strip entry drains and its bytes are performed at their home. (R185). -/
  | stripEntryDrain (t : Nat) (k : Nat)
  /-- Event: A performed store's acknowledgement returns to the requester. (R437). -/
  | storeAcknowledgement (t : Nat) (k : Nat)
  /-- Event: A cluster issues one word from its next ready lane. (R97). -/
  | laneIssue (t : Nat) (cl : Nat)
  /-- Event: A page walk completes, setting A and D and filling the TLB or faulting. (R177). -/
  | tlbWalk (t : Nat) (cl : Nat) (va : BitVec 64) (acc : Access)
  /-- Event: A line fill into the L2 chooses a victim by the cut list. (R170). -/
  | l2Fill (pa : Nat)
  /-- Event: A bank's refresh falls due; performed at once if idle, else owed. (R193). -/
  | refreshDue (die : Nat) (stack : Nat) (bank : Nat) (idle : Bool)
  /-- Event: An idle bank receives an owed refresh. (R193). -/
  | owedRefresh (die : Nat) (stack : Nat) (bank : Nat)
  /-- Event: A home slice ALU serves one atomic, merge or batch request indivisibly. (R267). -/
  | sliceAluRequest (r : AluRequest)
  /-- Event: A vector atomic's perform phase sends its elements once its waits hold. (R274). -/
  | vamoPerform (t : Nat) (g : Nat)
  /-- Event: amerge sends its merge requests once its waits hold. (R279). -/
  | amergePerform (t : Nat) (g : Nat)
  /-- Event: A sync register's new value is applied in a mirror 40 cyc later. (R283). -/
  | syncMirrorUpdate (die : Nat) (home : Nat)
  /-- Event: A post reaches another core's post table along the ring. (R289). -/
  | postRingArrival (die : Nat) (src : Nat) (core : Nat)
  /-- Event: gtime reaches the target and wait.t returns. (R100). -/
  | waitTReturn (t : Nat)
  /-- Event: A huddle's generation changes and hud.wait returns. (R288). -/
  | hudWaitReturn (t : Nat)
  /-- Event: A post-table entry reaches the value and waiti returns. (R291). -/
  | waitiReturn (t : Nat)
  /-- Event: An arrival word's generation changes and aw.wait returns. (R295). -/
  | awWaitReturn (t : Nat)
  /-- Event: Outstanding commands fall to the limit and cpw returns. (R301). -/
  | cpwReturn (t : Nat)
  /-- Event: A copy chunk completes and its byte count is delivered to the arrival word. (R296). -/
  | copyChunkDelivery (core : Nat) (slot : Nat)
  /-- Event: After older commands end, cpq delivers its bytes. (R297). -/
  | cpqDelivery (core : Nat) (slot : Nat)
  /-- Event: A copy command is abandoned at its chunk boundary, setting ERR. (R300). -/
  | copyAbandon (core : Nat) (slot : Nat)
  /-- Event: Eloaler maps a missing page and the waiting copy continues. (R300). -/
  | copyPageMapped (core : Nat) (slot : Nat)
  /-- Event: gtime passes dline and the thread ends with Deadline. (R102). -/
  | deadline (t : Nat)
  /-- Event: A fault routed to the M handler parks the convoy and enters mhandler. (R350). -/
  | trapDelivery (t : Nat) (c : ExcCause) (idx : BitVec 64)
  /-- Event: A fault routed to Eloaler suspends the thread and saves its image. (R354). -/
  | suspendToEloaler (t : Nat) (c : ExcCause) (idx : BitVec 64)
  /-- Event: Eloaler resumes a suspended thread at its recorded position. (R354). -/
  | eloalerResume (t : Nat)
  /-- Event: A thread ends fatally, discarding its strip and writing a report. (R354). -/
  | fatalEnd (t : Nat)
  /-- Event: A pre-emption stops the thread at a boundary and dumps its image. (R362). -/
  | preemption (t : Nat)
  /-- Event: At time T the outgoing context is saved and the incoming one restored. (R366). -/
  | gangSwitch (outgoing : Nat) (incoming : SwitchIn)
  /-- Event: An incoming thread resumes at time R or when its restore ends. (R366). -/
  | switchResume (t : Nat)
  /-- Event: After its drains, a step word arrives at the whistle. (R314). -/
  | stepArrival (t : Nat)
  /-- Event: An arrival is counted at the hub and sent to the parent when complete. (R315). -/
  | whistleArrivalCounted (ctx : Nat) (who : WhistleSource)
  /-- Event: A start notice with a smaller timeout is forwarded up the tree. (R315). -/
  | startNotice (ctx : Nat) (timeout : Nat)
  /-- Event: The root holds every arrival, decides status and sends the go. (R315). -/
  | whistleGo (ctx : Nat) (m : WhistleMarks)
  /-- Event: A package applies its deferred writes under each window's rule. (R316). -/
  | whistleApply (ctx : Nat)
  /-- Event: Members are released with stepstat set, as an acquire of pod scope. (R318). -/
  | whistleRelease (ctx : Nat)
  /-- Event: After every thread ends, a final whistle applies outstanding writes. (R313). -/
  | finalWhistle (ctx : Nat)
  /-- Event: The step timeout expires at the root and supersteps end with Skew. (R322). -/
  | skew (ctx : Nat)
  /-- Event: A deferred write flit is entered in the window's buffer or marks overflow. (R311). -/
  | deferredWrite (f : RemoteWrite)
  /-- Event: A write acknowledgement returns with overflow or conflict marks. (R311). -/
  | writeAcknowledgement (t : Nat) (k : Nat) (a : WriteAnswer)
  /-- Event: A remote read request is served from step-start state. (R326). -/
  | readRequest (f : RemoteRead)
  /-- Event: Remote read data arrive and fill their elements. (R326). -/
  | readData (t : Nat) (k : Nat) (data : List Nat)
  /-- Event: The target hub walks a window page on behalf of a remote request. (R329). -/
  | translationRequest (f : RemoteRead)
  /-- Event: A translation response fills the remote translation cache. (R329). -/
  | translationResponse (die : Nat) (e : RemoteTrans)
  /-- Event: An invalidation drops matching remote translation entries. (R330). -/
  | invalidation (ctx : Nat) (rank : Nat) (handle : Nat)
  /-- Event: Acknowledgements return up the tree before page reuse. (R330). -/
  | invalidationAcknowledgement (ctx : Nat) (a : HandleAck)
  /-- Event: A receiver grants room for a chunk when its buffer covers it. (R342). -/
  | reservationRequest (ctx : Nat) (h : StreamHead) (bytes : Nat)
  /-- Event: A grant arrives and the chunk is admitted. (R342). -/
  | reservationGrant (ctx : Nat) (h : StreamHead)
  /-- Event: At a chunk boundary the unit starts the highest-priority eligible chunk. (R342). -/
  | streamChunkTransmit (die : Nat)
  /-- Event: Stream bytes become present in the receiver's buffer. (R342). -/
  | streamData (ctx : Nat) (h : StreamHead) (data : List Nat)
  /-- Event: An abort sets LOST and cancels reservations of a communicator's streams. (R346). -/
  | abort (ctx : Nat) (comm : Nat)
  /-- Event: A port fails training or replay and is marked down. (R333). -/
  | torusPortDown (p : PodPort)
  /-- Event: A package's offset stays within 0.5 ns for 10 ms and it locks. (R415). -/
  | timeLock (v : BitVec 64)
  /-- Event: The offset exceeds 1 ns; the package leaves lock and its contexts are killed. (R415). -/
  | timeLockLoss
  /-- Event: Power-good starts the boot steps from the ROM. (R409). -/
  | powerGood
  /-- Event: Torus ports train and exchange geometry once the source is locked. (R416). -/
  | torusTraining (port : Nat) (nb : PortExchange)
  /-- Event: The board controller writes the pod epoch start value over I3C. (R416). -/
  | epochWrite (v : BitVec 64)
  /-- Event: Eloaler blows rollback fuses up to SV on the board controller's command. (R410). -/
  | rollbackFuseCommand
  /-- Event: Returns a signed report and sets the tenant key. (R412). -/
  | attestationRequest (ctx : Nat) (nonce : List Nat) (pub : List Nat)
  /-- Event: A key index is withdrawn over I3C after its lines are cleared. (R413). -/
  | keyWithdrawal (key : Nat)
  /-- Event: The board controller sets a power cap that limits bound cores. (R417). -/
  | powerCap (watts : Nat)
  /-- Event: A junction reaches 105 °C and every context is killed. (R417). -/
  | junction105
  /-- Event: A junction reaches 110 °C and power-off is requested. (R417). -/
  | junction110
  /-- Event: Eloaler accepts or refuses a RoCEv2 connection by its credential. (R405). -/
  | rdmaConnect (port : Nat) (qp : Nat) (credential : List Nat)
  /-- Event: A host RDMA WRITE is performed line by line or NAKed. (R406). -/
  | rdmaWrite (p : HostPort) (qp : Nat) (rkey : Nat) (addr : Nat) (data : List Nat)
  /-- Event: A host RDMA READ reads line by line or is NAKed. (R406). -/
  | rdmaRead (p : HostPort) (qp : Nat) (rkey : Nat) (addr : Nat) (len : Nat)
  /-- Event: A doorbell write makes queue entries available or is ignored. (R407). -/
  | doorbellWrite (v : BitVec 32)
  /-- Event: Eloaler copies the next available queue entry whole. (R381). -/
  | entryTake
  /-- Event: A LAUNCH entry is checked and queued for binding. (R386). -/
  | launch
  /-- Event: Creates a context with its resources and limit entries. (R384). -/
  | create
  /-- Event: Checks and maps a code object and returns its handle. (R401). -/
  | load (dest : LoadPlan)
  /-- Event: Marks a code object retiring. (R402). -/
  | unload
  /-- Event: When nothing uses the object, its pages are unmapped and the UNLOAD completes. (R402). -/
  | unloadComplete (ctx : Nat) (handle : Nat)
  /-- Event: Ends every launch of a context and removes it. (R385). -/
  | kill
  /-- Event: A launch waiting 10 ms holds back later launches of its class and lower. (R392). -/
  | launchAgeLimit (n : Nat)
  /-- Event: A queued launch's deadline passes and it completes DEADLINE. (R396). -/
  | queuedLaunchDeadline (n : Nat)
  /-- Event: Eloaler writes a gang's bind records and sets GO when all are accepted. (R394). -/
  | gangBind (n : Nat) (p : BindPlan)
  /-- Event: Dispatch checks a newly valid bind record against the limit entry. (R399). -/
  | bindRecordValid (die : Nat) (entry : Nat)
  /-- Event: At gtime S a bound thread starts with its initial state. (R395). -/
  | threadStart (die : Nat) (entry : Nat)
  /-- Event: Eloaler writes the completion record when the launch ends. (R382). -/
  | launchComplete (n : LaunchEnd)
  /-- Event: Sets mstat.DBG in every thread of the context. (R368). -/
  | debugAttach (ctx : Nat)
  /-- Event: Clears mstat.DBG. (R368). -/
  | debugDetach (ctx : Nat)
  /-- Event: Debug stop of one or all threads. (R368). -/
  | debugStop (ctx : Nat) (t : Option Nat)
  /-- Event: Reads a stopped thread's image sections. (R368). -/
  | debugReadImage (t : Nat) (pa : Nat) (len : Nat)
  /-- Event: Writes a stopped thread's image sections, checked as vqrestore. (R368). -/
  | debugWriteImage (t : Nat) (e : ImageEdit)
  /-- Event: Writes code bytes and invalidates instruction caches before acknowledging. (R369). -/
  | debugPatch (ctx : Nat) (va : BitVec 64) (data : List Nat)
  /-- Event: Resumes stopped threads. (R368). -/
  | debugResume (ctx : Nat) (t : Option Nat)
  /-- Event: Resumes a thread for one front word, then stops it again. (R368). -/
  | debugResumeOne (t : Nat)
  /-- Event: The trace path appends a record to the ring or truncates it. (R377). -/
  | traceRecordAppend
  /-- Event: A confidential trace unit is sealed when full or 1 ms after its first record. (R379). -/
  | traceUnitSeal (ctx : Nat)
  /-- Event: One HBM line per stack is scrubbed every 320 µs. (R420). -/
  | patrolScrub (die : Nat) (stack : Nat) (bad : Bool)
  /-- Event: One granule per slice is scrubbed every 64 cyc. (R420). -/
  | sharedStoreScrub (die : Nat) (slice : Nat) (bad : Bool)
  /-- Event: The register file is scrubbed and errors marked. (R421). -/
  | registerFileScrub (t : Nat) (reg : Nat) (byte : Nat) (bad : Bool)
  /-- Event: A die link recalibrates for 64 cyc. (R420). -/
  | ucieRecalibration (link : Nat)
  /-- Event: A torus port recalibrates for 500 ns every 50 ms. (R420). -/
  | torusRecalibration (port : Nat)
  /-- Event: Ring-oscillator monitors are read and the supply adjusted each 1 ms. (R420). -/
  | ageingGuardBand (mv : Nat)
  /-- Event: Telemetry is sent over I3C every 1 ms. (R420). -/
  | telemetry
  /-- Event: The package loses power, or is reset, and every piece of state except flash and fuses is lost. (R418). -/
  | powerDown
  /-- Event: A load's value is fixed at its home slice and returns to the requesting front or lane group some cycles after the load started. (R437). -/
  | loadResponse (t : Nat) (pa : Nat)
  deriving DecidableEq, Repr

end Sys2Proof
end

