-- ==== Sys2Proof/WellFormed.lean ====
section
/-! DEFINITION. Which instructions a word can carry: the decode checks of R43 that depend on the word alone. -/

namespace Sys2Proof

/-- The checks of R43 on an instruction as syntax; events carry no word and pass (02 R43; 04 R93; 03 R75). -/
def Instr.checks : Instr → Bool
  | .add _ _ _ => true
  | .sub _ _ _ => true
  | .and _ _ _ => true
  | .or _ _ _ => true
  | .xor _ _ _ => true
  | .andn _ _ _ => true
  | .sll _ _ _ => true
  | .srl _ _ _ => true
  | .sra _ _ _ => true
  | .ror _ _ _ => true
  | .slt _ _ _ => true
  | .sltn _ _ _ => true
  | .min _ _ _ => true
  | .max _ _ _ => true
  | .minn _ _ _ => true
  | .maxn _ _ _ => true
  | .clz _ _ => true
  | .ctz _ _ => true
  | .cpop _ _ => true
  | .mul _ _ _ => true
  | .mulh _ _ _ => true
  | .mulhn _ _ _ => true
  | .div _ _ _ => true
  | .divn _ _ _ => true
  | .rem _ _ _ => true
  | .remn _ _ _ => true
  | .addi _ _ _ => true
  | .andi _ _ _ => true
  | .ori _ _ _ => true
  | .xori _ _ _ => true
  | .slli _ _ _ => true
  | .srli _ _ _ => true
  | .srai _ _ _ => true
  | .slti _ _ _ => true
  | .sltin _ _ _ => true
  | .lui _ _ => true
  | .addpc _ _ => true
  | .ldI8 _ _ _ => true
  | .ldI16 _ _ _ => true
  | .ldI32 _ _ _ => true
  | .ldI64 _ _ _ => true
  | .ldN8 _ _ _ => true
  | .ldN16 _ _ _ => true
  | .ldN32 _ _ _ => true
  | .stI8 _ _ _ => true
  | .stI16 _ _ _ => true
  | .stI32 _ _ _ => true
  | .stI64 _ _ _ => true
  | .mfc _ _ => true
  | .mtc _ _ => true
  | .faddD _ _ _ m => Machine.okRounding m
  | .fsubD _ _ _ m => Machine.okRounding m
  | .fmulD _ _ _ m => Machine.okRounding m
  | .fdivD _ _ _ m => Machine.okRounding m
  | .fsqrtD _ _ m => Machine.okRounding m
  | .fminD _ _ _ => true
  | .fmaxD _ _ _ => true
  | .fsignCD _ _ _ => true
  | .fsignND _ _ _ => true
  | .fsignXD _ _ _ => true
  | .faddS _ _ _ m => Machine.okRounding m
  | .fsubS _ _ _ m => Machine.okRounding m
  | .fmulS _ _ _ m => Machine.okRounding m
  | .fdivS _ _ _ m => Machine.okRounding m
  | .fsqrtS _ _ m => Machine.okRounding m
  | .fminS _ _ _ => true
  | .fmaxS _ _ _ => true
  | .fsignCS _ _ _ => true
  | .fsignNS _ _ _ => true
  | .fsignXS _ _ _ => true
  | .fmaddD _ _ _ m => Machine.okRounding m
  | .fmsubD _ _ _ m => Machine.okRounding m
  | .fnmaddD _ _ _ m => Machine.okRounding m
  | .fnmsubD _ _ _ m => Machine.okRounding m
  | .fmaddS _ _ _ m => Machine.okRounding m
  | .fmsubS _ _ _ m => Machine.okRounding m
  | .fnmaddS _ _ _ m => Machine.okRounding m
  | .fnmsubS _ _ _ m => Machine.okRounding m
  | .cvtDS _ _ => true
  | .cvtSD _ _ m => Machine.okRounding m
  | .cvtDI64 _ _ m => Machine.okRounding m
  | .cvtDN64 _ _ m => Machine.okRounding m
  | .cvtSI64 _ _ m => Machine.okRounding m
  | .cvtSN64 _ _ m => Machine.okRounding m
  | .cvtI64D _ _ m => Machine.okRounding m
  | .cvtN64D _ _ m => Machine.okRounding m
  | .cvtI64S _ _ m => Machine.okRounding m
  | .cvtN64S _ _ m => Machine.okRounding m
  | .fcmpEqD _ _ _ => true
  | .fcmpLtD _ _ _ => true
  | .fcmpLeD _ _ _ => true
  | .fkindD _ _ => true
  | .fcmpEqS _ _ _ => true
  | .fcmpLtS _ _ _ => true
  | .fcmpLeS _ _ _ => true
  | .fkindS _ _ => true
  | .b _ => true
  | .call _ => true
  | .bcEq _ _ _ => true
  | .bcNe _ _ _ => true
  | .bcLt _ _ _ => true
  | .bcGe _ _ _ => true
  | .bcLtn _ _ _ => true
  | .bcGen _ _ _ => true
  | .nop => true
  | .calli _ => true
  | .jmpi _ => true
  | .ret _ => true
  | .lpadC => true
  | .lpadJ => true
  | .lpadR => true
  | .lbrk _ => true
  | .endThread => true
  | .waitT _ _ => true
  | .dline _ => true
  | .lsplit _ _ => true
  | .ljoin => true
  | .loop _ _ _ => true
  | .smb _ _ => true
  | .smbcfg d z _ => Machine.okSmbcfg d z
  | .trap _ => true
  | .eret => true
  | .bkpt => true
  | .ifence => true
  | .tlbinv _ => true
  | .halt _ => true
  | .vqsave _ => true
  | .vqrestore _ => true
  | .smplCnt _ _ => true
  | .smplMark => true
  | .trc _ => true
  | .tlbinvAll => true
  | .mfcM _ _ => true
  | .mtcM _ _ => true
  | .vadd w => Machine.okVadd w
  | .vsub w => Machine.okVadd w
  | .vrsub w => Machine.okVadd w
  | .vmul w => Machine.okVadd w
  | .vmulh w => Machine.okVmulh w
  | .vmacc w => Machine.okVmulh w
  | .vsadd w => Machine.okVadd w
  | .vssub w => Machine.okVadd w
  | .vsmul w => Machine.okVadd w
  | .vsll w => Machine.okVadd w
  | .vsrl w => Machine.okVadd w
  | .vsra w => Machine.okVadd w
  | .vror w => Machine.okVadd w
  | .vand w => Machine.okVadd w
  | .vor w => Machine.okVadd w
  | .vxor w => Machine.okVadd w
  | .vandn w => Machine.okVadd w
  | .vmin w => Machine.okVadd w
  | .vmax w => Machine.okVadd w
  | .vabs w => Machine.okVabs w
  | .vcmpEq w => Machine.okVcmpEq w
  | .vcmpNe w => Machine.okVcmpEq w
  | .vcmpLt w => Machine.okVcmpEq w
  | .vcmpLe w => Machine.okVcmpEq w
  | .vcmpGt w => Machine.okVcmpEq w
  | .vcmpGe w => Machine.okVcmpEq w
  | .mand w => Machine.okMand w
  | .mor w => Machine.okMand w
  | .mxor w => Machine.okMand w
  | .mandn w => Machine.okMand w
  | .mnot w => Machine.okMnot w
  | .mpop w => Machine.okMpop w
  | .mfirst w => Machine.okMpop w
  | .vsel w => Machine.okVsel w
  | .vbcast w => Machine.okVbcast w
  | .vmv w => Machine.okVmv w
  | .vmvsV w => Machine.okVmvsV w
  | .vmvsX w => Machine.okVmvsX w
  | .vfadd w => Machine.okVfadd w
  | .vfsub w => Machine.okVfadd w
  | .vfmul w => Machine.okVfadd w
  | .vfmadd w => Machine.okVfmadd w
  | .vfmsub w => Machine.okVfmadd w
  | .vfnmadd w => Machine.okVfmadd w
  | .vfnmsub w => Machine.okVfmadd w
  | .vfmacc w => Machine.okVfadd w
  | .vfmin w => Machine.okVfadd w
  | .vfmax w => Machine.okVfadd w
  | .vfabs w => Machine.okVfabs w
  | .vfneg w => Machine.okVfabs w
  | .vfsignC w => Machine.okVfsignC w
  | .vfsignN w => Machine.okVfsignC w
  | .vfsignX w => Machine.okVfsignC w
  | .vfcmpEq w => Machine.okVfcmpEq w
  | .vfcmpNe w => Machine.okVfcmpEq w
  | .vfcmpLt w => Machine.okVfcmpEq w
  | .vfcmpLe w => Machine.okVfcmpEq w
  | .vfcmpGt w => Machine.okVfcmpEq w
  | .vfcmpGe w => Machine.okVfcmpEq w
  | .vfcmpUn w => Machine.okVfcmpUn w
  | .vredoAdd w => Machine.okVredoAdd w
  | .vredoMin w => Machine.okVredoAdd w
  | .vredoMax w => Machine.okVredoAdd w
  | .vredtAdd w => Machine.okVredoAdd w
  | .vredtMin w => Machine.okVredoAdd w
  | .vredtMax w => Machine.okVredoAdd w
  | .vredtAnd w => Machine.okVmulh w
  | .vredtOr w => Machine.okVmulh w
  | .vredtXor w => Machine.okVmulh w
  | .vscanInAdd w => Machine.okVscanInAdd w
  | .vscanInMin w => Machine.okVscanInAdd w
  | .vscanInMax w => Machine.okVscanInAdd w
  | .vscanExAdd w => Machine.okVscanInAdd w
  | .vscanExMin w => Machine.okVscanInAdd w
  | .vscanExMax w => Machine.okVscanInAdd w
  | .vslipUp w => Machine.okVslipUp w
  | .vslipDn w => Machine.okVslipUp w
  | .vslipUpin w => Machine.okVslipUpin w
  | .vslipDnin w => Machine.okVslipUpin w
  | .vpick w => Machine.okVpick w
  | .vcompress w => Machine.okVcompress w
  | .vexpand w => Machine.okVcompress w
  | .vcvt w => Machine.okVcvt w
  | .vcvtEf w => Machine.okVcvtEf w
  | .vpack w => Machine.okVpack w
  | .vunpack w => Machine.okVunpack w
  | .vscaleMul w => Machine.okVscaleMul w
  | .vscaleDiv w => Machine.okVscaleMul w
  | .vfclass w => Machine.okVfclass w
  | .vdiv w => Machine.okVdiv w
  | .vrdiv w => Machine.okVdiv w
  | .vsqrt w => Machine.okVsqrt w
  | .vrsq w => Machine.okVsqrt w
  | .vld w => Machine.okVld w
  | .vldC w => Machine.okVldC w
  | .vldQ w => Machine.okVldQ w
  | .vlds w => Machine.okVlds w
  | .vldx w => Machine.okVldx w
  | .vldg w => Machine.okVldg w
  | .vst w => Machine.okVst w
  | .vstC w => Machine.okVstC w
  | .vstQ w => Machine.okVstQ w
  | .vsts w => Machine.okVsts w
  | .vstx w => Machine.okVstx w
  | .vstxo w => Machine.okVstx w
  | .vstg w => Machine.okVstg w
  | .vpref w => Machine.okVpref w
  | .scommit w => Machine.okScommit w
  | .cutstep w => Machine.okCutstep w
  | .mzero w => Machine.okMzero w
  | .mouter w => Machine.okMouter w
  | .mouteri w => Machine.okMouteri w
  | .mouterc w => Machine.okMouterc w
  | .mlacc w => Machine.okMlacc w
  | .mdrain w => Machine.okMdrain w
  | .mtov w => Machine.okMtov w
  | .mscale w => Machine.okMscale w
  | .bclr w => Machine.okBclr w
  | .btload w => Machine.okBtload w
  | .btdrain w => Machine.okBtdrain w
  | .bqr w => Machine.okBqr w
  | .bqra w => Machine.okBqra w
  | .bqrD w => Machine.okBqrD w
  | .bapply w => Machine.okBqra w
  | .bapplyC0 w => Machine.okBqra w
  | .bvec w => Machine.okBvec w
  | .bangleD w => Machine.okBangleD w
  | .bangleA w => Machine.okBangleD w
  | .brot w => Machine.okBrot w
  | .vrotate w => Machine.okVrotate w
  | .bgain w => Machine.okBgain w
  | .bsolve w => Machine.okBsolve w
  | .amoSwap w => Machine.okAmoSwap w
  | .amoAdd w => Machine.okAmoSwap w
  | .amoAnd w => Machine.okAmoAnd w
  | .amoOr w => Machine.okAmoAnd w
  | .amoXor w => Machine.okAmoAnd w
  | .amoMin w => Machine.okAmoSwap w
  | .amoMax w => Machine.okAmoSwap w
  | .amocas w => Machine.okAmocas w
  | .vamo w => Machine.okVamo w
  | .vamoo w => Machine.okVamo w
  | .accw w => Machine.okAccw w
  | .vacc w => Machine.okVacc w
  | .amerge w => Machine.okAmerge w
  | .accrel w => Machine.okAccrel w
  | .syncRd w => Machine.okSyncRd w
  | .syncWr w => Machine.okSyncWr w
  | .syncTas w => Machine.okSyncTas w
  | .syncFadd w => Machine.okSyncFadd w
  | .hudInit w => Machine.okHudInit w
  | .hudArr w => Machine.okHudArr w
  | .hudDrop w => Machine.okHudArr w
  | .hudWait w => Machine.okHudWait w
  | .post w => Machine.okPost w
  | .postSet w => Machine.okPost w
  | .waiti w => Machine.okPost w
  | .fence w => Machine.okFence w
  | .awInit w => Machine.okSyncWr w
  | .awAdd w => Machine.okSyncWr w
  | .awWait w => Machine.okAwWait w
  | .cp w => Machine.okCp w
  | .cp2 w => Machine.okCp2 w
  | .cpx w => Machine.okCp2 w
  | .cpq w => Machine.okCpq w
  | .cpw w => Machine.okCpw w
  | .wdecl w => Machine.okWdecl w
  | .wdeclRel w => Machine.okWdeclRel w
  | .vldr w => Machine.okVldr w
  | .vstr w => Machine.okVstr w
  | .step w => Machine.okStep w
  | .stepAt w => Machine.okStepAt w
  | .stepq w => Machine.okStep w
  | .fsbindRx w => Machine.okFsbindRx w
  | .fsbindTx w => Machine.okFsbindRx w
  | .fsbindU w => Machine.okFsbindU w
  | .vcred w => Machine.okVcred w
  | .setvl w => Machine.okSetvl w
  | .setvt w => Machine.okSetvt w
  | .setfmt w => Machine.okSetfmt w
  | .mshape w => Machine.okMshape w
  | .tshape w => Machine.okTshape w
  | .mmode w => Machine.okMmode w
  | .convoyIssue _ _ => true
  | .convoyRetire _ => true
  | .historyEntryRetire _ => true
  | .storeQueueLeave _ => true
  | .mtcLaneEntry _ => true
  | .commitEntry _ => true
  | .stripEntryDrain _ _ => true
  | .storeAcknowledgement _ _ => true
  | .laneIssue _ _ => true
  | .tlbWalk _ _ _ _ => true
  | .l2Fill _ => true
  | .refreshDue _ _ _ _ => true
  | .owedRefresh _ _ _ => true
  | .sliceAluRequest _ => true
  | .vamoPerform _ _ => true
  | .amergePerform _ _ => true
  | .syncMirrorUpdate _ _ => true
  | .postRingArrival _ _ _ => true
  | .waitTReturn _ => true
  | .hudWaitReturn _ => true
  | .waitiReturn _ => true
  | .awWaitReturn _ => true
  | .cpwReturn _ => true
  | .copyChunkDelivery _ _ => true
  | .cpqDelivery _ _ => true
  | .copyAbandon _ _ => true
  | .copyPageMapped _ _ => true
  | .deadline _ => true
  | .trapDelivery _ _ _ => true
  | .suspendToEloaler _ _ _ => true
  | .eloalerResume _ => true
  | .fatalEnd _ => true
  | .preemption _ => true
  | .gangSwitch _ _ => true
  | .switchResume _ => true
  | .stepArrival _ => true
  | .whistleArrivalCounted _ _ => true
  | .startNotice _ _ => true
  | .whistleGo _ _ => true
  | .whistleApply _ => true
  | .whistleRelease _ => true
  | .finalWhistle _ => true
  | .skew _ => true
  | .deferredWrite _ => true
  | .writeAcknowledgement _ _ _ => true
  | .readRequest _ => true
  | .readData _ _ _ => true
  | .translationRequest _ => true
  | .translationResponse _ _ => true
  | .invalidation _ _ _ => true
  | .invalidationAcknowledgement _ _ => true
  | .reservationRequest _ _ _ => true
  | .reservationGrant _ _ => true
  | .streamChunkTransmit _ => true
  | .streamData _ _ _ => true
  | .abort _ _ => true
  | .torusPortDown _ => true
  | .timeLock _ => true
  | .timeLockLoss => true
  | .powerGood => true
  | .torusTraining _ _ => true
  | .epochWrite _ => true
  | .rollbackFuseCommand => true
  | .attestationRequest _ _ _ => true
  | .keyWithdrawal _ => true
  | .powerCap _ => true
  | .junction105 => true
  | .junction110 => true
  | .rdmaConnect _ _ _ => true
  | .rdmaWrite _ _ _ _ _ => true
  | .rdmaRead _ _ _ _ _ => true
  | .doorbellWrite _ => true
  | .entryTake => true
  | .launch => true
  | .create => true
  | .load _ => true
  | .unload => true
  | .unloadComplete _ _ => true
  | .kill => true
  | .launchAgeLimit _ => true
  | .queuedLaunchDeadline _ => true
  | .gangBind _ _ => true
  | .bindRecordValid _ _ => true
  | .threadStart _ _ => true
  | .launchComplete _ => true
  | .debugAttach _ => true
  | .debugDetach _ => true
  | .debugStop _ _ => true
  | .debugReadImage _ _ _ => true
  | .debugWriteImage _ _ => true
  | .debugPatch _ _ _ => true
  | .debugResume _ _ => true
  | .debugResumeOne _ => true
  | .traceRecordAppend => true
  | .traceUnitSeal _ => true
  | .patrolScrub _ _ _ => true
  | .sharedStoreScrub _ _ _ => true
  | .registerFileScrub _ _ _ _ => true
  | .ucieRecalibration _ => true
  | .torusRecalibration _ => true
  | .ageingGuardBand _ => true
  | .telemetry => true
  | .powerDown => true
  | .loadResponse _ _ => true

/-- The function field of a 64-bit word names the instruction (02 Table 2.7 and the tables of the class chapters). -/
def Instr.named : Instr → Bool
  | .add _ _ _ => true
  | .sub _ _ _ => true
  | .and _ _ _ => true
  | .or _ _ _ => true
  | .xor _ _ _ => true
  | .andn _ _ _ => true
  | .sll _ _ _ => true
  | .srl _ _ _ => true
  | .sra _ _ _ => true
  | .ror _ _ _ => true
  | .slt _ _ _ => true
  | .sltn _ _ _ => true
  | .min _ _ _ => true
  | .max _ _ _ => true
  | .minn _ _ _ => true
  | .maxn _ _ _ => true
  | .clz _ _ => true
  | .ctz _ _ => true
  | .cpop _ _ => true
  | .mul _ _ _ => true
  | .mulh _ _ _ => true
  | .mulhn _ _ _ => true
  | .div _ _ _ => true
  | .divn _ _ _ => true
  | .rem _ _ _ => true
  | .remn _ _ _ => true
  | .addi _ _ _ => true
  | .andi _ _ _ => true
  | .ori _ _ _ => true
  | .xori _ _ _ => true
  | .slli _ _ _ => true
  | .srli _ _ _ => true
  | .srai _ _ _ => true
  | .slti _ _ _ => true
  | .sltin _ _ _ => true
  | .lui _ _ => true
  | .addpc _ _ => true
  | .ldI8 _ _ _ => true
  | .ldI16 _ _ _ => true
  | .ldI32 _ _ _ => true
  | .ldI64 _ _ _ => true
  | .ldN8 _ _ _ => true
  | .ldN16 _ _ _ => true
  | .ldN32 _ _ _ => true
  | .stI8 _ _ _ => true
  | .stI16 _ _ _ => true
  | .stI32 _ _ _ => true
  | .stI64 _ _ _ => true
  | .mfc _ _ => true
  | .mtc _ _ => true
  | .faddD _ _ _ _ => true
  | .fsubD _ _ _ _ => true
  | .fmulD _ _ _ _ => true
  | .fdivD _ _ _ _ => true
  | .fsqrtD _ _ _ => true
  | .fminD _ _ _ => true
  | .fmaxD _ _ _ => true
  | .fsignCD _ _ _ => true
  | .fsignND _ _ _ => true
  | .fsignXD _ _ _ => true
  | .faddS _ _ _ _ => true
  | .fsubS _ _ _ _ => true
  | .fmulS _ _ _ _ => true
  | .fdivS _ _ _ _ => true
  | .fsqrtS _ _ _ => true
  | .fminS _ _ _ => true
  | .fmaxS _ _ _ => true
  | .fsignCS _ _ _ => true
  | .fsignNS _ _ _ => true
  | .fsignXS _ _ _ => true
  | .fmaddD _ _ _ _ => true
  | .fmsubD _ _ _ _ => true
  | .fnmaddD _ _ _ _ => true
  | .fnmsubD _ _ _ _ => true
  | .fmaddS _ _ _ _ => true
  | .fmsubS _ _ _ _ => true
  | .fnmaddS _ _ _ _ => true
  | .fnmsubS _ _ _ _ => true
  | .cvtDS _ _ => true
  | .cvtSD _ _ _ => true
  | .cvtDI64 _ _ _ => true
  | .cvtDN64 _ _ _ => true
  | .cvtSI64 _ _ _ => true
  | .cvtSN64 _ _ _ => true
  | .cvtI64D _ _ _ => true
  | .cvtN64D _ _ _ => true
  | .cvtI64S _ _ _ => true
  | .cvtN64S _ _ _ => true
  | .fcmpEqD _ _ _ => true
  | .fcmpLtD _ _ _ => true
  | .fcmpLeD _ _ _ => true
  | .fkindD _ _ => true
  | .fcmpEqS _ _ _ => true
  | .fcmpLtS _ _ _ => true
  | .fcmpLeS _ _ _ => true
  | .fkindS _ _ => true
  | .b _ => true
  | .call _ => true
  | .bcEq _ _ _ => true
  | .bcNe _ _ _ => true
  | .bcLt _ _ _ => true
  | .bcGe _ _ _ => true
  | .bcLtn _ _ _ => true
  | .bcGen _ _ _ => true
  | .nop => true
  | .calli _ => true
  | .jmpi _ => true
  | .ret _ => true
  | .lpadC => true
  | .lpadJ => true
  | .lpadR => true
  | .lbrk _ => true
  | .endThread => true
  | .waitT _ _ => true
  | .dline _ => true
  | .lsplit _ _ => true
  | .ljoin => true
  | .loop _ _ _ => true
  | .smb _ _ => true
  | .smbcfg _ _ _ => true
  | .trap _ => true
  | .eret => true
  | .bkpt => true
  | .ifence => true
  | .tlbinv _ => true
  | .halt _ => true
  | .vqsave _ => true
  | .vqrestore _ => true
  | .smplCnt _ _ => true
  | .smplMark => true
  | .trc _ => true
  | .tlbinvAll => true
  | .mfcM _ _ => true
  | .mtcM _ _ => true
  | .vadd w => w.key == 0
  | .vsub w => w.key == 1
  | .vrsub w => w.key == 2
  | .vmul w => w.key == 0
  | .vmulh w => w.key == 1
  | .vmacc w => w.key == 2
  | .vsadd w => w.key == 0
  | .vssub w => w.key == 1
  | .vsmul w => w.key == 2
  | .vsll w => w.key == 0
  | .vsrl w => w.key == 1
  | .vsra w => w.key == 2
  | .vror w => w.key == 3
  | .vand w => w.key == 0
  | .vor w => w.key == 1
  | .vxor w => w.key == 2
  | .vandn w => w.key == 3
  | .vmin w => w.key == 0
  | .vmax w => w.key == 1
  | .vabs w => w.key == 2
  | .vcmpEq w => w.key == 0
  | .vcmpNe w => w.key == 1
  | .vcmpLt w => w.key == 2
  | .vcmpLe w => w.key == 3
  | .vcmpGt w => w.key == 4
  | .vcmpGe w => w.key == 5
  | .mand w => w.key == 0
  | .mor w => w.key == 1
  | .mxor w => w.key == 2
  | .mandn w => w.key == 3
  | .mnot w => w.key == 4
  | .mpop w => w.key == 16
  | .mfirst w => w.key == 17
  | .vsel w => w.key == 0
  | .vbcast w => w.key == 0
  | .vmv w => w.key == 1
  | .vmvsV w => w.key == 2
  | .vmvsX w => w.key == 3
  | .vfadd w => w.key == 0
  | .vfsub w => w.key == 1
  | .vfmul w => w.key == 2
  | .vfmadd w => w.key == 0
  | .vfmsub w => w.key == 1
  | .vfnmadd w => w.key == 2
  | .vfnmsub w => w.key == 3
  | .vfmacc w => w.key == 4
  | .vfmin w => w.key == 0
  | .vfmax w => w.key == 1
  | .vfabs w => w.key == 2
  | .vfneg w => w.key == 3
  | .vfsignC w => w.key == 4
  | .vfsignN w => w.key == 5
  | .vfsignX w => w.key == 6
  | .vfcmpEq w => w.key == 0
  | .vfcmpNe w => w.key == 1
  | .vfcmpLt w => w.key == 2
  | .vfcmpLe w => w.key == 3
  | .vfcmpGt w => w.key == 4
  | .vfcmpGe w => w.key == 5
  | .vfcmpUn w => w.key == 6
  | .vredoAdd w => w.key == 0
  | .vredoMin w => w.key == 1
  | .vredoMax w => w.key == 2
  | .vredtAdd w => w.key == 0
  | .vredtMin w => w.key == 1
  | .vredtMax w => w.key == 2
  | .vredtAnd w => w.key == 3
  | .vredtOr w => w.key == 4
  | .vredtXor w => w.key == 5
  | .vscanInAdd w => w.key == 0
  | .vscanInMin w => w.key == 1
  | .vscanInMax w => w.key == 2
  | .vscanExAdd w => w.key == 8
  | .vscanExMin w => w.key == 9
  | .vscanExMax w => w.key == 10
  | .vslipUp w => w.key == 0
  | .vslipDn w => w.key == 1
  | .vslipUpin w => w.key == 2
  | .vslipDnin w => w.key == 3
  | .vpick w => w.key == 0
  | .vcompress w => w.key == 0
  | .vexpand w => w.key == 1
  | .vcvt _ => true
  | .vcvtEf _ => true
  | .vpack w => w.fnBits 5 1 == 0
  | .vunpack w => w.fnBits 5 1 == 1
  | .vscaleMul w => w.fnBits 0 1 == 0
  | .vscaleDiv w => w.fnBits 0 1 == 1
  | .vfclass _ => true
  | .vdiv w => w.key == 0
  | .vrdiv w => w.key == 1
  | .vsqrt w => w.key == 2
  | .vrsq w => w.key == 3
  | .vld w => w.grp == 0 && w.ch == 0
  | .vldC w => w.grp == 0 && w.ch == 1
  | .vldQ w => w.grp == 1
  | .vlds _ => true
  | .vldx _ => true
  | .vldg _ => true
  | .vst w => w.grp == 0 && w.ch == 0
  | .vstC w => w.grp == 0 && w.ch == 1
  | .vstQ w => w.grp == 1
  | .vsts _ => true
  | .vstx _ => true
  | .vstxo _ => true
  | .vstg _ => true
  | .vpref _ => true
  | .scommit _ => true
  | .cutstep _ => true
  | .mzero _ => true
  | .mouter _ => true
  | .mouteri _ => true
  | .mouterc _ => true
  | .mlacc _ => true
  | .mdrain _ => true
  | .mtov _ => true
  | .mscale _ => true
  | .bclr w => w.fnBits 10 2 == 0
  | .btload w => w.fnBits 10 2 == 1
  | .btdrain w => w.fnBits 10 2 == 2
  | .bqr w => w.key == 0
  | .bqra w => w.key == 1
  | .bqrD w => w.key == 2
  | .bapply w => w.key == 0
  | .bapplyC0 w => w.key == 1
  | .bvec w => w.key == 0
  | .bangleD w => w.key == 1
  | .bangleA w => w.key == 2
  | .brot w => w.fnBits 6 1 == 0
  | .vrotate w => w.fnBits 6 1 == 1
  | .bgain w => w.key == 0
  | .bsolve w => w.key == 0
  | .amoSwap w => w.fnFN == 0
  | .amoAdd w => w.fnFN == 1
  | .amoAnd w => w.fnFN == 2
  | .amoOr w => w.fnFN == 3
  | .amoXor w => w.fnFN == 4
  | .amoMin w => w.fnFN == 5
  | .amoMax w => w.fnFN == 6
  | .amocas _ => true
  | .vamo w => w.fnBits 11 1 == 0
  | .vamoo w => w.fnBits 11 1 == 1
  | .accw w => w.fnFN == 0
  | .vacc w => w.fnFN == 1
  | .amerge w => w.fnFN == 2
  | .accrel w => w.fnFN == 3
  | .syncRd w => w.fnFN == 0
  | .syncWr w => w.fnFN == 1
  | .syncTas w => w.fnFN == 2
  | .syncFadd w => w.fnFN == 3
  | .hudInit w => w.fnFN == 0
  | .hudArr w => w.fnFN == 1
  | .hudDrop w => w.fnFN == 2
  | .hudWait w => w.fnFN == 3
  | .post w => w.fnFN == 0
  | .postSet w => w.fnFN == 1
  | .waiti w => w.fnFN == 2
  | .fence _ => true
  | .awInit w => w.fnFN == 0
  | .awAdd w => w.fnFN == 1
  | .awWait w => w.fnFN == 2
  | .cp w => w.fnFN == 0
  | .cp2 w => w.fnFN == 1
  | .cpx w => w.fnFN == 2
  | .cpq w => w.fnFN == 3
  | .cpw w => w.fnFN == 4
  | .wdecl w => w.key == 0
  | .wdeclRel w => w.key == 32
  | .vldr _ => true
  | .vstr _ => true
  | .step w => w.key == 0
  | .stepAt w => w.key == 32
  | .stepq w => w.key == 64
  | .fsbindRx w => w.key == 0
  | .fsbindTx w => w.key == 1
  | .fsbindU w => w.key == 2
  | .vcred w => w.key == 0
  | .setvl w => w.key < 5
  | .setvt w => w.key == 16
  | .setfmt w => w.key == 0
  | .mshape w => w.key == 0
  | .tshape w => w.key == 16
  | .mmode _ => true
  | .convoyIssue _ _ => true
  | .convoyRetire _ => true
  | .historyEntryRetire _ => true
  | .storeQueueLeave _ => true
  | .mtcLaneEntry _ => true
  | .commitEntry _ => true
  | .stripEntryDrain _ _ => true
  | .storeAcknowledgement _ _ => true
  | .laneIssue _ _ => true
  | .tlbWalk _ _ _ _ => true
  | .l2Fill _ => true
  | .refreshDue _ _ _ _ => true
  | .owedRefresh _ _ _ => true
  | .sliceAluRequest _ => true
  | .vamoPerform _ _ => true
  | .amergePerform _ _ => true
  | .syncMirrorUpdate _ _ => true
  | .postRingArrival _ _ _ => true
  | .waitTReturn _ => true
  | .hudWaitReturn _ => true
  | .waitiReturn _ => true
  | .awWaitReturn _ => true
  | .cpwReturn _ => true
  | .copyChunkDelivery _ _ => true
  | .cpqDelivery _ _ => true
  | .copyAbandon _ _ => true
  | .copyPageMapped _ _ => true
  | .deadline _ => true
  | .trapDelivery _ _ _ => true
  | .suspendToEloaler _ _ _ => true
  | .eloalerResume _ => true
  | .fatalEnd _ => true
  | .preemption _ => true
  | .gangSwitch _ _ => true
  | .switchResume _ => true
  | .stepArrival _ => true
  | .whistleArrivalCounted _ _ => true
  | .startNotice _ _ => true
  | .whistleGo _ _ => true
  | .whistleApply _ => true
  | .whistleRelease _ => true
  | .finalWhistle _ => true
  | .skew _ => true
  | .deferredWrite _ => true
  | .writeAcknowledgement _ _ _ => true
  | .readRequest _ => true
  | .readData _ _ _ => true
  | .translationRequest _ => true
  | .translationResponse _ _ => true
  | .invalidation _ _ _ => true
  | .invalidationAcknowledgement _ _ => true
  | .reservationRequest _ _ _ => true
  | .reservationGrant _ _ => true
  | .streamChunkTransmit _ => true
  | .streamData _ _ _ => true
  | .abort _ _ => true
  | .torusPortDown _ => true
  | .timeLock _ => true
  | .timeLockLoss => true
  | .powerGood => true
  | .torusTraining _ _ => true
  | .epochWrite _ => true
  | .rollbackFuseCommand => true
  | .attestationRequest _ _ _ => true
  | .keyWithdrawal _ => true
  | .powerCap _ => true
  | .junction105 => true
  | .junction110 => true
  | .rdmaConnect _ _ _ => true
  | .rdmaWrite _ _ _ _ _ => true
  | .rdmaRead _ _ _ _ _ => true
  | .doorbellWrite _ => true
  | .entryTake => true
  | .launch => true
  | .create => true
  | .load _ => true
  | .unload => true
  | .unloadComplete _ _ => true
  | .kill => true
  | .launchAgeLimit _ => true
  | .queuedLaunchDeadline _ => true
  | .gangBind _ _ => true
  | .bindRecordValid _ _ => true
  | .threadStart _ _ => true
  | .launchComplete _ => true
  | .debugAttach _ => true
  | .debugDetach _ => true
  | .debugStop _ _ => true
  | .debugReadImage _ _ _ => true
  | .debugWriteImage _ _ => true
  | .debugPatch _ _ _ => true
  | .debugResume _ _ => true
  | .debugResumeOne _ => true
  | .traceRecordAppend => true
  | .traceUnitSeal _ => true
  | .patrolScrub _ _ _ => true
  | .sharedStoreScrub _ _ _ => true
  | .registerFileScrub _ _ _ _ => true
  | .ucieRecalibration _ => true
  | .torusRecalibration _ => true
  | .ageingGuardBand _ => true
  | .telemetry => true
  | .powerDown => true
  | .loadResponse _ _ => true

/-- An instruction that a word can carry: its function field names it and every check of R43 on its word passes; events
carry no word and pass (02 R43). -/
def Instr.wellFormed (i : Instr) : Bool := i.named && i.checks

end Sys2Proof
end

