-- ==== Sys2Proof/Decode.lean ====
section
/-! DEFINITION. From words to instructions and back: the majors of Tables 2.6 and 2.7, the legacy levels, and an encoder
written from the same encodings (spec/02_encoding_and_assembly.md). -/

namespace Sys2Proof

/-- Why bytes are no instruction: too few of them, a major or function no table assigns, a field R33 or R34 calls
illegal, a check of R43 that fails, or a legacy word that breaks the rules of its own level (R49, R50). -/
inductive DecodeError where
  | truncated | unassigned | illegalField | failedCheck | legacyRule
  deriving DecidableEq, Repr

/-- What decoding gives: an instruction and the bytes after it, or a rejection by name. -/
inductive DecodeResult where
  | instr (i : Instr) (rest : List Byte)
  | reject (e : DecodeError)
  deriving DecidableEq, Repr

/-- The words of an encoded instruction (02 R28). -/
inductive Encoding where
  | w32 (w : BitVec 32)
  | w64 (w : BitVec 64)
  deriving DecidableEq, Repr

/-- Major 0x00 (R66). -/
def decMajor00 (w : BitVec 32) : Option Instr :=
  match (w.extractLsb' 0 7).toNat with
  | 1 => some (.add (w.extractLsb' 19 6) (w.extractLsb' 13 6) (w.extractLsb' 7 6))
  | 2 => some (.sub (w.extractLsb' 19 6) (w.extractLsb' 13 6) (w.extractLsb' 7 6))
  | 3 => some (.and (w.extractLsb' 19 6) (w.extractLsb' 13 6) (w.extractLsb' 7 6))
  | 4 => some (.or (w.extractLsb' 19 6) (w.extractLsb' 13 6) (w.extractLsb' 7 6))
  | 5 => some (.xor (w.extractLsb' 19 6) (w.extractLsb' 13 6) (w.extractLsb' 7 6))
  | 6 => some (.andn (w.extractLsb' 19 6) (w.extractLsb' 13 6) (w.extractLsb' 7 6))
  | 8 => some (.sll (w.extractLsb' 19 6) (w.extractLsb' 13 6) (w.extractLsb' 7 6))
  | 9 => some (.srl (w.extractLsb' 19 6) (w.extractLsb' 13 6) (w.extractLsb' 7 6))
  | 10 => some (.sra (w.extractLsb' 19 6) (w.extractLsb' 13 6) (w.extractLsb' 7 6))
  | 11 => some (.ror (w.extractLsb' 19 6) (w.extractLsb' 13 6) (w.extractLsb' 7 6))
  | 16 => some (.slt (w.extractLsb' 19 6) (w.extractLsb' 13 6) (w.extractLsb' 7 6))
  | 17 => some (.sltn (w.extractLsb' 19 6) (w.extractLsb' 13 6) (w.extractLsb' 7 6))
  | 18 => some (.min (w.extractLsb' 19 6) (w.extractLsb' 13 6) (w.extractLsb' 7 6))
  | 19 => some (.max (w.extractLsb' 19 6) (w.extractLsb' 13 6) (w.extractLsb' 7 6))
  | 20 => some (.minn (w.extractLsb' 19 6) (w.extractLsb' 13 6) (w.extractLsb' 7 6))
  | 21 => some (.maxn (w.extractLsb' 19 6) (w.extractLsb' 13 6) (w.extractLsb' 7 6))
  | 24 => if w.extractLsb' 7 6 = 0#6 then some (.clz (w.extractLsb' 19 6) (w.extractLsb' 13 6)) else none
  | 25 => if w.extractLsb' 7 6 = 0#6 then some (.ctz (w.extractLsb' 19 6) (w.extractLsb' 13 6)) else none
  | 26 => if w.extractLsb' 7 6 = 0#6 then some (.cpop (w.extractLsb' 19 6) (w.extractLsb' 13 6)) else none
  | _ => none

/-- Major 0x01 (R67). -/
def decMajor01 (w : BitVec 32) : Option Instr :=
  match (w.extractLsb' 0 7).toNat with
  | 1 => some (.mul (w.extractLsb' 19 6) (w.extractLsb' 13 6) (w.extractLsb' 7 6))
  | 2 => some (.mulh (w.extractLsb' 19 6) (w.extractLsb' 13 6) (w.extractLsb' 7 6))
  | 3 => some (.mulhn (w.extractLsb' 19 6) (w.extractLsb' 13 6) (w.extractLsb' 7 6))
  | 4 => some (.div (w.extractLsb' 19 6) (w.extractLsb' 13 6) (w.extractLsb' 7 6))
  | 5 => some (.divn (w.extractLsb' 19 6) (w.extractLsb' 13 6) (w.extractLsb' 7 6))
  | 6 => some (.rem (w.extractLsb' 19 6) (w.extractLsb' 13 6) (w.extractLsb' 7 6))
  | 7 => some (.remn (w.extractLsb' 19 6) (w.extractLsb' 13 6) (w.extractLsb' 7 6))
  | _ => none

/-- Major 0x02 (R68). -/
def decMajor02 (w : BitVec 32) : Option Instr :=
  some (.addi (w.extractLsb' 19 6) (w.extractLsb' 13 6) (w.extractLsb' 0 13))

/-- Major 0x03 (R68). -/
def decMajor03 (w : BitVec 32) : Option Instr :=
  some (.andi (w.extractLsb' 19 6) (w.extractLsb' 13 6) (w.extractLsb' 0 13))

/-- Major 0x04 (R68). -/
def decMajor04 (w : BitVec 32) : Option Instr :=
  some (.ori (w.extractLsb' 19 6) (w.extractLsb' 13 6) (w.extractLsb' 0 13))

/-- Major 0x05 (R68). -/
def decMajor05 (w : BitVec 32) : Option Instr :=
  some (.xori (w.extractLsb' 19 6) (w.extractLsb' 13 6) (w.extractLsb' 0 13))

/-- Major 0x06 (R68). -/
def decMajor06 (w : BitVec 32) : Option Instr :=
  match (w.extractLsb' 6 7).toNat with
  | 0 => some (.slli (w.extractLsb' 19 6) (w.extractLsb' 13 6) (w.extractLsb' 0 6))
  | 1 => some (.srli (w.extractLsb' 19 6) (w.extractLsb' 13 6) (w.extractLsb' 0 6))
  | 2 => some (.srai (w.extractLsb' 19 6) (w.extractLsb' 13 6) (w.extractLsb' 0 6))
  | _ => none

/-- Major 0x07 (R68). -/
def decMajor07 (w : BitVec 32) : Option Instr :=
  some (.slti (w.extractLsb' 19 6) (w.extractLsb' 13 6) (w.extractLsb' 0 13))

/-- Major 0x08 (R68). -/
def decMajor08 (w : BitVec 32) : Option Instr :=
  some (.sltin (w.extractLsb' 19 6) (w.extractLsb' 13 6) (w.extractLsb' 0 13))

/-- Major 0x09 (R69). -/
def decMajor09 (w : BitVec 32) : Option Instr :=
  some (.lui (w.extractLsb' 19 6) (w.extractLsb' 0 19))

/-- Major 0x0A (R69). -/
def decMajor0A (w : BitVec 32) : Option Instr :=
  some (.addpc (w.extractLsb' 19 6) (w.extractLsb' 0 19))

/-- Major 0x0B (R70). -/
def decMajor0B (w : BitVec 32) : Option Instr :=
  some (.ldI8 (w.extractLsb' 19 6) (w.extractLsb' 13 6) (w.extractLsb' 0 13))

/-- Major 0x0C (R70). -/
def decMajor0C (w : BitVec 32) : Option Instr :=
  some (.ldI16 (w.extractLsb' 19 6) (w.extractLsb' 13 6) (w.extractLsb' 0 13))

/-- Major 0x0D (R70). -/
def decMajor0D (w : BitVec 32) : Option Instr :=
  some (.ldI32 (w.extractLsb' 19 6) (w.extractLsb' 13 6) (w.extractLsb' 0 13))

/-- Major 0x0E (R70). -/
def decMajor0E (w : BitVec 32) : Option Instr :=
  some (.ldI64 (w.extractLsb' 19 6) (w.extractLsb' 13 6) (w.extractLsb' 0 13))

/-- Major 0x0F (R70). -/
def decMajor0F (w : BitVec 32) : Option Instr :=
  some (.ldN8 (w.extractLsb' 19 6) (w.extractLsb' 13 6) (w.extractLsb' 0 13))

/-- Major 0x10 (R70). -/
def decMajor10 (w : BitVec 32) : Option Instr :=
  some (.ldN16 (w.extractLsb' 19 6) (w.extractLsb' 13 6) (w.extractLsb' 0 13))

/-- Major 0x11 (R70). -/
def decMajor11 (w : BitVec 32) : Option Instr :=
  some (.ldN32 (w.extractLsb' 19 6) (w.extractLsb' 13 6) (w.extractLsb' 0 13))

/-- Major 0x12 (R70). -/
def decMajor12 (w : BitVec 32) : Option Instr :=
  some (.stI8 (w.extractLsb' 19 6) (w.extractLsb' 13 6) (w.extractLsb' 0 13))

/-- Major 0x13 (R70). -/
def decMajor13 (w : BitVec 32) : Option Instr :=
  some (.stI16 (w.extractLsb' 19 6) (w.extractLsb' 13 6) (w.extractLsb' 0 13))

/-- Major 0x14 (R70). -/
def decMajor14 (w : BitVec 32) : Option Instr :=
  some (.stI32 (w.extractLsb' 19 6) (w.extractLsb' 13 6) (w.extractLsb' 0 13))

/-- Major 0x15 (R70). -/
def decMajor15 (w : BitVec 32) : Option Instr :=
  some (.stI64 (w.extractLsb' 19 6) (w.extractLsb' 13 6) (w.extractLsb' 0 13))

/-- Major 0x16 (R74). -/
def decMajor16 (w : BitVec 32) : Option Instr :=
  if w.extractLsb' 12 7 = 0#7 then some (.mfc (w.extractLsb' 19 6) (w.extractLsb' 0 12)) else none

/-- Major 0x17 (R74). -/
def decMajor17 (w : BitVec 32) : Option Instr :=
  if w.extractLsb' 19 6 = 0#6 ∧ w.extractLsb' 12 1 = 0#1 then
      some (.mtc (w.extractLsb' 13 6) (w.extractLsb' 0 12)) else none

/-- Major 0x20 (R76). -/
def decMajor20 (w : BitVec 32) : Option Instr :=
  match (w.extractLsb' 0 4).toNat with
  | 0 => some (.faddD (w.extractLsb' 19 6) (w.extractLsb' 13 6) (w.extractLsb' 7 6) (w.extractLsb' 4 3))
  | 1 => some (.fsubD (w.extractLsb' 19 6) (w.extractLsb' 13 6) (w.extractLsb' 7 6) (w.extractLsb' 4 3))
  | 2 => some (.fmulD (w.extractLsb' 19 6) (w.extractLsb' 13 6) (w.extractLsb' 7 6) (w.extractLsb' 4 3))
  | 3 => some (.fdivD (w.extractLsb' 19 6) (w.extractLsb' 13 6) (w.extractLsb' 7 6) (w.extractLsb' 4 3))
  | 4 => if w.extractLsb' 7 6 = 0#6 then
      some (.fsqrtD (w.extractLsb' 19 6) (w.extractLsb' 13 6) (w.extractLsb' 4 3)) else none
  | 5 => if w.extractLsb' 4 3 = 0#3 then
      some (.fminD (w.extractLsb' 19 6) (w.extractLsb' 13 6) (w.extractLsb' 7 6)) else none
  | 6 => if w.extractLsb' 4 3 = 0#3 then
      some (.fmaxD (w.extractLsb' 19 6) (w.extractLsb' 13 6) (w.extractLsb' 7 6)) else none
  | 7 => if w.extractLsb' 4 3 = 0#3 then
      some (.fsignCD (w.extractLsb' 19 6) (w.extractLsb' 13 6) (w.extractLsb' 7 6)) else none
  | 8 => if w.extractLsb' 4 3 = 0#3 then
      some (.fsignND (w.extractLsb' 19 6) (w.extractLsb' 13 6) (w.extractLsb' 7 6)) else none
  | 9 => if w.extractLsb' 4 3 = 0#3 then
      some (.fsignXD (w.extractLsb' 19 6) (w.extractLsb' 13 6) (w.extractLsb' 7 6)) else none
  | _ => none

/-- Major 0x21 (R76). -/
def decMajor21 (w : BitVec 32) : Option Instr :=
  match (w.extractLsb' 0 4).toNat with
  | 0 => some (.faddS (w.extractLsb' 19 6) (w.extractLsb' 13 6) (w.extractLsb' 7 6) (w.extractLsb' 4 3))
  | 1 => some (.fsubS (w.extractLsb' 19 6) (w.extractLsb' 13 6) (w.extractLsb' 7 6) (w.extractLsb' 4 3))
  | 2 => some (.fmulS (w.extractLsb' 19 6) (w.extractLsb' 13 6) (w.extractLsb' 7 6) (w.extractLsb' 4 3))
  | 3 => some (.fdivS (w.extractLsb' 19 6) (w.extractLsb' 13 6) (w.extractLsb' 7 6) (w.extractLsb' 4 3))
  | 4 => if w.extractLsb' 7 6 = 0#6 then
      some (.fsqrtS (w.extractLsb' 19 6) (w.extractLsb' 13 6) (w.extractLsb' 4 3)) else none
  | 5 => if w.extractLsb' 4 3 = 0#3 then
      some (.fminS (w.extractLsb' 19 6) (w.extractLsb' 13 6) (w.extractLsb' 7 6)) else none
  | 6 => if w.extractLsb' 4 3 = 0#3 then
      some (.fmaxS (w.extractLsb' 19 6) (w.extractLsb' 13 6) (w.extractLsb' 7 6)) else none
  | 7 => if w.extractLsb' 4 3 = 0#3 then
      some (.fsignCS (w.extractLsb' 19 6) (w.extractLsb' 13 6) (w.extractLsb' 7 6)) else none
  | 8 => if w.extractLsb' 4 3 = 0#3 then
      some (.fsignNS (w.extractLsb' 19 6) (w.extractLsb' 13 6) (w.extractLsb' 7 6)) else none
  | 9 => if w.extractLsb' 4 3 = 0#3 then
      some (.fsignXS (w.extractLsb' 19 6) (w.extractLsb' 13 6) (w.extractLsb' 7 6)) else none
  | _ => none

/-- Major 0x22 (R77). -/
def decMajor22 (w : BitVec 32) : Option Instr :=
  match (w.extractLsb' 0 4).toNat with
  | 0 => some (.fmaddD (w.extractLsb' 19 6) (w.extractLsb' 13 6) (w.extractLsb' 7 6) (w.extractLsb' 4 3))
  | 1 => some (.fmsubD (w.extractLsb' 19 6) (w.extractLsb' 13 6) (w.extractLsb' 7 6) (w.extractLsb' 4 3))
  | 2 => some (.fnmaddD (w.extractLsb' 19 6) (w.extractLsb' 13 6) (w.extractLsb' 7 6) (w.extractLsb' 4 3))
  | 3 => some (.fnmsubD (w.extractLsb' 19 6) (w.extractLsb' 13 6) (w.extractLsb' 7 6) (w.extractLsb' 4 3))
  | 8 => some (.fmaddS (w.extractLsb' 19 6) (w.extractLsb' 13 6) (w.extractLsb' 7 6) (w.extractLsb' 4 3))
  | 9 => some (.fmsubS (w.extractLsb' 19 6) (w.extractLsb' 13 6) (w.extractLsb' 7 6) (w.extractLsb' 4 3))
  | 10 => some (.fnmaddS (w.extractLsb' 19 6) (w.extractLsb' 13 6) (w.extractLsb' 7 6) (w.extractLsb' 4 3))
  | 11 => some (.fnmsubS (w.extractLsb' 19 6) (w.extractLsb' 13 6) (w.extractLsb' 7 6) (w.extractLsb' 4 3))
  | _ => none

/-- Major 0x23 (R78). -/
def decMajor23 (w : BitVec 32) : Option Instr :=
  match (w.extractLsb' 0 4).toNat with
  | 0 => if w.extractLsb' 4 9 = 0#9 then some (.cvtDS (w.extractLsb' 19 6) (w.extractLsb' 13 6)) else none
  | 1 => if w.extractLsb' 7 6 = 0#6 then
      some (.cvtSD (w.extractLsb' 19 6) (w.extractLsb' 13 6) (w.extractLsb' 4 3)) else none
  | 2 => if w.extractLsb' 7 6 = 0#6 then
      some (.cvtDI64 (w.extractLsb' 19 6) (w.extractLsb' 13 6) (w.extractLsb' 4 3)) else none
  | 3 => if w.extractLsb' 7 6 = 0#6 then
      some (.cvtDN64 (w.extractLsb' 19 6) (w.extractLsb' 13 6) (w.extractLsb' 4 3)) else none
  | 4 => if w.extractLsb' 7 6 = 0#6 then
      some (.cvtSI64 (w.extractLsb' 19 6) (w.extractLsb' 13 6) (w.extractLsb' 4 3)) else none
  | 5 => if w.extractLsb' 7 6 = 0#6 then
      some (.cvtSN64 (w.extractLsb' 19 6) (w.extractLsb' 13 6) (w.extractLsb' 4 3)) else none
  | 6 => if w.extractLsb' 7 6 = 0#6 then
      some (.cvtI64D (w.extractLsb' 19 6) (w.extractLsb' 13 6) (w.extractLsb' 4 3)) else none
  | 7 => if w.extractLsb' 7 6 = 0#6 then
      some (.cvtN64D (w.extractLsb' 19 6) (w.extractLsb' 13 6) (w.extractLsb' 4 3)) else none
  | 8 => if w.extractLsb' 7 6 = 0#6 then
      some (.cvtI64S (w.extractLsb' 19 6) (w.extractLsb' 13 6) (w.extractLsb' 4 3)) else none
  | 9 => if w.extractLsb' 7 6 = 0#6 then
      some (.cvtN64S (w.extractLsb' 19 6) (w.extractLsb' 13 6) (w.extractLsb' 4 3)) else none
  | _ => none

/-- Major 0x24 (R79). -/
def decMajor24 (w : BitVec 32) : Option Instr :=
  match (w.extractLsb' 0 7).toNat with
  | 0 => some (.fcmpEqD (w.extractLsb' 19 6) (w.extractLsb' 13 6) (w.extractLsb' 7 6))
  | 1 => some (.fcmpLtD (w.extractLsb' 19 6) (w.extractLsb' 13 6) (w.extractLsb' 7 6))
  | 2 => some (.fcmpLeD (w.extractLsb' 19 6) (w.extractLsb' 13 6) (w.extractLsb' 7 6))
  | 3 => if w.extractLsb' 7 6 = 0#6 then some (.fkindD (w.extractLsb' 19 6) (w.extractLsb' 13 6)) else none
  | 8 => some (.fcmpEqS (w.extractLsb' 19 6) (w.extractLsb' 13 6) (w.extractLsb' 7 6))
  | 9 => some (.fcmpLtS (w.extractLsb' 19 6) (w.extractLsb' 13 6) (w.extractLsb' 7 6))
  | 10 => some (.fcmpLeS (w.extractLsb' 19 6) (w.extractLsb' 13 6) (w.extractLsb' 7 6))
  | 11 => if w.extractLsb' 7 6 = 0#6 then some (.fkindS (w.extractLsb' 19 6) (w.extractLsb' 13 6)) else none
  | _ => none

/-- Major 0x30 (R81). -/
def decMajor30 (w : BitVec 32) : Option Instr :=
  some (.b (w.extractLsb' 0 25))

/-- Major 0x31 (R81). -/
def decMajor31 (w : BitVec 32) : Option Instr :=
  some (.call (w.extractLsb' 0 25))

/-- Major 0x32 (R82). -/
def decMajor32 (w : BitVec 32) : Option Instr :=
  some (.bcEq (w.extractLsb' 19 6) (w.extractLsb' 13 6) (w.extractLsb' 0 13))

/-- Major 0x33 (R82). -/
def decMajor33 (w : BitVec 32) : Option Instr :=
  some (.bcNe (w.extractLsb' 19 6) (w.extractLsb' 13 6) (w.extractLsb' 0 13))

/-- Major 0x34 (R82). -/
def decMajor34 (w : BitVec 32) : Option Instr :=
  some (.bcLt (w.extractLsb' 19 6) (w.extractLsb' 13 6) (w.extractLsb' 0 13))

/-- Major 0x35 (R82). -/
def decMajor35 (w : BitVec 32) : Option Instr :=
  some (.bcGe (w.extractLsb' 19 6) (w.extractLsb' 13 6) (w.extractLsb' 0 13))

/-- Major 0x36 (R82). -/
def decMajor36 (w : BitVec 32) : Option Instr :=
  some (.bcLtn (w.extractLsb' 19 6) (w.extractLsb' 13 6) (w.extractLsb' 0 13))

/-- Major 0x37 (R82). -/
def decMajor37 (w : BitVec 32) : Option Instr :=
  some (.bcGen (w.extractLsb' 19 6) (w.extractLsb' 13 6) (w.extractLsb' 0 13))

/-- Major 0x38 (R83). -/
def decMajor38 (w : BitVec 32) : Option Instr :=
  match (w.extractLsb' 0 7).toNat with
  | 0 => if w.extractLsb' 7 18 = 0#18 then some (.nop) else none
  | 1 => if w.extractLsb' 19 6 = 0#6 ∧ w.extractLsb' 7 6 = 0#6 then some (.calli (w.extractLsb' 13 6)) else none
  | 2 => if w.extractLsb' 19 6 = 0#6 ∧ w.extractLsb' 7 6 = 0#6 then some (.jmpi (w.extractLsb' 13 6)) else none
  | 3 => if w.extractLsb' 19 6 = 0#6 ∧ w.extractLsb' 7 6 = 0#6 then some (.ret (w.extractLsb' 13 6)) else none
  | 4 => if w.extractLsb' 7 18 = 0#18 then some (.lpadC) else none
  | 5 => if w.extractLsb' 7 18 = 0#18 then some (.lpadJ) else none
  | 6 => if w.extractLsb' 7 18 = 0#18 then some (.lpadR) else none
  | 8 => if w.extractLsb' 20 5 = 0#5 ∧ w.extractLsb' 7 12 = 0#12 then some (.lbrk (w.extractLsb' 19 1)) else none
  | 9 => if w.extractLsb' 7 18 = 0#18 then some (.endThread) else none
  | 10 => if w.extractLsb' 7 6 = 0#6 then some (.waitT (w.extractLsb' 19 6) (w.extractLsb' 13 6)) else none
  | 11 => if w.extractLsb' 19 6 = 0#6 ∧ w.extractLsb' 7 6 = 0#6 then some (.dline (w.extractLsb' 13 6)) else none
  | 12 => if w.extractLsb' 19 6 = 0#6 then some (.lsplit (w.extractLsb' 13 6) (w.extractLsb' 7 6)) else none
  | 13 => if w.extractLsb' 7 18 = 0#18 then some (.ljoin) else none
  | _ => none

/-- Major 0x39 (R87). -/
def decMajor39 (w : BitVec 32) : Option Instr :=
  if w.extractLsb' 20 5 = 0#5 then
      some (.loop (w.extractLsb' 19 1) (w.extractLsb' 13 6) (w.extractLsb' 0 13)) else none

/-- Major 0x3A (R94). -/
def decMajor3A (w : BitVec 32) : Option Instr :=
  if w.extractLsb' 13 6 = 0#6 then some (.smb (w.extractLsb' 19 6) (w.extractLsb' 0 13)) else none

/-- Major 0x3B (R93). -/
def decMajor3B (w : BitVec 32) : Option Instr :=
  if w.extractLsb' 5 14 = 0#14 then
      some (.smbcfg (w.extractLsb' 19 6) (w.extractLsb' 2 3) (w.extractLsb' 0 2)) else none

/-- Major 0x3C (R358). -/
def decMajor3C (w : BitVec 32) : Option Instr :=
  match (w.extractLsb' 0 13).toNat with
  | 1 => if w.extractLsb' 19 6 = 0#6 then some (.trap (w.extractLsb' 13 6)) else none
  | 2 => if w.extractLsb' 13 12 = 0#12 then some (.eret) else none
  | 3 => if w.extractLsb' 13 12 = 0#12 then some (.bkpt) else none
  | 4 => if w.extractLsb' 13 12 = 0#12 then some (.ifence) else none
  | 5 => if w.extractLsb' 19 6 = 0#6 then some (.tlbinv (w.extractLsb' 13 6)) else none
  | 6 => if w.extractLsb' 19 6 = 0#6 then some (.halt (w.extractLsb' 13 6)) else none
  | 7 => if w.extractLsb' 19 6 = 0#6 then some (.vqsave (w.extractLsb' 13 6)) else none
  | 8 => if w.extractLsb' 19 6 = 0#6 then some (.vqrestore (w.extractLsb' 13 6)) else none
  | 9 => some (.smplCnt (w.extractLsb' 19 6) (w.extractLsb' 13 6))
  | 10 => if w.extractLsb' 13 12 = 0#12 then some (.smplMark) else none
  | 11 => if w.extractLsb' 19 6 = 0#6 then some (.trc (w.extractLsb' 13 6)) else none
  | 12 => if w.extractLsb' 13 12 = 0#12 then some (.tlbinvAll) else none
  | _ => none

/-- Major 0x3D (R356). -/
def decMajor3D (w : BitVec 32) : Option Instr :=
  if w.extractLsb' 12 7 = 0#7 then some (.mfcM (w.extractLsb' 19 6) (w.extractLsb' 0 12)) else none

/-- Major 0x3E (R356). -/
def decMajor3E (w : BitVec 32) : Option Instr :=
  if w.extractLsb' 19 6 = 0#6 ∧ w.extractLsb' 12 1 = 0#1 then
      some (.mtcM (w.extractLsb' 13 6) (w.extractLsb' 0 12)) else none

/-- The instruction of a 32-bit word by its major, before the checks of R43 on its fields (02 R46, Table 2.6). -/
def row32 (w : BitVec 32) : Option Instr :=
  match (w.extractLsb' 25 6).toNat with
  | 0 => decMajor00 w
  | 1 => decMajor01 w
  | 2 => decMajor02 w
  | 3 => decMajor03 w
  | 4 => decMajor04 w
  | 5 => decMajor05 w
  | 6 => decMajor06 w
  | 7 => decMajor07 w
  | 8 => decMajor08 w
  | 9 => decMajor09 w
  | 10 => decMajor0A w
  | 11 => decMajor0B w
  | 12 => decMajor0C w
  | 13 => decMajor0D w
  | 14 => decMajor0E w
  | 15 => decMajor0F w
  | 16 => decMajor10 w
  | 17 => decMajor11 w
  | 18 => decMajor12 w
  | 19 => decMajor13 w
  | 20 => decMajor14 w
  | 21 => decMajor15 w
  | 22 => decMajor16 w
  | 23 => decMajor17 w
  | 32 => decMajor20 w
  | 33 => decMajor21 w
  | 34 => decMajor22 w
  | 35 => decMajor23 w
  | 36 => decMajor24 w
  | 48 => decMajor30 w
  | 49 => decMajor31 w
  | 50 => decMajor32 w
  | 51 => decMajor33 w
  | 52 => decMajor34 w
  | 53 => decMajor35 w
  | 54 => decMajor36 w
  | 55 => decMajor37 w
  | 56 => decMajor38 w
  | 57 => decMajor39 w
  | 58 => decMajor3A w
  | 59 => decMajor3B w
  | 60 => decMajor3C w
  | 61 => decMajor3D w
  | 62 => decMajor3E w
  | _ => none

/-- Major 0x00 of a 64-bit word (R124). -/
def wideMajor00 (w : VWord) : Option Instr :=
  match w.key with
  | 0 => some (.vadd w)
  | 1 => some (.vsub w)
  | 2 => some (.vrsub w)
  | _ => none

/-- Major 0x01 of a 64-bit word (R124). -/
def wideMajor01 (w : VWord) : Option Instr :=
  match w.key with
  | 0 => some (.vmul w)
  | 1 => some (.vmulh w)
  | 2 => some (.vmacc w)
  | _ => none

/-- Major 0x02 of a 64-bit word (R124). -/
def wideMajor02 (w : VWord) : Option Instr :=
  match w.key with
  | 0 => some (.vsadd w)
  | 1 => some (.vssub w)
  | 2 => some (.vsmul w)
  | _ => none

/-- Major 0x03 of a 64-bit word (R124). -/
def wideMajor03 (w : VWord) : Option Instr :=
  match w.key with
  | 0 => some (.vsll w)
  | 1 => some (.vsrl w)
  | 2 => some (.vsra w)
  | 3 => some (.vror w)
  | _ => none

/-- Major 0x04 of a 64-bit word (R124). -/
def wideMajor04 (w : VWord) : Option Instr :=
  match w.key with
  | 0 => some (.vand w)
  | 1 => some (.vor w)
  | 2 => some (.vxor w)
  | 3 => some (.vandn w)
  | _ => none

/-- Major 0x05 of a 64-bit word (R124). -/
def wideMajor05 (w : VWord) : Option Instr :=
  match w.key with
  | 0 => some (.vmin w)
  | 1 => some (.vmax w)
  | 2 => some (.vabs w)
  | _ => none

/-- Major 0x06 of a 64-bit word (R125). -/
def wideMajor06 (w : VWord) : Option Instr :=
  match w.key with
  | 0 => some (.vcmpEq w)
  | 1 => some (.vcmpNe w)
  | 2 => some (.vcmpLt w)
  | 3 => some (.vcmpLe w)
  | 4 => some (.vcmpGt w)
  | 5 => some (.vcmpGe w)
  | _ => none

/-- Major 0x07 of a 64-bit word (R126). -/
def wideMajor07 (w : VWord) : Option Instr :=
  match w.key with
  | 0 => some (.mand w)
  | 1 => some (.mor w)
  | 2 => some (.mxor w)
  | 3 => some (.mandn w)
  | 4 => some (.mnot w)
  | 16 => some (.mpop w)
  | 17 => some (.mfirst w)
  | _ => none

/-- Major 0x08 of a 64-bit word (R128). -/
def wideMajor08 (w : VWord) : Option Instr :=
  match w.key with
  | 0 => some (.vsel w)
  | _ => none

/-- Major 0x09 of a 64-bit word (R128). -/
def wideMajor09 (w : VWord) : Option Instr :=
  match w.key with
  | 0 => some (.vbcast w)
  | 1 => some (.vmv w)
  | 2 => some (.vmvsV w)
  | 3 => some (.vmvsX w)
  | _ => none

/-- Major 0x20 of a 64-bit word (R129). -/
def wideMajor20 (w : VWord) : Option Instr :=
  match w.key with
  | 0 => some (.vfadd w)
  | 1 => some (.vfsub w)
  | 2 => some (.vfmul w)
  | _ => none

/-- Major 0x21 of a 64-bit word (R129). -/
def wideMajor21 (w : VWord) : Option Instr :=
  match w.key with
  | 0 => some (.vfmadd w)
  | 1 => some (.vfmsub w)
  | 2 => some (.vfnmadd w)
  | 3 => some (.vfnmsub w)
  | 4 => some (.vfmacc w)
  | _ => none

/-- Major 0x22 of a 64-bit word (R129). -/
def wideMajor22 (w : VWord) : Option Instr :=
  match w.key with
  | 0 => some (.vfmin w)
  | 1 => some (.vfmax w)
  | 2 => some (.vfabs w)
  | 3 => some (.vfneg w)
  | 4 => some (.vfsignC w)
  | 5 => some (.vfsignN w)
  | 6 => some (.vfsignX w)
  | _ => none

/-- Major 0x23 of a 64-bit word (R125). -/
def wideMajor23 (w : VWord) : Option Instr :=
  match w.key with
  | 0 => some (.vfcmpEq w)
  | 1 => some (.vfcmpNe w)
  | 2 => some (.vfcmpLt w)
  | 3 => some (.vfcmpLe w)
  | 4 => some (.vfcmpGt w)
  | 5 => some (.vfcmpGe w)
  | 6 => some (.vfcmpUn w)
  | _ => none

/-- Major 0x30 of a 64-bit word (R130). -/
def wideMajor30 (w : VWord) : Option Instr :=
  match w.key with
  | 0 => some (.vredoAdd w)
  | 1 => some (.vredoMin w)
  | 2 => some (.vredoMax w)
  | _ => none

/-- Major 0x31 of a 64-bit word (R130). -/
def wideMajor31 (w : VWord) : Option Instr :=
  match w.key with
  | 0 => some (.vredtAdd w)
  | 1 => some (.vredtMin w)
  | 2 => some (.vredtMax w)
  | 3 => some (.vredtAnd w)
  | 4 => some (.vredtOr w)
  | 5 => some (.vredtXor w)
  | _ => none

/-- Major 0x32 of a 64-bit word (R131). -/
def wideMajor32 (w : VWord) : Option Instr :=
  match w.key with
  | 0 => some (.vscanInAdd w)
  | 1 => some (.vscanInMin w)
  | 2 => some (.vscanInMax w)
  | 8 => some (.vscanExAdd w)
  | 9 => some (.vscanExMin w)
  | 10 => some (.vscanExMax w)
  | _ => none

/-- Major 0x33 of a 64-bit word (R132). -/
def wideMajor33 (w : VWord) : Option Instr :=
  match w.key with
  | 0 => some (.vslipUp w)
  | 1 => some (.vslipDn w)
  | 2 => some (.vslipUpin w)
  | 3 => some (.vslipDnin w)
  | _ => none

/-- Major 0x34 of a 64-bit word (R133). -/
def wideMajor34 (w : VWord) : Option Instr :=
  match w.key with
  | 0 => some (.vpick w)
  | _ => none

/-- Major 0x35 of a 64-bit word (R134). -/
def wideMajor35 (w : VWord) : Option Instr :=
  match w.key with
  | 0 => some (.vcompress w)
  | 1 => some (.vexpand w)
  | _ => none

/-- Major 0x38 of a 64-bit word (R151). -/
def wideMajor38 (w : VWord) : Option Instr :=
  some (.vcvt w)

/-- Major 0x39 of a 64-bit word (R155). -/
def wideMajor39 (w : VWord) : Option Instr :=
  some (.vcvtEf w)

/-- Major 0x3A of a 64-bit word (R158). -/
def wideMajor3A (w : VWord) : Option Instr :=
  if w.fnBits 5 1 == 0 then some (.vpack w)
  else if w.fnBits 5 1 == 1 then some (.vunpack w)
  else none

/-- Major 0x3B of a 64-bit word (R159). -/
def wideMajor3B (w : VWord) : Option Instr :=
  if w.fnBits 0 1 == 0 then some (.vscaleMul w)
  else if w.fnBits 0 1 == 1 then some (.vscaleDiv w)
  else none

/-- Major 0x3C of a 64-bit word (R160). -/
def wideMajor3C (w : VWord) : Option Instr :=
  some (.vfclass w)

/-- Major 0x3D of a 64-bit word (R162). -/
def wideMajor3D (w : VWord) : Option Instr :=
  match w.key with
  | 0 => some (.vdiv w)
  | 1 => some (.vrdiv w)
  | 2 => some (.vsqrt w)
  | 3 => some (.vrsq w)
  | _ => none

/-- Major 0x40 of a 64-bit word (R199). -/
def wideMajor40 (w : VWord) : Option Instr :=
  if w.grp == 0 && w.ch == 0 then some (.vld w)
  else if w.grp == 0 && w.ch == 1 then some (.vldC w)
  else if w.grp == 1 then some (.vldQ w)
  else none

/-- Major 0x41 of a 64-bit word (R199). -/
def wideMajor41 (w : VWord) : Option Instr :=
  some (.vlds w)

/-- Major 0x42 of a 64-bit word (R199). -/
def wideMajor42 (w : VWord) : Option Instr :=
  some (.vldx w)

/-- Major 0x43 of a 64-bit word (R201). -/
def wideMajor43 (w : VWord) : Option Instr :=
  some (.vldg w)

/-- Major 0x44 of a 64-bit word (R199). -/
def wideMajor44 (w : VWord) : Option Instr :=
  if w.grp == 0 && w.ch == 0 then some (.vst w)
  else if w.grp == 0 && w.ch == 1 then some (.vstC w)
  else if w.grp == 1 then some (.vstQ w)
  else none

/-- Major 0x45 of a 64-bit word (R199). -/
def wideMajor45 (w : VWord) : Option Instr :=
  some (.vsts w)

/-- Major 0x46 of a 64-bit word (R199). -/
def wideMajor46 (w : VWord) : Option Instr :=
  some (.vstx w)

/-- Major 0x47 of a 64-bit word (R191). -/
def wideMajor47 (w : VWord) : Option Instr :=
  some (.vstxo w)

/-- Major 0x48 of a 64-bit word (R201). -/
def wideMajor48 (w : VWord) : Option Instr :=
  some (.vstg w)

/-- Major 0x49 of a 64-bit word (R202). -/
def wideMajor49 (w : VWord) : Option Instr :=
  some (.vpref w)

/-- Major 0x4A of a 64-bit word (R203). -/
def wideMajor4A (w : VWord) : Option Instr :=
  some (.scommit w)

/-- Major 0x4B of a 64-bit word (R204). -/
def wideMajor4B (w : VWord) : Option Instr :=
  some (.cutstep w)

/-- Major 0x50 of a 64-bit word (R227). -/
def wideMajor50 (w : VWord) : Option Instr :=
  some (.mzero w)

/-- Major 0x51 of a 64-bit word (R223). -/
noncomputable def wideMajor51 (w : VWord) : Option Instr :=
  some (.mouter w)

/-- Major 0x52 of a 64-bit word (R223). -/
noncomputable def wideMajor52 (w : VWord) : Option Instr :=
  some (.mouteri w)

/-- Major 0x53 of a 64-bit word (R224). -/
noncomputable def wideMajor53 (w : VWord) : Option Instr :=
  some (.mouterc w)

/-- Major 0x54 of a 64-bit word (R228). -/
noncomputable def wideMajor54 (w : VWord) : Option Instr :=
  some (.mlacc w)

/-- Major 0x55 of a 64-bit word (R231). -/
noncomputable def wideMajor55 (w : VWord) : Option Instr :=
  some (.mdrain w)

/-- Major 0x56 of a 64-bit word (R230). -/
noncomputable def wideMajor56 (w : VWord) : Option Instr :=
  some (.mtov w)

/-- Major 0x57 of a 64-bit word (R229). -/
noncomputable def wideMajor57 (w : VWord) : Option Instr :=
  some (.mscale w)

/-- Major 0x58 of a 64-bit word (R251). -/
noncomputable def wideMajor58 (w : VWord) : Option Instr :=
  if w.fnBits 10 2 == 0 then some (.bclr w)
  else if w.fnBits 10 2 == 1 then some (.btload w)
  else if w.fnBits 10 2 == 2 then some (.btdrain w)
  else none

/-- Major 0x59 of a 64-bit word (R253). -/
noncomputable def wideMajor59 (w : VWord) : Option Instr :=
  match w.key with
  | 0 => some (.bqr w)
  | 1 => some (.bqra w)
  | 2 => some (.bqrD w)
  | _ => none

/-- Major 0x5A of a 64-bit word (R254). -/
noncomputable def wideMajor5A (w : VWord) : Option Instr :=
  match w.key with
  | 0 => some (.bapply w)
  | 1 => some (.bapplyC0 w)
  | _ => none

/-- Major 0x5B of a 64-bit word (R256). -/
noncomputable def wideMajor5B (w : VWord) : Option Instr :=
  match w.key with
  | 0 => some (.bvec w)
  | 1 => some (.bangleD w)
  | 2 => some (.bangleA w)
  | _ => none

/-- Major 0x5C of a 64-bit word (R257). -/
noncomputable def wideMajor5C (w : VWord) : Option Instr :=
  if w.fnBits 6 1 == 0 then some (.brot w)
  else if w.fnBits 6 1 == 1 then some (.vrotate w)
  else none

/-- Major 0x5D of a 64-bit word (R258). -/
noncomputable def wideMajor5D (w : VWord) : Option Instr :=
  match w.key with
  | 0 => some (.bgain w)
  | _ => none

/-- Major 0x5E of a 64-bit word (R255). -/
noncomputable def wideMajor5E (w : VWord) : Option Instr :=
  match w.key with
  | 0 => some (.bsolve w)
  | _ => none

/-- Major 0x60 of a 64-bit word (R269). -/
noncomputable def wideMajor60 (w : VWord) : Option Instr :=
  match w.fnFN with
  | 0 => some (.amoSwap w)
  | 1 => some (.amoAdd w)
  | 2 => some (.amoAnd w)
  | 3 => some (.amoOr w)
  | 4 => some (.amoXor w)
  | 5 => some (.amoMin w)
  | 6 => some (.amoMax w)
  | _ => none

/-- Major 0x61 of a 64-bit word (R270). -/
noncomputable def wideMajor61 (w : VWord) : Option Instr :=
  some (.amocas w)

/-- Major 0x62 of a 64-bit word (R273). -/
noncomputable def wideMajor62 (w : VWord) : Option Instr :=
  if w.fnBits 11 1 == 0 then some (.vamo w)
  else if w.fnBits 11 1 == 1 then some (.vamoo w)
  else none

/-- Major 0x63 of a 64-bit word (R277). -/
noncomputable def wideMajor63 (w : VWord) : Option Instr :=
  match w.fnFN with
  | 0 => some (.accw w)
  | 1 => some (.vacc w)
  | 2 => some (.amerge w)
  | 3 => some (.accrel w)
  | _ => none

/-- Major 0x64 of a 64-bit word (R283). -/
noncomputable def wideMajor64 (w : VWord) : Option Instr :=
  match w.fnFN with
  | 0 => some (.syncRd w)
  | 1 => some (.syncWr w)
  | 2 => some (.syncTas w)
  | 3 => some (.syncFadd w)
  | _ => none

/-- Major 0x65 of a 64-bit word (R286). -/
noncomputable def wideMajor65 (w : VWord) : Option Instr :=
  match w.fnFN with
  | 0 => some (.hudInit w)
  | 1 => some (.hudArr w)
  | 2 => some (.hudDrop w)
  | 3 => some (.hudWait w)
  | _ => none

/-- Major 0x66 of a 64-bit word (R291). -/
noncomputable def wideMajor66 (w : VWord) : Option Instr :=
  match w.fnFN with
  | 0 => some (.post w)
  | 1 => some (.postSet w)
  | 2 => some (.waiti w)
  | _ => none

/-- Major 0x67 of a 64-bit word (R292). -/
noncomputable def wideMajor67 (w : VWord) : Option Instr :=
  some (.fence w)

/-- Major 0x68 of a 64-bit word (R295). -/
noncomputable def wideMajor68 (w : VWord) : Option Instr :=
  match w.fnFN with
  | 0 => some (.awInit w)
  | 1 => some (.awAdd w)
  | 2 => some (.awWait w)
  | _ => none

/-- Major 0x69 of a 64-bit word (R297). -/
noncomputable def wideMajor69 (w : VWord) : Option Instr :=
  match w.fnFN with
  | 0 => some (.cp w)
  | 1 => some (.cp2 w)
  | 2 => some (.cpx w)
  | 3 => some (.cpq w)
  | 4 => some (.cpw w)
  | _ => none

/-- Major 0x70 of a 64-bit word (R309). -/
noncomputable def wideMajor70 (w : VWord) : Option Instr :=
  match w.key with
  | 0 => some (.wdecl w)
  | 32 => some (.wdeclRel w)
  | _ => none

/-- Major 0x71 of a 64-bit word (R326). -/
noncomputable def wideMajor71 (w : VWord) : Option Instr :=
  some (.vldr w)

/-- Major 0x72 of a 64-bit word (R327). -/
noncomputable def wideMajor72 (w : VWord) : Option Instr :=
  some (.vstr w)

/-- Major 0x73 of a 64-bit word (R314). -/
noncomputable def wideMajor73 (w : VWord) : Option Instr :=
  match w.key with
  | 0 => some (.step w)
  | 32 => some (.stepAt w)
  | 64 => some (.stepq w)
  | _ => none

/-- Major 0x74 of a 64-bit word (R337). -/
noncomputable def wideMajor74 (w : VWord) : Option Instr :=
  match w.key with
  | 0 => some (.fsbindRx w)
  | 1 => some (.fsbindTx w)
  | 2 => some (.fsbindU w)
  | _ => none

/-- Major 0x75 of a 64-bit word (R343). -/
noncomputable def wideMajor75 (w : VWord) : Option Instr :=
  match w.key with
  | 0 => some (.vcred w)
  | _ => none

/-- Major 0x78 of a 64-bit word (R109). -/
noncomputable def wideMajor78 (w : VWord) : Option Instr :=
  if w.key < 5 then some (.setvl w)
  else if w.key == 16 then some (.setvt w)
  else none

/-- Major 0x79 of a 64-bit word (R141). -/
noncomputable def wideMajor79 (w : VWord) : Option Instr :=
  match w.key with
  | 0 => some (.setfmt w)
  | _ => none

/-- Major 0x7A of a 64-bit word (R114). -/
noncomputable def wideMajor7A (w : VWord) : Option Instr :=
  match w.key with
  | 0 => some (.mshape w)
  | 16 => some (.tshape w)
  | _ => none

/-- Major 0x7B of a 64-bit word (R214). -/
noncomputable def wideMajor7B (w : VWord) : Option Instr :=
  some (.mmode w)

/-- The instruction of a 64-bit word by its major, before the checks of R43 on its fields (02 R47, Table 2.7). -/
noncomputable def row64 (op : Nat) (w : VWord) : Option Instr :=
  match op with
  | 0 => wideMajor00 w
  | 1 => wideMajor01 w
  | 2 => wideMajor02 w
  | 3 => wideMajor03 w
  | 4 => wideMajor04 w
  | 5 => wideMajor05 w
  | 6 => wideMajor06 w
  | 7 => wideMajor07 w
  | 8 => wideMajor08 w
  | 9 => wideMajor09 w
  | 32 => wideMajor20 w
  | 33 => wideMajor21 w
  | 34 => wideMajor22 w
  | 35 => wideMajor23 w
  | 48 => wideMajor30 w
  | 49 => wideMajor31 w
  | 50 => wideMajor32 w
  | 51 => wideMajor33 w
  | 52 => wideMajor34 w
  | 53 => wideMajor35 w
  | 56 => wideMajor38 w
  | 57 => wideMajor39 w
  | 58 => wideMajor3A w
  | 59 => wideMajor3B w
  | 60 => wideMajor3C w
  | 61 => wideMajor3D w
  | 64 => wideMajor40 w
  | 65 => wideMajor41 w
  | 66 => wideMajor42 w
  | 67 => wideMajor43 w
  | 68 => wideMajor44 w
  | 69 => wideMajor45 w
  | 70 => wideMajor46 w
  | 71 => wideMajor47 w
  | 72 => wideMajor48 w
  | 73 => wideMajor49 w
  | 74 => wideMajor4A w
  | 75 => wideMajor4B w
  | 80 => wideMajor50 w
  | 81 => wideMajor51 w
  | 82 => wideMajor52 w
  | 83 => wideMajor53 w
  | 84 => wideMajor54 w
  | 85 => wideMajor55 w
  | 86 => wideMajor56 w
  | 87 => wideMajor57 w
  | 88 => wideMajor58 w
  | 89 => wideMajor59 w
  | 90 => wideMajor5A w
  | 91 => wideMajor5B w
  | 92 => wideMajor5C w
  | 93 => wideMajor5D w
  | 94 => wideMajor5E w
  | 96 => wideMajor60 w
  | 97 => wideMajor61 w
  | 98 => wideMajor62 w
  | 99 => wideMajor63 w
  | 100 => wideMajor64 w
  | 101 => wideMajor65 w
  | 102 => wideMajor66 w
  | 103 => wideMajor67 w
  | 104 => wideMajor68 w
  | 105 => wideMajor69 w
  | 112 => wideMajor70 w
  | 113 => wideMajor71 w
  | 114 => wideMajor72 w
  | 115 => wideMajor73 w
  | 116 => wideMajor74 w
  | 117 => wideMajor75 w
  | 120 => wideMajor78 w
  | 121 => wideMajor79 w
  | 122 => wideMajor7A w
  | 123 => wideMajor7B w
  | _ => none

/-- The fields of a 64-bit word: its major opcode and the rest, none for form 0b11 or etype 15 (02 R33, R34). -/
def unpackWide (w : BitVec 64) : Option (BitVec 7 × VWord) :=
  match Form.ofCode (w.extractLsb' 62 2).toNat, EType.ofCode (w.extractLsb' 44 4).toNat with
  | some f, some e =>
    some (w.extractLsb' 24 7,
      { form := f, mask := w.extractLsb' 59 3, chain := w.extractLsb' 58 1 == 1#1,
        rsel := RSel.ofCode (w.extractLsb' 56 2).toNat, rsz := w.extractLsb' 54 2, ridx := w.extractLsb' 48 6,
        ety := e, fn := w.extractLsb' 32 12, vd := w.extractLsb' 18 6, va := w.extractLsb' 12 6,
        vb := w.extractLsb' 6 6, vc := w.extractLsb' 0 6 })
  | _, _ => none

/-- A 64-bit word from its major opcode and fields (02 Table 2.2). -/
def packWide (op : BitVec 7) (w : VWord) : BitVec 64 :=
  BitVec.ofNat 2 w.form.code ++ w.mask ++ BitVec.ofBool w.chain ++ BitVec.ofNat 2 w.rsel.code ++ w.rsz ++ w.ridx
    ++ BitVec.ofNat 4 w.ety.code ++ w.fn ++ 1#1 ++ op ++ w.vd ++ w.va ++ w.vb ++ w.vc

/-- A level-3 etype code from a level-2 code (02 Table 2.9). -/
def legacyEtype (c : Nat) : Nat :=
  match c with
  | 0 => 3 | 1 => 2 | 2 => 1 | 3 => 0 | 4 => 7 | 5 => 6 | 6 => 5 | 7 => 4 | 12 => 13 | 13 => 12 | n => n

/-- The level-3 word of a legacy 64-bit word, none when it breaks the rules of its own level (02 R49, R50). -/
def rewriteWide (level : Nat) (w : BitVec 64) : Option (BitVec 64) :=
  match level with
  | 1 =>
    if w.extractLsb' 62 2 = 0#2 ∧ w.extractLsb' 48 11 = 0#11 then
      let form := w.extractLsb' 42 2
      let fn : BitVec 12 := if form = 2#2 then (w.extractLsb' 32 10).signExtend 12 else (w.extractLsb' 32 10).zeroExtend 12
      some (form ++ w.extractLsb' 59 3 ++ 0#11 ++ BitVec.ofNat 4 (legacyEtype (w.extractLsb' 44 4).toNat) ++ fn
        ++ w.extractLsb' 0 32)
    else none
  | 2 =>
    if w.extractLsb' 48 10 = 0#10 then
      some (w.extractLsb' 48 16 ++ BitVec.ofNat 4 (legacyEtype (w.extractLsb' 44 4).toNat) ++ w.extractLsb' 0 44)
    else none
  | _ => some w

/-- Keep an instruction only when it passes the checks of R43 on its word. -/
def checked (o : Option Instr) : Except DecodeError Instr :=
  match o with
  | none => .error .unassigned
  | some i => if i.checks then .ok i else .error .failedCheck

/-- The instruction of a 32-bit word, the same at every level (02 R51). -/
def decode32 (w : BitVec 32) : Except DecodeError Instr := checked (row32 w)

/-- The instruction of a 64-bit word of a level (02 R49, R50). It is `noncomputable` only because Lean's runtime gives
no more than 244 tags to constructors with fields; the kernel evaluates it, and `Step.lean` proves the code that
compiled runs use equal to it. -/
noncomputable def decode64 (level : Nat) (w : BitVec 64) : Except DecodeError Instr :=
  match rewriteWide level w with
  | none => .error .legacyRule
  | some w3 =>
    match unpackWide w3 with
    | none => .error .illegalField
    | some (op, f) => checked (row64 op.toNat f)

/-- Little-endian bytes as a number (00 R4). -/
def leNat : List Byte → Nat
  | [] => 0
  | b :: bs => b.toNat + 256 * leNat bs

/-- The low n bytes of a number, least significant first (00 R4). -/
def leBytes : Nat → Nat → List Byte
  | 0, _ => []
  | n + 1, x => BitVec.ofNat 8 x :: leBytes n (x / 256)

/-- Decode the instruction at the front of a list of bytes: bit 31 of the first word is the length bit (02 R28). -/
noncomputable def decode (level : Nat) (bs : List Byte) : DecodeResult :=
  let lo := bs.take 4
  if lo.length < 4 then .reject .truncated
  else if leNat lo < 2 ^ 31 then
    match decode32 (BitVec.ofNat 32 (leNat lo)) with
    | .ok i => .instr i (bs.drop 4)
    | .error e => .reject e
  else
    let w := bs.take 8
    if w.length < 8 then .reject .truncated
    else
      match decode64 level (BitVec.ofNat 64 (leNat w)) with
      | .ok i => .instr i (bs.drop 8)
      | .error e => .reject e

/-- The word of an instruction; an event has none (02 R31, R33). -/
def encode : Instr → Option Encoding
  | .add d a b => some (.w32 (0#1 ++ 0#6 ++ d ++ a ++ b ++ 1#7))
  | .sub d a b => some (.w32 (0#1 ++ 0#6 ++ d ++ a ++ b ++ 2#7))
  | .and d a b => some (.w32 (0#1 ++ 0#6 ++ d ++ a ++ b ++ 3#7))
  | .or d a b => some (.w32 (0#1 ++ 0#6 ++ d ++ a ++ b ++ 4#7))
  | .xor d a b => some (.w32 (0#1 ++ 0#6 ++ d ++ a ++ b ++ 5#7))
  | .andn d a b => some (.w32 (0#1 ++ 0#6 ++ d ++ a ++ b ++ 6#7))
  | .sll d a b => some (.w32 (0#1 ++ 0#6 ++ d ++ a ++ b ++ 8#7))
  | .srl d a b => some (.w32 (0#1 ++ 0#6 ++ d ++ a ++ b ++ 9#7))
  | .sra d a b => some (.w32 (0#1 ++ 0#6 ++ d ++ a ++ b ++ 10#7))
  | .ror d a b => some (.w32 (0#1 ++ 0#6 ++ d ++ a ++ b ++ 11#7))
  | .slt d a b => some (.w32 (0#1 ++ 0#6 ++ d ++ a ++ b ++ 16#7))
  | .sltn d a b => some (.w32 (0#1 ++ 0#6 ++ d ++ a ++ b ++ 17#7))
  | .min d a b => some (.w32 (0#1 ++ 0#6 ++ d ++ a ++ b ++ 18#7))
  | .max d a b => some (.w32 (0#1 ++ 0#6 ++ d ++ a ++ b ++ 19#7))
  | .minn d a b => some (.w32 (0#1 ++ 0#6 ++ d ++ a ++ b ++ 20#7))
  | .maxn d a b => some (.w32 (0#1 ++ 0#6 ++ d ++ a ++ b ++ 21#7))
  | .clz d a => some (.w32 (0#1 ++ 0#6 ++ d ++ a ++ 24#13))
  | .ctz d a => some (.w32 (0#1 ++ 0#6 ++ d ++ a ++ 25#13))
  | .cpop d a => some (.w32 (0#1 ++ 0#6 ++ d ++ a ++ 26#13))
  | .mul d a b => some (.w32 (0#1 ++ 1#6 ++ d ++ a ++ b ++ 1#7))
  | .mulh d a b => some (.w32 (0#1 ++ 1#6 ++ d ++ a ++ b ++ 2#7))
  | .mulhn d a b => some (.w32 (0#1 ++ 1#6 ++ d ++ a ++ b ++ 3#7))
  | .div d a b => some (.w32 (0#1 ++ 1#6 ++ d ++ a ++ b ++ 4#7))
  | .divn d a b => some (.w32 (0#1 ++ 1#6 ++ d ++ a ++ b ++ 5#7))
  | .rem d a b => some (.w32 (0#1 ++ 1#6 ++ d ++ a ++ b ++ 6#7))
  | .remn d a b => some (.w32 (0#1 ++ 1#6 ++ d ++ a ++ b ++ 7#7))
  | .addi d a i => some (.w32 (0#1 ++ 2#6 ++ d ++ a ++ i))
  | .andi d a i => some (.w32 (0#1 ++ 3#6 ++ d ++ a ++ i))
  | .ori d a i => some (.w32 (0#1 ++ 4#6 ++ d ++ a ++ i))
  | .xori d a i => some (.w32 (0#1 ++ 5#6 ++ d ++ a ++ i))
  | .slli d a h => some (.w32 (0#1 ++ 6#6 ++ d ++ a ++ 0#7 ++ h))
  | .srli d a h => some (.w32 (0#1 ++ 6#6 ++ d ++ a ++ 1#7 ++ h))
  | .srai d a h => some (.w32 (0#1 ++ 6#6 ++ d ++ a ++ 2#7 ++ h))
  | .slti d a i => some (.w32 (0#1 ++ 7#6 ++ d ++ a ++ i))
  | .sltin d a i => some (.w32 (0#1 ++ 8#6 ++ d ++ a ++ i))
  | .lui d i => some (.w32 (0#1 ++ 9#6 ++ d ++ i))
  | .addpc d i => some (.w32 (0#1 ++ 10#6 ++ d ++ i))
  | .ldI8 d a i => some (.w32 (0#1 ++ 11#6 ++ d ++ a ++ i))
  | .ldI16 d a i => some (.w32 (0#1 ++ 12#6 ++ d ++ a ++ i))
  | .ldI32 d a i => some (.w32 (0#1 ++ 13#6 ++ d ++ a ++ i))
  | .ldI64 d a i => some (.w32 (0#1 ++ 14#6 ++ d ++ a ++ i))
  | .ldN8 d a i => some (.w32 (0#1 ++ 15#6 ++ d ++ a ++ i))
  | .ldN16 d a i => some (.w32 (0#1 ++ 16#6 ++ d ++ a ++ i))
  | .ldN32 d a i => some (.w32 (0#1 ++ 17#6 ++ d ++ a ++ i))
  | .stI8 a b i => some (.w32 (0#1 ++ 18#6 ++ a ++ b ++ i))
  | .stI16 a b i => some (.w32 (0#1 ++ 19#6 ++ a ++ b ++ i))
  | .stI32 a b i => some (.w32 (0#1 ++ 20#6 ++ a ++ b ++ i))
  | .stI64 a b i => some (.w32 (0#1 ++ 21#6 ++ a ++ b ++ i))
  | .mfc d n => some (.w32 (0#1 ++ 22#6 ++ d ++ 0#7 ++ n))
  | .mtc a n => some (.w32 (0#1 ++ 23#6 ++ 0#6 ++ a ++ 0#1 ++ n))
  | .faddD d a b m => some (.w32 (0#1 ++ 32#6 ++ d ++ a ++ b ++ m ++ 0#4))
  | .fsubD d a b m => some (.w32 (0#1 ++ 32#6 ++ d ++ a ++ b ++ m ++ 1#4))
  | .fmulD d a b m => some (.w32 (0#1 ++ 32#6 ++ d ++ a ++ b ++ m ++ 2#4))
  | .fdivD d a b m => some (.w32 (0#1 ++ 32#6 ++ d ++ a ++ b ++ m ++ 3#4))
  | .fsqrtD d a m => some (.w32 (0#1 ++ 32#6 ++ d ++ a ++ 0#6 ++ m ++ 4#4))
  | .fminD d a b => some (.w32 (0#1 ++ 32#6 ++ d ++ a ++ b ++ 5#7))
  | .fmaxD d a b => some (.w32 (0#1 ++ 32#6 ++ d ++ a ++ b ++ 6#7))
  | .fsignCD d a b => some (.w32 (0#1 ++ 32#6 ++ d ++ a ++ b ++ 7#7))
  | .fsignND d a b => some (.w32 (0#1 ++ 32#6 ++ d ++ a ++ b ++ 8#7))
  | .fsignXD d a b => some (.w32 (0#1 ++ 32#6 ++ d ++ a ++ b ++ 9#7))
  | .faddS d a b m => some (.w32 (0#1 ++ 33#6 ++ d ++ a ++ b ++ m ++ 0#4))
  | .fsubS d a b m => some (.w32 (0#1 ++ 33#6 ++ d ++ a ++ b ++ m ++ 1#4))
  | .fmulS d a b m => some (.w32 (0#1 ++ 33#6 ++ d ++ a ++ b ++ m ++ 2#4))
  | .fdivS d a b m => some (.w32 (0#1 ++ 33#6 ++ d ++ a ++ b ++ m ++ 3#4))
  | .fsqrtS d a m => some (.w32 (0#1 ++ 33#6 ++ d ++ a ++ 0#6 ++ m ++ 4#4))
  | .fminS d a b => some (.w32 (0#1 ++ 33#6 ++ d ++ a ++ b ++ 5#7))
  | .fmaxS d a b => some (.w32 (0#1 ++ 33#6 ++ d ++ a ++ b ++ 6#7))
  | .fsignCS d a b => some (.w32 (0#1 ++ 33#6 ++ d ++ a ++ b ++ 7#7))
  | .fsignNS d a b => some (.w32 (0#1 ++ 33#6 ++ d ++ a ++ b ++ 8#7))
  | .fsignXS d a b => some (.w32 (0#1 ++ 33#6 ++ d ++ a ++ b ++ 9#7))
  | .fmaddD d a b m => some (.w32 (0#1 ++ 34#6 ++ d ++ a ++ b ++ m ++ 0#4))
  | .fmsubD d a b m => some (.w32 (0#1 ++ 34#6 ++ d ++ a ++ b ++ m ++ 1#4))
  | .fnmaddD d a b m => some (.w32 (0#1 ++ 34#6 ++ d ++ a ++ b ++ m ++ 2#4))
  | .fnmsubD d a b m => some (.w32 (0#1 ++ 34#6 ++ d ++ a ++ b ++ m ++ 3#4))
  | .fmaddS d a b m => some (.w32 (0#1 ++ 34#6 ++ d ++ a ++ b ++ m ++ 8#4))
  | .fmsubS d a b m => some (.w32 (0#1 ++ 34#6 ++ d ++ a ++ b ++ m ++ 9#4))
  | .fnmaddS d a b m => some (.w32 (0#1 ++ 34#6 ++ d ++ a ++ b ++ m ++ 10#4))
  | .fnmsubS d a b m => some (.w32 (0#1 ++ 34#6 ++ d ++ a ++ b ++ m ++ 11#4))
  | .cvtDS d a => some (.w32 (0#1 ++ 35#6 ++ d ++ a ++ 0#13))
  | .cvtSD d a m => some (.w32 (0#1 ++ 35#6 ++ d ++ a ++ 0#6 ++ m ++ 1#4))
  | .cvtDI64 d a m => some (.w32 (0#1 ++ 35#6 ++ d ++ a ++ 0#6 ++ m ++ 2#4))
  | .cvtDN64 d a m => some (.w32 (0#1 ++ 35#6 ++ d ++ a ++ 0#6 ++ m ++ 3#4))
  | .cvtSI64 d a m => some (.w32 (0#1 ++ 35#6 ++ d ++ a ++ 0#6 ++ m ++ 4#4))
  | .cvtSN64 d a m => some (.w32 (0#1 ++ 35#6 ++ d ++ a ++ 0#6 ++ m ++ 5#4))
  | .cvtI64D d a m => some (.w32 (0#1 ++ 35#6 ++ d ++ a ++ 0#6 ++ m ++ 6#4))
  | .cvtN64D d a m => some (.w32 (0#1 ++ 35#6 ++ d ++ a ++ 0#6 ++ m ++ 7#4))
  | .cvtI64S d a m => some (.w32 (0#1 ++ 35#6 ++ d ++ a ++ 0#6 ++ m ++ 8#4))
  | .cvtN64S d a m => some (.w32 (0#1 ++ 35#6 ++ d ++ a ++ 0#6 ++ m ++ 9#4))
  | .fcmpEqD d a b => some (.w32 (0#1 ++ 36#6 ++ d ++ a ++ b ++ 0#7))
  | .fcmpLtD d a b => some (.w32 (0#1 ++ 36#6 ++ d ++ a ++ b ++ 1#7))
  | .fcmpLeD d a b => some (.w32 (0#1 ++ 36#6 ++ d ++ a ++ b ++ 2#7))
  | .fkindD d a => some (.w32 (0#1 ++ 36#6 ++ d ++ a ++ 3#13))
  | .fcmpEqS d a b => some (.w32 (0#1 ++ 36#6 ++ d ++ a ++ b ++ 8#7))
  | .fcmpLtS d a b => some (.w32 (0#1 ++ 36#6 ++ d ++ a ++ b ++ 9#7))
  | .fcmpLeS d a b => some (.w32 (0#1 ++ 36#6 ++ d ++ a ++ b ++ 10#7))
  | .fkindS d a => some (.w32 (0#1 ++ 36#6 ++ d ++ a ++ 11#13))
  | .b i => some (.w32 (0#1 ++ 48#6 ++ i))
  | .call i => some (.w32 (0#1 ++ 49#6 ++ i))
  | .bcEq a b i => some (.w32 (0#1 ++ 50#6 ++ a ++ b ++ i))
  | .bcNe a b i => some (.w32 (0#1 ++ 51#6 ++ a ++ b ++ i))
  | .bcLt a b i => some (.w32 (0#1 ++ 52#6 ++ a ++ b ++ i))
  | .bcGe a b i => some (.w32 (0#1 ++ 53#6 ++ a ++ b ++ i))
  | .bcLtn a b i => some (.w32 (0#1 ++ 54#6 ++ a ++ b ++ i))
  | .bcGen a b i => some (.w32 (0#1 ++ 55#6 ++ a ++ b ++ i))
  | .nop => some (.w32 (0#1 ++ 56#6 ++ 0#25))
  | .calli a => some (.w32 (0#1 ++ 56#6 ++ 0#6 ++ a ++ 1#13))
  | .jmpi a => some (.w32 (0#1 ++ 56#6 ++ 0#6 ++ a ++ 2#13))
  | .ret a => some (.w32 (0#1 ++ 56#6 ++ 0#6 ++ a ++ 3#13))
  | .lpadC => some (.w32 (0#1 ++ 56#6 ++ 4#25))
  | .lpadJ => some (.w32 (0#1 ++ 56#6 ++ 5#25))
  | .lpadR => some (.w32 (0#1 ++ 56#6 ++ 6#25))
  | .lbrk n => some (.w32 (0#1 ++ 56#6 ++ 0#5 ++ n ++ 8#19))
  | .endThread => some (.w32 (0#1 ++ 56#6 ++ 9#25))
  | .waitT d a => some (.w32 (0#1 ++ 56#6 ++ d ++ a ++ 10#13))
  | .dline a => some (.w32 (0#1 ++ 56#6 ++ 0#6 ++ a ++ 11#13))
  | .lsplit a b => some (.w32 (0#1 ++ 56#6 ++ 0#6 ++ a ++ b ++ 12#7))
  | .ljoin => some (.w32 (0#1 ++ 56#6 ++ 13#25))
  | .loop n a i => some (.w32 (0#1 ++ 57#6 ++ 0#5 ++ n ++ a ++ i))
  | .smb a i => some (.w32 (0#1 ++ 58#6 ++ a ++ 0#6 ++ i))
  | .smbcfg d z j => some (.w32 (0#1 ++ 59#6 ++ d ++ 0#14 ++ z ++ j))
  | .trap a => some (.w32 (0#1 ++ 60#6 ++ 0#6 ++ a ++ 1#13))
  | .eret => some (.w32 (0#1 ++ 60#6 ++ 2#25))
  | .bkpt => some (.w32 (0#1 ++ 60#6 ++ 3#25))
  | .ifence => some (.w32 (0#1 ++ 60#6 ++ 4#25))
  | .tlbinv a => some (.w32 (0#1 ++ 60#6 ++ 0#6 ++ a ++ 5#13))
  | .halt a => some (.w32 (0#1 ++ 60#6 ++ 0#6 ++ a ++ 6#13))
  | .vqsave a => some (.w32 (0#1 ++ 60#6 ++ 0#6 ++ a ++ 7#13))
  | .vqrestore a => some (.w32 (0#1 ++ 60#6 ++ 0#6 ++ a ++ 8#13))
  | .smplCnt d a => some (.w32 (0#1 ++ 60#6 ++ d ++ a ++ 9#13))
  | .smplMark => some (.w32 (0#1 ++ 60#6 ++ 10#25))
  | .trc a => some (.w32 (0#1 ++ 60#6 ++ 0#6 ++ a ++ 11#13))
  | .tlbinvAll => some (.w32 (0#1 ++ 60#6 ++ 12#25))
  | .mfcM d n => some (.w32 (0#1 ++ 61#6 ++ d ++ 0#7 ++ n))
  | .mtcM a n => some (.w32 (0#1 ++ 62#6 ++ 0#6 ++ a ++ 0#1 ++ n))
  | .vadd w => some (.w64 (packWide 0x00#7 w))
  | .vsub w => some (.w64 (packWide 0x00#7 w))
  | .vrsub w => some (.w64 (packWide 0x00#7 w))
  | .vmul w => some (.w64 (packWide 0x01#7 w))
  | .vmulh w => some (.w64 (packWide 0x01#7 w))
  | .vmacc w => some (.w64 (packWide 0x01#7 w))
  | .vsadd w => some (.w64 (packWide 0x02#7 w))
  | .vssub w => some (.w64 (packWide 0x02#7 w))
  | .vsmul w => some (.w64 (packWide 0x02#7 w))
  | .vsll w => some (.w64 (packWide 0x03#7 w))
  | .vsrl w => some (.w64 (packWide 0x03#7 w))
  | .vsra w => some (.w64 (packWide 0x03#7 w))
  | .vror w => some (.w64 (packWide 0x03#7 w))
  | .vand w => some (.w64 (packWide 0x04#7 w))
  | .vor w => some (.w64 (packWide 0x04#7 w))
  | .vxor w => some (.w64 (packWide 0x04#7 w))
  | .vandn w => some (.w64 (packWide 0x04#7 w))
  | .vmin w => some (.w64 (packWide 0x05#7 w))
  | .vmax w => some (.w64 (packWide 0x05#7 w))
  | .vabs w => some (.w64 (packWide 0x05#7 w))
  | .vcmpEq w => some (.w64 (packWide 0x06#7 w))
  | .vcmpNe w => some (.w64 (packWide 0x06#7 w))
  | .vcmpLt w => some (.w64 (packWide 0x06#7 w))
  | .vcmpLe w => some (.w64 (packWide 0x06#7 w))
  | .vcmpGt w => some (.w64 (packWide 0x06#7 w))
  | .vcmpGe w => some (.w64 (packWide 0x06#7 w))
  | .mand w => some (.w64 (packWide 0x07#7 w))
  | .mor w => some (.w64 (packWide 0x07#7 w))
  | .mxor w => some (.w64 (packWide 0x07#7 w))
  | .mandn w => some (.w64 (packWide 0x07#7 w))
  | .mnot w => some (.w64 (packWide 0x07#7 w))
  | .mpop w => some (.w64 (packWide 0x07#7 w))
  | .mfirst w => some (.w64 (packWide 0x07#7 w))
  | .vsel w => some (.w64 (packWide 0x08#7 w))
  | .vbcast w => some (.w64 (packWide 0x09#7 w))
  | .vmv w => some (.w64 (packWide 0x09#7 w))
  | .vmvsV w => some (.w64 (packWide 0x09#7 w))
  | .vmvsX w => some (.w64 (packWide 0x09#7 w))
  | .vfadd w => some (.w64 (packWide 0x20#7 w))
  | .vfsub w => some (.w64 (packWide 0x20#7 w))
  | .vfmul w => some (.w64 (packWide 0x20#7 w))
  | .vfmadd w => some (.w64 (packWide 0x21#7 w))
  | .vfmsub w => some (.w64 (packWide 0x21#7 w))
  | .vfnmadd w => some (.w64 (packWide 0x21#7 w))
  | .vfnmsub w => some (.w64 (packWide 0x21#7 w))
  | .vfmacc w => some (.w64 (packWide 0x21#7 w))
  | .vfmin w => some (.w64 (packWide 0x22#7 w))
  | .vfmax w => some (.w64 (packWide 0x22#7 w))
  | .vfabs w => some (.w64 (packWide 0x22#7 w))
  | .vfneg w => some (.w64 (packWide 0x22#7 w))
  | .vfsignC w => some (.w64 (packWide 0x22#7 w))
  | .vfsignN w => some (.w64 (packWide 0x22#7 w))
  | .vfsignX w => some (.w64 (packWide 0x22#7 w))
  | .vfcmpEq w => some (.w64 (packWide 0x23#7 w))
  | .vfcmpNe w => some (.w64 (packWide 0x23#7 w))
  | .vfcmpLt w => some (.w64 (packWide 0x23#7 w))
  | .vfcmpLe w => some (.w64 (packWide 0x23#7 w))
  | .vfcmpGt w => some (.w64 (packWide 0x23#7 w))
  | .vfcmpGe w => some (.w64 (packWide 0x23#7 w))
  | .vfcmpUn w => some (.w64 (packWide 0x23#7 w))
  | .vredoAdd w => some (.w64 (packWide 0x30#7 w))
  | .vredoMin w => some (.w64 (packWide 0x30#7 w))
  | .vredoMax w => some (.w64 (packWide 0x30#7 w))
  | .vredtAdd w => some (.w64 (packWide 0x31#7 w))
  | .vredtMin w => some (.w64 (packWide 0x31#7 w))
  | .vredtMax w => some (.w64 (packWide 0x31#7 w))
  | .vredtAnd w => some (.w64 (packWide 0x31#7 w))
  | .vredtOr w => some (.w64 (packWide 0x31#7 w))
  | .vredtXor w => some (.w64 (packWide 0x31#7 w))
  | .vscanInAdd w => some (.w64 (packWide 0x32#7 w))
  | .vscanInMin w => some (.w64 (packWide 0x32#7 w))
  | .vscanInMax w => some (.w64 (packWide 0x32#7 w))
  | .vscanExAdd w => some (.w64 (packWide 0x32#7 w))
  | .vscanExMin w => some (.w64 (packWide 0x32#7 w))
  | .vscanExMax w => some (.w64 (packWide 0x32#7 w))
  | .vslipUp w => some (.w64 (packWide 0x33#7 w))
  | .vslipDn w => some (.w64 (packWide 0x33#7 w))
  | .vslipUpin w => some (.w64 (packWide 0x33#7 w))
  | .vslipDnin w => some (.w64 (packWide 0x33#7 w))
  | .vpick w => some (.w64 (packWide 0x34#7 w))
  | .vcompress w => some (.w64 (packWide 0x35#7 w))
  | .vexpand w => some (.w64 (packWide 0x35#7 w))
  | .vcvt w => some (.w64 (packWide 0x38#7 w))
  | .vcvtEf w => some (.w64 (packWide 0x39#7 w))
  | .vpack w => some (.w64 (packWide 0x3A#7 w))
  | .vunpack w => some (.w64 (packWide 0x3A#7 w))
  | .vscaleMul w => some (.w64 (packWide 0x3B#7 w))
  | .vscaleDiv w => some (.w64 (packWide 0x3B#7 w))
  | .vfclass w => some (.w64 (packWide 0x3C#7 w))
  | .vdiv w => some (.w64 (packWide 0x3D#7 w))
  | .vrdiv w => some (.w64 (packWide 0x3D#7 w))
  | .vsqrt w => some (.w64 (packWide 0x3D#7 w))
  | .vrsq w => some (.w64 (packWide 0x3D#7 w))
  | .vld w => some (.w64 (packWide 0x40#7 w))
  | .vldC w => some (.w64 (packWide 0x40#7 w))
  | .vldQ w => some (.w64 (packWide 0x40#7 w))
  | .vlds w => some (.w64 (packWide 0x41#7 w))
  | .vldx w => some (.w64 (packWide 0x42#7 w))
  | .vldg w => some (.w64 (packWide 0x43#7 w))
  | .vst w => some (.w64 (packWide 0x44#7 w))
  | .vstC w => some (.w64 (packWide 0x44#7 w))
  | .vstQ w => some (.w64 (packWide 0x44#7 w))
  | .vsts w => some (.w64 (packWide 0x45#7 w))
  | .vstx w => some (.w64 (packWide 0x46#7 w))
  | .vstxo w => some (.w64 (packWide 0x47#7 w))
  | .vstg w => some (.w64 (packWide 0x48#7 w))
  | .vpref w => some (.w64 (packWide 0x49#7 w))
  | .scommit w => some (.w64 (packWide 0x4A#7 w))
  | .cutstep w => some (.w64 (packWide 0x4B#7 w))
  | .mzero w => some (.w64 (packWide 0x50#7 w))
  | .mouter w => some (.w64 (packWide 0x51#7 w))
  | .mouteri w => some (.w64 (packWide 0x52#7 w))
  | .mouterc w => some (.w64 (packWide 0x53#7 w))
  | .mlacc w => some (.w64 (packWide 0x54#7 w))
  | .mdrain w => some (.w64 (packWide 0x55#7 w))
  | .mtov w => some (.w64 (packWide 0x56#7 w))
  | .mscale w => some (.w64 (packWide 0x57#7 w))
  | .bclr w => some (.w64 (packWide 0x58#7 w))
  | .btload w => some (.w64 (packWide 0x58#7 w))
  | .btdrain w => some (.w64 (packWide 0x58#7 w))
  | .bqr w => some (.w64 (packWide 0x59#7 w))
  | .bqra w => some (.w64 (packWide 0x59#7 w))
  | .bqrD w => some (.w64 (packWide 0x59#7 w))
  | .bapply w => some (.w64 (packWide 0x5A#7 w))
  | .bapplyC0 w => some (.w64 (packWide 0x5A#7 w))
  | .bvec w => some (.w64 (packWide 0x5B#7 w))
  | .bangleD w => some (.w64 (packWide 0x5B#7 w))
  | .bangleA w => some (.w64 (packWide 0x5B#7 w))
  | .brot w => some (.w64 (packWide 0x5C#7 w))
  | .vrotate w => some (.w64 (packWide 0x5C#7 w))
  | .bgain w => some (.w64 (packWide 0x5D#7 w))
  | .bsolve w => some (.w64 (packWide 0x5E#7 w))
  | .amoSwap w => some (.w64 (packWide 0x60#7 w))
  | .amoAdd w => some (.w64 (packWide 0x60#7 w))
  | .amoAnd w => some (.w64 (packWide 0x60#7 w))
  | .amoOr w => some (.w64 (packWide 0x60#7 w))
  | .amoXor w => some (.w64 (packWide 0x60#7 w))
  | .amoMin w => some (.w64 (packWide 0x60#7 w))
  | .amoMax w => some (.w64 (packWide 0x60#7 w))
  | .amocas w => some (.w64 (packWide 0x61#7 w))
  | .vamo w => some (.w64 (packWide 0x62#7 w))
  | .vamoo w => some (.w64 (packWide 0x62#7 w))
  | .accw w => some (.w64 (packWide 0x63#7 w))
  | .vacc w => some (.w64 (packWide 0x63#7 w))
  | .amerge w => some (.w64 (packWide 0x63#7 w))
  | .accrel w => some (.w64 (packWide 0x63#7 w))
  | .syncRd w => some (.w64 (packWide 0x64#7 w))
  | .syncWr w => some (.w64 (packWide 0x64#7 w))
  | .syncTas w => some (.w64 (packWide 0x64#7 w))
  | .syncFadd w => some (.w64 (packWide 0x64#7 w))
  | .hudInit w => some (.w64 (packWide 0x65#7 w))
  | .hudArr w => some (.w64 (packWide 0x65#7 w))
  | .hudDrop w => some (.w64 (packWide 0x65#7 w))
  | .hudWait w => some (.w64 (packWide 0x65#7 w))
  | .post w => some (.w64 (packWide 0x66#7 w))
  | .postSet w => some (.w64 (packWide 0x66#7 w))
  | .waiti w => some (.w64 (packWide 0x66#7 w))
  | .fence w => some (.w64 (packWide 0x67#7 w))
  | .awInit w => some (.w64 (packWide 0x68#7 w))
  | .awAdd w => some (.w64 (packWide 0x68#7 w))
  | .awWait w => some (.w64 (packWide 0x68#7 w))
  | .cp w => some (.w64 (packWide 0x69#7 w))
  | .cp2 w => some (.w64 (packWide 0x69#7 w))
  | .cpx w => some (.w64 (packWide 0x69#7 w))
  | .cpq w => some (.w64 (packWide 0x69#7 w))
  | .cpw w => some (.w64 (packWide 0x69#7 w))
  | .wdecl w => some (.w64 (packWide 0x70#7 w))
  | .wdeclRel w => some (.w64 (packWide 0x70#7 w))
  | .vldr w => some (.w64 (packWide 0x71#7 w))
  | .vstr w => some (.w64 (packWide 0x72#7 w))
  | .step w => some (.w64 (packWide 0x73#7 w))
  | .stepAt w => some (.w64 (packWide 0x73#7 w))
  | .stepq w => some (.w64 (packWide 0x73#7 w))
  | .fsbindRx w => some (.w64 (packWide 0x74#7 w))
  | .fsbindTx w => some (.w64 (packWide 0x74#7 w))
  | .fsbindU w => some (.w64 (packWide 0x74#7 w))
  | .vcred w => some (.w64 (packWide 0x75#7 w))
  | .setvl w => some (.w64 (packWide 0x78#7 w))
  | .setvt w => some (.w64 (packWide 0x78#7 w))
  | .setfmt w => some (.w64 (packWide 0x79#7 w))
  | .mshape w => some (.w64 (packWide 0x7A#7 w))
  | .tshape w => some (.w64 (packWide 0x7A#7 w))
  | .mmode w => some (.w64 (packWide 0x7B#7 w))
  | .convoyIssue _ _ => none
  | .convoyRetire _ => none
  | .historyEntryRetire _ => none
  | .storeQueueLeave _ => none
  | .mtcLaneEntry _ => none
  | .commitEntry _ => none
  | .stripEntryDrain _ _ => none
  | .storeAcknowledgement _ _ => none
  | .laneIssue _ _ => none
  | .tlbWalk _ _ _ _ => none
  | .l2Fill _ => none
  | .refreshDue _ _ _ _ => none
  | .owedRefresh _ _ _ => none
  | .sliceAluRequest _ => none
  | .vamoPerform _ _ => none
  | .amergePerform _ _ => none
  | .syncMirrorUpdate _ _ => none
  | .postRingArrival _ _ _ => none
  | .waitTReturn _ => none
  | .hudWaitReturn _ => none
  | .waitiReturn _ => none
  | .awWaitReturn _ => none
  | .cpwReturn _ => none
  | .copyChunkDelivery _ _ => none
  | .cpqDelivery _ _ => none
  | .copyAbandon _ _ => none
  | .copyPageMapped _ _ => none
  | .deadline _ => none
  | .trapDelivery _ _ _ => none
  | .suspendToEloaler _ _ _ => none
  | .eloalerResume _ => none
  | .fatalEnd _ => none
  | .preemption _ => none
  | .gangSwitch _ _ => none
  | .switchResume _ => none
  | .stepArrival _ => none
  | .whistleArrivalCounted _ _ => none
  | .startNotice _ _ => none
  | .whistleGo _ _ => none
  | .whistleApply _ => none
  | .whistleRelease _ => none
  | .finalWhistle _ => none
  | .skew _ => none
  | .deferredWrite _ => none
  | .writeAcknowledgement _ _ _ => none
  | .readRequest _ => none
  | .readData _ _ _ => none
  | .translationRequest _ => none
  | .translationResponse _ _ => none
  | .invalidation _ _ _ => none
  | .invalidationAcknowledgement _ _ => none
  | .reservationRequest _ _ _ => none
  | .reservationGrant _ _ => none
  | .streamChunkTransmit _ => none
  | .streamData _ _ _ => none
  | .abort _ _ => none
  | .torusPortDown _ => none
  | .timeLock _ => none
  | .timeLockLoss => none
  | .powerGood => none
  | .torusTraining _ _ => none
  | .epochWrite _ => none
  | .rollbackFuseCommand => none
  | .attestationRequest _ _ _ => none
  | .keyWithdrawal _ => none
  | .powerCap _ => none
  | .junction105 => none
  | .junction110 => none
  | .rdmaConnect _ _ _ => none
  | .rdmaWrite _ _ _ _ _ => none
  | .rdmaRead _ _ _ _ _ => none
  | .doorbellWrite _ => none
  | .entryTake => none
  | .launch => none
  | .create => none
  | .load _ => none
  | .unload => none
  | .unloadComplete _ _ => none
  | .kill => none
  | .launchAgeLimit _ => none
  | .queuedLaunchDeadline _ => none
  | .gangBind _ _ => none
  | .bindRecordValid _ _ => none
  | .threadStart _ _ => none
  | .launchComplete _ => none
  | .debugAttach _ => none
  | .debugDetach _ => none
  | .debugStop _ _ => none
  | .debugReadImage _ _ _ => none
  | .debugWriteImage _ _ => none
  | .debugPatch _ _ _ => none
  | .debugResume _ _ => none
  | .debugResumeOne _ => none
  | .traceRecordAppend => none
  | .traceUnitSeal _ => none
  | .patrolScrub _ _ _ => none
  | .sharedStoreScrub _ _ _ => none
  | .registerFileScrub _ _ _ _ => none
  | .ucieRecalibration _ => none
  | .torusRecalibration _ => none
  | .ageingGuardBand _ => none
  | .telemetry => none
  | .powerDown => none
  | .loadResponse _ _ => none

/-- The bytes of an encoding as memory holds them (02 R28). -/
def Encoding.bytes : Encoding → List Byte
  | .w32 w => leBytes 4 w.toNat
  | .w64 w => leBytes 8 w.toNat

/-- How many bytes an instruction's word has; an event has none (02 R28). -/
def Instr.size (i : Instr) : Nat :=
  match encode i with
  | some (.w32 _) => 4
  | some (.w64 _) => 8
  | none => 0

/-- The instruction the decoder reads at level 3 from a word numbered as spec/opcode_table.json numbers it, the bits above
`nbits` zero up to the longest instruction. -/
noncomputable def decodeTableWord (nbits w : Nat) : Option Instr :=
  match decode 3 (leBytes 8 (w % 2 ^ nbits)) with
  | .instr i _ => some i
  | .reject _ => none

end Sys2Proof
end

