-- ==== Sys2Proof/Machine/Crypto.lean ====
section
/-! DEFINITION. The functions of the published standards that 00 R3 names: SHA-512, pure Ed25519, X25519 and AES-256-GCM, on bytes. The spec
gives their names and options, the standards their algorithms (PRESUMED, log 16). -/

namespace Sys2Proof.Machine

/-! ### SHA-512 (FIPS 180-4) -/

/-- The eight words a hash starts from. -/
def shaStart : List Nat :=
    [0x6A09E667F3BCC908, 0xBB67AE8584CAA73B, 0x3C6EF372FE94F82B, 0xA54FF53A5F1D36F1] ++
    [0x510E527FADE682D1, 0x9B05688C2B3E6C1F, 0x1F83D9ABFB41BD6B, 0x5BE0CD19137E2179]

/-- The constants of the 80 rounds. -/
def shaRounds : List Nat :=
    [0x428A2F98D728AE22, 0x7137449123EF65CD, 0xB5C0FBCFEC4D3B2F, 0xE9B5DBA58189DBBC, 0x3956C25BF348B538] ++
    [0x59F111F1B605D019, 0x923F82A4AF194F9B, 0xAB1C5ED5DA6D8118, 0xD807AA98A3030242, 0x12835B0145706FBE] ++
    [0x243185BE4EE4B28C, 0x550C7DC3D5FFB4E2, 0x72BE5D74F27B896F, 0x80DEB1FE3B1696B1, 0x9BDC06A725C71235] ++
    [0xC19BF174CF692694, 0xE49B69C19EF14AD2, 0xEFBE4786384F25E3, 0xFC19DC68B8CD5B5, 0x240CA1CC77AC9C65] ++
    [0x2DE92C6F592B0275, 0x4A7484AA6EA6E483, 0x5CB0A9DCBD41FBD4, 0x76F988DA831153B5, 0x983E5152EE66DFAB] ++
    [0xA831C66D2DB43210, 0xB00327C898FB213F, 0xBF597FC7BEEF0EE4, 0xC6E00BF33DA88FC2, 0xD5A79147930AA725] ++
    [0x6CA6351E003826F, 0x142929670A0E6E70, 0x27B70A8546D22FFC, 0x2E1B21385C26C926, 0x4D2C6DFC5AC42AED] ++
    [0x53380D139D95B3DF, 0x650A73548BAF63DE, 0x766A0ABB3C77B2A8, 0x81C2C92E47EDAEE6, 0x92722C851482353B] ++
    [0xA2BFE8A14CF10364, 0xA81A664BBC423001, 0xC24B8B70D0F89791, 0xC76C51A30654BE30, 0xD192E819D6EF5218] ++
    [0xD69906245565A910, 0xF40E35855771202A, 0x106AA07032BBD1B8, 0x19A4C116B8D2D0C8, 0x1E376C085141AB53] ++
    [0x2748774CDF8EEB99, 0x34B0BCB5E19B48A8, 0x391C0CB3C5C95A63, 0x4ED8AA4AE3418ACB, 0x5B9CCA4F7763E373] ++
    [0x682E6FF3D6B2B8A3, 0x748F82EE5DEFB2FC, 0x78A5636F43172F60, 0x84C87814A1F0AB72, 0x8CC702081A6439EC] ++
    [0x90BEFFFA23631E28, 0xA4506CEBDE82BDE9, 0xBEF9A3F7B2C67915, 0xC67178F2E372532B, 0xCA273ECEEA26619C] ++
    [0xD186B8C721C0C207, 0xEADA7DD6CDE0EB1E, 0xF57D4F7FEE6ED178, 0x6F067AA72176FBA, 0xA637DC5A2C898A6] ++
    [0x113F9804BEF90DAE, 0x1B710B35131C471B, 0x28DB77F523047D84, 0x32CAAB7B40C72493, 0x3C9EBE0A15C9BEBC] ++
    [0x431D67C49C100D4C, 0x4CC5D4BECB3E42B6, 0x597F299CFC657E2A, 0x5FCB6FAB3AD6FAEC, 0x6C44198C4A475817]

/-- A 64-bit word rotated to the right. -/
def rotr64 (x n : Nat) : Nat := x >>> n ||| x <<< (64 - n) % 2 ^ 64

/-- The big-endian words of a block: eight bytes to a word. -/
def beWords : Nat → List Byte → List Nat
  | 0, _ => []
  | n + 1, bs => (bs.take 8).foldl (fun a b => 256 * a + b.toNat) 0 :: beWords n (bs.drop 8)

/-- The message schedule, newest word first, from the 16 words of a block in that order. -/
def shaSchedule : Nat → List Nat → List Nat
  | 0, w => w
  | n + 1, w =>
    let a := w.getD 14 0
    let b := w.getD 1 0
    let s0 := rotr64 a 1 ^^^ rotr64 a 8 ^^^ a >>> 7
    let s1 := rotr64 b 19 ^^^ rotr64 b 61 ^^^ b >>> 6
    shaSchedule n (((w.getD 15 0 + s0 + w.getD 6 0 + s1) % 2 ^ 64) :: w)

/-- One round on the eight working words. -/
def shaRound (v : List Nat) (kw : Nat × Nat) : List Nat :=
  match v with
  | [a, b, c, d, e, f, g, h] =>
    let t1 := h + (rotr64 e 14 ^^^ rotr64 e 18 ^^^ rotr64 e 41) + (e &&& f ^^^ (2 ^ 64 - 1 - e) &&& g) + kw.1 + kw.2
    let t2 := (rotr64 a 28 ^^^ rotr64 a 34 ^^^ rotr64 a 39) + (a &&& b ^^^ a &&& c ^^^ b &&& c)
    [(t1 + t2) % 2 ^ 64, a, b, c, (d + t1) % 2 ^ 64, e, f, g]
  | _ => v

/-- The hash of a whole number of blocks, going on from eight words. -/
def shaBlocks : Nat → List Byte → List Nat → List Nat
  | 0, _, h => h
  | n + 1, bs, h =>
    let w := (shaSchedule 64 (beWords 16 (bs.take 128)).reverse).reverse
    shaBlocks n (bs.drop 128) (((shaRounds.zip w).foldl shaRound h).zipWith (fun a b => (a + b) % 2 ^ 64) h)

/-- The digest of a message as 64 bytes (00 R3: full 512-bit digests). -/
def sha512Bytes (m : List Byte) : List Byte :=
  let pad := 128 - (m.length + 17) % 128
  let bs := m ++ [128] ++ List.replicate (pad % 128) 0 ++ (leBytes 16 (8 * m.length)).reverse
  (shaBlocks (bs.length / 128) bs shaStart).flatMap fun x => (leBytes 8 x).reverse

/-- The digest with its first byte lowest (14 R411, R412). -/
@[irreducible] def sha512 (m : List Byte) : BitVec 512 := BitVec.ofNat 512 (leNat (sha512Bytes m))

/-! ### The field of 2^255 − 19 -/

/-- The prime of the two curves. -/
def p25519 : Nat := 2 ^ 255 - 19

/-- x to the power e modulo m, for an e below 2^n. -/
def powMod (m x : Nat) : Nat → Nat → Nat
  | 0, _ => 1
  | n + 1, e =>
    let r := powMod m x n (e / 2)
    if e % 2 = 1 then r * r % m * x % m else r * r % m

/-- The inverse of a field element, 0 for 0. -/
def inv25519 (x : Nat) : Nat := powMod p25519 x 255 (p25519 - 2)

/-- The difference of field elements. -/
def sub25519 (a b : Nat) : Nat := (a + (p25519 - b % p25519)) % p25519

/-! ### X25519 (RFC 7748) -/

/-- The state of the ladder: x2, z2, x3, z3. -/
structure Ladder where
  x2 : Nat
  z2 : Nat
  x3 : Nat
  z3 : Nat

/-- One rung of the ladder, for a bit of the scalar. -/
def Ladder.rung (u : Nat) (bit : Bool) (l : Ladder) : Ladder :=
  let q := p25519
  let s := if bit then (l.x3, l.z3, l.x2, l.z2) else (l.x2, l.z2, l.x3, l.z3)
  let a := (s.1 + s.2.1) % q
  let b := sub25519 s.1 s.2.1
  let da := sub25519 s.2.2.1 s.2.2.2 * a % q
  let cb := (s.2.2.1 + s.2.2.2) % q * b % q
  let aa := a * a % q
  let bb := b * b % q
  let e := sub25519 aa bb
  let x2 := aa * bb % q
  let z2 := e * (aa + 121665 * e) % q
  let x3 := (da + cb) * (da + cb) % q
  let d := sub25519 da cb
  let z3 := u * (d * d % q) % q
  if bit then { x2 := x3, z2 := z3, x3 := x2, z3 := z2 } else { x2 := x2, z2 := z2, x3 := x3, z3 := z3 }

/-- The ladder over the bits n − 1 to 0 of a scalar. -/
def Ladder.climb (u k : Nat) : Nat → Ladder → Ladder
  | 0, l => l
  | n + 1, l => Ladder.climb u k n (l.rung u (k.testBit n))

/-- X25519 of a 32-byte secret and a 32-byte public value (00 R3; 14 R412). -/
@[irreducible] def x25519 (secret u : List Byte) : List Byte :=
  let k := leNat (secret.take 32) % 2 ^ 254 / 8 * 8 + 2 ^ 254
  let x := leNat (u.take 32) % 2 ^ 255 % p25519
  let l := Ladder.climb x k 255 { x2 := 1, z2 := 0, x3 := x, z3 := 1 }
  leBytes 32 (l.x2 * inv25519 l.z2 % p25519)

/-- The public value of a secret. -/
def x25519Base (secret : List Byte) : List Byte := x25519 secret (leBytes 32 9)

/-! ### Pure Ed25519 (RFC 8032) -/

/-- The order of the base point. -/
def edOrder : Nat := 2 ^ 252 + 27742317777372353535851937790883648493

/-- The constant d of the curve. -/
def edD : Nat := 37095705934669439343138083508754565189542113879843219016388785533085940283555

/-- A point in extended coordinates. -/
structure EdPoint where
  x : Nat
  y : Nat
  z : Nat
  t : Nat

/-- The neutral point. -/
def EdPoint.zero : EdPoint := { x := 0, y := 1, z := 1, t := 0 }

/-- The sum of two points. -/
def EdPoint.add (a b : EdPoint) : EdPoint :=
  let q := p25519
  let m := sub25519 a.y a.x * sub25519 b.y b.x % q
  let n := (a.y + a.x) * (b.y + b.x) % q
  let c := 2 * a.t * edD % q * b.t % q
  let d := 2 * a.z * b.z % q
  let e := sub25519 n m
  let f := sub25519 d c
  let g := (d + c) % q
  let h := (n + m) % q
  { x := e * f % q, y := g * h % q, z := f * g % q, t := e * h % q }

/-- A point k times, for a k below 2^n. -/
def EdPoint.times (a : EdPoint) : Nat → Nat → EdPoint
  | 0, _ => EdPoint.zero
  | n + 1, k =>
    let r := a.times n (k / 2)
    let d := r.add r
    if k % 2 = 1 then d.add a else d

/-- Whether two points are one. -/
def EdPoint.same (a b : EdPoint) : Bool :=
  a.x * b.z % p25519 = b.x * a.z % p25519 && a.y * b.z % p25519 = b.y * a.z % p25519

/-- The 32 bytes of a point. -/
def EdPoint.encode (a : EdPoint) : List Byte :=
  let i := inv25519 a.z
  leBytes 32 (a.y * i % p25519 + a.x * i % p25519 % 2 * 2 ^ 255)

/-- The point of a y coordinate and the low bit of its x, where there is one. -/
def edPoint (y sign : Nat) : Option EdPoint :=
  let q := p25519
  let u := sub25519 (y * y) 1
  let v := (edD * (y * y % q) + 1) % q
  let x0 := u * powMod q v 2 3 % q * powMod q (u * powMod q v 3 7 % q) 253 ((q - 5) / 8) % q
  let vx := v * (x0 * x0 % q) % q
  let root := if vx = u then some x0 else if vx = sub25519 0 u then some (x0 * powMod q 2 253 ((q - 1) / 4) % q) else none
  match root with
  | none => none
  | some x => if q ≤ y ∨ (x = 0 ∧ sign = 1) then none
    else
      let x1 := if x % 2 = sign then x else q - x
      some { x := x1, y := y, z := 1, t := x1 * y % q }

/-- The point that 32 bytes stand for. -/
def edDecode (bs : List Byte) : Option EdPoint := edPoint (leNat bs % 2 ^ 255) (leNat bs / 2 ^ 255)

/-- The base point. -/
def edBase : EdPoint := (edPoint (4 * inv25519 5 % p25519) 0).getD EdPoint.zero

/-- Whether a signature of a message verifies under a public key (00 R3: pure Ed25519 only). -/
@[irreducible] def ed25519Verify (key m sig : List Byte) : Bool :=
  let s := leNat ((sig.drop 32).take 32)
  match edDecode (key.take 32), edDecode (sig.take 32) with
  | some a, some r =>
    let k := leNat (sha512Bytes (sig.take 32 ++ key.take 32 ++ m)) % edOrder
    sig.length = 64 && key.length = 32 && s < edOrder
      && ((edBase.times 253 s).times 4 8).same ((r.add (a.times 253 k)).times 4 8)
  | _, _ => false

/-- The signature of a message under a 32-byte secret (14 R412). -/
@[irreducible] def ed25519Sign (secret m : List Byte) : List Byte :=
  let h := sha512Bytes secret
  let a := leNat (h.take 32) % 2 ^ 254 / 8 * 8 + 2 ^ 254
  let pub := (edBase.times 255 a).encode
  let r := leNat (sha512Bytes (h.drop 32 ++ m)) % edOrder
  let rs := (edBase.times 253 r).encode
  rs ++ leBytes 32 ((r + leNat (sha512Bytes (rs ++ pub ++ m)) % edOrder * a) % edOrder)

/-! ### AES-256-GCM (FIPS 197, NIST SP 800-38D) -/

/-- The substitution of a byte. -/
def aesBox : List Nat :=
    [99, 124, 119, 123, 242, 107, 111, 197, 48, 1, 103, 43, 254, 215, 171, 118] ++
    [202, 130, 201, 125, 250, 89, 71, 240, 173, 212, 162, 175, 156, 164, 114, 192] ++
    [183, 253, 147, 38, 54, 63, 247, 204, 52, 165, 229, 241, 113, 216, 49, 21] ++
    [4, 199, 35, 195, 24, 150, 5, 154, 7, 18, 128, 226, 235, 39, 178, 117] ++
    [9, 131, 44, 26, 27, 110, 90, 160, 82, 59, 214, 179, 41, 227, 47, 132] ++
    [83, 209, 0, 237, 32, 252, 177, 91, 106, 203, 190, 57, 74, 76, 88, 207] ++
    [208, 239, 170, 251, 67, 77, 51, 133, 69, 249, 2, 127, 80, 60, 159, 168] ++
    [81, 163, 64, 143, 146, 157, 56, 245, 188, 182, 218, 33, 16, 255, 243, 210] ++
    [205, 12, 19, 236, 95, 151, 68, 23, 196, 167, 126, 61, 100, 93, 25, 115] ++
    [96, 129, 79, 220, 34, 42, 144, 136, 70, 238, 184, 20, 222, 94, 11, 219] ++
    [224, 50, 58, 10, 73, 6, 36, 92, 194, 211, 172, 98, 145, 149, 228, 121] ++
    [231, 200, 55, 109, 141, 213, 78, 169, 108, 86, 244, 234, 101, 122, 174, 8] ++
    [186, 120, 37, 46, 28, 166, 180, 198, 232, 221, 116, 31, 75, 189, 139, 138] ++
    [112, 62, 181, 102, 72, 3, 246, 14, 97, 53, 87, 185, 134, 193, 29, 158] ++
    [225, 248, 152, 17, 105, 217, 142, 148, 155, 30, 135, 233, 206, 85, 40, 223] ++
    [140, 161, 137, 13, 191, 230, 66, 104, 65, 153, 45, 15, 176, 84, 187, 22]

/-- A byte times x in the field of AES. -/
def aesDouble (b : Nat) : Nat := if b < 128 then 2 * b else 2 * b % 256 ^^^ 27

/-- The four bytes of a column, mixed. -/
def aesMix (c : List Nat) : List Nat :=
  let d := fun (k : Nat) => c.getD (k % 4) 0
  (List.range 4).map fun k => aesDouble (d k) ^^^ aesDouble (d (k + 1)) ^^^ d (k + 1) ^^^ d (k + 2) ^^^ d (k + 3)

/-- The words of a key, newest first, n more of them, from round constant rc on. -/
def aesKeys : Nat → Nat → List (List Nat) → List (List Nat)
  | 0, _, w => w
  | n + 1, rc, w =>
    let sub := fun (x : List Nat) => x.map fun b => aesBox.getD b 0
    let last := w.headD []
    let i := w.length % 8
    let t := if i = 0 then (sub (last.drop 1 ++ last.take 1)).zipWith (· ^^^ ·) [rc, 0, 0, 0] else if i = 4 then sub last else last
    aesKeys n (if i = 0 then aesDouble rc else rc) ((w.getD 7 []).zipWith (· ^^^ ·) t :: w)

/-- The 60 words of an expanded 256-bit key. -/
def aesExpand (key : List Byte) : List (List Nat) :=
  (aesKeys 52 1 ((List.range 8).map fun k => ((key.drop (4 * k)).take 4).map (·.toNat)).reverse).reverse

/-- A round on the 16 bytes of a block; the last round does not mix. -/
def aesRound (w : List (List Nat)) (r : Nat) (b : List Nat) : List Nat :=
  let moved := (List.range 16).map fun k => aesBox.getD (b.getD ((k + 4 * (k % 4)) % 16) 0) 0
  let mixed := if r = 14 then moved else (List.range 4).flatMap fun c => aesMix ((moved.drop (4 * c)).take 4)
  mixed.zipWith (· ^^^ ·) ((w.drop (4 * r)).take 4).flatten

/-- The 16 bytes of a block under an expanded key. -/
def aesBlock (w : List (List Nat)) (b : List Nat) : List Nat :=
  (List.range 14).foldl (fun a r => aesRound w (r + 1) a) (b.zipWith (· ^^^ ·) (w.take 4).flatten)

/-- The bytes of a block as a number, the first the highest. -/
def beNat (bs : List Nat) : Nat := bs.foldl (fun a b => 256 * a + b) 0

/-- The n bytes of a number, the highest first. -/
def beBytes (n x : Nat) : List Nat := ((leBytes n x).map (·.toNat)).reverse

/-- The product in the field of GCM, over the n highest bits left of x. -/
def gcmMul : Nat → Nat → Nat → Nat
  | 0, _, _ => 0
  | n + 1, x, v => (if x.testBit n then v else 0) ^^^ gcmMul n x (if v % 2 = 1 then v / 2 ^^^ 0xE1 * 2 ^ 120 else v / 2)

/-- Bytes cut into n blocks of 16, the last filled with zeros. -/
def gcmBlocks : Nat → List Nat → List (List Nat)
  | 0, _ => []
  | n + 1, bs => (bs.take 16 ++ List.replicate (16 - (bs.take 16).length) 0) :: gcmBlocks n (bs.drop 16)

/-- GHASH of associated data and ciphertext under a hash key. -/
def gcmHash (h : Nat) (aad ct : List Nat) : Nat :=
  let blocks := gcmBlocks ((aad.length + 15) / 16) aad ++ gcmBlocks ((ct.length + 15) / 16) ct
    ++ [beBytes 8 (8 * aad.length) ++ beBytes 8 (8 * ct.length)]
  blocks.foldl (fun y b => gcmMul 128 (y ^^^ beNat b) h) 0

/-- AES-256-GCM with a 96-bit nonce and a 128-bit tag: ciphertext and tag (00 R3; 12 R379). -/
@[irreducible] def gcmSeal (key nonce aad plain : List Byte) : List Byte × List Byte :=
  let w := aesExpand key
  let nat := fun (bs : List Byte) => bs.map (·.toNat)
  let stream := fun (k : Nat) => aesBlock w (nat nonce ++ beBytes 4 k)
  let ct := (((gcmBlocks ((plain.length + 15) / 16) (nat plain)).zipIdx 2).flatMap fun x => x.1.zipWith (· ^^^ ·) (stream x.2)).take plain.length
  let tag := gcmHash (beNat (aesBlock w (List.replicate 16 0))) (nat aad) ct ^^^ beNat (stream 1)
  (ct.map (BitVec.ofNat 8), (beBytes 16 tag).map (BitVec.ofNat 8))

/-! ### AES-256-XTS (IEEE 1619) -/

/-- The 16 bytes before a round. -/
def aesUnround (w : List (List Nat)) (r : Nat) (b : List Nat) : List Nat :=
  let added := b.zipWith (· ^^^ ·) ((w.drop (4 * r)).take 4).flatten
  let cols := (List.range 4).flatMap fun c => aesMix (aesMix (aesMix ((added.drop (4 * c)).take 4)))
  let moved := if r = 14 then added else cols
  (List.range 16).map fun k => aesBox.findIdx (· = moved.getD ((k + 12 * (k % 4)) % 16) 0)

/-- The 16 bytes that an expanded key takes to a block. -/
def aesUnblock (w : List (List Nat)) (b : List Nat) : List Nat :=
  ((List.range 14).foldl (fun a r => aesUnround w (14 - r) a) b).zipWith (· ^^^ ·) (w.take 4).flatten

/-- A tweak times x in the field of XTS. -/
def xtsDouble (t : Nat) : Nat := if t < 2 ^ 127 then 2 * t else 2 * t % 2 ^ 128 ^^^ 0x87

/-- n blocks of a data unit from the tweak of the first: encrypted, or decrypted. -/
def xtsBlocks (enc : Bool) (w : List (List Nat)) : Nat → Nat → List Nat → List Nat
  | 0, _, _ => []
  | n + 1, t, bs =>
    let mask := (leBytes 16 t).map (·.toNat)
    let x := (bs.take 16).zipWith (· ^^^ ·) mask
    (if enc then aesBlock w x else aesUnblock w x).zipWith (· ^^^ ·) mask ++ xtsBlocks enc w n (xtsDouble t) (bs.drop 16)

/-- AES-256-XTS of the data unit at a physical address under a key pair, whose first key is the low half: encrypted, or decrypted
(00 R3; 14 R413). -/
@[irreducible] def xtsUnit (enc : Bool) (pair : BitVec 512) (at_ : Nat) (bs : List Byte) : List Byte :=
  let key := fun (x : Nat) => aesExpand (leBytes 32 (x % 2 ^ 256))
  let t := leNat ((aesBlock (key (pair.toNat / 2 ^ 256)) ((leBytes 16 at_).map (·.toNat))).map (BitVec.ofNat 8))
  (xtsBlocks enc (key pair.toNat) (bs.length / 16) t (bs.map (·.toNat))).map (BitVec.ofNat 8)

end Sys2Proof.Machine
end

