-- ==== Sys2Proof/Machine/Fp.lean ====
section
/-! DEFINITION. Floating-point formats, Round with its specials and flags, and the arithmetic of every FP word
(spec/06_conversion_and_divide_instructions.md R136 to R148, R163; 03 R75 to R79). -/

namespace Sys2Proof.Machine

/-- The flags of vxflags [5:0]: NV, DZ, OF, UF, NX, SAT (06 Table 6.9). -/
abbrev Flags := BitVec 6
/-- Invalid operation (06 Table 6.9). -/
def fNV : Flags := 1
/-- Division of a finite non-zero value by zero (06 Table 6.9). -/
def fDZ : Flags := 2
/-- Overflow (06 Table 6.9). -/
def fOF : Flags := 4
/-- Underflow (06 Table 6.9). -/
def fUF : Flags := 8
/-- Inexact (06 Table 6.9). -/
def fNX : Flags := 16
/-- An integer result was clamped (06 Table 6.9). -/
def fSAT : Flags := 32

/-- A floating-point format (06 R137): sign bit, exponent and mantissa bits, bias, and policy 0 IEEE-like, 1 single-NaN
saturating, 2 all-finite. -/
structure Fmt where
  sgn : Bool
  e : Nat
  m : Nat
  bias : Int
  pol : Nat
  deriving DecidableEq, Repr

/-- FP64 (06 Table 6.2). -/
def fp64 : Fmt := { sgn := true, e := 11, m := 52, bias := 1023, pol := 0 }
/-- FP32 (06 Table 6.2). -/
def fp32 : Fmt := { sgn := true, e := 8, m := 23, bias := 127, pol := 0 }
/-- FP16 (06 Table 6.2). -/
def fp16 : Fmt := { sgn := true, e := 5, m := 10, bias := 15, pol := 0 }
/-- BF16 (06 Table 6.2). -/
def bf16 : Fmt := { sgn := true, e := 8, m := 7, bias := 127, pol := 0 }
/-- E4M3 (06 Table 6.2). -/
def e4m3 : Fmt := { sgn := true, e := 4, m := 3, bias := 7, pol := 1 }
/-- E5M2 (06 Table 6.2). -/
def e5m2 : Fmt := { sgn := true, e := 5, m := 2, bias := 15, pol := 0 }

/-- Bits of a code of the format. -/
def Fmt.width (f : Fmt) : Nat := (if f.sgn then 1 else 0) + f.e + f.m

/-- An n-bit field of a format register. -/
def fmtField (x : Word) (lo n : Nat) : Nat := x.toNat / 2 ^ lo % 2 ^ n

/-- The format of a format register's value (06 Table 6.4). -/
def Fmt.ofReg (x : Word) : Fmt :=
  { sgn := fmtField x 4 1 = 1, e := fmtField x 5 3, m := fmtField x 8 3,
    bias := (fmtField x 16 8 : Int) - (if fmtField x 23 1 = 1 then 256 else 0), pol := fmtField x 11 2 }

/-- A format register's value holds a valid format (06 R140). -/
def fmtValid (x : Word) : Bool :=
  let f := Fmt.ofReg x
  fmtField x 15 1 = 1 && fmtField x 24 40 = 0 && fmtField x 13 2 = 0
    && fmtField x 0 4 = f.width && 2 ≤ f.width && f.width ≤ 8 && 1 ≤ f.e && f.pol < 3
    && (f.pol != 0 || (2 ≤ f.e && 1 ≤ f.m)) && (f.pol != 1 || 2 ≤ f.e + f.m)

/-- A value setfmt accepts: a valid format, or zero, which empties the register (06 R140). -/
def fmtAccept (x : Word) : Bool := x = 0 || fmtValid x

/-- A number as a format gives it: a NaN with its signalling bit, an infinity, or (−1)^neg × mag × 2^exp (06 R137). -/
inductive FVal where
  | nan (signalling : Bool)
  | inf (neg : Bool)
  | fin (neg : Bool) (mag : Nat) (exp : Int)
  deriving DecidableEq, Repr

/-- Whether a value is a NaN. -/
def FVal.isNan : FVal → Bool | .nan _ => true | _ => false
/-- Whether a value is a signalling NaN. -/
def FVal.isSig : FVal → Bool | .nan true => true | _ => false
/-- Whether a value is ±∞. -/
def FVal.isInf : FVal → Bool | .inf _ => true | _ => false
/-- Whether a value is ±0. -/
def FVal.isZero : FVal → Bool | .fin _ 0 _ => true | _ => false
/-- The sign of a value. -/
def FVal.sign : FVal → Bool | .nan _ => false | .inf s => s | .fin s _ _ => s
/-- The value with its sign inverted. -/
def FVal.negate : FVal → FVal | .nan q => .nan q | .inf s => .inf (!s) | .fin s m e => .fin (!s) m e

/-- The value of a code (06 R137, R138). -/
def Fmt.decode (f : Fmt) (x : Nat) : FVal :=
  let neg := f.sgn && x.testBit (f.e + f.m)
  let e := x / 2 ^ f.m % 2 ^ f.e
  let m := x % 2 ^ f.m
  if f.pol = 0 ∧ e = 2 ^ f.e - 1 then
    if m = 0 then .inf neg else .nan (!m.testBit (f.m - 1))
  else if f.pol = 1 ∧ e = 2 ^ f.e - 1 ∧ m = 2 ^ f.m - 1 then .nan false
  else if e = 0 then .fin neg m (1 - f.bias - f.m)
  else .fin neg (m + 2 ^ f.m) (e - f.bias - f.m)

/-- The largest finite magnitude as a code; codes rise with their magnitudes (06 R137, R138). -/
def Fmt.maxCode (f : Fmt) : Nat :=
  if f.pol = 0 then (2 ^ f.e - 1) * 2 ^ f.m - 1
  else if f.pol = 1 then 2 ^ (f.e + f.m) - 2 else 2 ^ (f.e + f.m) - 1

/-- A magnitude code with a sign. -/
def Fmt.signed (f : Fmt) (neg : Bool) (c : Nat) : Nat := if neg && f.sgn then c + 2 ^ (f.e + f.m) else c

/-- The canonical NaN; an all-finite format has none and gives +0 (06 R138). -/
def Fmt.nan (f : Fmt) : Nat :=
  if f.pol = 0 then (2 ^ f.e - 1) * 2 ^ f.m + 2 ^ (f.m - 1)
  else if f.pol = 1 then 2 ^ (f.e + f.m) - 1 else 0

/-- A NaN result with the flag an all-finite format raises for it (06 R138). -/
def Fmt.nanOut (f : Fmt) (fl : Flags) : Nat × Flags := (f.nan, if f.pol = 2 then fl ||| fNV else fl)

/-- ±∞ as Table 6.7 gives it in the format (06 R147). -/
def Fmt.infOut (f : Fmt) (neg : Bool) : Nat × Flags :=
  if neg && !f.sgn then (0, fNV)
  else if f.pol = 0 then (f.signed neg ((2 ^ f.e - 1) * 2 ^ f.m), 0)
  else (f.signed neg f.maxCode, fOF ||| fNX)

/-- Overflow in a mode: OF and NX, and the value of Table 6.6 (06 R146). -/
def Fmt.overflow (f : Fmt) (neg : Bool) (mode : Nat) : Nat × Flags :=
  let toInf := mode = 0 || mode = 4 || (mode = 2 && neg) || (mode = 3 && !neg)
  (f.signed neg (if f.pol = 0 && toInf then (2 ^ f.e - 1) * 2 ^ f.m else f.maxCode), fOF ||| fNX)

/-- Whether the magnitude lo + (rem + st) / 2^sh rounds up in a mode: 0 RNE, 1 RTZ, 2 RDN, 3 RUP, 4 RNA (06 Table 6.5). -/
def roundsUp (mode : Nat) (neg : Bool) (lo rem half : Nat) (st : Bool) : Bool :=
  if rem = 0 && !st then false
  else
    match mode with
    | 0 => half < rem || (rem = half && (st || lo % 2 = 1))
    | 1 => false
    | 2 => neg
    | 3 => !neg
    | _ => half ≤ rem

/-- RoundToGrid (06 R145): the multiple of 2^q chosen for mag × 2^exp, in units of 2^q, and whether it is inexact; `st`
says that the exact magnitude lies strictly between mag and mag + 1 units of 2^exp. -/
def roundGrid (mode : Nat) (neg : Bool) (mag : Nat) (exp : Int) (st : Bool) (q : Int) : Nat × Bool :=
  if q ≤ exp then (mag <<< (exp - q).toNat, st)
  else
    let sh := (q - exp).toNat
    let lo := mag >>> sh
    let rem := mag % 2 ^ sh
    (if roundsUp mode neg lo rem (2 ^ (sh - 1)) st then lo + 1 else lo, rem ≠ 0 || st)

/-- Round of a finite exact value (06 R145, R146). -/
def Fmt.roundFin (f : Fmt) (mode : Nat) (neg : Bool) (mag : Nat) (exp : Int) (st : Bool) : Nat × Flags :=
  if mag = 0 && !st then (f.signed neg 0, 0)
  else if neg && !f.sgn then (0, fNV)
  else
    let top : Int := Nat.log2 mag + exp
    let emin : Int := 1 - f.bias
    let q := max top emin - f.m
    let y := roundGrid mode neg mag exp st q
    let code := ((q + f.m + f.bias) * (2 ^ f.m : Nat) + y.1 - (2 ^ f.m : Nat)).toNat
    if f.maxCode < code then f.overflow neg mode
    else
      let u := roundGrid mode neg mag exp st (top - f.m)
      let tiny := top < emin && !(u.1 = 2 ^ (f.m + 1) && top + 1 = emin)
      (f.signed neg code, if y.2 then (if tiny then fNX ||| fUF else fNX) else 0)

/-- Round of a value that a conversion passes, with the specials of Table 6.7 (06 R145, R147). -/
def Fmt.round (f : Fmt) (mode : Nat) : FVal → Nat × Flags
  | .nan s => f.nanOut (if s then fNV else 0)
  | .inf s => f.infOut s
  | .fin s m e => f.roundFin mode s m e false

/-- The invalid result: NV and the canonical NaN. -/
def Fmt.invalid (f : Fmt) : Nat × Flags := f.nanOut fNV

/-- The result for NaN operands: NV when one signals (03 R75, 06 R147). -/
def Fmt.nanOf (f : Fmt) (sig : Bool) : Nat × Flags := f.nanOut (if sig then fNV else 0)

/-- A signed integer of a finite value in units of 2^q. -/
def finInt (neg : Bool) (mag : Nat) (exp q : Int) : Int :=
  let n : Int := (mag <<< (exp - q).toNat : Nat)
  if neg then -n else n

/-- The exact sum of two finite values: sign, magnitude, exponent; an exact zero takes the sign IEEE 754 gives. -/
def sumFin (mode : Nat) (n1 : Bool) (m1 : Nat) (e1 : Int) (n2 : Bool) (m2 : Nat) (e2 : Int) : Bool × Nat × Int :=
  let q := min e1 e2
  let t := finInt n1 m1 e1 q + finInt n2 m2 e2 q
  if t = 0 then (if n1 = n2 then n1 else mode = 2, 0, q) else (decide (t < 0), t.natAbs, q)

/-- The sum of two values that are no NaN, rounded once (03 R76, R77; 05 R129). -/
def Fmt.sum (f : Fmt) (mode : Nat) (a b : FVal) : Nat × Flags :=
  match a, b with
  | .inf s, .inf t => if s = t then f.infOut s else f.invalid
  | .inf s, _ => f.infOut s
  | _, .inf t => f.infOut t
  | .fin n1 m1 e1, .fin n2 m2 e2 =>
    let r := sumFin mode n1 m1 e1 n2 m2 e2
    f.roundFin mode r.1 r.2.1 r.2.2 false
  | _, _ => f.invalid

/-- Round(a + b) on values (03 R76; 05 R129). -/
def Fmt.addV (f : Fmt) (mode : Nat) (a b : FVal) : Nat × Flags :=
  if a.isNan || b.isNan then f.nanOf (a.isSig || b.isSig) else f.sum mode a b

/-- The exact product of two values that are no NaN, none for ∞ × 0. -/
def prodV : FVal → FVal → Option FVal
  | .inf s, .inf t => some (.inf (s != t))
  | .inf s, .fin t m _ => if m = 0 then none else some (.inf (s != t))
  | .fin s m _, .inf t => if m = 0 then none else some (.inf (s != t))
  | .fin s m e, .fin t n g => some (.fin (s != t) (m * n) (e + g))
  | _, _ => none

/-- Round(a × b) on values (03 R76; 05 R129). -/
def Fmt.mulV (f : Fmt) (mode : Nat) (a b : FVal) : Nat × Flags :=
  if a.isNan || b.isNan then f.nanOf (a.isSig || b.isSig)
  else match prodV a b with
    | none => f.invalid
    | some p => f.round mode p

/-- Round(±(a × b) ± c), rounded once; ∞ × 0 raises NV even beside a quiet NaN (03 R77; 05 R129). -/
def Fmt.fmaV (f : Fmt) (mode : Nat) (np nc : Bool) (a b c : FVal) : Nat × Flags :=
  if a.isNan || b.isNan then f.nanOf (a.isSig || b.isSig || c.isSig)
  else match prodV a b with
    | none => f.invalid
    | some p =>
      if c.isNan then f.nanOf c.isSig
      else f.sum mode (if np then p.negate else p) (if nc then c.negate else c)

/-- An exact quotient of magnitudes as bits enough for any format here, and whether bits remain. -/
def quotBits (extra m n : Nat) : Nat × Nat × Bool :=
  let k := extra + Nat.log2 n + 1
  ((m <<< k) / n, k, (m <<< k) % n ≠ 0)

/-- Round(a / b) on values (03 R76; 06 R163). -/
def Fmt.divV (f : Fmt) (mode : Nat) (a b : FVal) : Nat × Flags :=
  match a, b with
  | .inf _, .inf _ => f.invalid
  | .inf s, .fin t _ _ => f.infOut (s != t)
  | .fin s _ e, .inf t => f.roundFin mode (s != t) 0 e false
  | .fin s m e, .fin t n g =>
    if n = 0 then
      if m = 0 then f.invalid else ((f.infOut (s != t)).1, (f.infOut (s != t)).2 ||| fDZ)
    else
      let q := quotBits (f.m + 4) m n
      f.roundFin mode (s != t) q.1 (e - g - q.2.1) q.2.2
  | x, y => f.nanOf (x.isSig || y.isSig)

/-- The integer square root, bit by bit from bit k. -/
def isqrt (n : Nat) : Nat → Nat → Nat
  | 0, r => r
  | k + 1, r => isqrt n k (if (r + 2 ^ k) * (r + 2 ^ k) ≤ n then r + 2 ^ k else r)

/-- The integer square root of a number. -/
def sqrtNat (n : Nat) : Nat := isqrt n (Nat.log2 n / 2 + 1) 0

/-- Round(√a) on values (03 R76; 06 R163). -/
def Fmt.sqrtV (f : Fmt) (mode : Nat) : FVal → Nat × Flags
  | .nan s => f.nanOf s
  | .inf s => if s then f.invalid else f.infOut false
  | .fin s m e =>
    if m = 0 then f.roundFin mode s 0 e false
    else if s then f.invalid
    else
      let k := 2 * (f.m + 4) + (e % 2).toNat
      let n := m <<< k
      let r := sqrtNat n
      f.roundFin mode false r ((e - k) / 2) (r * r ≠ n)

/-- Round(1 / √a) on values (06 R163). -/
def Fmt.rsqV (f : Fmt) (mode : Nat) : FVal → Nat × Flags
  | .nan s => f.nanOf s
  | .inf s => if s then f.invalid else f.roundFin mode false 0 0 false
  | .fin s m e =>
    if m = 0 then ((f.infOut s).1, (f.infOut s).2 ||| fDZ)
    else if s then f.invalid
    else
      let m' := m <<< (e % 2).toNat
      let e' := e - e % 2
      let k := Nat.log2 m' + f.m + 6
      let r := sqrtNat (2 ^ (2 * k) / m')
      f.roundFin mode false r (-(e' / 2) - k) (r * r * m' ≠ 2 ^ (2 * k))

/-- Whether a < b, or a = b when `eq`, on values that are no NaN; ±0 are equal (03 R79). -/
def FVal.below : FVal → FVal → Bool
  | .inf s, .inf t => s && !t
  | .inf s, _ => s
  | _, .inf t => !t
  | .fin n1 m1 e1, .fin n2 m2 e2 =>
    let q := min e1 e2
    finInt n1 m1 e1 q < finInt n2 m2 e2 q
  | _, _ => false

/-- Equality of values that are no NaN (03 R79). -/
def FVal.same (a b : FVal) : Bool := !a.below b && !b.below a

/-- fmin and fmax on codes: the chosen operand's code, and NV for a signalling NaN (03 R76). -/
def Fmt.minMax (f : Fmt) (isMin : Bool) (a b : Nat) : Nat × Flags :=
  let x := f.decode a
  let y := f.decode b
  let fl : Flags := if x.isSig || y.isSig then fNV else 0
  if x.isNan && y.isNan then f.nanOut fl
  else if x.isNan then (b, fl)
  else if y.isNan then (a, fl)
  else
    let less := x.below y || (x.same y && x.sign && !y.sign)
    (if less = isMin then a else b, fl)

/-- Round(a + b) on codes. -/
def Fmt.add (f : Fmt) (mode a b : Nat) : Nat × Flags := f.addV mode (f.decode a) (f.decode b)
/-- Round(a − b) on codes. -/
def Fmt.sub (f : Fmt) (mode a b : Nat) : Nat × Flags := f.addV mode (f.decode a) (f.decode b).negate
/-- Round(a × b) on codes. -/
def Fmt.mul (f : Fmt) (mode a b : Nat) : Nat × Flags := f.mulV mode (f.decode a) (f.decode b)
/-- Round(a / b) on codes. -/
def Fmt.div (f : Fmt) (mode a b : Nat) : Nat × Flags := f.divV mode (f.decode a) (f.decode b)
/-- Round(±(a × b) ± c) on codes. (DEDUCED, log 17.) -/
def Fmt.fma (f : Fmt) (mode : Nat) (np nc : Bool) (a b c : Nat) : Nat × Flags :=
  f.fmaV mode np nc (f.decode a) (f.decode b) (f.decode c)
/-- The scalar fused multiply-add on codes: as `Fmt.fma`, but that fnmadd of an exact zero sum gives −0 under RNE (03 R77).
(DEDUCED, log 17.) -/
def Fmt.fmaReg (f : Fmt) (mode : Nat) (np nc : Bool) (a b c : Nat) : Nat × Flags :=
  let r := f.fma mode np nc a b c
  if np && nc && mode = 0 && r.1 % 2 ^ (f.e + f.m) = 0 && r.2 = 0 then (2 ^ (f.e + f.m), 0) else r
/-- Round(√a) on a code. -/
def Fmt.sqrt (f : Fmt) (mode a : Nat) : Nat × Flags := f.sqrtV mode (f.decode a)
/-- Round(1 / √a) on a code. -/
def Fmt.rsq (f : Fmt) (mode a : Nat) : Nat × Flags := f.rsqV mode (f.decode a)

/-- The sign bit of a code. -/
def Fmt.signBit (f : Fmt) : Nat := 2 ^ (f.e + f.m)
/-- Whether a code's sign bit is set. -/
def Fmt.negCode (f : Fmt) (a : Nat) : Bool := f.sgn && a.testBit (f.e + f.m)
/-- A code with its sign bit set as given (03 R76; 05 R129). -/
def Fmt.withSign (f : Fmt) (a : Nat) (neg : Bool) : Nat :=
  a % f.signBit + (if neg then f.signBit else 0)

/-- The class of a code, numbered as in fkind (03 R79; 06 R160). -/
def Fmt.classOf (f : Fmt) (a : Nat) : Nat :=
  match f.decode a with
  | .nan s => if s then 8 else 9
  | .inf s => if s then 0 else 7
  | .fin s 0 _ => if s then 3 else 4
  | .fin s m _ => if m < 2 ^ f.m then (if s then 2 else 5) else (if s then 1 else 6)

/-- The exact integer a value rounds to in a mode, and whether it is inexact; none for a NaN; ±∞ as a bound no integer
type reaches (06 R148). -/
def FVal.toInt (mode : Nat) : FVal → Option (Int × Bool)
  | .nan _ => none
  | .inf s => some (if s then -(2 ^ 200 : Int) else 2 ^ 200, false)
  | .fin s m e =>
    let y := roundGrid mode s m e false 0
    some (if s then -(y.1 : Int) else y.1, y.2)

/-- Conversion to an integer type of b bits (06 R148; 03 R78): the code and the flags; `sat` raises SAT for a clamp. -/
def toIntType (mode : Nat) (sat signed : Bool) (b : Nat) (v : FVal) : Nat × Flags :=
  let lo : Int := if signed then -(2 ^ (b - 1) : Int) else 0
  let hi : Int := if signed then 2 ^ (b - 1) - 1 else 2 ^ b - 1
  match v.toInt mode with
  | none => (0, fNV)
  | some (n, nx) =>
    if n < lo then ((lo % (2 ^ b : Int)).toNat, if sat then fSAT else fNV)
    else if hi < n then (hi.toNat, if sat then fSAT else fNV)
    else ((n % (2 ^ b : Int)).toNat, if nx then fNX else 0)

/-- Round of an integer in a mode (03 R78; 06 R152). -/
def Fmt.ofInt (f : Fmt) (mode : Nat) (x : Int) : Nat × Flags := f.roundFin mode (x < 0) x.natAbs 0 false

/-- The value of a block scale: S10 (style 0) or E8M0 (style 1), none for a NaN (06 R143). -/
def scaleOf (style code : Nat) : Option (Nat × Int) :=
  let c := if style = 1 then code % 256 * 4 else code % 1024
  if c / 4 = 255 then none else some (4 + c % 4, (c / 4 : Nat) - 129)

/-- vscale's result: an element times or over a block scale (06 R159). -/
def Fmt.scale (f : Fmt) (mode : Nat) (div : Bool) (style code a : Nat) : Nat × Flags :=
  match scaleOf style code with
  | none => f.nanOut fNV
  | some (sm, se) =>
    match f.decode a with
    | .fin s m e =>
      if div then
        let q := quotBits (f.m + 4) m sm
        f.roundFin mode s q.1 (e - se - q.2.1) q.2.2
      else f.roundFin mode s (m * sm) (e + se) false
    | v => f.round mode v

end Sys2Proof.Machine
end

