-- ==== Sys2Proof/Config.lean ====
section
/-! DEFINITION. What an implementation fixes, and the values the spec leaves open, as constants without a body. -/

namespace Sys2Proof.Config

/-- A 64-bit value the spec leaves open, one for every draw (DESIGN CHOICE, log 5). -/
opaque freeWord : Nat → BitVec 64
/-- A choice among n the spec leaves open, one for every draw; used modulo n (DESIGN CHOICE, log 5). -/
opaque freeChoice : Nat → Nat
/-- The device secret that the identity key is derived from: its 32 bytes as an Ed25519 secret (14 R412; PRESUMED, log 16). -/
opaque identitySecret : List Byte
/-- The secret of a fresh X25519 key pair, one for every draw (14 R412; PRESUMED, log 16). -/
opaque freshSecret : Nat → List Byte
/-- Mboot of the boot that State.reset stands after: its flash image and board block are no part of that state (DESIGN CHOICE, log 3). -/
opaque bootMeasure : BitVec 512

/-- fver.CAP of the firmware that provides these chapters (12 R372, Table 12.12). -/
def fverCap : Nat := 1
/-- fver.FW, the firmware release; the spec gives no number (DESIGN CHOICE, log 1). -/
def fverFw : Nat := 0
/-- The value of the 16-byte ROM version record; the spec gives none (DESIGN CHOICE, log 1). -/
def romRecord : List Byte := List.replicate 16 0

end Sys2Proof.Config
end

