-- ==== Sys2Proof/Machine/State.lean ====
section
/-! DEFINITION. Everything the spec gives the machine, as plain data, and the machine after reset. -/

namespace Sys2Proof.Machine

/-- Why a step stops with a fault. `inputNotEvent`: the inputs list, the model's host interface, holds an instruction word
in place of an event; raised by `step`. Safe: no claim about a run of the machine rests on such a list (DESIGN CHOICE, log 8). -/
inductive Fault where
  | inputNotEvent
  deriving DecidableEq, Repr

/-- Why a step has no answer. `notModelled`: the instruction named has no meaning yet; raised by `exec`. Safe. -/
inductive Refusal where
  | notModelled (mnemonic : String)
  deriving DecidableEq, Repr

/-- Bits of a vector register at width 4; a thread of width W uses the low W × 32,768 (01 R17; 05 R105). -/
def vregBits : Nat := 131072
/-- A vector register (01 R17). -/
abbrev VReg := BitVec vregBits
/-- Bits of a mask register at width 4; a thread of width W uses the low W × 8,192 (05 R106). -/
def mregBits : Nat := 32768
/-- A mask register (05 R106). -/
abbrev MReg := BitVec mregBits
/-- Bits of an accumulator tile, 128 × 128 elements of 32 (08 R210). -/
def accBits : Nat := 524288
/-- An accumulator tile; element (i, j) is number 128 i + j (08 R210). -/
abbrev AccTile := BitVec accBits

/-! ### The thread -/

/-- The bind record of a thread: the fields of Table 13.6 that the thread keeps, its die, and its encoding level
(13 R398; 02 R49). -/
structure Bind where
  die : Nat
  core : Nat
  slot : Nat
  wc : Nat
  tg : Bool
  bg : Bool
  ctx : Nat
  key : Nat
  conf : Bool
  res : Nat
  slots : Nat
  sways : Nat
  stripA : Nat
  ptroot : Nat
  image : Nat
  entry : Word
  sp : Word
  handler : Word
  start : Word
  deadline : Word
  level : Nat
  flat : Nat
  launch : Nat
  deriving DecidableEq, Repr

/-- What a front register's history entry restores (03 R60; 04 R92; 06 R150; 08 R214; 11 R335). -/
inductive FrontReg where
  | s (n : RegNo) | zs (n : Bool) | ze (n : Bool) | zc (n : Bool) | sbase | smbc | dline | ptag | smplcfg | trccfg
  | next | vlCopy | traps | mcfg | tmCopy | stride | chunk | flagsOnly
  deriving DecidableEq, Repr

/-- An entry of the scalar history buffer (03 R60). -/
structure HistEntry where
  reg : FrontReg
  old : Word
  flags : BitVec 6
  seq : Nat
  deriving DecidableEq, Repr

/-- An entry of the scalar store queue: its bytes at a physical address, the page kind, the sequence number of the
youngest older VIQ word, and its place in program order for a DS page (03 R61; 11 R308). -/
structure StoreEntry where
  pa : Nat
  bytes : List Byte
  kind : Nat
  seq : Nat
  order : Nat
  atM : Bool
  deriving DecidableEq, Repr

/-- What a VIQ entry is besides a 64-bit word: an mtc value for a lane register, or a commit entry with the new vl
of a taken smb (03 R74; 04 R94; 12 Table 12.6). -/
inductive Slot where
  | word | mtc (n : Nat) | commit (vl : Option Nat)
  deriving DecidableEq, Repr

/-- Whether an entry is that of an mtc. -/
def Slot.isMtc : Slot → Bool
  | .mtc _ => true
  | _ => false

/-- A VIQ entry (03 R56; 12 Table 12.6): the word as rewritten to level 3, its address and the address after it, the
values carried with it, its place in its convoy, how far it has come, the bytes that a bounded writer can write (03 R62),
the replicated unit read at its first issue (05 R116), the slot that its group left to older readers with the shape entry that names it
(01 R18; 05 R113), what a sampled word has touched (12 R375), the 32-bit word of a one-slot entry (12 Table 12.6), and for a step word
zc0 and zc1 as they stood before it (04 R88; 11 R322). -/
structure VEntry where
  seq : Nat
  addr : Word
  after : Word
  op : Nat
  w : VWord
  slot : Slot
  sc : Word
  sb : Word
  x0 : Word
  x1 : Word
  x2 : Word
  vl : Nat
  vtype : BitVec 10
  first : Bool
  joined : Bool
  issued : Bool
  prog : Nat
  safe : Bool
  complete : Bool
  sampled : Bool
  issuedAt : Word × Word
  range : Option (Word × Nat)
  unit : Nat
  held : List VReg
  lines : List Nat
  active : Nat
  half : Nat
  atM : Bool
  shape : Word := 0
  zcs : Option (Vector Word 2) := none
  deriving DecidableEq, Repr

/-- What the front waits for (04 R100; 05 R127; 10 R288, R291, R295, R301; 11 R318). -/
inductive Wait where
  | none
  | time (d : RegNo) (t : Word)
  | huddle (reg : Nat) (gen : Nat)
  | ring (v : Nat)
  | arrival (d : RegNo) (va : Word) (gen : Nat) (ord : Nat) (scope : Nat)
  | copies (limit : Word)
  | entry (seq : Nat)
  deriving DecidableEq, Repr

/-- A lane section: the address of its lsplit, the code, each lane's PC, the lanes that have joined, and the lane each
cluster last issued (04 R95 to R99). -/
structure LaneSection where
  origin : Word
  start : Word
  len : Nat
  code : List Byte
  pcs : List Word
  joined : List Bool
  last : List Nat
  deriving DecidableEq, Repr

/-- The control and special registers of a scalar front (04 R86, R92, R101; 10 R290; 12 R355, R374); `fverUp` is the rise
of the firmware's release number that the thread sees, of the device's `fwUp` (12 R372). -/
structure FrontRegs where
  zs : Vector Word 2
  ze : Vector Word 2
  zc : Vector Word 2
  sbase : Word
  smbc : Word
  dline : Word
  ptag : Word
  smplcfg : Word
  trccfg : Word
  lost : BitVec 16
  next : BitVec 24
  mark : Bool
  fverGen : BitVec 16
  fverUp : Nat
  deriving DecidableEq, Repr

/-- A stop that is pending for a thread: a pre-emption or a debug stop (12 R355, R367). -/
inductive StopKind where
  | preemption | debug
  deriving DecidableEq, Repr

/-- The M-level registers; mhandler and mctx come from the bind record (12 R355). -/
structure MRegs where
  lvl : Bool
  pk : Bool
  lane : Bool
  dbg : Bool
  preq : Option StopKind
  mcause : Word
  mspc : Word
  mvcp : Word
  mindex : Word
  deriving DecidableEq, Repr

/-- The front's copies of lane state (05 R107; 06 R150; 08 R214, R231; 11 R335). -/
structure Copies where
  vl : Nat
  traps : BitVec 6
  mcfg : BitVec 7
  kmax : Nat
  tm : Nat
  stride : Word
  chunk : Word
  deriving DecidableEq, Repr

/-- The scalar front of a thread (01 R15; 03; 04; 12). `stepq` is a stepq that has arrived and retires only at its release (11 R321);
`parkedLanes` is a lane section that a handler with LANE = 1 will go back to (04 R99). -/
structure Front where
  s : Vector Word 64
  spc : Word
  regs : FrontRegs
  m : MRegs
  copy : Copies
  hist : List HistEntry
  storeQ : List StoreEntry
  viq : List VEntry
  stepq : Option VEntry
  seq : Nat
  wait : Wait
  lanes : Option LaneSection
  parkedLanes : Option LaneSection
  curLane : Option Nat
  fbuf : Option (Nat × List Byte)
  chainOpen : Bool
  deriving DecidableEq, Repr

/-- Which entry of a strip store buffer: its cluster, its strip, its 64-byte block, and for vstr the target rank, window handle and
element size (07 R184; 11 R327). -/
structure StripSlot where
  cluster : Nat
  strip : Nat
  block : Nat
  remote : Option (Nat × Nat × Nat)
  deriving DecidableEq, Repr

/-- An entry of a strip store buffer, or a part of one whose writes have a place of their own in program order: a 64-byte block with
two marks per byte, its cluster, its strip, its page kind (8 more when a release word wrote it), for vstr the target rank, window
handle and element size, whether words with the streaming hint wrote all of it, and for a write to a window its place in program order
(07 R168, R182, R184, R199; 11 R308, R327). -/
structure StripEntry where
  cluster : Nat
  block : Nat
  marks : BitVec 128
  data : BitVec 512
  strip : Nat
  kind : Nat
  remote : Option (Nat × Nat × Nat)
  stream : Bool
  order : Nat
  deriving DecidableEq, Repr

/-- The strip store buffer and sstat of a thread (07 R184 to R188): the entries in program order, the entries of the open strip set
aside while a store word of the handler forms its own, the number of the open strip, the entries whose stores are performed and not yet
acknowledged, and the flags of sstat (12 R351). -/
structure Strip where
  entries : List StripEntry
  parked : List StripEntry
  open_ : Nat
  unacked : List StripSlot
  early : Nat
  uncs : Bool
  unc : Bool
  deriving DecidableEq, Repr

/-- An accumulation window: accwcfg and one copy of the table per lane (10 R275, R277). -/
structure AccWindow where
  cfg : Word
  copies : List (List Word)
  deriving DecidableEq, Repr

/-- The lane-side registers of a thread (01 R17; 05; 06). `vprog` and `mprog` are the progress indices of R120, `bad`
the register bytes an uncorrectable error has marked (14 R421). -/
structure Lanes where
  v : Vector VReg 64
  m : Vector MReg 8
  vprog : Vector Nat 64
  mprog : Vector Nat 8
  vl : Nat
  vtype : BitVec 10
  shape : Vector Word 16
  fmt : Vector Word 8
  flags : BitVec 6
  traps : BitVec 6
  efc : BitVec 32
  win : AccWindow
  cpErr : Bool
  bad : List (Nat × Nat)
  deriving DecidableEq, Repr

/-- The Truss state of a thread: accumulators, tags (true for INT) and configuration (08 R210 to R213). -/
structure Truss where
  acc : Vector AccTile 2
  tagInt : Vector Bool 2
  mcfg : BitVec 7
  mvl : Word
  tm : Nat
  tn : Nat
  tk : Nat
  deriving DecidableEq, Repr

/-- A triangle register: U as element 32 i + k of 32 × 32, the column c and the counts (09 R246). -/
structure Triangle where
  u : BitVec 32768
  c : BitVec 1024
  cnt : Vector Nat 32
  deriving DecidableEq, Repr

/-- The Brace state of a thread (09 R246 to R248). -/
structure Brace where
  tri : Vector Triangle 4
  bcfg : Word
  bstat : Word
  deriving DecidableEq, Repr

/-- A chunk staged in a send stream: its size, whether its reservation is granted, and the bytes staged so far
(11 R342). -/
structure Chunk where
  size : Nat
  admitted : Bool
  bytes : List Byte
  deriving DecidableEq, Repr

/-- A stream register: the fields of fscN, the receive buffer with the bytes granted and not yet filled, the send staging, and the scales
that a vscale in progress has popped (11 R337, R338, R340, R342). -/
structure Stream where
  bound : Bool
  send : Bool
  lost : Bool
  comm : Nat
  offset : Int
  rx : List Byte
  granted : Nat
  stage : List Chunk
  past : VReg := 0
  deriving DecidableEq, Repr

/-- The fabric registers of a thread and where it stands with its whistle: `arrived` a step word has arrived, `queued` it
is a stepq, `released` its release has come, with the word's address, timeout and T and the time of its arrival; remote writes sent and
not yet acknowledged, with their target and whether it has refused them; and what has come for a running vldr (11 R314, R319 to R323,
R326, R330, R335, R338, R347). -/
structure Fabric where
  cgrp : Word
  cop : Word
  cstride : Word
  cchunk : Word
  stepstat : Word
  fs : Vector Stream 8
  arrived : Bool
  queued : Bool
  released : Bool
  stepAddr : Word
  stepTimeout : Nat
  stepAt : Nat
  arrivedAt : Nat
  overflow : Bool
  conflict : Bool
  dsOrder : Nat
  sent : List (Nat × RemoteWrite × Bool)
  remoteData : List (Nat × List Byte)
  deriving DecidableEq, Repr

/-- Where a thread is in its life (13 R398; 12 R354, R362): `free` the place holds no thread, `bound` it waits for its
start, `suspended` Eloaler holds its image with the cause, index and pair, `stopped` a debugger stopped it, `swapped` a
pre-emption or gang switch saved it, `swappedBound` a gang switch saved it before its start, with its GO, `ended` it has left its
slot. -/
inductive Life where
  | free | bound | running
  | suspended (c : ExcCause) (idx spc vcp : Word)
  | stopped
  | swapped
  | swappedBound (go : Bool)
  | ended
  deriving DecidableEq, Repr

/-- A thread: its bind record, its front, its lane side, and its counters (12 Table 12.13). A stopped thread keeps its
state here; that is its image (12 R363; DESIGN CHOICE, log 13). -/
structure Thread where
  bind : Bind
  life : Life
  fr : Front
  ln : Lanes
  st : Strip
  tr : Truss
  br : Brace
  fab : Fabric
  cnt : Vector Word 41
  oneWord : Bool
  deriving DecidableEq, Repr

/-! ### Memory-side structures -/

/-- An entry of a cluster TLB or, with cluster 4, of the copy engine's TLB; `core` counts over the package
(07 R177; 10 R296). -/
structure TlbEntry where
  core : Nat
  cluster : Nat
  big : Bool
  set : Nat
  way : Nat
  ctx : Nat
  vpn : Nat
  pa : Nat
  kind : Nat
  key : Nat
  r : Bool
  w : Bool
  x : Bool
  d : Bool
  deriving DecidableEq, Repr

/-- A line of a core's instruction or scalar data cache (03 R58). -/
structure CacheLine where
  core : Nat
  set : Nat
  way : Nat
  ctx : Nat
  line : Nat
  data : List Byte
  deriving DecidableEq, Repr

/-- A line held in an L2 way of a slice; its data are those of memory (07 R168, R171). -/
structure L2Line where
  die : Nat
  slice : Nat
  set : Nat
  way : Nat
  line : Nat
  dirty : Bool
  deriving DecidableEq, Repr

/-- A round-robin pointer: which structure, which core or die, which cluster and set, and the next way
(03 R58; 07 R177; 11 R329). -/
structure RoundRobin where
  what : Nat
  core : Nat
  cluster : Nat
  set : Nat
  next : Nat
  deriving DecidableEq, Repr

/-- A bank with owed refreshes, or whose row is open (07 R193, R194). -/
structure Bank where
  die : Nat
  stack : Nat
  bank : Nat
  owed : Nat
  row : Option Nat
  deriving DecidableEq, Repr

/-- A valid entry of a die's cut list (07 R169). -/
structure CutEntry where
  die : Nat
  index : Nat
  bits : BitVec 128
  deriving DecidableEq, Repr

/-- An enabled format window of a die: its four words (07 R172), and the context whose launch gave it (13 R390). -/
structure FormatWindow where
  die : Nat
  index : Nat
  ctx : Nat
  words : List Word
  deriving DecidableEq, Repr

/-- What the gateway has of the flits of one package on one virtual channel: the next sequence number, and what has come before its
turn, data among it (11 R332). -/
structure Gate where
  src : Nat
  vc : Nat
  next : Nat
  early : List (Nat × Option StreamMsg)
  deriving DecidableEq, Repr

/-- An invalidation of a window of package `target` that waits for the acknowledgements of packages behind this one in the whistle tree
(11 R330). -/
structure Relay where
  ctx : Nat
  target : Nat
  handle : Nat
  waiting : List Nat
  deriving DecidableEq, Repr

/-- The translation and caching structures of the package, and the memory-side schedule state; `rtrans` holds entries by die and way;
`served` is, per die, the communicators (context, number) that its stream unit has served, the latest last; `seqs` the next sequence
number by target and virtual channel; `asks` the reservation requests of other packages that wait for room; `relays` the invalidations
that this package has passed on down the whistle tree and that are not yet acknowledged (11 R329 to R332, R342). -/
structure Uncore where
  tlb : List TlbEntry
  icache : List CacheLine
  dcache : List CacheLine
  l2 : List L2Line
  rr : List RoundRobin
  banks : List Bank
  forced : Vector Word 8
  merges : Vector Word 4
  cuts : List CutEntry
  fmtWins : List FormatWindow
  rtrans : List (Nat × Nat × RemoteTrans)
  served : List (Nat × Nat × Nat)
  seqs : List (Nat × Nat × Nat)
  gates : List Gate
  asks : List StreamMsg
  relays : List Relay
  deriving DecidableEq, Repr

/-- A post travelling the ring: its die, source core, entry, value, whether it is a post.set, and the cores whose
tables it has still to reach, in ring order (10 R289). -/
structure RingPost where
  die : Nat
  src : Nat
  tag : Nat
  value : BitVec 48
  set : Bool
  left : List Nat
  deriving DecidableEq, Repr

/-- The sync blocks and post tables: home registers and mirrors that are not zero, mirror updates in flight, post-table
entries that are not zero, posts travelling the ring, when and by whose arrival a phase of a huddle last completed, by its register,
and what Eloaler saved in the image of a removed context: its home registers and post-table entries (10 R281, R283, R284, R287,
R289). -/
structure SyncState where
  home : List (Nat × Word)
  mirror : List (Nat × Nat × Word)
  flying : List (Nat × Nat × Nat × Word)
  post : List (Nat × Nat × BitVec 48)
  ring : List RingPost
  phases : List (Nat × Word × Nat)
  saved : List (Nat × List (Nat × Word) × List (Nat × Nat × BitVec 48))
  deriving DecidableEq, Repr

/-- A command of a core's copy engine (10 R296, R297): the fields of its word, how many bytes it has delivered, what stood before it in
bytes it has written that it may read, whether
it waits for a page, and whether it is paused with its thread (10 R303). -/
structure CopyCmd where
  core : Nat
  slot : Nat
  owner : Nat
  ctx : Nat
  fn : Nat
  stream : Bool
  dst : Word
  src : Word
  b0 : Word
  b1 : Word
  aw : Option Word
  pos : Nat
  olds : List Host.Cell
  seq : Nat
  held : Bool
  paused : Bool
  stopping : Bool
  deriving DecidableEq, Repr

/-- An entry of a deferred write buffer, with the launch of its writer (11 R308, R313). -/
structure DefEntry where
  elem : Nat
  data : Word
  source : Nat × Nat
  launch : Nat
  order : Nat
  deriving DecidableEq, Repr

/-- An exported window of a context; one that is being freed waits for the acknowledgement of its invalidation by each of some
packages (11 R307 to R311, R330). -/
structure Window where
  ctx : Nat
  handle : Nat
  base : Word
  len : Nat
  die : Nat
  pages : List Nat
  cap : Nat
  rule : Nat
  ety : Nat
  bufAt : Nat
  entries : List DefEntry
  overflowed : Bool
  conflicted : Bool
  releasing : Bool
  freeing : Option (List Nat)
  deriving DecidableEq, Repr

/-- The whistle of a context on this package (11 R313 to R322): the launch whose whistle runs, members counted at the hub, child
packages that have arrived and the windows they report, whether the package's own arrival is sent, smallest timeout seen, the
latest T of step.at, whether the go has come and the apply has run, the status decided, the flags of the apply, the
number of whistles completed, whether Skew has ended the supersteps, and the remote accesses that wait for the apply. -/
structure Whistle where
  ctx : Nat
  launch : Option Nat
  counted : List Nat
  children : List Nat
  overflow : List (Nat × Nat)
  conflict : List (Nat × Nat)
  sent : Bool
  timeout : Nat
  forwarded : List Nat
  firstAt : Option Nat
  applyAt : Nat
  go : Bool
  applied : Bool
  status : Nat
  rank : Nat
  handle : Nat
  nwin : Nat
  flags : BitVec 6
  stepNo : Nat
  skewed : Bool
  waiting : List RemoteAccess
  deriving DecidableEq, Repr

/-! ### Contexts, launches and the device -/

/-- A communicator of a context (11 R334; 13 R390). -/
structure Comm where
  number : Nat
  first : Nat
  members : Nat
  prio : Nat
  stride : Nat
  join : Nat
  aborted : Bool
  deriving DecidableEq, Repr

/-- A trace ring of a context and the words of the units to be sealed (12 R377 to R379). -/
structure Ring where
  base : Word
  log : Nat
  prod : Nat
  seq : Nat
  truncated : Bool
  pending : List Word
  deriving DecidableEq, Repr

/-- A loaded code object (13 R400 to R402): its mapped sections as (virtual base, bytes, flags), its FMT section, the
physical pages and, when it is retiring, the slot and bytes of its UNLOAD entry. -/
structure CodeObj where
  handle : Nat
  sections : List (Nat × Nat × Nat)
  fmts : List Word
  pages : List Nat
  die : Nat
  retiring : Bool
  complete : Option (Nat × List Byte)
  deriving DecidableEq, Repr

/-- A context on the package with what its limit entries hold, among it the physical base and size of its image areas on each die, the
number of the next unit sealed under its tenant key, and the other packages of the pod on which the context exists with its allowed cores
there (12 R379; 13 R384, R399, R438; 01 R12; 07 R170; 14 R411, R412, R419). -/
structure Ctx where
  id : Nat
  key : Nat
  conf : Bool
  ptroot : Nat
  res : Nat
  swmax : Nat
  syncLo : Nat
  syncN : Nat
  posts : List Nat
  handler : Word
  stack : Word
  stacksz : Nat
  quota : Nat
  used : List Nat
  cores : BitVec 224
  level : Nat
  objs : List CodeObj
  comms : List Comm
  ring : Option Ring
  mc : BitVec 512
  tenant : List Byte
  unit : Nat
  dbg : Bool
  runs : List (Nat × Nat × Nat)
  images : List (Nat × Nat)
  sched : List (Nat × Nat)
  far : List (Nat × BitVec 224) := []
  deriving DecidableEq, Repr

/-- The shared-store bytes and poison marks of a context saved while its ways are taken (01 R13). -/
structure SavedWays where
  ctx : Nat
  die : Nat
  ways : Nat
  bytes : List Host.Cell
  poison : List Nat
  deriving DecidableEq, Repr

/-- What the auxiliary block of a launch holds once it is translated: cut-list entries and format windows by die,
communicators, and the trace ring's control block and size (13 R390). -/
structure Aux where
  cuts : List (Nat × BitVec 128)
  wins : List (Nat × List Word)
  comms : List Comm
  ring : Option (Word × Nat)
  deriving DecidableEq, Repr

/-- A launch from the moment its entry is taken (13 R386 to R397): `boundTo` threads are bound, in order of flat index, at the
`homes` (die, core, lowest cluster; the dies of another package are counted from 4 × (rank + 1)), and `binding` is the gang whose records are written. -/
structure Launch where
  number : Nat
  entry : List Byte
  slot : Nat
  ctx : Nat
  takenAt : Nat
  aged : Bool
  threads : Nat
  boundTo : Nat
  homes : List (Nat × Nat × Nat)
  binding : Option BindPlan
  aux : Aux
  ended : Nat
  status : Nat
  code : Nat
  unc : Bool
  flags : BitVec 6
  firstFatal : Option Nat
  report : List Word
  killed : Bool
  deriving DecidableEq, Repr

/-- A gang-switch command whose incoming threads have not all resumed, with its resume time (12 R366). -/
structure Switch where
  outgoing : Nat
  incoming : Nat
  resume : Option Word
  deriving DecidableEq, Repr

/-- The launch side of the hub: the doorbell, the entries taken and not yet handled as (slot, bytes), launches, gang switches, the
contexts that a switch has taken out and none has brought back, and the queue of the trace path (12 R366, R377; 13 R381, R392;
14 R407). -/
structure Hub where
  doorbell : BitVec 32
  avail : BitVec 32
  taken : BitVec 32
  doorErrors : Nat
  entries : List (Nat × List Byte)
  launches : List Launch
  nextLaunch : Nat
  switches : List Switch
  away : List Nat
  traceQ : List (Nat × Nat × Nat × List Word)
  deriving DecidableEq, Repr

/-- An RC queue pair of an Ethernet port (14 R404, R405). -/
structure Qp where
  port : Nat
  qp : Nat
  error : Bool
  deriving DecidableEq, Repr

/-- The device: boot, measurement, fuses, flash, keys, time, geometry, power and background work (14). -/
structure Device where
  power : Bool
  step : Nat
  failed : Option Nat
  mboot : BitVec 512
  flash : List (List Byte)
  board : List Byte
  digests : List (BitVec 512)
  revoked : List Bool
  rollback : Nat
  sv : Nat
  /-- The key store: the indices it holds, each with its pair; index 0 is plaintext and never held (14 R413). -/
  keys : List (Nat × BitVec 512)
  locked : Bool
  epoch : Option Word
  dims : Nat × Nat × Nat
  coords : Nat × Nat × Nat
  ports : List Nat
  portsDown : List (Nat × Nat)
  powerCap : Nat
  offRequested : Bool
  badCores : List Nat
  defaultPolicy : Bool
  fwUp : Nat
  qps : List Qp
  credential : List Byte
  patrol : List Nat
  scrub : List Nat
  deriving DecidableEq, Repr

/-- Telemetry counts, the errors that scrubs have found among them, and the recalibrations in progress (14 R420, R421). -/
structure Telemetry where
  ageing : Nat
  sent : Nat
  uciePhase : List Nat
  torusPhase : List Nat
  corrected : Nat
  uncorrected : Nat := 0
  deriving DecidableEq, Repr

/-- What leaves the package (14; 11 R331): I3C reports and answers, RDMA acknowledgements, data and congestion notifications, torus messages by
their header and payload, debug data, attestation reports. -/
inductive OutMsg where
  | i3c (code : Nat) (data : List Nat)
  | rdmaAck (port qp : Nat)
  | rdmaNak (port qp : Nat)
  | rdmaData (port qp : Nat) (data : List Byte)
  | congestion (port qp : Nat)
  | connection (port qp : Nat) (accepted : Bool)
  | flit (header : Word) (payload : List Byte)
  | debug (data : List Byte)
  | attestation (data : List Byte)
  deriving DecidableEq, Repr

/-- Memory as a canonical list of cells: addresses strictly rising, no entry equal to what an unlisted address reads as.
Addresses below 2^44 are physical; the cells of the shared-store ways stand at and above 2^44 (DEDUCED, log 2, log 9). -/
abbrev Memory := List Host.Cell

/-- The machine: one package (01 R7). `th` is the thread the next step runs, `others` the other threads in the slots of
the package, `images` those that a gang switch has taken out of their slots (12 R366); `inputs`, `sched`, `prompt`, `pace` and `freeCount` are the model's own (DESIGN CHOICE, log 5 to DESIGN CHOICE, log 8).
(DESIGN CHOICE, log 20.) -/
structure State where
  th : Thread
  others : List Thread
  images : List Thread
  mem : Memory
  /-- The lines of HBM that are encrypted, by address over 256, each with the key pair under which its bytes in `mem` are the plaintext;
  any other line is plaintext (00 R3; 14 R413). -/
  lineKeys : List (Nat × BitVec 512)
  poison : List Nat
  unc : Uncore
  sync : SyncState
  copies : List CopyCmd
  windows : List Window
  whistles : List Whistle
  ctxs : List Ctx
  saved : List SavedWays
  hub : Hub
  dev : Device
  tele : Telemetry
  gtime : Word
  pace : Nat
  prompt : Bool
  freeCount : Nat
  inputs : List Instr
  sched : List Nat
  out : List OutMsg
  deriving DecidableEq, Repr

/-! ### Reset -/

/-- A bind record of nothing: width 1, no grant, the smallest allowances (DESIGN CHOICE, log 1). -/
def Bind.reset : Bind :=
  { die := 0, core := 0, slot := 0, wc := 0, tg := false, bg := false, ctx := 0, key := 0, conf := false, res := 0,
    slots := 16, sways := 0, stripA := 64, ptroot := 0, image := 0, entry := 0, sp := 0, handler := 0, start := 0,
    deadline := BitVec.allOnes 64, level := 3, flat := 0, launch := 0 }

/-- The front registers at thread entry (04 R86, R92, R101; 12 R374). -/
def FrontRegs.reset : FrontRegs :=
  { zs := Vector.replicate 2 0, ze := Vector.replicate 2 0, zc := Vector.replicate 2 0, sbase := 0, smbc := 0,
    dline := BitVec.allOnes 64, ptag := 0, smplcfg := 0, trccfg := 0, lost := 0, next := 0, mark := false, fverGen := 0,
    fverUp := 0 }

/-- The M-level registers at thread entry (12 R355). -/
def MRegs.reset : MRegs :=
  { lvl := false, pk := false, lane := false, dbg := false, preq := none, mcause := 0, mspc := 0, mvcp := 0,
    mindex := 0 }

/-- The front's copies at thread entry, equal to the lane registers they copy. -/
def Copies.reset : Copies := { vl := 0, traps := 0, mcfg := 0, kmax := 256, tm := 0, stride := 0, chunk := 0 }

/-- A front at thread entry (03 R57). -/
def Front.reset : Front :=
  { s := Vector.replicate 64 0, spc := 0, regs := .reset, m := .reset, copy := .reset, hist := [], storeQ := [],
    viq := [], stepq := none, seq := 0, wait := .none, lanes := none, parkedLanes := none, curLane := none, fbuf := none, chainOpen := false }

/-- The lane side at thread entry (05 R106, R107; 06 R142, R149, R156; 10 R275). -/
def Lanes.reset : Lanes :=
  { v := Vector.replicate 64 0, m := Vector.replicate 8 0, vprog := Vector.replicate 64 64,
    mprog := Vector.replicate 8 mregBits, vl := 0, vtype := 0, shape := Vector.replicate 16 0,
    fmt := Vector.replicate 8 0, flags := 0, traps := 0, efc := 0, win := { cfg := 0, copies := [] }, cpErr := false,
    bad := [] }

/-- The Truss at thread entry; mvl is MMAX 128, NMAX 128, KMAX 256 (08 R210 to R213). -/
def Truss.reset : Truss :=
  { acc := Vector.replicate 2 0, tagInt := Vector.replicate 2 false, mcfg := 0, mvl := 0x80800100#64, tm := 0, tn := 0,
    tk := 0 }

/-- A triangle at thread entry (09 R246). -/
def Triangle.reset : Triangle := { u := 0, c := 0, cnt := Vector.replicate 32 0 }

/-- The Brace at thread entry (09 R246 to R248). -/
def Brace.reset : Brace := { tri := Vector.replicate 4 .reset, bcfg := 0, bstat := 0 }

/-- A stream register that is not bound (11 R338). -/
def Stream.reset : Stream :=
  { bound := false, send := false, lost := false, comm := 0, offset := 0, rx := [], granted := 0, stage := [] }

/-- The fabric registers at thread entry (11 R319, R335, R338). -/
def Fabric.reset : Fabric :=
  { cgrp := 0, cop := 0, cstride := 0, cchunk := 0, stepstat := 0, fs := Vector.replicate 8 .reset, arrived := false,
    queued := false, released := false, stepAddr := 0, stepTimeout := 0, stepAt := 0, arrivedAt := 0,
    overflow := false, conflict := false, dsOrder := 0, sent := [], remoteData := [] }

/-- The strip store buffer and sstat at thread entry (07 R188). -/
def Strip.reset : Strip := { entries := [], parked := [], open_ := 0, unacked := [], early := 0, uncs := false, unc := false }

/-- A place that holds no thread, with every register at its thread-entry value. -/
def Thread.reset : Thread :=
  { bind := .reset, life := .free, fr := .reset, ln := .reset, st := .reset, tr := .reset, br := .reset, fab := .reset,
    cnt := Vector.replicate 41 0, oneWord := false }

/-- The memory-side structures after a cold boot (14 R409; 07 R193). -/
def Uncore.reset : Uncore :=
  { tlb := [], icache := [], dcache := [], l2 := [], rr := [], banks := [], forced := Vector.replicate 8 0,
    merges := Vector.replicate 4 0, cuts := [], fmtWins := [], rtrans := [], served := [], seqs := [],
    gates := [], asks := [], relays := [] }

/-- The sync blocks and post tables with nothing granted (10 R281, R289). -/
def SyncState.reset : SyncState := { home := [], mirror := [], flying := [], post := [], ring := [], phases := [], saved := [] }

/-- The hub with an empty launch queue (14 R407). -/
def Hub.reset : Hub :=
  { doorbell := 0, avail := 0, taken := 0, doorErrors := 0, entries := [], launches := [], nextLaunch := 0,
    switches := [], away := [], traceQ := [] }

/-- The device after a cold boot that passed every step of Table 14.4, locked, alone in its pod (DESIGN CHOICE, log 1, log 3). -/
def Device.reset : Device :=
  { power := true, step := 7, failed := none, mboot := Config.bootMeasure, flash := [[], []], board := List.replicate 4096 0,
    digests := [], revoked := [], rollback := 0, sv := 0, keys := [], locked := true, epoch := none, dims := (1, 1, 1),
    coords := (0, 0, 0), ports := [], portsDown := [], powerCap := 3600, offRequested := false, badCores := [], defaultPolicy := true, fwUp := 0,
    qps := [], credential := [], patrol := List.replicate 8 0, scrub := List.replicate 224 0 }

/-- The package after a cold boot, with no context and no thread (14 R409; DESIGN CHOICE, log 1, log 3). -/
def State.reset : State :=
  { th := .reset, others := [], images := [], mem := [], lineKeys := [], poison := [], unc := .reset, sync := .reset, copies := [], windows := [],
    whistles := [], ctxs := [], saved := [], hub := .reset, dev := .reset,
    tele := { ageing := 0, sent := 0, uciePhase := [], torusPhase := [], corrected := 0 },
    gtime := 0, pace := 1, prompt := true, freeCount := 0, inputs := [], sched := [], out := [] }

end Sys2Proof.Machine
end

