-- ==== Sys2Proof/Machine/Ops.lean ====
section
/-! DEFINITION. The named operations over registers, memory, translation and the store structures. -/

namespace Sys2Proof.Machine

/-! ### Numbers and bit fields -/

/-- Bits [hi:lo] of a word as a number (02 Table 2.4, Bits). -/
def bitsOf (x : Word) (hi lo : Nat) : Nat := x.toNat / 2 ^ lo % 2 ^ (hi + 1 - lo)

/-- A word with bits [lo + n - 1 : lo] replaced. -/
def putBits (x : Word) (lo n v : Nat) : Word :=
  BitVec.ofNat 64 (x.toNat - x.toNat / 2 ^ lo % 2 ^ n * 2 ^ lo + v % 2 ^ n * 2 ^ lo)

/-- The word of a number, wrapping (02 Table 2.4, Wrap). -/
def word (n : Nat) : Word := BitVec.ofNat 64 n

/-- The two's-complement reading of an n-bit number (02 Table 2.4, Sext). -/
def sext (n x : Nat) : Int := if x % 2 ^ n < 2 ^ (n - 1) then (x % 2 ^ n : Nat) else (x % 2 ^ n : Nat) - (2 ^ n : Nat)

/-- The n-bit encoding of an integer (02 Table 2.4, Wrap). -/
def wrap (n : Nat) (x : Int) : Nat := (x % (2 ^ n : Nat)).toNat

/-- The address s[a] + offset, wrapping (03 R70). -/
def addOffset (a : Word) (i : BitVec 13) : Word := a + i.signExtend 64

/-- All ones, the index reported as "−" (12 R349). -/
def noIndex : Word := BitVec.allOnes 64

/-! ### Elements of wide registers -/

/-- Bits [lo + n - 1 : lo] of a wide register as a number. -/
def field {w : Nat} (x : BitVec w) (lo n : Nat) : Nat := x.toNat >>> lo % 2 ^ n

/-- A wide register with bits [lo + n - 1 : lo] replaced by the low n bits of a number. -/
def setField {w : Nat} (x : BitVec w) (lo n v : Nat) : BitVec w :=
  BitVec.ofNat w (x.toNat ^^^ ((x.toNat >>> lo % 2 ^ n ^^^ v % 2 ^ n) <<< lo))

/-- Element i of b bits of a wide register (05 R105). -/
def elemAt {w : Nat} (x : BitVec w) (b i : Nat) : Nat := field x (i * b) b

/-- A wide register with element i of b bits replaced (05 R105). -/
def setElem {w : Nat} (x : BitVec w) (b i v : Nat) : BitVec w := setField x (i * b) b v

/-- Bit i of a mask register (05 R106). -/
def maskBit {w : Nat} (x : BitVec w) (i : Nat) : Bool := x.toNat.testBit i

/-- Register r of a file indexed by a number, 0 outside it. -/
def vecGet {α : Type} {n : Nat} (v : Vector α n) (i : Nat) (d : α) : α := v[i]?.getD d

/-- A file with entry i replaced; outside the file nothing changes. -/
def vecSet {α : Type} {n : Nat} (v : Vector α n) (i : Nat) (x : α) : Vector α n := v.setIfInBounds i x

/-- Run a state function n times, the last call with n - 1. -/
def forUpTo {α : Type} : Nat → (Nat → α → α) → α → α
  | 0, _, a => a
  | n + 1, f, a => f n (forUpTo n f a)

/-! ### Updates of the current thread -/

/-- Change the current thread. -/
def State.onTh (f : Thread → Thread) (s : State) : State := { s with th := f s.th }
/-- Change the current thread's front. -/
def State.onFr (f : Front → Front) (s : State) : State := { s with th := { s.th with fr := f s.th.fr } }
/-- Change the current front's registers. -/
def State.onRegs (f : FrontRegs → FrontRegs) (s : State) : State :=
  { s with th := { s.th with fr := { s.th.fr with regs := f s.th.fr.regs } } }
/-- Change the current thread's M-level registers. -/
def State.onM (f : MRegs → MRegs) (s : State) : State :=
  { s with th := { s.th with fr := { s.th.fr with m := f s.th.fr.m } } }
/-- Change the front's copies of lane state. -/
def State.onCopy (f : Copies → Copies) (s : State) : State :=
  { s with th := { s.th with fr := { s.th.fr with copy := f s.th.fr.copy } } }
/-- Change the current thread's lane registers. -/
def State.onLn (f : Lanes → Lanes) (s : State) : State := { s with th := { s.th with ln := f s.th.ln } }
/-- Change the current thread's strip store buffer. -/
def State.onSt (f : Strip → Strip) (s : State) : State := { s with th := { s.th with st := f s.th.st } }
/-- Change the current thread's Truss state. -/
def State.onTr (f : Truss → Truss) (s : State) : State := { s with th := { s.th with tr := f s.th.tr } }
/-- Change the current thread's Brace state. -/
def State.onBr (f : Brace → Brace) (s : State) : State := { s with th := { s.th with br := f s.th.br } }
/-- Change the current thread's fabric registers. -/
def State.onFab (f : Fabric → Fabric) (s : State) : State := { s with th := { s.th with fab := f s.th.fab } }
/-- Change the memory-side structures. -/
def State.onUnc (f : Uncore → Uncore) (s : State) : State := { s with unc := f s.unc }

/-- The width W of a thread in clusters (01 R14). -/
def Thread.width (t : Thread) : Nat := 2 ^ t.bind.wc
/-- The width of the current thread. -/
def State.width (s : State) : Nat := s.th.width
/-- The number of a core in the package. -/
def Bind.coreNo (b : Bind) : Nat := 56 * b.die + b.core
/-- A thread's place in the package, which also orders sources within it (11 R306). -/
def Bind.place (b : Bind) : Nat := 4 * b.coreNo + b.slot
/-- The rank of this package in its pod (01 R22). -/
def Device.rank (d : Device) : Nat := d.coords.1 + d.dims.1 * (d.coords.2.1 + d.dims.2.1 * d.coords.2.2)

/-- Count one more in a per-thread counter of Table 12.13 (12 R373). -/
def State.count (n : Nat) (s : State) : State :=
  s.onTh fun t => { t with cnt := vecSet t.cnt n (vecGet t.cnt n 0 + 1) }

/-- Send a message out of the package. -/
def State.emit (m : OutMsg) (s : State) : State := { s with out := s.out ++ [m] }

/-! ### The torus -/

/-- Whether a thread holds a slot. -/
def Life.inSlot : Life → Bool
  | .free | .ended => false
  | _ => true

/-- Packages of the pod (01 R22). -/
def Device.packages (d : Device) : Nat := d.dims.1 * d.dims.2.1 * d.dims.2.2

/-- The direction of a ring from one coordinate to another, the shorter way, a tie positive: 0 for none, 1 up, 2 down
(11 R332). -/
def ringDir (n a b : Nat) : Nat :=
  if a = b || n = 0 then 0 else if (b + n - a) % n ≤ (a + n - b) % n then 1 else 2

/-- The coordinates of a rank (01 R22). -/
def Device.coordsOf (d : Device) (r : Nat) : Nat × Nat × Nat :=
  (r % d.dims.1, r / d.dims.1 % d.dims.2.1, r / d.dims.1 / d.dims.2.1)

/-- The rank of coordinates (01 R22). -/
def Device.rankOf (d : Device) (c : Nat × Nat × Nat) : Nat := c.1 + d.dims.1 * (c.2.1 + d.dims.2.1 * c.2.2)

/-- One step along a ring in a direction. -/
def ringStep (n a dir : Nat) : Nat := if dir = 1 then (a + 1) % n else (a + n - 1) % n

/-- The neighbour of a package behind a port; ports 0 to 5 are +X, −X, +Y, −Y, +Z, −Z (11 R332; DESIGN CHOICE, log 1). -/
def Device.neighbour (d : Device) (rank port : Nat) : Nat :=
  let c := d.coordsOf rank
  let k := 1 + port % 2
  d.rankOf (match port / 2 with
    | 0 => (ringStep d.dims.1 c.1 k, c.2.1, c.2.2)
    | 1 => (c.1, ringStep d.dims.2.1 c.2.1 k, c.2.2)
    | _ => (c.1, c.2.1, ringStep d.dims.2.2 c.2.2 k))

/-- The port by which a flit leaves a package for a rank: dimension order X, Y, Z; none at its target (11 R332). -/
def Device.portTo (d : Device) (here rank : Nat) : Option Nat :=
  let a := d.coordsOf here
  let b := d.coordsOf rank
  match ringDir d.dims.1 a.1 b.1, ringDir d.dims.2.1 a.2.1 b.2.1, ringDir d.dims.2.2 a.2.2 b.2.2 with
  | 0, 0, 0 => none
  | 0, 0, k => some (3 + k)
  | 0, k, _ => some (1 + k)
  | k, _, _ => some (k - 1)

/-- The ports a flit crosses from a package to a rank, each as the package and the port by which it leaves it (11 R332). -/
def Device.routeFrom (d : Device) (rank : Nat) : Nat → Nat → List (Nat × Nat)
  | 0, _ => []
  | n + 1, a =>
    match d.portTo a rank with
    | none => []
    | some p => (a, p) :: d.routeFrom rank n (d.neighbour a p)

/-- The route between two packages (11 R332). -/
def Device.route (d : Device) (a b : Nat) : List (Nat × Nat) := d.routeFrom b (d.dims.1 + d.dims.2.1 + d.dims.2.2) a

/-- Whether the route from this package to a rank crosses a port that is down (11 R333). -/
def Device.routeDown (d : Device) (rank : Nat) : Bool := (d.route d.rank rank).any fun x => d.portsDown.contains x

/-- The payloads of the flits that carry some bytes, 56 in each (11 R331). -/
def payloads : Nat → List Byte → List (List Byte)
  | 0, _ => []
  | n + 1, bs => if bs.isEmpty then [] else bs.take 56 :: payloads n (bs.drop 56)

/-- Numbers as the payload of a flit holds them, 8 bytes each (DESIGN CHOICE, log 8). -/
def flitBytes (ns : List Nat) : List Byte := ns.flatMap (leBytes 8)

/-- A torus flit header: DST, SRC, VC, TYPE, SEQ and LEN (11 Table 11.7). -/
def flitHeader (dst src vc type seq len : Nat) : Word :=
  word (dst + src * 2 ^ 14 + vc * 2 ^ 28 + type * 2 ^ 33 + seq * 2 ^ 37 + len * 2 ^ 56)

/-- Send one flit with the next sequence number of its target and virtual channel (11 R331). -/
def State.sendFlit (type dst vc : Nat) (s : State) (bs : List Byte) : State :=
  let seq := ((s.unc.seqs.find? fun x => x.1 = dst ∧ x.2.1 = vc).map (·.2.2)).getD 0 % 65536
  { s with unc := { s.unc with seqs := (dst, vc, (seq + 1) % 65536) :: s.unc.seqs.filter fun x => ¬ (x.1 = dst ∧ x.2.1 = vc) } }.emit
    (.flit (flitHeader dst s.dev.rank vc type seq bs.length) bs)

/-- Send a message of a type to a package, in as many flits as it needs; none goes where its route crosses a port that is down
(11 R331, R333). -/
def State.sendFlits (type dst vc : Nat) (bs : List Byte) (s : State) : State :=
  if s.dev.routeDown dst then s else (payloads bs.length bs).foldl (State.sendFlit type dst vc) s

/-- The package of a home of a launch's thread (11 R306, R334). -/
def State.homeRank (s : State) (h : Nat × Nat × Nat) : Nat := if h.1 < 4 then s.dev.rank else h.1 / 4 - 1

/-- The packages where threads of a context stand (11 R330, R333, R334). -/
def State.ctxRanks (s : State) (ctx : Nat) : List Nat :=
  (((s.hub.launches.filter fun l => l.ctx = ctx).flatMap fun l => l.homes.map s.homeRank)
    ++ (if (s.th :: s.others ++ s.images).any fun t => t.bind.ctx = ctx && t.life.inSlot then [s.dev.rank] else [])).eraseDups

/-- Draw a fresh free value: its number, and the state that has used it (DESIGN CHOICE, log 5). -/
def State.draw (s : State) : Nat × State := (s.freeCount, { s with freeCount := s.freeCount + 1 })

/-! ### Scalar registers -/

/-- Scalar register r as a word reads it: s0 is zero, and in lane mode the register is the lane's element of v[r]
(03 R57; 04 R96). -/
def State.rd (s : State) (r : RegNo) : Word :=
  if r = 0 then 0
  else match s.th.fr.curLane with
    | some j => word (elemAt (vecGet s.th.ln.v r.toNat 0) 64 j)
    | none => vecGet s.th.fr.s r.toNat 0

/-- The entries that the lanes have still to complete before what the front does now; a parked convoy is none of them
(12 R350, R351). -/
def State.inLanes (s : State) : List VEntry := if s.th.fr.m.pk then [] else s.th.fr.viq

/-- The VIQ words older than what the front does now that have not retired, a stepq that waits for its release among them
(03 R64; 11 R321). -/
def State.older (s : State) : List VEntry := s.th.fr.stepq.toList ++ s.inLanes

/-- Whether an older word in the VIQ can still fault, so that front writes are logged (03 R60); a stepq that has arrived cannot
(03 R59). -/
def State.unsafeOlder (s : State) : Bool := s.inLanes.any (fun e => !e.safe)

/-- Log the old value of a front register when an older VIQ word is not fault-safe (03 R60). -/
def State.log (reg : FrontReg) (old : Word) (s : State) : State :=
  if s.unsafeOlder then
    s.onFr fun f => { f with hist := f.hist ++ [{ reg := reg, old := old, flags := 0, seq := f.seq }] }
  else s

/-- Write scalar register r: writes to s0 are discarded; in lane mode the lane's element of v[r] is written; at the
front the old value is logged (03 R57, R60; 04 R96). -/
def State.wr (r : RegNo) (x : Word) (s : State) : State :=
  if r = 0 then s
  else match s.th.fr.curLane with
    | some j => s.onLn fun l => { l with v := vecSet l.v r.toNat (setElem (vecGet l.v r.toNat 0) 64 j x.toNat) }
    | none =>
      (s.log (.s r) (vecGet s.th.fr.s r.toNat 0)).onFr fun f => { f with s := vecSet f.s r.toNat x }

/-- A VIQ word with sequence number q writes s[r], as the front would have at its place: logged when an older VIQ word is not
fault-safe (05 R127; 11 R309, R318, R321). -/
def State.wrWord (q : Nat) (r : RegNo) (x : Word) (s : State) : State :=
  if r = 0 then s
  else
    let h : HistEntry := { reg := .s r, old := vecGet s.th.fr.s r.toNat 0, flags := 0, seq := q - 1 }
    s.onFr fun f =>
      { f with s := vecSet f.s r.toNat x
               hist := if f.viq.any fun e => e.seq < q && !e.safe then f.hist ++ [h] else f.hist }

/-- OR flags into vxflags at once, or hold them pending in a history entry (03 R60; 06 R150). -/
def State.raiseFlags (fl : BitVec 6) (s : State) : State :=
  if fl = 0 then s
  else if s.unsafeOlder && s.th.fr.curLane.isNone then
    s.onFr fun f => { f with hist := f.hist ++ [{ reg := .flagsOnly, old := 0, flags := fl, seq := f.seq }] }
  else s.onLn fun l => { l with flags := l.flags ||| fl }

/-- Index a pair of loop registers by set number. -/
def setIx (n : Bool) : Nat := if n then 1 else 0

/-- Put a front register back to a logged value (03 R64). -/
def Front.restore (f : Front) (h : HistEntry) : Front :=
  match h.reg with
  | .s n => { f with s := vecSet f.s n.toNat h.old }
  | .zs n => { f with regs := { f.regs with zs := vecSet f.regs.zs (setIx n) h.old } }
  | .ze n => { f with regs := { f.regs with ze := vecSet f.regs.ze (setIx n) h.old } }
  | .zc n => { f with regs := { f.regs with zc := vecSet f.regs.zc (setIx n) h.old } }
  | .sbase => { f with regs := { f.regs with sbase := h.old } }
  | .smbc => { f with regs := { f.regs with smbc := h.old } }
  | .dline => { f with regs := { f.regs with dline := h.old } }
  | .ptag => { f with regs := { f.regs with ptag := h.old } }
  | .smplcfg => { f with regs := { f.regs with smplcfg := h.old } }
  | .trccfg => { f with regs := { f.regs with trccfg := h.old } }
  | .next => { f with regs := { f.regs with next := h.old.setWidth 24 } }
  | .vlCopy => { f with copy := { f.copy with vl := h.old.toNat } }
  | .traps => { f with copy := { f.copy with traps := h.old.setWidth 6 } }
  | .mcfg => { f with copy := { f.copy with mcfg := h.old.setWidth 7, kmax := bitsOf h.old 47 32 } }
  | .tmCopy => { f with copy := { f.copy with tm := h.old.toNat } }
  | .stride => { f with copy := { f.copy with stride := h.old } }
  | .chunk => { f with copy := { f.copy with chunk := h.old } }
  | .flagsOnly => f

/-! ### Memory -/

/-- What an unlisted address reads as: zero, as the zeroing write of boot step 4 and R168 leave it (DEDUCED, log 2). -/
def blank : Byte := 0

/-- The byte at a cell address. -/
def memGet : Memory → Nat → Byte
  | [], _ => blank
  | (k, b) :: m, a => if a = k then b else if a < k then blank else memGet m a

/-- Memory with the byte at a cell address replaced, in canonical form. -/
def memSet : Memory → Nat → Byte → Memory
  | [], a, b => if b = blank then [] else [(a, b)]
  | (k, c) :: m, a, b =>
    if a < k then (if b = blank then (k, c) :: m else (a, b) :: (k, c) :: m)
    else if a = k then (if b = blank then m else (a, b) :: m)
    else (k, c) :: memSet m a b

/-- The canonical form: addresses strictly rising, no entry blank. -/
def Memory.wf (m : Memory) : Bool :=
  match m with
  | [] => true
  | [(_, b)] => b != blank
  | (k, b) :: (k', b') :: t => b != blank && k < k' && Memory.wf ((k', b') :: t)

/-- n bytes of memory from a cell address. -/
def memBytes (m : Memory) (a : Nat) : Nat → List Byte
  | 0 => []
  | n + 1 => memGet m a :: memBytes m (a + 1) n

/-- Memory with consecutive bytes written. -/
def memPut (m : Memory) (a : Nat) : List Byte → Memory
  | [] => m
  | b :: bs => memPut (memSet m a b) (a + 1) bs

/-- Where a physical address leads (01 R10, Table 1.2; 07 R167; 10 R282; 14 R403). -/
inductive Target where
  | cell (a : Nat) | sync (die n off : Nat) | hub (a : Nat) | nowhere
  deriving DecidableEq, Repr

/-- The run of ways a context holds on a die: first way and count; a thread whose context has no record uses its bind
record (01 R12). -/
def State.waysOf (s : State) (ctx die : Nat) : Nat × Nat :=
  match s.ctxs.find? (fun c => c.id = ctx) with
  | some c => (c.runs.find? (fun r => r.1 = die)).elim (0, 0) (·.2)
  | none => if s.th.bind.ctx = ctx ∧ s.th.bind.die = die then (0, s.th.bind.sways) else (0, 0)

/-- Bytes of shared store in one way of a die (07 R167). -/
def wayBytes : Nat := 384 * 56 * 256

/-- The cell of shared-store offset o of a die in the ways that begin at `first` (07 R167; DEDUCED, log 9). -/
def sharedCell (die first o : Nat) : Nat :=
  let l := o / 256
  2 ^ 44 + (((die * 56 + l % 56) * 16 + first + l / 56 / 384) * 384 + l / 56 % 384) * 256 + o % 256

/-- Whether a deferred write buffer of the context holds a shared-store byte of a die (11 R307). -/
def State.inBuffer (s : State) (ctx die o : Nat) : Bool :=
  s.windows.any fun w => w.ctx = ctx && w.die = die && w.bufAt ≤ o && o < w.bufAt + 16 * w.cap

/-- A format window that is enabled on a die: P, SCE, and the four bases in bytes (07 R172, Table 7.3). -/
structure WindowView where
  p : Nat
  sce : Nat
  dbase : Nat
  dsize : Nat
  pbase : Nat
  sbase : Nat
  deriving DecidableEq, Repr

/-- Read the fields of a window (07 Table 7.3). -/
def FormatWindow.view (w : FormatWindow) : Option WindowView :=
  match w.words with
  | [w0, w1, w2, w3] =>
    if w0.toNat.testBit 63 then
      some { p := bitsOf w0 62 59, sce := bitsOf w0 58 58, dbase := bitsOf w0 31 0 * 4096,
             dsize := bitsOf w1 31 0 * 4096, pbase := bitsOf w2 31 0 * 4096, sbase := bitsOf w3 31 0 * 4096 }
    else none
  | _ => none

/-- How an HBM address meets the format windows (07 R172, R173). -/
inductive ViewHit where
  | plain | data (v : WindowView) (o : Nat) | scale (v : WindowView) (o : Nat) | packed
  deriving DecidableEq, Repr

/-- Find the window a physical address lies in (07 R172). -/
def viewHit (pa : Nat) : List FormatWindow → ViewHit
  | [] => .plain
  | w :: ws =>
    match w.view with
    | none => viewHit pa ws
    | some v =>
      if v.dbase ≤ pa ∧ pa < v.dbase + v.dsize then .data v (pa - v.dbase)
      else if v.sce = 1 ∧ v.sbase ≤ pa ∧ pa < v.sbase + v.dsize / 32 then .scale v (pa - v.sbase)
      else if v.pbase ≤ pa ∧ pa < v.pbase + v.dsize / 32 * (4 * v.p + v.sce) then .packed
      else viewHit pa ws

/-- Resolve a physical address for a context; the packed storage of an enabled format window is no place to access
(01 R10; 07 R167, R173; 11 R307; 14 R403, R419). -/
def State.target (s : State) (ctx pa : Nat) : Target :=
  if pa < 2 ^ 40 then
    if pa % 2 ^ 38 < 2 ^ 37 ∧ viewHit pa s.unc.fmtWins ≠ .packed then .cell pa else .nowhere
  else if pa < 2 ^ 40 + 2 ^ 34 then
    let die := (pa - 2 ^ 40) / 2 ^ 32
    let o := (pa - 2 ^ 40) % 2 ^ 32
    if o < 0x08000000 then
      let r := s.waysOf ctx die
      if o < r.2 * wayBytes ∧ !s.dev.badCores.contains (die * 56 + o / 256 % 56) ∧ !s.inBuffer ctx die o then .cell (sharedCell die r.1 o)
      else .nowhere
    else if o < 0x08001000 then .sync die ((o - 0x08000000) / 8) (o % 8)
    else .nowhere
  else if 0xF0000000000 ≤ pa ∧ pa < 2 ^ 44 then .hub pa
  else .nowhere

/-- The byte a load at a cell address returns, through a format window's views (07 R173). -/
def State.byteAt (s : State) (a : Nat) : Byte :=
  match viewHit a s.unc.fmtWins with
  | .plain | .packed => memGet s.mem a
  | .data v o =>
    let at_ := v.pbase + o / 32 * (4 * v.p + v.sce)
    BitVec.ofNat 8 (leNat (memBytes s.mem (at_ + o % 32 * v.p / 8) 2) / 2 ^ (o % 32 * v.p % 8) % 2 ^ v.p)
  | .scale v o => memGet s.mem (v.pbase + o * (4 * v.p + 1) + 4 * v.p)

/-- Write one byte at a cell address, through a format window's views: a data line replaces the code by the low P bits of
the byte (07 R173). -/
def State.putByte (a : Nat) (b : Byte) (s : State) : State :=
  match viewHit a s.unc.fmtWins with
  | .plain | .packed => { s with mem := memSet s.mem a b }
  | .data v o =>
    let at_ := v.pbase + o / 32 * (4 * v.p + v.sce) + o % 32 * v.p / 8
    let sh := o % 32 * v.p % 8
    let old := leNat (memBytes s.mem at_ 2)
    let new := old - old / 2 ^ sh % 2 ^ v.p * 2 ^ sh + b.toNat % 2 ^ v.p * 2 ^ sh
    { s with mem := memPut s.mem at_ (leBytes 2 new) }
  | .scale v o => { s with mem := memSet s.mem (v.pbase + o * (4 * v.p + 1) + 4 * v.p) b }

/-- n bytes as a load at a cell address returns them. -/
def State.bytesAt (s : State) (a : Nat) : Nat → List Byte
  | 0 => []
  | n + 1 => s.byteAt a :: s.bytesAt (a + 1) n

/-- Write consecutive bytes at a cell address. -/
def State.putBytes (a : Nat) : List Byte → State → State
  | [], s => s
  | b :: bs, s => State.putBytes (a + 1) bs (s.putByte a b)

/-- The cells that hold the data of a cell address: itself, or the packed bytes behind a view (07 R173, R192). -/
def State.dataCells (s : State) (a : Nat) : List Nat :=
  match viewHit a s.unc.fmtWins with
  | .plain | .packed => [a]
  | .data v o =>
    let at_ := v.pbase + o / 32 * (4 * v.p + v.sce) + o % 32 * v.p / 8
    [at_, at_ + (o % 32 * v.p % 8 + v.p - 1) / 8]
  | .scale v o => [v.pbase + o * (4 * v.p + 1) + 4 * v.p]

/-! ### Memory encryption -/

/-- The pair that the key store holds at an index, none for plaintext (14 R413). -/
def State.pairAt (s : State) (key : Nat) : Option (BitVec 512) :=
  if key = 0 then none else (s.dev.keys.find? fun k => k.1 = key).map (·.2)

/-- The pair a line is encrypted under, none for plaintext (00 R3). -/
def State.linePair (s : State) (line : Nat) : Option (BitVec 512) := (s.lineKeys.find? fun x => x.1 = line).map (·.2)

/-- What a line that reads as some bytes under a key pair reads as under another, none standing for plaintext (00 R3; 14 R413). -/
def underPair (line : Nat) (old new : Option (BitVec 512)) (bs : List Byte) : List Byte :=
  let stored := match old with | none => bs | some k => xtsUnit true k (256 * line) bs
  match new with | none => stored | some k => xtsUnit false k (256 * line) stored

/-- Lines of HBM take a key pair, or plaintext (00 R3). -/
def State.setPairs (lines : List Nat) (pair : Option (BitVec 512)) (s : State) : State :=
  let mine := match pair with | none => [] | some k => lines.map fun l => (l, k)
  { s with lineKeys := mine ++ s.lineKeys.filter fun x => !lines.contains x.1 }

/-- A line of HBM seen under a key index: what memory holds of it stays, and its bytes are what that decrypts to. Shared store is never
encrypted (00 R3; 07 R167; 14 R408, R413). -/
def State.keyLine (key line : Nat) (s : State) : State :=
  if s.linePair line = s.pairAt key ∨ 2 ^ 32 ≤ line then s
  else
    let bs := underPair line (s.linePair line) (s.pairAt key) (memBytes s.mem (256 * line) 256)
    ({ s with mem := memPut s.mem (256 * line) bs }).setPairs [line] (s.pairAt key)

/-- The lines that hold the data of n bytes from a cell address, seen under a key index (00 R3; 07 R173). (DESIGN CHOICE, log 70.) -/
def State.keyed (key a n : Nat) (s : State) : State :=
  let ls := (s.dataCells a ++ s.dataCells (a + (n - 1))).map (· / 256)
  let lo := ls.foldl min (ls.headD 0)
  (List.range (ls.foldl max lo + 1 - lo)).foldl (fun t k => t.keyLine key (lo + k)) s

/-- A page of 64 KiB whose every byte is written under a key index (00 R3; 13 R401). -/
def State.pageUnder (key base : Nat) (s : State) : State :=
  s.setPairs ((List.range 256).map fun k => base / 256 + k) (s.pairAt key)

/-- Whether a granule that holds the data of a cell address is poisoned (07 R192). -/
def State.poisoned (s : State) (a : Nat) : Bool := (s.dataCells a).any fun c => s.poison.contains (c / 32)

/-- Whether a line of cells, numbered by its address over 256, holds a poisoned byte (07 R192, R202). -/
def State.linePoisoned (s : State) (line : Nat) : Bool := (List.range 256).any fun k => s.poisoned (256 * line + k)

/-- The die an HBM or shared-store cell belongs to (01 R10; DEDUCED, log 9). -/
def cellDie (a : Nat) : Nat := if a < 2 ^ 44 then a / 2 ^ 38 % 4 else (a - 2 ^ 44) / (56 * 16 * 384 * 256) % 4

/-- What a store does to the poison mark of one granule: a full write clears it, a part counts in poison-merge
(07 R192). -/
def State.healGranule (lo n g : Nat) (s : State) : State :=
  if s.poison.contains g then
    if lo ≤ 32 * g ∧ 32 * g + 32 ≤ lo + n then { s with poison := s.poison.filter (· ≠ g) }
    else s.onUnc fun u => { u with merges := vecSet u.merges (cellDie (32 * g)) (vecGet u.merges (cellDie (32 * g)) 0 + 1) }
  else s

/-! ### The L2 and the banks behind it -/

/-- The place of an HBM byte: die, stack, bank and row (07 R194). -/
def bankOf (pa : Nat) : Nat × Nat × Nat × Nat :=
  let o := pa % 2 ^ 38
  (pa / 2 ^ 38 % 4, o / 2 ^ 12 % 2, o / 2 ^ 13 % 1024, o / 2 ^ 23 % 2 ^ 14)

/-- What is recorded of a bank; a bank not listed owes nothing and has no open row. -/
def State.bankAt (s : State) (die stack bank : Nat) : Bank :=
  (s.unc.banks.find? fun b => b.die = die ∧ b.stack = stack ∧ b.bank = bank).getD
    { die := die, stack := stack, bank := bank, owed := 0, row := none }

/-- Record a bank. -/
def State.setBank (b : Bank) (s : State) : State :=
  s.onUnc fun u => { u with
    banks := b :: u.banks.filter fun x => ¬ (x.die = b.die ∧ x.stack = b.stack ∧ x.bank = b.bank) }

/-- An access reaches a bank: one that owes nine refreshes triggers the forced refresh of its stack, which pays what every bank
of it owes; the access leaves its row open (07 R193, R194). -/
def State.hbmAccess (pa : Nat) (s : State) : State :=
  let p := bankOf pa
  let forced := 9 ≤ (s.bankAt p.1 p.2.1 p.2.2.1).owed
  let s1 :=
    if forced then
      s.onUnc fun u => { u with
        forced := vecSet u.forced (2 * p.1 + p.2.1) (vecGet u.forced (2 * p.1 + p.2.1) 0 + 1)
        banks := u.banks.map fun b => if b.die = p.1 ∧ b.stack = p.2.1 then { b with owed := 0, row := none } else b }
    else s
  s1.setBank { s1.bankAt p.1 p.2.1 p.2.2.1 with row := some p.2.2.2 }

/-- The L2 ways of a die: those no context holds (07 R168; 01 R12). -/
def State.l2Ways (s : State) (die : Nat) : List Nat :=
  (List.range 16).filter fun w =>
    !(s.ctxs.any fun c => c.runs.any fun r => r.1 = die && r.2.1 ≤ w && w < r.2.1 + r.2.2)

/-- The schedule pointer of a resident number on a die (07 R170). -/
def State.schedPtr (s : State) (die res : Nat) : Nat :=
  ((s.ctxs.find? fun c => c.res = res).bind fun c => c.sched.find? fun x => x.1 = die).elim 0 (·.2)

/-- Whether a cut-list entry is active and covers a line (07 R170, Table 7.2). -/
def State.cutCovers (s : State) (die line : Nat) (c : CutEntry) : Bool :=
  let f := field c.bits
  let p := s.schedPtr die (f 121 3)
  c.die = die && f 120 1 = 1 && f 85 16 ≤ p && p < f 101 16 && f 0 36 ≤ line && line ≤ f 36 36

/-- The class of a line: that of the lowest-numbered active entry that covers it, else 0 (07 R170). -/
def State.lineClass (s : State) (die line : Nat) : Nat :=
  let cs := s.unc.cuts.filter fun c => s.cutCovers die line c
  let low := cs.foldl (fun (a : Option CutEntry) c => match a with | none => some c | some b => if c.index < b.index then some c else a) none
  low.elim 0 fun c => field c.bits 117 3

/-- The victim way of a fill: an invalid way first, else the lowest class, ties to the lowest way (07 R170). -/
def State.victimWay (s : State) (die slice set : Nat) : Option Nat :=
  let ways := s.l2Ways die
  let held := fun (w : Nat) => s.unc.l2.find? fun x => x.die = die ∧ x.slice = slice ∧ x.set = set ∧ x.way = w
  let rank : Nat → Nat := fun w => match held w with | none => 0 | some x => 1 + s.lineClass die x.line
  ways.foldl (fun a w => match a with | none => some w | some v => if decide ((rank w : Nat) < rank v) then some w else a) none

/-- Fill a line: the read reaches its bank, and where the die has L2 ways the victim leaves, written back when it is dirty
(07 R168, R170). (DESIGN CHOICE, log 54.) -/
def State.l2Fill (pa : Nat) (s : State) : State :=
  let line := pa / 256
  let die := pa / 2 ^ 38 % 4
  let l := pa % 2 ^ 38 / 256
  let slice := l % 56
  let set := l / 56 % 384
  if 2 ^ 40 ≤ pa || 2 ^ 37 ≤ pa % 2 ^ 38 || s.unc.l2.any fun x => x.line = line then s
  else
    let s1 := s.hbmAccess pa
    match s1.victimWay die slice set with
    | none => s1
    | some w =>
      let old := s1.unc.l2.find? fun x => x.die = die ∧ x.slice = slice ∧ x.set = set ∧ x.way = w
      let s2 := match old with
        | some x => if x.dirty then s1.hbmAccess (256 * x.line) else s1
        | none => s1
      let new : L2Line := { die := die, slice := slice, set := set, way := w, line := line, dirty := false }
      s2.onUnc fun u => { u with
        l2 := new :: u.l2.filter fun x => ¬ (x.die = die ∧ x.slice = slice ∧ x.set = set ∧ x.way = w) }

/-- A line of HBM is touched by an access that finds it in the L2, fills it, or with the streaming hint reads or writes around a
miss (07 R168). -/
def State.l2Touch (stream : Bool) (a : Nat) (s : State) : State :=
  if stream then (if 2 ^ 40 ≤ a || s.unc.l2.any fun x => x.line = a / 256 then s else s.hbmAccess a) else s.l2Fill a

/-- The lines of n bytes from a cell address are touched (07 R168). -/
def State.l2Span (stream : Bool) (a n : Nat) (s : State) : State :=
  forUpTo ((a + n - 1) / 256 - a / 256 + 1) (fun i t => t.l2Touch stream (256 * (a / 256 + i))) s

/-- A read of n bytes at a cell address goes through the L2 (07 R168). -/
def State.l2Read (stream : Bool) (a n : Nat) (s : State) : State := if n = 0 then s else s.l2Span stream a n

/-- A committed write of n bytes at a cell address goes through the L2, and the lines that hold them become dirty (07 R168). -/
def State.l2Write (stream : Bool) (a n : Nat) (s : State) : State :=
  (s.l2Span stream a n).onUnc fun u => { u with
    l2 := u.l2.map fun x => if a / 256 ≤ x.line ∧ x.line ≤ (a + n - 1) / 256 then { x with dirty := true } else x }

/-- What a store does to the poison marks of the granules that hold its data; through a view it writes a part of each (07 R192;
DESIGN CHOICE, log 55). -/
def State.heal (a n : Nat) (s : State) : State :=
  match viewHit a s.unc.fmtWins with
  | .plain | .packed => forUpTo ((a + n - 1) / 32 - a / 32 + 1) (fun i t => t.healGranule a n (a / 32 + i)) s
  | _ =>
    (((List.range n).flatMap fun i => (s.dataCells (a + i)).map (· / 32)).eraseDups).foldl (fun t g => t.healGranule (32 * g) 1 g) s

/-- Perform a store of bytes at a cell address at its home, with the streaming hint or without (07 R168, R178, R192). -/
def State.performAs (stream : Bool) (a : Nat) (bs : List Byte) (s : State) : State :=
  if bs.isEmpty then s else (((s.l2Write stream a bs.length).heal a bs.length).putBytes a bs)

/-- Perform a store of bytes at a cell address at its home (07 R168, R178, R192). -/
def State.perform (a : Nat) (bs : List Byte) (s : State) : State := s.performAs false a bs

/-! ### Round-robin structures -/

/-- The next way of a round-robin structure, and the pointer after it (03 R58; 07 R177). -/
def rrTake (what core cluster set ways : Nat) (rs : List RoundRobin) : Nat × List RoundRobin :=
  let here := fun (r : RoundRobin) => r.what = what ∧ r.core = core ∧ r.cluster = cluster ∧ r.set = set
  let w := (rs.find? (fun r => here r)).elim 0 (·.next)
  (w, { what := what, core := core, cluster := cluster, set := set, next := (w + 1) % ways } ::
        rs.filter (fun r => ¬ here r))

/-- Fill a line of a core's cache, replacing the set's ways in round-robin order (03 R58). -/
def cacheFill (what ways sets core ctx line : Nat) (data : List Byte) (rs : List RoundRobin) (cs : List CacheLine) :
    List CacheLine × List RoundRobin :=
  let set := line % sets
  let r := rrTake what core 0 set ways rs
  ({ core := core, set := set, way := r.1, ctx := ctx, line := line, data := data } ::
     cs.filter (fun c => ¬ (c.core = core ∧ c.set = set ∧ c.way = r.1)), r.2)

/-- The line of a core's cache that a context hits (01 R15; 03 R58). -/
def cacheFind (core ctx line : Nat) (cs : List CacheLine) : Option CacheLine :=
  cs.find? fun c => c.core = core ∧ c.ctx = ctx ∧ c.line = line

/-- A cached line's bytes with consecutive bytes written over them. -/
def CacheLine.over (c : CacheLine) (a : Nat) (bs : List Byte) : CacheLine :=
  { c with data := c.data.mapIdx fun i old =>
      let p := c.line * 256 + i
      if a ≤ p then (bs[p - a]?).getD old else old }

/-- Lines of the thread's context in a core's scalar data cache take a store's bytes where they hold them (01 R15; 03 R58; 07 R183). -/
def State.dcacheStore (core a : Nat) (bs : List Byte) (s : State) : State :=
  s.onUnc fun u => { u with dcache := u.dcache.map fun c => if c.core = core ∧ c.ctx = s.th.bind.ctx then c.over a bs else c }

/-- An acquire of scope core or wider clears the context's lines in the core's data cache (03 R58; 07 R182). -/
def State.clearDcache (s : State) : State :=
  s.onUnc fun u => { u with
    dcache := u.dcache.filter fun c => ¬ (c.core = s.th.bind.coreNo ∧ c.ctx = s.th.bind.ctx) }

/-- The cache effect of an acquire of a scope (0 thread, 1 core, 2 die, 3 package, 4 pod) (07 R182). -/
def State.acquire (scope : Nat) (s : State) : State := if 1 ≤ scope then s.clearDcache else s

/-! ### Translation -/

/-- What a walk needs of a context (07 R176; 13 R399). -/
structure Walker where
  ctx : Nat
  key : Nat
  conf : Bool
  ptroot : Nat
  deriving DecidableEq, Repr

/-- The current thread's walker, from its bind record (13 R398). -/
def State.walker (s : State) : Walker :=
  { ctx := s.th.bind.ctx, key := s.th.bind.key, conf := s.th.bind.conf, ptroot := s.th.bind.ptroot }

/-- A page as a leaf gives it: physical base, size exponent, kind, key and permissions (07 R174, R175). -/
structure Page where
  base : Nat
  log : Nat
  kind : Nat
  key : Nat
  r : Bool
  w : Bool
  x : Bool
  d : Bool
  pte : Nat
  deriving DecidableEq, Repr

/-- A virtual address is canonical when bits [63:55] equal bit 54 (07 R174). -/
def canonical (va : Word) : Bool := va = (va.setWidth 55).signExtend 64

/-- The entry of a node, or MachineCheck when the node is unpopulated or the entry poisoned (07 R192; 01 R10). -/
def State.readPte (s : State) (node idx : Nat) : Except ExcCause Word :=
  match s.target 0 (node + 8 * idx) with
  | .cell a =>
    if s.poisoned a then .error .machineCheck else .ok (word (leNat (memBytes s.mem a 8)))
  | _ => .error .machineCheck

/-- The checks of R176 on any entry a walk reads: valid, no reserved bit. -/
def pteOk (e : Word) : Bool := bitsOf e 0 0 = 1 && bitsOf e 53 44 = 0 && bitsOf e 15 9 = 0

/-- Read a leaf's fields (07 Table 7.4). -/
def pageOf (e : Word) (log pte : Nat) : Page :=
  { base := bitsOf e 43 16 * 65536, log := log, kind := bitsOf e 6 5, key := bitsOf e 63 54, r := bitsOf e 1 1 = 1,
    w := bitsOf e 2 2 = 1, x := bitsOf e 3 3 = 1, d := bitsOf e 8 8 = 1, pte := pte }

/-- Walk the page table for a virtual address (07 R174, R176); KEY, permission and DS checks come after. -/
def State.walk (s : State) (k : Walker) (va : Word) : Except ExcCause Page := do
  if !canonical va then throw .pageFault
  let e2 ← s.readPte k.ptroot (bitsOf va 54 42)
  if !pteOk e2 || bitsOf e2 4 4 = 1 then throw .pageFault
  let n1 := bitsOf e2 43 16 * 65536
  let e1 ← s.readPte n1 (bitsOf va 41 29)
  if !pteOk e1 then throw .pageFault
  if bitsOf e1 4 4 = 1 then
    if bitsOf e1 28 16 ≠ 0 then throw .pageFault
    return pageOf e1 29 (n1 + 8 * bitsOf va 41 29)
  let n0 := bitsOf e1 43 16 * 65536
  let e0 ← s.readPte n0 (bitsOf va 28 16)
  if !pteOk e0 || bitsOf e0 4 4 = 0 then throw .pageFault
  return pageOf e0 16 (n0 + 8 * bitsOf va 28 16)

/-- The page-table entries that a walk has read go through the L2 (07 R168, R177). -/
def State.walkReads (k : Walker) (va : Word) (s : State) : State :=
  let n2 := k.ptroot + 8 * bitsOf va 54 42
  let e2 := word (leNat (memBytes s.mem n2 8))
  let n1 := bitsOf e2 43 16 * 65536 + 8 * bitsOf va 41 29
  let e1 := word (leNat (memBytes s.mem n1 8))
  let t := (s.l2Read false n2 8).l2Read false n1 8
  if bitsOf e1 4 4 = 1 then t else t.l2Read false (bitsOf e1 43 16 * 65536 + 8 * bitsOf va 28 16) 8

/-- The permission an access needs (07 R176). -/
def Page.permits (p : Page) : Access → Bool
  | .read => p.r
  | .write => p.w
  | .exec => p.x

/-- Whether a physical base lies in shared store (07 R167). -/
def inShared (pa : Nat) : Bool := 2 ^ 40 ≤ pa && pa < 2 ^ 40 + 2 ^ 34

/-- Whether a page overlaps a view of an enabled format window (07 R176). -/
def State.inView (s : State) (base size : Nat) : Bool :=
  s.unc.fmtWins.any fun w =>
    match w.view with
    | none => false
    | some v => (v.dbase < base + size && base < v.dbase + v.dsize) ||
        (v.sce = 1 && v.sbase < base + size && base < v.sbase + v.dsize / 32)

/-- The leaf checks of R176: W needs R, the permission, DS only on plain HBM, the KEY rules. -/
def State.leafOk (s : State) (k : Walker) (p : Page) (acc : Access) : Bool :=
  !(p.w && !p.r) && p.permits acc
    && !(p.kind = 3 && (inShared p.base || s.inView p.base (2 ^ p.log)))
    && (p.key = k.key || p.key = 0) && !(p.key = 0 && k.conf)

/-- Set A, and on a write D, in the leaf a walk used (07 R176). -/
def State.markPte (p : Page) (acc : Access) (s : State) : State :=
  let old := leNat (memBytes s.mem p.pte 8)
  let new := old ||| 2 ^ 7 ||| (if acc = .write then 2 ^ 8 else 0)
  { s with mem := memPut s.mem p.pte (leBytes 8 new) }

/-- The TLB entry that maps an address, of a core's cluster (07 R177). -/
def State.tlbFind (s : State) (core cluster ctx : Nat) (va : Word) : Option TlbEntry :=
  s.unc.tlb.find? fun e => e.core = core ∧ e.cluster = cluster ∧ e.ctx = ctx ∧
    e.vpn = (if e.big then bitsOf va 54 29 else bitsOf va 54 16)

/-- Fill a TLB with a page, replacing the next way in round-robin order; an older entry of the page gives way
(07 R177). -/
def State.tlbFill (core cluster : Nat) (k : Walker) (va : Word) (p : Page) (d : Bool) (s : State) : State :=
  let big := p.log = 29
  let vpn := if big then bitsOf va 54 29 else bitsOf va 54 16
  let set := if big then 64 else vpn % 64
  let t := s.unc.tlb.filter fun e => ¬ (e.core = core ∧ e.cluster = cluster ∧ e.ctx = k.ctx ∧ e.big = big ∧ e.vpn = vpn)
  let r := rrTake 2 core cluster set (if big then 32 else 4) s.unc.rr
  let e : TlbEntry := { core := core, cluster := cluster, big := big, set := set, way := r.1, ctx := k.ctx, vpn := vpn, pa := p.base, kind := p.kind, key := p.key, r := p.r, w := p.w, x := p.x, d := d }
  s.onUnc fun u => { u with
    tlb := e :: t.filter fun x => ¬ (x.core = core ∧ x.cluster = cluster ∧ x.set = set ∧ x.way = r.1), rr := r.2 }

/-- A walk that fills a TLB: every check of R176, then A and D, then the entry (07 R176, R177). -/
def State.walkFill (s : State) (core cluster : Nat) (k : Walker) (va : Word) (acc : Access) :
    Except ExcCause (State × Page) :=
  match s.walk k va with
  | .error c => .error c
  | .ok p =>
    if s.leafOk k p acc then
      .ok (((s.walkReads k va).markPte p acc).tlbFill core cluster k va p (p.d || acc = .write), p)
    else .error .pageFault

/-- A translated access: the state after any walk, the physical address, and the page kind. -/
structure Xlate where
  st : State
  pa : Nat
  kind : Nat

/-- The line of an access seen under the KEY of the page it was translated through, as far as 64 bytes of that page go (07 R175; 00 R3). -/
def State.reach (key pa : Nat) (s : State) : State := s.keyed key pa (min 64 (65536 - pa % 65536))

/-- Translate an access: a TLB hit that permits it, or a walk; a write that hits an entry filled with D = 0 is a miss and walks
again (07 R177). What it reaches is seen under the page's KEY. -/
def State.translate (s : State) (core cluster : Nat) (k : Walker) (va : Word) (acc : Access) : Except ExcCause Xlate :=
  if !canonical va then .error .pageFault
  else
    match (s.tlbFind core cluster k.ctx va).filter fun e => acc ≠ .write || e.d with
    | some e =>
      if (match acc with | .read => e.r | .write => e.w | .exec => e.x) then
        let pa := e.pa + va.toNat % (if e.big then 2 ^ 29 else 2 ^ 16)
        .ok { st := s.reach e.key pa, pa := pa, kind := e.kind }
      else .error .pageFault
    | none =>
      match s.walkFill core cluster k va acc with
      | .error c => .error c
      | .ok (s', p) => .ok { st := s'.reach p.key (p.base + va.toNat % 2 ^ p.log), pa := p.base + va.toNat % 2 ^ p.log, kind := p.kind }

/-- Translate an access of the current thread through one of its clusters (07 R177). -/
def State.xlate (s : State) (cluster : Nat) (va : Word) (acc : Access) : Except ExcCause Xlate :=
  s.translate s.th.bind.coreNo (s.th.bind.slot + cluster) s.walker va acc

/-- The physical address and the kind of the page of an address, whatever its permission and KEY say; none where no page is mapped
(07 R179, R205). -/
def State.pageSeen (s : State) (cluster : Nat) (va : Word) : Option (Nat × Nat) :=
  match s.tlbFind s.th.bind.coreNo (s.th.bind.slot + cluster) s.th.bind.ctx va with
  | some e => if canonical va then some (e.pa + va.toNat % (if e.big then 2 ^ 29 else 2 ^ 16), e.kind) else none
  | none => match s.walk s.walker va with | .ok p => some (p.base + va.toNat % 2 ^ p.log, p.kind) | .error _ => none

/-- The kind of the page of an address (07 R179, R205). -/
def State.pageKind (s : State) (cluster : Nat) (va : Word) : Option Nat := (s.pageSeen cluster va).map (·.2)

/-! ### Windows and deferred writes -/

/-- The active window of a context that holds a physical address of a DS page (11 R307, R308). -/
def State.windowAt (s : State) (ctx pa : Nat) : Option Window :=
  s.windows.find? fun w => w.ctx = ctx ∧ w.freeing.isNone ∧ w.pages.any fun p => p ≤ pa ∧ pa < p + 65536

/-- The byte offset of a physical address in a window (11 R308). -/
def Window.offsetOf (w : Window) (pa : Nat) : Nat :=
  (w.pages.findIdx fun p => p ≤ pa ∧ pa < p + 65536) * 65536 + pa % 65536

/-- Bytes of a window's element (11 Table 11.1). -/
def Window.elemBytes (w : Window) : Nat := ((EType.ofCode w.ety).map EType.fixedBits).getD 8 / 8

/-- Whether Skew has ended a context's supersteps (11 R322). -/
def State.ctxSkewed (s : State) (ctx : Nat) : Bool := s.whistles.any fun w => w.ctx = ctx && w.skewed

/-- Whether Skew has ended the supersteps of the thread's context (11 R322). -/
def State.skewed (s : State) : Bool := s.ctxSkewed s.th.bind.ctx

/-- PEND: a stepq of the thread has arrived and is not yet released (11 R321). -/
def State.pending (s : State) : Bool := s.th.fab.queued && s.th.fab.arrived && !s.th.fab.released

/-- Enter one deferred write, or mark the window overflowed; the marks that its acknowledgement carries are overflow and conflict
(11 R308, R311). -/
def Window.enter (w : Window) (e : DefEntry) : Window × Bool × Bool :=
  if w.cap ≤ w.entries.length then ({ w with overflowed := true }, true, false)
  else
    let c := w.rule = 6 && w.entries.any fun x => x.elem = e.elem && x.source ≠ e.source
    ({ w with entries := w.entries ++ [e], conflicted := w.conflicted || c }, false, c)

/-- Enter a write in a window of this package; once Skew has ended the supersteps no entry is taken (11 R311, R322). -/
def State.enterWrite (w : Window) (e : DefEntry) (s : State) : State × Bool × Bool :=
  if s.ctxSkewed w.ctx then (s, false, false)
  else
    let r := w.enter e
    ({ s with windows := s.windows.map fun x => if x.ctx = w.ctx ∧ x.handle = w.handle then r.1 else x }, r.2)

/-- Enter a write of the current thread to a DS page of its own package; the marks return to the writer (11 R308, R311). -/
def State.dsWrite (order pa : Nat) (bs : List Byte) (s : State) : State :=
  match s.windowAt s.th.bind.ctx pa with
  | none => s
  | some w =>
    let r := s.enterWrite w
      { elem := w.offsetOf pa / w.elemBytes, data := word (leNat bs), source := (s.dev.rank, s.th.bind.place), launch := s.th.bind.launch,
        order := order }
    r.1.onFab fun f => { f with overflow := f.overflow || r.2.1, conflict := f.conflict || r.2.2 }

/-- The program-order place of element i of VIQ word `seq` (11 R308). -/
def vectorOrder (seq i : Nat) : Nat := seq * 2 ^ 41 + i

/-- The program-order place of the thread's next scalar store, after VIQ word `seq` (11 R308). -/
def State.scalarOrder (s : State) : Nat := s.th.fr.seq * 2 ^ 41 + 2 ^ 40 + s.th.fab.dsOrder

/-- Count a scalar store to a window. -/
def State.countDs (kind : Nat) (s : State) : State :=
  if kind = 3 then s.onFab fun f => { f with dsOrder := f.dsOrder + 1 } else s

/-! ### Sync registers -/

/-- The value of a home register (10 R281). -/
def State.syncGet (s : State) (die n : Nat) : Word :=
  ((s.sync.home.find? fun e => e.1 = die * 512 + n).map (·.2)).getD 0

/-- The value of a register in the sync block of a die: home or mirror (10 R283). -/
def State.syncSeen (s : State) (at_ die n : Nat) : Word :=
  if at_ = die then s.syncGet die n
  else ((s.sync.mirror.find? fun e => e.1 = at_ ∧ e.2.1 = die * 512 + n).map (·.2.2)).getD 0

/-- Apply a write at the home, and send the new value to the mirrors on the three other dies; an arrival that comes after it is of
another set (10 R283, R284). -/
def State.syncPut (die n : Nat) (v : Word) (s : State) : State :=
  let k := die * 512 + n
  { s with sync := { s.sync with
      home := (k, v) :: s.sync.home.filter (fun e => e.1 ≠ k),
      flying := s.sync.flying ++ ([0, 1, 2, 3].filter (· ≠ die)).map fun d => (d, die, k, v)
      phases := s.sync.phases.filter fun x => x.1 ≠ k } }

/-- Apply the oldest update from one home in the mirror of a die (10 R283). -/
def State.mirrorApply (at_ home : Nat) (s : State) : State :=
  match s.sync.flying.find? (fun e => e.1 = at_ ∧ e.2.1 = home) with
  | none => s
  | some e =>
    { s with sync := { s.sync with
        mirror := (at_, e.2.2.1, e.2.2.2) :: s.sync.mirror.filter (fun m => ¬ (m.1 = at_ ∧ m.2.1 = e.2.2.1)),
        flying := s.sync.flying.erase e } }

/-- Apply every mirror update in flight, in order (10 R283). -/
def State.mirrorAll (s : State) : State :=
  s.sync.flying.foldl (fun t e => t.mirrorApply e.1 e.2.1) s

/-- The context record of the current thread. -/
def State.ctxRec (s : State) : Option Ctx := s.ctxs.find? fun c => c.id = s.th.bind.ctx

/-- Whether the thread's context holds a sync-register index (10 R281). -/
def State.ownsSync (s : State) (n : Nat) : Bool :=
  match s.ctxRec with
  | some c => c.syncLo ≤ n && n < c.syncLo + c.syncN
  | none => false

/-! ### The strip store buffer -/

/-- Which entry of the hardware a record is a part of: its cluster, strip, block and target (07 R184). -/
def StripEntry.slot (e : StripEntry) : StripSlot :=
  { cluster := e.cluster, strip := e.strip, block := e.block, remote := e.remote }

/-- Entries of the open strip in a cluster (07 R184, R188). -/
def Strip.held (t : Strip) (cluster : Nat) : Nat :=
  ((t.entries.filter fun e => e.strip = t.open_ ∧ e.cluster = cluster).map StripEntry.slot).eraseDups.length

/-- Entries of a cluster in use: those that hold a write, and those whose writes are performed and not yet acknowledged
(07 R185). -/
def Strip.inUse (t : Strip) (cluster : Nat) : Nat :=
  ((t.entries.map StripEntry.slot ++ t.unacked).filter fun x => x.cluster = cluster).eraseDups.length

/-- FILL of sstat: entries of the open strip in its fullest cluster (07 Table 7.6). -/
def Strip.fill (t : Strip) : Nat := max (max (t.held 0) (t.held 1)) (max (t.held 2) (t.held 3))

/-- OPEN of sstat (07 Table 7.6). -/
def Strip.isOpen (t : Strip) : Bool := t.entries.any fun e => e.strip = t.open_

/-- Whether end finds a strip open: it holds a write, or an early commit has emptied it and left it open (04 R103; 07 R186).
(DEDUCED, log 12.) -/
def Strip.openAtEnd (t : Strip) : Bool := t.isOpen || t.unc

/-- Where one byte stands in the strip entries: the youngest write of it, with its mark of two nibbles (07 R189). -/
def stripByte (a : Nat) : List StripEntry → Option (Nat × Byte)
  | [] => none
  | e :: es =>
    match stripByte a es with
    | some (3, b) => some (3, b)
    | young =>
      if e.remote.isNone ∧ e.block = a / 64 then
        let k := a % 64
        let mk := field e.marks (2 * k) 2
        let b := BitVec.ofNat 8 (field e.data (8 * k) 8)
        match young with
        | none => if mk = 0 then none else some (mk, b)
        | some (m, y) =>
          let keep := if m = 1 then 0xF0 else 0x0F
          some (m ||| mk, (y &&& ~~~(BitVec.ofNat 8 keep)) ||| (b &&& BitVec.ofNat 8 keep))
      else young

/-- A byte with some nibbles taken from another: bit 0 of the mark the low nibble, bit 1 the high (07 R199). -/
def mixNibbles (mark : Nat) (new old : Byte) : Byte :=
  let k : Byte := (if mark % 2 = 1 then 0x0F else 0) ||| (if mark / 2 = 1 then 0xF0 else 0)
  (new &&& k) ||| (old &&& ~~~k)

/-- The bytes of the store queue that hold an address, the youngest (03 R61). -/
def queueByte (a : Nat) : List StoreEntry → Option Byte
  | [] => none
  | e :: es =>
    match queueByte a es with
    | some b => some b
    | none => if e.pa ≤ a ∧ a < e.pa + e.bytes.length then e.bytes[a - e.pa]? else none

/-- The strip entries that a load of the thread sees, in program order (07 R189; 12 R351). -/
def Strip.seen (t : Strip) : List StripEntry := t.parked ++ t.entries

/-- A byte as a vector load of the thread sees it: its strips, then memory. Queued scalar stores older than the load have left the queue
before its convoy issues (`State.storesBefore`), so those still there are younger (03 R61; 07 R183, R189). -/
def State.ownByte (s : State) (pa cell : Nat) : Byte :=
  match stripByte pa s.th.st.seen with
  | some (m, b) => mixNibbles m b (s.byteAt cell)
  | none => s.byteAt cell

/-- Whether a byte of a vector load comes from memory, so that its poison is read (07 R192). -/
def State.fromMemory (s : State) (pa : Nat) : Bool := ((stripByte pa s.th.st.seen).map (·.1)).getD 0 ≠ 3

/-- The bytes of an own load from a physical address whose cell is known. -/
def State.ownBytes (s : State) (pa cell : Nat) : Nat → List Byte
  | 0 => []
  | n + 1 => s.ownByte pa cell :: s.ownBytes (pa + 1) (cell + 1) n

/-- How a byte enters the strip store buffer: its cluster, the page kind, the nibbles, whether a release word or a word with the
streaming hint writes it, the target of a vstr, and the place in program order of a write to a window (07 R184, R168; 11 R308,
R327). -/
structure PutAs where
  cluster : Nat
  kind : Nat
  mark : Nat
  release : Bool
  stream : Bool
  remote : Option (Nat × Nat × Nat)
  order : Nat
  deriving DecidableEq, Repr

/-- The place in program order that a record keeps: that of a write to a window, 0 for every other (11 R308). -/
def PutAs.place (p : PutAs) : Nat := if p.kind = 3 ∨ p.remote.isSome then p.order else 0

/-- Whether a record holds any nibble of a byte address of this machine or of a remote window. -/
def StripEntry.marks_ (e : StripEntry) (remote : Option (Nat × Nat × Nat)) (a : Nat) : Bool :=
  e.remote = remote && e.block = a / 64 && field e.marks (2 * (a % 64)) 2 ≠ 0

/-- The index of the record that a byte merges into: the youngest of its entry, unless a younger record holds the byte, or the order
of an SO page, of a release or of a write to a window asks for a place of its own (07 R179, R182, R184, R185; 11 R308). (DEDUCED, log 50.) -/
def Strip.mergeAt (p : PutAs) (a : Nat) (t : Strip) : Option Nat :=
  let n := t.entries.length
  let k := t.entries.reverse.findIdx fun e => decide (e.slot = { cluster := p.cluster, strip := t.open_, block := a / 64, remote := p.remote })
  if n ≤ k then none
  else if (t.entries[n - 1 - k]?).any (fun e => e.order ≠ p.place) || (t.entries.drop (n - k)).any (fun e => e.marks_ p.remote a) || (0 < k && (p.kind = 1 || p.release)) then none
  else some (n - 1 - k)

/-- Write one byte's nibbles into the open strip of a cluster (07 R184, R185). -/
def Strip.putByte (p : PutAs) (a : Nat) (b : Byte) (t : Strip) : Strip :=
  let k := a % 64
  let kind := p.kind + (if p.release then 8 else 0)
  match t.mergeAt p a with
  | some i =>
    { t with entries := t.entries.modify i fun e =>
        { e with kind := max e.kind kind, stream := e.stream && p.stream,
                 marks := setField e.marks (2 * k) 2 (field e.marks (2 * k) 2 ||| p.mark),
                 data := setField e.data (8 * k) 8 (mixNibbles p.mark b (BitVec.ofNat 8 (field e.data (8 * k) 8))).toNat } }
  | none =>
    { t with entries := t.entries ++ [{ cluster := p.cluster, block := a / 64, marks := setField 0 (2 * k) 2 p.mark, data := setField 0 (8 * k) 8 b.toNat, strip := t.open_, kind := kind, remote := p.remote, stream := p.stream,
                                         order := p.place }] }

/-- Write whole bytes into the open strip. -/
def Strip.putBytes (p : PutAs) (a : Nat) : List Byte → Strip → Strip
  | [], t => t
  | b :: bs, t => Strip.putBytes p (a + 1) bs (t.putByte { p with mark := 3 } a b)

/-- The runs of an entry's data that a drain performs: byte offsets whose marks are set, with the byte and its mark. -/
def StripEntry.marked (e : StripEntry) : List (Nat × Nat × Byte) :=
  (List.range 64).filterMap fun k =>
    let m := field e.marks (2 * k) 2
    if m = 0 then none else some (k, m, BitVec.ofNat 8 (field e.data (8 * k) 8))

/-- The cell of a physical address, for an access whose checks have passed. -/
def State.cellOf (s : State) (pa : Nat) : Nat :=
  match s.target s.th.bind.ctx pa with
  | .cell a => a
  | _ => pa

/-- Group an entry's marked bytes into the window's elements (11 R308, R327). -/
def elementsOf (sz : Nat) (block : Nat) (ms : List (Nat × Nat × Byte)) : List (Nat × List Byte) :=
  (List.range (64 / sz)).filterMap fun j =>
    let bs := ms.filterMap fun m => if m.1 / sz = j then some m.2.2 else none
    if bs.length = sz then some (block * 64 + j * sz, bs) else none

/-- The contiguous bytes of an entry that a drain performs as one store: the whole block when all of it is marked, a whole granule, and any
other byte alone, so that each such byte of a poisoned granule counts one poison merge (07 R185, R192; DESIGN CHOICE, log 81). -/
def State.performMarked (s : State) (stream : Bool) (block : Nat) (ms : List (Nat × Nat × Byte)) : State :=
  if ms.length = 64 ∧ ms.all (fun m => m.2.1 = 3) then
    s.performAs stream (s.cellOf (block * 64)) (ms.map (·.2.2))
  else
    ms.foldl (fun t m =>
      let a := t.cellOf (block * 64 + m.1)
      let half := ms.filterMap fun x => if x.1 / 32 = m.1 / 32 ∧ x.2.1 = 3 then some x.2.2 else none
      if half.length = 32 then
        if m.1 % 32 = 0 then t.performAs stream a half else t
      else t.performAs stream a [mixNibbles m.2.1 m.2.2 (t.byteAt a)]) s

/-- TAG of a launch's entry, which names the launch on every package (13 Table 13.1, R438). -/
def Launch.tag (l : Launch) : Nat := leNat ((l.entry.drop 200).take 8)

/-- TAG of a launch by its number on this package. -/
def State.tagOf (s : State) (n : Nat) : Nat := ((s.hub.launches.find? fun l => l.number = n).map Launch.tag).getD 0

/-- Send a deferred write to its target (11 R327, Table 11.7). -/
def State.sendWrite (rank : Nat) (w : RemoteWrite) (s : State) : State :=
  s.sendFlits 0 rank 16 (flitBytes [w.ctx, w.handle, w.elem, w.bytes, w.data.toNat, w.rank, w.place, w.launch, w.order])

/-- Drain one entry of a committed strip: its bytes are performed at their home, entered in the deferred write buffer of
a DS page, or sent to the target of a vstr (07 R185; 11 R308, R327). -/
def State.drainEntry (e : StripEntry) (s : State) : State :=
  let ms := e.marked
  match e.remote with
  | some (rank, handle, sz) =>
    if rank = s.dev.rank then
      (elementsOf sz e.block ms).foldl (fun t x =>
        match t.windows.find? (fun w => w.ctx = t.th.bind.ctx ∧ w.handle = handle) with
        | none => t
        | some w => t.dsWrite e.order ((w.pages[x.1 / 65536]?).getD 0 + x.1 % 65536) x.2) s
    else
      (elementsOf sz e.block ms).foldl (fun t x =>
        let w : RemoteWrite :=
          { ctx := t.th.bind.ctx, handle := handle, elem := x.1 / sz, bytes := sz, data := word (leNat x.2), rank := t.dev.rank,
            place := t.th.bind.place, launch := t.tagOf t.th.bind.launch, order := e.order }
        (t.onFab fun f => { f with sent := f.sent ++ [(rank, w, false)] }).sendWrite rank w) s
  | none =>
    if e.kind % 8 = 3 then
      match s.windowAt s.th.bind.ctx (e.block * 64) with
      | none => s
      | some w => (elementsOf w.elemBytes e.block ms).foldl (fun t x => t.dsWrite e.order x.1 x.2) s
    else if inShared (e.block * 64) && 0x08000000 ≤ e.block * 64 % 2 ^ 32 then
      (elementsOf 8 e.block ms).foldl (fun t x =>
        match t.target t.th.bind.ctx x.1 with
        | .sync die k _ => t.syncPut die k (word (leNat x.2))
        | _ => t) s
    else
      (ms.foldl (fun t m => t.dcacheStore t.th.bind.coreNo (e.block * 64 + m.1)
          [mixNibbles m.2.1 m.2.2 (t.byteAt (t.cellOf (e.block * 64 + m.1)))]) s).performMarked e.stream e.block ms

/-- Entries of committed strips that have not drained, in order (07 R185). -/
def Strip.draining (t : Strip) : List StripEntry := t.entries.filter fun e => e.strip ≠ t.open_

/-- Drain every entry of every committed strip, in program order, and take their acknowledgements. -/
def State.drainAll (s : State) : State :=
  let es := s.th.st.draining
  let s' := es.foldl (fun t e => t.drainEntry e) s
  s'.onSt fun t => { t with entries := t.entries.filter fun e => e.strip = t.open_, unacked := [] }

/-- Drain the entries of committed strips that satisfy p, in program order (07 R185). -/
def State.drainWhere (p : StripEntry → Bool) (s : State) : State :=
  let s' := (s.th.st.draining.filter p).foldl (fun t e => t.drainEntry e) s
  s'.onSt fun t => { t with entries := t.entries.filter fun e => e.strip = t.open_ || !p e }

/-- Close the open strip: its entries become a committed strip (07 R185); at once drained when run-ahead work completes
inside the step. -/
def State.closeStrip (s : State) : State :=
  let s' := s.onSt fun t => { t with open_ := t.open_ + 1 }
  if s'.prompt then s'.drainAll else s'

/-- The commit of smb, scommit, end or a step word: closes the open strip and clears UNC (07 R185, R186). -/
def State.commit (s : State) : State := s.closeStrip.onSt fun t => { t with unc := false }

/-- An early commit: the open strip drains, containment is lost, EARLY counts up to 65,535 (07 R186, R187). -/
def State.earlyCommit (s : State) : State :=
  s.closeStrip.onSt fun t => { t with unc := true, uncs := true, early := min (t.early + 1) 65535 }

/-- An SO access of the thread while the open strip holds an SO store commits the strip early (07 R187). -/
def State.soGate (kind : Nat) (s : State) : State :=
  if kind = 1 ∧ s.th.st.entries.any (fun e => e.strip = s.th.st.open_ ∧ e.kind % 8 = 1) then s.earlyCommit else s

/-- An SO access waits while an older SO store of the thread, in a committed strip, is not performed (07 R179, R187). -/
def State.soWaits (s : State) (kind : Nat) : Bool :=
  kind = 1 && s.th.st.entries.any fun e => e.strip ≠ s.th.st.open_ && e.kind % 8 = 1

/-- Before an atomic at some bytes: the open strip that holds one of them is committed early, and committed entries that
hold one are drained (10 R266). -/
def State.atomicGate (pa n : Nat) (s : State) : State :=
  let hit := fun (e : StripEntry) => e.remote.isNone ∧ e.block * 64 < pa + n ∧ pa < e.block * 64 + 64 ∧
    e.marked.any fun m => pa ≤ e.block * 64 + m.1 ∧ e.block * 64 + m.1 < pa + n
  if s.th.st.entries.any (fun e => e.strip = s.th.st.open_ ∧ hit e) then s.earlyCommit.drainAll
  else if s.th.st.entries.any (fun e => hit e) then s.drainAll
  else s

/-! ### The scalar store queue -/

/-- The oldest scalar store leaves the queue: into the open strip where it overlaps it, else to its home, to a sync
register, or to the deferred write buffer of a DS page (03 R63; 10 R282; 12 R351). -/
def State.leaveStore (e : StoreEntry) (s : State) : State :=
  let n := e.bytes.length
  let hit := fun (x : StripEntry) => x.strip = s.th.st.open_ ∧ x.remote.isNone ∧
    x.marked.any fun m => e.pa ≤ x.block * 64 + m.1 ∧ x.block * 64 + m.1 < e.pa + n
  match (if e.atM then none else s.th.st.entries.find? fun x => hit x) with
  | some x =>
    s.onSt fun t => t.putBytes { cluster := x.cluster, kind := e.kind, mark := 3, release := false, stream := false, remote := none, order := e.order } e.pa e.bytes
  | none =>
    match s.target s.th.bind.ctx e.pa with
    | .sync die k _ => s.syncPut die k (word (leNat e.bytes))
    | _ =>
      if e.kind = 3 then s.dsWrite e.order e.pa e.bytes
      else (s.dcacheStore s.th.bind.coreNo e.pa e.bytes).perform (s.cellOf e.pa) e.bytes

/-- Whether an entry of a committed strip that has not drained holds a byte of a store, which then follows it (07 R183, R185). -/
def State.behindDrain (s : State) (e : StoreEntry) : Bool :=
  e.kind ≠ 3 && s.th.st.draining.any fun x => x.remote.isNone &&
    x.marked.any fun m => e.pa ≤ x.block * 64 + m.1 && x.block * 64 + m.1 < e.pa + e.bytes.length

/-- The oldest scalar store of the queue, when it may leave: its SO order holds after the commit that it asks for, and older stores of
its bytes have been performed (07 R179, R183, R185, R187). -/
def State.leaveHead (s : State) : State :=
  match s.th.fr.storeQ with
  | [] => s
  | e :: es =>
    let t := if e.atM then s else s.soGate e.kind
    if t.soWaits e.kind || t.behindDrain e then t else (t.leaveStore e).onFr fun f => { f with storeQ := es }

/-- The store queue leaves in order while every VIQ word older than the oldest store is fault-safe (03 R61). -/
def State.leaveStores (s : State) : State :=
  s.th.fr.storeQ.foldl (fun t e =>
    if t.th.fr.storeQ.head? = some e ∧ t.inLanes.all (fun v => v.safe ∨ e.seq < v.seq) then t.leaveHead else t) s

end Sys2Proof.Machine
end

