-- ==== Sys2Proof/Machine/Ends.lean ====
section
/-! DEFINITION. Threads in focus, unwinding, taking an exception and returning from one, suspensions, stops and fatal ends
(spec/12_system_trap_debug_instructions.md R349 to R354, R359, R362; 03 R64; 13 R397). -/

namespace Sys2Proof.Machine

/-! ### Threads in focus -/

/-- Every thread of the package, the current one first. -/
def State.threads (s : State) : List Thread := s.th :: s.others

/-- Whether a thread stands in the slot of a place (13 R398). -/
def Thread.isAt (p : Nat) (t : Thread) : Bool := t.bind.place = p && t.life.inSlot

/-- The current thread and the one at an index of the others change places. -/
def State.swapWith (i : Nat) (s : State) : State :=
  match s.others[i]? with
  | none => s
  | some t => { s with th := t, others := s.others.set i s.th }

/-- Make the thread in the slot of a place the current one. -/
def State.focus (p : Nat) (s : State) : State :=
  if s.th.isAt p then s
  else match s.others.findIdx? (Thread.isAt p) with | none => s | some i => s.swapWith i

/-- Run a function on the state with the thread in the slot of a place as the current one, then give the focus back; with no
thread there nothing happens. -/
def State.at (p : Nat) (f : State → State) (s : State) : State :=
  if s.th.isAt p then f s
  else match s.others.findIdx? (Thread.isAt p) with | none => s | some i => (f (s.swapWith i)).swapWith i

/-- Change every thread of the package, those out of their slots too. -/
def State.onThreads (f : Thread → Thread) (s : State) : State :=
  { s with th := f s.th, others := s.others.map f, images := s.images.map f }

/-- The thread's position vcp: the oldest VIQ word that has not retired, else spc (01 R20). -/
def State.vcp (s : State) : Word := match s.th.fr.stepq.toList ++ s.th.fr.viq with | [] => s.th.fr.spc | e :: _ => e.addr

/-- Change the contexts with an id. -/
def State.onCtx (id : Nat) (f : Ctx → Ctx) (s : State) : State :=
  { s with ctxs := s.ctxs.map fun c => if c.id = id then f c else c }

/-- Change the launch with a number. -/
def State.onLaunch (n : Nat) (f : Launch → Launch) (s : State) : State :=
  { s with hub := { s.hub with launches := s.hub.launches.map fun l => if l.number = n then f l else l } }

/-! ### Trace records -/

/-- The header of a record of the current thread; SEQ is set when the record enters its ring (12 Table 12.15). -/
def State.traceHeader (s : State) (type len : Nat) : Word :=
  word (3 * 2 ^ 62 + type * 2 ^ 56 + len * 2 ^ 48 + s.th.bind.die * 2 ^ 30 + s.th.bind.core * 2 ^ 24
    + s.th.bind.slot * 2 ^ 22 + s.th.bind.res * 2 ^ 19)

/-- Send a record to the hub's queue of 64 records, or drop it and count it in LOST (12 R377). -/
def State.traceSend (ws : List Word) (s : State) : State :=
  if s.hub.traceQ.length < 64 then
    { s with hub := { s.hub with traceQ := s.hub.traceQ ++ [(s.th.bind.ctx, s.th.bind.launch, s.th.bind.flat, ws)] } }
  else s.onRegs fun r => { r with lost := if r.lost = 65535 then 65535 else r.lost + 1 }

/-- An address as a record holds it, VA [54:0] (12 Table 12.15). -/
def traceVa (a : Word) : Word := word (a.toNat % 2 ^ 55)

/-- An event record: 1 trap entry, 2 eret, 3 whistle release, 4 save, 5 restore (12 Table 12.15, R376). -/
def State.traceEvent (enable event cause : Nat) (idx spc vcp : Word) (s : State) : State :=
  if s.th.fr.regs.trccfg.toNat.testBit enable then
    s.traceSend [s.traceHeader 3 5, traceVa spc, traceVa vcp, word (event + cause * 256 + bitsOf idx 31 0 * 65536),
      word (s.gtime.toNat % 2 ^ 62)]
  else s

/-! ### Unwinding -/

/-- History entries whose VIQ words up to their sequence number are all fault-safe retire in order, and their pending
flags join vxflags (03 R60). -/
def retireHist (viq : List VEntry) : List HistEntry → BitVec 6 × List HistEntry
  | [] => (0, [])
  | h :: hs =>
    if viq.all fun e => e.safe || h.seq < e.seq then
      let r := retireHist viq hs
      (h.flags ||| r.1, r.2)
    else (0, h :: hs)

/-- Retire the history entries that may retire (03 R60). -/
def State.retireHistory (s : State) : State :=
  let r := retireHist s.th.fr.viq s.th.fr.hist
  { s with th := { s.th with fr := { s.th.fr with hist := r.2 }, ln := { s.th.ln with flags := s.th.ln.flags ||| r.1 } } }

/-- Restore front registers from the entries of words younger than VIQ word k, youngest first (03 R64 step 1). -/
def restoreFrom (k : Nat) : List HistEntry → Front → Front
  | [], f => f
  | h :: hs, f =>
    let f' := restoreFrom k hs f
    if k ≤ h.seq then f'.restore h else f'

/-- Unwind the front to the words younger than VIQ word k: history, store queue, and the VIQ behind the kept entries
(03 R64). -/
def State.unwind (k : Nat) (keep : List VEntry) (s : State) : State :=
  s.onFr fun f =>
    { restoreFrom k f.hist f with
      hist := f.hist.filter fun h => h.seq < k
      storeQ := f.storeQ.filter fun e => e.seq < k
      viq := keep, chainOpen := false }

/-- sbase as the open strip has it: as it stood at the oldest smb whose commit entry has not issued, else its value now
(04 R94, R102). -/
def State.openBase (s : State) : Word :=
  ((s.th.fr.viq.find? fun e => match e.slot with | .commit _ => true | _ => false).map (·.sb)).getD s.th.fr.regs.sbase

/-! ### Leaving the slot -/

/-- JOIN of communicator n of a context, 0 for none (13 R390). -/
def State.joinOf (s : State) (n c : Nat) : Nat :=
  ((s.ctxs.find? fun x => x.id = c).bind fun x => x.comms.find? fun y => y.number = n).elim 0 (·.join)

/-- Whether communicator n of two contexts is one: the same context, or launches that join it (11 R334; 13 R390). -/
def State.sameComm (s : State) (n a b : Nat) : Bool :=
  a = b || (s.joinOf n a ≠ 0 && s.joinOf n a = s.joinOf n b)

/-- Whether an abort of a communicator reaches a context's communicator n: its own, one that joins it here, or one with the JOIN that the
abort carries (11 R346; 13 R390). -/
def State.abortHits (s : State) (ctx n join c : Nat) : Bool :=
  s.sameComm n c ctx || (join ≠ 0 && s.joinOf n c = join)

/-- An abort of communicator n of a context, with its JOIN, reaches this package: every stream bound to it, in every context that joins it,
is lost, its reservations are cancelled and its staged chunks that have not started are discarded (11 R346). -/
def State.abortHere (ctx n join : Nat) (s : State) : State :=
  let hit := fun (t : Stream) =>
    if t.bound ∧ t.comm = n then { t with lost := true, granted := 0, stage := [] } else t
  let s1 := s.onThreads fun t => if s.abortHits ctx n join t.bind.ctx then { t with fab := { t.fab with fs := t.fab.fs.map hit } } else t
  { s1 with
    unc := { s1.unc with asks := s1.unc.asks.filter fun m => ¬ (m.comm = n ∧ s.abortHits ctx n join m.ctx) }
    ctxs := s1.ctxs.map fun c =>
      if s.abortHits ctx n join c.id then { c with comms := c.comms.map fun y => if y.number = n then { y with aborted := true } else y }
      else c }

/-- The packages that may hold members of communicator n of a context: where its threads stand, and all of the pod for one that contexts
of other packages may join (11 R334, R346). -/
def State.commRanks (s : State) (ctx n : Nat) : List Nat :=
  if s.joinOf n ctx ≠ 0 then List.range s.dev.packages else s.ctxRanks ctx

/-- An abort of a communicator, here and, by a flit of type 12 that names it with its JOIN, at the other packages with members (11 R346,
Table 11.7; DESIGN CHOICE, log 8). -/
def State.abortComm (ctx n : Nat) (s : State) : State :=
  let join := s.joinOf n ctx
  ((s.commRanks ctx n).filter (· ≠ s.dev.rank)).foldl (fun t r => t.sendFlits 12 r 19 (flitBytes [ctx, n + 16 * join]))
    (s.abortHere ctx n join)

/-- The communicators of the current thread's streams that hold an unsent chunk or an unfilled reservation (11 R346). -/
def State.openComms (s : State) : List Nat :=
  (s.th.fab.fs.toList.filter fun t => t.bound ∧ (t.stage ≠ [] ∨ t.granted ≠ 0)).map (·.comm)

/-- The hub address of a slot-table entry (14 R403). -/
def slotEntry (die index : Nat) : Nat := 0xF0000200000 + die * 0x10000 + index * 64

/-- The hub address of a slot-table status word (14 R403). -/
def slotStatus (die index : Nat) : Nat := 0xF0000200000 + die * 0x10000 + 0x8000 + index * 8

/-- Dispatch clears V and returns the entry to STATE 0 when a thread leaves its slot (13 R399). -/
def State.freeSlot (s : State) : State :=
  let i := 4 * s.th.bind.core + s.th.bind.slot
  let e := slotEntry s.th.bind.die i
  let d0 := leNat (memBytes s.mem e 8)
  { s with mem := memPut (memPut s.mem e (leBytes 8 (d0 - d0 % 2))) (slotStatus s.th.bind.die i) (leBytes 8 0) }

/-- Change a command. -/
def State.onCopyCmd (c : CopyCmd) (f : CopyCmd → CopyCmd) (s : State) : State :=
  { s with copies := s.copies.map fun x => if x.owner = c.owner ∧ x.seq = c.seq then f x else x }

/-- The lowest free slot of a core's engine (10 R296); a paused command holds none (10 R303). -/
def State.copySlot (s : State) (core : Nat) : Option Nat :=
  (List.range 16).find? fun k => !(s.copies.any fun c => c.core = core && !c.paused && c.slot = k)

/-- The owner of the copy commands of a thread whose image is out of its slot: a name of its own beside the places, below 4,096, and
the names of commands without a thread (10 R303; 12 R366). -/
def imageOwner (b : Bind) : Nat := b.place + 4096 * (2 * b.ctx + 1)

/-- Whether a command has been left to itself by a thread that is no more. -/
def CopyCmd.disowned (c : CopyCmd) : Bool := 4096 ≤ c.owner && c.owner / 4096 % 2 = 0

/-- Whether a paused command may go on: its thread runs, or has ended in good order and left the command to itself (10 R303). -/
def State.mayReadmit (s : State) (c : CopyCmd) : Bool :=
  s.threads.any (fun x => x.isAt c.owner && x.life = .running) || c.disowned

/-- Paused commands take free slots again, oldest first (10 R303). -/
def State.readmitCopies (s : State) : State :=
  s.copies.foldl (fun t c =>
    if c.paused && t.mayReadmit c then
      match t.copySlot c.core with
      | some k => t.onCopyCmd c fun x => { x with paused := false, slot := k }
      | none => t
    else t) s

/-- The copies of a thread that leaves its slot stay with a name that no thread has; with `stop` they end at their next
chunk boundary (10 R303). -/
def State.disownCopies (p : Nat) (stop : Bool) (s : State) : State :=
  let q := p % 4096 + 4096 * (2 * (s.freeCount + 1))
  let cs := s.copies.map fun (c : CopyCmd) => if c.owner = p then { c with stopping := c.stopping || stop, owner := q } else c
  { s with copies := cs, freeCount := s.freeCount + 1 }

/-- What a kill or a fatal end does to the work of the current thread, whose copies have a name: the open strip is discarded and
committed strips drain, its copies stop at their next chunk boundary, its streams abort, and its flags join the launch's
(12 R354; 07 R190; 10 R303; 11 R346; 13 R397). -/
def State.dropWork (owner : Nat) (s : State) : State :=
  let comms := s.openComms
  let s1 := (s.onSt fun t => { t with entries := t.entries.filter fun e => e.strip ≠ t.open_, parked := [] }).drainAll
  let s2 := comms.foldl (fun t n => t.abortComm s.th.bind.ctx n) (s1.disownCopies owner true)
  s2.onLaunch s2.th.bind.launch fun l => { l with ended := l.ended + 1, flags := l.flags ||| s2.th.ln.flags }

/-- A thread that leaves its slot by a kill or a fatal end: its work is dropped and its window released (12 R354; 10 R280). -/
def State.discardThread (s : State) : State :=
  ((s.dropWork s.th.bind.place).freeSlot).onTh fun t =>
    { t with life := .ended
             fr := { t.fr with viq := [], stepq := none, storeQ := [], hist := [], wait := .none, lanes := none, parkedLanes := none, curLane := none, fbuf := none, chainOpen := false }
             ln := { t.ln with win := { cfg := 0, copies := [] } } }

/-- Run a function with an image as the current thread; the image itself is then gone (12 R366). -/
def State.withImage (t : Thread) (f : State → State) (s : State) : State :=
  let u := f { s with th := t, others := s.th :: s.others, images := s.images.erase t }
  match u.others with
  | x :: xs => { u with th := x, others := xs }
  | [] => u

/-- The images of a launch end with it, their work as that of a thread in its slot: nothing of them resumes (12 R366; 13 R397;
07 R190; 11 R346). -/
def State.endImages (n : Nat) (s : State) : State :=
  (s.images.filter fun t => t.bind.launch = n).foldl (fun u t => u.withImage t fun v => v.dropWork (imageOwner t.bind)) s

/-- The slot-table index of a place. -/
def slotOf (p : Nat × Nat × Nat) : Nat := 4 * p.2.1 + p.2.2

/-- Dispatch writes a status word. -/
def State.setSlotStatus (die index v : Nat) (s : State) : State := { s with mem := memPut s.mem (slotStatus die index) (leBytes 8 v) }

/-- Clear the records of a gang, whose threads have not started (13 R394). -/
def State.clearGang (p : BindPlan) (s : State) : State :=
  let s1 : State := p.places.foldl (fun t x =>
    let i := slotOf x
    let e := slotEntry x.1 i
    State.setSlotStatus x.1 i 0 { t with mem := memPut t.mem e (leBytes 8 (leNat (memBytes t.mem e 8) / 2 * 2)) }) s
  let gone := fun (t : Thread) => t.life = .bound && p.places.contains (t.bind.die, t.bind.core, t.bind.slot)
  s1.onThreads fun t => if gone t then { t with life := .ended } else t

/-- The gang of a launch whose records await dispatch is bound no more: its records are cleared (13 R394, R396, R397). -/
def State.dropBinding (n : Nat) (s : State) : State :=
  (s.hub.launches.filter fun l => l.number = n).foldl (fun t l =>
    match l.binding with
    | none => t
    | some p => (t.clearGang p).onLaunch n fun x => { x with binding := none }) s

/-- End the threads of a launch other than those that have ended, as a kill does; a gang that is being bound is not bound (13 R397). -/
def State.endLaunch (n : Nat) (s0 : State) : State :=
  let s := s0.dropBinding n
  let ps := (s.threads.filter fun t => t.life.inSlot ∧ t.bind.launch = n).map (·.bind.place)
  (ps.foldl (fun t p => t.at p State.discardThread) s).endImages n

/-- The launch status a cause gives: STEP for Skew, DEADLINE, else FAULT (12 R354; 13 Table 13.2). -/
def statusOf : ExcCause → Nat
  | .skew => 5
  | .deadline => 3
  | _ => 2

/-- The first of two statuses that applies to a launch: KILLED, REFUSED, DEADLINE, STEP, FAULT, none (13 R397; DEDUCED, log 21). -/
def firstStatus (a b : Nat) : Nat := ([4, 6, 3, 5, 2].find? fun x => x = a || x = b).getD 0

/-- A fatal end of the current thread: the report of its first fatal end is kept for the launch, and every other thread
of the launch is ended; a launch that dispatch has refused keeps that code (12 R354; 13 R383, R394, R397). -/
def State.fatalEnd (c : ExcCause) (idx spc vcp handlerCode : Word) (halt : Bool) (s : State) : State :=
  let n := s.th.bind.launch
  let d0 := word (s.th.bind.flat % 2 ^ 32 + c.code * 2 ^ 32 + (if halt then 2 ^ 40 else 0))
  let s1 := s.onLaunch n fun l =>
    if l.firstFatal.isSome then l
    else { l with firstFatal := some s.th.bind.flat, status := firstStatus l.status (statusOf c),
                  code := if l.status = 6 then l.code else c.code, unc := s.th.st.unc,
                  report := [d0, spc, vcp, idx, s.openBase, handlerCode, s.gtime, 0] }
  s1.discardThread.endLaunch n

/-! ### Taking an exception -/

/-- Pause the current thread's copies at their chunk boundaries; the slots that this frees go to paused commands that may go on
(10 R303). -/
def State.pauseCopies (s : State) : State :=
  State.readmitCopies { s with copies := s.copies.map fun (c : CopyCmd) => if c.owner = s.th.bind.place then { c with paused := true } else c }

/-- What a wait becomes at a stop: the word of a wait that leaves spc at itself runs again, and one whose word has been sent goes on
(12 R362; 05 R127; 10 R301). -/
def Wait.stopped : Wait → Wait
  | .copies n => .copies n
  | .entry q => .entry q
  | _ => .none

/-- A lane section whose buffers have lost the code, which comes from memory again at the resume (04 R99). -/
def LaneSection.emptied (l : LaneSection) : LaneSection := { l with code := [] }

/-- What every stop of a thread does to its front: the fetch buffer and lane code are discarded, a wait is left where it stands, and
the data of a vldr that have arrived are discarded (04 R99; 11 R326; 12 R362, R369). -/
def State.stopFront (s : State) : State :=
  (s.onFr fun f => { f with fbuf := none, wait := f.wait.stopped, curLane := none, lanes := f.lanes.map LaneSection.emptied }).onFab
    fun f => { f with remoteData := [] }

/-- A route to Eloaler: the thread is suspended with its image, which serves a pending stop too, and the cause, index and pair in it
(12 R354, R362, R367). -/
def State.suspend (c : ExcCause) (idx spc vcp : Word) (s : State) : State :=
  ((((s.onFr fun f => { f with spc := (f.lanes.map (·.origin)).getD spc }).traceEvent 2 4 c.code idx spc vcp).stopFront.pauseCopies).onM
    fun m => { m with preq := none }).onTh fun t => { t with life := .suspended c idx spc vcp }

/-- A pre-emption, gang switch or debug stop of the current thread at its boundary: everything is kept (12 R362). -/
def State.stopAs (l : Life) (c : ExcCause) (s : State) : State :=
  (((s.traceEvent 2 4 c.code noIndex s.th.fr.spc s.vcp).stopFront.pauseCopies).onM fun m => { m with preq := none }).onTh
    fun t => { t with life := l }

/-- Entry to the M handler: the registers of R355, the level, the parked convoy's mark, and the front at mhandler
(12 R350, R355). -/
def State.enterHandler (c : ExcCause) (idx spc vcp : Word) (flg : Flags) (lane : Bool) (s : State) : State :=
  let s1 := s.traceEvent 0 1 c.code idx spc vcp
  ((s1.onFab fun f => { f with remoteData := [] }).onM fun m =>
    { m with lvl := true, pk := !s.th.fr.viq.isEmpty, lane := lane
             mcause := word (c.code + flg.toNat * 256 + (if s.th.st.unc then 2 ^ 17 else 0))
             mspc := word (spc.toNat / 4 * 4), mvcp := vcp, mindex := idx }).onFr fun f =>
    { f with spc := word (s.th.bind.handler.toNat / 4 * 4), wait := .none, curLane := none, fbuf := none, chainOpen := false,
             parkedLanes := if lane then f.lanes.map LaneSection.emptied else f.parkedLanes, lanes := if lane then none else f.lanes }

/-- Whether a cause goes to Eloaler (12 Table 12.1). -/
def goesToEloaler : ExcCause → Bool
  | .pageFault | .poison | .machineCheck => true
  | _ => false

/-- TAKING AN EXCEPTION, the one operation every fault goes through, with the pair and index of Table 12.1: to Eloaler, to
the M handler, or a fatal end where there is no handler or the thread is at M, where spc is the word's own address and vcp the
thread's (12 R349, R350, R352, R354). -/
def State.takeException (c : ExcCause) (idx spc vcp : Word) (flg : Flags) (lane : Bool) (s : State) : State :=
  if goesToEloaler c then s.suspend c idx spc vcp
  else if s.th.fr.m.lvl then s.fatalEnd .doubleFault noIndex spc s.vcp 0 false
  else if s.th.bind.handler.toNat / 4 = 0 then s.fatalEnd c idx spc vcp 0 false
  else s.enterHandler c idx spc vcp flg lane

/-- What a pending stop makes of a running thread, and the cause in its image (12 R362, Table 12.1). -/
def StopKind.life : StopKind → Life
  | .preemption => .swapped
  | .debug => .stopped
/-- The cause that a pending stop gives (12 Table 12.1). -/
def StopKind.cause : StopKind → ExcCause
  | .preemption => .preemption
  | .debug => .debugStop

/-- A pending stop is taken (12 R359, R362, R367). -/
def State.takeStop (s : State) : State :=
  match s.th.fr.m.preq with
  | some k => s.stopAs k.life k.cause
  | none => s

/-- Words whose result the front waits for (05 R127; 11 R309, R318, R321). -/
def laneToScalar (op : Nat) (w : VWord) : Bool :=
  (op = 0x07 && (w.key = 16 || w.key = 17)) || (op = 0x09 && w.key = 3) || (op = 0x70 && w.fnFN = 0) || op = 0x73

/-- What a front waits for as it goes on beside a kept convoy: the result of the word of it that has one (05 R127; 12 R359). -/
def entryWait (viq : List VEntry) : Wait :=
  match viq.find? fun e => e.slot = .word && laneToScalar e.op e.w with
  | some e => .entry e.seq
  | none => .none

/-- A lane section with the PC of one lane replaced. -/
def LaneSection.resumeAt (l : LaneSection) (idx pc : Word) : LaneSection :=
  { l with pcs := l.pcs.mapIdx fun i p => if word i = idx then pc else p }

/-- The return from an exception: LVL, PK and LANE are cleared, a pending stop is taken at U, a parked convoy issues
again, a lane section goes on with the faulting lane at mspc, and the front goes to mspc (12 R359; 04 R99). -/
def State.exceptionReturn (s : State) : State :=
  let m := s.th.fr.m
  let s0 := s.traceEvent 0 2 0 noIndex s.th.fr.spc s.vcp
  let s1 := (s0.onM fun x => { x with lvl := false, pk := false, lane := false }).onFr fun f =>
    match (if m.lane then f.parkedLanes else none) with
    | some l => { f with spc := l.origin, chainOpen := false, lanes := some (l.resumeAt m.mindex m.mspc), parkedLanes := none }
    | none => { f with spc := m.mspc, chainOpen := false, wait := entryWait f.viq }
  s1.takeStop

end Sys2Proof.Machine
end

