-- ==== Sys2Proof/Machine/Flow.lean ====
section
/-! DEFINITION. Where the front goes next: the end-of-body update, taken branches, loop sets
(spec/04_control_flow_instructions.md R86 to R91). -/

namespace Sys2Proof.Machine

/-- A of zcN (04 Table 4.6). -/
def zcA (x : Word) : Bool := bitsOf x 48 48 = 1
/-- N of zcN (04 Table 4.6). -/
def zcN (x : Word) : Bool := bitsOf x 49 49 = 1
/-- COUNT of zcN (04 Table 4.6). -/
def zcCount (x : Word) : Nat := bitsOf x 47 0
/-- A loop-set address: bits [63:2] (04 Tables 4.4, 4.5). -/
def zAddr (x : Word) : Word := word (x.toNat / 4 * 4)

/-- zsN of set n. -/
def State.zs (s : State) (n : Bool) : Word := zAddr (vecGet s.th.fr.regs.zs (setIx n) 0)
/-- zeN of set n. -/
def State.ze (s : State) (n : Bool) : Word := zAddr (vecGet s.th.fr.regs.ze (setIx n) 0)
/-- zcN of set n. -/
def State.zc (s : State) (n : Bool) : Word := vecGet s.th.fr.regs.zc (setIx n) 0

/-- Write zcN, logged under R60 (04 R88, R89). -/
def State.setZc (n : Bool) (x : Word) (s : State) : State :=
  (s.log (.zc n) (s.zc n)).onRegs fun r => { r with zc := vecSet r.zc (setIx n) x }

/-- zcN with A and N cleared and COUNT as given. -/
def zcEnd (count : Nat) : Word := word (count % 2 ^ 48)

/-- Whether set n is active and ends at an address (04 R88). -/
def State.endsAt (s : State) (n : Bool) (a : Word) : Bool := zcA (s.zc n) && s.ze n = a

/-- The end-of-body update of set n: the state, and where the front goes (04 R88). -/
def State.endOfBody (n : Bool) (a : Word) (s : State) : State × Word :=
  let c := zcCount (s.zc n) - 1
  if 0 < c then (s.setZc n (putBits (s.zc n) 0 48 c), s.zs n) else (s.setZc n (zcEnd c), a)

/-- The set that is updated first where both end: the inner one (04 R88). Where neither or both carry N, as mtc can leave them, it is set 1
(DESIGN CHOICE, log 59). -/
def State.innerSet (s : State) : Bool := !(zcN (s.zc false) && !zcN (s.zc true))

/-- The front arrives at an address in sequence: the end-of-body updates of R88, at U only (04 R88, R91). -/
def State.arrive (a : Word) (s : State) : State × Word :=
  if s.th.fr.m.lvl then (s, a)
  else
    let i := s.innerSet
    if s.endsAt i a then
      let r := s.endOfBody i a
      if zcA (r.1.zc i) then r
      else if r.1.endsAt (!i) a then r.1.endOfBody (!i) a
      else r
    else if s.endsAt (!i) a then s.endOfBody (!i) a
    else (s, a)

/-- Go on in sequence after a word of n bytes (04 R88). -/
def State.seqNext (n : Nat) (s : State) : State :=
  let r := s.arrive (s.th.fr.spc + word n)
  r.1.onFr fun f => { f with spc := r.2 }

/-- Whether the body of set n contains an address (04 R89). -/
def State.inBody (s : State) (n : Bool) (t : Word) : Bool := s.zs n ≤ t && t < s.ze n

/-- Clear A and N of set n where it is active. -/
def State.dropSet (n : Bool) (s : State) : State := if zcA (s.zc n) then s.setZc n (zcEnd (zcCount (s.zc n))) else s

/-- A taken branch: active sets whose body does not contain the target end, each with its inner set, at U only
(04 R89, R91). -/
def State.leaveSets (t : Word) (s : State) : State :=
  if s.th.fr.m.lvl then s
  else
    let out := fun n => zcA (s.zc n) && !s.inBody n t
    let drop := fun n => out n || (out (!n) && zcN (s.zc n))
    let s1 := if drop false then s.dropSet false else s
    if drop true then s1.dropSet true else s1

/-- Continue at the target of a taken branch (04 R81, R82, R89). -/
def State.branchTo (t : Word) (s : State) : State := (s.leaveSets t).onFr fun f => { f with spc := t }

/-- Whether a 64-bit word at an address begins at zeN − 4 of an active set, at U (04 R88). -/
def State.splitsEnd (s : State) (a : Word) : Bool :=
  !s.th.fr.m.lvl && (s.endsAt false (a + 4) || s.endsAt true (a + 4))

end Sys2Proof.Machine
end

