-- ==== Sys2Proof/Machine/Operands.lean ====
section
/-! DEFINITION. Operand forms of the 64-bit words: element widths, active elements, the operands A, B and C with their
replication and conversions, and the writing of results (spec/02_encoding_and_assembly.md R38 to R42;
spec/05_vector_instructions.md R105, R111, R115, R120 to R123). -/

namespace Sys2Proof.Machine

/-- Why a member of a convoy stops: the cause, the index reported, the group it stops at, and the enabled flags of the
faulting element (05 R121, R123). `late` is how many groups after that group the fault is detected, for a word whose checks
come before its groups (10 R274). -/
structure LStop where
  cause : ExcCause
  index : Word
  group : Nat
  flags : Flags
  late : Nat := 0
  deriving DecidableEq, Repr

/-- What the lanes have done with a word: the state, how many groups, steps or rows are complete, and the stop. A word
that has neither stopped nor reached its count waits for an event outside the thread (05 R102, R121). `pend` holds flags that
join vxflags when the word completes (08 R223). -/
structure LaneOut where
  st : State
  reached : Nat
  stop : Option LStop
  pend : Flags := 0
  note : Word := 0

/-- An issue check that fails: IllegalInstruction with index 0 and no effect (02 R44). -/
def issueFail (s : State) (lo : Nat) : LaneOut := { st := s, reached := lo, stop := some { cause := .illegal, index := 0, group := lo, flags := 0 } }

/-- A word that completes at once, in one step. -/
def laneDone (s : State) : LaneOut := { st := s, reached := 1, stop := none }

/-- A fault of a word that reports an index. -/
def laneStop (s : State) (c : ExcCause) (idx grp : Nat) : LaneOut :=
  { st := s, reached := grp, stop := some { cause := c, index := word idx, group := grp, flags := 0 } }

/-! ### vtype and the element formats -/

/-- vtype.FSEL (05 Table 5.2). -/
def vtFsel (t : BitVec 10) : Nat := t.toNat / 8 % 8
/-- vtype.FRM (05 Table 5.2). -/
def vtFrm (t : BitVec 10) : Nat := t.toNat / 64 % 8
/-- vtype.MP (05 Table 5.2). -/
def vtMp (t : BitVec 10) : Bool := t.getLsbD 9
/-- vtype.ESZ (05 Table 5.2). -/
def vtEsz (t : BitVec 10) : Nat := t.toNat % 8

/-- The bits of an element size code: 8, 16, 32, 64, and 4 for code 4 (05 Table 5.2). -/
def sizeOf : Nat → Nat
  | 0 => 8 | 1 => 16 | 2 => 32 | 3 => 64 | _ => 4

/-- The format register an element type 14 selects; a word that goes on after a stop reads it again (06 R139, R142).
(DESIGN CHOICE, log 67.) -/
def Lanes.fmtWord (l : Lanes) (fsel : Nat) : Word := vecGet l.fmt fsel 0

/-- The width in bits of a register element of a type: 4 for a format register of 4 bits or fewer (05 R105; 06 R140). -/
def Lanes.bits (l : Lanes) (fsel : Nat) (e : EType) : Nat :=
  if e = .fmt then (if fmtField (l.fmtWord fsel) 0 4 ≤ 4 then 4 else 8) else e.fixedBits

/-- The floating-point format of a type (06 Table 6.2, R139). -/
def Lanes.fp (l : Lanes) (fsel : Nat) : EType → Fmt
  | .fp64 => fp64 | .fp32 => fp32 | .fp16 => fp16 | .bf16 => bf16 | .e4m3 => e4m3 | .e5m2 => e5m2
  | _ => Fmt.ofReg (l.fmtWord fsel)

/-- The type is usable at issue: type 14 needs a valid format (02 R44; 06 R139). -/
def Lanes.typeOk (l : Lanes) (fsel : Nat) (e : EType) : Bool := e != .fmt || fmtValid (l.fmtWord fsel)

/-- VLMAX of a width for elements of b bits (01 R19). -/
def vlmax (width b : Nat) : Nat := width * 32768 / b

/-- Elements of one element group (05 R105). -/
def perGroup (width b : Nat) : Nat := width * 512 / b

/-- ⌈n / d⌉. -/
def ceilDiv (n d : Nat) : Nat := (n + d - 1) / d

/-! ### The view of an element word -/

/-- What an element word reads of the machine when it issues: width W, element bits, vl, elements per group, groups, mask
and policy (05 R105, R111, R115). -/
structure View where
  wid : Nat
  b : Nat
  vl : Nat
  per : Nat
  groups : Nat
  masked : Bool
  mask : MReg
  mp : Bool
  frm : Nat
  traps : Flags

/-- The view of a word whose elements have b bits. -/
def State.viewOf (s : State) (e : VEntry) (b : Nat) : View :=
  let wid := s.width
  { wid := wid, b := b, vl := e.vl, per := perGroup wid b, groups := ceilDiv (e.vl * b) (wid * 512),
    masked := e.w.mask ≠ 0, mask := vecGet s.th.ln.m e.w.mask.toNat 0, mp := vtMp e.vtype, frm := vtFrm e.vtype,
    traps := s.th.ln.traps }

/-- Element bits of a word's own type. -/
def State.ebits (s : State) (e : VEntry) : Nat := s.th.ln.bits (vtFsel e.vtype) e.w.ety
/-- The format of a word's own type. -/
def State.efmt (s : State) (e : VEntry) : Fmt := s.th.ln.fp (vtFsel e.vtype) e.w.ety
/-- The view of a word in its own type. -/
def State.view (s : State) (e : VEntry) : View := s.viewOf e (s.ebits e)

/-- Whether element i < vl is active (02 R38). -/
def View.act (v : View) (i : Nat) : Bool := !v.masked || maskBit v.mask i

/-- RepIndex (02 R42). -/
def repIndex (w : VWord) (i : Nat) : Nat :=
  let s := 4 ^ w.rsz.toNat
  w.ridx.toNat * s + i % s

/-- The bound of R42: the replicated unit lies inside the register. -/
def repFits (w : VWord) (vmax : Nat) : Bool := w.rsel = .none || (w.ridx.toNat + 1) * 4 ^ w.rsz.toNat ≤ vmax

/-- An element as it is read: a format-register element ignores the bits above its code (06 R140). -/
def State.code (s : State) (e : VEntry) (x : Nat) : Nat :=
  if e.w.ety = .fmt then x % 2 ^ (s.efmt e).width else x

/-- Bits of one element of a replicated unit: a scale of a vscale word, a field of a vunpack word, else an element of the word's own
type (02 R42; 06 R158, R159). (DEDUCED, log 68.) -/
def State.unitBits (s : State) (e : VEntry) : Nat :=
  if e.op = 0x3B ∧ e.w.rsel = .b then (if e.w.fnBits 3 1 = 1 then 8 else 16)
  else if e.op = 0x3A ∧ e.w.fnBits 5 1 = 1 then e.w.fnBits 0 4
  else s.ebits e

/-- The replicated unit of a word as a number, read when the word's first group issues (02 R42; 05 R116). -/
def State.unitOf (s : State) (e : VEntry) : Nat :=
  let b := s.unitBits e
  let n := 4 ^ e.w.rsz.toNat * b
  match e.w.rsel with
  | .none => 0
  | .a => field (vecGet s.th.ln.v e.w.va.toNat 0) (e.w.ridx.toNat * n) n
  | .b => field (vecGet s.th.ln.v e.w.vb.toNat 0) (e.w.ridx.toNat * n) n
  | .c => field (vecGet s.th.ln.v e.w.vc.toNat 0) (e.w.ridx.toNat * n) n

/-- Element i of an operand that is replicated: element i mod s of the unit held (02 R42; 05 R116). -/
def VEntry.unitElem (e : VEntry) (b i : Nat) : Nat := e.unit >>> (i % 4 ^ e.w.rsz.toNat * b) % 2 ^ b

/-- Element i of operand A (02 R40, R42). -/
def State.opA (s : State) (e : VEntry) (b i : Nat) : Nat :=
  s.code e (if e.w.rsel = .a then e.unitElem b i else elemAt (vecGet s.th.ln.v e.w.va.toNat 0) b i)

/-- The immediate of a VI word, sign-extended (02 R41). -/
def immOf (w : VWord) : Int := sext 12 w.fn.toNat

/-- Element i of operand B: a register, the scalar carried, or the immediate converted to the type (02 R40, R41). -/
def State.opB (s : State) (e : VEntry) (b i : Nat) : Nat :=
  match e.w.form with
  | .vv => s.code e (if e.w.rsel = .b then e.unitElem b i else elemAt (vecGet s.th.ln.v e.w.vb.toNat 0) b i)
  | .vs => s.code e (e.sc.toNat % 2 ^ b)
  | .vi => if e.w.ety.isFp then ((s.efmt e).ofInt 0 (immOf e.w)).1 else wrap b (immOf e.w)

/-- Element i of operand C: v[vc] in VV form, v[vb] in VS form (02 R40). -/
def State.opC (s : State) (e : VEntry) (b i : Nat) : Nat :=
  match e.w.form with
  | .vv => s.code e (if e.w.rsel = .c then e.unitElem b i else elemAt (vecGet s.th.ln.v e.w.vc.toNat 0) b i)
  | _ => s.code e (elemAt (vecGet s.th.ln.v e.w.vb.toNat 0) b i)

/-- Element i of vd as it stands. -/
def State.opD (s : State) (e : VEntry) (b i : Nat) : Nat :=
  s.code e (elemAt (vecGet s.th.ln.v e.w.vd.toNat 0) b i)

/-- An element as the integer its type reads: signed for I types (05 R122). -/
def eltInt (e : EType) (b x : Nat) : Int := if e.isSignedInt then sext b x else (x % 2 ^ b : Nat)

/-! ### Writing results -/

/-- The lowest index from lo for which p holds, among n. -/
def firstIx (p : Nat → Bool) (lo : Nat) : Nat → Option Nat
  | 0 => none
  | n + 1 =>
    match firstIx p lo n with
    | some i => some i
    | none => if p (lo + n) then some (lo + n) else none

/-- A register with elements lo to lo + n − 1 replaced where F gives a value. -/
def putElems {w : Nat} (b lo : Nat) (F : Nat → Option Nat) : Nat → BitVec w → BitVec w
  | 0, d => d
  | n + 1, d =>
    let d' := putElems b lo F n d
    match F (lo + n) with
    | none => d'
    | some x => setElem d' b (lo + n) x

/-- The flags of elements lo to lo + n − 1, ORed. -/
def orFlags (F : Nat → Flags) (lo : Nat) : Nat → Flags
  | 0 => 0
  | n + 1 => orFlags F lo n ||| F (lo + n)

/-- The progress index a destination shows: complete, or the groups written so far (05 R120). -/
def progressOf (reached groups full : Nat) : Nat := if groups ≤ reached then full else reached

/-- Write vector register r, with its progress index (05 R120); a whole write clears the marks of R421 (14). -/
def State.setV (r : Nat) (x : VReg) (prog : Nat) (whole : Bool) (s : State) : State :=
  s.onLn fun l => { l with v := vecSet l.v r x, vprog := vecSet l.vprog r prog
                           bad := if whole then l.bad.filter fun m => m.1 ≠ r else l.bad }

/-- Write mask register r, with its progress index in elements (05 R120). -/
def State.setM (r : Nat) (x : MReg) (prog : Nat) (s : State) : State :=
  s.onLn fun l => { l with m := vecSet l.m r x, mprog := vecSet l.mprog r prog }

/-- OR the flags of completed groups into vxflags (05 R123). -/
def State.orLaneFlags (fl : Flags) (s : State) : State := s.onLn fun l => { l with flags := l.flags ||| fl }

/-- The elements of groups lo to hi − 1 below vl: the first and how many. -/
def View.span (v : View) (lo hi : Nat) : Nat × Nat := (lo * v.per, min (hi * v.per) v.vl - lo * v.per)

/-- What one element of a word gives: an encoding and flags. -/
abbrev Elt := Nat × Flags

/-- What R115 writes at element i: F where it is active, zero or nothing where it is not. -/
def View.put (v : View) (F : Nat → Elt) (i : Nat) : Option Nat :=
  if v.act i then some (F i).1 else if v.mp then some 0 else none

/-- The flags of element i; an inactive element raises none (05 R115). -/
def View.fl (v : View) (F : Nat → Elt) (i : Nat) : Flags := if v.act i then (F i).2 else 0

/-- The groups a word completes among lo to hi − 1, and its stop: the lowest active element that raises an enabled flag
(05 R123). -/
def View.reach (v : View) (F : Nat → Elt) (lo hi : Nat) : Nat × Option LStop :=
  let top := min hi v.groups
  let sp := v.span lo top
  match firstIx (fun i => v.fl F i &&& v.traps ≠ 0) sp.1 sp.2 with
  | none => (top, none)
  | some i => (i / v.per, some { cause := .arithmetic, index := word i, group := i / v.per, flags := v.fl F i &&& v.traps })

/-- Whether a word that has completed some groups has written every element of its register: all of VLMAX, the inactive ones with zero or
none there (05 R115; 14 R421). -/
def View.whole (v : View) (reached : Nat) : Bool := (!v.masked || v.mp) && v.vl = vlmax v.wid v.b && v.groups ≤ reached

/-- AN ELEMENT WORD: the effect of R122 over groups lo to hi − 1 of vd in elements of the view (05 R115, R122, R123). -/
def State.eltWord (s : State) (e : VEntry) (v : View) (F : Nat → Elt) (lo hi : Nat) : LaneOut :=
  let r := v.reach F lo hi
  let sp := v.span lo r.1
  let d := putElems v.b sp.1 (v.put F) sp.2 (vecGet s.th.ln.v e.w.vd.toNat 0)
  { st := (s.setV e.w.vd.toNat d (progressOf r.1 v.groups 64) (v.whole r.1)).orLaneFlags
      (orFlags (v.fl F) sp.1 sp.2),
    reached := r.1, stop := r.2 }

/-- A WORD THAT WRITES A MASK over groups lo to hi − 1: bit i of md (05 R115, R125). -/
def State.maskWord (s : State) (e : VEntry) (v : View) (F : Nat → Elt) (lo hi : Nat) : LaneOut :=
  let r := v.reach F lo hi
  let sp := v.span lo r.1
  let md := e.w.vd.toNat
  let d := putElems 1 sp.1 (v.put F) sp.2 (vecGet s.th.ln.m md 0)
  { st := (s.setM md d (if v.groups ≤ r.1 then vlmax v.wid v.b else min (r.1 * v.per) v.vl)).orLaneFlags
      (orFlags (v.fl F) sp.1 sp.2),
    reached := r.1, stop := r.2 }

/-- An integer element word: F on the integers of a and b; SAT is raised, and no element traps (05 R124). -/
def State.intWord (s : State) (e : VEntry) (lo hi : Nat) (F : Nat → Int → Int → Elt) : LaneOut :=
  let v := { s.view e with traps := 0 }
  s.eltWord e v (fun i => F v.b (eltInt e.w.ety v.b (s.opA e v.b i)) (eltInt e.w.ety v.b (s.opB e v.b i))) lo hi

/-- A bitwise or shift element word: F on the encodings of a and b (05 R124). -/
def State.bitWord (s : State) (e : VEntry) (lo hi : Nat) (F : Nat → Nat → Nat → Nat) : LaneOut :=
  let v := s.view e
  s.eltWord e v (fun i => (F v.b (s.opA e v.b i) (s.opB e v.b i), 0)) lo hi

/-- A two-source FP element word (05 R129). -/
def State.fpWord (s : State) (e : VEntry) (lo hi : Nat) (F : Fmt → Nat → Nat → Nat → Elt) : LaneOut :=
  let v := s.view e
  let f := s.efmt e
  s.eltWord e v (fun i => F f v.frm (s.opA e v.b i) (s.opB e v.b i)) lo hi

/-- A fused multiply-add element word: ±(a × b) ± c (05 R129). -/
def State.fmaWord (s : State) (e : VEntry) (lo hi : Nat) (np nc : Bool) : LaneOut :=
  let v := s.view e
  let f := s.efmt e
  s.eltWord e v (fun i => f.fma v.frm np nc (s.opA e v.b i) (s.opB e v.b i) (s.opC e v.b i)) lo hi

/-- A one-source FP element word (05 R129; 06 R162). -/
def State.fp1Word (s : State) (e : VEntry) (lo hi : Nat) (F : Fmt → Nat → Nat → Elt) : LaneOut :=
  let v := s.view e
  let f := s.efmt e
  s.eltWord e v (fun i => F f v.frm (s.opA e v.b i)) lo hi

/-- A sign word: on a format register without a sign bit it fails at issue (05 R129). -/
def State.signWord (s : State) (e : VEntry) (lo hi : Nat) (F : Fmt → Nat → Nat → Nat) : LaneOut :=
  let v := s.view e
  let f := s.efmt e
  if f.sgn then s.eltWord e v (fun i => (F f (s.opA e v.b i) (s.opB e v.b i), 0)) lo hi else issueFail s lo

/-- An integer compare (05 R125). -/
def State.cmpWord (s : State) (e : VEntry) (lo hi : Nat) (R : Int → Int → Bool) : LaneOut :=
  let v := s.view e
  s.maskWord e v (fun i =>
    (if R (eltInt e.w.ety v.b (s.opA e v.b i)) (eltInt e.w.ety v.b (s.opB e v.b i)) then 1 else 0, 0)) lo hi

/-- An FP compare: the relation on values that are no NaN, what an unordered pair gives, and whether a quiet NaN raises NV
(05 R125). -/
def State.fcmpWord (s : State) (e : VEntry) (lo hi : Nat) (R : FVal → FVal → Bool) (unordered quietNv : Bool) : LaneOut :=
  let v := s.view e
  let f := s.efmt e
  s.maskWord e v (fun i =>
    let x := f.decode (s.opA e v.b i)
    let y := f.decode (s.opB e v.b i)
    if x.isNan || y.isNan then (if unordered then 1 else 0, if quietNv || x.isSig || y.isSig then fNV else 0)
    else (if R x y then 1 else 0, 0)) lo hi

end Sys2Proof.Machine
end

