-- ==== Sys2Proof/Machine/Flags.lean ====
section
/-! DEFINITION. Flag computations shared by families: saturation (02 R38), the combining operations of reductions with
their flags (05 R130), and the raising of a scalar word's flags against the front's trap enables (03 R75; 06 R150). -/

namespace Sys2Proof.Machine

/-- Bounds of an integer type of b bits (06 Table 6.1). -/
def intRange (signed : Bool) (b : Nat) : Int × Int :=
  if signed then (-(2 ^ (b - 1) : Int), 2 ^ (b - 1) - 1) else (0, 2 ^ b - 1)

/-- Sat: the encoding of x clamped to an integer type, and SAT when it is clamped (02 R38). -/
def satInt (signed : Bool) (b : Nat) (x : Int) : Elt :=
  let r := intRange signed b
  if x < r.1 then (wrap b r.1, fSAT) else if r.2 < x then (wrap b r.2, fSAT) else (wrap b x, 0)

/-- The operations of reductions and scans. -/
inductive RedOp where
  | add | min | max | and | or | xor
  deriving DecidableEq, Repr

/-- Op on two encodings of a word's type (05 R130). -/
def State.redOp (s : State) (e : VEntry) (op : RedOp) (x y : Nat) : Elt :=
  let b := s.ebits e
  if e.w.ety.isFp then
    let f := s.efmt e
    match op with
    | .add => f.add (vtFrm e.vtype) x y
    | .min => f.minMax true x y
    | .max => f.minMax false x y
    | _ => (x, 0)
  else
    let a := eltInt e.w.ety b x
    let c := eltInt e.w.ety b y
    match op with
    | .add => (wrap b (a + c), 0)
    | .min => (if a ≤ c then x else y, 0)
    | .max => (if c ≤ a then x else y, 0)
    | .and => (x &&& y, 0)
    | .or => (x ||| y, 0)
    | .xor => (x ^^^ y, 0)

/-- The flags a scalar word raises against the front's trap enables: the enabled ones, zero when none traps
(03 R75; 06 R150). -/
def State.trapped (s : State) (fl : Flags) : Flags := fl &&& s.th.fr.copy.traps

end Sys2Proof.Machine
end

