-- ==== Sys2Proof/Machine/VecMem.lean ====
section
/-! DEFINITION. Element accesses to memory and the words of majors 0x40 to 0x4B
(spec/07_vector_memory_instructions.md R178 to R205). -/

namespace Sys2Proof.Machine

/-- How a word's elements meet the alignment and kind rules: as R180 gives, or as the gather words of R201. -/
inductive ElemRule where
  | plain | slice
  deriving DecidableEq, Repr

/-- The bytes of a range as (physical address, page kind) pairs. -/
def spanBytes (pa kind : Nat) : Nat → List (Nat × Nat)
  | 0 => []
  | n + 1 => (pa, kind) :: spanBytes (pa + 1) kind n

/-- Whether a vector access may touch every byte: HBM or shared store that exists (01 R10; 10 R282; 14 R403). -/
def State.reachable (s : State) (bs : List (Nat × Nat)) : Bool :=
  bs.all fun p => match s.target s.th.bind.ctx p.1 with | .cell _ => true | _ => false

/-- What a DS page adds before any other check of an access of n bytes: the wait of R321, the Skew of R322, and the element size of
the window that holds the address; `part` says that the access is a nibble. The cause `preemption`, which no element raises, says that
the element waits (11 R308, R321, R322; 07 R205). -/
def State.dsFirst (s : State) (cluster : Nat) (va : Word) (n : Nat) (part : Bool) (acc : Access) : Option ExcCause :=
  match s.pageSeen cluster va with
  | some (pa, 3) =>
    if s.pending then some .preemption
    else if acc ≠ .write then none
    else if s.skewed then some .skew
    else if (s.windowAt s.th.bind.ctx pa).any fun w => part || n ≠ w.elemBytes then some .misaligned
    else none
  | _ => none

/-- The last checks of an access whose pages are found: an active window for a DS page, then a place that exists (07 R205;
11 R308). -/
def State.placeCheck (s : State) (bs : List (Nat × Nat)) : Except ExcCause (List (Nat × Nat)) :=
  if (match bs with | (pa, 3) :: _ => (s.windowAt s.th.bind.ctx pa).isNone | _ => false) then .error .pageFault
  else if s.reachable bs then .ok bs
  else .error .machineCheck

/-- What fails first of the checks that rest on the kinds of the pages an element lies on, which its address and its translation give
whatever their permissions say (07 R180, R201, R205): Misaligned, then KindCross. -/
def kindCheck (rule : ElemRule) (odd : Bool) (k1 k2 : Option Nat) : Option ExcCause :=
  let strict := fun (k : Option Nat) => k = some 1 || k = some 3
  if odd && (rule = .slice || strict k1 || strict k2) then some .misaligned
  else if (rule = .slice && (strict k1 || strict k2)) || (k1.isSome && k2.isSome && k1 ≠ k2) then some .kindCross
  else none

/-- The checks of one element access, in the order of R205, and its bytes; the walks it makes stay made
(07 R177, R180, R201, R205). `part` says that the access is a nibble. -/
def State.elemCheck (s : State) (rule : ElemRule) (cluster : Nat) (va : Word) (n : Nat) (part : Bool) (acc : Access) :
    State × Except ExcCause (List (Nat × Nat)) :=
  let n1 := min n (65536 - va.toNat % 65536)
  let k1 := s.pageKind cluster va
  let k2 := if n1 < n then s.pageKind cluster (va + word n1) else k1
  let kinds := (s.dsFirst cluster va n part acc).or (kindCheck rule (va.toNat % n ≠ 0) k1 k2)
  match s.xlate cluster va acc with
  | .error c =>
    if n1 < n then
      match s.xlate cluster (va + word n1) acc with
      | .ok y => (y.st, .error (kinds.getD c))
      | .error c2 => (s, .error (kinds.getD (if c2 = .pageFault then c2 else c)))
    else (s, .error (kinds.getD c))
  | .ok x =>
    if n1 < n then
      match x.st.xlate cluster (va + word n1) acc with
      | .error c => (x.st, .error (kinds.getD c))
      | .ok y =>
        match kinds with
        | some c => (y.st, .error c)
        | none => (y.st, y.st.placeCheck (spanBytes x.pa x.kind n1 ++ spanBytes y.pa y.kind (n - n1)))
    else
      match kinds with
      | some c => (x.st, .error c)
      | none => (x.st, x.st.placeCheck (spanBytes x.pa x.kind n))

/-- Whether a load of these bytes meets poison (07 R192, R205). -/
def State.anyPoison (s : State) (bs : List (Nat × Nat)) : Bool :=
  bs.any fun p => (p.2 = 3 || s.fromMemory p.1) && s.poisoned (s.cellOf p.1)

/-- The bytes a load returns: step-start state on a DS page, else the thread's own view (07 R179, R189). -/
def State.readBytes (s : State) (bs : List (Nat × Nat)) : List Byte :=
  bs.map fun p => if p.2 = 3 then s.byteAt (s.cellOf p.1) else s.ownByte p.1 (s.cellOf p.1)

/-- The lines of a load that its own stores do not cover go through the L2 (07 R168, R189). -/
def State.readLines (s : State) (stream : Bool) (bs : List (Nat × Nat)) : State :=
  match bs.filter fun p => p.2 = 3 || s.fromMemory p.1 with
  | [] => s
  | p :: ps =>
    let lines := ((p :: ps).map fun q => s.cellOf q.1 / 256).eraseDups
    lines.foldl (fun t l => t.l2Touch stream (256 * l)) s

/-- What a memory word is: its rule, the address, byte size, cluster and activity of each element, elements per group and
in all, and whether it carries the streaming hint. -/
structure MemShape where
  rule : ElemRule
  stream : Bool
  addr : Nat → Word
  size : Nat
  cluster : Nat → Nat
  act : Nat → Bool
  per : Nat
  total : Nat
  order : Nat

/-- Elements of group g: the first and how many. -/
def MemShape.span (m : MemShape) (g : Nat) : Nat × Nat := (g * m.per, min ((g + 1) * m.per) m.total - g * m.per)

/-- Groups of a memory word. -/
def MemShape.groups (m : MemShape) : Nat := ceilDiv m.total m.per

/-- A running memory word: the state, what it has read, and its stop. -/
structure MemAcc (α : Type) where
  st : State
  data : α
  stop : Option (Nat × ExcCause)

/-- Load n elements of a group from element i0, in increasing order; the lowest that fails stops the group (07 R205). -/
def loadElems {α : Type} (m : MemShape) (put : Nat → Nat → α → α) (i0 : Nat) : Nat → MemAcc α → MemAcc α
  | 0, a => a
  | n + 1, a0 =>
    let a := loadElems m put i0 n a0
    let i := i0 + n
    if a.stop.isSome || !m.act i then a
    else
      match a.st.elemCheck m.rule (m.cluster i) (m.addr i) m.size false .read with
      | (t, .error c) => { a with st := t, stop := some (i, c) }
      | (t, .ok bs) =>
        let t := match bs with | (_, 1) :: _ => t.soGate 1 | _ => t
        let waits := match bs with | (_, k) :: _ => t.soWaits k | [] => false
        if waits then { a with st := t, stop := some (i, .preemption) }
        else
          let u := t.readLines m.stream bs
          if u.anyPoison bs then { a with st := u, stop := some (i, .poison) }
          else { st := u, data := put i (leNat (u.readBytes bs)) a.data, stop := none }

/-- Load k groups from group lo; a group that fails writes nothing (07 R205). -/
def loadGroups {α : Type} (m : MemShape) (put : Nat → Nat → α → α) (idle : Nat → α → α) (lo : Nat) :
    Nat → MemAcc α → MemAcc α
  | 0, a => a
  | k + 1, a0 =>
    let a := loadGroups m put idle lo k a0
    if a.stop.isSome then a
    else
      let sp := m.span (lo + k)
      let r := loadElems m put sp.1 sp.2 a
      if r.stop.isSome then { r with data := a.data }
      else { r with data := forUpTo sp.2 (fun j d => if m.act (sp.1 + j) then d else idle (sp.1 + j) d) r.data }

/-- A stop of a memory word as the lanes report it; an element that waits is no stop (07 R179, R205; 11 R321, R322). -/
def memStop (m : MemShape) (o : Option (Nat × ExcCause)) : Option LStop :=
  match o with
  | none => none
  | some (_, .preemption) => none
  | some (i, .skew) => some { cause := .skew, index := 0, group := i / m.per, flags := 0 }
  | some (i, c) => some { cause := c, index := word i, group := i / m.per, flags := 0 }

/-- A LOAD over groups lo to hi − 1: the data it leaves, and what the lanes report (07 R199, R205). -/
def State.loadRun {α : Type} (s : State) (m : MemShape) (put : Nat → Nat → α → α) (idle : Nat → α → α) (lo hi : Nat)
    (d : α) : MemAcc α × Nat :=
  let top := min hi m.groups
  let a := loadGroups m put idle lo (top - lo) { st := s, data := d, stop := none }
  (a, match a.stop with | some (i, _) => i / m.per | none => top)

/-- One element write that has passed its checks: its cluster, its bytes, its value and the nibbles of each byte. -/
structure ElemWrite where
  index : Nat
  cluster : Nat
  bytes : List (Nat × Nat)
  value : List Byte
  mark : Nat
  order : Nat
  deriving DecidableEq, Repr

/-- Check the stores of n elements of a group from element i0, in increasing order; a nibble is no element of a window
(07 R205; 11 R308). -/
def storeElems (m : MemShape) (val : Nat → Nat) (mark : Nat → Nat) (i0 : Nat) :
    Nat → MemAcc (List ElemWrite) → MemAcc (List ElemWrite)
  | 0, a => a
  | n + 1, a0 =>
    let a := storeElems m val mark i0 n a0
    let i := i0 + n
    if a.stop.isSome || !m.act i then a
    else
      match a.st.elemCheck m.rule (m.cluster i) (m.addr i) m.size (mark i ≠ 3) .write with
      | (t, .error c) => { a with st := t, stop := some (i, c) }
      | (t, .ok bs) =>
        { st := t, stop := none,
          data := a.data ++
            [{ index := i, cluster := m.cluster i, bytes := bs, value := leBytes m.size (val i), mark := mark i, order := m.order + i }] }

/-- The new entries a group needs in a cluster (07 R184, R185). -/
def newEntries (t : Strip) (cluster : Nat) (remote : Option (Nat × Nat × Nat)) (ws : List ElemWrite) : Nat :=
  let blocks := ((ws.filter fun w => w.cluster = cluster).flatMap fun w => w.bytes.map fun p => p.1 / 64).eraseDups
  (blocks.filter fun k => !(t.entries.any fun e => e.strip = t.open_ && e.cluster = cluster && e.block = k && e.remote = remote)).length

/-- Whether a group would take the open strip above the allowance in a cluster (07 R186). -/
def State.overAllowance (s : State) (remote : Option (Nat × Nat × Nat)) (ws : List ElemWrite) : Bool :=
  (List.range s.width).any fun c => s.th.bind.stripA < s.th.st.held c + newEntries s.th.st c remote ws

/-- Whether a cluster lacks free entries for a group because draining strips hold them until they are acknowledged (07 R185). -/
def State.lacksEntries (s : State) (remote : Option (Nat × Nat × Nat)) (ws : List ElemWrite) : Bool :=
  (List.range s.width).any fun c =>
    1024 < s.th.st.inUse c + newEntries s.th.st c remote ws
      && (s.th.st.entries.any (fun e => e.cluster = c && e.strip ≠ s.th.st.open_) || s.th.st.unacked.any fun x => x.cluster = c)

/-- Enter an element's bytes in the strip store buffer (07 R184). -/
def enterBytes (p : PutAs) : List (Nat × Nat) → List Byte → Strip → Strip
  | (pa, kind) :: ps, b :: bs, t => enterBytes p ps bs (t.putByte { p with kind := kind } pa b)
  | _, _, t => t

/-- Enter a checked group, every write in increasing index: none where an early commit of R186 must come first or entries are short;
the state then has made what it could (07 R184 to R186). -/
def State.enterGroup (ws : List ElemWrite) (release stream : Bool) (remote : Option (Nat × Nat × Nat)) (s : State) :
    State × Bool :=
  let t := if s.overAllowance remote ws then s.earlyCommit else s
  if t.lacksEntries remote ws then (t, false)
  else
    (ws.foldl (fun u w => u.onSt fun b =>
      enterBytes
        { cluster := w.cluster, kind := 0, mark := w.mark, release := release, stream := stream, remote := remote, order := w.order }
        w.bytes w.value b) t, true)

/-- What picks the winner of a scatter: nothing, or one free choice for each element that meets an earlier one
(07 R191; DESIGN CHOICE, log 5). -/
inductive Winner where
  | last | free
  deriving DecidableEq, Repr

/-- The physical bytes of each element of a word whose checks have passed; none of an inactive one. -/
def elemPlaces (m : MemShape) (s : State) : List (List Nat) :=
  (List.range m.total).map fun i =>
    if m.act i then (List.range m.size).filterMap fun k =>
      match s.xlate (m.cluster i) (m.addr i + word k) .write with | .ok x => some x.pa | .error _ => none
    else []

/-- Keep of an element's bytes those it wins against the lower elements of its word, whose bytes are given: a naturally aligned unit
whole or not at all, any other byte by byte; writes to a window keep their order in it (07 R191; 11 R308). -/
def winBytes (lower : List (List Nat)) (m : MemShape) (w : ElemWrite) (s : State) : State × ElemWrite :=
  let meets := fun (k : Nat) => (w.bytes[k]?).any fun p => lower.any fun ps => ps.contains p.1
  if w.bytes.any (fun p => p.2 = 3) || (List.range m.size).all (fun k => !meets k) then (s, w)
  else if (m.addr w.index).toNat % m.size = 0 then
    let d := s.draw
    (d.2, if Config.freeChoice d.1 % 2 = 0 then w else { w with bytes := [], value := [] })
  else
    let d := s.draw
    let keep := (List.range m.size).filter fun k => !meets k || (Config.freeChoice d.1).testBit k
    (d.2, { w with bytes := keep.filterMap fun k => w.bytes[k]?, value := keep.filterMap fun k => w.value[k]? })

/-- Resolve the scatter race of a group's writes (07 R191). -/
def winAll (places : List (List Nat)) (m : MemShape) : List ElemWrite → State → State × List ElemWrite
  | [], s => (s, [])
  | w :: ws, s =>
    let r := winBytes (places.take w.index) m w s
    let q := winAll places m ws r.1
    (q.1, r.2 :: q.2)

/-- Whether a group of a store word holds its first elements on an SO page: none before it lies on one (07 R187). (DEDUCED, log 50.) -/
def State.firstSO (s : State) (m : MemShape) (before : Nat) (ws : List ElemWrite) : Bool :=
  ws.any (fun w => w.bytes.any fun p => p.2 = 1)
    && (List.range before).all fun i => !m.act i || s.pageKind (m.cluster i) (m.addr i) ≠ some 1

/-- Store k groups from group lo; a group that fails enters nothing, and one that lacks entries waits (07 R185, R187, R205). -/
def storeGroups (m : MemShape) (val : Nat → Nat) (mark : Nat → Nat) (winner : Winner) (release : Bool) (lo : Nat) :
    Nat → MemAcc (Nat × Bool) → MemAcc (Nat × Bool)
  | 0, a => a
  | k + 1, a0 =>
    let a := storeGroups m val mark winner release lo k a0
    if a.stop.isSome || a.data.2 then a
    else
      let sp := m.span (lo + k)
      let r := storeElems m val mark sp.1 sp.2 { st := a.st, data := [], stop := none }
      if r.stop.isSome then { st := r.st, data := a.data, stop := r.stop }
      else
        let g := if r.st.firstSO m sp.1 r.data then r.st.soGate 1 else r.st
        let q := if winner = .free then winAll (elemPlaces m g) m r.data g else (g, r.data)
        let u := q.1.enterGroup q.2 release m.stream none
        if u.2 then { st := u.1, data := (lo + k + 1, false), stop := none }
        else { st := u.1, data := (a.data.1, true), stop := none }

/-- A STORE over groups lo to hi − 1 (07 R199, R205). -/
def State.storeRun (s : State) (m : MemShape) (val : Nat → Nat) (mark : Nat → Nat) (winner : Winner) (release : Bool) (lo hi : Nat) :
    LaneOut :=
  let top := min hi m.groups
  let a := storeGroups m val mark winner release lo (top - lo) { st := s, data := (lo, false), stop := none }
  { st := a.st, reached := match a.stop with | some (i, _) => i / m.per | none => if a.data.2 then a.data.1 else top,
    stop := memStop m a.stop }

/-! ### Addresses of the words -/

/-- Bytes of an element in memory: one for the two elements of a 4-bit pair (07 R198). -/
def memSize (b : Nat) : Nat := if b = 4 then 1 else b / 8

/-- OFF, the signed 6-bit offset in va (07 Table 7.9). -/
def offOf (e : VEntry) : Int := sext 6 e.w.va.toNat

/-- The byte address of element i of a unit-stride or chunk word (07 R198; 11 R336). -/
def unitAddr (e : VEntry) (b i : Nat) : Word :=
  let base := if e.w.ch = 1 then e.sc else e.sc + BitVec.ofInt 64 (offOf e * memSize b)
  base + word (if b = 4 then i / 2 else i * memSize b)

/-- The byte address of element i of a strided word (07 R198). -/
def stridedAddr (e : VEntry) (b i : Nat) : Word :=
  e.sc + BitVec.ofInt 64 (offOf e * memSize b) + word i * e.sb

/-- Index bits of an indexed word: N32, I64 or N16 (07 Table 7.9). -/
def ixBits (e : VEntry) : Nat := match e.w.ixt with | 0 => 32 | 1 => 64 | _ => 16

/-- Index element i of v[va], at the width IXT gives (07 R198). -/
def State.indexOf (s : State) (e : VEntry) (i : Nat) : Nat := elemAt (vecGet s.th.ln.v e.w.va.toNat 0) (ixBits e) i

/-- The byte address of element i of an indexed word; SCL scales the index by the element size (07 R198). -/
def State.indexedAddr (s : State) (e : VEntry) (b i : Nat) : Word :=
  let x := s.indexOf e i
  let x : Word := if ixBits e = 64 then word x else word (x % 2 ^ ixBits e)
  e.sc + x * (if e.w.fnBits 10 1 = 1 then word (memSize b) else 1)

/-- The cluster of element i (05 R105). -/
def clusterOf (wid b i : Nat) : Nat := i * b / 8 % (wid * 64) / 64

/-- Whether a memory word carries the streaming hint (07 Table 7.9). -/
def VEntry.stream (e : VEntry) : Bool := e.w.hint = 1
/-- Whether a memory word is a release (07 Table 7.9). -/
def VEntry.release (e : VEntry) : Bool := e.w.ord = 2

/-- The shape of a word over the elements of its view. -/
def View.mem (v : View) (e : VEntry) (rule : ElemRule) (addr : Nat → Word) : MemShape :=
  { rule := rule, stream := e.stream, addr := addr, size := memSize v.b, cluster := clusterOf v.wid v.b, act := v.act, per := v.per,
    total := v.vl, order := vectorOrder e.seq 0 }

/-- The code of element i from the bytes read: a nibble for 4-bit elements (05 R105). -/
def nibbleOf (b i x : Nat) : Nat := if b = 4 then x / 16 ^ (i % 2) % 16 else x

/-- The bytes of element i to write: its nibble in place for 4-bit elements. -/
def nibbleIn (b i x : Nat) : Nat := if b = 4 then x % 16 * 16 ^ (i % 2) else x

/-- The nibbles of a byte that element i writes (07 R184, R199). -/
def nibbleMark (b i : Nat) : Nat := if b = 4 then i % 2 + 1 else 3

/-- A load word into v[vd] (07 R199); an acquire's cache effect comes with its completion (07 R182). -/
def State.loadWord (s : State) (e : VEntry) (rule : ElemRule) (addr : Nat → Nat → Word) (lo hi : Nat) : LaneOut :=
  let v := s.view e
  let m := v.mem e rule (addr v.b)
  let r := s.loadRun m (fun i x d => setElem d v.b i (nibbleOf v.b i x)) (fun i d => if v.mp then setElem d v.b i 0 else d)
    lo hi (vecGet s.th.ln.v e.w.vd.toNat 0)
  let t := r.1.st.setV e.w.vd.toNat r.1.data (progressOf r.2 v.groups 64) (v.whole r.2)
  { st := if e.w.ord = 1 && m.groups ≤ r.2 then t.acquire e.w.scope else t, reached := r.2, stop := memStop m r.1.stop }

/-- A store word from v[vd] (07 R199). -/
def State.storeWord (s : State) (e : VEntry) (rule : ElemRule) (winner : Winner) (addr : Nat → Nat → Word) (lo hi : Nat) :
    LaneOut :=
  let v := s.view e
  let m := v.mem e rule (addr v.b)
  s.storeRun m (fun i => nibbleIn v.b i (s.opD e v.b i)) (nibbleMark v.b) winner e.release lo hi

/-- The issue checks of an indexed word: whole bytes per element, and vl within the index width (07 R197, R198).
(DEDUCED, log 10.) -/
def State.indexedOk (s : State) (e : VEntry) : Bool := s.ebits e ≠ 4 && e.vl ≤ vlmax s.width (ixBits e)

/-- The lanes take the CHUNK that the front sent with the word (11 R336). -/
def State.takeChunk (e : VEntry) (s : State) : State := s.onFab fun f => { f with cchunk := e.x0 }

/-- vld: unit stride (07 R199). -/
def laneVld (e : VEntry) (lo hi : Nat) (s : State) : LaneOut := s.loadWord e .plain (unitAddr e) lo hi
/-- vld.c: the chunk whose base came with the word (07 R199; 11 R336). -/
def laneVldC (e : VEntry) (lo hi : Nat) (s : State) : LaneOut := (s.takeChunk e).loadWord e .plain (unitAddr e) lo hi
/-- vlds: strided (07 R199). -/
def laneVlds (e : VEntry) (lo hi : Nat) (s : State) : LaneOut :=
  if s.ebits e = 4 then issueFail s lo else s.loadWord e .plain (stridedAddr e) lo hi
/-- vldx: indexed (07 R199). -/
def laneVldx (e : VEntry) (lo hi : Nat) (s : State) : LaneOut :=
  if s.indexedOk e then s.loadWord e .plain (s.indexedAddr e) lo hi else issueFail s lo
/-- vldg: indexed, gathered by slice (07 R201). -/
def laneVldg (e : VEntry) (lo hi : Nat) (s : State) : LaneOut :=
  if s.indexedOk e then s.loadWord e .slice (s.indexedAddr e) lo hi else issueFail s lo
/-- vst: unit stride (07 R199). -/
def laneVst (e : VEntry) (lo hi : Nat) (s : State) : LaneOut := s.storeWord e .plain .last (unitAddr e) lo hi
/-- vst.c: the chunk whose base came with the word (07 R199; 11 R336). -/
def laneVstC (e : VEntry) (lo hi : Nat) (s : State) : LaneOut := (s.takeChunk e).storeWord e .plain .last (unitAddr e) lo hi
/-- vsts: strided; of two elements that write one byte the winner is free, as R185 refers a word's duplicates to the scatter rule
(07 R185, R191, R199; DEDUCED, log 80). -/
def laneVsts (e : VEntry) (lo hi : Nat) (s : State) : LaneOut :=
  if s.ebits e = 4 then issueFail s lo else s.storeWord e .plain .free (stridedAddr e) lo hi
/-- vstx: indexed; the winner of a race is not defined (07 R191, R199). -/
def laneVstx (e : VEntry) (lo hi : Nat) (s : State) : LaneOut :=
  if s.indexedOk e then s.storeWord e .plain .free (s.indexedAddr e) lo hi else issueFail s lo
/-- vstxo: indexed, in increasing index order (07 R191, R199). -/
def laneVstxo (e : VEntry) (lo hi : Nat) (s : State) : LaneOut :=
  if s.indexedOk e then s.storeWord e .plain .last (s.indexedAddr e) lo hi else issueFail s lo
/-- vstg: indexed, scattered by slice (07 R201). -/
def laneVstg (e : VEntry) (lo hi : Nat) (s : State) : LaneOut :=
  if s.indexedOk e then s.storeWord e .slice .free (s.indexedAddr e) lo hi else issueFail s lo

/-! ### Tiles through the shape table -/

/-- ROWS of a shape entry (05 Table 5.3). -/
def shRows (x : Word) : Nat := bitsOf x 35 20
/-- COLS of a shape entry (05 Table 5.3). -/
def shCols (x : Word) : Nat := bitsOf x 19 4
/-- FMT of a shape entry (05 Table 5.3). -/
def shFmt (x : Word) : Nat := bitsOf x 3 0
/-- FSEL of a shape entry (05 Table 5.3). -/
def shFsel (x : Word) : Nat := bitsOf x 38 36

/-- Bits of one register of a thread (01 R17). -/
def regBits (wid : Nat) : Nat := wid * 32768

/-- Element i of b bits of group q, read as one row-major vector of its four registers (05 R113). -/
def Lanes.groupElem (l : Lanes) (wid q b i : Nat) : Nat :=
  elemAt (vecGet l.v (4 * q + i * b / regBits wid) 0) b (i % (regBits wid / b))

/-- Four registers of a group as a list, the lowest first. -/
def Lanes.group (l : Lanes) (q : Nat) : List VReg := [0, 1, 2, 3].map fun k => vecGet l.v (4 * q + k) 0

/-- The four registers of a group replaced; their progress stays as it is. -/
def Lanes.putGroup (q : Nat) (g : List VReg) (l : Lanes) : Lanes :=
  g.zipIdx.foldl (fun l x => { l with v := vecSet l.v (4 * q + x.2) x.1 }) l

/-- Replace element i of b bits of a group. -/
def setGroupElem (wid b i x : Nat) (g : List VReg) : List VReg :=
  let k := i * b / regBits wid
  g.mapIdx fun j r => if j = k then setElem r b (i % (regBits wid / b)) x else r

/-- Write a group's four registers, with their progress in leading complete groups; a complete one is written whole (05 R120; 07 R200;
14 R421). -/
def State.setGroup (q : Nat) (g : List VReg) (prog : Nat → Nat) (s : State) : State :=
  (g.zipIdx).foldl (fun t x => t.setV (4 * q + x.2) x.1 (prog x.2) (prog x.2 = 64)) s

/-- The checks of vld.q and vst.q on the shape entry (07 R200). -/
def State.tileOk (s : State) (e : VEntry) : Bool :=
  let x := vecGet s.th.ln.shape (e.w.vd.toNat / 4) 0
  shRows x ≠ 0 && shFmt x = e.w.ety.code && (e.w.ety != .fmt || shFsel x = vtFsel e.vtype)
    && (s.ebits e ≠ 4 || shCols x % 2 = 0)

/-- Bits lo to hi − 1 of a group's row-major vector taken from another (05 R113). -/
def mixGroup (wid lo hi : Nat) (new old : List VReg) : List VReg :=
  let n := regBits wid
  old.mapIdx fun k r =>
    let a := min (lo - n * k) n
    let w := min (hi - n * k) n - a
    setField r a w (field (new.getD k 0) a w)

/-- What a word that writes group q whole leaves in its fresh slot from bit n to bit m while it has written the bits below n: nothing
states it, so it is a free value from the word's first issue (lo is 0 there) until it is written (01 R18; 05 R120; DESIGN CHOICE,
log 71). -/
def State.freshSlot (q lo n m : Nat) (new : List VReg) (s : State) : State × List VReg :=
  if m ≤ n then (s, new)
  else if lo = 0 then
    ({ s with freeCount := s.freeCount + 4 },
     mixGroup s.width n m ((List.range 4).map fun k => BitVec.ofNat vregBits (Config.freeChoice (s.freeCount + k))) new)
  else (s, mixGroup s.width n m (s.th.ln.group q) new)

/-- The shape of a tile access: element r × COLS + c at base + r × pitch + c × sz (07 R200). -/
def State.tileMem (s : State) (e : VEntry) : MemShape :=
  let x := vecGet s.th.ln.shape (e.w.vd.toNat / 4) 0
  let b := s.ebits e
  let cols := shCols x
  let pitch : Word := if e.w.vb = 0 then word (if b = 4 then cols / 2 else cols * memSize b) else e.sb
  let base := e.sc + BitVec.ofInt 64 (offOf e * memSize b)
  { rule := .plain, stream := e.stream, size := memSize b, act := fun _ => true, per := perGroup s.width b, total := shRows x * cols, order := vectorOrder e.seq 0,
    cluster := clusterOf s.width b,
    addr := fun i => base + word (i / cols) * pitch + word (if b = 4 then i % cols / 2 else i % cols * memSize b) }

/-- Which nibble of its byte tile element i is: by its column (07 R200). -/
def State.tileNib (s : State) (e : VEntry) (i : Nat) : Nat := i % shCols (vecGet s.th.ln.shape (e.w.vd.toNat / 4) 0)

/-- vld.q: a whole group from memory, zero beyond the tile (07 R200). -/
def laneVldQ (e : VEntry) (lo hi : Nat) (s : State) : LaneOut :=
  if !s.tileOk e then issueFail s lo
  else
    let b := s.ebits e
    let m := s.tileMem e
    let q := e.w.vd.toNat / 4
    let line := 512 * s.width
    let zero := (s.th.ln.group q).map fun _ => (0 : VReg)
    let r := s.loadRun m (fun i x g => setGroupElem s.width b i (nibbleOf b (s.tileNib e i) x) g) (fun _ g => g) lo hi
      (mixGroup s.width 0 (lo * line) (s.th.ln.group q) zero)
    let lead := fun (k : Nat) => if m.groups ≤ r.2 ∨ m.groups ≤ 64 * k then 64 else min 64 (r.2 - 64 * k)
    let g := r.1.st.freshSlot q lo (r.2 * line) (m.groups * line) r.1.data
    let t := g.1.setGroup q g.2 lead
    { st := if e.w.ord = 1 && m.groups ≤ r.2 then t.acquire e.w.scope else t, reached := r.2, stop := memStop m r.1.stop }

/-- vst.q: a tile to memory; of two elements that a pitch puts on one byte the winner is free, but for nibbles, the halves of one byte
(07 R185, R191, R200; DEDUCED, log 80). -/
def laneVstQ (e : VEntry) (lo hi : Nat) (s : State) : LaneOut :=
  if !s.tileOk e then issueFail s lo
  else
    let b := s.ebits e
    let q := e.w.vd.toNat / 4
    s.storeRun (s.tileMem e) (fun i => nibbleIn b (s.tileNib e i) (s.th.ln.groupElem s.width q b i))
      (fun i => nibbleMark b (s.tileNib e i)) (if b = 4 then .last else .free) e.release lo hi

/-- Touch n elements of a prefetch from element i0: walks happen, lines of pages other than DS ones miss into the L2, and no element
faults; a poisoned line is skipped (07 R202). -/
def prefElems (m : MemShape) (i0 : Nat) : Nat → State → State
  | 0, s => s
  | n + 1, s0 =>
    let s := prefElems m i0 n s0
    if m.act (i0 + n) then
      match s.elemCheck m.rule (m.cluster (i0 + n)) (m.addr (i0 + n)) m.size false .read with
      | (t, .error _) => t
      | (t, .ok bs) =>
        let lines := (bs.map fun p => t.cellOf p.1 / 256).eraseDups
        if bs.any (fun p => p.2 = 3) || lines.any t.linePoisoned then t
        else lines.foldl (fun u l => u.l2Fill (256 * l)) t
    else s

/-- vpref: warms the TLBs and the L2 for the lines a vld would read (07 R202). -/
def laneVpref (e : VEntry) (lo hi : Nat) (s : State) : LaneOut :=
  let v := s.view e
  let m := v.mem e .plain (unitAddr e v.b)
  let top := min hi m.groups
  { st := prefElems m (lo * m.per) (min (top * m.per) m.total - lo * m.per) s, reached := top, stop := none }

/-- scommit: the open strip commits; sbase moved when the front sent the word (07 R203). -/
def laneScommit (_ : VEntry) (_ _ : Nat) (s : State) : LaneOut := laneDone s.commit

/-- cutstep: the schedule pointer of the context on the die grows to s[vc] [15:0] (07 R170, R204). -/
def laneCutstep (e : VEntry) (lo _ : Nat) (s : State) : LaneOut :=
  if bitsOf e.sc 63 16 ≠ 0 then issueFail s lo
  else
    let d := s.th.bind.die
    laneDone (s.onCtx s.th.bind.ctx fun c =>
      let old := ((c.sched.find? fun p => p.1 = d).map (·.2)).getD 0
      { c with sched := (d, max old (bitsOf e.sc 15 0)) :: c.sched.filter fun p => p.1 ≠ d })

end Sys2Proof.Machine
end

