-- ==== Sys2Proof/Machine/Matrix.lean ====
section
/-! DEFINITION. What the lanes and the Truss do with the words of majors 0x50 to 0x57 and with mmode and tshape
(spec/08_matrix_instructions.md R210 to R234). -/

namespace Sys2Proof.Machine

/-- CLS of mcfg (08 Table 8.1). -/
def mcCls (c : BitVec 7) : Nat := c.toNat % 4
/-- SPN of mcfg (08 Table 8.1). -/
def mcSpn (c : BitVec 7) : Nat := c.toNat / 4 % 4
/-- SCL of mcfg (08 Table 8.1). -/
def mcScl (c : BitVec 7) : Nat := c.toNat / 16 % 4
/-- SAT of mcfg (08 Table 8.1). -/
def mcSat (c : BitVec 7) : Bool := c.getLsbD 6
/-- g, the k-rows of a step: 1, 2, 4 by class (08 R211). -/
def mcG (c : BitVec 7) : Nat := 2 ^ mcCls c
/-- N of the sparsity (08 Table 8.1). -/
def mcN (c : BitVec 7) : Nat := match mcSpn c with | 1 => 24 | 2 => 16 | _ => 12
/-- KMAX of a configuration (08 Table 8.3, R212). -/
def kmaxOf (c : BitVec 7) : Nat :=
  let dense := 256 * mcG c
  if mcSpn c = 0 then dense else dense / 48 * 48

/-- A tile: its group, extents, element type and width (08 R216; 05 R113). -/
structure Tile where
  q : Nat
  rows : Nat
  cols : Nat
  ety : EType
  fsel : Nat
  b : Nat

/-- The tile of a group through its shape entry; none when it is unshaped or its format register is not valid
(05 R114; 08 R222). -/
def State.tile (s : State) (q : Nat) : Option Tile :=
  let x := vecGet s.th.ln.shape q 0
  match EType.ofCode (shFmt x) with
  | none => none
  | some t =>
    if shRows x = 0 || !s.th.ln.typeOk (shFsel x) t then none
    else some { q := q, rows := shRows x, cols := shCols x, ety := t, fsel := shFsel x, b := s.th.ln.bits (shFsel x) t }

/-- The code of tile element (r, c) (05 R113). -/
def State.tileAt (s : State) (t : Tile) (r c : Nat) : Nat :=
  let x := s.th.ln.groupElem s.width t.q t.b (r * t.cols + c)
  if t.ety = .fmt then x % 2 ^ (s.th.ln.fp t.fsel .fmt).width else x

/-- The value of tile element (r, c) of an FP tile. -/
def State.tileFp (s : State) (t : Tile) (r c : Nat) : FVal := (s.th.ln.fp t.fsel t.ety).decode (s.tileAt t r c)

/-- The operand types a class accepts (08 Table 8.5). -/
def classHas (l : Lanes) (cls : Nat) (int : Bool) (t : Tile) : Bool :=
  let wid := fmtField (l.fmtWord t.fsel) 0 4
  if int then cls = 1 && (t.ety = .i8 || t.ety = .n8)
  else match cls with
    | 0 => t.ety = .bf16 || t.ety = .fp16
    | 1 => t.ety = .e4m3 || t.ety = .e5m2 || (t.ety = .fmt && 5 ≤ wid)
    | _ => t.ety = .fmt && wid ≤ 4

/-- A step's exact product, and whether it raises NV by itself, as a NaN scale does beside every operand (08 R218): sA and sB are the scales
in force. -/
def trussProd (a b : FVal) (scales : Option (Option (Nat × Int) × Option (Nat × Int))) : FVal × Bool :=
  let badScale := scales.any fun x => x.1.isNone || x.2.isNone
  if a.isNan || b.isNan then (.nan false, a.isSig || b.isSig || badScale)
  else
    match prodV a b with
    | none => (.nan false, true)
    | some p =>
      match scales with
      | none => (p, false)
      | some (some x, some y) =>
        (match p with | .fin n m e => .fin n (m * x.1 * y.1) (e + x.2 + y.2) | v => v, false)
      | some _ => (.nan false, true)

/-- A finite value in units of 2^u, truncated toward −∞ (08 R218). -/
def floorTo (u : Int) : FVal → Int
  | .fin n m e =>
    let x : Int := if n then -(m : Int) else m
    if u ≤ e then x * (2 ^ (e - u).toNat : Nat) else x / (2 ^ (u - e).toNat : Nat)
  | _ => 0

/-- Whether a finite value is no multiple of 2^u (08 R218). -/
def offGrid (u : Int) : FVal → Bool
  | .fin _ m e => e < u && m % 2 ^ (u - e).toNat ≠ 0
  | _ => false

/-- floor(log2 |x|) of a finite value that is not zero. -/
def topBit : FVal → Int
  | .fin _ m e => Nat.log2 m + e
  | _ => 0

/-- TrussAdd on values: the held value c and the step's products with their NV marks (08 R218). -/
def trussAdd (c : Nat) (ps : List (FVal × Bool)) : Elt :=
  let cv := fp32.decode c
  let all := cv :: ps.map (·.1)
  let plus := all.any fun v => v = .inf false
  let minus := all.any fun v => v = .inf true
  if all.any FVal.isNan || (plus && minus) then
    (0x7FC00000, if cv.isSig || ps.any (·.2) || (plus && minus) then fNV else 0)
  else if plus then fp32.infOut false
  else if minus then fp32.infOut true
  else
    match all.filter fun v => !v.isZero with
    | [] => (if all.all FVal.sign then 0x80000000 else 0, 0)
    | x :: xs =>
      let emax := xs.foldl (fun m v => max m (topBit v)) (topBit x)
      let u := emax - 47
      let t := (x :: xs).foldl (fun a v => a + floorTo u v) 0
      let st : Int := if (x :: xs).any (offGrid u) then 1 else 0
      let n := 2 * t + st
      if n = 0 then (0, 0) else fp32.roundFin 0 (n < 0) n.natAbs (u - 1) false

/-- The addition of an INT-tagged accumulator (08 R219). -/
def trussInt (sat : Bool) (c : Nat) (sum : Int) : Elt :=
  let n := sext 32 c + sum
  if sat then satInt true 32 n else (wrap 32 n, 0)

/-- Cell (i, j) of a tile (08 R210). -/
def cellAt (a : AccTile) (i j : Nat) : Nat := field a (32 * (128 * i + j)) 32

/-- What an outer-product word runs with: operands, extents, steps and the products of each step of a cell. -/
structure Outer where
  tm : Nat
  tn : Nat
  steps : Nat
  add : Nat → Nat → Nat → Nat → Elt

/-- A cell through n steps from lo (08 R223). -/
def cellSteps (add : Nat → Nat → Elt) (lo : Nat) (c0 : Elt) : Nat → Elt
  | 0 => c0
  | n + 1 =>
    let a := cellSteps add lo c0 n
    let r := add (lo + n) a.1
    (r.1, a.2 ||| r.2)

/-- Every cell of the region through steps lo to top − 1: the tile and the flags (08 R223). -/
def Outer.run (o : Outer) (lo top : Nat) (a : AccTile) : AccTile × Flags :=
  forUpTo (o.tm * o.tn) (fun x (r : AccTile × Flags) =>
    let i := x / o.tn
    let j := x % o.tn
    let c := cellSteps (fun step c => o.add i j step c) lo (cellAt a i j, 0) (top - lo)
    (setField r.1 (32 * (128 * i + j)) 32 c.1, r.2 ||| c.2)) (a, 0)

/-- Enter steps lo to hi − 1 of an outer-product word (08 R223, R234); its flags wait for its completion. -/
def State.outerRun (s : State) (e : VEntry) (o : Outer) (lo hi : Nat) : LaneOut :=
  let top := min hi o.steps
  let n := e.w.vd.toNat
  let r := o.run lo top (vecGet s.th.tr.acc n 0)
  { st := s.onTr fun t => { t with acc := vecSet t.acc n r.1 }, reached := top, stop := none, pend := r.2 }

/-- The steps of a word that enters none: it completes with no effect (08 R222). -/
def outerNone (s : State) : LaneOut := { st := s, reached := 0, stop := none }

/-- The scale pair of k-row k for cell (i, j), when MX scales are on (08 R220). -/
def State.scalesOf (s : State) (c : BitVec 7) (tk : Nat) (qc : Option Tile) (k i j : Nat) :
    Option (Option (Nat × Int) × Option (Nat × Int)) :=
  match qc with
  | none => none
  | some t =>
    let sty := if mcScl c = 1 then 1 else 0
    some (scaleOf sty (s.tileAt t (k / 32) i), scaleOf sty (s.tileAt t (tk / 32 + k / 32) j))

/-- The scale group of a dense float word: none needed, or a group that meets R220; the outer option says whether the word
may run. -/
def State.scaleGroup (s : State) (e : VEntry) (c : BitVec 7) : Option (Option Tile) :=
  if mcScl c = 0 then (if e.w.vc = 0 then some none else none)
  else
    match s.tile (e.w.vc.toNat / 4) with
    | none => none
    | some t =>
      let tr := s.th.tr
      if t.ety = (if mcScl c = 1 then EType.n8 else EType.n16) && 2 * (tr.tk / 32) ≤ t.rows && max tr.tm tr.tn ≤ t.cols then
        some (some t)
      else none

/-- The k-rows of dense step c (08 R223). -/
def stepRows (g tk c : Nat) : List Nat := (List.range g).filterMap fun x => if c * g + x < tk then some (c * g + x) else none

/-- mouter: dense FP outer products (08 R218, R221 to R223). -/
def laneMouter (e : VEntry) (lo hi : Nat) (s : State) : LaneOut :=
  let tr := s.th.tr
  let c := tr.mcfg
  match s.tile (e.w.va.toNat / 4), s.tile (e.w.vb.toNat / 4), s.scaleGroup e c with
  | some a, some b, some sc =>
    if !(classHas s.th.ln (mcCls c) false a && classHas s.th.ln (mcCls c) false b) || mcSpn c ≠ 0
        || vecGet tr.tagInt e.w.vd.toNat false || a.rows < tr.tk || a.cols < tr.tm || b.rows < tr.tk || b.cols < tr.tn then
      issueFail s lo
    else if tr.tm = 0 || tr.tn = 0 || tr.tk = 0 then outerNone s
    else
      let add := fun i j step x =>
        trussAdd x ((stepRows (mcG c) tr.tk step).map fun k =>
          trussProd (s.tileFp a k i) (s.tileFp b k j) (s.scalesOf c tr.tk sc k i j))
      s.outerRun e { tm := tr.tm, tn := tr.tn, steps := ceilDiv tr.tk (mcG c), add := add } lo hi
  | _, _, _ => issueFail s lo

/-- mouteri: dense integer outer products (08 R219, R221 to R223). -/
def laneMouteri (e : VEntry) (lo hi : Nat) (s : State) : LaneOut :=
  let tr := s.th.tr
  let c := tr.mcfg
  match s.tile (e.w.va.toNat / 4), s.tile (e.w.vb.toNat / 4) with
  | some a, some b =>
    if !(classHas s.th.ln (mcCls c) true a && classHas s.th.ln (mcCls c) true b) || mcSpn c ≠ 0 || mcScl c ≠ 0
        || mcCls c ≠ 1 || e.w.vc ≠ 0 || !vecGet tr.tagInt e.w.vd.toNat false || a.rows < tr.tk || a.cols < tr.tm
        || b.rows < tr.tk || b.cols < tr.tn then
      issueFail s lo
    else if tr.tm = 0 || tr.tn = 0 || tr.tk = 0 then outerNone s
    else
      let add := fun i j step x =>
        trussInt (mcSat c) x ((stepRows (mcG c) tr.tk step).foldl (fun t k =>
          t + eltInt a.ety a.b (s.tileAt a k i) * eltInt b.ety b.b (s.tileAt b k j)) 0)
      s.outerRun e { tm := tr.tm, tn := tr.tn, steps := ceilDiv tr.tk (mcG c), add := add } lo hi
  | _, _ => issueFail s lo

/-- The first (q, j) of steps lo to top − 1 whose metadata is above 47 (08 R224). -/
def State.badMeta (s : State) (meta_ : Tile) (tn g lo top : Nat) : Option (Nat × Nat) :=
  (firstIx (fun x => 47 < s.tileAt meta_ (lo * g + x / tn) (x % tn)) 0 ((top - lo) * g * tn)).map fun x =>
    (lo * g + x / tn, x % tn)

/-- mouterc: compressed B, float or integer (08 R221 to R224). -/
def laneMouterc (e : VEntry) (lo hi : Nat) (s : State) : LaneOut :=
  let tr := s.th.tr
  let c := tr.mcfg
  let n := mcN c
  let g := mcG c
  let int := e.w.ety = .i32
  match s.tile (e.w.va.toNat / 4), s.tile (e.w.vb.toNat / 4), s.tile (e.w.vc.toNat / 4) with
  | some a, some b, some mt =>
    let crow := tr.tk * n / 48
    if !(classHas s.th.ln (mcCls c) int a && classHas s.th.ln (mcCls c) int b) || mcSpn c = 0 || mcScl c ≠ 0
        || vecGet tr.tagInt e.w.vd.toNat false ≠ int || a.rows < tr.tk || a.cols < tr.tm || b.rows < crow || b.cols < tr.tn
        || mt.ety ≠ .n8 || mt.rows < crow || mt.cols < tr.tn then
      issueFail s lo
    else if tr.tm = 0 || tr.tn = 0 || tr.tk = 0 then outerNone s
    else
      let steps := crow / g
      let top := min hi steps
      let bad := s.badMeta mt tr.tn g lo top
      let stopAt := match bad with | some x => x.1 / g | none => top
      let row := fun q j => 48 * (q / n) + s.tileAt mt q j
      let qs := fun step => (List.range g).map fun x => step * g + x
      let add := fun i j step x =>
        if int then
          trussInt (mcSat c) x ((qs step).foldl (fun t q =>
            t + eltInt a.ety a.b (s.tileAt a (row q j) i) * eltInt b.ety b.b (s.tileAt b q j)) 0)
        else trussAdd x ((qs step).map fun q => trussProd (s.tileFp a (row q j) i) (s.tileFp b q j) none)
      let r := s.outerRun e { tm := tr.tm, tn := tr.tn, steps := steps, add := add } lo stopAt
      { r with stop := bad.map fun x =>
          { cause := .illegal, index := word (x.1 * mt.cols + x.2), group := x.1 / g, flags := 0 } }
  | _, _, _ => issueFail s lo

/-- mzero: every element zero and the tag of the type (08 R227). -/
def laneMzero (e : VEntry) (_ _ : Nat) (s : State) : LaneOut :=
  laneDone (s.onTr fun t => { t with acc := vecSet t.acc e.w.vd.toNat 0, tagInt := vecSet t.tagInt e.w.vd.toNat (e.w.ety = .i32) })

/-- mlacc: the tile of a group, zero elsewhere, and the tag of the type (08 R228). -/
def laneMlacc (e : VEntry) (lo _ : Nat) (s : State) : LaneOut :=
  match s.tile (e.w.va.toNat / 4) with
  | none => issueFail s lo
  | some t =>
    if t.ety ≠ e.w.ety || 128 < t.rows || 128 < t.cols then issueFail s lo
    else
      let a := forUpTo (t.rows * t.cols) (fun x (a : AccTile) =>
        setField a (32 * (128 * (x / t.cols) + x % t.cols)) 32 (s.tileAt t (x / t.cols) (x % t.cols))) 0
      laneDone (s.onTr fun r => { r with acc := vecSet r.acc e.w.vd.toNat a, tagInt := vecSet r.tagInt e.w.vd.toNat (e.w.ety = .i32) })

/-- One cell of mscale: the exact product of the cell and two FP32 factors, rounded once (08 R229). -/
def scaleCell (int : Bool) (x : Nat) (a b : FVal) : Elt :=
  let c : FVal := if int then .fin (sext 32 x < 0) (sext 32 x).natAbs 0 else fp32.decode x
  let infZero := (c.isZero || a.isZero || b.isZero) && (c.isInf || a.isInf || b.isInf)
  if c.isNan || a.isNan || b.isNan then fp32.nanOf (c.isSig || a.isSig || b.isSig || infZero)
  else
    if infZero then fp32.invalid
    else
      match prodV c a with
      | none => fp32.invalid
      | some p => fp32.mulV 0 p b

/-- mscale: every cell scaled in place; the tag becomes FP (08 R229). -/
def laneMscale (e : VEntry) (_ _ : Nat) (s : State) : LaneOut :=
  let n := e.w.vd.toNat
  let old := vecGet s.th.tr.acc n 0
  let int := vecGet s.th.tr.tagInt n false
  let va := vecGet s.th.ln.v e.w.va.toNat 0
  let vb := vecGet s.th.ln.v e.w.vb.toNat 0
  let r := forUpTo 16384 (fun x (r : AccTile × Flags) =>
    let c := scaleCell int (cellAt old (x / 128) (x % 128)) (fp32.decode (elemAt va 32 (x / 128)))
      (fp32.decode (elemAt vb 32 (x % 128)))
    (setField r.1 (32 * x) 32 c.1, r.2 ||| c.2)) (old, 0)
  laneDone ((s.onTr fun t => { t with acc := vecSet t.acc n r.1, tagInt := vecSet t.tagInt n false }).orLaneFlags r.2)

/-- The etype and tag rules of mtov and mdrain (08 R230). -/
def drainOk (e : VEntry) (int : Bool) : Bool := if int then e.w.ety = .i32 else e.w.ety ≠ .i32

/-- Conv of a cell: the encoding, or Round for BF16 and FP16 (08 R230, R231). -/
def drainConv (e : VEntry) (x : Nat) : Elt :=
  match e.w.ety with
  | .bf16 => bf16.round (vtFrm e.vtype) (fp32.decode x)
  | .fp16 => fp16.round (vtFrm e.vtype) (fp32.decode x)
  | _ => (x, 0)

/-- mtov: the whole tile into a group, row by row; zero above, and the group's shape, which its first issue sets (08 R230, R234). -/
def laneMtov (e : VEntry) (lo hi : Nat) (s : State) : LaneOut :=
  let n := e.w.va.toNat
  let int := vecGet s.th.tr.tagInt n false
  if !drainOk e int then issueFail s lo
  else
    let b := s.ebits e
    let q := e.w.vd.toNat / 4
    let a := vecGet s.th.tr.acc n 0
    let f := fun x => drainConv e (cellAt a (x / 128) (x % 128))
    let top := min hi 128
    let traps := s.th.ln.traps
    let bad := firstIx (fun x => (f x).2 &&& traps ≠ 0) (lo * 128) ((top - lo) * 128)
    let reach := match bad with | some x => x / 128 | none => top
    let old := if lo = 0 then (s.th.ln.group q).map fun _ => (0 : VReg) else s.th.ln.group q
    let g := forUpTo ((reach - lo) * 128) (fun k g => setGroupElem s.width b (lo * 128 + k) (f (lo * 128 + k)).1 g) old
    let fl := orFlags (fun x => (f x).2) (lo * 128) ((reach - lo) * 128)
    let shape := word (e.w.ety.code + 128 * 2 ^ 4 + 128 * 2 ^ 20 + vtFsel e.vtype * 2 ^ 36)
    let g1 := s.freshSlot q lo (reach * 128 * b) (128 * 128 * b) g
    let t := (g1.1.setGroup q g1.2 fun k => if reach = 128 then 64 else min 64 (reach * 128 * b / (512 * s.width) - 64 * k)).orLaneFlags fl
    { st := if lo = 0 then t.onLn fun l => { l with shape := vecSet l.shape q shape } else t,
      reached := reach, stop := bad.map fun x =>
        { cause := .arithmetic, index := word x, group := x / 128, flags := (f x).2 &&& traps } }

/-- Where mdrain stores: rows of vl elements at the pitch, within vl (08 R231). -/
def State.drainMem (s : State) (e : VEntry) : MemShape :=
  let v := s.view e
  let sz := memSize v.b
  let pitch : Word := if e.w.vb = 0 then word (e.vl * sz) else e.sb
  let base := e.sc + BitVec.ofInt 64 (offOf e * sz)
  { rule := .plain, stream := e.stream, size := sz, act := fun x => v.act (x % e.vl), per := e.vl, total := s.th.tr.tm * e.vl,
    order := vectorOrder e.seq 0, cluster := fun x => clusterOf v.wid v.b (x % e.vl),
    addr := fun x => base + word (x / e.vl) * pitch + word (x % e.vl * sz) }

/-- mdrain: rows of the tile to memory through the strip store buffer, in the order of R231; a row that raises an enabled flag stops
before its stores are checked (08 R231; DESIGN CHOICE, log 73). -/
def laneMdrain (e : VEntry) (lo hi : Nat) (s : State) : LaneOut :=
  let n := e.w.vd.toNat
  let int := vecGet s.th.tr.tagInt n false
  if !drainOk e int || 128 < e.vl then issueFail s lo
  else if e.vl = 0 then { st := s, reached := hi, stop := none }
  else
    let v := s.view e
    let a := vecGet s.th.tr.acc n 0
    let f := fun x => drainConv e (cellAt a (x / e.vl) (x % e.vl))
    let act := fun x => v.act (x % e.vl)
    let m := s.drainMem e
    let top := min hi m.groups
    let bad := firstIx (fun x => act x && (f x).2 &&& v.traps ≠ 0) (lo * e.vl) ((top - lo) * e.vl)
    let lim := match bad with | some x => x / e.vl | none => top
    let r := s.storeRun m (fun x => (f x).1) (fun _ => 3) .last e.release lo lim
    let fl := orFlags (fun x => if act x then (f x).2 else 0) (lo * e.vl) ((r.reached - lo) * e.vl)
    let at_ := fun x => word (x / e.vl * 128 + x % e.vl)
    { st := r.st.orLaneFlags fl, reached := r.reached,
      stop := match r.stop with
        | some x => some { x with index := at_ x.index.toNat }
        | none => if r.reached < lim then none else bad.map fun x =>
            { cause := .arithmetic, index := at_ x, group := x / e.vl, flags := (f x).2 &&& v.traps } }

/-- mmode: mcfg and mvl, and the extents back to zero (08 R212, R214). -/
def laneMmode (e : VEntry) (_ _ : Nat) (s : State) : LaneOut :=
  let c := BitVec.ofNat 7 e.w.fn.toNat
  laneDone (s.onTr fun t => { t with mcfg := c, mvl := word (128 * 2 ^ 24 + 128 * 2 ^ 16 + kmaxOf c), tm := 0, tn := 0, tk := 0 })

/-- tshape: the extents the front granted (08 R215). -/
def laneTshape (e : VEntry) (_ _ : Nat) (s : State) : LaneOut :=
  laneDone (s.onTr fun t => { t with tm := bitsOf e.x0 47 32, tn := bitsOf e.x0 31 16, tk := bitsOf e.x0 15 0 })

end Sys2Proof.Machine
end

