-- ==== Sys2Proof/Machine/Brace.lean ====
section
/-! DEFINITION. What the lanes and the Brace do with the words of majors 0x58 to 0x5E
(spec/09_rotator_instructions.md R238 to R261). -/

namespace Sys2Proof.Machine

/-- T_i = RNE(2^31 × atan(2^(−i)) / π) for i from 0 to 25 (09 R243). -/
def atanTable : List Nat :=
  [0x20000000, 0x12E4051E, 0x9FB385B, 0x51111D4, 0x28B0D43, 0x145D7E1, 0xA2F61E, 0x517C55, 0x28BE53, 0x145F2F, 0xA2F98,
   0x517CC, 0x28BE6, 0x145F3, 0xA2FA, 0x517D, 0x28BE, 0x145F, 0xA30, 0x518, 0x28C, 0x146, 0xA3, 0x51, 0x29, 0x14]

/-- g_N for N from 0 to 12; from 12 on it is one value (09 Table 9.2). -/
def gainTable : List Nat :=
  [0x3F800000, 0x3F3504F3, 0x3F21E89B, 0x3F1D130E, 0x3F1BDC8A, 0x3F1B8ED6, 0x3F1B7B68, 0x3F1B768C, 0x3F1B7555, 0x3F1B7508,
   0x3F1B74F4, 0x3F1B74EF, 0x3F1B74EE]

/-- g_N (09 Table 9.2). -/
def gainOf (n : Nat) : Nat := gainTable.getD (min n 12) 0

/-- The canonical FP32 NaN (09 R241). -/
def nan32 : Nat := 0x7FC00000
/-- The DIR32 word of a bypass (09 R242). -/
def bypassDir : Nat := 0x80000000

/-- An FP32 code with its sign inverted. -/
def neg32 (x : Nat) : Nat := fp32.withSign x (!fp32.negCode x)
/-- An FP32 code is ±0. -/
def zero32 (x : Nat) : Bool := (fp32.decode x).isZero
/-- An FP32 code is a NaN or ±∞. -/
def nonFinite32 (x : Nat) : Bool := (fp32.decode x).isNan || (fp32.decode x).isInf
/-- An FP32 code is above zero. -/
def positive32 (x : Nat) : Bool := !(fp32.decode x).isZero && !(fp32.decode x).sign

/-- Q counterclockwise quarter-turns of a pair (09 R239). -/
def quarterTurns (a b : Nat) : Nat → Nat × Nat
  | 0 => (a, b)
  | q + 1 => let r := quarterTurns a b q; (neg32 r.2, r.1)

/-- A pair in B48: p, q and the exponent of the unit u (09 R238). -/
def toB48 (a b : Nat) : Int × Int × Int :=
  let x := fp32.decode a
  let y := fp32.decode b
  let top := if x.isZero then topBit y else if y.isZero then topBit x else max (topBit x) (topBit y)
  let u := top + 1 - 45
  (floorTo u x, floorTo u y, u)

/-- Micro-rotation stage i; `neg` is d = −1 (09 R238). -/
def stage (i : Nat) (neg : Bool) (p q : Int) : Int × Int :=
  let sp := p / (2 ^ i : Nat)
  let sq := q / (2 ^ i : Nat)
  if neg then (p + sq, q - sp) else (p - sq, q + sp)

/-- The vectoring stages: at most k more from stage n, with the direction bits so far (09 R240). -/
def vectorStages : Nat → Nat → Nat → Int → Int → Nat × Nat × Int
  | 0, n, d, p, _ => (n, d, p)
  | k + 1, n, d, p, q =>
    if q = 0 then (n, d, p)
    else
      let neg : Bool := 0 < q
      let r := stage n neg p q
      vectorStages k (n + 1) (if neg then d + 2 ^ n else d) r.1 r.2

/-- A DIR32 word (09 Table 9.1). -/
def dir32 (q n d : Nat) : Nat :=
  let nc := if n ≤ 24 then n else if n = 25 then 25 + d / 2 ^ 24 % 2 else 27 + d / 2 ^ 24 % 4
  q * 2 ^ 29 + nc * 2 ^ 24 + d % 2 ^ (min n 24)

/-- B of a DIR32 word (09 Table 9.1). -/
def dirB (w : Nat) : Bool := w.testBit 31
/-- NC of a DIR32 word (09 Table 9.1). -/
def dirNc (w : Nat) : Nat := w / 2 ^ 24 % 32
/-- N of a DIR32 word (09 Table 9.1). -/
def dirN (w : Nat) : Nat := if dirNc w ≤ 24 then dirNc w else if dirNc w ≤ 26 then 25 else 26
/-- The direction bit of stage i, 1 for d = −1 (09 Table 9.1). -/
def dirBit (w i : Nat) : Bool :=
  if i < 24 then w.testBit i
  else if dirNc w ≤ 26 then dirNc w = 26
  else (dirNc w - 27).testBit (i - 24)

/-- What Vectorise gives: a bypass with the held value, or the word and p × u (09 R240). -/
inductive Vectored where
  | bypass (x : Nat) (nv : Bool)
  | turn (w n : Nat) (p u : Int)

/-- Vectorise(x, y) (09 R240). -/
def vectorise (x y : Nat) : Vectored :=
  if zero32 y then .bypass x false
  else if nonFinite32 x || nonFinite32 y then .bypass nan32 true
  else
    let q := if positive32 x then 0 else if positive32 y then 3 else 1
    let t := quarterTurns x y q
    let b := toB48 t.1 t.2
    let r := vectorStages 26 0 0 b.1 b.2.1
    .turn (dir32 q r.1 r.2.1) r.1 r.2.2 b.2.2

/-- What Rotate gives: the pair as it stands, NaNs, or p × u and q × u with N (09 R241). -/
inductive Rotated where
  | bypass
  | bad
  | pair (p q u : Int) (n : Nat)

/-- The stages of a rotation: n of them, in order (09 R241). -/
def rotateStages (w : Nat) (p q : Int) : Nat → Int × Int
  | 0 => (p, q)
  | n + 1 => let r := rotateStages w p q n; stage n (dirBit w n) r.1 r.2

/-- Rotate(a, b, w) (09 R241). -/
def rotate (a b w : Nat) : Rotated :=
  if dirB w then .bypass
  else if dirNc w = 31 || nonFinite32 a || nonFinite32 b then .bad
  else
    let t := quarterTurns a b (w / 2 ^ 29 % 4)
    if zero32 t.1 && zero32 t.2 then .pair 0 0 0 (dirN w)
    else
      let x := toB48 t.1 t.2
      let r := rotateStages w x.1 x.2.1 (dirN w)
      .pair r.1 r.2 x.2.2 (dirN w)

/-- Round(v × u) to FP32, v in units of 2^u (09 R244). -/
def roundB48 (v u : Int) : Elt := fp32.roundFin 0 (v < 0) v.natAbs u false

/-- Out(v, N): the value times g_N, rounded once (09 R244). -/
def outB48 (v u : Int) (n : Nat) : Elt :=
  match fp32.decode (gainOf n) with
  | .fin _ m e => fp32.roundFin 0 (v < 0) (v.natAbs * m) (u + e) false
  | _ => (0, 0)

/-- Keep(v, N) under bcfg.DEF (09 R244). -/
def keepB48 (defer : Bool) (v u : Int) (n : Nat) : Elt := if defer then roundB48 v u else outB48 v u n

/-- Round(v × g_n) of an FP32 value (09 R249, R252). -/
def compensate (x n : Nat) : Elt := fp32.mul 0 x (gainOf n)

/-- The outputs of Rotate under two roundings, the inputs kept on a bypass (09 R241, R256). -/
def rotateOut (keepA : Int → Int → Nat → Elt) (a b w : Nat) : Elt × Elt :=
  match rotate a b w with
  | .bypass => ((a, 0), (b, 0))
  | .bad => ((nan32, fNV), (nan32, fNV))
  | .pair p q u n => (keepA p u n, outB48 q u n)

/-- ANG32 to DIR32: the stages (09 R243). -/
def angleStages : List Nat → Nat → Nat → Int → Nat × Nat
  | [], n, d, _ => (n, d)
  | t :: ts, n, d, z =>
    if z = 0 then (n, d)
    else if 0 < z then angleStages ts (n + 1) d (z - t)
    else angleStages ts (n + 1) (d + 2 ^ n) (z + t)

/-- An ANG32 word as a DIR32 word (09 R243). -/
def angToDir (a : Nat) : Nat :=
  let x := sext 32 a
  let k := (x + 2 ^ 29) / 2 ^ 30
  let r := angleStages atanTable 0 0 (x - k * 2 ^ 30)
  dir32 (k % 4).toNat r.1 r.2

/-- A DIR32 word as an ANG32 word (09 R243). -/
def dirToAng (w : Nat) : Elt :=
  if dirB w then (0, 0)
  else if dirNc w = 31 then (0, fNV)
  else
    let sum : Int := (List.range (dirN w)).foldl (fun (t : Int) i =>
      let c : Int := atanTable.getD i 0
      if dirBit w i then t - c else t + c) 0
    (wrap 32 ((w / 2 ^ 29 % 4 * 2 ^ 30 : Nat) + sum), 0)

/-! ### The row step -/

/-- U(i, k) (09 R246). -/
def Triangle.at (t : Triangle) (i k : Nat) : Nat := elemAt t.u 32 (32 * i + k)
/-- Replace U(i, k). -/
def Triangle.put (t : Triangle) (i k x : Nat) : Triangle := { t with u := setElem t.u 32 (32 * i + k) x }
/-- c(i) (09 R246). -/
def Triangle.col (t : Triangle) (i : Nat) : Nat := elemAt t.c 32 i
/-- Replace c(i). -/
def Triangle.putCol (t : Triangle) (i x : Nat) : Triangle := { t with c := setElem t.c 32 i x }

/-- A row on its way through the array: the triangle, the row, its right-hand value, its directions, the flags
(09 R249). -/
structure RowAcc where
  t : Triangle
  y : BitVec 1024
  yr : Nat
  dir : BitVec 1024
  fl : Flags

/-- Compensate a pending gain of array row i (09 R245, R249). -/
def RowAcc.settleGain (i : Nat) (r : RowAcc) : RowAcc :=
  let n := vecGet r.t.cnt i 0
  if n = 0 then r
  else
    let s := forUpTo (32 - i) (fun j (a : RowAcc) =>
      let x := compensate (a.t.at i (i + j)) n
      { a with t := a.t.put i (i + j) x.1, fl := a.fl ||| x.2 }) r
    let x := compensate (s.t.col i) n
    { s with t := { s.t.putCol i x.1 with cnt := vecSet s.t.cnt i 0 }, fl := s.fl ||| x.2 }

/-- One array row of the row step (09 R249). -/
def RowAcc.step (defer : Bool) (i : Nat) (r : RowAcc) : RowAcc :=
  let yi := elemAt r.y 32 i
  let ui := r.t.at i i
  if zero32 yi then
    if nonFinite32 ui then { r with t := r.t.put i i nan32, fl := r.fl ||| fNV } else r
  else
    let a := if defer then r.settleGain i else r
    match vectorise (a.t.at i i) yi with
    | .bypass x nv => { a with t := a.t.put i i x, fl := if nv then a.fl ||| fNV else a.fl }
    | .turn w n p u =>
      let x := keepB48 defer p u n
      let b : RowAcc := { a with t := a.t.put i i x.1, dir := setElem a.dir 32 i w, fl := a.fl ||| x.2 }
      let c := forUpTo (31 - i) (fun j (s : RowAcc) =>
        let k := i + 1 + j
        let o := rotateOut (keepB48 defer) (s.t.at i k) (elemAt s.y 32 k) w
        { s with t := s.t.put i k o.1.1, y := setElem s.y 32 k o.2.1, fl := s.fl ||| o.1.2 ||| o.2.2 }) b
      let o := rotateOut (keepB48 defer) (c.t.col i) c.yr w
      let t := c.t.putCol i o.1.1
      { c with t := if defer then { t with cnt := vecSet t.cnt i n } else t, yr := o.2.1, fl := c.fl ||| o.1.2 ||| o.2.2 }

/-- The row step (09 R249): directions not written are bypasses. -/
def rowStep (defer : Bool) (t : Triangle) (y : BitVec 1024) (yr : Nat) : RowAcc :=
  let all := forUpTo 32 (fun i (d : BitVec 1024) => setElem d 32 i bypassDir) 0
  forUpTo 32 (fun i r => r.step defer i) { t := t, y := y, yr := yr, dir := all, fl := 0 }

/-- bcfg.DEF (09 Table 9.3). -/
def Brace.defer (b : Brace) : Bool := b.bcfg.toNat.testBit 0

/-- Triangle n of a Brace. -/
def Brace.tri_ (b : Brace) (n : Nat) : Triangle := vecGet b.tri n .reset

/-- bstat after a row word (09 R248). -/
def bstatOf (n rows : Nat) (part : Bool) : Word := word ((if part then 2 ^ 18 else 0) + n * 2 ^ 16 + rows)

/-- Row r of a tile, zero beyond its columns (09 R249). -/
def State.tileRow (s : State) (t : Tile) (r : Nat) : BitVec 1024 :=
  forUpTo t.cols (fun k (y : BitVec 1024) => setElem y 32 k (s.tileAt t r k)) 0

/-- The rows of a row word: the triangle, residuals and directions as they grow. -/
structure RowsAcc where
  t : Triangle
  res : VReg
  dirs : List VReg
  fl : Flags

/-- Rows lo to lo + n − 1 of a tile through a triangle (09 R249, R253). -/
def State.rowsTo (s : State) (e : VEntry) (t : Tile) (rhs : Nat → Nat) (lo : Nat) (a : RowsAcc) : Nat → RowsAcc
  | 0 => a
  | n + 1 =>
    let b := s.rowsTo e t rhs lo a n
    let r := rowStep s.th.br.defer b.t (s.tileRow t (lo + n)) (rhs (lo + n))
    { t := r.t, res := setElem b.res 32 (lo + n) r.yr, fl := b.fl ||| r.fl,
      dirs := if b.dirs = [] then [] else
        forUpTo 32 (fun i g => setGroupElem s.width 32 (32 * (lo + n) + i) (elemAt r.dir 32 i) g) b.dirs }

/-- The checks of a row word on its tile (09 R253). -/
def State.rowTile (s : State) (e : VEntry) (most : Nat) : Option Tile :=
  match s.tile (e.w.va.toNat / 4) with
  | none => none
  | some t => if t.ety = .fp32 && t.cols ≤ 32 && t.rows ≤ most then some t else none

/-- Write a row word's triangle and bstat; its flags wait for its completion (09 R248, R250). -/
def State.rowDone (s : State) (n m reached : Nat) (a : RowsAcc) : LaneOut :=
  { st := s.onBr fun b => { b with tri := vecSet b.tri n a.t, bstat := bstatOf n reached (reached < m) },
    reached := reached, stop := none, pend := a.fl }

/-- bqr: rows with right-hand value +0, no residual (09 R253). -/
def laneBqr (e : VEntry) (lo hi : Nat) (s : State) : LaneOut :=
  match s.rowTile e 65535 with
  | none => issueFail s lo
  | some t =>
    let top := min hi t.rows
    let n := e.w.vc.toNat
    s.rowDone n t.rows top (s.rowsTo e t (fun _ => 0) lo { t := s.th.br.tri_ n, res := 0, dirs := [], fl := 0 } (top - lo))

/-- bqra: right-hand values from v[vb], residuals to v[vd] (09 R253). -/
def laneBqra (e : VEntry) (lo hi : Nat) (s : State) : LaneOut :=
  match s.rowTile e 4096 with
  | none => issueFail s lo
  | some t =>
    let top := min hi t.rows
    let n := e.w.vc.toNat
    let rhs := fun r => elemAt (vecGet s.th.ln.v e.w.vb.toNat 0) 32 r
    let a := s.rowsTo e t rhs lo { t := s.th.br.tri_ n, res := vecGet s.th.ln.v e.w.vd.toNat 0, dirs := [], fl := 0 } (top - lo)
    (s.setV e.w.vd.toNat a.res (if top = t.rows then 64 else top * 32 / (512 * s.width)) false).rowDone n t.rows top a

/-- A word that writes its own source group reads the slot that the group has left, as the tile that its shape entry named
(01 R18; 05 R113; 09 R253). A restored entry has no old slot: it reads the current one as FP32 rows of 32 (DESIGN CHOICE, log 72). -/
def State.ownSource (e : VEntry) (s : State) : State :=
  let q := e.w.vd.toNat / 4
  let as32 := fun (x : Word) => putBits (putBits x 0 4 10) 4 16 32
  if e.w.va.toNat / 4 ≠ q ∨ !e.issued then s
  else if e.held ≠ [] then s.onLn fun l => { l.putGroup q e.held with shape := vecSet l.shape q e.shape }
  else if 0 < e.prog then s.onLn fun l => { l with shape := vecSet l.shape q (as32 (vecGet l.shape q 0)) }
  else s

/-- bqr.d: directions to a whole group, zero above, and the group's shape, which its first issue sets (09 R253). -/
def laneBqrD (e : VEntry) (lo hi : Nat) (s : State) : LaneOut :=
  let src := s.ownSource e
  match src.rowTile e 512 with
  | none => issueFail s lo
  | some t =>
    let top := min hi t.rows
    let n := e.w.vc.toNat
    let q := e.w.vd.toNat / 4
    let old := if lo = 0 then (s.th.ln.group q).map fun _ => (0 : VReg) else s.th.ln.group q
    let a := src.rowsTo e t (fun _ => 0) lo { t := s.th.br.tri_ n, res := 0, dirs := old, fl := 0 } (top - lo)
    let g := s.freshSlot q lo (top * 1024) (t.rows * 1024) a.dirs
    let s1 := g.1.setGroup q g.2 fun k => if top = t.rows then 64 else min 64 (top * 1024 / (512 * s.width) - 64 * k)
    let shape := word (6 + 32 * 2 ^ 4 + t.rows * 2 ^ 20)
    let s2 := if lo = 0 then s1.onLn fun l => { l with shape := vecSet l.shape q shape } else s1
    if top = 0 then { st := s2, reached := 0, stop := none } else s2.rowDone n t.rows top a

/-- One right-hand value through the recorded directions of a row (09 R254): the column, the value and the flags. -/
def applyRow (dirs : Nat → Nat) (c : BitVec 1024) (yr : Nat) : BitVec 1024 × Nat × Flags :=
  forUpTo 32 (fun i (a : BitVec 1024 × Nat × Flags) =>
    let w := dirs i
    if dirB w then a
    else
      let o := rotateOut outB48 (elemAt a.1 32 i) a.2.1 w
      (setElem a.1 32 i o.1.1, o.2.1, a.2.2 ||| o.1.2 ||| o.2.2)) (c, yr, 0)

/-- Rows lo to lo + n − 1 of a bapply: the column, the results and the flags (09 R254). -/
def State.applyTo (s : State) (e : VEntry) (t : Tile) (lo : Nat) (c0 : BitVec 1024) (d0 : VReg) :
    Nat → BitVec 1024 × VReg × Flags
  | 0 => (c0, d0, 0)
  | n + 1 =>
    let a := s.applyTo e t lo c0 d0 n
    let r := applyRow (fun i => s.tileAt t (lo + n) i) a.1 (elemAt (vecGet s.th.ln.v e.w.vb.toNat 0) 32 (lo + n))
    (r.1, setElem a.2.1 32 (lo + n) r.2.1, a.2.2 ||| r.2.2)

/-- bapply and bapply.c0 (09 R254). -/
def State.bapply (s : State) (e : VEntry) (clear : Bool) (lo hi : Nat) : LaneOut :=
  match s.tile (e.w.va.toNat / 4) with
  | none => issueFail s lo
  | some t =>
    if t.ety ≠ .n32 || t.cols ≠ 32 || 512 < t.rows || s.th.br.defer then issueFail s lo
    else
      let n := e.w.vc.toNat
      let tri := s.th.br.tri_ n
      let top := min hi t.rows
      let a := s.applyTo e t lo (if clear && lo = 0 then 0 else tri.c) (vecGet s.th.ln.v e.w.vd.toNat 0) (top - lo)
      let s1 := s.setV e.w.vd.toNat a.2.1 (if top = t.rows then 64 else top * 32 / (512 * s.width)) false
      s1.rowDone n t.rows top { t := { tri with c := a.1 }, res := 0, dirs := [], fl := a.2.2 }

/-- bapply (09 R254). -/
def laneBapply (e : VEntry) (lo hi : Nat) (s : State) : LaneOut := s.bapply e false lo hi
/-- bapply.c0: every c(i) is +0 first (09 R254). -/
def laneBapplyC0 (e : VEntry) (lo hi : Nat) (s : State) : LaneOut := s.bapply e true lo hi

/-! ### Triangle words -/

/-- bclr: every U, c and cnt of the triangle zero (09 R251). -/
def laneBclr (e : VEntry) (_ _ : Nat) (s : State) : LaneOut :=
  laneDone (s.onBr fun b => { b with tri := vecSet b.tri e.w.vc.toNat .reset })

/-- A triangle in memory as a 32 × 33 tile; element 33 i + k, on and above the diagonal (09 R252). -/
def triMem (e : VEntry) : MemShape :=
  let pitch : Word := if e.w.vb = 0 then 132 else e.sb
  let base := e.sc + BitVec.ofInt 64 (offOf e * 4)
  { rule := .plain, stream := e.stream, size := 4, act := fun x => x / 33 ≤ x % 33, per := 33, total := 1056, order := vectorOrder e.seq 0,
    cluster := fun x => clusterOf 4 32 (x % 33), addr := fun x => base + word (x / 33) * pitch + word (x % 33 * 4) }

/-- btload: the whole triangle at once, every cnt 0; a fault leaves it unchanged (09 R252). -/
def laneBtload (e : VEntry) (_ hi : Nat) (s : State) : LaneOut :=
  if hi < 32 then { st := s, reached := 0, stop := none }
  else
    let m := triMem e
    let put := fun x v (t : Triangle) => if x % 33 = 32 then t.putCol (x / 33) v else t.put (x / 33) (x % 33) v
    let r := s.loadRun m put (fun _ t => t) 0 32 (Triangle.reset)
    match r.1.stop with
    | some _ => { st := r.1.st, reached := 0, stop := memStop m r.1.stop }
    | none =>
      let t := r.1.st.onBr fun b => { b with tri := vecSet b.tri e.w.vd.toNat r.1.data }
      { st := if e.w.ord = 1 then t.acquire e.w.scope else t, reached := 32, stop := none }

/-- btdrain: compensated values of the triangle through the strip store buffer, row by row (09 R252). -/
def laneBtdrain (e : VEntry) (lo hi : Nat) (s : State) : LaneOut :=
  let t := s.th.br.tri_ e.w.vd.toNat
  let f := fun x =>
    let i := x / 33
    compensate (if x % 33 = 32 then t.col i else t.at i (x % 33)) (vecGet t.cnt i 0)
  let m := triMem e
  let r := s.storeRun m (fun x => (f x).1) (fun _ => 3) .last e.release lo hi
  { r with pend := orFlags (fun x => if m.act x then (f x).2 else 0) (lo * 33) ((r.reached - lo) * 33) }

/-- The exact difference c − Σ, rounded once, of values in FP32 (09 R255). -/
def solveSum (c : FVal) (ps : List (FVal × FVal)) : Elt :=
  let sig := c.isSig || ps.any fun p => p.1.isSig || p.2.isSig
  let prods := ps.map fun p => prodV p.1 p.2
  let nanIn := c.isNan || ps.any fun p => p.1.isNan || p.2.isNan
  let bad := ps.any fun p => !p.1.isNan && !p.2.isNan && (prodV p.1 p.2).isNone
  let vs := c :: prods.filterMap fun p => p.map FVal.negate
  let plus := vs.any fun v => v = .inf false
  let minus := vs.any fun v => v = .inf true
  if bad || (plus && minus) then fp32.invalid
  else if nanIn then fp32.nanOf sig
  else if plus then fp32.infOut false
  else if minus then fp32.infOut true
  else
    let q := vs.foldl (fun m v => match v with | .fin _ _ e => min m e | _ => m) (0 : Int)
    let t := vs.foldl (fun a v => a + floorTo q v) 0
    if t = 0 then (if vs.all FVal.sign then 0x80000000 else 0, 0)
    else fp32.roundFin 0 (t < 0) t.natAbs q false

/-- Back-substitution: x(n − 1) down to x(n − k) in element places of a register (09 R255). -/
def State.solveTo (t : Triangle) (mode n : Nat) : Nat → VReg × Flags → VReg × Flags
  | 0, a => a
  | k + 1, a0 =>
    let a := State.solveTo t mode n k a0
    let i := n - 1 - k
    let ps := (List.range (n - 1 - i)).map fun j =>
      (fp32.decode (t.at i (i + 1 + j)), fp32.decode (elemAt a.1 32 (i + 1 + j)))
    let u := solveSum (fp32.decode (t.col i)) ps
    let x := fp32.div mode u.1 (t.at i i)
    (setElem a.1 32 i x.1, a.2 ||| u.2 ||| x.2)

/-- bsolve: U x = c on the leading n = vl rows, RNE throughout (09 R255). -/
def laneBsolve (e : VEntry) (lo _ : Nat) (s : State) : LaneOut :=
  if e.vl = 0 || 32 < e.vl then issueFail s lo
  else
    let r := State.solveTo (s.th.br.tri_ e.w.vc.toNat) 0 e.vl e.vl (vecGet s.th.ln.v e.w.vd.toNat 0, 0)
    { laneDone (s.setV e.w.vd.toNat r.1 64 false) with pend := r.2 }

/-! ### Vector words -/

/-- A Brace element word: no element traps, and the flags wait for the completion (09 R250, R256). -/
def State.braceWord (s : State) (e : VEntry) (F : Nat → Elt) (lo hi : Nat) : LaneOut :=
  let v := { s.view e with traps := 0 }
  let r := s.eltWord e v (fun i => ((F i).1, 0)) lo hi
  let sp := v.span lo r.reached
  { r with pend := orFlags (v.fl F) sp.1 sp.2 }

/-- bvec: the DIR32 word that drives b to zero (09 R256). -/
def laneBvec (e : VEntry) (lo hi : Nat) (s : State) : LaneOut :=
  s.braceWord e (fun i =>
    match vectorise (s.opA e 32 i) (s.opB e 32 i) with
    | .bypass _ nv => (bypassDir, if nv then fNV else 0)
    | .turn w _ _ _ => (w, 0)) lo hi
/-- bangle.d: ANG32 to DIR32 (09 R256). -/
def laneBangleD (e : VEntry) (lo hi : Nat) (s : State) : LaneOut :=
  s.braceWord e (fun i => (angToDir (s.opA e 32 i), 0)) lo hi
/-- bangle.a: DIR32 to ANG32 (09 R256). -/
def laneBangleA (e : VEntry) (lo hi : Nat) (s : State) : LaneOut :=
  s.braceWord e (fun i => dirToAng (s.opA e 32 i)) lo hi

/-- An angle element as a DIR32 word, by K (09 R256, R257). -/
def angleWord (e : VEntry) (x : Nat) : Nat := if e.w.fnBits 0 1 = 0 then angToDir x else x

/-- vrotate: both outputs, each from the sources as they stood (09 R256). -/
def laneVrotate (e : VEntry) (lo hi : Nat) (s : State) : LaneOut :=
  let o := fun i => rotateOut outB48 (s.opA e 32 i) (s.opB e 32 i) (angleWord e (s.opC e 32 i))
  let r1 := s.braceWord e (fun i => (o i).1) lo hi
  let e2 := { e with w := { e.w with vd := e.w.vd + 1 } }
  let r2 := r1.st.braceWord e2 (fun i => (o i).2) lo hi
  { r2 with pend := r1.pend ||| r2.pend }

/-- brot over n pairs: the destination and the flags (09 R257). -/
def State.brotTo (s : State) (e : VEntry) (st : Nat) : Nat → VReg × Flags
  | 0 => (vecGet s.th.ln.v e.w.vd.toNat 0, 0)
  | p + 1 =>
    let a := s.brotTo e st p
    let i0 := 2 * st * (p / st) + p % st
    let o := rotateOut outB48 (s.opA e 32 i0) (s.opA e 32 (i0 + st)) (angleWord e (s.opB e 32 p))
    (setElem (setElem a.1 32 i0 o.1.1) 32 (i0 + st) o.2.1, a.2 ||| o.1.2 ||| o.2.2)

/-- brot: butterfly rotations at stride 2^H; no partial work is kept (09 R257). -/
def laneBrot (e : VEntry) (lo hi : Nat) (s : State) : LaneOut :=
  let st := 2 ^ e.w.fnBits 1 4
  let v := s.view e
  if e.vl % (2 * st) ≠ 0 || vlmax v.wid 32 < e.vl then issueFail s lo
  else if hi < v.groups then { st := s, reached := 0, stop := none }
  else
    let r := s.brotTo e st (e.vl / 2)
    { st := s.setV e.w.vd.toNat r.1 64 (v.whole v.groups), reached := v.groups, stop := none, pend := r.2 }

/-- bgain: bcfg.DEF (09 R258). -/
def laneBgain (e : VEntry) (_ _ : Nat) (s : State) : LaneOut :=
  laneDone (s.onBr fun b => { b with bcfg := word (e.w.fn.toNat % 2) })

end Sys2Proof.Machine
end

