-- ==== Sys2Proof/Machine/Atomic.lean ====
section
/-! DEFINITION. The slice ALU, and what the lanes do with vamo, vamoo and the accumulation-window words
(spec/10_atomic_sync_copy_instructions.md R266 to R280). -/

namespace Sys2Proof.Machine

/-! ### The slice ALU -/

/-- The operation of Table 10.3 on the old and the operand encoding, with the FP flags (10 R269). -/
def aluOp (op : Nat) (t : EType) (frm old x : Nat) : Elt :=
  let b := t.fixedBits
  if t.isFp then
    let f := if t = .fp64 then fp64 else fp32
    match op with
    | 0 => (x, 0)
    | 1 => f.add frm old x
    | 5 => f.minMax true old x
    | _ => f.minMax false old x
  else
    match op with
    | 0 => (x % 2 ^ b, 0)
    | 1 => ((old + x) % 2 ^ b, 0)
    | 2 => (old &&& x, 0)
    | 3 => (old ||| x, 0)
    | 4 => (old ^^^ x, 0)
    | 5 => (if eltInt t b old ≤ eltInt t b x then old else x, 0)
    | _ => (if eltInt t b x ≤ eltInt t b old then old else x, 0)

/-- The checks of an atomic access, in the order of R271: alignment, translation with R and W on a page that is not DS,
and a place that exists and is no sync window; the bytes' physical address and page kind. -/
def State.atomicCheck (s : State) (cluster : Nat) (va : Word) (sz : Nat) : State × Except ExcCause (Nat × Nat) :=
  if va.toNat % sz ≠ 0 then (s, .error .misaligned)
  else
    match s.xlate cluster va .write with
    | .error c => (s, .error c)
    | .ok x =>
      if x.kind = 3 then (x.st, .error .pageFault)
      else
        match x.st.target x.st.th.bind.ctx x.pa with
        | .cell _ => (x.st, .ok (x.pa, x.kind))
        | _ => (x.st, .error .machineCheck)

/-- The bytes an atomic reads at their home. -/
def State.homeNat (s : State) (pa sz : Nat) : Nat := leNat (s.bytesAt (s.cellOf pa) sz)

/-- An atomic write at its home; a line of the core's data cache takes the bytes (10 R267; 03 R58). -/
def State.homePut (pa sz v : Nat) (s : State) : State :=
  (s.dcacheStore s.th.bind.coreNo pa (leBytes sz v)).perform (s.cellOf pa) (leBytes sz v)

/-- Whether an atomic's old data are poisoned (10 R271, R274). -/
def State.homePoisoned (s : State) (pa : Nat) : Bool := s.poisoned (s.cellOf pa)

/-- Every scalar store older than VIQ word k leaves the queue (10 R264). -/
def State.pushStores (k : Nat) (s : State) : State :=
  s.th.fr.storeQ.foldl (fun t e =>
    if t.th.fr.storeQ.head? = some e ∧ e.seq < k then t.leaveHead else t) s

/-- A release: older scalar stores and every committed strip are performed; the open strip is not ordered
(10 R265). -/
def State.release (ord : Nat) (s : State) : State := if 2 ≤ ord then s.drainAll else s

/-! ### The two phases of a vector atomic -/

/-- What a word of two phases is: its units (elements), the element of each unit's address and bytes, and how it orders
elements that meet (10 R273, R274, R279). -/
structure Phases where
  total : Nat
  per : Nat
  act : Nat → Bool
  addr : Nat → Word
  size : Nat
  cluster : Nat → Nat
  ordered : Bool
  ord : Nat
  scope : Nat

/-- A checked element: its index, physical address and page kind. -/
abbrev Checked := Nat × Nat × Nat

/-- The check phase over n elements from i0: every active element in order; the first failure (10 R274). -/
def checkPhase (p : Phases) (i0 : Nat) : Nat → MemAcc (List Checked) → MemAcc (List Checked)
  | 0, a => a
  | n + 1, a0 =>
    let a := checkPhase p i0 n a0
    let i := i0 + n
    if a.stop.isSome || !p.act i then a
    else
      match a.st.atomicCheck (p.cluster i) (p.addr i) p.size with
      | (t, .error c) => { a with st := t, stop := some (i, c) }
      | (t, .ok x) => { st := t, data := a.data ++ [(i, x.1, x.2)], stop := none }

/-- The elements that may be performed next at the place of the lowest one: those at the same bytes, which on an SO page
or under vamoo is that one alone (10 R273; 07 R179). -/
def rivals (ordered : Bool) : List Checked → List Checked
  | [] => []
  | x :: xs => if ordered || x.2.2 = 1 then [x] else x :: xs.filter fun y => y.2.1 = x.2.1 ∧ y.2.2 ≠ 1

/-- The order in which elements are performed: index order, but for a free choice among elements at the same bytes
(10 R273; DESIGN CHOICE, log 5). -/
def performOrder (ordered : Bool) : Nat → List Checked → State → List Checked × State
  | 0, _, s => ([], s)
  | n + 1, xs, s =>
    match rivals ordered xs with
    | [] => ([], s)
    | [x] => let r := performOrder ordered n (xs.erase x) s; (x :: r.1, r.2)
    | r :: rs =>
      let d := s.draw
      let x := ((r :: rs)[Config.freeChoice d.1 % (rs.length + 1)]?).getD r
      let q := performOrder ordered n (xs.erase x) d.2
      (x :: q.1, q.2)

/-- A running perform phase: the state, what the word collects, the flags of each element performed, and the elements whose
old data are poisoned. -/
structure PerfAcc (α : Type) where
  st : State
  data : α
  flags : List (Nat × Flags)
  bad : List Nat

/-- Perform elements in order: `op` gives, from what is collected and the old encoding, the new one with its flags and what
is collected then (10 R267, R274). -/
def performAll {α : Type} (sz : Nat) (op : Nat → Nat → α → Nat × Flags × α) (skip : Nat → α → α) :
    List Checked → PerfAcc α → PerfAcc α
  | [], a => a
  | (i, pa, _) :: xs, a =>
    if a.st.homePoisoned pa then
      performAll sz op skip xs { a with data := skip i a.data, bad := a.bad ++ [i] }
    else
      let r := op i (a.st.homeNat pa sz) a.data
      performAll sz op skip xs
        { st := a.st.homePut pa sz r.1, data := r.2.2, flags := a.flags ++ [(i, r.2.1)], bad := a.bad }

/-- The lowest of a list of indices. -/
def least : List Nat → Option Nat
  | [] => none
  | x :: xs => some ((least xs).elim x (min x))

/-- A word of two phases over units lo to hi − 1 (10 R274): the check phase over all that is left, then the waits of R264
and R266, the release, and the perform phase. -/
def State.phases {α : Type} (s : State) (e : VEntry) (p : Phases) (lo hi : Nat) (op : Nat → Nat → α → Nat × Flags × α)
    (skip : Nat → α → α) (d : α) : PerfAcc α × Nat × Option LStop :=
  let units := ceilDiv p.total p.per
  let top := min hi units
  let c := checkPhase p (lo * p.per) (p.total - lo * p.per) { st := s, data := [], stop := none }
  match c.stop with
  | some (i, cause) =>
    ({ st := c.st, data := d, flags := [], bad := [] }, lo,
      some { cause := cause, index := word i, group := lo, flags := 0, late := i / p.per - lo })
  | none =>
    if top ≤ lo then ({ st := c.st, data := d, flags := [], bad := [] }, max lo top, none)
    else
      let here := c.data.filter fun x => x.1 < top * p.per
      let s1 := c.st.pushStores e.seq
      let so := here.any fun x => x.2.2 = 1
      let s2 := if so then s1.soGate 1 else s1
      if so && s2.soWaits 1 then ({ st := s2, data := d, flags := [], bad := [] }, lo, none)
      else
      let s3 := (here.foldl (fun t x => t.atomicGate x.2.1 p.size) s2).release p.ord
      let o := performOrder p.ordered here.length here s3
      let a := performAll p.size op skip o.1 { st := o.2, data := d, flags := [], bad := [] }
      let a := if top = units ∧ p.ord % 2 = 1 then { a with st := a.st.acquire p.scope } else a
      (a, top, none)

/-- The note a word keeps of what its completion reports: the lowest poisoned element, and the lowest element that raised an
enabled flag with those flags (10 R273, R274). -/
def noteOf (old : Word) (bad : Option Nat) (trap : Option (Nat × Flags)) : Word :=
  let p := if bitsOf old 19 0 ≠ 0 then bitsOf old 19 0 else bad.elim 0 (· + 1)
  let t := if bitsOf old 39 20 ≠ 0 then (bitsOf old 39 20, bitsOf old 45 40) else trap.elim (0, 0) fun x => (x.1 + 1, x.2.toNat)
  word (p + t.1 * 2 ^ 20 + t.2 * 2 ^ 40)

/-- The stop a note asks for once every unit is performed. -/
def noteStop (n : Word) (units : Nat) : Option LStop :=
  if bitsOf n 19 0 ≠ 0 then some { cause := .machineCheck, index := word (bitsOf n 19 0 - 1), group := units, flags := 0 }
  else if bitsOf n 39 20 ≠ 0 then
    some { cause := .arithmetic, index := word (bitsOf n 39 20 - 1), group := units, flags := BitVec.ofNat 6 (bitsOf n 45 40) }
  else none

/-! ### vamo and vamoo -/

/-- The address of element i of a vector atomic (10 R273). -/
def State.vamoAddr (s : State) (e : VEntry) (sz i : Nat) : Word :=
  e.sc + word (elemAt (vecGet s.th.ln.v e.w.va.toNat 0) 32 i * if e.w.fnBits 10 1 = 1 then sz else 1)

/-- The effect of vamo and vamoo over groups lo to hi − 1 (10 R272 to R274). (DEDUCED, log 52.) -/
def State.vamoRun (s : State) (e : VEntry) (ordered : Bool) (lo hi : Nat) : LaneOut :=
  let v := s.view e
  let sz := v.b / 8
  if vlmax v.wid 32 < v.vl then issueFail s lo
  else
    let nr := e.w.fnBits 9 1 = 1
    let p : Phases :=
      { total := v.vl, per := v.per, act := v.act, addr := s.vamoAddr e sz, size := sz, cluster := clusterOf v.wid v.b,
        ordered := ordered, ord := e.w.ord, scope := e.w.scope }
    let val := fun i => elemAt (vecGet s.th.ln.v e.w.vb.toNat 0) v.b i
    let r := s.phases e p lo hi
      (fun i old d => let x := aluOp e.w.fnFN e.w.ety 0 old (val i); (x.1, x.2, setElem d v.b i old))
      (fun i d => setElem d v.b i 0) (vecGet s.th.ln.v e.w.vd.toNat 0)
    match r.2.2 with
    | some x => { st := r.1.st, reached := r.2.1, stop := some x }
    | none =>
      let top := r.2.1
      let sp := v.span lo top
      let d := putElems v.b sp.1 (fun i => if v.act i then none else if v.mp then some 0 else none) sp.2 r.1.data
      let s1 := if nr then r.1.st
        else r.1.st.setV e.w.vd.toNat d (progressOf top v.groups 64) (v.whole top)
      let trap := (least ((r.1.flags.filter fun x => x.2 &&& v.traps ≠ 0).map (·.1))).map fun i =>
        (i, r.1.flags.foldl (fun a x => if x.1 = i then a ||| (x.2 &&& v.traps) else a) 0)
      let fl := r.1.flags.foldl (fun a x => if bitsOf e.x0 39 20 = 0 ∧ trap.any (fun t => t.1 / v.per = x.1 / v.per) then a else a ||| x.2) 0
      let note := noteOf e.x0 (least r.1.bad) trap
      { st := s1.orLaneFlags fl, reached := top, stop := if v.groups ≤ top && lo < top then noteStop note v.groups else none,
        note := note }

/-- vamo: elements mutually unordered (10 R273). -/
def laneVamo (e : VEntry) (lo hi : Nat) (s : State) : LaneOut := s.vamoRun e false lo hi
/-- vamoo: elements at the same double in increasing order (10 R273). -/
def laneVamoo (e : VEntry) (lo hi : Nat) (s : State) : LaneOut := s.vamoRun e true lo hi

/-! ### Accumulation windows -/

/-- ACT of accwcfg (10 Table 10.4). -/
def AccWindow.act (w : AccWindow) : Bool := bitsOf w.cfg 0 0 = 1
/-- COUNT of accwcfg (10 Table 10.4). -/
def AccWindow.count (w : AccWindow) : Nat := bitsOf w.cfg 18 8
/-- ETYPE of accwcfg (10 Table 10.4). -/
def AccWindow.ety (w : AccWindow) : Nat := bitsOf w.cfg 6 3
/-- The operation of a window as a row of Table 10.3 (10 Table 10.4). -/
def AccWindow.op (w : AccWindow) : Nat := match bitsOf w.cfg 2 1 with | 0 => 1 | 1 => 5 | _ => 6

/-- The identity of a window's operation (10 Table 10.6). -/
def identityOf (t : EType) (op : Nat) : Nat :=
  let b := t.fixedBits
  if t.isFp then
    let inf := if t = .fp64 then 0x7FF0000000000000 else 0x7F800000
    match op with | 1 => 2 ^ (b - 1) | 5 => inf | _ => 2 ^ (b - 1) + inf
  else if t.isSignedInt then match op with | 1 => 0 | 5 => 2 ^ (b - 1) - 1 | _ => 2 ^ (b - 1)
  else match op with | 5 => 2 ^ b - 1 | _ => 0

/-- accw: open a window of s[a] elements per lane (10 R277). -/
def laneAccw (e : VEntry) (lo _ : Nat) (s : State) : LaneOut :=
  let n := e.sc.toNat
  let sz := e.w.ety.fixedBits / 8
  let slots := ceilDiv (n * sz) 2048
  if s.th.ln.win.act || n = 0 || 1024 < n || s.th.bind.slots < slots + 16 then issueFail s lo
  else
    let wop := e.w.fnBits 9 2
    let id := identityOf e.w.ety (match wop with | 0 => 1 | 1 => 5 | _ => 6)
    laneDone (s.onLn fun l => { l with win :=
      { cfg := word (slots * 2 ^ 20 + n * 256 + e.w.ety.code * 8 + wop * 2 + 1),
        copies := List.replicate (8 * s.width) (List.replicate n (word id)) } })

/-- The lane that holds element i (10 R278). -/
def laneOfElem (wid sz i : Nat) : Nat := i * sz % (64 * wid) / 8

/-- One update of a copy; the window, the flags of each element, and the stop (10 R278). -/
structure VaccAcc where
  copies : List (List Word)
  flags : Flags
  stop : Option LStop

/-- vacc over n elements of a group from element i0 (10 R278). -/
def vaccElems (s : State) (e : VEntry) (v : View) (w : AccWindow) (i0 : Nat) : Nat → VaccAcc → VaccAcc
  | 0, a => a
  | n + 1, a0 =>
    let a := vaccElems s e v w i0 n a0
    let i := i0 + n
    if a.stop.isSome || !v.act i then a
    else
      let x := elemAt (vecGet s.th.ln.v e.w.va.toNat 0) 32 i
      if w.count ≤ x then { a with stop := some { cause := .illegal, index := word i, group := i / v.per, flags := 0 } }
      else
        let lane := laneOfElem v.wid (v.b / 8) i
        let r := aluOp w.op e.w.ety v.frm ((((a.copies[lane]?).getD [])[x]?).getD 0).toNat
          (elemAt (vecGet s.th.ln.v e.w.vb.toNat 0) v.b i)
        if r.2 &&& v.traps ≠ 0 then
          { a with stop := some { cause := .arithmetic, index := word i, group := i / v.per, flags := r.2 &&& v.traps } }
        else { a with copies := a.copies.modify lane (·.set x (word r.1)), flags := a.flags ||| r.2 }

/-- vacc over k groups from lo: a group that faults changes nothing (10 R278; 05 R121). -/
def vaccGroups (s : State) (e : VEntry) (v : View) (w : AccWindow) (lo : Nat) : Nat → VaccAcc → VaccAcc
  | 0, a => a
  | k + 1, a0 =>
    let a := vaccGroups s e v w lo k a0
    if a.stop.isSome then a
    else
      let sp := v.span (lo + k) (lo + k + 1)
      let r := vaccElems s e v w sp.1 sp.2 a
      if r.stop.isSome then { a with stop := r.stop } else r

/-- vacc: update each lane's own copy (10 R278). -/
def laneVacc (e : VEntry) (lo hi : Nat) (s : State) : LaneOut :=
  let w := s.th.ln.win
  let v := s.view e
  if !w.act || w.ety ≠ e.w.ety.code then issueFail s lo
  else
    let top := min hi v.groups
    let r := vaccGroups s e v w lo (top - lo) { copies := w.copies, flags := 0, stop := none }
    { st := (s.onLn fun l => { l with win := { l.win with copies := r.copies } }).orLaneFlags r.flags,
      reached := (r.stop.map (·.group)).getD top, stop := r.stop }

/-- Fold element k of every copy into an encoding, lanes in order (10 R279). -/
def mergeCopies (op : Nat) (t : EType) (frm k old : Nat) : List (List Word) → Elt
  | [] => (old, 0)
  | c :: cs =>
    let r := aluOp op t frm old (c.getD k 0).toNat
    let q := mergeCopies op t frm k r.1 cs
    (q.1, r.2 ||| q.2)

/-- amerge: fold the copies into memory and set them to the identity (10 R279). -/
def laneAmerge (e : VEntry) (lo hi : Nat) (s : State) : LaneOut :=
  let w := s.th.ln.win
  if !w.act || w.ety ≠ e.w.ety.code then issueFail s lo
  else
    let sz := e.w.ety.fixedBits / 8
    let p : Phases :=
      { total := w.count, per := 1, act := fun _ => true, addr := fun k => e.sc + word (k * sz), size := sz,
        cluster := clusterOf s.width (8 * sz), ordered := true, ord := e.w.ord, scope := e.w.scope }
    let id := word (identityOf e.w.ety w.op)
    let r := s.phases e p lo hi
      (fun k old d =>
        let x := mergeCopies w.op e.w.ety (vtFrm e.vtype) k old w.copies
        (x.1, x.2, d.map fun c => c.set k id))
      (fun _ d => d) w.copies
    match r.2.2 with
    | some x => { st := r.1.st, reached := r.2.1, stop := some x }
    | none =>
      let note := noteOf e.x0 (least r.1.bad) none
      { st := r.1.st.onLn fun l => { l with win := { l.win with copies := r.1.data } }, reached := r.2.1,
        stop := if w.count ≤ r.2.1 && lo < r.2.1 then noteStop note w.count else none, note := note,
        pend := r.1.flags.foldl (fun a x => a ||| x.2) 0 }

/-- accrel: release the window; nothing happens while none is active (10 R280). -/
def laneAccrel (_ : VEntry) (_ _ : Nat) (s : State) : LaneOut :=
  laneDone (if s.th.ln.win.act then s.onLn fun l => { l with win := { cfg := 0, copies := [] } } else s)

end Sys2Proof.Machine
end

