-- ==== Sys2Proof/Machine/Fabric.lean ====
section
/-! DEFINITION. What the lanes do with the words of majors 0x70 to 0x75: windows, remote loads and stores, step words,
stream bindings and vcred (spec/11_fabric_step_collective_instructions.md R306 to R344). -/

namespace Sys2Proof.Machine

/-! ### Windows -/

/-- Translate n pages of 64 KiB from a base, in order; the physical pages with their kinds, or the page that fails
(11 R309). -/
def pagesFrom (base : Word) : Nat → State → State × Except (Nat × ExcCause) (List (Nat × Nat))
  | 0, s => (s, .ok [])
  | n + 1, s =>
    match pagesFrom base n s with
    | (t, .error x) => (t, .error x)
    | (t, .ok ps) =>
      match t.xlate 0 (base + word (n * 65536)) .read with
      | .error c => (t, .error (n, c))
      | .ok x => (x.st, .ok (ps ++ [(x.pa, x.kind)]))

/-- The windows of a context that are active on the package. -/
def State.activeWindows (s : State) (ctx : Nat) : List Window := s.windows.filter fun w => w.ctx = ctx ∧ w.freeing.isNone

/-- The place of a deferred write buffer: the highest free run of its size in the context's shared store on a die
(11 R307). -/
def State.bufferPlace (s : State) (ctx die size : Nat) : Option Nat :=
  let total := (s.waysOf ctx die).2 * wayBytes
  let held := (s.windows.filter fun w => w.ctx = ctx ∧ w.die = die).map fun w => (w.bufAt, w.bufAt + 16 * w.cap)
  let tops := total :: held.map (·.1)
  let fits := tops.filterMap fun t =>
    if size ≤ t && held.all (fun h => h.2 ≤ t - size || t ≤ h.1) then some (t - size) else none
  fits.foldl (fun a x => some (a.elim x (max x))) none

/-- The lowest free handle of a context's table (11 R309); a handle whose release has not been acknowledged everywhere is
not free (11 R310). -/
def State.freeHandle (s : State) (ctx : Nat) : Option Nat :=
  (List.range 64).find? fun h => !(s.windows.any fun w => w.ctx = ctx && w.handle = h)

/-- Whether a window configuration is legal (11 Table 11.1). -/
def configOk (c : Word) : Bool :=
  bitsOf c 63 28 = 0 && bitsOf c 27 8 ≠ 0 && bitsOf c 7 7 = 0 && bitsOf c 6 4 ≠ 7 && bitsOf c 3 0 ≤ 13

/-- wdecl: declare a window; s[d] receives its handle or the first failure (11 R309). -/
def laneWdecl (e : VEntry) (lo _ : Nat) (s : State) : LaneOut :=
  let base := e.x0
  let len := e.sb.toNat
  let cfg := e.sc
  if s.pending then { st := s, reached := lo, stop := none }
  else if base.toNat % 65536 ≠ 0 || len = 0 || len % 65536 ≠ 0 || 2 ^ 36 < len || !configOk cfg then issueFail s lo
  else
    match pagesFrom base (len / 65536) s with
    | (t, .error (j, c)) => laneStop t c j lo
    | (t, .ok ps) =>
      let ctx := t.th.bind.ctx
      let die := (ps.head?.map fun p => p.1 / 2 ^ 38 % 4).getD 0
      let cap := bitsOf cfg 27 8
      if ps.any fun p => p.2 ≠ 3 || 2 ^ 40 ≤ p.1 || p.1 / 2 ^ 38 % 4 ≠ die then laneDone (t.wrWord e.seq e.w.vd 0x8000000000000003)
      else if (t.activeWindows ctx).any fun w => w.base.toNat < base.toNat + len && base.toNat < w.base.toNat + w.len then
        laneDone (t.wrWord e.seq e.w.vd 0x8000000000000004)
      else
        match t.freeHandle ctx, t.bufferPlace ctx die (16 * cap) with
        | none, _ => laneDone (t.wrWord e.seq e.w.vd 0x8000000000000001)
        | _, none => laneDone (t.wrWord e.seq e.w.vd 0x8000000000000002)
        | some h, some at_ =>
          let w : Window :=
            { ctx := ctx, handle := h, base := base, len := len, die := die, pages := ps.map (·.1), cap := cap,
              rule := bitsOf cfg 6 4, ety := bitsOf cfg 3 0, bufAt := at_, entries := [], overflowed := false,
              conflicted := false, releasing := false, freeing := none }
          let t1 : State := { t with windows := t.windows ++ [w] }
          laneDone (t1.wrWord e.seq e.w.vd (word h))

/-- wdecl.rel: the window is released at the next whistle (11 R310). -/
def laneWdeclRel (e : VEntry) (lo _ : Nat) (s : State) : LaneOut :=
  let h := bitsOf e.x0 5 0
  let here := fun (w : Window) => w.ctx = s.th.bind.ctx ∧ w.handle = h ∧ w.freeing.isNone
  if s.pending then { st := s, reached := lo, stop := none }
  else if bitsOf e.x0 63 6 ≠ 0 || !(s.windows.any fun w => here w) then issueFail s lo
  else laneDone { s with windows := s.windows.map fun w => if here w then { w with releasing := true } else w }

/-! ### Remote access -/

/-- RANK and HANDLE of a target (11 R324). -/
def targetOf (x : Word) : Nat × Nat := (bitsOf x 13 0, bitsOf x 21 16)

/-- IDX of vldr and vstr (11 Table 11.2). -/
def idxOf (e : VEntry) : Bool := e.w.fnBits 11 1 = 1

/-- The issue checks of vldr and vstr (11 R324). -/
def State.remoteOk (s : State) (e : VEntry) : Bool :=
  bitsOf e.sb 63 22 = 0 && bitsOf e.sb 15 14 = 0 && bitsOf e.sb 13 0 < s.dev.packages && s.ebits e ≠ 4
    && (!idxOf e || e.vl ≤ vlmax s.width 32)

/-- The offset of element i (11 R324). -/
def State.remoteOff (s : State) (e : VEntry) (sz i : Nat) : Word :=
  e.sc + word ((if idxOf e then elemAt (vecGet s.th.ln.v e.w.va.toNat 0) 32 i else i) * sz)

/-- The page of an active window that holds an offset, walked for an access; its kind must still be DS (11 R309, R325; 07 R176). -/
def State.windowWalk (s : State) (k : Walker) (w : Window) (off : Nat) (acc : Access) : Except ExcCause Page :=
  if w.len ≤ off then .error .pageFault
  else
    match s.walk k (w.base + word (off / 65536 * 65536)) with
    | .error c => .error c
    | .ok p => if p.kind = 3 ∧ s.leafOk k p acc then .ok p else .error .pageFault

/-- The KEY of the page of an active window that holds an offset, the context's where no page is mapped (07 R175). -/
def State.windowKey (s : State) (k : Walker) (handle off : Nat) : Nat :=
  match (s.windows.find? fun w => w.ctx = k.ctx ∧ w.handle = handle).map fun w => s.walk k (w.base + word (off / 65536 * 65536)) with
  | some (.ok p) => p.key
  | _ => k.key

/-- The access of a word to a window: read, or write for vstr. -/
def accessOf (store : Bool) : Access := if store then .write else .read

/-- What the own package says of an offset of a window: the physical address of its bytes (11 R325). -/
def State.windowByte (s : State) (handle : Nat) (off : Word) (size : Nat) (store : Bool) : Except ExcCause Nat :=
  match (s.activeWindows s.th.bind.ctx).find? fun w => w.handle = handle with
  | none => .error .pageFault
  | some w =>
    if store && w.elemBytes ≠ size then .error .pageFault
    else
      match s.windowWalk s.walker w off.toNat (accessOf store) with
      | .error c => .error c
      | .ok _ =>
        let p := w.pages.getD (off.toNat / 65536) 0
        if s.reachable [(p, 3)] then .ok (p + off.toNat % 65536) else .error .machineCheck

/-- Mark the pages of an own window accessed, or written, that a word touches (07 R176). -/
def State.markWindow (handle : Nat) (pages : List Nat) (store : Bool) (s : State) : State :=
  match (s.activeWindows s.th.bind.ctx).find? fun w => w.handle = handle with
  | none => s
  | some w =>
    pages.foldl (fun t p =>
      match t.windowWalk t.walker w (p * 65536) (accessOf store) with
      | .ok x => t.markPte x (accessOf store)
      | .error _ => t) s

/-- The remote translation of a page that the thread's die holds, one filled for a vstr where a vstr asks; one with a base at or above
2^44 stands for the target's refusal (11 R329; DESIGN CHOICE, log 8). (DEDUCED, log 47.) -/
def State.rtransFind (s : State) (rank handle page : Nat) (store : Bool) : Option RemoteTrans :=
  (s.unc.rtrans.find? fun x => x.1 = s.th.bind.die ∧ x.2.2.ctx = s.th.bind.ctx ∧ x.2.2.rank = rank ∧ x.2.2.handle = handle ∧
    x.2.2.page = page ∧ (x.2.2.store || !store)).map (·.2.2)

/-- What the die's remote translation cache says of an offset: a fault, or nothing yet (11 R325, R329). -/
def State.remotePage (s : State) (rank handle : Nat) (off : Word) (size : Nat) (store : Bool) : Option ExcCause :=
  if s.dev.routeDown rank then some .machineCheck
  else if 2 ^ 36 ≤ off.toNat then some .pageFault
  else
    match s.rtransFind rank handle (off.toNat / 65536) store with
    | none => some .preemption
    | some r =>
      if 2 ^ 44 ≤ r.pa then some (if r.pa % 2 = 0 then .pageFault else .machineCheck)
      else if store && r.pa % 65536 ≠ size then some .pageFault
      else none

/-- Mark that a request has gone out, so that a word that waits sends it once. -/
def requestMark (k : Nat) : Nat × List Byte := (2 ^ 40 + k, [])

/-- Ask a target for the translation of a page of a window (11 R329, Table 11.7). -/
def State.askPage (rank handle page : Nat) (store : Bool) (s : State) : State :=
  s.sendFlits 4 rank 16 (flitBytes [s.th.bind.ctx, handle, page, if store then 1 else 0, s.dev.rank])

/-- Send the translation requests that active elements from lo on still need; each is a miss of the cache (11 R329, R347). -/
def askPages (rank handle : Nat) (store : Bool) : List Nat → State → State
  | [], s => s
  | p :: ps, s =>
    if (s.rtransFind rank handle p store).isSome || s.th.fab.remoteData.contains (requestMark (p + 1)) then
      askPages rank handle store ps s
    else
      askPages rank handle store ps
        (((s.count 35).onFab fun f => { f with remoteData := requestMark (p + 1) :: f.remoteData }).askPage rank handle p store)

/-- The pages the active elements of a remote word touch from element lo on. -/
def State.remotePages (s : State) (e : VEntry) (v : View) (lo : Nat) : List Nat :=
  ((List.range (v.vl - lo)).filterMap fun j =>
    if v.act (lo + j) then some ((s.remoteOff e (v.b / 8) (lo + j)).toNat / 65536) else none).eraseDups

/-- The requests of a vldr to another package: its translations, then one read request (11 R326, R329). -/
def State.askReads (s : State) (e : VEntry) (v : View) (rank handle lo : Nat) : State :=
  let ps := (s.remotePages e v lo).filter fun p => p < 2 ^ 20
  if s.dev.routeDown rank then s
  else
    let s1 := askPages rank handle false ps s
    if ps.any (fun p => (s1.rtransFind rank handle p false).isNone) || s1.th.fab.remoteData.contains (requestMark 0) then s1
    else
      (s1.onFab fun f => { f with remoteData := requestMark 0 :: f.remoteData }).sendFlits 2 rank 16
        (flitBytes ([s.th.bind.ctx, handle, v.b / 8, s.th.bind.place, lo] ++
          ((List.range (v.vl - lo)).filterMap fun j =>
            if v.act (lo + j) then some (s.remoteOff e (v.b / 8) (lo + j)).toNat else none)))

/-- The causes a target may answer an element with (11 R325; DESIGN CHOICE, log 8). -/
def remoteCause : Nat → ExcCause
  | 0x06 => .poison | 0x0B => .machineCheck | 0 => .preemption | _ => .pageFault

/-- One element of a vldr: its bytes, or why it has none (11 R325, R326). -/
def State.remoteRead (s : State) (rank handle : Nat) (off : Word) (size i : Nat) : Except ExcCause (List Byte) :=
  if off.toNat % size ≠ 0 then .error .misaligned
  else if rank = s.dev.rank then
    match s.windowByte handle off size false with
    | .error c => .error c
    | .ok pa =>
      if s.poisoned pa then .error .poison else .ok ((s.keyed (s.windowKey s.walker handle off.toNat) pa size).bytesAt pa size)
  else
    match s.remotePage rank handle off size false with
    | some c => .error c
    | none =>
      match s.th.fab.remoteData.find? fun x => x.1 = i with
      | none => .error .preemption
      | some x => if x.2.length = size then .ok x.2 else .error (remoteCause ((x.2.getLast?.map BitVec.toNat).getD 0))

/-- The elements of one group of a vldr in increasing order; the lowest that fails stops it. -/
def remoteElems (s : State) (v : View) (rank handle : Nat) (off : Nat → Word) (i0 : Nat) :
    Nat → VReg × Option (Nat × ExcCause) → VReg × Option (Nat × ExcCause)
  | 0, a => a
  | n + 1, a0 =>
    let a := remoteElems s v rank handle off i0 n a0
    let i := i0 + n
    if a.2.isSome then a
    else if !v.act i then (if v.mp then setElem a.1 v.b i 0 else a.1, none)
    else
      match s.remoteRead rank handle (off i) (v.b / 8) i with
      | .error c => (a.1, some (i, c))
      | .ok bs => (setElem a.1 v.b i (leNat bs), none)

/-- The groups of a vldr from group lo. -/
def remoteGroups (s : State) (v : View) (rank handle : Nat) (off : Nat → Word) (lo : Nat) :
    Nat → VReg × Option (Nat × ExcCause) → VReg × Option (Nat × ExcCause)
  | 0, a => a
  | k + 1, a0 =>
    let a := remoteGroups s v rank handle off lo k a0
    if a.2.isSome then a
    else
      let sp := v.span (lo + k) (lo + k + 1)
      let r := remoteElems s v rank handle off sp.1 sp.2 a
      if r.2.isSome then (a.1, r.2) else r

/-- The refusals that a die has of its targets are forgotten once they have faulted, so that a word asks again after its resume
(11 R329). -/
def State.dropRefusals (s : State) : State :=
  { s with unc := { s.unc with rtrans := s.unc.rtrans.filter fun x =>
      ¬ (x.1 = s.th.bind.die ∧ x.2.2.ctx = s.th.bind.ctx ∧ 2 ^ 44 ≤ x.2.2.pa) } }

/-- A remote word that stops or goes on. -/
def remoteOut (st : State) (reached : Nat) (stop : Option LStop) : LaneOut :=
  { st := if stop.isSome then st.dropRefusals else st, reached := reached, stop := stop }

/-- The stop of a remote word; an element that waits is no stop. -/
def remoteStop (v : View) : Option (Nat × ExcCause) → Option LStop
  | none | some (_, .preemption) => none
  | some (i, c) => some { cause := c, index := word i, group := i / v.per, flags := 0 }

/-- A word that the context's Skew stops at issue (11 R322). -/
def skewStop (s : State) (lo : Nat) : LaneOut := { st := s, reached := lo, stop := some { cause := .skew, index := 0, group := lo, flags := 0 } }

/-- The lines of the elements lo to hi − 1 that a vldr reads from an own window go through the L2 (07 R168). -/
def State.readWindow (s : State) (e : VEntry) (v : View) (handle lo hi : Nat) : State :=
  forUpTo (hi - lo) (fun j t =>
    if !v.act (lo + j) then t
    else
      match t.windowByte handle (t.remoteOff e (v.b / 8) (lo + j)) (v.b / 8) false with
      | .ok a => t.l2Read false a (v.b / 8)
      | .error _ => t) s

/-- vldr: the step-start bytes of a target window (11 R324 to R326). -/
def laneVldr (e : VEntry) (lo hi : Nat) (s : State) : LaneOut :=
  let v := s.view e
  if !s.remoteOk e then issueFail s lo
  else if s.skewed then skewStop s lo
  else if s.pending then { st := s, reached := lo, stop := none }
  else
    let tgt := targetOf e.sb
    let s1 := if tgt.1 = s.dev.rank then s.markWindow tgt.2 (s.remotePages e v (lo * v.per)) false
      else s.askReads e v tgt.1 tgt.2 (lo * v.per)
    let top := min hi v.groups
    let r := remoteGroups s1 v tgt.1 tgt.2 (s.remoteOff e (v.b / 8)) lo (top - lo) (vecGet s.th.ln.v e.w.vd.toNat 0, none)
    let got := match r.2 with | some (i, _) => i / v.per | none => top
    let s1a := if tgt.1 = s.dev.rank then s1.readWindow e v tgt.2 (lo * v.per) (min (got * v.per) v.vl) else s1
    let s2 := s1a.setV e.w.vd.toNat r.1 (progressOf got v.groups 64) (v.whole got)
    let s3 := if v.groups ≤ got then s2.onFab fun f => { f with remoteData := [] } else s2
    remoteOut s3 got (remoteStop v r.2)

/-- One element of a vstr: whether it may be stored (11 R325, R327). -/
def State.remoteWrite (s : State) (rank handle : Nat) (off : Word) (size : Nat) : Option ExcCause :=
  if off.toNat % size ≠ 0 then some .misaligned
  else if rank = s.dev.rank then
    match s.windowByte handle off size true with
    | .error c => some c
    | .ok _ => none
  else s.remotePage rank handle off size true

/-- The writes of one group of a vstr, or why it has none. -/
def remoteWrites (s : State) (e : VEntry) (v : View) (rank handle : Nat) (i0 : Nat) :
    Nat → List ElemWrite × Option (Nat × ExcCause)
  | 0 => ([], none)
  | n + 1 =>
    let a := remoteWrites s e v rank handle i0 n
    let i := i0 + n
    if a.2.isSome || !v.act i then a
    else
      let off := s.remoteOff e (v.b / 8) i
      match s.remoteWrite rank handle off (v.b / 8) with
      | some c => (a.1, some (i, c))
      | none =>
        (a.1 ++ [{ index := i, cluster := clusterOf v.wid v.b i, bytes := spanBytes off.toNat 3 (v.b / 8),
                   value := leBytes (v.b / 8) (s.opD e v.b i), mark := 3, order := vectorOrder e.seq i }], none)

/-- The groups of a vstr from group lo: the state, the groups entered, and why it stopped; a group that lacks entries
waits. -/
def remoteStores (e : VEntry) (v : View) (rank handle lo : Nat) :
    Nat → State × Nat × Option (Nat × ExcCause) → State × Nat × Option (Nat × ExcCause)
  | 0, a => a
  | k + 1, a0 =>
    let a := remoteStores e v rank handle lo k a0
    if a.2.2.isSome then a
    else
      let sp := v.span (lo + k) (lo + k + 1)
      let r := remoteWrites a.1 e v rank handle sp.1 sp.2
      let key := some (rank, handle, v.b / 8)
      match r.2 with
      | some x => (a.1, a.2.1, some x)
      | none =>
        let u := a.1.enterGroup r.1 false false key
        if u.2 then (u.1, lo + k + 1, none) else (u.1, a.2.1, some (sp.1, .preemption))

/-- vstr: deferred stores to a target window, held in the strip store buffer (11 R324, R325, R327). -/
def laneVstr (e : VEntry) (lo hi : Nat) (s : State) : LaneOut :=
  let v := s.view e
  if !s.remoteOk e then issueFail s lo
  else if s.skewed then skewStop s lo
  else if s.pending then { st := s, reached := lo, stop := none }
  else
    let tgt := targetOf e.sb
    let s1 := if tgt.1 = s.dev.rank then s.markWindow tgt.2 (s.remotePages e v (lo * v.per)) true
      else if s.dev.routeDown tgt.1 then s
      else askPages tgt.1 tgt.2 true ((s.remotePages e v (lo * v.per)).filter fun p => p < 2 ^ 20) s
    let top := min hi v.groups
    let r := remoteStores e v tgt.1 tgt.2 lo (top - lo) (s1, lo, none)
    let s2 := if r.2.2.isNone then r.1.onFab fun f => { f with remoteData := [] } else r.1
    remoteOut s2 (if r.2.2.isSome then r.2.1 else top) (remoteStop v r.2.2)

/-! ### Step words -/

/-- Whether the launch record's gang level, byte 2, is its top level, byte 1 less one; a thread without a launch record is
one gang (11 R313; 13 Table 13.4; DESIGN CHOICE, log 3). -/
def State.gangIsTop (s : State) : Bool :=
  match s.hub.launches.find? fun l => l.number = s.th.bind.launch with
  | none => true
  | some l => (l.entry.getD 2 0).toNat + 1 = (l.entry.getD 1 0).toNat

/-- Whether every store of the thread has been performed (11 R314 step 3). -/
def State.storesDone (s : State) : Bool :=
  (s.th.st.entries.all fun e => e.strip = s.th.st.open_) && s.th.st.unacked.isEmpty && s.th.fab.sent.isEmpty

/-- The arrival of a step word, once its stores have been performed (11 R314). -/
def State.stepArrive (s : State) (e : VEntry) (queued : Bool) (at_ : Nat) : State :=
  s.onFab fun f =>
    { f with arrived := true, queued := queued, released := false, stepAddr := e.addr,
             stepTimeout := if e.x0 = 0 then 10000000 else e.x0.toNat, stepAt := at_, arrivedAt := s.gtime.toNat }

/-- STEPNO of the context. -/
def State.stepNo (s : State) : Nat :=
  ((s.whistles.find? fun w => w.ctx = s.th.bind.ctx).map (·.stepNo)).getD 0

/-- A step word at the lanes: the issue checks, the commit, the waits, the arrival, and then either the wait for the release
or, for stepq, s[d] := STEPNO + 1. Skew that comes while the word waits for its stores is taken at its arrival, with index "−"
(11 R313, R314, R318, R321, R322). -/
def State.stepWord (s : State) (e : VEntry) (lo : Nat) (queued : Bool) (at_ : Nat) : LaneOut :=
  let f := s.th.fab
  if f.arrived && !f.queued then
    if f.released then
      laneDone (((s.onFab fun f => { f with arrived := false, released := false }).acquire 4).wrWord e.seq e.w.vd f.stepstat)
    else { st := s, reached := lo, stop := none }
  else if s.pending then { st := s, reached := lo, stop := none }
  else if !s.gangIsTop || 2 ^ 40 ≤ e.x0.toNat then issueFail s lo
  else if s.skewed && !e.issued then skewStop s lo
  else
    let s1 := s.commit.pushStores e.seq
    if !s1.storesDone then { st := s1, reached := lo, stop := none }
    else if s1.skewed then { st := s1, reached := lo, stop := some { cause := .skew, index := noIndex, group := lo, flags := 0 } }
    else
      let s2 := s1.stepArrive e queued at_
      if queued then
        laneDone ((s2.onFab fun f => { f with stepstat := putBits f.stepstat 2 1 1 }).wrWord e.seq e.w.vd (word (s.stepNo % 65536 + 1)))
      else { st := s2, reached := lo, stop := none }

/-- step: commit, drain, arrive, and wait for the release (11 R314, R318). -/
def laneStep (e : VEntry) (lo _ : Nat) (s : State) : LaneOut := s.stepWord e lo false 0
/-- step.at: the apply waits for global time s[b] (11 R320). -/
def laneStepAt (e : VEntry) (lo _ : Nat) (s : State) : LaneOut := s.stepWord e lo false e.sb.toNat
/-- stepq: arrive and let work that is not DS run on (11 R321). (DEDUCED, log 46.) -/
def laneStepq (e : VEntry) (lo _ : Nat) (s : State) : LaneOut := s.stepWord e lo true 0

/-! ### Communicators and stream bindings -/

/-- The member index of a flat index in a communicator entry (13 R390). -/
def Comm.memberOf (c : Comm) (flat : Nat) : Option Nat :=
  if c.first ≤ flat && c.stride ≠ 0 && (flat - c.first) % c.stride = 0 && (flat - c.first) / c.stride < c.members then
    some ((flat - c.first) / c.stride)
  else none

/-- Members of joined launches that come before a context's in the numbering (13 R390). -/
def State.joinedBefore (s : State) (c : Comm) (ctx : Nat) : Nat :=
  if c.join = 0 then 0
  else
    (s.ctxs.filter fun x => x.id < ctx).foldl (fun n x =>
      n + ((x.comms.find? fun y => y.number = c.number ∧ y.join = c.join).map (·.members)).getD 0) 0

/-- Communicator n of the current thread's context. -/
def State.comm (s : State) (n : Nat) : Option Comm := s.ctxRec.bind fun c => c.comms.find? fun x => x.number = n

/-- The members of communicator n of the current thread's context, those of the launches that join it among them (11 R337; 13 R390). -/
def State.commTotal (s : State) (n : Nat) : Nat :=
  match s.comm n with
  | none => 1
  | some c => if c.join = 0 then c.members else s.joinedBefore c (2 ^ 32)

/-- The peer of an offset: (p + k) mod n (11 R337). -/
def peerIndex (p : Nat) (k : Int) (n : Nat) : Nat := (((p : Int) + k) % (n : Int)).toNat

/-- The current thread's member index in communicator n (11 R334; 13 R390). -/
def State.memberIndex (s : State) (n : Nat) : Option Nat :=
  (s.comm n).bind fun c => (c.memberOf s.th.bind.flat).map (· + s.joinedBefore c s.th.bind.ctx)

/-- Change stream register N. -/
def State.onStream (n : Nat) (f : Stream → Stream) (s : State) : State :=
  s.onFab fun b => { b with fs := vecSet b.fs n (f (vecGet b.fs n .reset)) }

/-- The member that a stream's peer is: (p + k) mod n (11 R337). -/
def State.peerOf (s : State) (t : Stream) : Option Nat :=
  (s.memberIndex t.comm).map fun p => peerIndex p t.offset (s.commTotal t.comm)

/-- Whether a thread is member q of communicator n of a context (11 R334). -/
def State.isMember (s : State) (ctx n q : Nat) (x : Thread) : Bool :=
  x.life.inSlot && s.sameComm n x.bind.ctx ctx && ({ s with th := x } : State).memberIndex n = some q

/-- Run a function with an image as the current thread (12 R366). -/
def State.asImage (x : Thread) (f : State → State) (s : State) : State :=
  let u := f { s with th := x, others := s.th :: s.others, images := s.images.erase x }
  match u.others with
  | y :: ys => { u with th := y, others := ys, images := u.images ++ [u.th] }
  | [] => u

/-- Run a function with member q of communicator n of a context as the current thread, in its slot or its image (11 R334, R345). -/
def State.atMember (ctx n q : Nat) (f : State → State) (s : State) : State :=
  match s.threads.find? fun x => s.isMember ctx n q x with
  | some x => s.at x.bind.place f
  | none =>
    match s.images.find? fun x => s.isMember ctx n q x with
    | some x => s.asImage x f
    | none => s

/-- Whether member q of communicator n of a context stands on this package (11 R334). -/
def State.memberHere (s : State) (ctx n q : Nat) : Bool := (s.threads ++ s.images).any fun x => s.isMember ctx n q x

/-- The home of member q of communicator n of a context, from the launches that this package knows (11 R334; 13 R390). -/
def State.memberHome (s : State) (ctx n q : Nat) : Option (Nat × Nat × Nat) :=
  (s.ctxs.filter fun x => s.sameComm n x.id ctx).findSome? fun x =>
    (x.comms.find? fun y => y.number = n).bind fun c =>
      let k := q - s.joinedBefore c x.id
      if q < s.joinedBefore c x.id || c.members ≤ k then none
      else (s.hub.launches.filter fun l => l.ctx = x.id).findSome? fun l => l.homes[c.first + c.stride * k]?

/-- Send a message to member q of communicator n of the current thread's context, where its route is known (11 R331, R334;
DESIGN CHOICE, log 8). -/
def State.sendToMember (type n q vc : Nat) (bs : List Byte) (s : State) : State :=
  match s.memberHome s.th.bind.ctx n q with
  | some h => s.sendFlits type (s.homeRank h) vc bs
  | none => s

/-- The number of the current thread's receive stream that takes what member p of communicator n sends (11 R337). -/
def State.receiveFrom (s : State) (n p : Nat) : Option Nat :=
  (List.range 8).find? fun k =>
    let r := vecGet s.th.fab.fs k .reset
    r.bound && !r.send && !r.lost && r.comm = n && s.peerOf r = some p

/-- Free bytes of a receive buffer, less the reservations granted (11 R342). -/
def Stream.room (t : Stream) : Nat := 16384 - t.rx.length - t.granted

/-- Mark the chunk of a send stream that waits for admission as admitted. -/
def Stream.letIn (t : Stream) : Stream := { t with stage := t.stage.map fun c => { c with admitted := true } }

/-- Reserve room in the current thread's receive stream for a chunk of member p (11 R342). -/
def State.grantTo (n p size : Nat) (s : State) : State :=
  match s.receiveFrom n p with
  | none => s
  | some k => s.onStream k fun y => { y with granted := y.granted + size }

/-- The room that member q of a communicator has, on this package, for what member p sends (11 R342). -/
def State.roomAt (s : State) (ctx n p q : Nat) : Option Nat :=
  ((s.threads ++ s.images).find? fun x => s.isMember ctx n q x).bind fun x =>
    let y : State := { s with th := x }
    (y.receiveFrom n p).map fun k => (vecGet x.fab.fs k .reset).room

/-- Grant the requests of other packages that their receivers have room for, the requests for one stream in their order; the grants leave
(11 R342, Table 11.7). -/
def State.grantAsks (s : State) : State :=
  let same := fun (a b : StreamMsg) => a.ctx = b.ctx && a.comm = b.comm && a.sender = b.sender && a.receiver = b.receiver
  s.unc.asks.foldl (fun (t : State) m =>
    let first := t.unc.asks.find? fun x => same x m
    if first = some m && (t.roomAt m.ctx m.comm m.sender m.receiver).any (m.bytes ≤ ·) then
      ({ t with unc := { t.unc with asks := t.unc.asks.erase m } }).atMember m.ctx m.comm m.receiver fun u =>
        (u.grantTo m.comm m.sender m.bytes).sendToMember 10 m.comm m.sender 17
          (flitBytes [m.ctx, m.comm, m.sender, m.receiver, m.bytes])
    else t) s

/-- fsbind: bind stream register fsN (11 R337). -/
def State.fsbind (s : State) (e : VEntry) (lo : Nat) (send : Bool) : LaneOut :=
  let n := e.w.vd.toNat
  let k := e.sc.toInt
  let c := bitsOf s.th.fab.cgrp 3 0
  let fs := vecGet s.th.fab.fs n .reset
  if k < -8388608 || 8388607 < k || fs.bound  then issueFail s lo
  else
    match s.comm c, s.memberIndex c with
    | some cm, some p =>
      let q := peerIndex p k (s.commTotal c)
      if !send && s.th.fab.fs.toList.any fun t => t.bound && !t.send && t.comm = c && peerIndex p t.offset (s.commTotal c) = q then
        issueFail s lo
      else
      let t : Stream :=
        { bound := true, send := send, lost := cm.aborted, comm := c, offset := k, rx := [], granted := 0, stage := [] }
      laneDone (s.onFab fun f => { f with fs := vecSet f.fs n t }).grantAsks
    | _, _ => issueFail s lo

/-- fsbind.rx: bind for receiving (11 R337). -/
def laneFsbindRx (e : VEntry) (lo _ : Nat) (s : State) : LaneOut := s.fsbind e lo false
/-- fsbind.tx: bind for sending (11 R337). -/
def laneFsbindTx (e : VEntry) (lo _ : Nat) (s : State) : LaneOut := s.fsbind e lo true
/-- fsbind.u: unbind; a send stream waits until every admitted chunk has been delivered (11 R337). -/
def laneFsbindU (e : VEntry) (lo _ : Nat) (s : State) : LaneOut :=
  let n := e.w.vd.toNat
  let t := vecGet s.th.fab.fs n .reset
  let done := s.onFab fun f => { f with fs := vecSet f.fs n .reset }
  if !t.bound || t.lost then laneDone done
  else if t.send then (if t.stage.isEmpty then laneDone done else { st := s, reached := lo, stop := none })
  else if t.rx ≠ [] || t.granted ≠ 0 then issueFail s lo
  else laneDone done

/-! ### vcred -/

/-- The rank NaN of a format with a payload (11 R344). -/
def Fmt.rankNan (f : Fmt) (payload : Nat) (fl : Flags) : Elt :=
  if f.pol = 0 && 0 < f.m then
    ((2 ^ f.e - 1) * 2 ^ f.m + 2 ^ (f.m - 1) + min payload (2 ^ (f.m - 1) - 1), fl)
  else f.nanOut fl

/-- The payload of a NaN encoding: the low M − 1 mantissa bits (11 R344). -/
def Fmt.payload (f : Fmt) (x : Nat) : Nat := x % 2 ^ (f.m - 1)

/-- A rank reduction on FP encodings: op 0 add, 1 min, 2 max; q the rank of the second operand's source (11 R317, R343,
R344). -/
def Fmt.rankOp (f : Fmt) (op frm q a b : Nat) : Elt :=
  let x := f.decode a
  let y := f.decode b
  let invalid := op = 0 && x.isInf && y.isInf && x.sign ≠ y.sign
  if x.isNan || y.isNan || invalid then
    let p := if x.isNan then (if y.isNan then min (f.payload a) q else f.payload a) else q
    f.rankNan p (if x.isSig || y.isSig || invalid then fNV else 0)
  else
    match op with
    | 0 => f.add frm a b
    | 1 => (if x.isZero && y.isZero then (if x.sign then a else b) else if y.below x then b else a, 0)
    | _ => (if x.isZero && y.isZero then (if x.sign then b else a) else if x.below y then b else a, 0)

/-- CRed on integer encodings (11 R343). -/
def credInt (t : EType) (b op : Nat) (sat : Bool) (x y : Nat) : Elt :=
  let i := eltInt t b x
  let j := eltInt t b y
  match op with
  | 0 => if sat then satInt t.isSignedInt b (i + j) else (wrap b (i + j), 0)
  | 1 => (if i ≤ j then x else y, 0)
  | 2 => (if j ≤ i then x else y, 0)
  | 3 => (x &&& y, 0)
  | 4 => (x ||| y, 0)
  | _ => (x ^^^ y, 0)

/-- The communicator whose member index vcred uses: that of the stream it reads, else the one it writes, else cgrp's
(11 R343; DEDUCED, log 18). -/
def State.credComm (s : State) (e : VEntry) : Nat :=
  let at_ := fun (r : RegNo) => if 56 ≤ r.toNat then some (vecGet s.th.fab.fs (r.toNat - 56) .reset) else none
  match at_ e.w.va, at_ e.w.vb, at_ e.w.vd with
  | some t, b, d => if t.bound then t.comm else match b, d with
    | some u, _ => if u.bound then u.comm else bitsOf s.th.fab.cgrp 3 0
    | _, some u => if u.bound then u.comm else bitsOf s.th.fab.cgrp 3 0
    | _, _ => bitsOf s.th.fab.cgrp 3 0
  | none, some t, _ => if t.bound then t.comm else bitsOf s.th.fab.cgrp 3 0
  | none, none, some t => if t.bound then t.comm else bitsOf s.th.fab.cgrp 3 0
  | none, none, none => bitsOf s.th.fab.cgrp 3 0

/-- vcred: reduce the incoming partial with the local contribution; an inactive element passes A on (11 R343). -/
def laneVcred (e : VEntry) (lo hi : Nat) (s : State) : LaneOut :=
  let v := s.view e
  let op := bitsOf s.th.fab.cop 2 0
  let sat := bitsOf s.th.fab.cop 3 3 = 1
  let fp := e.w.ety.isFp
  if 5 < op || (fp && 2 < op) then issueFail s lo
  else
    let f := s.efmt e
    let idx := s.memberIndex (s.credComm e)
    let d := s.draw
    let p := idx.getD (Config.freeChoice d.1 % 2 ^ 24)
    let s1 := if idx.isNone && fp then d.2 else s
    let F : Nat → Elt := fun i =>
      let a := s.opA e v.b i
      if v.act i then
        let b := s.opB e v.b i
        if fp then f.rankOp op v.frm p a b else credInt e.w.ety v.b op sat a b
      else (a, 0)
    s1.eltWord e { v with masked := false } F lo hi

end Sys2Proof.Machine
end

