-- ==== Sys2Proof/Machine/Copy.lean ====
section
/-! DEFINITION. Arrival words, the copy engine, and what the lanes do with the copy words of major 0x69
(spec/10_atomic_sync_copy_instructions.md R293, R294, R296 to R303). -/

namespace Sys2Proof.Machine

/-! ### Arrival words -/

/-- TARGET of an arrival word (10 Table 10.14). -/
def awTarget (d0 : Word) : Nat := bitsOf d0 39 0

/-- An arrival word from its fields, reserved bits zero (10 Table 10.14). -/
def awPack (target : Nat) (err ovr : Bool) (gen count : Nat) : Word × Word :=
  (word (target % 2 ^ 40),
    word ((if err then 2 ^ 61 else 0) + (if ovr then 2 ^ 60 else 0) + gen % 2 ^ 20 * 2 ^ 40 + count % 2 ^ 40))

/-- A delivery of n bytes to an arrival word (10 R294). -/
def awDeliver (n : Nat) (d0 d1 : Word) : Word × Word :=
  let t := awTarget d0
  let c := bitsOf d1 39 0 + n
  let err := bitsOf d1 61 61 = 1
  let ovr := bitsOf d1 60 60 = 1
  if t ≤ c then awPack t err (ovr || t < c) (bitsOf d1 59 40 + 1) (c - t)
  else awPack t err ovr (bitsOf d1 59 40) c

/-- An arrival word with ERR set (10 R300). -/
def awError (d0 d1 : Word) : Word × Word :=
  awPack (awTarget d0) true (bitsOf d1 60 60 = 1) (bitsOf d1 59 40) (bitsOf d1 39 0)

/-- The two doubles of the arrival word at a cell. -/
def State.awRead (s : State) (a : Nat) : Word × Word :=
  (word (leNat (s.bytesAt a 8)), word (leNat (s.bytesAt (a + 8) 8)))

/-- One indivisible update of the arrival word at a cell (10 R293). -/
def State.awUpdate (a : Nat) (f : Word → Word → Word × Word) (s : State) : State :=
  let d := s.awRead a
  let r := f d.1 d.2
  s.perform a (leBytes 8 r.1.toNat ++ leBytes 8 r.2.toNat)

/-! ### The engine's view of memory -/

/-- The walker of a context: its record, else the current thread's bind record (13 R399). -/
def State.walkerOf (s : State) (ctx : Nat) : Walker :=
  match s.ctxs.find? fun c => c.id = ctx with
  | some c => { ctx := c.id, key := c.key, conf := c.conf, ptroot := c.ptroot }
  | none => { s.walker with ctx := ctx }

/-- How an engine access ends: a cell, a page that Eloaler must map, or an abandonment (10 R300). -/
inductive EngineAcc where
  | cell (a : Nat) | missing | abandon
  deriving DecidableEq, Repr

/-- Translate an access of a command through the engine's TLB (10 R296, R300). -/
def State.engineXlate (s : State) (core ctx : Nat) (va : Word) (acc : Access) : State × EngineAcc :=
  let k := s.walkerOf ctx
  match s.translate core 4 k va acc with
  | .ok x =>
    if x.kind = 3 then (x.st, .abandon)
    else
      match x.st.target ctx x.pa with
      | .cell a => (x.st, .cell a)
      | _ => (x.st, .abandon)
  | .error _ =>
    if (s.tlbFind core 4 ctx va).isSome then (s, .abandon)
    else
      match s.walk k va with
      | .error .pageFault => (s, .missing)
      | _ => (s, .abandon)

/-! ### Commands -/

/-- Bytes of a command in command order (10 Table 10.16). -/
def CopyCmd.total (c : CopyCmd) : Nat :=
  match c.fn with
  | 0 => c.b0.toNat
  | 1 => bitsOf c.b0 31 0 * bitsOf c.b0 63 32
  | 2 => bitsOf c.b0 31 0 * 2 ^ bitsOf c.b0 35 32
  | _ => 0

/-- The destination address of byte k of a command (10 Table 10.16). -/
def CopyCmd.dstAt (c : CopyCmd) (k : Nat) : Word :=
  match c.fn with
  | 1 =>
    let n := bitsOf c.b0 31 0
    c.dst + BitVec.ofInt 64 ((k / n : Nat) * sext 32 (bitsOf c.b1 63 32)) + word (k % n)
  | _ => c.dst + word k

/-- The source address of byte k of a command, given its index element for cpx (10 Table 10.16). -/
def CopyCmd.srcAt (c : CopyCmd) (idx k : Nat) : Word :=
  match c.fn with
  | 1 =>
    let n := bitsOf c.b0 31 0
    c.src + BitVec.ofInt 64 ((k / n : Nat) * sext 32 (bitsOf c.b1 31 0)) + word (k % n)
  | 2 =>
    let e := 2 ^ bitsOf c.b0 35 32
    c.src + word (idx * e + k % e)
  | _ => c.src + word k

/-- The index element of byte k of cpx. -/
def CopyCmd.indexAt (c : CopyCmd) (k : Nat) : Word := c.b1 + word (k / 2 ^ bitsOf c.b0 35 32 * 4)

/-- Whether an address is a destination byte of the command, so that a source byte there is not defined (10 R297). -/
def CopyCmd.writes (c : CopyCmd) (x : Word) : Bool :=
  match c.fn with
  | 1 => (List.range (bitsOf c.b0 63 32)).any fun r => (x - c.dstAt (r * bitsOf c.b0 31 0)).toNat < bitsOf c.b0 31 0
  | _ => (x - c.dst).toNat < c.total

/-- Bytes of the chunk that begins at pos: those that follow in the same 4 KiB block of the destination, at most 4,096
(10 R296). -/
def chunkLen (c : CopyCmd) (pos : Nat) : Nat → Nat
  | 0 => 0
  | n + 1 =>
    let k := chunkLen c pos n
    if k = n ∧ pos + n < c.total ∧ (c.dstAt (pos + n)).toNat / 4096 = (c.dstAt pos).toNat / 4096 then n + 1 else k

/-- A byte of a chunk that is ready to move: its source and destination cells, and whether its value is not defined. -/
structure Move where
  src : Nat
  dst : Nat
  open_ : Bool
  deriving DecidableEq, Repr

/-- Translate n bytes of a chunk from byte pos: the moves found, and how the first that fails fails (10 R300). -/
def chunkMoves (c : CopyCmd) (pos : Nat) : Nat → State × List Move × Option EngineAcc → State × List Move × Option EngineAcc
  | 0, a => a
  | n + 1, a0 =>
    let a := chunkMoves c pos n a0
    if a.2.2.isSome then a
    else
      let k := pos + n
      let ix : State × Except EngineAcc Nat :=
        if c.fn = 2 then
          match a.1.engineXlate c.core c.ctx (c.indexAt k) .read with
          | (t, .cell x) => (t.l2Read c.stream x 4, .ok (leNat (t.bytesAt x 4)))
          | (t, r) => (t, .error r)
        else (a.1, .ok 0)
      match ix with
      | (t, .error r) => (t, a.2.1, some r)
      | (t, .ok i) =>
        match t.engineXlate c.core c.ctx (c.srcAt i k) .read with
        | (t1, .cell x) =>
          match t1.engineXlate c.core c.ctx (c.dstAt k) .write with
          | (t2, .cell y) => (t2, a.2.1 ++ [{ src := x, dst := y, open_ := c.writes (c.srcAt i k) && c.srcAt i k ≠ c.dstAt k }], none)
          | (t2, r) => (t2, a.2.1, some r)
        | (t1, r) => (t1, a.2.1, some r)

/-- Whether bytes that a command writes may be bytes that it reads (10 R297). -/
def CopyCmd.mayOverlap (c : CopyCmd) : Bool :=
  c.fn ≠ 0 || (c.src - c.dst).toNat < c.total || (c.dst - c.src).toNat < c.total

/-- Move bytes of a command that reads none that it writes. -/
def moveBytes : List Move → State → State
  | [], s => s
  | m :: ms, s => moveBytes ms (s.putByte m.dst (s.byteAt m.src))

/-- Move n bytes in a free order; where the command also writes a source byte, the byte as it stood before the command or the one that
now stands there moves. What stood before is kept (10 R296, R297; DESIGN CHOICE, log 5). -/
def moveMixed : Nat → List Move → List Host.Cell → State → State × List Host.Cell
  | 0, _, olds, s => (s, olds)
  | n + 1, ms, olds, s =>
    let d := s.draw
    let i := Config.freeChoice d.1 % ms.length
    match ms[i]? with
    | none => (d.2, olds)
    | some m =>
      let f := d.2.draw
      let now := f.2.byteAt m.src
      let old := ((olds.find? fun c => c.1 = m.src).map (·.2)).getD now
      let olds1 := if olds.any fun c => c.1 = m.dst then olds else (m.dst, f.2.byteAt m.dst) :: olds
      moveMixed n (ms.eraseIdx i) olds1 (f.2.putByte m.dst (if m.open_ ∧ Config.freeChoice f.1 % 2 = 0 then old else now))

/-- The lines that some cells lie in. -/
def linesOf (cells : List Nat) : List Nat := (cells.map (· / 256)).eraseDups

/-- The source lines of a chunk are read and its destination lines written at their home slices, with the command's streaming hint
(10 R296, R297; 07 R168). -/
def State.touchChunk (c : CopyCmd) (ms : List Move) (s : State) : State :=
  let t := (linesOf (ms.map (·.src))).foldl (fun u l => u.l2Touch c.stream (256 * l)) s
  (linesOf (ms.map (·.dst))).foldl (fun u l => u.l2Write c.stream (256 * l) 256) t

/-- The bytes of a chunk move (10 R296, R297). -/
def State.moveChunk (c : CopyCmd) (ms : List Move) (s0 : State) : State × List Host.Cell :=
  let s := s0.touchChunk c ms
  if c.mayOverlap then moveMixed ms.length ms c.olds s else (moveBytes ms s, c.olds)

/-- The poison of the destination granules of a chunk: source poison is copied with the data, and a granule written whole
from clean data is clean (10 R300; 07 R192). -/
def movePoison (old : List Nat) (ms : List Move) (s : State) : State :=
  ((ms.map fun m => m.dst / 32).eraseDups).foldl (fun t g =>
    let here := ms.filter fun m => m.dst / 32 = g
    if here.any fun m => old.contains (m.src / 32) then
      (if t.poison.contains g then t else { t with poison := g :: t.poison })
    else if ((here.map (·.dst)).eraseDups).length = 32 then { t with poison := t.poison.filter (· ≠ g) }
    else if t.poison.contains g then
      t.onUnc fun u => { u with merges := vecSet u.merges (cellDie (32 * g)) (vecGet u.merges (cellDie (32 * g)) 0 + 1) }
    else t) s

/-- A command ends: it leaves its slot. -/
def State.dropCopy (c : CopyCmd) (s : State) : State :=
  { s with copies := s.copies.filter fun x => ¬ (x.owner = c.owner ∧ x.seq = c.seq) }

/-- A command is abandoned at its chunk boundary: ERR in its arrival word and in cpstat, and its slot is freed
(10 R300). -/
def State.abandonCopy (c : CopyCmd) (s : State) : State :=
  let err := fun (t : Thread) => { t with ln := { t.ln with cpErr := true } }
  let s0 := s.at c.owner fun t => t.onTh err
  let s1 : State := { s0 with images := s0.images.map fun t => if imageOwner t.bind = c.owner then err t else t }
  let s2 := match c.aw with
    | none => s1
    | some va =>
      match s1.engineXlate c.core c.ctx va .write with
      | (t, .cell a) => t.awUpdate a awError
      | (t, _) => t
  s2.dropCopy c

/-- Deliver n bytes to a command's arrival word and go on; a page to be mapped makes the command wait, and any other failure
abandons it (10 R296, R300). -/
def State.deliverCopy (c : CopyCmd) (n : Nat) (next : State → State) (s : State) : State :=
  match c.aw with
  | none => next s
  | some va =>
    match s.engineXlate c.core c.ctx va .write with
    | (t, .cell a) => next (t.awUpdate a (awDeliver n))
    | (t, .missing) => t.onCopyCmd c fun x => { x with held := true }
    | (t, .abandon) => t.abandonCopy c

/-- Whether an older command of the thread is outstanding (10 R297, cpq). -/
def State.olderCopy (s : State) (c : CopyCmd) : Bool := s.copies.any fun x => x.owner = c.owner && x.seq < c.seq

/-- The next chunk of a command: moved and delivered, or the command waits or is abandoned; cpq delivers once older
commands have ended (10 R296, R297, R300, R303). -/
def State.copyChunk (c : CopyCmd) (s : State) : State :=
  if c.stopping then s.abandonCopy c
  else if c.paused || c.held then s
  else if c.fn = 3 then
    if s.olderCopy c then s else s.deliverCopy c c.b0.toNat fun t => t.dropCopy c
  else
    let n := chunkLen c c.pos 4096
    let r := chunkMoves c c.pos n (s, [], none)
    match r.2.2 with
    | some .missing => r.1.onCopyCmd c fun x => { x with held := true }
    | some _ =>
      let part := r.2.1.foldl (fun (a : List Move × State) m =>
        let d := a.2.draw
        (if Config.freeChoice d.1 % 2 = 0 then a.1 ++ [m] else a.1, d.2)) ([], r.1)
      (movePoison part.2.poison part.1 (part.2.moveChunk c part.1).1).abandonCopy c
    | none =>
      let m := r.1.moveChunk c r.2.1
      (movePoison r.1.poison r.2.1 m.1).deliverCopy c n fun t =>
        if c.total ≤ c.pos + n then t.dropCopy c else t.onCopyCmd c fun x => { x with pos := c.pos + n, olds := m.2 }

/-- Commands of the current thread accepted and not yet completed or abandoned (10 Table 10.17, OUT). -/
def State.copiesOut (s : State) : Nat := (s.copies.filter fun c => c.owner = s.th.bind.place).length

/-! ### The copy words -/

/-- A copy word makes its command, once older stores are performed, committed strips have drained and a slot is free
(10 R298). -/
def State.copyWord (s : State) (e : VEntry) (lo fn : Nat) (ok : Bool) (dst src b0 b1 : Word) : LaneOut :=
  if !ok then issueFail s lo
  else if e.w.vc ≠ 0 && e.sc.toNat % 16 ≠ 0 then laneStop s .misaligned 0 lo
  else
    let s1 := (s.pushStores e.seq).drainAll
    match s1.copySlot s1.th.bind.coreNo with
    | none => { st := s1, reached := lo, stop := none }
    | some k =>
      let c : CopyCmd :=
        { core := s1.th.bind.coreNo, slot := k, owner := s1.th.bind.place, ctx := s1.th.bind.ctx, fn := fn,
          stream := e.w.fnBits 9 1 = 1, dst := dst, src := src, b0 := b0, b1 := b1,
          aw := if e.w.vc = 0 then none else some e.sc, pos := 0, olds := [], seq := e.seq, held := false, paused := false,
          stopping := false }
      if (if fn = 3 then b0.toNat else c.total) = 0 then laneDone s1
      else laneDone { s1 with copies := s1.copies ++ [c] }

/-- Whether b and b + 1 both name a register, as cp2 and cpx ask (10 Table 10.16). -/
def pairField (e : VEntry) : Bool := 1 ≤ e.w.vb.toNat && e.w.vb.toNat ≤ 62

/-- cp: s[b] bytes from s[a] to s[d] (10 Table 10.16). -/
def laneCp (e : VEntry) (lo _ : Nat) (s : State) : LaneOut :=
  s.copyWord e lo 0 (e.sb.toNat < 2 ^ 40) e.x1 e.x0 e.sb 0
/-- cp2: rows with pitches (10 Table 10.16). -/
def laneCp2 (e : VEntry) (lo _ : Nat) (s : State) : LaneOut :=
  s.copyWord e lo 1 (pairField e && bitsOf e.sb 31 0 ≠ 0 && bitsOf e.sb 63 32 ≠ 0) e.x1 e.x0 e.sb e.x2
/-- cpx: indexed elements (10 Table 10.16). -/
def laneCpx (e : VEntry) (lo _ : Nat) (s : State) : LaneOut :=
  s.copyWord e lo 2 (pairField e && bitsOf e.sb 35 32 ≤ 8 && bitsOf e.sb 63 36 = 0 && e.x2.toNat % 4 = 0) e.x1 e.x0 e.sb e.x2
/-- cpq: a delivery after the thread's older commands (10 Table 10.16). -/
def laneCpq (e : VEntry) (lo _ : Nat) (s : State) : LaneOut :=
  s.copyWord e lo 3 (e.w.vc ≠ 0 && e.sb.toNat < 2 ^ 40) 0 0 e.sb 0
/-- cpw: issues at once; its wait is the front's (10 R301). -/
def laneCpw (_ : VEntry) (_ _ : Nat) (s : State) : LaneOut := laneDone s

end Sys2Proof.Machine
end

