-- ==== Sys2Proof/Machine/VecConv.lean ====
section
/-! DEFINITION. What the lanes do with the words of majors 0x38 to 0x3C (spec/06_conversion_and_divide_instructions.md R151 to
R160) and with the configuration words setvl, setvt, setfmt and mshape (05 R109, R110, R114; 06 R141). -/

namespace Sys2Proof.Machine

/-- The result of converting one element code from a source to a destination type (06 R152, R148). -/
def State.convert (s : State) (fsel : Nat) (mode : Nat) (sat : Bool) (src dst : EType) (x : Nat) : Elt :=
  let ln := s.th.ln
  let bs := ln.bits fsel src
  let bd := ln.bits fsel dst
  if src.isFp then
    let v := (ln.fp fsel src).decode x
    if dst.isFp then (ln.fp fsel dst).round mode v else toIntType mode sat dst.isSignedInt bd v
  else
    let n := eltInt src bs x
    if dst.isFp then (ln.fp fsel dst).ofInt mode n
    else if sat then satInt dst.isSignedInt bd n else (wrap bd n, 0)

/-- vcvt: each active element in the destination type, in destination groups (06 R151 to R153). -/
def laneVcvt (e : VEntry) (lo hi : Nat) (s : State) : LaneOut :=
  match EType.ofCode (e.w.fnBits 0 4) with
  | none => issueFail s lo
  | some dst =>
    let fs := vtFsel e.vtype
    let bs := s.ebits e
    let bd := s.th.ln.bits fs dst
    if !s.th.ln.typeOk fs dst || vlmax s.width (max bs bd) < e.vl || (e.w.vd = e.w.va && bs < bd) then issueFail s lo
    else
      let rm := e.w.fnBits 4 3
      let v := s.viewOf e bd
      s.eltWord e v (fun i =>
        s.convert fs (if rm = 0 then v.frm else rm - 1) (e.w.fnBits 7 1 = 1) e.w.ety dst (s.opA e bs i)) lo hi

/-- The error-fed narrowing of one element: the residual, and the code with its flags (06 R155). The sign of an exact zero residual is
that of an addition that rounds to nearest (PRESUMED, log 82). -/
def efStep (src dst : Fmt) (c x : Nat) : Nat × Elt :=
  let v := src.decode x
  if v.isNan || v.isInf then (0, dst.round 0 v)
  else
    let t := (fp32.addV 0 v (fp32.decode c)).1
    let y := dst.round 0 (fp32.decode t)
    let neg := !dst.sgn && (fp32.decode t).sign && !(fp32.decode t).isZero
    if y.2 &&& fOF ≠ 0 || neg || (dst.decode y.1).isInf then (0, y)
    else ((fp32.addV 0 (fp32.decode t) (dst.decode y.1).negate).1, y)

/-- The running state of vcvt.ef: residual, destination, flags, and the element of an enabled flag. -/
structure EfAcc where
  c : Nat
  d : VReg
  fl : Flags
  stop : Option (Nat × Flags)

/-- vcvt.ef over n elements from lo (06 R155). -/
def State.efTo (s : State) (e : VEntry) (v : View) (src dst : Fmt) (bs lo : Nat) : Nat → EfAcc
  | 0 => { c := s.th.ln.efc.toNat, d := vecGet s.th.ln.v e.w.vd.toNat 0, fl := 0, stop := none }
  | n + 1 =>
    let a := s.efTo e v src dst bs lo n
    let i := lo + n
    if a.stop.isSome then a
    else if v.act i then
      let r := efStep src dst a.c (s.opA e bs i)
      if r.2.2 &&& v.traps ≠ 0 then { a with stop := some (i, r.2.2 &&& v.traps) }
      else { c := r.1, d := setElem a.d v.b i r.2.1, fl := a.fl ||| r.2.2, stop := none }
    else if v.mp then { a with d := setElem a.d v.b i 0 }
    else a

/-- The largest finite magnitude of a format exceeds that of FP32 (06 R154). -/
def beyondFp32 (f : Fmt) : Bool :=
  match f.decode f.maxCode with
  | .fin _ m x => (FVal.fin false 0xFFFFFF 104).below (.fin false m x)
  | _ => true

/-- vcvt.ef: whole destination groups, with efc.RES carried (06 R154 to R157). -/
def laneVcvtEf (e : VEntry) (lo hi : Nat) (s : State) : LaneOut :=
  match EType.ofCode (e.w.fnBits 0 4) with
  | none => issueFail s lo
  | some dst =>
    let fs := vtFsel e.vtype
    let bs := s.ebits e
    let df := s.th.ln.fp fs dst
    if !s.th.ln.typeOk fs dst || vlmax s.width bs < e.vl || (dst = .fmt && beyondFp32 df) then issueFail s lo
    else
      let v := s.viewOf e (s.th.ln.bits fs dst)
      let top := min hi v.groups
      let sp := v.span lo top
      let a := s.efTo e v (s.efmt e) df bs sp.1 sp.2
      let put := fun (r : EfAcc) (reached : Nat) =>
        ((s.setV e.w.vd.toNat r.d (progressOf reached v.groups 64) (v.whole reached)).orLaneFlags r.fl).onLn fun l =>
          { l with efc := BitVec.ofNat 32 r.c }
      match a.stop with
      | none => { st := put a top, reached := top, stop := none }
      | some (i, fl) =>
        let g := i / v.per
        { st := put (s.efTo e v (s.efmt e) df bs sp.1 (g * v.per - sp.1)) g, reached := g,
          stop := some { cause := .arithmetic, index := word i, group := g, flags := fl } }

/-- vpack's field for one element (06 R158). -/
def packField (e : VEntry) (b x : Nat) : Elt :=
  let p := e.w.fnBits 0 4
  if e.w.ety = .fmt || e.w.fnBits 4 1 = 0 then (x % 2 ^ p, 0)
  else satInt e.w.ety.isSignedInt p (eltInt e.w.ety b x)

/-- Whether a pack word of the format type names the format's own width, and that width lies below the container's (06 R158). -/
def State.packWidthOk (s : State) (e : VEntry) : Bool :=
  e.w.ety != .fmt || (fmtField (s.th.ln.fmtWord (vtFsel e.vtype)) 0 4 = e.w.fnBits 0 4 && e.w.fnBits 0 4 < s.ebits e)

/-- vpack: dense fields of P bits, in whole destination groups (06 R158). -/
def laneVpack (e : VEntry) (lo hi : Nat) (s : State) : LaneOut :=
  let v := s.view e
  if !s.packWidthOk e || vlmax v.wid v.b < e.vl then issueFail s lo
  else
    let p := e.w.fnBits 0 4
    let line := v.wid * 512
    let groups := ceilDiv (e.vl * p) line
    let f := fun i => packField e v.b (s.opA e v.b i)
    let trap := firstIx (fun i => lo * line ≤ i * p ∧ (f i).2 &&& v.traps ≠ 0) 0 e.vl
    let top := min (min hi groups) (match trap with | none => groups | some i => i * p / line)
    let all : VReg := putElems p 0 (fun i => some (f i).1) e.vl 0
    let n := min (top * line) (e.vl * p) - lo * line
    let d := setField (vecGet s.th.ln.v e.w.vd.toNat 0) (lo * line) n (field all (lo * line) n)
    let fl := orFlags (fun i => if lo * line ≤ i * p ∧ i * p < top * line then (f i).2 else 0) 0 e.vl
    { st := (s.setV e.w.vd.toNat d (progressOf top groups 64) false).orLaneFlags fl, reached := top,
      stop := match trap with
        | some i => if top = i * p / line then
            some { cause := .arithmetic, index := word i, group := top, flags := (f i).2 &&& v.traps } else none
        | none => none }

/-- vunpack: fields of P bits into containers, sign-extended for I8 (06 R158). -/
def laneVunpack (e : VEntry) (lo hi : Nat) (s : State) : LaneOut :=
  let v := { s.view e with masked := false, mp := false }
  if !s.packWidthOk e || vlmax v.wid v.b < e.vl then issueFail s lo
  else
    let p := e.w.fnBits 0 4
    let a := vecGet s.th.ln.v e.w.va.toNat 0
    s.eltWord e v (fun i =>
      let x := if e.w.rsel = .a then e.unitElem p i else elemAt a p i
      (if e.w.ety = .i8 then wrap v.b (sext p x) else x, 0)) lo hi

/-- The block size of vscale (06 R159). -/
def scaleBlock : Nat → Nat
  | 0 => 32 | 1 => 16 | 2 => 8 | _ => 1

/-- The scale of element i of a vscale word; a scale element beyond the register reads as code 0 (06 R159). (DESIGN CHOICE, log 65.) -/
def State.scaleCode (s : State) (e : VEntry) (i : Nat) : Nat :=
  let sty := e.w.fnBits 3 1
  match e.w.form with
  | .vv =>
    let k := i / scaleBlock (e.w.fnBits 1 2)
    let b := if sty = 1 then 8 else 16
    if e.w.rsel = .b then e.unitElem b k else elemAt (vecGet s.th.ln.v e.w.vb.toNat 0) b k
  | _ => e.sc.toNat

/-- vscale.mul: each element times its block scale (06 R159). -/
def laneVscaleMul (e : VEntry) (lo hi : Nat) (s : State) : LaneOut :=
  let v := s.view e
  let f := s.efmt e
  s.eltWord e v (fun i => f.scale v.frm false (e.w.fnBits 3 1) (s.scaleCode e i) (s.opA e v.b i)) lo hi
/-- vscale.div: each element over its block scale (06 R159). -/
def laneVscaleDiv (e : VEntry) (lo hi : Nat) (s : State) : LaneOut :=
  let v := s.view e
  let f := s.efmt e
  s.eltWord e v (fun i => f.scale v.frm true (e.w.fnBits 3 1) (s.scaleCode e i) (s.opA e v.b i)) lo hi
/-- vfclass: bit i of md is 1 when the class of element i is in the set (06 R160). -/
def laneVfclass (e : VEntry) (lo hi : Nat) (s : State) : LaneOut :=
  let v := s.view e
  let f := s.efmt e
  s.maskWord e v (fun i => (if (e.w.fnBits 0 10).testBit (f.classOf (s.opA e v.b i)) then 1 else 0, 0)) lo hi

/-- The lanes take the vl and ESZ that setvl sent (05 R107, R109). -/
def laneSetvl (e : VEntry) (_ _ : Nat) (s : State) : LaneOut :=
  laneDone (s.onLn fun l =>
    { l with vl := e.vl, vtype := BitVec.ofNat 10 (l.vtype.toNat / 8 * 8 + e.w.key % 8) })
/-- setvt: FSEL, FRM and MP from bits [9:3] of the value; a value that breaks R110 fails at issue (05 R110). -/
def laneSetvt (e : VEntry) (lo _ : Nat) (s : State) : LaneOut :=
  let x : Word := match e.w.form with | .vi => BitVec.ofInt 64 (immOf e.w) | _ => e.sc
  if bitsOf x 2 0 ≠ 0 || bitsOf x 63 10 ≠ 0 || 4 < bitsOf x 8 6 then issueFail s lo
  else laneDone (s.onLn fun l => { l with vtype := BitVec.ofNat 10 (bitsOf x 9 3 * 8 + l.vtype.toNat % 8) })
/-- setfmt: fmtN := s[a]; a value that is not valid fails at issue (06 R141). -/
def laneSetfmt (e : VEntry) (lo _ : Nat) (s : State) : LaneOut :=
  if fmtAccept e.sc then laneDone (s.onLn fun l => { l with fmt := vecSet l.fmt e.w.vd.toNat e.sc }) else issueFail s lo
/-- mshape: the shape entry of group n := FMT, COLS, ROWS, FSEL, with the checks of R114 (05). -/
def laneMshape (e : VEntry) (lo _ : Nat) (s : State) : LaneOut :=
  let rows := bitsOf e.sc 31 16
  let cols := bitsOf e.sc 15 0
  if bitsOf e.sc 63 32 ≠ 0 || rows = 0 || cols = 0 || s.width * 131072 < rows * cols * s.ebits e then issueFail s lo
  else
    let x := word (e.w.ety.code + cols * 2 ^ 4 + rows * 2 ^ 20 + vtFsel e.vtype * 2 ^ 36)
    laneDone (s.onLn fun l => { l with shape := vecSet l.shape (e.w.vd.toNat / 4) x })

end Sys2Proof.Machine
end

