-- ==== Sys2Proof/Machine/VecFp.lean ====
section
/-! DEFINITION. What the lanes do with the words of majors 0x20 to 0x23 (spec/05_vector_instructions.md R125, R129) and of
the divide unit, major 0x3D (spec/06_conversion_and_divide_instructions.md R162, R163). -/

namespace Sys2Proof.Machine

/-- vfadd: Round(a + b) (05 Table 5.11). -/
def laneVfadd (e : VEntry) (lo hi : Nat) (s : State) : LaneOut := s.fpWord e lo hi fun f m x y => f.add m x y
/-- vfsub: Round(a − b) (05 Table 5.11). -/
def laneVfsub (e : VEntry) (lo hi : Nat) (s : State) : LaneOut := s.fpWord e lo hi fun f m x y => f.sub m x y
/-- vfmul: Round(a × b) (05 Table 5.11). -/
def laneVfmul (e : VEntry) (lo hi : Nat) (s : State) : LaneOut := s.fpWord e lo hi fun f m x y => f.mul m x y
/-- vfmadd: Round(a × b + c) (05 Table 5.11). -/
def laneVfmadd (e : VEntry) (lo hi : Nat) (s : State) : LaneOut := s.fmaWord e lo hi false false
/-- vfmsub: Round(a × b − c) (05 Table 5.11). -/
def laneVfmsub (e : VEntry) (lo hi : Nat) (s : State) : LaneOut := s.fmaWord e lo hi false true
/-- vfnmadd: Round(−(a × b) − c) (05 Table 5.11). -/
def laneVfnmadd (e : VEntry) (lo hi : Nat) (s : State) : LaneOut := s.fmaWord e lo hi true true
/-- vfnmsub: Round(−(a × b) + c) (05 Table 5.11). -/
def laneVfnmsub (e : VEntry) (lo hi : Nat) (s : State) : LaneOut := s.fmaWord e lo hi true false
/-- vfmacc: Round(a × b + c), c the old vd (05 Table 5.11). -/
def laneVfmacc (e : VEntry) (lo hi : Nat) (s : State) : LaneOut :=
  let v := s.view e
  let f := s.efmt e
  s.eltWord e v (fun i => f.fma v.frm false false (s.opA e v.b i) (s.opB e v.b i) (s.opD e v.b i)) lo hi
/-- vfmin (05 Table 5.11; 03 R76). -/
def laneVfmin (e : VEntry) (lo hi : Nat) (s : State) : LaneOut := s.fpWord e lo hi fun f _ x y => f.minMax true x y
/-- vfmax (05 Table 5.11; 03 R76). -/
def laneVfmax (e : VEntry) (lo hi : Nat) (s : State) : LaneOut := s.fpWord e lo hi fun f _ x y => f.minMax false x y
/-- vfabs: a with the sign cleared (05 Table 5.11). -/
def laneVfabs (e : VEntry) (lo hi : Nat) (s : State) : LaneOut := s.signWord e lo hi fun f x _ => f.withSign x false
/-- vfneg: a with the sign inverted (05 Table 5.11). -/
def laneVfneg (e : VEntry) (lo hi : Nat) (s : State) : LaneOut := s.signWord e lo hi fun f x _ => f.withSign x (!f.negCode x)
/-- vfsign.c: a with the sign of b (05 Table 5.11). -/
def laneVfsignC (e : VEntry) (lo hi : Nat) (s : State) : LaneOut :=
  s.signWord e lo hi fun f x y => f.withSign x (f.negCode y)
/-- vfsign.n: a with the inverted sign of b (05 Table 5.11). -/
def laneVfsignN (e : VEntry) (lo hi : Nat) (s : State) : LaneOut :=
  s.signWord e lo hi fun f x y => f.withSign x (!f.negCode y)
/-- vfsign.x: a with sign(a) XOR sign(b) (05 Table 5.11). -/
def laneVfsignX (e : VEntry) (lo hi : Nat) (s : State) : LaneOut :=
  s.signWord e lo hi fun f x y => f.withSign x (f.negCode x != f.negCode y)

/-- vfcmp.eq: a NaN gives false, a signalling NaN raises NV (05 R125). -/
def laneVfcmpEq (e : VEntry) (lo hi : Nat) (s : State) : LaneOut := s.fcmpWord e lo hi (fun x y => x.same y) false false
/-- vfcmp.ne: true when unordered (05 R125). -/
def laneVfcmpNe (e : VEntry) (lo hi : Nat) (s : State) : LaneOut := s.fcmpWord e lo hi (fun x y => !x.same y) true false
/-- vfcmp.lt: any NaN raises NV (05 R125). -/
def laneVfcmpLt (e : VEntry) (lo hi : Nat) (s : State) : LaneOut := s.fcmpWord e lo hi (fun x y => x.below y) false true
/-- vfcmp.le: any NaN raises NV (05 R125). -/
def laneVfcmpLe (e : VEntry) (lo hi : Nat) (s : State) : LaneOut := s.fcmpWord e lo hi (fun x y => !y.below x) false true
/-- vfcmp.gt: any NaN raises NV (05 R125). -/
def laneVfcmpGt (e : VEntry) (lo hi : Nat) (s : State) : LaneOut := s.fcmpWord e lo hi (fun x y => y.below x) false true
/-- vfcmp.ge: any NaN raises NV (05 R125). -/
def laneVfcmpGe (e : VEntry) (lo hi : Nat) (s : State) : LaneOut := s.fcmpWord e lo hi (fun x y => !x.below y) false true
/-- vfcmp.un: a or b is a NaN (05 R125). -/
def laneVfcmpUn (e : VEntry) (lo hi : Nat) (s : State) : LaneOut := s.fcmpWord e lo hi (fun _ _ => false) true false

/-- vdiv: Round(a / b) (06 R162). -/
def laneVdiv (e : VEntry) (lo hi : Nat) (s : State) : LaneOut := s.fpWord e lo hi fun f m x y => f.div m x y
/-- vrdiv: Round(b / a) (06 R162). -/
def laneVrdiv (e : VEntry) (lo hi : Nat) (s : State) : LaneOut := s.fpWord e lo hi fun f m x y => f.div m y x
/-- vsqrt: Round(√a) (06 R162). -/
def laneVsqrt (e : VEntry) (lo hi : Nat) (s : State) : LaneOut := s.fp1Word e lo hi fun f m x => f.sqrt m x
/-- vrsq: Round(1 / √a) (06 R162). -/
def laneVrsq (e : VEntry) (lo hi : Nat) (s : State) : LaneOut := s.fp1Word e lo hi fun f m x => f.rsq m x

end Sys2Proof.Machine
end

