-- ==== Sys2Proof/Machine/VecInt.lean ====
section
/-! DEFINITION. What the lanes do with the words of majors 0x00 to 0x09: integer arithmetic, logic, shifts, compares, mask
words, selection and moves (spec/05_vector_instructions.md R124 to R128). Each takes the VIQ entry, the first group and
the group before which it stops. -/

namespace Sys2Proof.Machine

/-- vadd: a + b (05 Table 5.7). -/
def laneVadd (e : VEntry) (lo hi : Nat) (s : State) : LaneOut := s.intWord e lo hi fun b x y => (wrap b (x + y), 0)
/-- vsub: a − b (05 Table 5.7). -/
def laneVsub (e : VEntry) (lo hi : Nat) (s : State) : LaneOut := s.intWord e lo hi fun b x y => (wrap b (x - y), 0)
/-- vrsub: b − a (05 Table 5.7). -/
def laneVrsub (e : VEntry) (lo hi : Nat) (s : State) : LaneOut := s.intWord e lo hi fun b x y => (wrap b (y - x), 0)
/-- vmul: a × b (05 Table 5.7). -/
def laneVmul (e : VEntry) (lo hi : Nat) (s : State) : LaneOut := s.intWord e lo hi fun b x y => (wrap b (x * y), 0)
/-- vmulh: bits [2w − 1 : w] of a × b (05 Table 5.7). -/
def laneVmulh (e : VEntry) (lo hi : Nat) (s : State) : LaneOut :=
  s.intWord e lo hi fun b x y => (wrap b (x * y / (2 ^ b : Nat)), 0)
/-- vmacc: c + a × b, c the old vd (05 Table 5.7). -/
def laneVmacc (e : VEntry) (lo hi : Nat) (s : State) : LaneOut :=
  let v := s.view e
  s.eltWord e v (fun i => (wrap v.b (eltInt e.w.ety v.b (s.opD e v.b i)
    + eltInt e.w.ety v.b (s.opA e v.b i) * eltInt e.w.ety v.b (s.opB e v.b i)), 0)) lo hi
/-- vsadd: Sat(a + b) (05 Table 5.7). -/
def laneVsadd (e : VEntry) (lo hi : Nat) (s : State) : LaneOut :=
  s.intWord e lo hi fun b x y => satInt e.w.ety.isSignedInt b (x + y)
/-- vssub: Sat(a − b) (05 Table 5.7). -/
def laneVssub (e : VEntry) (lo hi : Nat) (s : State) : LaneOut :=
  s.intWord e lo hi fun b x y => satInt e.w.ety.isSignedInt b (x - y)
/-- vsmul: Sat(a × b) (05 Table 5.7). -/
def laneVsmul (e : VEntry) (lo hi : Nat) (s : State) : LaneOut :=
  s.intWord e lo hi fun b x y => satInt e.w.ety.isSignedInt b (x * y)
/-- vsll: a << k (05 Table 5.7). -/
def laneVsll (e : VEntry) (lo hi : Nat) (s : State) : LaneOut := s.bitWord e lo hi fun b x y => (x <<< (y % b)) % 2 ^ b
/-- vsrl: Zext(a) >> k (05 Table 5.7). -/
def laneVsrl (e : VEntry) (lo hi : Nat) (s : State) : LaneOut := s.bitWord e lo hi fun b x y => x >>> (y % b)
/-- vsra: Sext(a) >> k, copying the sign (05 Table 5.7). -/
def laneVsra (e : VEntry) (lo hi : Nat) (s : State) : LaneOut :=
  s.bitWord e lo hi fun b x y => wrap b (sext b x / (2 ^ (y % b) : Nat))
/-- vror: a rotated right by k (05 Table 5.7). -/
def laneVror (e : VEntry) (lo hi : Nat) (s : State) : LaneOut :=
  s.bitWord e lo hi fun b x y => (x >>> (y % b) ||| x <<< (b - y % b)) % 2 ^ b
/-- vand: a AND b (05 Table 5.7). -/
def laneVand (e : VEntry) (lo hi : Nat) (s : State) : LaneOut := s.bitWord e lo hi fun _ x y => x &&& y
/-- vor: a OR b (05 Table 5.7). -/
def laneVor (e : VEntry) (lo hi : Nat) (s : State) : LaneOut := s.bitWord e lo hi fun _ x y => x ||| y
/-- vxor: a XOR b (05 Table 5.7). -/
def laneVxor (e : VEntry) (lo hi : Nat) (s : State) : LaneOut := s.bitWord e lo hi fun _ x y => x ^^^ y
/-- vandn: a AND NOT b (05 Table 5.7). -/
def laneVandn (e : VEntry) (lo hi : Nat) (s : State) : LaneOut :=
  s.bitWord e lo hi fun b x y => x &&& (2 ^ b - 1 - y % 2 ^ b)
/-- vmin: the lesser of a and b (05 Table 5.7). -/
def laneVmin (e : VEntry) (lo hi : Nat) (s : State) : LaneOut := s.intWord e lo hi fun b x y => (wrap b (min x y), 0)
/-- vmax: the greater of a and b (05 Table 5.7). -/
def laneVmax (e : VEntry) (lo hi : Nat) (s : State) : LaneOut := s.intWord e lo hi fun b x y => (wrap b (max x y), 0)
/-- vabs: |a|; −2^(w − 1) gives itself (05 Table 5.7). -/
def laneVabs (e : VEntry) (lo hi : Nat) (s : State) : LaneOut := s.intWord e lo hi fun b x _ => (wrap b x.natAbs, 0)

/-- vcmp.eq (05 Table 5.8). -/
def laneVcmpEq (e : VEntry) (lo hi : Nat) (s : State) : LaneOut := s.cmpWord e lo hi fun x y => x = y
/-- vcmp.ne (05 Table 5.8). -/
def laneVcmpNe (e : VEntry) (lo hi : Nat) (s : State) : LaneOut := s.cmpWord e lo hi fun x y => x ≠ y
/-- vcmp.lt (05 Table 5.8). -/
def laneVcmpLt (e : VEntry) (lo hi : Nat) (s : State) : LaneOut := s.cmpWord e lo hi fun x y => x < y
/-- vcmp.le (05 Table 5.8). -/
def laneVcmpLe (e : VEntry) (lo hi : Nat) (s : State) : LaneOut := s.cmpWord e lo hi fun x y => x ≤ y
/-- vcmp.gt (05 Table 5.8). -/
def laneVcmpGt (e : VEntry) (lo hi : Nat) (s : State) : LaneOut := s.cmpWord e lo hi fun x y => y < x
/-- vcmp.ge (05 Table 5.8). -/
def laneVcmpGe (e : VEntry) (lo hi : Nat) (s : State) : LaneOut := s.cmpWord e lo hi fun x y => y ≤ x

/-- Steps of a mask word: 512 W elements each (05 Table 5.13). -/
def maskSteps (s : State) (e : VEntry) : Nat := ceilDiv e.vl (512 * s.width)

/-- A mask logic word: bits i < vl of md from bits i of ma and mb (05 R126). -/
def State.maskLogic (s : State) (e : VEntry) (lo hi : Nat) (F : Bool → Bool → Bool) : LaneOut :=
  let g := maskSteps s e
  let top := min hi g
  let a := vecGet s.th.ln.m e.w.va.toNat 0
  let b := vecGet s.th.ln.m e.w.vb.toNat 0
  let from_ := lo * (512 * s.width)
  let d := putElems 1 from_ (fun i => some (if F (maskBit a i) (maskBit b i) then 1 else 0))
    (min (top * (512 * s.width)) e.vl - from_) (vecGet s.th.ln.m e.w.vd.toNat 0)
  { st := s.setM e.w.vd.toNat d (if g ≤ top then vlmax s.width (s.ebits e) else min (top * (512 * s.width)) e.vl), reached := top, stop := none }

/-- mand (05 Table 5.9). -/
def laneMand (e : VEntry) (lo hi : Nat) (s : State) : LaneOut := s.maskLogic e lo hi fun a b => a && b
/-- mor (05 Table 5.9). -/
def laneMor (e : VEntry) (lo hi : Nat) (s : State) : LaneOut := s.maskLogic e lo hi fun a b => a || b
/-- mxor (05 Table 5.9). -/
def laneMxor (e : VEntry) (lo hi : Nat) (s : State) : LaneOut := s.maskLogic e lo hi fun a b => a != b
/-- mandn: a AND NOT b (05 Table 5.9). -/
def laneMandn (e : VEntry) (lo hi : Nat) (s : State) : LaneOut := s.maskLogic e lo hi fun a b => a && !b
/-- mnot: NOT a (05 Table 5.9). -/
def laneMnot (e : VEntry) (lo hi : Nat) (s : State) : LaneOut := s.maskLogic e lo hi fun a _ => !a

/-- The number of set bits below n. -/
def countBits (x : MReg) : Nat → Nat
  | 0 => 0
  | n + 1 => countBits x n + (if maskBit x n then 1 else 0)

/-- mpop: s[d] := the number of set bits i < vl of ma (05 Table 5.9). -/
def laneMpop (e : VEntry) (_ _ : Nat) (s : State) : LaneOut :=
  laneDone (s.wrWord e.seq e.w.vd (word (countBits (vecGet s.th.ln.m e.w.va.toNat 0) e.vl)))
/-- mfirst: s[d] := the lowest set bit i < vl of ma, or all ones (05 Table 5.9). -/
def laneMfirst (e : VEntry) (_ _ : Nat) (s : State) : LaneOut :=
  let a := vecGet s.th.ln.m e.w.va.toNat 0
  laneDone (s.wrWord e.seq e.w.vd (match firstIx (fun i => maskBit a i) 0 e.vl with | some i => word i | none => BitVec.allOnes 64))

/-- vsel: every i < vl from A where the selector bit is 1, else B (05 R128). -/
def laneVsel (e : VEntry) (lo hi : Nat) (s : State) : LaneOut :=
  let v := s.view e
  s.eltWord e { v with masked := false, mp := false } (fun i =>
    (if maskBit v.mask i then s.opA e v.b i else s.opB e v.b i, 0)) lo hi
/-- vbcast: active i := B (05 Table 5.10). -/
def laneVbcast (e : VEntry) (lo hi : Nat) (s : State) : LaneOut :=
  let v := s.view e
  s.eltWord e v (fun i => (s.opB e v.b i, 0)) lo hi
/-- vmv: active i := Elem(A, i) (05 Table 5.10). -/
def laneVmv (e : VEntry) (lo hi : Nat) (s : State) : LaneOut :=
  let v := s.view e
  s.eltWord e v (fun i => (s.opA e v.b i, 0)) lo hi
/-- vmvs.v: element 0 := B, the others unchanged, even when vl is 0 (05 R128). -/
def laneVmvsV (e : VEntry) (_ _ : Nat) (s : State) : LaneOut :=
  let b := s.ebits e
  laneDone (s.setV e.w.vd.toNat (setElem (vecGet s.th.ln.v e.w.vd.toNat 0) b 0 (s.opB e b 0)) 64 false)
/-- vmvs.x: s[d] := element 0 of A, sign-extended for I types, even when vl is 0 (05 R128). -/
def laneVmvsX (e : VEntry) (_ _ : Nat) (s : State) : LaneOut :=
  let b := s.ebits e
  let x := s.opA e b 0
  laneDone (s.wrWord e.seq e.w.vd (if e.w.ety.isSignedInt then BitVec.ofInt 64 (sext b x) else word x))

end Sys2Proof.Machine
end

