-- ==== Sys2Proof/Machine/VecPerm.lean ====
section
/-! DEFINITION. What the lanes do with the XP words, majors 0x30 to 0x35: reductions, scans, slides, pick, compress and
expand (spec/05_vector_instructions.md R130 to R134). An XP word keeps no partial work: it acts when all its groups may
issue (R121). -/

namespace Sys2Proof.Machine

/-- An XP word held below its last group does nothing (05 R121). -/
def xpHold (s : State) : LaneOut := { st := s, reached := 0, stop := none }

/-- The initial value of a reduction or scan: element 0 of v[vb], or B (05 R130). -/
def State.redInit (s : State) (e : VEntry) : Nat := s.opB e (s.ebits e) 0

/-- The ordered reduction over elements 0 to n − 1 (05 R130). -/
def State.redOrdered (s : State) (e : VEntry) (op : RedOp) (v : View) : Nat → Elt
  | 0 => (s.redInit e, 0)
  | n + 1 =>
    let a := s.redOrdered e op v n
    if v.act n then
      let r := s.redOp e op a.1 (s.opA e v.b n)
      (r.1, a.2 ||| r.2)
    else a

/-- The tree reduction over 2^k elements from lo; none is ABSENT (05 R130). -/
def State.redTree (s : State) (e : VEntry) (op : RedOp) (v : View) : Nat → Nat → Option Elt
  | 0, lo => if lo < v.vl ∧ v.act lo then some (s.opA e v.b lo, 0) else none
  | k + 1, lo =>
    if v.vl ≤ lo then none
    else
      match s.redTree e op v k lo, s.redTree e op v k (lo + 2 ^ k) with
      | none, y => y
      | some x, none => some x
      | some x, some y =>
        let r := s.redOp e op x.1 y.1
        some (r.1, x.2 ||| y.2 ||| r.2)

/-- Write element 0 of vd with a reduction's result; an enabled flag faults with index 0, and is detected at the word's last group
(05 R130). (DESIGN CHOICE, log 63.) -/
def State.redWrite (s : State) (e : VEntry) (v : View) (hi : Nat) (r : Elt) : LaneOut :=
  if hi < v.groups then xpHold s
  else if r.2 &&& v.traps ≠ 0 then
    { st := s, reached := 0, stop := some { cause := .arithmetic, index := 0, group := v.groups, flags := r.2 &&& v.traps } }
  else
    { st := (s.setV e.w.vd.toNat (setElem (vecGet s.th.ln.v e.w.vd.toNat 0) v.b 0 r.1) 64 false).orLaneFlags r.2,
      reached := v.groups, stop := none }

/-- An ordered reduction (05 R130). -/
def State.redo (s : State) (e : VEntry) (op : RedOp) (hi : Nat) : LaneOut :=
  let v := s.view e
  s.redWrite e v hi (s.redOrdered e op v v.vl)

/-- A tree reduction (05 R130). -/
def State.redt (s : State) (e : VEntry) (op : RedOp) (hi : Nat) : LaneOut :=
  let v := s.view e
  s.redWrite e v hi
    (match s.redTree e op v (Nat.log2 (vlmax v.wid v.b)) 0 with
     | none => (s.redInit e, 0)
     | some t => let r := s.redOp e op (s.redInit e) t.1; (r.1, t.2 ||| r.2))

/-- vredo.add (05 Table 5.12). -/
def laneVredoAdd (e : VEntry) (_ hi : Nat) (s : State) : LaneOut := s.redo e .add hi
/-- vredo.min (05 Table 5.12). -/
def laneVredoMin (e : VEntry) (_ hi : Nat) (s : State) : LaneOut := s.redo e .min hi
/-- vredo.max (05 Table 5.12). -/
def laneVredoMax (e : VEntry) (_ hi : Nat) (s : State) : LaneOut := s.redo e .max hi
/-- vredt.add (05 Table 5.12). -/
def laneVredtAdd (e : VEntry) (_ hi : Nat) (s : State) : LaneOut := s.redt e .add hi
/-- vredt.min (05 Table 5.12). -/
def laneVredtMin (e : VEntry) (_ hi : Nat) (s : State) : LaneOut := s.redt e .min hi
/-- vredt.max (05 Table 5.12). -/
def laneVredtMax (e : VEntry) (_ hi : Nat) (s : State) : LaneOut := s.redt e .max hi
/-- vredt.and (05 Table 5.12). -/
def laneVredtAnd (e : VEntry) (_ hi : Nat) (s : State) : LaneOut := s.redt e .and hi
/-- vredt.or (05 Table 5.12). -/
def laneVredtOr (e : VEntry) (_ hi : Nat) (s : State) : LaneOut := s.redt e .or hi
/-- vredt.xor (05 Table 5.12). -/
def laneVredtXor (e : VEntry) (_ hi : Nat) (s : State) : LaneOut := s.redt e .xor hi

/-- A scan's running value c and destination, its flags, and the element of an enabled flag (05 R131). -/
structure ScanAcc where
  c : Nat
  d : VReg
  fl : Flags
  stop : Option (Nat × Flags)

/-- The scan over elements 0 to n − 1 (05 R131). -/
def State.scanTo (s : State) (e : VEntry) (op : RedOp) (excl : Bool) (v : View) : Nat → ScanAcc
  | 0 => { c := s.redInit e, d := vecGet s.th.ln.v e.w.vd.toNat 0, fl := 0, stop := none }
  | n + 1 =>
    let a := s.scanTo e op excl v n
    if a.stop.isSome then a
    else if v.act n then
      let r := s.redOp e op a.c (s.opA e v.b n)
      if r.2 &&& v.traps ≠ 0 then { a with stop := some (n, r.2 &&& v.traps) }
      else { c := r.1, d := setElem a.d v.b n (if excl then a.c else r.1), fl := a.fl ||| r.2, stop := none }
    else if v.mp then { a with d := setElem a.d v.b n 0 }
    else a

/-- A scan word (05 R131). -/
def State.scan (s : State) (e : VEntry) (op : RedOp) (excl : Bool) (hi : Nat) : LaneOut :=
  let v := s.view e
  if hi < v.groups then xpHold s
  else
    let a := s.scanTo e op excl v v.vl
    match a.stop with
    | some (i, fl) =>
      { st := s, reached := 0, stop := some { cause := .arithmetic, index := word i, group := i / v.per, flags := fl } }
    | none => { st := (s.setV e.w.vd.toNat a.d 64 (v.whole v.groups)).orLaneFlags a.fl, reached := v.groups, stop := none }

/-- vscan.in.add (05 R131). -/
def laneVscanInAdd (e : VEntry) (_ hi : Nat) (s : State) : LaneOut := s.scan e .add false hi
/-- vscan.in.min (05 R131). -/
def laneVscanInMin (e : VEntry) (_ hi : Nat) (s : State) : LaneOut := s.scan e .min false hi
/-- vscan.in.max (05 R131). -/
def laneVscanInMax (e : VEntry) (_ hi : Nat) (s : State) : LaneOut := s.scan e .max false hi
/-- vscan.ex.add (05 R131). -/
def laneVscanExAdd (e : VEntry) (_ hi : Nat) (s : State) : LaneOut := s.scan e .add true hi
/-- vscan.ex.min (05 R131). -/
def laneVscanExMin (e : VEntry) (_ hi : Nat) (s : State) : LaneOut := s.scan e .min true hi
/-- vscan.ex.max (05 R131). -/
def laneVscanExMax (e : VEntry) (_ hi : Nat) (s : State) : LaneOut := s.scan e .max true hi

/-- A permute whose active element i < vl receives F i, none leaving it as it stands (05 R115, R132, R133). -/
def State.permWord (s : State) (e : VEntry) (hi : Nat) (F : View → Nat → Option Nat) : LaneOut :=
  let v := s.view e
  if hi < v.groups then xpHold s
  else
    let d := putElems v.b 0 (fun i => if v.act i then F v i else if v.mp then some 0 else none) v.vl
      (vecGet s.th.ln.v e.w.vd.toNat 0)
    { st := s.setV e.w.vd.toNat d 64 (v.whole v.groups && (F v 0).isSome), reached := v.groups, stop := none }

/-- The offset or index of a slide or pick: Zext(s[vc]) or imm12 (05 R132, R133). -/
def slideBy (e : VEntry) : Nat := match e.w.form with | .vi => e.w.fn.toNat | _ => e.sc.toNat

/-- Element i of A, or 0 from VLMAX on (05 R132, R133). -/
def State.pickA (s : State) (e : VEntry) (v : View) (i : Nat) : Nat := if i < vlmax v.wid v.b then s.opA e v.b i else 0

/-- vslip.up (05 R132). -/
def laneVslipUp (e : VEntry) (_ hi : Nat) (s : State) : LaneOut :=
  s.permWord e hi fun v i => if slideBy e ≤ i then some (s.opA e v.b (i - slideBy e)) else none
/-- vslip.dn (05 R132). -/
def laneVslipDn (e : VEntry) (_ hi : Nat) (s : State) : LaneOut :=
  s.permWord e hi fun v i => some (s.pickA e v (i + slideBy e))
/-- vslip.upin (05 R132). -/
def laneVslipUpin (e : VEntry) (_ hi : Nat) (s : State) : LaneOut :=
  s.permWord e hi fun v i => some (if i = 0 then s.opB e v.b 0 else s.opA e v.b (i - 1))
/-- vslip.dnin (05 R132). -/
def laneVslipDnin (e : VEntry) (_ hi : Nat) (s : State) : LaneOut :=
  s.permWord e hi fun v i => some (if i + 1 = v.vl then s.opB e v.b 0 else s.opA e v.b (i + 1))
/-- vpick: the index is the encoding of element i of B, its whole container for etype 14, s[vc] or imm12 (05 R133).
(DESIGN CHOICE, log 64.) -/
def laneVpick (e : VEntry) (_ hi : Nat) (s : State) : LaneOut :=
  s.permWord e hi fun v i =>
    some (s.pickA e v (match e.w.form with
      | .vv => elemAt (vecGet s.th.ln.v e.w.vb.toNat 0) v.b i
      | _ => slideBy e))

/-- vcompress over elements 0 to n − 1: the next place and the destination (05 R134). -/
def State.compressTo (s : State) (e : VEntry) (v : View) : Nat → Nat × VReg
  | 0 => (0, vecGet s.th.ln.v e.w.vd.toNat 0)
  | n + 1 =>
    let a := s.compressTo e v n
    if v.act n then (a.1 + 1, setElem a.2 v.b a.1 (s.opA e v.b n)) else a

/-- vexpand over elements 0 to n − 1: the next source element and the destination (05 R134). -/
def State.expandTo (s : State) (e : VEntry) (v : View) : Nat → Nat × VReg
  | 0 => (0, vecGet s.th.ln.v e.w.vd.toNat 0)
  | n + 1 =>
    let a := s.expandTo e v n
    if v.act n then (a.1 + 1, setElem a.2 v.b n (s.opA e v.b a.1))
    else if v.mp then (a.1, setElem a.2 v.b n 0) else a

/-- vcompress (05 R134). -/
def laneVcompress (e : VEntry) (_ hi : Nat) (s : State) : LaneOut :=
  let v := s.view e
  if hi < v.groups then xpHold s
  else { st := s.setV e.w.vd.toNat (s.compressTo e v v.vl).2 64 (!v.masked && v.whole v.groups), reached := v.groups, stop := none }
/-- vexpand (05 R134). -/
def laneVexpand (e : VEntry) (_ hi : Nat) (s : State) : LaneOut :=
  let v := s.view e
  if hi < v.groups then xpHold s
  else { st := s.setV e.w.vd.toNat (s.expandTo e v v.vl).2 64 (v.whole v.groups), reached := v.groups, stop := none }

end Sys2Proof.Machine
end

