-- ==== Sys2Proof/Machine/LaneWord.lean ====
section
/-! DEFINITION. What every VIQ word goes through at the lanes: the meaning of its major and function, its groups, the issue
checks of R44, marked register bytes, and stream operands (spec/02 R42, R44; 05 R111, R117; 11 R339 to R346; 14 R421). -/

namespace Sys2Proof.Machine

/-- What the lanes do with a VIQ word, by its major and function (02 Table 2.7). -/
def laneOf (e : VEntry) (lo hi : Nat) (s : State) : LaneOut :=
  match e.op with
  | 0x00 => if e.w.key == 0 then laneVadd e lo hi s else if e.w.key == 1 then laneVsub e lo hi s
    else laneVrsub e lo hi s
  | 0x01 => if e.w.key == 0 then laneVmul e lo hi s else if e.w.key == 1 then laneVmulh e lo hi s
    else laneVmacc e lo hi s
  | 0x02 => if e.w.key == 0 then laneVsadd e lo hi s else if e.w.key == 1 then laneVssub e lo hi s
    else laneVsmul e lo hi s
  | 0x03 => if e.w.key == 0 then laneVsll e lo hi s else if e.w.key == 1 then laneVsrl e lo hi s
    else if e.w.key == 2 then laneVsra e lo hi s else laneVror e lo hi s
  | 0x04 => if e.w.key == 0 then laneVand e lo hi s else if e.w.key == 1 then laneVor e lo hi s
    else if e.w.key == 2 then laneVxor e lo hi s else laneVandn e lo hi s
  | 0x05 => if e.w.key == 0 then laneVmin e lo hi s else if e.w.key == 1 then laneVmax e lo hi s
    else laneVabs e lo hi s
  | 0x06 => if e.w.key == 0 then laneVcmpEq e lo hi s else if e.w.key == 1 then laneVcmpNe e lo hi s
    else if e.w.key == 2 then laneVcmpLt e lo hi s else if e.w.key == 3 then laneVcmpLe e lo hi s
    else if e.w.key == 4 then laneVcmpGt e lo hi s else laneVcmpGe e lo hi s
  | 0x07 => if e.w.key == 0 then laneMand e lo hi s else if e.w.key == 1 then laneMor e lo hi s
    else if e.w.key == 2 then laneMxor e lo hi s else if e.w.key == 3 then laneMandn e lo hi s
    else if e.w.key == 4 then laneMnot e lo hi s else if e.w.key == 16 then laneMpop e lo hi s
    else laneMfirst e lo hi s
  | 0x08 => laneVsel e lo hi s
  | 0x09 => if e.w.key == 0 then laneVbcast e lo hi s else if e.w.key == 1 then laneVmv e lo hi s
    else if e.w.key == 2 then laneVmvsV e lo hi s else laneVmvsX e lo hi s
  | 0x20 => if e.w.key == 0 then laneVfadd e lo hi s else if e.w.key == 1 then laneVfsub e lo hi s
    else laneVfmul e lo hi s
  | 0x21 => if e.w.key == 0 then laneVfmadd e lo hi s else if e.w.key == 1 then laneVfmsub e lo hi s
    else if e.w.key == 2 then laneVfnmadd e lo hi s else if e.w.key == 3 then laneVfnmsub e lo hi s
    else laneVfmacc e lo hi s
  | 0x22 => if e.w.key == 0 then laneVfmin e lo hi s else if e.w.key == 1 then laneVfmax e lo hi s
    else if e.w.key == 2 then laneVfabs e lo hi s else if e.w.key == 3 then laneVfneg e lo hi s
    else if e.w.key == 4 then laneVfsignC e lo hi s else if e.w.key == 5 then laneVfsignN e lo hi s
    else laneVfsignX e lo hi s
  | 0x23 => if e.w.key == 0 then laneVfcmpEq e lo hi s else if e.w.key == 1 then laneVfcmpNe e lo hi s
    else if e.w.key == 2 then laneVfcmpLt e lo hi s else if e.w.key == 3 then laneVfcmpLe e lo hi s
    else if e.w.key == 4 then laneVfcmpGt e lo hi s else if e.w.key == 5 then laneVfcmpGe e lo hi s
    else laneVfcmpUn e lo hi s
  | 0x30 => if e.w.key == 0 then laneVredoAdd e lo hi s else if e.w.key == 1 then laneVredoMin e lo hi s
    else laneVredoMax e lo hi s
  | 0x31 => if e.w.key == 0 then laneVredtAdd e lo hi s else if e.w.key == 1 then laneVredtMin e lo hi s
    else if e.w.key == 2 then laneVredtMax e lo hi s else if e.w.key == 3 then laneVredtAnd e lo hi s
    else if e.w.key == 4 then laneVredtOr e lo hi s else laneVredtXor e lo hi s
  | 0x32 => if e.w.key == 0 then laneVscanInAdd e lo hi s else if e.w.key == 1 then laneVscanInMin e lo hi s
    else if e.w.key == 2 then laneVscanInMax e lo hi s else if e.w.key == 8 then laneVscanExAdd e lo hi s
    else if e.w.key == 9 then laneVscanExMin e lo hi s else laneVscanExMax e lo hi s
  | 0x33 => if e.w.key == 0 then laneVslipUp e lo hi s else if e.w.key == 1 then laneVslipDn e lo hi s
    else if e.w.key == 2 then laneVslipUpin e lo hi s else laneVslipDnin e lo hi s
  | 0x34 => laneVpick e lo hi s
  | 0x35 => if e.w.key == 0 then laneVcompress e lo hi s else laneVexpand e lo hi s
  | 0x38 => laneVcvt e lo hi s
  | 0x39 => laneVcvtEf e lo hi s
  | 0x3A => if e.w.fnBits 5 1 == 0 then laneVpack e lo hi s else laneVunpack e lo hi s
  | 0x3B => if e.w.fnBits 0 1 == 0 then laneVscaleMul e lo hi s else laneVscaleDiv e lo hi s
  | 0x3C => laneVfclass e lo hi s
  | 0x3D => if e.w.key == 0 then laneVdiv e lo hi s else if e.w.key == 1 then laneVrdiv e lo hi s
    else if e.w.key == 2 then laneVsqrt e lo hi s else laneVrsq e lo hi s
  | 0x40 => if e.w.grp == 0 && e.w.ch == 0 then laneVld e lo hi s
    else if e.w.grp == 0 && e.w.ch == 1 then laneVldC e lo hi s else laneVldQ e lo hi s
  | 0x41 => laneVlds e lo hi s
  | 0x42 => laneVldx e lo hi s
  | 0x43 => laneVldg e lo hi s
  | 0x44 => if e.w.grp == 0 && e.w.ch == 0 then laneVst e lo hi s
    else if e.w.grp == 0 && e.w.ch == 1 then laneVstC e lo hi s else laneVstQ e lo hi s
  | 0x45 => laneVsts e lo hi s
  | 0x46 => laneVstx e lo hi s
  | 0x47 => laneVstxo e lo hi s
  | 0x48 => laneVstg e lo hi s
  | 0x49 => laneVpref e lo hi s
  | 0x4A => laneScommit e lo hi s
  | 0x4B => laneCutstep e lo hi s
  | 0x50 => laneMzero e lo hi s
  | 0x51 => laneMouter e lo hi s
  | 0x52 => laneMouteri e lo hi s
  | 0x53 => laneMouterc e lo hi s
  | 0x54 => laneMlacc e lo hi s
  | 0x55 => laneMdrain e lo hi s
  | 0x56 => laneMtov e lo hi s
  | 0x57 => laneMscale e lo hi s
  | 0x58 => if e.w.fnBits 10 2 == 0 then laneBclr e lo hi s else if e.w.fnBits 10 2 == 1 then laneBtload e lo hi s
    else laneBtdrain e lo hi s
  | 0x59 => if e.w.key == 0 then laneBqr e lo hi s else if e.w.key == 1 then laneBqra e lo hi s
    else laneBqrD e lo hi s
  | 0x5A => if e.w.key == 0 then laneBapply e lo hi s else laneBapplyC0 e lo hi s
  | 0x5B => if e.w.key == 0 then laneBvec e lo hi s else if e.w.key == 1 then laneBangleD e lo hi s
    else laneBangleA e lo hi s
  | 0x5C => if e.w.fnBits 6 1 == 0 then laneBrot e lo hi s else laneVrotate e lo hi s
  | 0x5D => laneBgain e lo hi s
  | 0x5E => laneBsolve e lo hi s
  | 0x62 => if e.w.fnBits 11 1 == 0 then laneVamo e lo hi s else laneVamoo e lo hi s
  | 0x63 => if e.w.fnFN == 0 then laneAccw e lo hi s else if e.w.fnFN == 1 then laneVacc e lo hi s
    else if e.w.fnFN == 2 then laneAmerge e lo hi s else laneAccrel e lo hi s
  | 0x69 => if e.w.fnFN == 0 then laneCp e lo hi s else if e.w.fnFN == 1 then laneCp2 e lo hi s
    else if e.w.fnFN == 2 then laneCpx e lo hi s else if e.w.fnFN == 3 then laneCpq e lo hi s else laneCpw e lo hi s
  | 0x70 => if e.w.key == 0 then laneWdecl e lo hi s else laneWdeclRel e lo hi s
  | 0x71 => laneVldr e lo hi s
  | 0x72 => laneVstr e lo hi s
  | 0x73 => if e.w.key == 0 then laneStep e lo hi s else if e.w.key == 32 then laneStepAt e lo hi s
    else laneStepq e lo hi s
  | 0x74 => if e.w.key == 0 then laneFsbindRx e lo hi s else if e.w.key == 1 then laneFsbindTx e lo hi s
    else laneFsbindU e lo hi s
  | 0x75 => laneVcred e lo hi s
  | 0x78 => if e.w.key < 5 then laneSetvl e lo hi s else laneSetvt e lo hi s
  | 0x79 => laneSetfmt e lo hi s
  | 0x7A => if e.w.key == 0 then laneMshape e lo hi s else laneTshape e lo hi s
  | 0x7B => laneMmode e lo hi s
  | _ => issueFail s lo

/-! ### Groups -/

/-- Element groups of a word in its own type (05 R111). -/
def State.plainGroups (s : State) (e : VEntry) : Nat := ceilDiv (e.vl * s.ebits e) (512 * s.width)

/-- Steps of a dense or compressed outer-product word (08 R223). -/
def State.outerGroups (s : State) (compressed : Bool) : Nat :=
  let tr := s.th.tr
  if tr.tm = 0 || tr.tn = 0 || tr.tk = 0 then 0
  else if compressed then tr.tk * mcN tr.mcfg / 48 / mcG tr.mcfg
  else ceilDiv tr.tk (mcG tr.mcfg)

/-- Rows of the tile that a row word reads; one where it has none, so that its issue check is made. -/
def State.rowGroups (s : State) (e : VEntry) : Nat := ((s.tile (e.w.va.toNat / 4)).map (·.rows)).getD 1

/-- The groups, steps or rows after which a word is complete (05 R111, R121; 08 R223, R230; 09 R253; 10 R279). -/
def State.laneGroups (s : State) (e : VEntry) : Nat :=
  match e.op with
  | 0x07 => if e.w.key < 5 then maskSteps s e else 1
  | 0x09 => if e.w.key < 2 then s.plainGroups e else 1
  | 0x38 | 0x39 =>
    match EType.ofCode (e.w.fnBits 0 4) with
    | none => 1
    | some t => ceilDiv (e.vl * s.th.ln.bits (vtFsel e.vtype) t) (512 * s.width)
  | 0x3A => if e.w.fnBits 5 1 = 0 then ceilDiv (e.vl * e.w.fnBits 0 4) (512 * s.width) else s.plainGroups e
  | 0x40 | 0x44 => if e.w.grp = 1 then (s.tileMem e).groups else s.plainGroups e
  | 0x4A | 0x4B | 0x50 | 0x54 | 0x57 | 0x5D | 0x5E | 0x69 | 0x70 | 0x73 | 0x74 | 0x78 | 0x79 | 0x7A | 0x7B => 1
  | 0x51 | 0x52 => s.outerGroups false
  | 0x53 => s.outerGroups true
  | 0x55 => if e.vl = 0 then 0 else s.th.tr.tm
  | 0x56 => 128
  | 0x58 => if e.w.fnBits 10 2 = 0 then 1 else 32
  | 0x59 | 0x5A => s.rowGroups e
  | 0x63 => match e.w.fnFN with | 1 => s.plainGroups e | 2 => s.th.ln.win.count | _ => 1
  | _ => s.plainGroups e

/-! ### Registers a word names -/

/-- The four registers of the group a field names. -/
def groupRegs (r : RegNo) : List Nat := let q := r.toNat / 4 * 4; [q, q + 1, q + 2, q + 3]

/-- The vector registers a word reads, other than a destination it also reads (02 R40; 05 to 11). -/
def readsOf (e : VEntry) : List Nat :=
  let a := e.w.va.toNat
  let b := e.w.vb.toNat
  let c := e.w.vc.toNat
  let d := e.w.vd.toNat
  let two := match e.w.form with | .vv => [a, b] | _ => [a]
  match e.op with
  | 0x05 => if e.w.key = 2 then [a] else two
  | 0x07 => []
  | 0x09 => match e.w.key with | 0 => [] | 1 => [a] | 2 => [] | _ => [a]
  | 0x21 => if e.w.key = 4 then two else match e.w.form with | .vv => [a, b, c] | _ => [a, b]
  | 0x22 => if e.w.key = 2 || e.w.key = 3 then [a] else two
  | 0x33 | 0x35 | 0x38 | 0x39 | 0x3A | 0x3C => [a]
  | 0x3D => if e.w.key < 2 then two else [a]
  | 0x40 | 0x41 | 0x49 | 0x4A | 0x4B | 0x50 | 0x55 | 0x56 | 0x58 | 0x5D | 0x5E => []
  | 0x42 | 0x43 => [a]
  | 0x44 => if e.w.grp = 1 then groupRegs e.w.vd else [d]
  | 0x45 => [d]
  | 0x46 | 0x47 | 0x48 => [a, d]
  | 0x51 | 0x52 | 0x53 => groupRegs e.w.va ++ groupRegs e.w.vb ++ groupRegs e.w.vc
  | 0x54 => groupRegs e.w.va
  | 0x57 => [a, b]
  | 0x59 => groupRegs e.w.va ++ (if e.w.key = 1 then [b] else [])
  | 0x5A => groupRegs e.w.va ++ [b]
  | 0x5B => if e.w.key = 0 then [a, b] else [a]
  | 0x5C => if e.w.fnBits 6 1 = 1 then [a, b, c] else [a, b]
  | 0x62 => [a, b]
  | 0x63 => if e.w.fnFN = 1 then [a, b] else []
  | 0x69 | 0x70 | 0x73 | 0x74 | 0x78 | 0x79 | 0x7A | 0x7B => []
  | 0x71 => if idxOf e then [a] else []
  | 0x72 => if idxOf e then [a, d] else [d]
  | 0x75 => [a, b]
  | _ => two

/-- The vector registers a word writes. -/
def writesOf (e : VEntry) : List Nat :=
  let d := e.w.vd.toNat
  match e.op with
  | 0x06 | 0x07 | 0x23 | 0x3C | 0x44 | 0x45 | 0x46 | 0x47 | 0x48 | 0x49 | 0x4A | 0x4B | 0x50 | 0x51 | 0x52 | 0x53 | 0x54
  | 0x55 | 0x57 | 0x58 | 0x5D | 0x63 | 0x69 | 0x70 | 0x72 | 0x73 | 0x74 | 0x78 | 0x79 | 0x7B => []
  | 0x09 => if e.w.key = 3 then [] else [d]
  | 0x40 => if e.w.grp = 1 then groupRegs e.w.vd else [d]
  | 0x56 => groupRegs e.w.vd
  | 0x59 => match e.w.key with | 0 => [] | 1 => [d] | _ => groupRegs e.w.vd
  | 0x5C => if e.w.fnBits 6 1 = 1 then [d, d + 1] else [d]
  | 0x62 => if e.w.fnBits 9 1 = 1 then [] else [d]
  | 0x7A => []
  | _ => [d]

/-- The registers a word names only through the group whose shape it sets. -/
def shapesOf (e : VEntry) : List Nat := if e.op = 0x7A ∧ e.w.fnBits 4 1 = 0 then groupRegs e.w.vd else []

/-- A word whose destination is also a source: vmacc, vfmacc (05 Tables 5.7, 5.11). -/
def accumulates (e : VEntry) : Bool := (e.op = 0x01 && e.w.key = 2) || (e.op = 0x21 && e.w.key = 4)

/-! ### What a member needs of the members before it -/

/-- The mask register that a word writes. -/
def maskWrittenBy (e : VEntry) : Option Nat :=
  match e.op with
  | 0x06 | 0x23 | 0x3C => some e.w.vd.toNat
  | 0x07 => if e.w.key < 5 then some e.w.vd.toNat else none
  | _ => none

/-- The mask registers that a word reads. -/
def masksReadBy (e : VEntry) : List Nat :=
  if e.op = 0x07 then [e.w.va.toNat, e.w.vb.toNat] else if e.w.mask = 0 then [] else [e.w.mask.toNat]

/-- The group of registers that a word writes whole, in a fresh slot (01 R18; 07 R200; 08 R230; 09 R253). -/
def VEntry.groupOf (e : VEntry) : Option Nat :=
  match e.op with
  | 0x40 => if e.w.grp = 1 then some (e.w.vd.toNat / 4) else none
  | 0x56 => some (e.w.vd.toNat / 4)
  | 0x59 => if e.w.key = 2 then some (e.w.vd.toNat / 4) else none
  | _ => none

/-- Whether a word writes no register and no mask and forwards no group: matrix words that write an accumulator, and Brace words
that write only a triangle or bcfg (05 R119; 08 R232; 09 R259). -/
def VEntry.accOnly (e : VEntry) : Bool :=
  [0x50, 0x51, 0x52, 0x53, 0x54, 0x57, 0x58, 0x5D].contains e.op || (e.op = 0x59 && e.w.key = 0)

/-- A group number that no word reaches: the whole of an older member is needed. -/
def wholeWord : Nat := 2 ^ 20

/-- Elements of a tile's first n rows, in bits; none where the group is not shaped. -/
def State.tileBits (s : State) (q n : Nat) : Nat := ((s.tile q).map fun t => n * t.cols * t.b).getD 0

/-- Element groups of a group of registers that hold what a word which writes it whole computes; the others are zero
(07 R200; 08 R230; 09 R253). -/
def State.filledGroups (s : State) (o : VEntry) : Nat :=
  let line := 512 * s.width
  match o.op with
  | 0x56 => ceilDiv (16384 * s.ebits o) line
  | 0x59 => ceilDiv (1024 * s.rowGroups o) line
  | _ => s.laneGroups o

/-- How far a word that writes a whole group must be for element group g of that group: 0 its first issue, after which the groups of
vld.q that hold no tile byte are complete, n + 1 its group n; the groups of mtov and bqr.d that they only zero come with the last
(07 R200; 08 R230; 09 R253). -/
def State.slotNeed (s : State) (o : VEntry) (g : Nat) : Nat :=
  if g < s.filledGroups o then g + 1 else if o.op = 0x40 then 0 else s.filledGroups o

/-- The last group of member o that a read of the first `bits` bits of register r needs (05 R119). -/
def State.regNeed (s : State) (o : VEntry) (r bits : Nat) : Option Nat :=
  if !(writesOf o).contains r || bits = 0 then none
  else
    let g := (bits - 1) / (512 * s.width)
    match o.groupOf with
    | some q => some (s.slotNeed o (64 * (r - 4 * q) + g))
    | none => if s.laneGroups o = 0 then none else some (min g (s.laneGroups o - 1))

/-- The last group of member o that a read of the first `bits` bits of group q needs (05 R119; 08 R232). -/
def State.groupNeed (s : State) (o : VEntry) (q bits : Nat) : Option Nat :=
  if o.groupOf = some q then some (s.slotNeed o ((bits - 1) / (512 * s.width)))
  else if (writesOf o).any fun r => r / 4 = q then some wholeWord else none

/-- The later of two needs. -/
def laterNeed : Option Nat → Option Nat → Option Nat
  | some a, some b => some (max a b)
  | some a, none => some a
  | none, b => b

/-- Element group u of an older member, where it issues that group (05 R119). -/
def State.issuedNeed (s : State) (o : VEntry) (u : Nat) : Option Nat :=
  if o.groupOf.isSome then (if u < s.filledGroups o then some (u + 1) else none)
  else if u < s.laneGroups o then some u else none

/-- Elements of its own type that a word has read once unit u has: of a conversion, those of its destination group
(05 R119; 06 R153, R157, R158). -/
def State.elemsTo (s : State) (e : VEntry) (u : Nat) : Nat :=
  let line := 512 * s.width
  match e.op with
  | 0x38 | 0x39 => min ((u + 1) * (line / ((EType.ofCode (e.w.fnBits 0 4)).map (s.th.ln.bits (vtFsel e.vtype))).getD 8)) e.vl
  | 0x3A => if e.w.fnBits 5 1 = 0 then min (ceilDiv ((u + 1) * line) (e.w.fnBits 0 4)) e.vl else min ((u + 1) * (line / s.ebits e)) e.vl
  | _ => min ((u + 1) * (line / s.ebits e)) e.vl

/-- Registers that unit u of an element word reads, with the bits of each that it and the units before it read
(05 R119; 06 R158, R159; 07 R198; 11 R326). -/
def State.readBits (s : State) (e : VEntry) (u : Nat) : List (Nat × Nat) :=
  let n := s.elemsTo e u
  let a := e.w.va.toNat
  let d := e.w.vd.toNat
  match e.op with
  | 0x3A => [(a, n * (if e.w.fnBits 5 1 = 0 then s.ebits e else e.w.fnBits 0 4))]
  | 0x3B =>
    (a, n * s.ebits e) :: (if e.w.form = .vv then
      [(e.w.vb.toNat, ((n - 1) / scaleBlock (e.w.fnBits 1 2) + 1) * (if e.w.fnBits 3 1 = 1 then 8 else 16))] else [])
  | 0x42 | 0x43 => [(a, n * ixBits e)]
  | 0x46 | 0x47 | 0x48 => [(a, n * ixBits e), (d, n * s.ebits e)]
  | 0x71 => if idxOf e then [(a, n * 32)] else []
  | 0x72 => (d, n * s.ebits e) :: (if idxOf e then [(a, n * 32)] else [])
  | 0x62 => [(a, n * 32), (e.w.vb.toNat, n * s.ebits e)]
  | 0x63 => if e.w.fnFN = 1 then [(a, n * 32), (e.w.vb.toNat, n * s.ebits e)] else []
  | _ => (readsOf e ++ (if accumulates e then writesOf e else [])).map fun r => (r, n * s.ebits e)

/-- What an element word needs of an older member for its unit u: a group that the member issues, and what it reads of what the
member writes (05 R119). -/
def State.elementNeed (s : State) (e o : VEntry) (u : Nat) (issued : Option Nat) : Option Nat :=
  (s.readBits e u).foldl (fun m x => laterNeed m (s.regNeed o x.1 x.2)) issued

/-- The last element group of an older member o that unit u of a member e needs: group u itself where o issues it, and what e reads of
what o writes (05 R119; 06 R153, R157; 08 R225, R228, R229, R232; 09 R259, R260). None where nothing ties them. -/
def State.needs (s : State) (e o : VEntry) (u : Nat) : Option Nat :=
  let line := 512 * s.width
  let a := e.w.va.toNat
  let b := e.w.vb.toNat
  let c := e.w.vc.toNat
  let maskElems :=
    if e.op = 0x07 then (if e.w.key < 5 then min ((u + 1) * line) e.vl else e.vl)
    else if e.op = 0x55 then e.vl else s.elemsTo e u
  let perO := if o.op = 0x07 then line else line / s.ebits o
  let mask := match maskWrittenBy o with
    | some m => if (masksReadBy e).contains m && maskElems ≠ 0 then some ((maskElems - 1) / perO) else none
    | none => none
  let reads := (readsOf e ++ (if accumulates e then writesOf e else [])).any fun r => (writesOf o).contains r
  let data :=
    match e.op with
    | 0x51 | 0x52 =>
      let tr := s.th.tr
      let k := min ((u + 1) * mcG tr.mcfg) tr.tk
      laterNeed (s.groupNeed o (a / 4) (s.tileBits (a / 4) k))
        (laterNeed (s.groupNeed o (b / 4) (s.tileBits (b / 4) k))
          (if mcScl tr.mcfg = 0 then none else s.groupNeed o (c / 4) (s.tileBits (c / 4) (tr.tk / 32 + (k - 1) / 32 + 1))))
    | 0x53 =>
      let tr := s.th.tr
      let q := (u + 1) * mcG tr.mcfg
      laterNeed (s.groupNeed o (a / 4) (s.tileBits (a / 4) (min (48 * ((q - 1) / mcN tr.mcfg + 1)) tr.tk)))
        (laterNeed (s.groupNeed o (b / 4) (s.tileBits (b / 4) q)) (s.groupNeed o (c / 4) (s.tileBits (c / 4) q)))
    | 0x54 => if reads then some wholeWord else none
    | 0x57 => laterNeed (s.regNeed o a 4096) (s.regNeed o b 4096)
    | 0x59 | 0x5A =>
      laterNeed (s.groupNeed o (a / 4) ((s.ownSource e).tileBits (a / 4) (u + 1)))
        (if (readsOf e).contains b then s.regNeed o b (32 * (u + 1)) else none)
    | 0x50 | 0x55 | 0x56 | 0x58 | 0x5D | 0x5E => none
    | 0x30 | 0x31 | 0x32 | 0x33 | 0x34 | 0x35 => if reads then some wholeWord else s.issuedNeed o u
    | 0x38 | 0x39 | 0x3A =>
      let bits := if e.op = 0x3A ∧ e.w.fnBits 5 1 = 1 then e.w.fnBits 0 4 else s.ebits e
      s.elementNeed e o u (s.issuedNeed o ((s.elemsTo e u * bits - 1) / line))
    | 0x44 =>
      if e.w.grp = 0 then s.elementNeed e o u (s.issuedNeed o u)
      else
        let q := e.w.vd.toNat / 4
        if o.groupOf = some q then some (s.slotNeed o u)
        else
          match (writesOf o).find? fun r => r / 4 = q with
          | some r =>
            if u < 64 * (r % 4) then s.issuedNeed o u else if u < 64 * (r % 4) + 64 then some (u - 64 * (r % 4)) else some wholeWord
          | none => s.issuedNeed o u
    | _ => s.elementNeed e o u (s.issuedNeed o u)
  if o.accOnly then none else laterNeed data mask

/-- Groups of what a member writes that are valid once it has done its first n units; of a word that writes a whole group, one more
from its first issue on (05 R120; 07 R200; 08 R233; 09 R257, R259). -/
def State.coverOf (s : State) (o : VEntry) (n : Nat) : Nat :=
  let line := 512 * s.width
  if o.groupOf.isSome then
    if !o.issued then 0
    else
      match o.op with
      | 0x56 => n * 128 * s.ebits o / line + 1
      | 0x59 => if s.laneGroups o ≤ n then s.filledGroups o + 1 else n * 1024 / line + 1
      | _ => n + 1
  else
    match o.op with
    | 0x59 | 0x5A => n * 32 / line
    | 0x30 | 0x31 | 0x32 | 0x33 | 0x34 | 0x35 => 0
    | 0x5C => if o.w.fnBits 6 1 = 0 then 0 else n
    | _ => n

/-! ### Memory order within a convoy -/

/-- Whether a word's elements access memory (07; 08 R231; 09 R252; 10 R273, R279; 11 R326, R327). -/
def VEntry.isMem (e : VEntry) : Bool :=
  e.slot = .word && ((0x40 ≤ e.op && e.op ≤ 0x48) || e.op = 0x55 || (e.op = 0x58 && e.w.fnBits 10 2 ≠ 0) || e.op = 0x62
    || (e.op = 0x63 && e.w.fnFN = 2) || e.op = 0x71 || e.op = 0x72)

/-- An acquire that has not completed lets no younger access of kind RC or SO be performed (07 R182). -/
def VEntry.acquiring (e : VEntry) : Bool :=
  e.slot = .word && !e.complete && e.w.ord % 2 = 1 &&
    ((0x40 ≤ e.op && e.op ≤ 0x49) || e.op = 0x62 || (e.op = 0x58 && e.w.fnBits 10 2 = 1))

/-- Where a memory word's elements lie, for the words whose addresses an older member of their convoy can meet
(07 R198, R200; 08 R231; 09 R252). -/
def State.memShape (s : State) (e : VEntry) : Option MemShape :=
  let v := s.view e
  match e.op with
  | 0x40 | 0x44 => some (if e.w.grp = 1 then s.tileMem e else v.mem e .plain (unitAddr e v.b))
  | 0x41 | 0x45 => some (v.mem e .plain (stridedAddr e v.b))
  | 0x42 | 0x43 | 0x46 | 0x47 | 0x48 => some (v.mem e .plain (s.indexedAddr e v.b))
  | 0x55 => some (s.drainMem e)
  | 0x58 => some (triMem e)
  | _ => none

/-- The physical address and the kind of each active element of a memory word, and its size; none of one whose page is not mapped. -/
def State.memPlaces (s : State) (e : VEntry) : List (Nat × Nat × Nat) :=
  match s.memShape e with
  | none => []
  | some m => (List.range m.total).filterMap fun i => if m.act i then (s.pageSeen 0 (m.addr i)).map fun p => (p.1, p.2, m.size) else none

/-- Whether two memory words of a thread meet: in an SO page, or, where one of them stores, in a byte (07 R179, R183, R185). -/
def State.memMeets (s : State) (e o : VEntry) : Bool :=
  let stores := fun (x : VEntry) => (0x44 ≤ x.op && x.op ≤ 0x48) || x.op = 0x55 || (x.op = 0x58 && x.w.fnBits 10 2 = 2)
  let po := s.memPlaces o
  (s.memPlaces e).any fun p => po.any fun q =>
    (p.2.1 = 1 && q.2.1 = 1)
      || ((stores e || stores o) && p.2.1 ≠ 3 && q.2.1 ≠ 3 && p.1 < q.1 + q.2.2 && q.1 < p.1 + p.2.2)

/-- Whether a memory word waits for the whole of an older one of its convoy: an acquire, an atomic, a release of its own, or accesses
whose order R179, R183 and R185 fix (07 R179, R181 to R183, R185). -/
def State.memTie (s : State) (e o : VEntry) : Bool :=
  e.isMem && o.isMem && (o.acquiring || o.op = 0x62 || o.op = 0x63 || (e.op ≠ 0x62 && e.op ≠ 0x63 && e.release) || s.memMeets e o)

/-! ### The cycles of a convoy -/

/-- The latency of a divide word (06 R164). -/
def divLatency (e : VEntry) : Nat := if e.w.ety = .fp64 then (if e.w.key = 3 then 24 else 22) else 14

/-- The cycle, from a word's first issue, in which its unit u issues or its last step runs (05 R119; 06 R153, R157, R158, R164;
07 R206; 09 Table 9.7). -/
def State.stepOf (s : State) (e : VEntry) (u : Nat) : Nat :=
  let line := 512 * s.width
  let eb := s.ebits e
  let bd := ((EType.ofCode (e.w.fnBits 0 4)).map (s.th.ln.bits (vtFsel e.vtype))).getD 8
  match e.op with
  | 0x38 => (min ((u + 1) * (line / bd)) e.vl - 1) / (line / max eb bd)
  | 0x39 => (min ((u + 1) * (line / bd)) e.vl - 1) / 16
  | 0x3A => if e.w.fnBits 5 1 = 0 then (min (ceilDiv ((u + 1) * line) (e.w.fnBits 0 4)) e.vl - 1) / (line / eb) else u
  | 0x3D => 2 * u
  | 0x5B => if e.w.key = 0 then 2 * u else u
  | 0x5E => 18 * e.vl
  | 0x41 | 0x42 | 0x43 | 0x45 | 0x46 | 0x47 | 0x48 => u * (64 / eb)
  | _ => u

/-- The cycle of the step from which a word goes on at unit p (06 R153, R157). -/
def State.stepFrom (s : State) (e : VEntry) (p : Nat) : Nat :=
  let line := 512 * s.width
  let bd := ((EType.ofCode (e.w.fnBits 0 4)).map (s.th.ln.bits (vtFsel e.vtype))).getD 8
  match e.op with
  | 0x38 => p * (line / bd) / (line / max (s.ebits e) bd)
  | 0x39 => p * (line / bd) / 16
  | 0x3A => if e.w.fnBits 5 1 = 0 then p * line / e.w.fnBits 0 4 / (line / s.ebits e) else p
  | 0x5E => 0
  | _ => s.stepOf e p

/-- Cycles from the issue of a group to the first in which a younger member's group may follow it: 2, as a divide word or a Brace
word has it, and for a load the least of R206 (05 R119; 06 R164; 07 R206; 09 R260; DESIGN CHOICE, log 4). -/
def leadOf (e : VEntry) : Nat :=
  match e.op with
  | 0x3D => divLatency e - 3
  | 0x40 | 0x41 | 0x42 | 0x43 => 16
  | 0x59 | 0x5A => 900
  | 0x5B | 0x5C => 32
  | _ => 2

/-- Cycles from the issue of a group to the detection of its fault (05 R121; 06 R164; DESIGN CHOICE, log 4). -/
def detectOf (e : VEntry) : Nat := if e.op = 0x3D then divLatency e else 5

/-- The step of a conversion that reads element i first; 0 for every other word (06 R153, R157, R158). -/
def State.stepAt (s : State) (e : VEntry) (i : Nat) : Nat :=
  let line := 512 * s.width
  let eb := s.ebits e
  let bd := ((EType.ofCode (e.w.fnBits 0 4)).map (s.th.ln.bits (vtFsel e.vtype))).getD 8
  match e.op with
  | 0x38 => i / (line / max eb bd)
  | 0x39 => i / 16
  | 0x3A => if e.w.fnBits 5 1 = 0 then i / (line / eb) else 0
  | _ => 0

/-- Whether a word's groups are made by steps of their own: the conversions (06 R153, R157, R158). -/
def byStep (e : VEntry) : Bool := e.op = 0x38 || e.op = 0x39 || (e.op = 0x3A && e.w.fnBits 5 1 = 0)

/-- The unit of a member whose end makes valid the group that `needs` names (08 R233; 09 R259). -/
def State.unitOfGroup (s : State) (e : VEntry) (g : Nat) : Nat :=
  let line := 512 * s.width
  let last := s.laneGroups e - 1
  if e.groupOf.isSome then
    match e.op with
    | 0x56 => min last (ceilDiv (g * line) (128 * s.ebits e) - 1)
    | 0x59 => min last (ceilDiv (g * line) 1024 - 1)
    | _ => min last (g - 1)
  else
    match e.op with
    | 0x59 | 0x5A => min last ((g + 1) * 16 * s.width - 1)
    | _ => g

/-- The nearest older member of a convoy that issues groups: the entry, where it started, and the cycle of each unit. -/
structure Clock where
  entry : VEntry
  start : Nat
  cycle : Nat → Nat

/-- The cycle in which unit u of a member issues or its last step runs, the convoy's first group issuing in cycle 0: behind the first and
the last group that it needs of the member before it, at its own pace, and behind the whole of one whose order it keeps
(05 R119, R121; 06 R153, R157, R164; 07 R182). -/
def State.cycleOf (s : State) (e : VEntry) (before : Option Clock) (u : Nat) : Nat :=
  let own := fun (n : Nat) => s.stepOf e n - s.stepFrom e e.prog
  match before with
  | none => own u
  | some k =>
    let valid := fun (g : Nat) =>
      let x := s.unitOfGroup k.entry g
      if k.start ≤ x ∧ g < wholeWord then k.cycle x + leadOf k.entry else 0
    let behind := fun (n : Nat) => (s.needs e k.entry n).elim 0 valid
    let r := max e.prog k.start
    let tied :=
      if byStep e then
        let per := 512 * s.width / s.ebits e
        let from_ := fun (g : Nat) => valid g + (s.stepOf e u - max (s.stepAt e (g * per)) (s.stepFrom e e.prog))
        let first := max k.start (if e.prog = 0 then 0 else s.elemsTo e (e.prog - 1) / per)
        max (if first ≤ (s.elemsTo e u - 1) / per then from_ first else 0) (((s.needs e k.entry u).map from_).getD 0)
      else max (behind u) (if r ≤ u then behind r + (own u - own r) else 0)
    let whole := if s.memTie e k.entry then k.cycle (s.laneGroups k.entry - 1) + leadOf k.entry + own u else 0
    max (k.cycle k.start + 2 + own u) (max tied whole)

/-! ### Issue checks -/

/-- Whether R111 bounds vl for a word: the element words, and those whose entries repeat the limit (05 R111; 07 R198;
10 R272, R278; 11 R324), and the conversions and divides, of which no rule speaks (DESIGN CHOICE, log 66). -/
def boundsVl (e : VEntry) : Bool :=
  match e.op with
  | 0x38 | 0x39 | 0x3A | 0x4A | 0x4B | 0x50 | 0x51 | 0x52 | 0x53 | 0x54 | 0x55 | 0x56 | 0x57 | 0x58 | 0x59 | 0x5A
  | 0x5D | 0x5E | 0x69 | 0x70 | 0x73 | 0x74 | 0x78 | 0x79 | 0x7A | 0x7B => false
  | 0x40 | 0x44 => e.w.grp = 0
  | 0x63 => e.w.fnFN = 1
  | _ => true

/-- The checks of R44 that hold for every word: a valid format register, the bound of R42 on ridx, the limit of R111. -/
def State.issueOk (s : State) (e : VEntry) : Bool :=
  s.th.ln.typeOk (vtFsel e.vtype) e.w.ety && (e.w.ety != .fmt || repFits e.w (vlmax s.width (s.ebits e)))
    && (!boundsVl e || e.vl ≤ vlmax s.width (s.ebits e))

/-! ### Marked register bytes -/

/-- The stream register that a register number names while it is bound (11 R339). -/
def State.streamAt (s : State) (r : Nat) : Option Stream :=
  if 56 ≤ r then
    let t := vecGet s.th.fab.fs (r - 56) .reset
    if t.bound then some t else none
  else none

/-- Whether a marked byte lies among some bits of a register. -/
def markIn (bad : List (Nat × Nat)) (x : Nat × Nat × Nat) : Bool := bad.any fun m => m.1 = x.1 && x.2.1 < 8 * m.2 + 8 && 8 * m.2 < x.2.1 + x.2.2

/-- Where element k of a source of w bits lies: in the replicated unit, which the word's first group reads, or in the register's own order;
as (register, first bit, bits) (02 R42; 05 R116). -/
def State.sourceBits (s : State) (e : VEntry) (lo : Nat) (sel : RSel) (r w k : Nat) : List (Nat × Nat × Nat) :=
  if e.w.rsel = sel then
    if lo = 0 then
      let n := 4 ^ e.w.rsz.toNat
      let u := s.unitBits e
      [(r, e.w.ridx.toNat * n * u + k % n * u, u)]
    else []
  else [(r, k * w, w)]

/-- Active elements of a word below i. -/
def View.before (v : View) (i : Nat) : Nat := ((List.range i).filter fun k => v.act k).length

/-- The bits that active element i of an element word reads, as (register, first bit, bits): the initial element of a reduction or scan with
element 0, the source that a permute moves to i, an index, a scale or a packed field at its own width (05 R116, R128, R130 to R134; 06 R153,
R158, R159; 07 R198; 09 R257; 10 R272, R278; 11 R324). -/
def State.elemReads (s : State) (e : VEntry) (v : View) (lo i : Nat) : List (Nat × Nat × Nat) :=
  let b := s.ebits e
  let a := fun (w k : Nat) => s.sourceBits e lo .a e.w.va.toNat w k
  let vb := fun (w k : Nat) => if e.w.form = .vv then s.sourceBits e lo .b e.w.vb.toNat w k else []
  let d := [(e.w.vd.toNat, i * b, b)]
  let top := vlmax s.width b
  match e.op with
  | 0x08 => if maskBit v.mask i then a b i else vb b i
  | 0x09 => if e.w.key = 1 || e.w.key = 3 then a b i else []
  | 0x30 | 0x31 | 0x32 => a b i
  | 0x33 =>
    let k := slideBy e
    match e.w.key with
    | 0 => if k ≤ i then a b (i - k) else []
    | 1 => if i + k < top then a b (i + k) else []
    | 2 => if i = 0 then vb b 0 else a b (i - 1)
    | _ => if i + 1 = e.vl then vb b 0 else a b (i + 1)
  | 0x34 =>
    let k := match e.w.form with | .vv => elemAt (vecGet s.th.ln.v e.w.vb.toNat 0) b i | _ => slideBy e
    vb b i ++ (if k < top then a b k else [])
  | 0x35 => a b (if e.w.key = 0 then i else v.before i)
  | 0x3A => if e.w.fnBits 5 1 = 1 then a (e.w.fnBits 0 4) i else a b i
  | 0x3B => a b i ++ vb (if e.w.fnBits 3 1 = 1 then 8 else 16) (i / scaleBlock (e.w.fnBits 1 2))
  | 0x42 | 0x43 => a (ixBits e) i
  | 0x46 | 0x47 | 0x48 => a (ixBits e) i ++ d
  | 0x44 | 0x45 => d
  | 0x5C =>
    if e.w.fnBits 6 1 = 1 then a 32 i ++ vb 32 i ++ s.sourceBits e lo .c e.w.vc.toNat 32 i
    else
      let st := 2 ^ e.w.fnBits 1 4
      let p := i / (2 * st) * st + i % st
      let k := 2 * st * (p / st) + p % st
      a 32 k ++ a 32 (k + st) ++ vb 32 p
  | 0x62 | 0x63 => [(e.w.va.toNat, i * 32, 32), (e.w.vb.toNat, i * b, b)]
  | 0x71 => if idxOf e then [(e.w.va.toNat, i * 32, 32)] else []
  | 0x72 => (if idxOf e then [(e.w.va.toNat, i * 32, 32)] else []) ++ d
  | _ =>
    ((readsOf e).zip [RSel.a, .b, .c]).flatMap (fun x => s.sourceBits e lo x.2 x.1 b i)
      ++ (if accumulates e then d else [])

/-- Whether a word reads tiles or rows of its registers and no elements under vl (07 R200; 08; 09). -/
def VEntry.byTile (e : VEntry) : Bool :=
  [0x51, 0x52, 0x53, 0x54, 0x57, 0x59, 0x5A].contains e.op || (e.op = 0x44 && e.w.grp = 1)

/-- The unit of a word that reads tiles in which a bit of the group or register it names is read first, none where it is not read; other
than a shaped group's tile, mscale's 128 scales, the directions of a row word and the sources of mlacc are read whole (07 R200; 08 R223,
R228; 09 R249, R253). -/
def State.tileUnit (s : State) (e : VEntry) (r bit : Nat) : Option Nat :=
  let q := r / 4
  let row := (s.tile q).bind fun t => if bit < t.rows * t.cols * t.b then some (bit / (t.cols * t.b)) else none
  let steps := mcG s.th.tr.mcfg
  match e.op with
  | 0x44 => if bit < (s.tileMem e).total * s.ebits e then some (bit / (512 * s.width)) else none
  | 0x51 | 0x52 => if mcScl s.th.tr.mcfg ≠ 0 && q = e.w.vc.toNat / 4 then row.map fun _ => 0 else row.map (· / steps)
  | 0x53 => row.map fun k => if q = e.w.va.toNat / 4 then ceilDiv (mcN s.th.tr.mcfg * (k / 48) + 1) steps - 1 else k / steps
  | 0x59 | 0x5A => if q = e.w.va.toNat / 4 then row else if bit < 32 * s.laneGroups e then some (bit / 32) else none
  | 0x57 => if bit < 4096 then some 0 else none
  | _ => some 0

/-- A marked byte that a word would read from its unit lo on: the element and the unit (14 R421). -/
def State.markedElem (s : State) (e : VEntry) (lo : Nat) : Option (Nat × Nat) :=
  let regs := readsOf e ++ (if accumulates e then writesOf e else [])
  let bad := s.th.ln.bad.filter fun m => regs.contains m.1 && (s.streamAt m.1).isNone
  if bad = [] then none
  else if e.byTile then
    let hits := bad.filterMap fun m =>
      let bit := if (e.op = 0x44 || [0x51, 0x52, 0x53, 0x54].contains e.op || m.1 / 4 = e.w.va.toNat / 4) && e.op ≠ 0x57
        then m.1 % 4 * (32768 * s.width) + 8 * m.2 else 8 * m.2
      (s.tileUnit e m.1 bit).bind fun u => if lo ≤ u then some (bit / s.ebits e, u) else none
    (least (hits.map (·.2))).bind fun u => (least ((hits.filter fun x => x.2 = u).map (·.1))).map fun i => (i, u)
  else
    let v := s.view e
    let first := fun (i : Nat) => (List.range (s.laneGroups e)).find? fun u => i < s.elemsTo e u
    if e.op = 0x09 && e.w.key = 3 then (if bad.any fun m => 8 * m.2 < s.ebits e then some (0, 0) else none)
    else
      let init := (0x30 ≤ e.op && e.op ≤ 0x32) && e.w.form = .vv && (s.sourceBits e lo .b e.w.vb.toNat (s.ebits e) 0).any (markIn bad)
      if init then some (0, 0)
      else
        (firstIx (fun i => (e.op = 0x08 || v.act i) && (first i).any (lo ≤ ·) && (s.elemReads e v lo i).any (markIn bad)) 0 e.vl).map fun i =>
          (i, (first i).getD 0)

/-! ### Streams -/

/-- The words in which a number may name a stream (11 R339). -/
def namesStreams (e : VEntry) : Bool :=
  match e.op with
  | 0x00 | 0x01 | 0x02 | 0x03 | 0x04 | 0x05 | 0x08 | 0x20 | 0x21 | 0x22 | 0x38 | 0x3B | 0x75 => true
  | 0x09 => e.w.key < 2
  | 0x40 | 0x44 => e.w.grp = 0
  | _ => false

/-- The bound streams that a word reads and writes: register numbers. -/
def State.streamsIn (s : State) (rs : List Nat) : List Nat := rs.filter fun r => (s.streamAt r).isSome

/-- The replicated register of a word. -/
def repReg (w : VWord) : Option Nat :=
  match w.rsel with | .none => none | .a => some w.va.toNat | .b => some w.vb.toNat | .c => some w.vc.toNat

/-- Bits of an element that passes through stream register r in a word (11 R339, R340). -/
def State.streamBits (s : State) (e : VEntry) (r : Nat) : Nat :=
  let fs := vtFsel e.vtype
  if e.op = 0x38 && e.w.vd.toNat = r then ((EType.ofCode (e.w.fnBits 0 4)).map (s.th.ln.bits fs)).getD 8
  else if e.op = 0x3B && e.w.form = .vv && e.w.vb.toNat = r then (if e.w.fnBits 3 1 = 1 then 8 else 16)
  else s.ebits e

/-- Elements of one group of a word that names streams: of its destination for vcvt. -/
def State.streamPer (s : State) (e : VEntry) : Nat :=
  perGroup s.width (if e.op = 0x38 then s.streamBits e e.w.vd.toNat else s.ebits e)

/-- The rules of R339 on the bound numbers of a word. -/
def State.streamOk (s : State) (e : VEntry) : Bool :=
  let rd := s.streamsIn (readsOf e)
  let wr := s.streamsIn (writesOf e)
  let all := rd ++ wr
  all = [] && (s.streamsIn (shapesOf e)).isEmpty ||
    (namesStreams e && !accumulates e || (namesStreams e && wr = [])) &&
      rd.all (fun r => (s.streamAt r).any fun t => !t.send) && wr.all (fun r => (s.streamAt r).any fun t => t.send)
      && all.length = all.eraseDups.length && !(repReg e.w).any (fun r => all.contains r)
      && all.all fun r => e.vl * s.streamBits e r % 8 = 0

/-- Groups of a word whose incoming bytes are all present, counted from the start, given the groups done (11 R340). -/
def State.groupsPresent (s : State) (e : VEntry) (lo groups : Nat) (rs : List Nat) : Nat :=
  let per := s.streamPer e
  let ok := fun g => rs.all fun r =>
    let b := s.streamBits e r
    (min ((g + 1) * per) e.vl - min (lo * per) e.vl) * b ≤ 8 * ((s.streamAt r).map (·.rx.length)).getD 0
  ((List.range (groups - lo)).takeWhile fun k => ok (lo + k)).length + lo

/-- Ask for the admission of the newest chunk of send stream N: granted at once by a receiver of this package that has room
(11 R342). -/
def State.reserve (n : Nat) (s : State) : State :=
  let t := vecGet s.th.fab.fs n .reset
  match t.stage.getLast?, s.memberIndex t.comm, s.peerOf t with
  | some c, some p, some q =>
    if !c.admitted && (s.roomAt s.th.bind.ctx t.comm p q).any (c.size ≤ ·) then
      (s.atMember s.th.bind.ctx t.comm q fun u => u.grantTo t.comm p c.size).onStream n Stream.letIn
    else s
  | _, _, _ => s

/-- A reservation request leaves the package when no thread of it is the receiver; it names the communicator, the sender's and
the receiver's member index and the size (11 R342, Table 11.7). -/
def State.askRoom (n size : Nat) (s : State) : State :=
  let t := vecGet s.th.fab.fs n .reset
  match s.memberIndex t.comm, s.peerOf t with
  | some p, some q =>
    if s.memberHere s.th.bind.ctx t.comm q then s
    else s.sendToMember 9 t.comm q t.comm (flitBytes [s.th.bind.ctx, t.comm, p, q, size])
  | _, _ => s

/-- Bytes of elements i0 to i1 − 1 of a register. -/
def elemBytes (x : VReg) (b i0 i1 : Nat) : List Byte := leBytes ((i1 - i0) * b / 8) (field x (i0 * b) ((i1 - i0) * b))

/-- Show a stream's bytes as the register a word reads: its next bytes from the first element of group lo on, behind the scales that a
vscale in progress has popped, which stand for later elements as well (11 R340; 06 R159). -/
def State.showStream (e : VEntry) (lo r : Nat) (s : State) : State :=
  match s.streamAt r with
  | none => s
  | some t =>
    let b := s.streamBits e r
    let i0 := min (lo * s.streamPer e) e.vl
    let past := if lo = 0 then 0 else t.past
    s.onLn fun l => { l with v := vecSet l.v r (setField past (i0 * b) (8 * t.rx.length) (leNat t.rx)) }

/-- Put back what a bound number hides (11 R339). -/
def restoreHidden (old : Lanes) (rs : List Nat) (l : Lanes) : Lanes :=
  rs.foldl (fun l r => { l with v := vecSet l.v r (vecGet old.v r 0), vprog := vecSet l.vprog r (vecGet old.vprog r 64) }) l

/-- Pop what groups lo to top − 1 have read (11 R340). -/
def State.popStream (e : VEntry) (lo top r : Nat) (s : State) : State :=
  let per := s.streamPer e
  let n := (min (top * per) e.vl - min (lo * per) e.vl) * s.streamBits e r / 8
  let keep := e.op = 0x3B && e.w.vb.toNat = r
  (s.onStream (r - 56) fun t =>
    { t with rx := t.rx.drop n, past := if keep then setField (if lo = 0 then 0 else t.past) (min (lo * per) e.vl * s.streamBits e r) (8 * n) (leNat t.rx) else t.past }).grantAsks

/-- Stage what groups lo to top − 1 have pushed (11 R340, R342). -/
def State.pushStream (e : VEntry) (lo top r : Nat) (x : VReg) (s : State) : State :=
  let per := s.streamPer e
  let bs := elemBytes x (s.streamBits e r) (min (lo * per) e.vl) (min (top * per) e.vl)
  s.onStream (r - 56) fun t =>
    { t with stage := t.stage.mapIdx fun i c => if i + 1 = t.stage.length then { c with bytes := c.bytes ++ bs } else c }

/-- A pushing word's chunk, entered at its first issue: whether it is admitted (11 R342). -/
def State.openChunk (e : VEntry) (r : Nat) (s : State) : State × Bool :=
  let n := r - 56
  let size := e.vl * s.streamBits e r / 8
  if size = 0 then (s, true)
  else
    let fresh := match (vecGet s.th.fab.fs n .reset).stage.getLast? with
      | none => true
      | some c => c.bytes.length = c.size
    let s1 := if fresh && e.prog = 0 then (s.onStream n fun t => { t with stage := t.stage ++ [{ size := size, admitted := false, bytes := [] }] }).askRoom n size else s
    let s2 := if s1.prompt then s1.reserve n else s1
    (s2, ((vecGet s2.th.fab.fs n .reset).stage.getLast?).any (·.admitted))

/-- A PeerLost at the first element of a group (11 R346). -/
def lostAt (s : State) (e : VEntry) (g : Nat) : LStop :=
  { cause := .peerLost, index := word (g * s.streamPer e), group := g, flags := 0 }

/-- The bytes of an incomplete group in lost streams are discarded (11 R346, Table 11.11). -/
def State.dropLost (rs : List Nat) (s : State) : State :=
  rs.foldl (fun t r => t.onStream (r - 56) fun x => { x with rx := [] }) s

/-- A word that names streams, over groups lo to hi − 1 (11 R339 to R342, R346). -/
def streamRun (e : VEntry) (lo hi : Nat) (s : State) : LaneOut :=
  let rd := s.streamsIn (readsOf e)
  let wr := s.streamsIn (writesOf e)
  let lost := fun (r : Nat) => (s.streamAt r).any fun t => t.lost
  if wr.any lost && lo < s.laneGroups e then { st := s, reached := lo, stop := some (lostAt s e lo) }
  else
    let o := wr.foldl (fun (a : State × Bool) r => let x := a.1.openChunk e r; (x.1, a.2 && x.2)) (s, true)
    if !o.2 then { st := o.1, reached := lo, stop := none }
    else
      let top := min hi (s.groupsPresent e lo (s.laneGroups e) rd)
      let s1 := rd.foldl (fun t r => t.showStream e lo r) o.1
      let s2 := s1.onLn fun l => wr.foldl (fun l r => { l with v := vecSet l.v r 0 }) l
      let a := laneOf e lo top s2
      let x := vecGet a.st.th.ln.v e.w.vd.toNat 0
      let s3 := a.st.onLn (restoreHidden s.th.ln (rd ++ wr))
      let s4 := rd.foldl (fun t r => t.popStream e lo a.reached r) s3
      let s5 := wr.foldl (fun t r => t.pushStream e lo a.reached r x) s4
      let gone := rd.filter fun r => lost r && decide (s.groupsPresent e lo (s.laneGroups e) [r] ≤ top)
      if a.stop.isNone && a.reached = top && top < hi && gone ≠ [] then
        { a with st := s5.dropLost gone, stop := some (lostAt s e top) }
      else { a with st := s5 }

/-! ### A word at the lanes -/

/-- A store word at M forms a strip of its own, beside the open strip, which is set aside; it is committed once the word is done, and
one that faults commits nothing (12 R351). -/
def State.ownStrip (run : State → LaneOut) (lo groups : Nat) (s : State) : LaneOut :=
  let mine := fun (t : Strip) (e : StripEntry) => e.strip = t.open_
  let t := if lo = 0 && s.th.st.parked.isEmpty then s.onSt fun t =>
      { t with parked := t.entries.filter (mine t), entries := t.entries.filter fun e => !mine t e, open_ := t.open_ + 1 }
    else s
  let a := run t
  if a.stop.isSome || a.reached < groups then a
  else { a with st := (a.st.closeStrip.onSt fun t =>
      { t with entries := t.entries ++ t.parked.map fun e => { e with strip := t.open_ }, parked := [] }) }

/-- The majors that store through the strip store buffer. -/
def storesVia (op : Nat) : Bool := [0x44, 0x45, 0x46, 0x47, 0x48, 0x55, 0x58, 0x72].contains op

/-- A word over groups lo to hi − 1 once it may issue, with its streams where it names some. -/
def lanePlain (e : VEntry) (lo hi : Nat) (s : State) : LaneOut :=
  if s.streamsIn (readsOf e ++ writesOf e) ≠ [] then streamRun e lo hi s else laneOf e lo hi s

/-- A word over groups lo to hi − 1 that meets no marked byte, or stops before the group that reads one: MachineCheck at its element. An XP
word or brot, which keep no partial work, stop with none (05 R121; 09 R257; 14 R421). -/
def laneParts (e : VEntry) (lo hi : Nat) (s : State) : LaneOut :=
  match s.markedElem e lo with
  | some (i, g) =>
    let stop : LStop := { cause := .machineCheck, index := word i, group := g, flags := 0 }
    let keepsNone := (0x30 ≤ e.op && e.op ≤ 0x35) || (e.op = 0x5C && e.w.fnBits 6 1 = 0)
    if keepsNone then (if s.laneGroups e ≤ hi then { st := s, reached := 0, stop := some stop } else lanePlain e lo hi s)
    else if g < hi then
      let a := lanePlain e lo g s
      if a.stop.isSome || a.reached < g then a else { a with stop := some stop }
    else lanePlain e lo hi s
  | none => lanePlain e lo hi s

/-- A word over groups lo to hi − 1: the checks at its first issue, then its parts; a store word at M beside the open strip. -/
def laneRun (e : VEntry) (lo hi : Nat) (s : State) : LaneOut :=
  if lo = 0 && !(s.issueOk e && s.streamOk e) then issueFail s lo
  else if e.atM && storesVia e.op then s.ownStrip (laneParts e lo hi) lo (s.laneGroups e)
  else laneParts e lo hi s

end Sys2Proof.Machine
end

