-- ==== Sys2Proof/Machine/Viq.lean ====
section
/-! DEFINITION. The vector instruction queue: convoys, how they issue, stop and retire, one-slot entries, and how the front
sends a word (spec/02 R36, R42, R43; 03 R56, R59, R64, R74; 05 R117 to R121; 12 R349, R350, R375). -/

namespace Sys2Proof.Machine

/-! ### Pipes and convoys -/

/-- The pipes of Table 5.4 (05 R117). -/
inductive Pipe where
  | none | ia | mk | fa | xp | cv | dv | ls | tr | br | fs
  deriving DecidableEq, Repr

/-- The pipe of a major (05 Table 5.4). -/
def pipeOf (op : Nat) : Pipe :=
  if op ≤ 0x05 then .ia
  else if op ≤ 0x09 || op = 0x23 then .mk
  else if 0x20 ≤ op && op ≤ 0x22 then .fa
  else if 0x30 ≤ op && op ≤ 0x35 then .xp
  else if 0x38 ≤ op && op ≤ 0x3C then .cv
  else if op = 0x3D then .dv
  else if (0x40 ≤ op && op ≤ 0x49) || op = 0x62 || op = 0x63 || op = 0x71 || op = 0x72 then .ls
  else if 0x50 ≤ op && op ≤ 0x57 then .tr
  else if 0x58 ≤ op && op ≤ 0x5E then .br
  else if op = 0x75 then .fs
  else .none

/-- The pipe of an entry; one-slot entries have none (05 R117). -/
def VEntry.pipe (e : VEntry) : Pipe := if e.slot = .word then pipeOf e.op else .none

/-- The members of the oldest convoy, and the entries behind it. -/
def splitConvoy : List VEntry → List VEntry × List VEntry
  | [] => ([], [])
  | e :: es => (e :: es.takeWhile (·.joined), es.dropWhile (·.joined))

/-- The members of the youngest convoy, youngest first. -/
def lastConvoy : List VEntry → List VEntry
  | [] => []
  | e :: es => if e.joined then e :: lastConvoy es else [e]

/-- bsolve, which runs on the divide units (06 R161). -/
def VEntry.isSolve (e : VEntry) : Bool := e.pipe = .br && e.op = 0x5E

/-- Whether a word sent next may join the open convoy (02 R36; 05 R118; 06 R161). -/
def mayJoin (viq : List VEntry) (e : VEntry) : Bool :=
  let ms := lastConvoy viq.reverse
  ms.length < 4 && e.pipe ≠ .none && ms.all (fun m => m.pipe ≠ e.pipe && m.pipe ≠ .none) &&
    ms.all (fun m => m.pipe ≠ .xp) && !((e.pipe = .dv && ms.any (·.isSolve)) || (e.isSolve && ms.any (·.pipe = .dv))) &&
    !(repReg e.w).any fun r => ms.any fun m => (writesOf m).contains r

/-- An ignored C closes the open convoy and counts a chain break (02 R36; 05 R118). (DEDUCED, log 12.) -/
def State.closeChain (s : State) : State :=
  if s.th.fr.chainOpen then (s.count 9).onFr fun f => { f with chainOpen := false } else s

/-! ### One-slot entries -/

/-- An accumulation window whose configuration mtc.m writes: entries that its copies did not hold are free values
(12 R356; 10 R275; DESIGN CHOICE, log 5). (DEDUCED, log 38.) -/
def State.windowSet (x : Word) (s : State) : State :=
  let n := if bitsOf x 0 0 = 1 then bitsOf x 18 8 else 0
  let old := s.th.ln.win.copies
  let at_ := fun (j k : Nat) => (old.getD j []).getD k (Config.freeWord (s.freeCount + n * j + k))
  let cs := (List.range (if n = 0 then 0 else 8 * s.width)).map fun j => (List.range n).map fun k => at_ j k
  { s.onLn fun l => { l with win := { cfg := x, copies := cs } } with freeCount := s.freeCount + 8 * s.width * n }

/-- An mtc or mtc.m of a lane register takes effect in the lanes (03 R74; 00 R5; 06 R150; 07 Table 7.6; 12 R356). -/
def State.mtcLane (n : Nat) (x : Word) (s : State) : State :=
  match n with
  | 0x013 => s.onSt fun t => { t with uncs := t.uncs && !x.getLsbD 2 }
  | 0x014 => s.onLn fun l => { l with efc := x.setWidth 32 }
  | 0x016 => s.onLn fun l => { l with flags := l.flags &&& ~~~(x.setWidth 6), traps := (x >>> 8).setWidth 6 }
  | 0x060 => s.onBr fun b => { b with bcfg := x }
  | 0x200 => s.onFab fun f => { f with cgrp := x }
  | 0x201 => s.onFab fun f => { f with cop := x }
  | 0x202 => s.onFab fun f => { f with cstride := x }
  | 0x203 => s.onFab fun f => { f with cchunk := x }
  | 0x010 => s.onLn fun l => { l with vl := x.toNat }
  | 0x011 => s.onLn fun l => { l with vtype := x.setWidth 10 }
  | 0x050 => s.onTr fun t => { t with mvl := x }
  | 0x051 => s.onTr fun t => { t with tm := x.toNat }
  | 0x052 => s.onTr fun t => { t with tn := x.toNat }
  | 0x053 => s.onTr fun t => { t with tk := x.toNat }
  | 0x054 => s.onTr fun t => { t with mcfg := x.setWidth 7 }
  | 0x071 => s.windowSet x
  | _ => s

/-- An entry at the lanes: a word over groups lo to hi − 1, or a one-slot entry that acts at once (03 R74; 04 R94). -/
def slotRun (e : VEntry) (lo hi : Nat) (s : State) : LaneOut :=
  match e.slot with
  | .word => laneRun e lo hi s
  | .mtc n => laneDone (s.retireHistory.mtcLane n e.sc)
  | .commit vl =>
    laneDone (match vl with | none => s.commit | some n => s.commit.onLn fun l => { l with vl := n })

/-- Groups of an entry. -/
def State.slotGroups (s : State) (e : VEntry) : Nat := if e.slot = .word then s.laneGroups e else 1

/-! ### Sampling -/

/-- The vector memory words that a sample counts (12 R375). -/
def samples (e : VEntry) : Bool :=
  e.slot = .word && ((0x40 ≤ e.op && e.op ≤ 0x49) || e.op = 0x71 || e.op = 0x72)

/-- Count a vector memory word at its first issue: whether it is sampled (12 R375). -/
def State.sampleIssue (e : VEntry) (s : State) : State × Bool :=
  if !samples e then (s, false)
  else
    let r := s.th.fr.regs
    let on := r.smplcfg.getLsbD 0
    let n := r.next.toNat
    let hit := on && n = 1
    let next : BitVec 24 := if on && n ≠ 0 then (if n = 1 then BitVec.ofNat 24 (bitsOf r.smplcfg 31 8) else r.next - 1) else r.next
    (s.onRegs fun r => { r with next := next, mark := false }, hit || r.mark)

/-- CLS of a sample record (12 R375). -/
def sampleClass (e : VEntry) : Nat :=
  match e.op with
  | 0x40 | 0x44 => if e.w.grp = 1 then 3 else 0
  | 0x41 | 0x45 => 1
  | 0x49 => 0
  | _ => 2

/-- The addresses of a vector memory word's active elements in groups lo to hi − 1 (12 R375, LINES and PAGES). -/
def State.sampleAddrs (s : State) (e : VEntry) (lo hi : Nat) : List Nat :=
  let v := s.view e
  let sp := v.span lo hi
  let at_ := fun (f : Nat → Word) =>
    (List.range sp.2).filterMap fun i => if v.act (sp.1 + i) then some (f (sp.1 + i)).toNat else none
  match e.op with
  | 0x40 | 0x44 =>
    if e.w.grp = 1 then
      let m := s.tileMem e
      (List.range (min (hi * m.per) m.total - lo * m.per)).map fun i => (m.addr (lo * m.per + i)).toNat
    else at_ (unitAddr e v.b)
  | 0x49 => at_ (unitAddr e v.b)
  | 0x41 | 0x45 => at_ (stridedAddr e v.b)
  | 0x71 | 0x72 => at_ (s.remoteOff e (v.b / 8))
  | _ => at_ (s.indexedAddr e v.b)

/-- A count saturating at n bits. -/
def satCount (n x : Nat) : Nat := min x (2 ^ n - 1)

/-- What a sampled word has touched grows by the active elements among groups lo to hi − 1 (12 R375). -/
def VEntry.touch (e : VEntry) (s : State) (lo hi : Nat) : VEntry :=
  if e.sampled then
    let xs := s.sampleAddrs e lo hi
    { e with lines := (e.lines ++ xs.map (· / 256)).eraseDups, active := e.active + xs.length }
  else e

/-- The record of a sampled word; the cycles, the slice conflicts and the TLB misses are not of this model and are free
values (12 R375, Table 12.15; DESIGN CHOICE, log 4, log 5). -/
def State.sampleRecord (e : VEntry) (s : State) : State :=
  let lines := satCount 12 e.lines.length
  let pages := satCount 12 (e.lines.map (· / 256)).eraseDups.length
  let d := s.draw
  let f := Config.freeWord d.1
  let cpe := if e.active = 0 then 0 else bitsOf f 31 0
  d.2.traceSend [s.traceHeader 1 6, traceVa e.issuedAt.1, traceVa e.issuedAt.2,
    word (sampleClass e + bitsOf f 43 32 * 4 + lines * 2 ^ 14 + pages * 2 ^ 26 + bitsOf f 55 44 * 2 ^ 38 + e.op * 2 ^ 50),
    word (cpe + satCount 16 e.active * 2 ^ 32), traceVa e.addr]

/-! ### Running a convoy -/

/-- The words whose effects leave the thread and so wait until every older word is fault-safe: vector atomics and the words
that name streams (10 R274; 11 R341). -/
def State.waitsSafe (s : State) (e : VEntry) : Bool :=
  e.slot = .word && (e.op = 0x62 || (e.op = 0x63 && e.w.fnFN = 2) || s.streamsIn (readsOf e ++ writesOf e) ≠ [])

/-- Which units a member may issue now: its number, where it starts, how many it has, and the cycle of each. -/
abbrev Limit := Nat → Nat → Nat → (Nat → Nat) → Nat

/-- No limit. -/
def noLimit : Limit := fun _ _ _ _ => 2 ^ 32

/-- The units from p on that issue before a cycle. -/
def issuedBefore (c p g : Nat) (cycle : Nat → Nat) : Nat :=
  p + ((List.range (g - p)).takeWhile fun k => decide (cycle (p + k) < c)).length

/-- What issues before cycle c, among the members that satisfy p (05 R119, R121). -/
def cycleLimit (p : Nat → Bool) (c : Nat) : Limit := fun j start g cycle =>
  if p j then (if g = 0 then c else issuedBefore c start g cycle) else 0

/-- How a member issues in one run of its convoy: where it starts, its units, and the cycle of each. -/
structure Issue where
  start : Nat
  units : Nat
  cycle : Nat → Nat

/-- A fault that a member has met: the member, the stop, the cycle in which its group issued and the one in which it is detected. -/
structure Found where
  member : Nat
  stop : LStop
  issued : Nat
  detected : Nat

/-- A convoy as it runs: the state, the members run so far and how each issues, the faults found, whether every member so far is
complete, the older members that are not, with the groups they cover, and the member whose groups the next one follows
(05 R119, R121). -/
structure ConvoyRun where
  st : State
  ran : List VEntry
  issues : List Issue
  stops : List Found
  full : Bool
  partials : List (VEntry × Nat)
  clock : Option Clock

/-- The first issue of an entry: it takes vtype and its replicated unit, a word that writes a whole group takes a fresh slot for it and
keeps the old one with its shape entry, and a vector memory word is counted for sampling (01 R18; 05 R108, R113, R116; 12 R375).
(DEDUCED, log 51.) -/
def State.firstIssue (e : VEntry) (vcp : Word) (s : State) : State × VEntry :=
  if e.issued then (s, e)
  else
    let r := s.sampleIssue e
    let e1 := { e with issued := true, vtype := s.th.ln.vtype, sampled := r.2, issuedAt := (s.th.fr.spc, vcp) }
    (r.1, { e1 with unit := s.unitOf e1, held := (e1.groupOf.map fun q => s.th.ln.group q).getD [],
                    shape := (e1.groupOf.map fun q => vecGet s.th.ln.shape q 0).getD 0 })

/-- Whether an entry still holds a slot that its group has left, for a reader of it that is not done: an older member, or the entry
itself (01 R18). -/
def holdsSlot (older : List VEntry) (e : VEntry) : Bool :=
  e.held ≠ [] && (older ++ [e]).any fun m => !m.complete && (readsOf m).any fun r => e.groupOf = some (r / 4)

/-- Group slots above the 16 architectural ones that no window and no group awaiting its older readers holds; the entries are those
that have run and, behind them, those of the VIQ (01 R18; 10 R277). -/
def ConvoyRun.spares (a : ConvoyRun) : Nat :=
  let es := a.ran ++ a.st.th.fr.viq.drop a.ran.length
  a.st.th.bind.slots - 16 - bitsOf a.st.th.ln.win.cfg 24 20 - (es.zipIdx.filter fun x => holdsSlot (es.take x.2) x.1).length

/-- Whether a whole-group write waits at issue: no spare is free and an older member reads the group's slot (01 R18). -/
def ConvoyRun.slotWaits (a : ConvoyRun) (e : VEntry) : Bool :=
  !e.issued && a.partials.any (fun m => (readsOf m.1).any fun r => e.groupOf = some (r / 4)) && a.spares = 0

/-- Whether a memory word waits for the whole of an older member that is not complete; one whose indices an older member is still
writing cannot tell (07 R179, R181 to R183, R185). -/
def ConvoyRun.heldBack (a : ConvoyRun) (e : VEntry) : Bool :=
  e.isMem && a.partials.any fun m =>
    m.1.isMem && ((!(0x44 ≤ e.op && e.op ≤ 0x45) && a.partials.any fun x => (writesOf x.1).any fun r => (readsOf e).contains r)
      || a.st.memTie e m.1)

/-- The units of a member from where it stands that the older members which are not complete let run (05 R119). -/
def ConvoyRun.fits (a : ConvoyRun) (e : VEntry) (g : Nat) : Nat :=
  if a.partials.isEmpty then g
  else if a.heldBack e then e.prog
  else
    e.prog + ((List.range (g - e.prog)).takeWhile fun k => a.partials.all fun m =>
      match a.st.needs e m.1 (e.prog + k) with | none => true | some n => decide (n < m.2)).length

/-- Whether a lane-to-scalar word must log its write of s[d] while all 64 history entries are in use, and so waits (03 R60; 05 R127). -/
def State.logFull (s : State) (e : VEntry) : Bool :=
  e.slot = .word && laneToScalar e.op e.w && 64 ≤ s.th.fr.hist.length && s.th.fr.viq.any fun x => x.seq < e.seq && !x.safe

/-- The first group of a write has issued: its registers' and its mask's progress is 0; a word that writes a whole group sets the
progress of its registers itself (05 R120; 07 R200). -/
def State.zeroIndex (e : VEntry) (s : State) : State :=
  s.onLn fun l =>
    let l1 := ((writesOf e).filter fun r => (s.streamAt r).isNone && e.groupOf.isNone).foldl (fun l r => { l with vprog := vecSet l.vprog r 0 }) l
    match maskWrittenBy e with
    | some m => { l1 with mprog := vecSet l1.mprog m 0 }
    | none => l1

/-- Flags that the member of a Truss or Brace word, or amerge, holds for its completion (08 R223; 09 R250; 10 R279). -/
def VEntry.pending (e : VEntry) : Flags :=
  if e.slot = .word ∧ (e.pipe = .tr ∨ e.pipe = .br ∨ e.op = 0x63) then e.x1.setWidth 6 else 0

/-- A member that is complete: flags held for its completion join vxflags (08 R223; 09 R250, R259; 10 R279). -/
def VEntry.finish (e : VEntry) (s : State) : State × VEntry :=
  if e.complete && e.pending ≠ 0 then (s.orLaneFlags e.pending, { e with x1 := e.x1 &&& ~~~(63#64) }) else (s, e)

/-- The fault that member j has met in a group which issues in cycle c (05 R121). -/
def foundAt (j : Nat) (x : LStop) (c : Nat) (e : VEntry) : Found :=
  { member := j, stop := x, issued := c, detected := c + detectOf e }

/-- An entry after a run of its groups: where it stands, what it noted, and the flags it holds. -/
def VEntry.ran (e : VEntry) (o : LaneOut) (done : Bool) : VEntry :=
  { e with prog := o.reached, complete := done, safe := done, x0 := if o.note ≠ 0 then o.note else e.x0,
           x1 := if o.pend ≠ 0 then e.x1 ||| o.pend.setWidth 64 else e.x1 }

/-- A member that has issued but keeps no group: its slot is taken and its progress is 0 (05 R120, R121; 01 R18). -/
def slotIssued (e : VEntry) (s : State) : LaneOut :=
  if e.groupOf.isSome then slotRun e 0 0 s else { st := s, reached := 0, stop := none }

/-- Run member j up to its limit; `cut` tells the members whose first issue a fault has met, though it leaves them no group
(05 R119 to R121). -/
def ConvoyRun.member (lim : Limit) (cut : Nat → Bool) (vcp : Word) (j : Nat) (e0 : VEntry) (a : ConvoyRun) : ConvoyRun :=
  if e0.complete then { a with ran := a.ran ++ [e0], issues := a.issues ++ [{ start := 0, units := 0, cycle := id }] }
  else
    let v := if e0.issued then e0 else { e0 with vtype := a.st.th.ln.vtype }
    let g := a.st.slotGroups v
    let cycle := a.st.cycleOf v a.clock
    let top := lim j v.prog g cycle
    let hi := min (a.fits v g) top
    let how : Issue := { start := v.prog, units := g, cycle := cycle }
    let next : Option Clock := if v.accOnly || g = 0 then a.clock else some { entry := v, start := v.prog, cycle := cycle }
    let idle : Bool := (a.st.waitsSafe v && !a.full) || a.slotWaits v || a.st.logFull v || (hi ≤ v.prog && 0 < g) || (g = 0 && top = 0)
    if idle && !(cut j && !e0.issued) then
      { a with ran := a.ran ++ [e0], issues := a.issues ++ [how], full := false, clock := next,
               partials := a.partials ++ [(v, a.st.coverOf v v.prog)] }
    else
      let i := a.st.firstIssue e0 vcp
      let e := i.2
      let o := if idle then slotIssued e i.1 else slotRun e e.prog hi i.1
      let done := g ≤ o.reached && (o.stop.isNone || o.note ≠ 0)
      let st := if o.reached = 0 && 0 < g && !(o.stop.any fun x => x.cause = .illegal) then o.st.zeroIndex e else o.st
      let e1 := (e.touch i.1 e.prog o.reached).ran o done
      let f := e1.finish st
      { st := f.1, ran := a.ran ++ [f.2], issues := a.issues ++ [how], full := a.full && done, clock := next,
        stops := match o.stop with
          | none => a.stops
          | some x => a.stops ++ [foundAt j x (cycle (x.group + x.late)) e],
        partials := if done then a.partials else a.partials ++ [(e, a.st.coverOf e o.reached)] }

/-- The group slots that the younger members have left stand in place of the groups while an older member runs (01 R18). -/
def oldSlots (es : List VEntry) (s : State) : State :=
  es.reverse.foldl (fun t e => match e.groupOf with
    | some q => if e.held = [] then t else t.onLn fun l => { l.putGroup q e.held with shape := vecSet l.shape q e.shape }
    | none => t) s

/-- After an older member has run on the slots that younger members have left: the groups, their shapes and their progress stand as
before it, and the oldest slot of each group holds what the member has written there (01 R18; 05 R113). -/
def newSlots (es : List VEntry) (before after : State) : State × List VEntry :=
  es.foldr (fun e r => match e.groupOf with
    | some q =>
      if e.held = [] then (r.1, e :: r.2)
      else
        let prog := [0, 1, 2, 3].foldl (fun p k => vecSet p (4 * q + k) (vecGet before.th.ln.vprog (4 * q + k) 64))
          r.1.th.ln.vprog
        (r.1.onLn fun l =>
           { l.putGroup q (before.th.ln.group q) with vprog := prog, shape := vecSet l.shape q (vecGet before.th.ln.shape q 0) },
         { e with held := after.th.ln.group q, shape := vecGet after.th.ln.shape q 0 } :: r.2.map fun x => if x.groupOf = some q then (es.find? (·.seq = x.seq)).getD x else x)
    | none => (r.1, e :: r.2)) (after, [])

/-- Run a member: where younger members have left slots, it sees those (01 R18). -/
def ConvoyRun.memberOn (lim : Limit) (cut : Nat → Bool) (vcp : Word) (j : Nat) (e : VEntry) (es : List VEntry) (a : ConvoyRun) :
    ConvoyRun × List VEntry :=
  if es.all fun x => x.held = [] then (a.member lim cut vcp j e, es)
  else
    let b := { a with st := oldSlots es a.st }.member lim cut vcp j e
    let n := newSlots es a.st b.st
    ({ b with st := n.1 }, n.2)

/-- Run the members from number j on in order, each up to its limit; the first argument is how many there are. -/
def runMembers (lim : Limit) (cut : Nat → Bool) (vcp : Word) : Nat → Nat → List VEntry → ConvoyRun → ConvoyRun
  | 0, _, _, a => a
  | n + 1, j, e :: es, a =>
    let r := a.memberOn lim cut vcp j e es
    runMembers lim cut vcp n (j + 1) r.2 r.1
  | _ + 1, _, [], a => a

/-- A convoy at its start. -/
def ConvoyRun.start (s : State) : ConvoyRun :=
  { st := s, ran := [], issues := [], stops := [], full := true, partials := [], clock := none }

/-- The cycle at which a faulting convoy stops, and the member that faults: the oldest whose fault is in an issued group
(05 R121). -/
def faultPoint (stops : List Found) : Option (Nat × Nat × LStop) :=
  match stops with
  | [] => none
  | x :: xs =>
    let f := xs.foldl (fun m y => min m y.detected) x.detected
    ((stops.find? fun y => y.issued ≤ f).map fun y => (f, y.member, y.stop))

/-- What each member may keep once member k faults at group g, detected at cycle f (05 R121): issued groups of older members
and of Truss and Brace members, groups below g of the others, nothing of an XP word or of a word whose effects leave the
thread. -/
def State.faultLimit (s : State) (ms : List VEntry) (a : ConvoyRun) (f k g : Nat) (lim : Limit) : Limit := fun j start n cycle =>
  let issued := min (lim j start n cycle) (match a.issues[j]? with | some i => issuedBefore (f + 1) i.start i.units i.cycle | none => 0)
  if j < k then issued
  else if j = k then lim j start n cycle
  else
    match ms[j]? with
    | none => 0
    | some e =>
      if e.pipe = .tr || e.pipe = .br then issued
      else if e.pipe = .xp || s.waitsSafe e then 0
      else
        let own := ((a.stops.find? fun x => x.member = j).map fun x => x.stop.group).getD issued
        min (min issued g) own

/-- Whether member j had issued its first group, past its issue checks, when the convoy that faulted at cycle f stopped
(05 R120, R121). -/
def ConvoyRun.hadIssued (a : ConvoyRun) (f j : Nat) : Bool :=
  match a.ran[j]?, a.issues[j]? with
  | some e, some i =>
    e.issued && i.start < issuedBefore (f + 1) i.start i.units i.cycle
      && !(a.stops.any fun x => x.member = j && x.stop.cause = .illegal && x.stop.group = 0)
  | _, _ => false

/-- How a convoy stands after it has run. -/
inductive Settled where
  | done | blocked | stopped
  deriving DecidableEq, Repr

/-- A stepq retires only at its release, which it still awaits (11 R321). -/
def State.awaits (s : State) (e : VEntry) : Bool := e.slot = .word && e.op = 0x73 && e.w.key ≠ 0 && e.w.key ≠ 32 && s.pending

/-- A convoy retires: the count of words, samples; then history and stores behind it, and the slots it held are spares again; a stepq
that awaits its release leaves the lanes and stays unretired (01 R18; 05 R119; 03 R60, R61; 11 R321; 12 R373, R375). -/
def State.retireConvoy (ms : List VEntry) (rest : List VEntry) (s : State) : State :=
  let s1 := ms.foldl (fun t e =>
    if t.awaits e then t.onFr fun f => { f with stepq := some e }
    else
      let t1 := if e.slot = .word then t.count 39 else t
      if e.sampled then t1.sampleRecord e else t1) s
  ((s1.onFr fun f => { f with viq := rest }).retireHistory).leaveStores

/-- zc0 and zc1 go back to what they were before a step word (04 R88; 11 R322). -/
def State.beforeStep (e : VEntry) (s : State) : State := s.onRegs fun r => { r with zc := e.zcs.getD r.zc }

/-- The fault of a convoy is delivered: it stays at its indices, what is younger is unwound, and the exception is taken with
the pair of Table 12.1; a step word that takes Skew is not kept, and zc0 and zc1 stand as before it; a fault that ends the thread at M
reports the word's own address (03 R64; 04 R88; 05 R121; 11 R322; 12 R349, R350, R352). -/
def State.convoyFault (ms : List VEntry) (k : Nat) (x : LStop) (s : State) : State :=
  match ms.head?, ms.getLast? with
  | some e0, some e1 =>
    let w := ms.getD k e0
    let step : Bool := x.cause = .skew && w.op = 0x73
    let s0 := s.unwind e1.seq (if step then [] else ms)
    let s1 := ((if step then s0.beforeStep w else s0).retireHistory).leaveStores
    let own : Bool := step || (s.th.fr.m.lvl && !goesToEloaler x.cause)
    s1.takeException x.cause x.index (if own then w.addr else e1.after) (if step then w.addr else e0.addr) x.flags false
  | _, _ => s

/-- The queued stores older than the oldest convoy leave before it issues, those of a handler that has returned among them, so that
what stays in the queue is younger than every element the convoy reads or writes (03 R61; 07 R183). -/
def State.storesBefore (s : State) : State :=
  match s.th.fr.viq with
  | [] => s
  | v :: _ =>
    s.th.fr.storeQ.foldl (fun t e =>
      if t.th.fr.storeQ.head? = some e ∧ (e.atM ∨ e.seq < v.seq) then t.leaveHead else t) s

/-- Whether a queued store is older than the oldest convoy, which then waits for it (03 R61; 07 R179). -/
def State.storesLeft (s : State) : Bool :=
  match s.th.fr.viq with
  | [] => false
  | v :: _ => s.th.fr.storeQ.any fun e => e.atM || e.seq < v.seq

/-- Issue the oldest convoy of the VIQ, each member up to a limit of groups, and take its fault if it has one
(05 R119, R121). -/
def State.issueConvoy (lim : Limit) (s0 : State) : State × Settled :=
  let s := s0.storesBefore
  let c := splitConvoy s.th.fr.viq
  let vcp := s.vcp
  let a := runMembers lim (fun _ => false) vcp c.1.length 0 c.1 (ConvoyRun.start s)
  if s.storesLeft then (s, .blocked)
  else
    match faultPoint a.stops with
    | none =>
      (a.st.onFr fun f => { f with viq := a.ran ++ c.2 }, if a.full then .done else .blocked)
    | some (f, k, x) =>
      let b := runMembers (s.faultLimit c.1 a f k x.group lim) (a.hadIssued f) vcp c.1.length 0 c.1 (ConvoyRun.start s)
      let y := ((b.stops.find? fun z => z.member = k).map fun z => z.stop).getD x
      (b.st.convoyFault b.ran k y, .stopped)

/-- Retire the oldest convoy when every member is complete (05 R119). -/
def State.retireFront (s : State) : State :=
  let c := splitConvoy s.th.fr.viq
  if c.1 ≠ [] ∧ c.1.all (·.complete) then s.retireConvoy c.1 c.2 else s

/-- Run the closed convoys of the VIQ in order until none is left, one waits, or one faults. -/
def State.runClosed : Nat → State → State × Settled
  | 0, s => (s, .blocked)
  | n + 1, s =>
    let c := splitConvoy s.th.fr.viq
    if c.1 = [] then (s, .done)
    else if s.th.fr.chainOpen ∧ c.2 = [] then (s, .blocked)
    else
      match s.issueConvoy noLimit with
      | (t, .done) => State.runClosed n t.retireFront
      | r => r

/-- Wait until every older VIQ word has retired: run-ahead work is completed here when the model is prompt, and otherwise
comes as events (03 R64; DESIGN CHOICE, log 6). A parked convoy is no older word (12 R350); a stepq that awaits its release is one
(11 R321). -/
def State.settle (s : State) : State × Settled :=
  if s.inLanes = [] then (s, if s.th.fr.stepq.isSome then .blocked else .done)
  else
    let s1 := s.closeChain
    let r : State × Settled := if s1.prompt then s1.runClosed (s1.th.fr.viq.length + 1) else (s1, .blocked)
    if r.2 = .done && r.1.th.fr.stepq.isSome then (r.1, .blocked) else r

/-- A scalar word's own fault with an index and flags: it waits until every older VIQ word has retired or faulted
(03 R64). -/
def State.frontStop (c : ExcCause) (idx : Word) (flg : Flags) (s : State) : State :=
  match s.settle with
  | (t, .done) => t.takeException c idx t.th.fr.spc t.th.fr.spc flg false
  | (t, _) => t

/-- A scalar word's own fault, with index "−" (03 R64). -/
def State.frontFault (c : ExcCause) (s : State) : State := s.frontStop c noIndex 0

/-- The bytes from the lowest to the highest address that a bounded writer can write, as the front computes them at dispatch from
what the word carries and its copy of tm; none of any other word (03 R62; 08 R231). An etype 14 element counts as a byte. -/
def writeRange (e : VEntry) (tm : Nat) : Option (Word × Nat) :=
  let sz := e.w.ety.fixedBits / 8
  let base := if e.op = 0x44 ∧ e.w.ch = 1 then e.sc else e.sc + BitVec.ofInt 64 (offOf e * sz)
  let rows := fun (n row : Nat) (pitch : Int) =>
    let d : Int := pitch * ((n : Int) - 1)
    if n = 0 then some (base, 0) else some (base + BitVec.ofInt 64 (min 0 d), d.natAbs + row)
  match e.op with
  | 0x44 => if e.w.grp = 1 then none else some (base, e.vl * sz)
  | 0x45 => rows e.vl sz e.sb.toInt
  | 0x55 => rows tm (e.vl * sz) (if e.w.vb = 0 then ((e.vl * sz : Nat) : Int) else e.sb.toInt)
  | _ => none

/-- An entry with its range of writes (03 R62). -/
def VEntry.ranged (e : VEntry) (tm : Nat) : VEntry := { e with range := writeRange e tm }

/-! ### Sending -/

/-- A word that needs an entry of the history buffer or of the store queue waits while the 64 or 16 entries are in use: the state `s`
before the word stays, where `t` after it would hold more (01 R15; 03 R60, R61). -/
def State.orWait (s t : State) : State :=
  if (64 < t.th.fr.hist.length ∧ s.th.fr.hist.length < t.th.fr.hist.length) ∨
      (16 < t.th.fr.storeQ.length ∧ s.th.fr.storeQ.length < t.th.fr.storeQ.length) then s
  else t

/-- The majors whose fields all name scalar registers (10 R297; 11 R312). -/
def scalarFields (op : Nat) : Bool := op = 0x69 || op = 0x70 || op = 0x73

/-- The checks of R43 that rest on the thread: the grants of R16, and the bound of R42 on ridx for etype 0 to 13. -/
def State.threadOk (s : State) (op : Nat) (w : VWord) : Bool :=
  let tr := (0x50 ≤ op && op ≤ 0x57) || op = 0x7B || (op = 0x7A && w.fnBits 4 1 = 1)
  let br := 0x58 ≤ op && op ≤ 0x5E
  (!tr || s.th.bind.tg) && (!br || s.th.bind.bg) &&
    (w.ety = .fmt || repFits w (vlmax s.width (s.th.ln.bits 0 w.ety)))

/-- An entry for a word about to be sent: the scalars it carries (02 R40; 10 R297), its address, and its place. -/
def State.newEntry (s : State) (op : Nat) (w : VWord) (slot : Slot) : VEntry :=
  let sf := scalarFields op
  { seq := s.th.fr.seq + 1, addr := s.th.fr.spc, after := 0, op := op, w := w, slot := slot, sc := s.rd w.vc, sb := s.rd w.vb,
    x0 := if sf then s.rd w.va else 0, x1 := if op = 0x69 then s.rd w.vd else 0, x2 := if op = 0x69 then s.rd (w.vb + 1) else 0,
    vl := s.th.fr.copy.vl, vtype := 0, first := true, joined := false, issued := false, prog := 0, safe := false,
    complete := false, sampled := false, issuedAt := (0, 0), atM := s.th.fr.m.lvl, range := none,
    unit := 0, held := [], lines := [], active := 0, half := 0 }

/-- Append an entry; where its word goes next, `next`, stands before it (04 R88, R94), and a step word keeps zc0 and zc1 as they were
before it (11 R322). The convoy stays open while a word with C may be followed (02 R36). -/
def State.append (e : VEntry) (joined chain : Bool) (next : State → State) (s : State) : State :=
  let s1 := next s
  let zcs := if e.op = 0x73 then some s.th.fr.regs.zc else none
  let e' := { e with after := s1.th.fr.spc, joined := joined, zcs := zcs }.ranged s.th.fr.copy.tm
  let n := (lastConvoy (e' :: s1.th.fr.viq.reverse)).length
  let keepOpen := chain && n < 4 && e'.pipe ≠ .none && e'.pipe ≠ .xp
  let s2 := if chain && !keepOpen then s1.count 9 else s1
  s2.onFr fun f => { f with viq := f.viq ++ [e'], seq := e.seq, chainOpen := keepOpen }

/-- After a word is sent: a prompt model runs the convoys that are closed (DESIGN CHOICE, log 6). -/
def State.runAhead (s : State) : State :=
  if s.prompt then (s.runClosed (s.th.fr.viq.length + 1)).1 else s

/-- VIQ places in use; a stepq that has arrived keeps its place until its release (03 R56; 11 R321). -/
def State.viqUsed (s : State) : Nat := s.th.fr.viq.length + s.th.fr.stepq.toList.length

/-- Send an entry of a word: it joins the open convoy where it may; otherwise the open convoy closes first
(02 R36; 03 R56; 05 R118). The front's own part of the word, `front`, is done between (05 R107; 11 R336). -/
def State.sendEntry (op : Nat) (w : VWord) (front : State → VEntry → State × VEntry) (s : State) : State :=
  let join := s.th.fr.chainOpen && mayJoin s.th.fr.viq (s.newEntry op w .word)
  let s1 := if join then s else s.closeChain
  let r : State × Settled := if s1.prompt && !join then s1.runClosed (s1.th.fr.viq.length + 1) else (s1, .done)
  if r.2 = .stopped || 64 ≤ r.1.viqUsed then r.1
  else
    let t := front r.1 (r.1.newEntry op w .word)
    let u := t.1.append t.2 join w.chain (fun x => x.seqNext 8)
    let u1 := if laneToScalar op w then u.onFr fun f => { f with wait := .entry t.2.seq } else u
    u1.runAhead

/-- SENDING A WORD to the VIQ, with the checks the front makes (02 R43; 12 R351). -/
def State.sendWith (op : Nat) (w : VWord) (front : State → VEntry → State × VEntry) (s : State) : State :=
  if !s.threadOk op w then s.frontFault .illegal
  else if s.th.fr.m.lvl && s.th.fr.m.pk then s.frontFault .doubleFault
  else s.sendEntry op w front

/-- Sending a word in whose effect the front has no part. -/
def State.send (op : Nat) (w : VWord) (s : State) : State := s.sendWith op w fun t e => (t, e)

/-- The 32-bit word of an instruction as a number (02 R28). -/
def halfOf (i : Instr) : Nat := match encode i with | some (.w32 w) => w.toNat | _ => 0

/-- The word field of a one-slot entry, which holds none. -/
def noWord : VWord :=
  { form := .vv, mask := 0, chain := false, rsel := .none, rsz := 0, ridx := 0, ety := .i8, fn := 0, vd := 0, va := 0,
    vb := 0, vc := 0 }

/-- Send the one-slot entry of a 32-bit word after the front's own part, then go where `next` says; it never joins a convoy
(03 R74; 04 R94). -/
def State.sendSlot (slot : Slot) (half : Nat) (x : Word) (next front : State → State) (s : State) : State :=
  if s.th.fr.m.lvl && s.th.fr.m.pk then s.frontFault .doubleFault
  else
    let s1 := s.closeChain
    let r : State × Settled := if s1.prompt then s1.runClosed (s1.th.fr.viq.length + 1) else (s1, .done)
    if r.2 = .stopped || 64 ≤ r.1.viqUsed then r.1
    else
      let t := front r.1
      let e := { r.1.newEntry 0 noWord .word with slot := slot, sc := x, sb := r.1.th.fr.regs.sbase, half := half,
                                                      seq := t.th.fr.seq + 1 }
      (t.append e false false next).runAhead

end Sys2Proof.Machine
end

