-- ==== Sys2Proof/Machine/CtlRegs.lean ====
section
/-! DEFINITION. The control registers of Table 2.8: what a read gives, which fields a write may hold, and how mfc, mtc,
mfc.m and mtc.m meet them (spec/02 R48; 00 R5; 03 R74; 12 R355, R356). -/

namespace Sys2Proof.Machine

/-- A bit of a word as a number. -/
def bitNat (b : Bool) : Nat := if b then 1 else 0

/-- sstat (07 Table 7.6). -/
def State.sstatWord (s : State) : Word :=
  let t := s.th.st
  word (t.early * 2 ^ 32 + t.fill * 2 ^ 16 + bitNat t.uncs * 4 + bitNat t.unc * 2 + bitNat t.isOpen)

/-- vxflags (06 Table 6.9). -/
def State.vxflagsWord (s : State) : Word := word (s.th.ln.traps.toNat * 256 + s.th.ln.flags.toNat)

/-- cpstat; a paused command holds no slot (10 Table 10.17, R303). -/
def State.cpstatWord (s : State) : Word :=
  let held := (s.copies.filter fun c => c.core = s.th.bind.coreNo && !c.paused).length
  word (bitNat s.th.ln.cpErr * 2 ^ 16 + (16 - held) * 256 + s.copiesOut)

/-- fscN (11 Table 11.9). -/
def Stream.status (t : Stream) : Word :=
  let fill := if t.send then (t.stage.map fun c => c.bytes.length).sum else t.rx.length
  word (wrap 24 t.offset * 2 ^ 32 + fill * 2 ^ 16 + bitNat t.lost * 64 + t.comm * 4 + bitNat t.send * 2 + bitNat t.bound)

/-- mstat (12 Table 12.2). -/
def MRegs.mstat (m : MRegs) : Word :=
  word (bitNat m.preq.isSome * 16 + bitNat m.dbg * 8 + bitNat m.lane * 4 + bitNat m.pk * 2 + bitNat m.lvl)

/-- mctx (12 Table 12.3). -/
def Bind.mctx (b : Bind) : Word :=
  word (b.slot * 2 ^ 42 + b.core * 2 ^ 36 + b.die * 2 ^ 34 + bitNat b.bg * 2 ^ 33 + bitNat b.tg * 2 ^ 32 + b.wc * 2 ^ 30
    + b.key * 2 ^ 20 + bitNat b.conf * 2 ^ 19 + b.res * 2 ^ 16 + b.ctx)

/-- fver (12 Table 12.12). -/
def State.fverWord (s : State) : Word :=
  word (Config.fverCap * 2 ^ 32 + min 65535 (Config.fverFw + s.th.fr.regs.fverUp) * 2 ^ 16 + s.th.fr.regs.fverGen.toNat)

/-- smplcnt (12 Table 12.14). -/
def FrontRegs.smplcnt (r : FrontRegs) : Word := word (r.lost.toNat * 2 ^ 32 + r.next.toNat)

/-- How mfc and mtc reach a register (03 Table 3.7); `m` the registers of M level (12 R355). -/
inductive CrClass where
  | front | immediate | lane | m
  deriving DecidableEq, Repr

/-- The class of a register number; a number that Table 2.8 does not list has none (02 R48; 03 Table 3.7). -/
def crClass (n : Nat) : Option CrClass :=
  if n = 0x012 || n = 0x015 || (0x040 ≤ n && n ≤ 0x045) || n = 0x072 || n = 0x0A1 || n = 0x300 || n = 0x302 then some .front
  else if n = 0x0A0 || n = 0x0B0 || n = 0x301 then some .immediate
  else if n = 0x010 || n = 0x011 || n = 0x013 || n = 0x014 || n = 0x016 || (0x050 ≤ n && n ≤ 0x054) || n = 0x060 || n = 0x061
    || n = 0x070 || n = 0x071 || (0x200 ≤ n && n ≤ 0x204) || (0x208 ≤ n && n ≤ 0x20F) then some .lane
  else if 0x800 ≤ n && n ≤ 0x806 then some .m
  else none

/-- The value of a register of the thread; the Truss registers read zero without the grant (02 Table 2.8; 08). -/
def State.crValue (s : State) (n : Nat) : Word :=
  let t := s.th
  let r := t.fr.regs
  let truss := fun (x : Word) => if t.bind.tg then x else 0
  match n with
  | 0x010 => word t.ln.vl
  | 0x011 => word t.ln.vtype.toNat
  | 0x012 => r.sbase
  | 0x013 => s.sstatWord
  | 0x014 => t.ln.efc.setWidth 64
  | 0x015 => r.smbc
  | 0x016 => s.vxflagsWord
  | 0x040 => vecGet r.zs 0 0
  | 0x041 => vecGet r.ze 0 0
  | 0x042 => vecGet r.zc 0 0
  | 0x043 => vecGet r.zs 1 0
  | 0x044 => vecGet r.ze 1 0
  | 0x045 => vecGet r.zc 1 0
  | 0x050 => truss t.tr.mvl
  | 0x051 => truss (word t.tr.tm)
  | 0x052 => truss (word t.tr.tn)
  | 0x053 => truss (word t.tr.tk)
  | 0x054 => truss (t.tr.mcfg.setWidth 64)
  | 0x060 => t.br.bcfg
  | 0x061 => t.br.bstat
  | 0x070 => s.cpstatWord
  | 0x071 => t.ln.win.cfg
  | 0x072 => r.ptag
  | 0x0A0 => s.gtime
  | 0x0A1 => r.dline
  | 0x0B0 => s.fverWord
  | 0x200 => t.fab.cgrp
  | 0x201 => t.fab.cop
  | 0x202 => t.fab.cstride
  | 0x203 => t.fab.cchunk
  | 0x204 => t.fab.stepstat
  | 0x300 => r.smplcfg
  | 0x301 => r.smplcnt
  | 0x302 => r.trccfg
  | 0x800 => t.fr.m.mstat
  | 0x801 => t.fr.m.mcause
  | 0x802 => t.fr.m.mspc
  | 0x803 => t.fr.m.mvcp
  | 0x804 => word (t.bind.handler.toNat / 4 * 4)
  | 0x805 => t.fr.m.mindex
  | 0x806 => t.bind.mctx
  | _ => if 0x208 ≤ n ∧ n ≤ 0x20F then (vecGet t.fab.fs (n - 0x208) .reset).status else 0

/-- The RS bits of a register that mtc writes; a register it does not write has none (00 R5; 04, 06, 07, 10, 11, 12). -/
def crReserved (n : Nat) : Word :=
  match n with
  | 0x013 => 0xFFFF0000F800FFF8#64
  | 0x014 => 0xFFFFFFFF00000000#64
  | 0x016 => 0xFFFFFFFFFFFFC0C0#64
  | 0x040 | 0x041 | 0x043 | 0x044 | 0x802 => 3#64
  | 0x042 | 0x045 => 0xFFFC000000000000#64
  | 0x060 => 0xFFFFFFFFFFFFFFFE#64
  | 0x072 => 0x000000000000FFF0#64
  | 0x200 | 0x201 | 0x302 => 0xFFFFFFFFFFFFFFF0#64
  | 0x300 => 0xFFFFFFFF000000FE#64
  | _ => 0#64

/-- Whether an mtc from U changes a lane register, and so enters the VIQ (03 R74; 02 Table 2.8). -/
def mtcSends (n : Nat) : Bool :=
  n = 0x013 || n = 0x014 || n = 0x016 || n = 0x060 || (0x200 ≤ n && n ≤ 0x203)

/-- A logged write of a front register by mtc (03 R60, R74; 12 R374). (DEDUCED, log 36.) -/
def State.mtcFront (n : Nat) (x : Word) (s : State) : State :=
  let r := s.th.fr.regs
  match n with
  | 0x040 => (s.log (.zs false) (vecGet r.zs 0 0)).onRegs fun r => { r with zs := vecSet r.zs 0 x }
  | 0x041 => (s.log (.ze false) (vecGet r.ze 0 0)).onRegs fun r => { r with ze := vecSet r.ze 0 x }
  | 0x042 => (s.log (.zc false) (vecGet r.zc 0 0)).onRegs fun r => { r with zc := vecSet r.zc 0 x }
  | 0x043 => (s.log (.zs true) (vecGet r.zs 1 0)).onRegs fun r => { r with zs := vecSet r.zs 1 x }
  | 0x044 => (s.log (.ze true) (vecGet r.ze 1 0)).onRegs fun r => { r with ze := vecSet r.ze 1 x }
  | 0x045 => (s.log (.zc true) (vecGet r.zc 1 0)).onRegs fun r => { r with zc := vecSet r.zc 1 x }
  | 0x072 => (s.log .ptag r.ptag).onRegs fun r => { r with ptag := putBits r.ptag 0 4 x.toNat }
  | 0x300 =>
    ((s.log .smplcfg r.smplcfg).log .next (r.next.setWidth 64)).onRegs fun r =>
      { r with smplcfg := x, next := BitVec.ofNat 24 (bitsOf x 31 8) }
  | 0x302 => (s.log .trccfg r.trccfg).onRegs fun r => { r with trccfg := x }
  | _ => s

/-- An mtc of a front register, then the next word; a loop set that it activates is active from the next word fetched, so that the
arrival there is not yet tested against it (04 R86, R88). -/
def State.mtcFrontNext (n : Nat) (x : Word) (s : State) : State :=
  if (n = 0x042 ∧ !zcA (s.zc false)) ∨ (n = 0x045 ∧ !zcA (s.zc true)) then (s.seqNext 4).mtcFront n x
  else (s.mtcFront n x).seqNext 4

/-- What the front's copies take when it sends an mtc of a lane register (06 R150; 11 R335). -/
def State.mtcCopies (n : Nat) (x : Word) (s : State) : State :=
  match n with
  | 0x016 => (s.log .traps (s.th.fr.copy.traps.setWidth 64)).onCopy fun c => { c with traps := (x >>> 8).setWidth 6 }
  | 0x202 => (s.log .stride s.th.fr.copy.stride).onCopy fun c => { c with stride := x }
  | 0x203 => (s.log .chunk s.th.fr.copy.chunk).onCopy fun c => { c with chunk := x }
  | _ => s

/-- A read of a control register into s[d]: front and immediate registers at once, a lane register once every older VIQ
word has retired, and stepstat only once a stepq is released (03 R74; 11 R321). -/
def State.readCr (d : RegNo) (n : Nat) (s : State) : State :=
  match crClass n with
  | none => s.frontFault .illegal
  | some .lane =>
    match s.settle with
    | (t, .done) => if n = 0x204 ∧ t.pending then t else (t.wr d (t.crValue n)).seqNext 4
    | (t, _) => t
  | some _ => (s.wr d (s.crValue n)).seqNext 4

/-- A write of a control register by a 32-bit word under the field types of R5 (03 R74). -/
def State.writeCr (half : Nat) (x : Word) (n : Nat) (s : State) : State :=
  match crClass n with
  | none => s.frontFault .illegal
  | some .lane =>
    if !mtcSends n then s.seqNext 4
    else if x &&& crReserved n ≠ 0 then s.frontFault .illegal
    else s.sendSlot (.mtc n) half x (fun t => t.seqNext 4) (fun t => t.mtcCopies n x)
  | some .m =>
    if n = 0x802 then
      if x &&& crReserved n ≠ 0 then s.frontFault .illegal else (s.onM fun m => { m with mspc := x }).seqNext 4
    else s.seqNext 4
  | some _ => if x &&& crReserved n ≠ 0 then s.frontFault .illegal else s.mtcFrontNext n x

/-! ### mtc.m -/

/-- The element size code in force at the front: of the youngest entry in the VIQ that sets it, else the lanes'
(05 R107 to R109). -/
def State.frontEsz (s : State) : Nat :=
  let z := s.th.fr.viq.reverse.findSome? fun e =>
    match e.slot with
    | .word => if e.op = 0x78 ∧ e.w.key < 5 then some e.w.key else none
    | .mtc n => if n = 0x011 then some (bitsOf e.sc 2 0) else none
    | .commit _ => none
  z.getD (vtEsz s.th.ln.vtype)

/-- A slot of smbc that smbcfg could have written (04 R93). -/
def smbcSlotOk (x : Word) (j : Nat) : Bool :=
  let sz := bitsOf x (16 * j + 8) (16 * j + 6)
  bitsOf x (16 * j + 15) (16 * j + 9) = 0 && sz ≤ 5 && !(sz ≠ 0 && bitsOf x (16 * j + 5) (16 * j) = 0)

/-- A value of mcfg that mmode could have written (08 R214). -/
def mcfgOk (x : Word) : Bool :=
  bitsOf x 63 7 = 0 && bitsOf x 1 0 ≠ 3 && bitsOf x 5 4 ≠ 3 && !(bitsOf x 3 2 ≠ 0 && bitsOf x 5 4 ≠ 0)
    && !(bitsOf x 1 0 = 2 && bitsOf x 6 6 = 1)

/-- A value of accwcfg that accrel leaves, or that accw would: one of the types of Table 10.5, 1 to 1,024 elements, and the spare slots
that they take within the thread's allowance less 16 (10 R275 to R277). -/
def accwcfgOk (allowance : Nat) (x : Word) : Bool :=
  x = 0 ||
    match EType.ofCode (bitsOf x 6 3) with
    | none => false
    | some t =>
      let n := bitsOf x 18 8
      bitsOf x 63 23 = 0 && bitsOf x 19 19 = 0 && bitsOf x 7 7 = 0 && bitsOf x 2 1 ≠ 3 && bitsOf x 0 0 = 1 && t.isAmo && 0 < n
        && n ≤ 1024 && bitsOf x 22 20 = ceilDiv (n * (t.fixedBits / 8)) 2048 && bitsOf x 22 20 + 16 ≤ allowance

/-- Whether mtc.m accepts a value: one that the register's own instruction could have left in it (12 R356).
(DEDUCED, log 37.) -/
def State.mtcmOk (s : State) (n : Nat) (x : Word) : Bool :=
  match n with
  | 0x010 => x.toNat ≤ vlmax s.width (sizeOf s.frontEsz)
  | 0x011 => bitsOf x 63 10 = 0 && bitsOf x 8 6 ≤ 4 && bitsOf x 2 0 ≤ 4
  | 0x015 => smbcSlotOk x 0 && smbcSlotOk x 1 && smbcSlotOk x 2 && smbcSlotOk x 3
  | 0x050 => bitsOf x 63 32 = 0
  | 0x051 | 0x052 => x.toNat ≤ 128
  | 0x053 => x.toNat ≤ s.th.fr.copy.kmax
  | 0x054 => mcfgOk x
  | 0x071 => accwcfgOk s.th.bind.slots x
  | _ => true

/-- The lane registers that only mtc.m writes (12 R356). -/
def mtcmSends (n : Nat) : Bool := n = 0x010 || n = 0x011 || (0x050 ≤ n && n ≤ 0x054) || n = 0x071

/-- What the front's copies take from an mtc.m of a lane register (05 R107; 08 R214; 12 R356). -/
def State.mtcmCopies (n : Nat) (x : Word) (s : State) : State :=
  match n with
  | 0x010 => (s.log .vlCopy (word s.th.fr.copy.vl)).onCopy fun c => { c with vl := x.toNat }
  | 0x050 | 0x054 =>
    let c := s.th.fr.copy
    (s.log .mcfg (word (c.mcfg.toNat + c.kmax * 2 ^ 32))).onCopy fun c =>
      if n = 0x050 then { c with kmax := bitsOf x 15 0 } else { c with mcfg := x.setWidth 7 }
  | 0x051 => (s.log .tmCopy (word s.th.fr.copy.tm)).onCopy fun c => { c with tm := x.toNat }
  | _ => s

/-- mtc.m, which is M only: the registers of R356 as if they were RW, with DoubleFault for a value their own instruction
would refuse; every other register as mtc (12 R356). -/
def State.writeCrM (half : Nat) (x : Word) (n : Nat) (s : State) : State :=
  if !s.mtcmOk n x then s.frontFault .doubleFault
  else if mtcmSends n then s.sendSlot (.mtc n) half x (fun t => t.seqNext 4) (fun t => t.mtcmCopies n x)
  else
    match n with
    | 0x012 => ((s.log .sbase s.th.fr.regs.sbase).onRegs fun r => { r with sbase := x }).seqNext 4
    | 0x015 => ((s.log .smbc s.th.fr.regs.smbc).onRegs fun r => { r with smbc := x }).seqNext 4
    | 0x0A1 =>
      ((s.log .dline s.th.fr.regs.dline).onRegs fun r => { r with dline := if x ≤ r.dline then x else r.dline }).seqNext 4
    | _ => s.writeCr half x n

end Sys2Proof.Machine
end

