-- ==== Sys2Proof/Machine/Scalar.lean ====
section
/-! DEFINITION. The scalar words: integer and floating-point operations, loads and stores, mfc and mtc
(spec/03_scalar_instructions.md R55 to R80; 04 R96, R98 for a word that runs in a lane). -/

namespace Sys2Proof.Machine

/-! ### Shared by the scalar words -/

/-- Go on after a word of n bytes; in a lane only its PC moves (04 R88, R96). -/
def State.advance (n : Nat) (s : State) : State :=
  match s.th.fr.curLane with
  | some _ => s.onFr fun f => { f with spc := f.spc + word n }
  | none => s.seqNext n

/-- The fault of a scalar word: in a lane it stops every lane, with the lane's PC, the lsplit's address and the lane's
number (03 R64; 04 R99; 12 R349). -/
def State.scalarFault (c : ExcCause) (idx : Word) (flg : Flags) (s : State) : State :=
  match s.th.fr.curLane, s.th.fr.lanes with
  | some j, some l => s.takeException c (word j) s.th.fr.spc l.origin flg true
  | _, _ => s.frontStop c idx flg

/-- Write s[d] and raise flags with it; at the front both stand in one history entry (03 R60). -/
def State.wrFlags (d : RegNo) (x : Word) (fl : Flags) (s : State) : State :=
  if fl = 0 then s.wr d x
  else if s.unsafeOlder ∧ s.th.fr.curLane.isNone ∧ d ≠ 0 then
    s.onFr fun f => { f with
      hist := f.hist ++ [{ reg := .s d, old := vecGet f.s d.toNat 0, flags := fl, seq := f.seq }]
      s := vecSet f.s d.toNat x }
  else (s.raiseFlags fl).wr d x

/-- A register result without flags. -/
def State.result (d : RegNo) (x : Word) (s : State) : State := (s.wr d x).advance 4

/-- A register result with flags: a flag whose trap is enabled raises Arithmetic and nothing is written (03 R75). -/
def State.resultFlags (d : RegNo) (x : Word) (fl : Flags) (s : State) : State :=
  if s.trapped fl ≠ 0 then s.scalarFault .arithmetic noIndex (s.trapped fl)
  else (s.wrFlags d x fl).advance 4

/-- A result of two scalar operands. -/
def State.alu2 (f : Word → Word → Word) (d a b : RegNo) (s : State) : State := s.result d (f (s.rd a) (s.rd b))

/-- A result of one scalar operand. -/
def State.alu1 (f : Word → Word) (d a : RegNo) (s : State) : State := s.result d (f (s.rd a))

/-- A result of a scalar operand and k = Sext(imm13, 13) (03 R68). -/
def State.aluK (f : Word → Word → Word) (d a : RegNo) (i : BitVec 13) (s : State) : State :=
  s.result d (f (s.rd a) (i.signExtend 64))

/-- 1 or 0 (03 Table 3.3). -/
def flagWord (b : Bool) : Word := if b then 1 else 0

/-! ### Integer functions -/

/-- A shift amount: bits [5:0] (03 R66). -/
def shOf (b : Word) : Nat := b.toNat % 64

/-- The number of leading zero bits among the low n bits of a number (03 Table 3.3). -/
def leadingZeros (x : Nat) : Nat → Nat
  | 0 => 0
  | n + 1 => if x.testBit n then 0 else leadingZeros x n + 1

/-- The number of trailing zero bits of a number, at most n (03 Table 3.3). -/
def trailingZeros (x : Nat) : Nat → Nat
  | 0 => 0
  | n + 1 => if x % 2 = 1 then 0 else trailingZeros (x / 2) n + 1

/-- The number of one bits among the low n bits of a number (03 Table 3.3). -/
def onesCount (x : Nat) : Nat → Nat
  | 0 => 0
  | n + 1 => x % 2 + onesCount (x / 2) n

/-- A division or remainder: a zero divisor sets DZ (03 R67, Table 3.4). -/
def State.divide (f : Word → Word → Word) (d a b : RegNo) (s : State) : State :=
  s.resultFlags d (f (s.rd a) (s.rd b)) (if s.rd b = 0 then fDZ else 0)

/-- The signed quotient, −1 where the divisor is zero (03 Table 3.4). -/
def divSigned (x y : Word) : Word := if y = 0 then BitVec.allOnes 64 else BitVec.ofInt 64 (x.toInt.tdiv y.toInt)
/-- The unsigned quotient, 2^64 − 1 where the divisor is zero (03 Table 3.4). -/
def divUnsigned (x y : Word) : Word := if y = 0 then BitVec.allOnes 64 else word (x.toNat / y.toNat)
/-- The signed remainder, the dividend where the divisor is zero (03 Table 3.4). -/
def remSigned (x y : Word) : Word := if y = 0 then x else BitVec.ofInt 64 (x.toInt.tmod y.toInt)
/-- The unsigned remainder, the dividend where the divisor is zero (03 Table 3.4). -/
def remUnsigned (x y : Word) : Word := if y = 0 then x else word (x.toNat % y.toNat)

/-! ### Memory -/

/-- The cluster whose TLB and strip store buffer a scalar word uses: the lowest one, or its lane's own
(07 R177; 04 R98). -/
def State.scalarCluster (s : State) : Nat := match s.th.fr.curLane with | some j => j / 8 | none => 0

/-- The checks of a scalar access in the order of R71, with the sync window of R281 and R282 and the DS rules of R308: the physical
address and the page kind (03; 10; 11). -/
def State.scalarCheck (s : State) (va : Word) (n : Nat) (acc : Access) : State × Except ExcCause (Nat × Nat) :=
  match (s.dsFirst s.scalarCluster va n false acc).or (if va.toNat % n ≠ 0 then some .misaligned else none) with
  | some c => (s, .error c)
  | none =>
    match s.xlate s.scalarCluster va acc with
    | .error c => (s, .error c)
    | .ok x =>
      match x.st.target x.st.th.bind.ctx x.pa with
      | .sync _ k _ =>
        (x.st, if n ≠ 8 then .error .machineCheck else if x.st.ownsSync k then .ok (x.pa, 1) else .error .pageFault)
      | _ =>
        match x.st.placeCheck (spanBytes x.pa x.kind n) with
        | .error c => (x.st, .error c)
        | .ok _ => (x.st, .ok (x.pa, x.kind))

/-- Whether n bytes at an address meet a range of bytes. -/
def meetsRange (va : Word) (n : Nat) (r : Word × Nat) : Bool :=
  (va - r.1).toNat < r.2 || (0 < r.2 && (r.1 - va).toNat < n)

/-- A writer of memory that is not fault-safe holds a younger scalar load: a bounded writer one that meets its range, any other
writer every one (03 R62). -/
def VEntry.holdsLoad (e : VEntry) (va : Word) (n : Nat) : Bool :=
  e.slot = .word && !e.safe &&
    (([0x44, 0x45, 0x46, 0x47, 0x48, 0x55, 0x62, 0x69, 0x72].contains e.op && (e.range.map (meetsRange va n)).getD true)
      || (e.op = 0x63 && e.w.fnFN = 2) || (e.op = 0x58 && e.w.fnBits 10 2 = 2))

/-- Whether a scalar load of n bytes waits: for the writers of R62 and the acquires of R182, on a UO page too, since the acquire clears
the cache that the load would read (03 R58); on an SO page for every older access (07 R179), and never on a DS page (03 R62). -/
def State.loadWaits (s : State) (kind : Nat) (va : Word) (n : Nat) : Bool :=
  if s.th.fr.curLane.isSome || kind = 3 then false
  else if kind = 1 then s.inLanes ≠ [] || s.th.fr.storeQ.any (fun e => e.kind = 1)
  else s.inLanes.any fun e => e.holdsLoad va n || (e.acquiring && (kind = 0 || 1 ≤ e.w.scope))

/-- The byte a lane's load sees: its own cluster's strip store buffer, then memory (04 R98). -/
def State.laneByte (s : State) (cluster pa : Nat) : Byte :=
  match stripByte pa (s.th.st.entries.filter fun e => e.cluster = cluster) with
  | some (m, b) => mixNibbles m b (s.byteAt (s.cellOf pa))
  | none => s.byteAt (s.cellOf pa)

/-- A line of memory as the scalar data cache fills it (03 R58). -/
def State.lineAt (s : State) (line : Nat) : List Byte := s.bytesAt (line * 256) 256

/-- A load of the front that may hit the scalar data cache allocates its line, read through the L2; one that bypasses the cache
reads through the L2 (03 R58; 07 R168). -/
def State.dcacheTouch (pa kind : Nat) (s : State) : State :=
  if (kind = 0 || kind = 2) && pa < 2 ^ 40 then
    match cacheFind s.th.bind.coreNo s.th.bind.ctx (pa / 256) s.unc.dcache with
    | some _ => s
    | none =>
      let t := s.l2Read false (pa / 256 * 256) 256
      let r := cacheFill 1 8 16 t.th.bind.coreNo t.th.bind.ctx (pa / 256) (t.lineAt (pa / 256)) t.unc.rr t.unc.dcache
      t.onUnc fun u => { u with dcache := r.1, rr := r.2 }
  else s.l2Read false pa 1

/-- The byte of memory that a front's load sees behind its own stores: from a cached line where it holds one (03 R58). -/
def State.cachedByte (s : State) (pa kind : Nat) : Byte :=
  match (if (kind = 0 || kind = 2) && pa < 2 ^ 40 then
      cacheFind s.th.bind.coreNo s.th.bind.ctx (pa / 256) s.unc.dcache else none) with
  | some c => c.data.getD (pa % 256) blank
  | none => s.byteAt (s.cellOf pa)

/-- One byte of a front's load: the store queue, the strips, then the cache or memory; a DS page gives step-start state
(03 R61, R62, R72). -/
def State.frontByte (s : State) (kind pa : Nat) : Byte :=
  if kind = 3 then s.byteAt (s.cellOf pa)
  else
    match queueByte pa s.th.fr.storeQ with
    | some b => b
    | none =>
      match stripByte pa s.th.st.seen with
      | some (m, b) => mixNibbles m b (s.cachedByte pa kind)
      | none => s.cachedByte pa kind

/-- The value of a scalar load whose checks have passed (03 R70; 04 R98; 10 R282). -/
def State.loadValue (s : State) (pa kind n : Nat) : Nat :=
  match s.target s.th.bind.ctx pa with
  | .sync die k _ =>
    let home := leBytes 8 (s.syncGet die k).toNat
    leNat ((List.range 8).map fun i => (queueByte (pa + i) s.th.fr.storeQ).getD
      (match stripByte (pa + i) s.th.st.seen with | some (_, b) => b | none => home.getD i blank))
  | _ =>
    leNat ((List.range n).map fun i =>
      if s.th.fr.curLane.isSome && kind ≠ 3 then s.laneByte s.scalarCluster (pa + i) else s.frontByte kind (pa + i))

/-- Whether a byte of a scalar load comes from memory, not from the thread's own stores (03 R61, R62; 04 R98). -/
def State.loadsMemory (s : State) (kind pa : Nat) : Bool :=
  if kind = 3 then true
  else if s.th.fr.curLane.isSome then
    ((stripByte pa (s.th.st.entries.filter fun e => e.cluster = s.scalarCluster)).map (·.1)).getD 0 ≠ 3
  else (queueByte pa s.th.fr.storeQ).isNone && s.fromMemory pa

/-- Whether a scalar load reads poisoned data (07 R192; 03 R71). -/
def State.loadPoison (s : State) (pa kind n : Nat) : Bool :=
  match s.target s.th.bind.ctx pa with
  | .cell _ => (List.range n).any fun i => s.loadsMemory kind (pa + i) && s.poisoned (s.cellOf (pa + i))
  | _ => false

/-- The index a scalar fault reports: "−", but 0 for Skew (03 R71; 11 R322). -/
def faultIndex (c : ExcCause) : Word := if c = .skew then 0 else noIndex

/-- A LOAD of n bytes into s[d], its value extended by `ext` (03 R70 to R72). -/
def State.load (n : Nat) (ext : Nat → Word) (d a : RegNo) (i : BitVec 13) (s : State) : State :=
  match s.scalarCheck (addOffset (s.rd a) i) n .read with
  | (t, .error .preemption) => t
  | (t, .error c) => t.scalarFault c (faultIndex c) 0
  | (t, .ok (pa, kind)) =>
    if t.loadWaits kind (addOffset (t.rd a) i) n then
      match t.settle with
      | (u, .done) => u.leaveStores
      | (u, _) => u
    else
      let u := if kind = 1 then t.soGate 1 else t
      if u.soWaits kind then u
      else if u.loadPoison pa kind n then u.scalarFault .poison noIndex 0
      else
        let x := ext (u.loadValue pa kind n)
        ((if u.th.fr.curLane.isSome then u.l2Read false (u.cellOf pa) n else u.dcacheTouch pa kind).wr d x).advance 4

/-- A sign extension of n bytes. -/
def signBytes (n x : Nat) : Word := BitVec.ofInt 64 (sext (8 * n) x)

/-- A scalar store at the front takes an entry of the store queue (03 R61). -/
def State.enqueue (pa kind : Nat) (bs : List Byte) (s : State) : State :=
  let e : StoreEntry :=
    { pa := pa, bytes := bs, kind := kind, seq := s.th.fr.seq, order := if kind = 3 then s.scalarOrder else 0, atM := s.th.fr.m.lvl }
  ((s.countDs kind).onFr fun f => { f with storeQ := f.storeQ ++ [e] }).leaveStores

/-- A lane's store enters its cluster's strip store buffer, or waits for entries that drain (04 R98; 07 R184 to R187). -/
def State.laneStore (pa kind : Nat) (bs : List Byte) (s : State) : State :=
  let ws : List ElemWrite :=
    [{ index := 0, cluster := s.scalarCluster, bytes := spanBytes pa kind bs.length, value := bs, mark := 3,
       order := s.scalarOrder }]
  let t := (if kind = 1 then s.soGate 1 else s).enterGroup ws false false none
  if t.2 then (t.1.countDs kind).advance 4 else t.1

/-- A STORE of the low n bytes of s[b] (03 R70 to R72). -/
def State.store (n : Nat) (a b : RegNo) (i : BitVec 13) (s : State) : State :=
  match s.scalarCheck (addOffset (s.rd a) i) n .write with
  | (t, .error .preemption) => t
  | (t, .error c) => t.scalarFault c (faultIndex c) 0
  | (t, .ok (pa, kind)) =>
    let bs := leBytes n (t.rd b).toNat
    if t.th.fr.curLane.isSome then t.laneStore pa kind bs else (t.enqueue pa kind bs).advance 4

/-! ### Floating point -/

/-- A code and its flags as a register result. -/
def State.fpResult (d : RegNo) (r : Elt) (s : State) : State := s.resultFlags d (word r.1) r.2

/-- An operand as a format reads it: a whole register, or its low half (03 R57). -/
def State.fpIn (s : State) (f : Fmt) (r : RegNo) : Nat := (s.rd r).toNat % 2 ^ f.width

/-- A floating-point result of two operands. -/
def State.fp2 (f : Fmt) (op : Nat → Nat → Elt) (d a b : RegNo) (s : State) : State :=
  s.fpResult d (op (s.fpIn f a) (s.fpIn f b))

/-- A fused multiply-add with the destination as addend (03 R77). -/
def State.fpFma (f : Fmt) (np nc : Bool) (m : BitVec 3) (d a b : RegNo) (s : State) : State :=
  s.fpResult d (f.fmaReg m.toNat np nc (s.fpIn f a) (s.fpIn f b) (s.fpIn f d))

/-- A conversion from one format to another (03 R78; 06 R145, R147). -/
def cvtFp (f g : Fmt) (mode x : Nat) : Elt := g.round mode (f.decode x)

/-- A conversion to an integer of 64 bits (03 R78). -/
def State.cvtToInt (f : Fmt) (signed : Bool) (m : BitVec 3) (d a : RegNo) (s : State) : State :=
  s.fpResult d (toIntType m.toNat false signed 64 (f.decode (s.fpIn f a)))

/-- A conversion of an integer (03 R78). -/
def State.cvtOfInt (f : Fmt) (signed : Bool) (m : BitVec 3) (d a : RegNo) (s : State) : State :=
  s.fpResult d (f.ofInt m.toNat (if signed then (s.rd a).toInt else (s.rd a).toNat))

/-- A compare: NV for a signalling NaN, or with `quiet` for any NaN; 0 with a NaN (03 R79). -/
def fpCompare (f : Fmt) (R : FVal → FVal → Bool) (quiet : Bool) (x y : Nat) : Elt :=
  let a := f.decode x
  let b := f.decode y
  if a.isNan || b.isNan then (0, if quiet || a.isSig || b.isSig then fNV else 0)
  else (if R a b then 1 else 0, 0)

/-! ### The words -/


/-- add (03 R66, Table 3.3). -/
def execAdd (d a b : RegNo) (s : State) : Host.Outcome State Fault Refusal := .next (s.alu2 (fun x y => x + y) d a b)

/-- sub (03 R66, Table 3.3). -/
def execSub (d a b : RegNo) (s : State) : Host.Outcome State Fault Refusal := .next (s.alu2 (fun x y => x - y) d a b)

/-- and (03 R66, Table 3.3). -/
def execAnd (d a b : RegNo) (s : State) : Host.Outcome State Fault Refusal := .next (s.alu2 (fun x y => x &&& y) d a b)

/-- or (03 R66, Table 3.3). -/
def execOr (d a b : RegNo) (s : State) : Host.Outcome State Fault Refusal := .next (s.alu2 (fun x y => x ||| y) d a b)

/-- xor (03 R66, Table 3.3). -/
def execXor (d a b : RegNo) (s : State) : Host.Outcome State Fault Refusal := .next (s.alu2 (fun x y => x ^^^ y) d a b)

/-- andn (03 R66, Table 3.3). -/
def execAndn (d a b : RegNo) (s : State) : Host.Outcome State Fault Refusal := .next (s.alu2 (fun x y => x &&& ~~~y) d a b)

/-- sll (03 R66, Table 3.3). -/
def execSll (d a b : RegNo) (s : State) : Host.Outcome State Fault Refusal := .next (s.alu2 (fun x y => x <<< shOf y) d a b)

/-- srl (03 R66, Table 3.3). -/
def execSrl (d a b : RegNo) (s : State) : Host.Outcome State Fault Refusal := .next (s.alu2 (fun x y => x >>> shOf y) d a b)

/-- sra (03 R66, Table 3.3). -/
def execSra (d a b : RegNo) (s : State) : Host.Outcome State Fault Refusal := .next (s.alu2 (fun x y => x.sshiftRight (shOf y)) d a b)

/-- ror (03 R66, Table 3.3). -/
def execRor (d a b : RegNo) (s : State) : Host.Outcome State Fault Refusal := .next (s.alu2 (fun x y => x.rotateRight (shOf y)) d a b)

/-- slt (03 R66, Table 3.3). -/
def execSlt (d a b : RegNo) (s : State) : Host.Outcome State Fault Refusal := .next (s.alu2 (fun x y => flagWord (x.slt y)) d a b)

/-- sltn (03 R66, Table 3.3). -/
def execSltn (d a b : RegNo) (s : State) : Host.Outcome State Fault Refusal := .next (s.alu2 (fun x y => flagWord (x.ult y)) d a b)

/-- min (03 R66, Table 3.3). -/
def execMin (d a b : RegNo) (s : State) : Host.Outcome State Fault Refusal := .next (s.alu2 (fun x y => if x.slt y then x else y) d a b)

/-- max (03 R66, Table 3.3). -/
def execMax (d a b : RegNo) (s : State) : Host.Outcome State Fault Refusal := .next (s.alu2 (fun x y => if x.slt y then y else x) d a b)

/-- minn (03 R66, Table 3.3). -/
def execMinn (d a b : RegNo) (s : State) : Host.Outcome State Fault Refusal := .next (s.alu2 (fun x y => if x.ult y then x else y) d a b)

/-- maxn (03 R66, Table 3.3). -/
def execMaxn (d a b : RegNo) (s : State) : Host.Outcome State Fault Refusal := .next (s.alu2 (fun x y => if x.ult y then y else x) d a b)

/-- clz (03 R66, Table 3.3). -/
def execClz (d a : RegNo) (s : State) : Host.Outcome State Fault Refusal := .next (s.alu1 (fun x => word (leadingZeros x.toNat 64)) d a)

/-- ctz (03 R66, Table 3.3). -/
def execCtz (d a : RegNo) (s : State) : Host.Outcome State Fault Refusal := .next (s.alu1 (fun x => word (trailingZeros x.toNat 64)) d a)

/-- cpop (03 R66, Table 3.3). -/
def execCpop (d a : RegNo) (s : State) : Host.Outcome State Fault Refusal := .next (s.alu1 (fun x => word (onesCount x.toNat 64)) d a)

/-- mul (03 R67, Table 3.4). -/
def execMul (d a b : RegNo) (s : State) : Host.Outcome State Fault Refusal := .next (s.alu2 (fun x y => x * y) d a b)

/-- mulh (03 R67, Table 3.4). -/
def execMulh (d a b : RegNo) (s : State) : Host.Outcome State Fault Refusal := .next (s.alu2 (fun x y => BitVec.ofInt 64 (x.toInt * y.toInt / 2 ^ 64)) d a b)

/-- mulhn (03 R67, Table 3.4). -/
def execMulhn (d a b : RegNo) (s : State) : Host.Outcome State Fault Refusal := .next (s.alu2 (fun x y => word (x.toNat * y.toNat / 2 ^ 64)) d a b)

/-- div (03 R67, Table 3.4). -/
def execDiv (d a b : RegNo) (s : State) : Host.Outcome State Fault Refusal := .next (s.divide divSigned d a b)

/-- divn (03 R67, Table 3.4). -/
def execDivn (d a b : RegNo) (s : State) : Host.Outcome State Fault Refusal := .next (s.divide divUnsigned d a b)

/-- rem (03 R67, Table 3.4). -/
def execRem (d a b : RegNo) (s : State) : Host.Outcome State Fault Refusal := .next (s.divide remSigned d a b)

/-- remn (03 R67, Table 3.4). -/
def execRemn (d a b : RegNo) (s : State) : Host.Outcome State Fault Refusal := .next (s.divide remUnsigned d a b)

/-- addi (03 R68, Table 3.5). -/
def execAddi (d a : RegNo) (i : BitVec 13) (s : State) : Host.Outcome State Fault Refusal := .next (s.aluK (fun x k => x + k) d a i)

/-- andi (03 R68, Table 3.5). -/
def execAndi (d a : RegNo) (i : BitVec 13) (s : State) : Host.Outcome State Fault Refusal := .next (s.aluK (fun x k => x &&& k) d a i)

/-- ori (03 R68, Table 3.5). -/
def execOri (d a : RegNo) (i : BitVec 13) (s : State) : Host.Outcome State Fault Refusal := .next (s.aluK (fun x k => x ||| k) d a i)

/-- xori (03 R68, Table 3.5). -/
def execXori (d a : RegNo) (i : BitVec 13) (s : State) : Host.Outcome State Fault Refusal := .next (s.aluK (fun x k => x ^^^ k) d a i)

/-- slti (03 R68, Table 3.5). -/
def execSlti (d a : RegNo) (i : BitVec 13) (s : State) : Host.Outcome State Fault Refusal := .next (s.aluK (fun x k => flagWord (x.slt k)) d a i)

/-- sltin (03 R68, Table 3.5). -/
def execSltin (d a : RegNo) (i : BitVec 13) (s : State) : Host.Outcome State Fault Refusal := .next (s.aluK (fun x k => flagWord (x.ult k)) d a i)

/-- slli (03 R68, Table 3.5). -/
def execSlli (d a : RegNo) (n : BitVec 6) (s : State) : Host.Outcome State Fault Refusal := .next (s.alu1 (fun x => x <<< n.toNat) d a)

/-- srli (03 R68, Table 3.5). -/
def execSrli (d a : RegNo) (n : BitVec 6) (s : State) : Host.Outcome State Fault Refusal := .next (s.alu1 (fun x => x >>> n.toNat) d a)

/-- srai (03 R68, Table 3.5). -/
def execSrai (d a : RegNo) (n : BitVec 6) (s : State) : Host.Outcome State Fault Refusal := .next (s.alu1 (fun x => x.sshiftRight n.toNat) d a)

/-- lui (03 R69). -/
def execLui (d : RegNo) (i : BitVec 19) (s : State) : Host.Outcome State Fault Refusal := .next (s.result d (i.signExtend 64 <<< 13))

/-- addpc (03 R69). -/
def execAddpc (d : RegNo) (i : BitVec 19) (s : State) : Host.Outcome State Fault Refusal := .next (s.result d (s.th.fr.spc + (i.signExtend 64 <<< 13)))

/-- ld.i8 (03 R70 to R72, Table 3.6). -/
def execLdI8 (d a : RegNo) (i : BitVec 13) (s : State) : Host.Outcome State Fault Refusal := .next (s.load 1 (signBytes 1) d a i)

/-- ld.i16 (03 R70 to R72, Table 3.6). -/
def execLdI16 (d a : RegNo) (i : BitVec 13) (s : State) : Host.Outcome State Fault Refusal := .next (s.load 2 (signBytes 2) d a i)

/-- ld.i32 (03 R70 to R72, Table 3.6). -/
def execLdI32 (d a : RegNo) (i : BitVec 13) (s : State) : Host.Outcome State Fault Refusal := .next (s.load 4 (signBytes 4) d a i)

/-- ld.i64 (03 R70 to R72, Table 3.6). -/
def execLdI64 (d a : RegNo) (i : BitVec 13) (s : State) : Host.Outcome State Fault Refusal := .next (s.load 8 word d a i)

/-- ld.n8 (03 R70 to R72, Table 3.6). -/
def execLdN8 (d a : RegNo) (i : BitVec 13) (s : State) : Host.Outcome State Fault Refusal := .next (s.load 1 word d a i)

/-- ld.n16 (03 R70 to R72, Table 3.6). -/
def execLdN16 (d a : RegNo) (i : BitVec 13) (s : State) : Host.Outcome State Fault Refusal := .next (s.load 2 word d a i)

/-- ld.n32 (03 R70 to R72, Table 3.6). -/
def execLdN32 (d a : RegNo) (i : BitVec 13) (s : State) : Host.Outcome State Fault Refusal := .next (s.load 4 word d a i)

/-- st.i8 (03 R70 to R72, Table 3.6). -/
def execStI8 (a b : RegNo) (i : BitVec 13) (s : State) : Host.Outcome State Fault Refusal := .next (s.store 1 a b i)

/-- st.i16 (03 R70 to R72, Table 3.6). -/
def execStI16 (a b : RegNo) (i : BitVec 13) (s : State) : Host.Outcome State Fault Refusal := .next (s.store 2 a b i)

/-- st.i32 (03 R70 to R72, Table 3.6). -/
def execStI32 (a b : RegNo) (i : BitVec 13) (s : State) : Host.Outcome State Fault Refusal := .next (s.store 4 a b i)

/-- st.i64 (03 R70 to R72, Table 3.6). -/
def execStI64 (a b : RegNo) (i : BitVec 13) (s : State) : Host.Outcome State Fault Refusal := .next (s.store 8 a b i)

/-- mfc: numbers below 0x800 only (03 R74; 02 R48). -/
def execMfc (d : RegNo) (n : BitVec 12) (s : State) : Host.Outcome State Fault Refusal := .next (if n.toNat < 0x800 then s.readCr d n.toNat else s.frontFault .illegal)

/-- mtc: numbers below 0x800 only (03 R74; 02 R48). -/
def execMtc (a : RegNo) (n : BitVec 12) (s : State) : Host.Outcome State Fault Refusal := .next (if n.toNat < 0x800 then s.writeCr (halfOf (.mtc a n)) (s.rd a) n.toNat else s.frontFault .illegal)

/-- fadd.d (03 R75, R76). -/
def execFaddD (d a b : RegNo) (m : BitVec 3) (s : State) : Host.Outcome State Fault Refusal := .next (s.fp2 fp64 (fp64.add m.toNat) d a b)

/-- fsub.d (03 R75, R76). -/
def execFsubD (d a b : RegNo) (m : BitVec 3) (s : State) : Host.Outcome State Fault Refusal := .next (s.fp2 fp64 (fp64.sub m.toNat) d a b)

/-- fmul.d (03 R75, R76). -/
def execFmulD (d a b : RegNo) (m : BitVec 3) (s : State) : Host.Outcome State Fault Refusal := .next (s.fp2 fp64 (fp64.mul m.toNat) d a b)

/-- fdiv.d (03 R75, R76). -/
def execFdivD (d a b : RegNo) (m : BitVec 3) (s : State) : Host.Outcome State Fault Refusal := .next (s.fp2 fp64 (fp64.div m.toNat) d a b)

/-- fsqrt.d (03 R75, R76). -/
def execFsqrtD (d a : RegNo) (m : BitVec 3) (s : State) : Host.Outcome State Fault Refusal := .next (s.fpResult d (fp64.sqrt m.toNat (s.fpIn fp64 a)))

/-- fmin.d (03 R76). -/
def execFminD (d a b : RegNo) (s : State) : Host.Outcome State Fault Refusal := .next (s.fp2 fp64 (fp64.minMax true) d a b)

/-- fmax.d (03 R76). -/
def execFmaxD (d a b : RegNo) (s : State) : Host.Outcome State Fault Refusal := .next (s.fp2 fp64 (fp64.minMax false) d a b)

/-- fsign.c.d (03 R76). -/
def execFsignCD (d a b : RegNo) (s : State) : Host.Outcome State Fault Refusal := .next (s.fp2 fp64 (fun x y => (fp64.withSign x (fp64.negCode y), 0)) d a b)

/-- fsign.n.d (03 R76). -/
def execFsignND (d a b : RegNo) (s : State) : Host.Outcome State Fault Refusal := .next (s.fp2 fp64 (fun x y => (fp64.withSign x (!fp64.negCode y), 0)) d a b)

/-- fsign.x.d (03 R76). -/
def execFsignXD (d a b : RegNo) (s : State) : Host.Outcome State Fault Refusal := .next (s.fp2 fp64 (fun x y => (fp64.withSign x (fp64.negCode x ^^ fp64.negCode y), 0)) d a b)

/-- fmadd.d (03 R77). -/
def execFmaddD (d a b : RegNo) (m : BitVec 3) (s : State) : Host.Outcome State Fault Refusal := .next (s.fpFma fp64 false false m d a b)

/-- fmsub.d (03 R77). -/
def execFmsubD (d a b : RegNo) (m : BitVec 3) (s : State) : Host.Outcome State Fault Refusal := .next (s.fpFma fp64 false true m d a b)

/-- fnmadd.d (03 R77). -/
def execFnmaddD (d a b : RegNo) (m : BitVec 3) (s : State) : Host.Outcome State Fault Refusal := .next (s.fpFma fp64 true true m d a b)

/-- fnmsub.d (03 R77). -/
def execFnmsubD (d a b : RegNo) (m : BitVec 3) (s : State) : Host.Outcome State Fault Refusal := .next (s.fpFma fp64 true false m d a b)

/-- fadd.s (03 R75, R76). -/
def execFaddS (d a b : RegNo) (m : BitVec 3) (s : State) : Host.Outcome State Fault Refusal := .next (s.fp2 fp32 (fp32.add m.toNat) d a b)

/-- fsub.s (03 R75, R76). -/
def execFsubS (d a b : RegNo) (m : BitVec 3) (s : State) : Host.Outcome State Fault Refusal := .next (s.fp2 fp32 (fp32.sub m.toNat) d a b)

/-- fmul.s (03 R75, R76). -/
def execFmulS (d a b : RegNo) (m : BitVec 3) (s : State) : Host.Outcome State Fault Refusal := .next (s.fp2 fp32 (fp32.mul m.toNat) d a b)

/-- fdiv.s (03 R75, R76). -/
def execFdivS (d a b : RegNo) (m : BitVec 3) (s : State) : Host.Outcome State Fault Refusal := .next (s.fp2 fp32 (fp32.div m.toNat) d a b)

/-- fsqrt.s (03 R75, R76). -/
def execFsqrtS (d a : RegNo) (m : BitVec 3) (s : State) : Host.Outcome State Fault Refusal := .next (s.fpResult d (fp32.sqrt m.toNat (s.fpIn fp32 a)))

/-- fmin.s (03 R76). -/
def execFminS (d a b : RegNo) (s : State) : Host.Outcome State Fault Refusal := .next (s.fp2 fp32 (fp32.minMax true) d a b)

/-- fmax.s (03 R76). -/
def execFmaxS (d a b : RegNo) (s : State) : Host.Outcome State Fault Refusal := .next (s.fp2 fp32 (fp32.minMax false) d a b)

/-- fsign.c.s (03 R76). -/
def execFsignCS (d a b : RegNo) (s : State) : Host.Outcome State Fault Refusal := .next (s.fp2 fp32 (fun x y => (fp32.withSign x (fp32.negCode y), 0)) d a b)

/-- fsign.n.s (03 R76). -/
def execFsignNS (d a b : RegNo) (s : State) : Host.Outcome State Fault Refusal := .next (s.fp2 fp32 (fun x y => (fp32.withSign x (!fp32.negCode y), 0)) d a b)

/-- fsign.x.s (03 R76). -/
def execFsignXS (d a b : RegNo) (s : State) : Host.Outcome State Fault Refusal := .next (s.fp2 fp32 (fun x y => (fp32.withSign x (fp32.negCode x ^^ fp32.negCode y), 0)) d a b)

/-- fmadd.s (03 R77). -/
def execFmaddS (d a b : RegNo) (m : BitVec 3) (s : State) : Host.Outcome State Fault Refusal := .next (s.fpFma fp32 false false m d a b)

/-- fmsub.s (03 R77). -/
def execFmsubS (d a b : RegNo) (m : BitVec 3) (s : State) : Host.Outcome State Fault Refusal := .next (s.fpFma fp32 false true m d a b)

/-- fnmadd.s (03 R77). -/
def execFnmaddS (d a b : RegNo) (m : BitVec 3) (s : State) : Host.Outcome State Fault Refusal := .next (s.fpFma fp32 true true m d a b)

/-- fnmsub.s (03 R77). -/
def execFnmsubS (d a b : RegNo) (m : BitVec 3) (s : State) : Host.Outcome State Fault Refusal := .next (s.fpFma fp32 true false m d a b)

/-- cvt.d.s (03 R78). -/
def execCvtDS (d a : RegNo) (s : State) : Host.Outcome State Fault Refusal := .next (s.fpResult d (cvtFp fp32 fp64 0 (s.fpIn fp32 a)))

/-- cvt.s.d (03 R78). -/
def execCvtSD (d a : RegNo) (m : BitVec 3) (s : State) : Host.Outcome State Fault Refusal := .next (s.fpResult d (cvtFp fp64 fp32 m.toNat (s.fpIn fp64 a)))

/-- cvt.d.i64 (03 R78). -/
def execCvtDI64 (d a : RegNo) (m : BitVec 3) (s : State) : Host.Outcome State Fault Refusal := .next (s.cvtOfInt fp64 true m d a)

/-- cvt.i64.d (03 R78). -/
def execCvtI64D (d a : RegNo) (m : BitVec 3) (s : State) : Host.Outcome State Fault Refusal := .next (s.cvtToInt fp64 true m d a)

/-- cvt.d.n64 (03 R78). -/
def execCvtDN64 (d a : RegNo) (m : BitVec 3) (s : State) : Host.Outcome State Fault Refusal := .next (s.cvtOfInt fp64 false m d a)

/-- cvt.n64.d (03 R78). -/
def execCvtN64D (d a : RegNo) (m : BitVec 3) (s : State) : Host.Outcome State Fault Refusal := .next (s.cvtToInt fp64 false m d a)

/-- fcmp.eq.d (03 R79). -/
def execFcmpEqD (d a b : RegNo) (s : State) : Host.Outcome State Fault Refusal := .next (s.fp2 fp64 (fpCompare fp64 (fun x y => x.same y) false) d a b)

/-- fcmp.lt.d (03 R79). -/
def execFcmpLtD (d a b : RegNo) (s : State) : Host.Outcome State Fault Refusal := .next (s.fp2 fp64 (fpCompare fp64 (fun x y => x.below y) true) d a b)

/-- fcmp.le.d (03 R79). -/
def execFcmpLeD (d a b : RegNo) (s : State) : Host.Outcome State Fault Refusal := .next (s.fp2 fp64 (fpCompare fp64 (fun x y => !y.below x) true) d a b)

/-- fkind.d (03 R79). -/
def execFkindD (d a : RegNo) (s : State) : Host.Outcome State Fault Refusal := .next (s.result d (word (2 ^ fp64.classOf (s.fpIn fp64 a))))

/-- cvt.s.i64 (03 R78). -/
def execCvtSI64 (d a : RegNo) (m : BitVec 3) (s : State) : Host.Outcome State Fault Refusal := .next (s.cvtOfInt fp32 true m d a)

/-- cvt.i64.s (03 R78). -/
def execCvtI64S (d a : RegNo) (m : BitVec 3) (s : State) : Host.Outcome State Fault Refusal := .next (s.cvtToInt fp32 true m d a)

/-- cvt.s.n64 (03 R78). -/
def execCvtSN64 (d a : RegNo) (m : BitVec 3) (s : State) : Host.Outcome State Fault Refusal := .next (s.cvtOfInt fp32 false m d a)

/-- cvt.n64.s (03 R78). -/
def execCvtN64S (d a : RegNo) (m : BitVec 3) (s : State) : Host.Outcome State Fault Refusal := .next (s.cvtToInt fp32 false m d a)

/-- fcmp.eq.s (03 R79). -/
def execFcmpEqS (d a b : RegNo) (s : State) : Host.Outcome State Fault Refusal := .next (s.fp2 fp32 (fpCompare fp32 (fun x y => x.same y) false) d a b)

/-- fcmp.lt.s (03 R79). -/
def execFcmpLtS (d a b : RegNo) (s : State) : Host.Outcome State Fault Refusal := .next (s.fp2 fp32 (fpCompare fp32 (fun x y => x.below y) true) d a b)

/-- fcmp.le.s (03 R79). -/
def execFcmpLeS (d a b : RegNo) (s : State) : Host.Outcome State Fault Refusal := .next (s.fp2 fp32 (fpCompare fp32 (fun x y => !y.below x) true) d a b)

/-- fkind.s (03 R79). -/
def execFkindS (d a : RegNo) (s : State) : Host.Outcome State Fault Refusal := .next (s.result d (word (2 ^ fp32.classOf (s.fpIn fp32 a))))

end Sys2Proof.Machine
end

