-- ==== Sys2Proof/Machine/Control.lean ====
section
/-! DEFINITION. Instruction fetch, and the control-flow words: branches, loop sets, strips, lane sections, time and end
(spec/02 R28, R29, R45; 04_control_flow_instructions.md R81 to R103). -/

namespace Sys2Proof.Machine

/-! ### Fetch -/

/-- A line of an instruction cache holds a physical line, for any of a core's contexts (01 R15; 03 R58). -/
def State.icacheTouch (line : Nat) (s : State) : State × List Byte :=
  match cacheFind s.th.bind.coreNo s.th.bind.ctx line s.unc.icache with
  | some c => (s, c.data)
  | none =>
    let data := s.bytesAt (s.cellOf (line * 256)) 256
    let t := s.l2Read false (s.cellOf (line * 256)) 256
    let r := cacheFill 0 8 32 t.th.bind.coreNo t.th.bind.ctx line data t.unc.rr t.unc.icache
    (t.onUnc fun u => { u with icache := r.1, rr := r.2 }, data)

/-- Fetch n bytes at an address through the instruction cache; the 64-byte block they lie in becomes the fetch buffer
(02 R45; 03 R58; 12 R369). (DEDUCED, log 42.) -/
def State.fetchFresh (va : Word) (n : Nat) (s : State) : State × Except ExcCause (List Byte) :=
  match s.xlate 0 va .exec with
  | .error c => (s, .error c)
  | .ok x =>
    match x.st.target x.st.th.bind.ctx x.pa with
    | .cell a =>
      if x.st.poisoned a then (x.st, .error .poison)
      else
        let r := x.st.icacheTouch (x.pa / 256)
        let block := (r.2.drop (x.pa % 256 / 64 * 64)).take 64
        (r.1.onFr fun f => { f with fbuf := some (va.toNat / 64, block) },
         .ok ((r.2.drop (x.pa % 256)).take n))
    | _ => (x.st, .error .machineCheck)

/-- Fetch n bytes at an address: from the fetch buffer where it holds their block (12 R369). -/
def State.fetch (va : Word) (n : Nat) (s : State) : State × Except ExcCause (List Byte) :=
  match s.th.fr.fbuf with
  | some (k, bs) => if k = va.toNat / 64 then (s, .ok ((bs.drop (va.toNat % 64)).take n)) else s.fetchFresh va n
  | none => s.fetchFresh va n

/-! ### Branches -/

/-- Go to the target of a taken branch; a lane's branch moves only its PC (04 R81, R89, R96). -/
def State.goTo (t : Word) (s : State) : State :=
  match s.th.fr.curLane with
  | some _ => s.onFr fun f => { f with spc := t }
  | none => s.branchTo t

/-- The target of a direct branch: P + Sext(imm) × 4 (04 R81, R82). -/
def State.branchTarget (s : State) {n : Nat} (i : BitVec n) : Word := s.th.fr.spc + (i.signExtend 64 <<< 2)

/-- A compare-branch (04 R82). -/
def State.branchIf (R : Word → Word → Bool) (a b : RegNo) (i : BitVec 13) (s : State) : State :=
  if R (s.rd a) (s.rd b) then s.goTo (s.branchTarget i) else s.advance 4

/-- s1 := P + 4 (04 R81, R84). -/
def State.link (s : State) : State := s.wr 1 (s.th.fr.spc + 4)

/-- The 32-bit word of lane code at an address, none outside the code (04 R96). -/
def LaneSection.wordAt (l : LaneSection) (pc : Word) : Option (BitVec 32) :=
  let o := (pc - l.start).toNat
  if o + 4 ≤ l.len then some (BitVec.ofNat 32 (leNat ((l.code.drop o).take 4))) else none

/-- The 32-bit word at the target of an indirect branch: of the lane code in a lane; none where its fetch fails
(04 R84, R96). -/
def State.targetWord (t : Word) (s : State) : State × Option (BitVec 32) :=
  match s.th.fr.curLane, s.th.fr.lanes with
  | some _, some l => (s, l.wordAt t)
  | _, _ =>
    match s.fetchFresh t 4 with
    | (u, .ok bs) => (u, some (BitVec.ofNat 32 (leNat bs)))
    | (u, .error _) => (u, none)

/-- An indirect branch to s[a], which must hold the landing pad of its kind. Where the fetch of the target fails the branch
stands, and the fetch of the next word takes that fault at the target; what the loader puts there runs without a landing-pad check
(04 R84). (DEDUCED, log 33.) -/
def State.indirect (pad : BitVec 32) (withLink : Bool) (a : RegNo) (s : State) : State :=
  let t := s.rd a
  if t.toNat % 4 ≠ 0 then s.scalarFault .controlFlow noIndex 0
  else
    let r := s.targetWord t
    if r.2.getD pad ≠ pad then r.1.scalarFault .controlFlow noIndex 0
    else (if withLink then r.1.link else r.1).goTo t

/-- The words lpad.c, lpad.j and lpad.r (04 Table 4.2). -/
def padC : BitVec 32 := 0x70000004#32
/-- lpad.j (04 Table 4.2). -/
def padJ : BitVec 32 := 0x70000005#32
/-- lpad.r (04 Table 4.2). -/
def padR : BitVec 32 := 0x70000006#32

/-- b (04 R81). -/
def execB (i : BitVec 25) (s : State) : Host.Outcome State Fault Refusal := .next (s.goTo (s.branchTarget i))
/-- call (04 R81). -/
def execCall (i : BitVec 25) (s : State) : Host.Outcome State Fault Refusal := .next (s.link.goTo (s.branchTarget i))
/-- bc.eq (04 R82). -/
def execBcEq (a b : RegNo) (i : BitVec 13) (s : State) : Host.Outcome State Fault Refusal :=
  .next (s.branchIf (fun x y => x == y) a b i)
/-- bc.ne (04 R82). -/
def execBcNe (a b : RegNo) (i : BitVec 13) (s : State) : Host.Outcome State Fault Refusal :=
  .next (s.branchIf (fun x y => x != y) a b i)
/-- bc.lt (04 R82). -/
def execBcLt (a b : RegNo) (i : BitVec 13) (s : State) : Host.Outcome State Fault Refusal :=
  .next (s.branchIf (fun x y => x.slt y) a b i)
/-- bc.ge (04 R82). -/
def execBcGe (a b : RegNo) (i : BitVec 13) (s : State) : Host.Outcome State Fault Refusal :=
  .next (s.branchIf (fun x y => !x.slt y) a b i)
/-- bc.ltn (04 R82). -/
def execBcLtn (a b : RegNo) (i : BitVec 13) (s : State) : Host.Outcome State Fault Refusal :=
  .next (s.branchIf (fun x y => x.ult y) a b i)
/-- bc.gen (04 R82). -/
def execBcGen (a b : RegNo) (i : BitVec 13) (s : State) : Host.Outcome State Fault Refusal :=
  .next (s.branchIf (fun x y => !x.ult y) a b i)
/-- nop (04 R83). -/
def execNop (s : State) : Host.Outcome State Fault Refusal := .next (s.advance 4)
/-- calli (04 R84). -/
def execCalli (a : RegNo) (s : State) : Host.Outcome State Fault Refusal := .next (s.indirect padC true a)
/-- jmpi (04 R84). -/
def execJmpi (a : RegNo) (s : State) : Host.Outcome State Fault Refusal := .next (s.indirect padJ false a)
/-- ret (04 R84). -/
def execRet (a : RegNo) (s : State) : Host.Outcome State Fault Refusal := .next (s.indirect padR false a)
/-- lpad.c, without effect (04 R83). -/
def execLpadC (s : State) : Host.Outcome State Fault Refusal := .next (s.advance 4)
/-- lpad.j, without effect (04 R83). -/
def execLpadJ (s : State) : Host.Outcome State Fault Refusal := .next (s.advance 4)
/-- lpad.r, without effect (04 R83). -/
def execLpadR (s : State) : Host.Outcome State Fault Refusal := .next (s.advance 4)

/-! ### Loop sets -/

/-- lbrk of set n: its A and N, and those of the other set where that is inner to it; nothing for an inactive set
(04 R90). -/
def State.breakLoop (n : Bool) (s : State) : State :=
  if zcA (s.zc n) then
    let s1 := s.dropSet n
    if zcN (s1.zc (!n)) then s1.dropSet (!n) else s1
  else s

/-- lbrk (04 R90). -/
def execLbrk (n : BitVec 1) (s : State) : Host.Outcome State Fault Refusal := .next ((s.breakLoop (n == 1#1)).seqNext 4)

/-- What a loop word refuses (04 R87). -/
def State.loopBad (s : State) (n : Bool) (c : Word) (i : BitVec 13) : Bool :=
  let e := s.branchTarget i
  s.th.fr.m.lvl || i.toInt < 2 || bitsOf c 63 48 ≠ 0 || zcA (s.zc n)
    || (zcA (s.zc (!n)) && !(s.zs (!n) ≤ s.th.fr.spc + 4 && e ≤ s.ze (!n)))

/-- Start set n with count c over the words from P + 4 to E (04 R87). -/
def State.startLoop (n : Bool) (c e : Word) (s : State) : State :=
  let inner := zcA (s.zc (!n))
  let s1 := (s.log (.zs n) (vecGet s.th.fr.regs.zs (setIx n) 0)).onRegs fun r =>
    { r with zs := vecSet r.zs (setIx n) (s.th.fr.spc + 4) }
  let s2 := (s1.log (.ze n) (vecGet s1.th.fr.regs.ze (setIx n) 0)).onRegs fun r => { r with ze := vecSet r.ze (setIx n) e }
  s2.setZc n (word (c.toNat + 2 ^ 48 + bitNat inner * 2 ^ 49))

/-- The loop word (04 R87). -/
def State.loopWord (n : Bool) (a : RegNo) (i : BitVec 13) (s : State) : State :=
  let c := s.rd a
  if s.loopBad n c i then s.frontFault .illegal
  else if c = 0 then
    let r := s.arrive (s.branchTarget i)
    r.1.onFr fun f => { f with spc := r.2 }
  else (s.startLoop n c (s.branchTarget i)).seqNext 4

/-- loop (04 R87). -/
def execLoop (n : BitVec 1) (a : RegNo) (i : BitVec 13) (s : State) : Host.Outcome State Fault Refusal :=
  .next (s.loopWord (n == 1#1) a i)

/-! ### Strips -/

/-- SIZE and REG of slot j of smbc (04 Table 4.8). -/
def smbSize (x : Word) (j : Nat) : Nat := bitsOf x (16 * j + 8) (16 * j + 6)
/-- REG of slot j of smbc (04 Table 4.8). -/
def smbReg (x : Word) (j : Nat) : RegNo := BitVec.ofNat 6 (bitsOf x (16 * j + 5) (16 * j))

/-- Advance the register of slot j by a strip of vl elements (04 R94). -/
def State.smbAdvance (vl j : Nat) (s : State) : State :=
  let c := s.th.fr.regs.smbc
  if smbSize c j = 0 then s else s.wr (smbReg c j) (s.rd (smbReg c j) + word (vl * 2 ^ (smbSize c j - 1)))

/-- The scalar operation of smb: the remaining count, the four advances and sbase (04 R94). -/
def State.smbScalar (a : RegNo) (n : Int) (vl : Nat) (s : State) : State :=
  let s1 := forUpTo 4 (fun j t => t.smbAdvance vl j) (s.wr a (BitVec.ofInt 64 n))
  (s1.log .sbase s1.th.fr.regs.sbase).onRegs fun r => { r with sbase := r.sbase + word vl }

/-- Grant the front's copy of vl (05 R107). -/
def State.grantVl (n : Nat) (s : State) : State :=
  (s.log .vlCopy (word s.th.fr.copy.vl)).onCopy fun c => { c with vl := n }

/-- smb: the scalar operation, the commit entry with the new vl, and the branch while elements remain (04 R94). -/
def State.smbWord (a : RegNo) (i : BitVec 13) (s : State) : State :=
  let c := s.th.fr.regs.smbc
  if s.th.fr.m.lvl then s.frontFault .doubleFault
  else if (List.range 4).any fun j => smbSize c j ≠ 0 && smbReg c j = a then s.frontFault .illegal
  else
    let vl := s.th.fr.copy.vl
    let n := (s.rd a).toInt - vl
    let taken : Bool := 0 < n
    let nv := min n.toNat (vlmax s.width (sizeOf s.frontEsz))
    s.sendSlot (.commit (if taken then some nv else none)) (halfOf (.smb a i)) 0
      (fun t => if taken then t.branchTo (t.branchTarget i) else t.seqNext 4)
      (fun t => let u := t.smbScalar a n vl; if taken then u.grantVl nv else u)

/-- smb (04 R94). -/
def execSmb (a : RegNo) (i : BitVec 13) (s : State) : Host.Outcome State Fault Refusal := .next (s.smbWord a i)

/-- smbcfg: slot j of smbc := REG d and a size code (04 R93). -/
def execSmbcfg (d : RegNo) (z : BitVec 3) (j : BitVec 2) (s : State) : Host.Outcome State Fault Refusal :=
  .next (((s.log .smbc s.th.fr.regs.smbc).onRegs fun r =>
    { r with smbc := putBits r.smbc (16 * j.toNat) 16 (z.toNat * 64 + d.toNat) }).seqNext 4)

/-! ### Lane sections -/

/-- Fetch lane code word by word; a fault with the address it is met at (04 R95). -/
def fetchCode (va : Word) : Nat → State → State × Except (Word × ExcCause) (List Byte)
  | 0, s => (s, .ok [])
  | n + 1, s =>
    match s.fetchFresh va 4 with
    | (t, .error c) => (t, .error (va, c))
    | (t, .ok bs) =>
      match fetchCode (va + 4) n t with
      | (u, .ok rest) => (u, .ok (bs ++ rest))
      | r => r

/-- A lane section at its start: every lane at the first word, none joined, lane 0 of each cluster first (04 R95, R97).
(DESIGN CHOICE, log 60.) -/
def newSection (origin start : Word) (len : Nat) (code : List Byte) (width : Nat) : LaneSection :=
  { origin := origin, start := start, len := len, code := code, pcs := List.replicate (8 * width) start,
    joined := List.replicate (8 * width) false, last := List.replicate width 7 }

/-- lsplit: check the extent, wait for the lanes, fill the lane instruction buffers, start the lanes. A fetch fault is
reported at its address; the thread stands at the lsplit (04 R95; 12 R348). -/
def State.lsplitWord (a b : RegNo) (s : State) : State :=
  if s.th.fr.m.lvl then s.frontFault .doubleFault
  else
    let len := (s.rd b).toNat
    if (s.rd a).toNat % 4 ≠ 0 || len % 4 ≠ 0 || len < 4 || 8192 < len then s.frontFault .illegal
    else
      match s.settle with
      | (t, .done) =>
        let p := t.th.fr.spc
        match fetchCode (t.rd a) (len / 4) t with
        | (u, .error (va, c)) => (u.takeException c noIndex va p 0 false).onFr fun f => { f with spc := p }
        | (u, .ok code) =>
          u.onFr fun f => { f with lanes := some (newSection p (t.rd a) len code t.width) }
      | (t, _) => t

/-- lsplit (04 R95). (DEDUCED, log 34.) -/
def execLsplit (a b : RegNo) (s : State) : Host.Outcome State Fault Refusal := .next (s.lsplitWord a b)

/-- A lane section with lane j joined. -/
def LaneSection.join (j : Nat) (l : LaneSection) : LaneSection := { l with joined := l.joined.set j true }

/-- ljoin: the lane ends; with the last one the section ends and the front goes on after the lsplit. Outside a lane the
word is illegal (04 R83, R88, R99). -/
def State.ljoinWord (s : State) : State :=
  match s.th.fr.curLane, s.th.fr.lanes with
  | some j, some l =>
    let l' := l.join j
    if l'.joined.all id then
      (s.onFr fun f => { f with lanes := none, curLane := none, spc := l.origin }).seqNext 4
    else s.onFr fun f => { f with lanes := some l' }
  | _, _ => s.frontFault .illegal

/-- ljoin (04 R99). -/
def execLjoin (s : State) : Host.Outcome State Fault Refusal := .next s.ljoinWord

/-! ### Time and the deadline -/

/-- The return of wait.t: s[d] := gtime, once gtime has reached the target (04 R100). -/
def State.timeReturn (d : RegNo) (t : Word) (s : State) : State :=
  if t ≤ s.gtime then ((s.onFr fun f => { f with wait := .none }).wr d s.gtime).seqNext 4
  else s.onFr fun f => { f with wait := .time d t }

/-- wait.t (04 R100). -/
def execWaitT (d a : RegNo) (s : State) : Host.Outcome State Fault Refusal := .next (s.timeReturn d (s.rd a))

/-- dline: the deadline may only come earlier (04 R101). -/
def execDline (a : RegNo) (s : State) : Host.Outcome State Fault Refusal :=
  .next (((s.log .dline s.th.fr.regs.dline).onRegs fun r =>
    { r with dline := if s.rd a ≤ r.dline then s.rd a else r.dline }).seqNext 4)

/-! ### end -/

/-- Whether a byte of a copy command's destination lies in shared store, so that end waits for it (04 R103). (DESIGN CHOICE, log 56.) -/
def State.copiesShared (s : State) (c : CopyCmd) : Bool :=
  (List.range c.total).any fun k =>
    match s.walk (s.walkerOf c.ctx) (c.dstAt k) with
    | .ok p => inShared p.base
    | .error _ => false

/-- What an end waits for besides the VIQ: every store acknowledged, no copy into shared store outstanding, every admitted chunk of a
send stream delivered (04 R103; 11 R346). -/
def State.endQuiet (s : State) : Bool :=
  s.th.fr.storeQ = [] && s.storesDone
    && !s.copies.any (fun c => c.owner = s.th.bind.place && s.copiesShared c)
    && s.th.fab.fs.toList.all fun t => !(t.bound && t.send) || t.stage.all fun c => !c.admitted

/-- Whether end may complete: the VIQ empty, every stepq released, and what else it waits for (04 R103; 11 R321). -/
def State.endReady (s : State) : Bool := s.th.fr.viq = [] && !s.pending && s.endQuiet

/-- The thread leaves its slot in good order: its copies run on, its window is released, its receive streams are
discarded, its flags join the launch's (04 R103; 10 R280, R303; 11 R346; 13 R399). -/
def State.finishThread (s : State) : State :=
  let s1 := s.disownCopies s.th.bind.place false
  let s2 := s1.onLaunch s1.th.bind.launch fun l => { l with ended := l.ended + 1, flags := l.flags ||| s1.th.ln.flags }
  s2.freeSlot.onTh fun t =>
    { t with life := .ended
             fr := { t.fr with wait := .none, fbuf := none, chainOpen := false, m := { t.fr.m with preq := none } }
             ln := { t.ln with win := { cfg := 0, copies := [] } }
             fab := { t.fab with fs := Vector.replicate 8 .reset } }

/-- end: the commit entry of an open strip, the waits, then the thread leaves its slot; until then it stands at the end
(04 R103; 12 R348, R367). -/
def State.endWord (s : State) : State :=
  if s.th.fr.m.lvl then s.frontFault .illegal
  else
    match s.settle with
    | (t, .done) =>
      let u := t.leaveStores
      let v := if u.th.st.openAtEnd then u.sendSlot (.commit none) (halfOf .endThread) 0 id id else u
      if v.endReady then v.finishThread else v
    | (t, _) => t

/-- end (04 R103). -/
def execEndThread (s : State) : Host.Outcome State Fault Refusal := .next s.endWord

end Sys2Proof.Machine
end

