-- ==== Sys2Proof/Machine/Image.lean ====
section
/-! DEFINITION. The VIQ image: how a convoy stands in memory, the checks on it, and its restore
(spec/12_system_trap_debug_instructions.md R361, Tables 12.5 and 12.6). -/

namespace Sys2Proof.Machine

/-- Whether a major and the fields of a 64-bit word are a VIQ word that passes the checks of R43 on the word, as the
restore of a VIQ image checks them (02 R43; 12 R361). -/
def viqWordOk (op : Nat) (w : VWord) : Bool :=
  match op with
  | 0x00 =>
    match w.key with
    | 0 => okVadd w
    | 1 => okVadd w
    | 2 => okVadd w
    | _ => false
  | 0x01 =>
    match w.key with
    | 0 => okVadd w
    | 1 => okVmulh w
    | 2 => okVmulh w
    | _ => false
  | 0x02 =>
    match w.key with
    | 0 => okVadd w
    | 1 => okVadd w
    | 2 => okVadd w
    | _ => false
  | 0x03 =>
    match w.key with
    | 0 => okVadd w
    | 1 => okVadd w
    | 2 => okVadd w
    | 3 => okVadd w
    | _ => false
  | 0x04 =>
    match w.key with
    | 0 => okVadd w
    | 1 => okVadd w
    | 2 => okVadd w
    | 3 => okVadd w
    | _ => false
  | 0x05 =>
    match w.key with
    | 0 => okVadd w
    | 1 => okVadd w
    | 2 => okVabs w
    | _ => false
  | 0x06 =>
    match w.key with
    | 0 => okVcmpEq w
    | 1 => okVcmpEq w
    | 2 => okVcmpEq w
    | 3 => okVcmpEq w
    | 4 => okVcmpEq w
    | 5 => okVcmpEq w
    | _ => false
  | 0x07 =>
    match w.key with
    | 0 => okMand w
    | 1 => okMand w
    | 2 => okMand w
    | 3 => okMand w
    | 4 => okMnot w
    | 16 => okMpop w
    | 17 => okMpop w
    | _ => false
  | 0x08 =>
    match w.key with
    | 0 => okVsel w
    | _ => false
  | 0x09 =>
    match w.key with
    | 0 => okVbcast w
    | 1 => okVmv w
    | 2 => okVmvsV w
    | 3 => okVmvsX w
    | _ => false
  | 0x20 =>
    match w.key with
    | 0 => okVfadd w
    | 1 => okVfadd w
    | 2 => okVfadd w
    | _ => false
  | 0x21 =>
    match w.key with
    | 0 => okVfmadd w
    | 1 => okVfmadd w
    | 2 => okVfmadd w
    | 3 => okVfmadd w
    | 4 => okVfadd w
    | _ => false
  | 0x22 =>
    match w.key with
    | 0 => okVfadd w
    | 1 => okVfadd w
    | 2 => okVfabs w
    | 3 => okVfabs w
    | 4 => okVfsignC w
    | 5 => okVfsignC w
    | 6 => okVfsignC w
    | _ => false
  | 0x23 =>
    match w.key with
    | 0 => okVfcmpEq w
    | 1 => okVfcmpEq w
    | 2 => okVfcmpEq w
    | 3 => okVfcmpEq w
    | 4 => okVfcmpEq w
    | 5 => okVfcmpEq w
    | 6 => okVfcmpUn w
    | _ => false
  | 0x30 =>
    match w.key with
    | 0 => okVredoAdd w
    | 1 => okVredoAdd w
    | 2 => okVredoAdd w
    | _ => false
  | 0x31 =>
    match w.key with
    | 0 => okVredoAdd w
    | 1 => okVredoAdd w
    | 2 => okVredoAdd w
    | 3 => okVmulh w
    | 4 => okVmulh w
    | 5 => okVmulh w
    | _ => false
  | 0x32 =>
    match w.key with
    | 0 => okVscanInAdd w
    | 1 => okVscanInAdd w
    | 2 => okVscanInAdd w
    | 8 => okVscanInAdd w
    | 9 => okVscanInAdd w
    | 10 => okVscanInAdd w
    | _ => false
  | 0x33 =>
    match w.key with
    | 0 => okVslipUp w
    | 1 => okVslipUp w
    | 2 => okVslipUpin w
    | 3 => okVslipUpin w
    | _ => false
  | 0x34 =>
    match w.key with
    | 0 => okVpick w
    | _ => false
  | 0x35 =>
    match w.key with
    | 0 => okVcompress w
    | 1 => okVcompress w
    | _ => false
  | 0x38 =>
    okVcvt w
  | 0x39 =>
    okVcvtEf w
  | 0x3A =>
    if w.fnBits 5 1 == 0 then okVpack w
    else if w.fnBits 5 1 == 1 then okVunpack w
    else false
  | 0x3B =>
    if w.fnBits 0 1 == 0 then okVscaleMul w
    else if w.fnBits 0 1 == 1 then okVscaleMul w
    else false
  | 0x3C =>
    okVfclass w
  | 0x3D =>
    match w.key with
    | 0 => okVdiv w
    | 1 => okVdiv w
    | 2 => okVsqrt w
    | 3 => okVsqrt w
    | _ => false
  | 0x40 =>
    if w.grp == 0 && w.ch == 0 then okVld w
    else if w.grp == 0 && w.ch == 1 then okVldC w
    else if w.grp == 1 then okVldQ w
    else false
  | 0x41 =>
    okVlds w
  | 0x42 =>
    okVldx w
  | 0x43 =>
    okVldg w
  | 0x44 =>
    if w.grp == 0 && w.ch == 0 then okVst w
    else if w.grp == 0 && w.ch == 1 then okVstC w
    else if w.grp == 1 then okVstQ w
    else false
  | 0x45 =>
    okVsts w
  | 0x46 =>
    okVstx w
  | 0x47 =>
    okVstx w
  | 0x48 =>
    okVstg w
  | 0x49 =>
    okVpref w
  | 0x4A =>
    okScommit w
  | 0x4B =>
    okCutstep w
  | 0x50 =>
    okMzero w
  | 0x51 =>
    okMouter w
  | 0x52 =>
    okMouteri w
  | 0x53 =>
    okMouterc w
  | 0x54 =>
    okMlacc w
  | 0x55 =>
    okMdrain w
  | 0x56 =>
    okMtov w
  | 0x57 =>
    okMscale w
  | 0x58 =>
    if w.fnBits 10 2 == 0 then okBclr w
    else if w.fnBits 10 2 == 1 then okBtload w
    else if w.fnBits 10 2 == 2 then okBtdrain w
    else false
  | 0x59 =>
    match w.key with
    | 0 => okBqr w
    | 1 => okBqra w
    | 2 => okBqrD w
    | _ => false
  | 0x5A =>
    match w.key with
    | 0 => okBqra w
    | 1 => okBqra w
    | _ => false
  | 0x5B =>
    match w.key with
    | 0 => okBvec w
    | 1 => okBangleD w
    | 2 => okBangleD w
    | _ => false
  | 0x5C =>
    if w.fnBits 6 1 == 0 then okBrot w
    else if w.fnBits 6 1 == 1 then okVrotate w
    else false
  | 0x5D =>
    match w.key with
    | 0 => okBgain w
    | _ => false
  | 0x5E =>
    match w.key with
    | 0 => okBsolve w
    | _ => false
  | 0x62 =>
    if w.fnBits 11 1 == 0 then okVamo w
    else if w.fnBits 11 1 == 1 then okVamo w
    else false
  | 0x63 =>
    match w.fnFN with
    | 0 => okAccw w
    | 1 => okVacc w
    | 2 => okAmerge w
    | 3 => okAccrel w
    | _ => false
  | 0x69 =>
    match w.fnFN with
    | 0 => okCp w
    | 1 => okCp2 w
    | 2 => okCp2 w
    | 3 => okCpq w
    | 4 => okCpw w
    | _ => false
  | 0x70 =>
    match w.key with
    | 0 => okWdecl w
    | 32 => okWdeclRel w
    | _ => false
  | 0x71 =>
    okVldr w
  | 0x72 =>
    okVstr w
  | 0x73 =>
    match w.key with
    | 0 => okStep w
    | 32 => okStepAt w
    | 64 => okStep w
    | _ => false
  | 0x74 =>
    match w.key with
    | 0 => okFsbindRx w
    | 1 => okFsbindRx w
    | 2 => okFsbindU w
    | _ => false
  | 0x75 =>
    match w.key with
    | 0 => okVcred w
    | _ => false
  | 0x78 =>
    if w.key < 5 then okSetvl w
    else if w.key == 16 then okSetvt w
    else false
  | 0x79 =>
    match w.key with
    | 0 => okSetfmt w
    | _ => false
  | 0x7A =>
    match w.key with
    | 0 => okMshape w
    | 16 => okTshape w
    | _ => false
  | 0x7B =>
    okMmode w
  | _ => false


/-! ### Saving -/

/-- Bit 1 of byte 38: C honoured to the next entry. -/
def chainFlags : List VEntry → List Bool
  | [] => []
  | [_] => [false]
  | _ :: f :: es => f.joined :: chainFlags (f :: es)

/-- Whether a word carries values besides its scalars: copy, window and step words their registers, tshape its operands, vld.c and vst.c
the new cchunk, and a vector atomic, a window word, a Truss or a Brace word what it holds for its completion (12 Table 12.6).
(DEDUCED, log 39.) -/
def VEntry.carries (e : VEntry) : Bool :=
  scalarFields e.op || (e.op = 0x7A && e.w.fnBits 4 1 = 1) || ((e.op = 0x40 || e.op = 0x44) && e.w.grp = 0 && e.w.ch = 1)
    || e.op = 0x62 || e.op = 0x63 || e.pipe = .tr || e.pipe = .br

/-- An entry's 64 bytes (12 Table 12.6); bytes 48 to 63 hold what the word carries besides its scalars, the value of an mtc, or the vl
of an smb's commit. -/
def VEntry.image (e : VEntry) (toNext : Bool) : List Byte :=
  let flags := bitNat (!e.joined) + 2 * bitNat toNext + 4 * bitNat e.issued + 8 * bitNat (e.pipe = .none)
  let w := if e.slot = .word then (packWide (BitVec.ofNat 7 e.op) e.w).toNat else e.half
  let carried := match e.slot with
    | .word => if e.carries then leBytes 8 e.x0.toNat ++ leBytes 8 e.x1.toNat else leBytes 16 0
    | .mtc _ => leBytes 16 e.sc.toNat
    | .commit (some n) => leBytes 16 n
    | .commit none => leBytes 16 (if e.half = halfOf .endThread then 0 else e.vl)
  leBytes 8 w ++ leBytes 8 e.addr.toNat ++ leBytes 8 e.sc.toNat ++ leBytes 8 e.sb.toNat ++ leBytes 2 e.vl
    ++ leBytes 2 e.vtype.toNat ++ leBytes 2 e.prog ++ [BitVec.ofNat 8 flags, 0] ++ leBytes 8 e.seq ++ carried

/-- The image of entries with a pair and the progress indices of the lanes (12 Table 12.5). -/
def Thread.viqImage (t : Thread) (es : List VEntry) (vcp spc : Word) : List Byte :=
  leBytes 2 es.length ++ [BitVec.ofNat 8 t.width] ++ leBytes 5 0
    ++ leBytes 8 vcp.toNat ++ leBytes 8 spc.toNat ++ leBytes 8 0
    ++ t.ln.vprog.toList.map (fun p => BitVec.ofNat 8 p) ++ t.ln.mprog.toList.flatMap (fun p => leBytes 2 p)
    ++ leBytes 16 0 ++ (es.zip (chainFlags es)).flatMap fun p => p.1.image p.2

/-! ### Restoring -/

/-- Bytes lo to lo + n − 1 of a list as a number. -/
def bytesNat (bs : List Byte) (lo n : Nat) : Nat := leNat ((bs.drop lo).take n)

/-- A one-slot entry of a 32-bit word with the value it carries, none where no such word sends an entry (12 R361; 03 R74; 04 R94,
R103). -/
def halfSlot (w carried : Nat) : Option Slot :=
  match decode32 (BitVec.ofNat 32 w) with
  | .ok (.mtc _ n) => if mtcSends n.toNat then some (.mtc n.toNat) else none
  | .ok (.mtcM _ n) => if mtcSends n.toNat || mtcmSends n.toNat then some (.mtc n.toNat) else none
  | .ok (.smb _ _) => some (.commit (some carried))
  | .ok .endThread => if carried = 0 then some (.commit none) else none
  | _ => none

/-- The fields of an entry's 64 bytes that are the same for every word; the image has no place for a fifth scalar of a copy word, which
is a free value (12 Table 12.6; DESIGN CHOICE, log 5). -/
def State.baseEntry (s : State) (bs : List Byte) (k : Nat) (after : Word) : VEntry :=
  let fl := bytesNat bs 38 1
  { seq := bytesNat bs 40 8, addr := word (bytesNat bs 8 8), after := after, op := 0, w := noWord, slot := .word,
    sc := word (bytesNat bs 16 8), sb := word (bytesNat bs 24 8), x0 := word (bytesNat bs 48 8), x1 := word (bytesNat bs 56 8),
    x2 := Config.freeWord (s.freeCount + k), vl := bytesNat bs 32 2, vtype := BitVec.ofNat 10 (bytesNat bs 34 2),
    first := fl % 2 = 1, joined := fl % 2 = 0, issued := fl.testBit 2, prog := bytesNat bs 36 2, safe := false,
    complete := false, sampled := false, issuedAt := (0, 0), range := none, unit := 0, held := [], lines := [],
    active := 0, half := 0, atM := false }

/-- An entry from its 64 bytes, none where a reserved bit or byte is set, its word fails decode, or its index is above what its word
has; the index of a word that has not issued is held against the groups it would have now (12 R361). (DESIGN CHOICE, log 39.) -/
def State.entryOf (s : State) (bs : List Byte) (k : Nat) (after : Word) : Option VEntry :=
  let w3 := bytesNat bs 0 8
  let fl := bytesNat bs 38 1
  let base := s.baseEntry bs k after
  if 16 ≤ fl || bytesNat bs 39 1 ≠ 0 || 1024 ≤ bytesNat bs 34 2 then none
  else if w3 < 2 ^ 32 then
    match halfSlot w3 (bytesNat bs 48 16) with
    | some slot =>
      if fl.testBit 3 && base.prog ≤ 1 && bytesNat bs 56 8 = 0 then
        some { base with slot := slot, sc := if slot.isMtc then base.x0 else base.sc, x0 := 0, x1 := 0, half := w3 }
      else none
    | none => none
  else
    match unpackWide (BitVec.ofNat 64 w3) with
    | none => none
    | some (op, f) =>
      let e := { base with op := op.toNat, w := f }
      let v := if e.issued then e else { e with vtype := s.th.ln.vtype }
      if w3.testBit 31 && viqWordOk op.toNat f && s.threadOk op.toNat f && fl.testBit 3 = (e.pipe = .none)
          && e.prog ≤ s.slotGroups v && (e.carries || bytesNat bs 48 16 = 0) then
        let done := e.issued && s.slotGroups e ≤ e.prog && 0 < e.prog
        some ({ e with complete := done, safe := done, unit := s.unitOf e }.ranged s.th.fr.copy.tm)
      else none

/-- Entries k on of an image of e entries (12 Table 12.6). -/
def State.entriesOf (s : State) (bs : List Byte) (spc : Word) (e : Nat) : Nat → Option (List VEntry)
  | 0 => some []
  | n + 1 =>
    let k := e - (n + 1)
    match s.entryOf ((bs.drop (128 + 64 * k)).take 64) k spc, s.entriesOf bs spc e n with
    | some x, some xs => some (x :: xs)
    | _, _ => none

/-- Whether the chain flags of consecutive entries agree: C honoured to the next exactly where the next is no first member
(12 R361). -/
def chainOk (bs : List Byte) (e : Nat) : Bool :=
  let fl := fun (k : Nat) => bytesNat bs (128 + 64 * k + 38) 1
  (fl 0).testBit 0 && (List.range e).all fun k =>
    if k + 1 < e then (fl k).testBit 1 = !(fl (k + 1)).testBit 0 else !(fl k).testBit 1

/-- The convoy and the indices an image holds, none where a check of R361 fails (12 R361). -/
def State.readImage (s : State) (bs : List Byte) : Option (List VEntry × Vector Nat 64 × Vector Nat 8) :=
  let e := bytesNat bs 0 2
  let vp := (Vector.range 64).map fun i => bytesNat bs (32 + i) 1
  let mp := (Vector.range 8).map fun i => bytesNat bs (96 + 2 * i) 2
  if e = 0 || 64 < e || bytesNat bs 3 5 ≠ 0 || bytesNat bs 24 8 ≠ 0 || bytesNat bs 112 16 ≠ 0 || !chainOk bs e
      || vp.any (fun p => 64 < p) then none
  else (s.entriesOf bs (word (bytesNat bs 16 8)) e e).map fun es => (es, vp, mp)

/-- Put an image's convoy and indices in place of what the thread holds (12 R361). -/
def State.placeImage (r : List VEntry × Vector Nat 64 × Vector Nat 8) (s : State) : State :=
  let top := r.1.foldl (fun a e => max a e.seq) s.th.fr.seq
  ({ s with freeCount := s.freeCount + r.1.length }.onFr fun f => { f with viq := r.1, seq := top }).onLn fun l =>
    { l with vprog := r.2.1, mprog := r.2.2 }

/-! ### The bytes of an image -/

/-- Whether the page of an address that the thread's TLB holds may be written (07 R176, R177). -/
def State.pageWritable (s : State) (va : Word) : Bool :=
  (s.tlbFind s.th.bind.coreNo s.th.bind.slot s.th.bind.ctx va).any (·.w)

/-- The cells of n 64-byte blocks from an address, all of them writable, none where an access faults (12 R361). -/
def imageCells (acc : Access) (va : Word) : Nat → State → State × Option (List Nat)
  | 0, s => (s, some [])
  | n + 1, s =>
    match s.xlate 0 va acc with
    | .error _ => (s, none)
    | .ok x =>
      match x.st.target x.st.th.bind.ctx x.pa with
      | .cell a =>
        if x.kind = 3 || !x.st.pageWritable va || (acc = .read && (x.st.poisoned a || x.st.poisoned (a + 32))) then (x.st, none)
        else
          match imageCells acc (va + 64) n x.st with
          | (t, some as) => (t, some (a :: as))
          | r => r
      | _ => (x.st, none)

/-- Write an image directly to memory, block by block. -/
def writeBlocks : List Nat → List Byte → State → State
  | [], _, s => s
  | a :: as, bs, s => writeBlocks as (bs.drop 64) ((s.dcacheStore s.th.bind.coreNo a (bs.take 64)).perform a (bs.take 64))

/-- vqsave: the parked convoy goes to memory and the lanes are free; any failure raises DoubleFault (12 R361). -/
def State.vqsaveWord (a : RegNo) (s : State) : State :=
  let s0 := s.leaveStores
  let va := s0.rd a
  let f := s0.th.fr
  if !f.m.lvl then s0.frontFault .illegal
  else if !f.m.pk || va.toNat % 64 ≠ 0 then s0.frontFault .doubleFault
  else
    match imageCells .write va (2 + f.viq.length) s0 with
    | (t, none) => t.frontFault .doubleFault
    | (t, some as) =>
      let u := writeBlocks as (t.th.viqImage f.viq f.m.mvcp f.m.mspc) t
      ((u.onM fun m => { m with pk := false }).onFr fun f => { f with viq := [] }).seqNext 4

/-- vqrestore: the convoy of an image becomes the parked convoy; any failure raises DoubleFault (12 R361). -/
def State.vqrestoreWord (a : RegNo) (s0 : State) : State :=
  if !s0.th.fr.m.lvl then s0.frontFault .illegal
  else
    match s0.settle with
    | (s1, .done) =>
      let s := s1.leaveStores
      let va := s.rd a
      if s.th.fr.m.pk || va.toNat % 64 ≠ 0 then s.frontFault .doubleFault
      else
        match imageCells .read va 2 s with
        | (t, none) => t.frontFault .doubleFault
        | (t, some hs) =>
          let head := hs.flatMap fun a => t.bytesAt a 64
          let e := bytesNat head 0 2
          if e = 0 || 64 < e then t.frontFault .doubleFault
          else
            match imageCells .read (va + 128) e t with
            | (u, none) => u.frontFault .doubleFault
            | (u, some es) =>
              match u.readImage (head ++ es.flatMap fun a => u.bytesAt a 64) with
              | none => u.frontFault .doubleFault
              | some r => ((u.placeImage r).onM fun m => { m with pk := true }).seqNext 4
    | (t, _) => t

/-! ### The sections of a thread's image -/

/-- The registers of the control section as doubles: the U registers of Table 2.8 by number, mstat to mindex, the formats, the shapes,
the accumulator tags and the counters (12 Table 12.8). (DESIGN CHOICE, log 13.) -/
def State.controlSection (s : State) : List Word :=
  let us := (List.range 0x400).filter fun n => (crClass n).isSome
  let t := s.th
  (us ++ [0x800, 0x801, 0x802, 0x803, 0x804, 0x805]).map s.crValue ++ t.ln.fmt.toList ++ t.ln.shape.toList
    ++ t.tr.tagInt.toList.map (fun b => word (bitNat b)) ++ t.cnt.toList

/-- Byte k of a list of doubles, none behind its end. -/
def wordsByte (xs : List Word) (k : Nat) : Option Byte := xs[k / 8]?.map fun x => BitVec.ofNat 8 (field x (8 * (k % 8)) 8)

/-- Byte k of a held strip entry: its address, its marks, its data (12 Table 12.8). -/
def StripEntry.imageByte (e : StripEntry) (k : Nat) : Byte :=
  if k < 8 then BitVec.ofNat 8 (e.block * 64 / 256 ^ k)
  else if k < 24 then BitVec.ofNat 8 (field e.marks (8 * (k - 8)) 8)
  else BitVec.ofNat 8 (field e.data (8 * (k - 24)) 8)

/-- Bytes rounded up to whole blocks of 4 KiB. -/
def upTo4K (n : Nat) : Nat := (n + 4095) / 4096 * 4096

/-- The sections of the current thread's image that stand one behind another, each with its size and its bytes, none where the spec
does not say what stands there (12 R363, Table 12.8). (DESIGN CHOICE, log 13.) -/
def State.imageSections (s : State) : List (Nat × (Nat → Option Byte)) :=
  let t := s.th
  let w := t.width
  let skip : Nat → Option Byte := fun _ => none
  let bound := (t.fab.fs.toList.filter fun x => x.bound).length
  [(4096, skip),
   (4096, fun k => wordsByte t.fr.s.toList.tail k),
   (4096, fun k => wordsByte s.controlSection k),
   (8192, fun k => (t.viqImage (t.fr.stepq.toList ++ t.fr.viq) s.vcp t.fr.spc)[k]?),
   (8192 * w, fun k => some (BitVec.ofNat 8 (field (vecGet t.ln.m (k / (1024 * w)) 0) (8 * (k % (1024 * w))) 8))),
   (262144 * w, fun k => some (BitVec.ofNat 8 (field (vecGet t.ln.v (k / (4096 * w)) 0) (8 * (k % (4096 * w))) 8)))]
  ++ (if t.st.entries = [] then [] else [(upTo4K (w * t.bind.stripA * 88), fun k => t.st.entries[k / 88]?.map fun e => e.imageByte (k % 88))])
  ++ (if t.ln.win.cfg.getLsbD 0 then [(bitsOf t.ln.win.cfg 22 20 * w * 16384, skip)] else [])
  ++ (if t.bind.tg then [(131072, fun k => some (BitVec.ofNat 8 (field (vecGet t.tr.acc (k / 65536) 0) (8 * (k % 65536)) 8)))] else [])
  ++ (if t.bind.bg then [(16384, skip)] else [])
  ++ (if bound = 0 then [] else [(32768 * bound, skip)])
  ++ (match t.fr.lanes with | some l => [(4096, fun k => wordsByte l.pcs k)] | none => [])
  ++ (if s.copies.any fun c => c.owner = t.bind.place ∧ c.paused then [(4096, skip)] else [])

/-- Byte o of sections that stand one behind another. -/
def sectionsByte : List (Nat × (Nat → Option Byte)) → Nat → Option Byte
  | [], _ => none
  | (n, f) :: xs, o => if o < n then f o else sectionsByte xs (o - n)

/-- The byte at an offset of the current thread's image, none where the spec does not say what stands there (12 Table 12.8). -/
def State.imageByte (s : State) (o : Nat) : Option Byte := sectionsByte s.imageSections o

/-- Set a U register or one of mstat to mindex as an image holds it, none where a reserved bit is set or no image holds the register
(12 R368, Table 12.8; 00 R5). -/
def State.setCr (n : Nat) (x : Word) (s : State) : Option State :=
  if x &&& crReserved n ≠ 0 then none
  else
    match n with
    | 0x012 => some (s.onRegs fun r => { r with sbase := x })
    | 0x015 => some (s.onRegs fun r => { r with smbc := x })
    | 0x016 => some (s.onLn fun l => { l with flags := x.setWidth 6, traps := (x >>> 8).setWidth 6 })
    | 0x013 => some (s.onSt fun t => { t with uncs := x.getLsbD 2, unc := x.getLsbD 1 })
    | 0x061 => some (s.onBr fun b => { b with bstat := x })
    | 0x0A1 => some (s.onRegs fun r => { r with dline := x })
    | 0x204 => some (s.onFab fun f => { f with stepstat := x })
    | 0x800 =>
      if 32 ≤ x.toNat then none
      else some (s.onM fun m => { m with
        lvl := x.getLsbD 0, pk := x.getLsbD 1, lane := x.getLsbD 2, dbg := x.getLsbD 3
        preq := if x.getLsbD 4 then some (m.preq.getD .preemption) else none })
    | 0x801 => some (s.onM fun m => { m with mcause := x })
    | 0x802 => some (s.onM fun m => { m with mspc := x })
    | 0x803 => some (s.onM fun m => { m with mvcp := x })
    | 0x805 => some (s.onM fun m => { m with mindex := x })
    | _ =>
      match crClass n with
      | some .front => some ((s.mtcFront n x).onFr fun f => { f with hist := s.th.fr.hist })
      | some .lane => if mtcSends n || mtcmSends n then some (s.mtcLane n x) else none
      | _ => none

end Sys2Proof.Machine
end

