-- ==== Sys2Proof/Machine/System.lean ====
section
/-! DEFINITION. The system words: traps, the return from one, cache and TLB invalidation, counters, trace, and the M-level
register words (spec/12_system_trap_debug_instructions.md R348 to R380). -/

namespace Sys2Proof.Machine

/-- The next word of a word that traps with its successor: the end-of-body update stands (04 R88; 12 R358). -/
def State.trapNext (c : ExcCause) (idx : Word) (s : State) : State :=
  let t := s.seqNext 4
  t.takeException c idx t.th.fr.spc t.th.fr.spc 0 false

/-- trap: cause Trap with s[a] as the index, once every older VIQ word has retired; U only (12 R348, R358). -/
def State.trapWord (a : RegNo) (s : State) : State :=
  if s.th.fr.m.lvl then s.frontFault .doubleFault
  else
    match s.settle with
    | (t, .done) => t.trapNext .trap (t.rd a)
    | (t, _) => t

/-- trap (12 R358). -/
def execTrap (a : RegNo) (s : State) : Host.Outcome State Fault Refusal := .next (s.trapWord a)

/-- eret: M only (12 R359). -/
def execEret (s : State) : Host.Outcome State Fault Refusal :=
  .next (if s.th.fr.m.lvl then s.exceptionReturn else s.frontFault .illegal)

/-- bkpt: a debug stop at once where a debugger is attached, else Breakpoint once older words have retired; U only
(12 R358). -/
def execBkpt (s : State) : Host.Outcome State Fault Refusal :=
  .next (if s.th.fr.m.lvl then s.frontFault .doubleFault
    else if s.th.fr.m.dbg then s.stopAs .stopped .debugStop
    else s.frontFault .breakpoint)

/-- Wait until every older VIQ word has retired and every older store of the thread has been performed, then go on
(12 R370, R371). -/
def State.afterStores (k : State → State) (s : State) : State :=
  match s.settle with
  | (t, .done) =>
    let u := t.leaveStores
    if u.storesDone && u.th.fr.storeQ = [] then k u else u
  | (t, _) => t

/-- ifence: the context's lines leave the core's instruction cache, and the fetch buffer is discarded (12 R370). -/
def execIfence (s : State) : Host.Outcome State Fault Refusal :=
  .next (s.afterStores fun u =>
    (((u.onUnc fun x => { x with
        icache := x.icache.filter fun c => ¬ (c.core = u.th.bind.coreNo ∧ c.ctx = u.th.bind.ctx) }).onFr fun f =>
      { f with fbuf := none }).seqNext 4))

/-- Whether a TLB entry maps a virtual address (07 R177). -/
def TlbEntry.maps (e : TlbEntry) (va : Word) : Bool := e.vpn = if e.big then bitsOf va 54 29 else bitsOf va 54 16

/-- tlbinv: the entries of the context that map s[a] leave every TLB of the package; M only (12 R371). -/
def execTlbinv (a : RegNo) (s : State) : Host.Outcome State Fault Refusal :=
  .next (if s.th.fr.m.lvl then
      s.afterStores fun u =>
        (u.onUnc fun x => { x with tlb := x.tlb.filter fun e => ¬ (e.ctx = u.th.bind.ctx ∧ e.maps (u.rd a)) }).seqNext 4
    else s.frontFault .illegal)

/-- tlbinv.all: every entry of the context; M only (12 R371). -/
def execTlbinvAll (s : State) : Host.Outcome State Fault Refusal :=
  .next (if s.th.fr.m.lvl then
      s.afterStores fun u =>
        (u.onUnc fun x => { x with tlb := x.tlb.filter fun e => e.ctx ≠ u.th.bind.ctx }).seqNext 4
    else s.frontFault .illegal)

/-- A cause from its code (12 Table 12.1). (DEDUCED, log 40.) -/
def causeOf (n : Nat) : ExcCause :=
  match n with
  | 0x01 => .illegal | 0x02 => .controlFlow | 0x03 => .misaligned | 0x04 => .pageFault | 0x05 => .kindCross
  | 0x06 => .poison | 0x07 => .arithmetic | 0x08 => .deadline | 0x09 => .skew | 0x0A => .peerLost
  | 0x0B => .machineCheck | 0x10 => .trap | 0x11 => .breakpoint | 0x12 => .doubleFault | 0x20 => .preemption
  | _ => .debugStop

/-- halt: what end waits for, less the commit, then a fatal end with the cause in mcause, its pair and index, and s[a] as the handler
code (12 R360; 04 R103). -/
def State.haltWord (a : RegNo) (s : State) : State :=
  match s.settle with
  | (t, .done) =>
    let u := t.leaveStores
    let m := u.th.fr.m
    if u.endQuiet then u.fatalEnd (causeOf (bitsOf m.mcause 7 0)) m.mindex m.mspc m.mvcp (u.rd a) true else u
  | (t, _) => t

/-- halt; M only (12 R360). -/
def execHalt (a : RegNo) (s : State) : Host.Outcome State Fault Refusal :=
  .next (if s.th.fr.m.lvl then s.haltWord a else s.frontFault .illegal)

/-- vqsave (12 R361). -/
def execVqsave (a : RegNo) (s : State) : Host.Outcome State Fault Refusal := .next (s.vqsaveWord a)

/-- vqrestore (12 R361). -/
def execVqrestore (a : RegNo) (s : State) : Host.Outcome State Fault Refusal := .next (s.vqrestoreWord a)

/-- Whether a per-thread counter is one that this model counts: chain-break, whistle-wait, remote-translation-miss, remote-retry and VIQ
words retired. The others count cycles, which the model does not keep (12 Table 12.13; DESIGN CHOICE, log 4). (DESIGN CHOICE, log 41.) -/
def countsExactly (n : Nat) : Bool := [9, 33, 35, 36, 39].contains n

/-- A counter's value, none for a number that Table 12.13 does not list; a counter of cycles has gone on by a free amount since it was
last read (12 R373; 10 R305; 11 R347; DESIGN CHOICE, log 5). -/
def State.counter (s : State) (n : Nat) : Option (State × Word) :=
  if n ≤ 40 then
    if countsExactly n then some (s, vecGet s.th.cnt n 0)
    else
      let d := s.draw
      let x := vecGet s.th.cnt n 0 + Config.freeWord d.1
      some (d.2.onTh fun t => { t with cnt := vecSet t.cnt n x }, x)
  else if 0x100 ≤ n ∧ n < 0x108 then some (s, vecGet s.unc.forced (n - 0x100) 0)
  else if 0x110 ≤ n ∧ n < 0x114 then some (s, vecGet s.unc.merges (n - 0x110) 0)
  else none

/-- smpl.cnt: s[d] := the counter numbered s[a] (12 R373). -/
def execSmplCnt (d a : RegNo) (s : State) : Host.Outcome State Fault Refusal :=
  .next (match s.settle with
    | (t, .done) =>
      match t.counter (t.rd a).toNat with
      | none => t.frontFault .illegal
      | some (u, x) => (u.wr d x).seqNext 4
    | (t, _) => t)

/-- smpl.mark: the next vector memory word is sampled too (12 R375). -/
def execSmplMark (s : State) : Host.Outcome State Fault Refusal :=
  .next ((s.onRegs fun r => { r with mark := true }).seqNext 4)

/-- The software record of trc: its spc, gtime, and the halves of s[a] (12 R376, Table 12.15). -/
def State.trcRecord (x : Word) (s : State) : State :=
  if s.th.fr.regs.trccfg.getLsbD 3 then
    s.traceSend [s.traceHeader 2 5, traceVa s.th.fr.spc, word (s.gtime.toNat % 2 ^ 62), word (bitsOf x 31 0),
      word (bitsOf x 63 32)]
  else s

/-- trc (12 R376). -/
def execTrc (a : RegNo) (s : State) : Host.Outcome State Fault Refusal := .next ((s.trcRecord (s.rd a)).seqNext 4)

/-- mfc.m: every register, at M only (12 R356; 02 R48). -/
def execMfcM (d : RegNo) (n : BitVec 12) (s : State) : Host.Outcome State Fault Refusal :=
  .next (if s.th.fr.m.lvl then s.readCr d n.toNat else s.frontFault .illegal)

/-- mtc.m: every register, at M only (12 R356; 02 R48). -/
def execMtcM (a : RegNo) (n : BitVec 12) (s : State) : Host.Outcome State Fault Refusal :=
  .next (if s.th.fr.m.lvl then s.writeCrM (halfOf (.mtcM a n)) (s.rd a) n.toNat else s.frontFault .illegal)

end Sys2Proof.Machine
end

