-- ==== Sys2Proof/Machine/Vector.lean ====
section
/-! DEFINITION. The words of the vector instruction queue: what the front does when it sends each; the effect at the lanes is
`laneOf` of LaneWord.lean (spec/05 to 11; 02 R36, R43; 03 R56). -/

namespace Sys2Proof.Machine

/-! ### The front's part of words it has a part in -/

/-- setvl: vl := min(request, W × 32,768 / Size(z)), in s[d], in the front's copy and in the entry (05 R107, R109). -/
def setvlFront (w : VWord) (s : State) (e : VEntry) : State × VEntry :=
  let req : Nat := if w.form = .vi then w.fn.toNat else (s.rd w.vc).toNat
  let n := min req (vlmax s.width (sizeOf w.key))
  ((s.grantVl n).wr w.vd (word n), { e with vl := n })

/-- The tile extents a request is granted under mcfg (08 R215). -/
def tileGrant (mcfg : BitVec 7) (kmax : Nat) (x : Word) : Nat × Nat × Nat :=
  let k := min (bitsOf x 15 0) kmax
  let k1 := if mcSpn mcfg ≠ 0 then k / 48 * 48 else k
  (min (bitsOf x 47 32) 128, min (bitsOf x 31 16) 128, if mcfg.toNat / 16 % 4 ≠ 0 then k1 / 32 * 32 else k1)

/-- tshape: the extents in s[d] and in the entry, and tm in the front's copy (08 R215, R231). -/
def tshapeFront (w : VWord) (s : State) (e : VEntry) : State × VEntry :=
  let g := tileGrant s.th.fr.copy.mcfg s.th.fr.copy.kmax (s.rd w.vc)
  let x := word (g.2.2 + g.2.1 * 2 ^ 16 + g.1 * 2 ^ 32)
  (((s.log .tmCopy (word s.th.fr.copy.tm)).onCopy fun c => { c with tm := g.1 }).wr w.vd x, { e with x0 := x })

/-- mmode: the front's copies of mcfg, of KMAX and of tm (08 R214). -/
def mmodeFront (w : VWord) (s : State) (e : VEntry) : State × VEntry :=
  let c := BitVec.ofNat 7 w.fn.toNat
  let old := word (s.th.fr.copy.mcfg.toNat + s.th.fr.copy.kmax * 2 ^ 32)
  (((s.log .mcfg old).log .tmCopy (word s.th.fr.copy.tm)).onCopy fun k => { k with mcfg := c, kmax := kmaxOf c, tm := 0 }, e)

/-- vld.c and vst.c: the base s[vc] + CHUNK × STRIDE goes with the word, and CHUNK moves on (11 R336). -/
def chunkFront (_ : VWord) (s : State) (e : VEntry) : State × VEntry :=
  let c := s.th.fr.copy
  ((s.log .chunk c.chunk).onCopy fun k => { k with chunk := k.chunk + 1 }, { e with sc := e.sc + c.chunk * c.stride, x0 := c.chunk + 1 })

/-- scommit: sbase moves by vl (07 R203). -/
def scommitFront (s : State) (e : VEntry) : State × VEntry :=
  ((s.log .sbase s.th.fr.regs.sbase).onRegs fun r => { r with sbase := r.sbase + word s.th.fr.copy.vl }, e)

/-- A word that raises DoubleFault at M (12 R348). -/
def State.sendU (op : Nat) (w : VWord) (front : State → VEntry → State × VEntry) (s : State) : State :=
  if s.th.fr.m.lvl then s.frontFault .doubleFault else s.sendWith op w front

/-- cpw: the front then waits until at most s[a] commands are outstanding (10 R301). -/
def State.sendCpw (w : VWord) (s : State) : State :=
  let n := s.th.fr.seq
  let limit := s.rd w.va
  let t := s.send 0x69 w
  if t.th.fr.seq = n + 1 ∧ t.th.fr.m.lvl = s.th.fr.m.lvl ∧ t.th.life = s.th.life then
    t.onFr fun f => { f with wait := .copies limit }
  else t

/-! ### The words -/


/-- vadd: sent to the VIQ (R124). -/
def execVadd (w : VWord) (s : State) : Host.Outcome State Fault Refusal := .next (s.send 0x00 w)

/-- vsub: sent to the VIQ (R124). -/
def execVsub (w : VWord) (s : State) : Host.Outcome State Fault Refusal := .next (s.send 0x00 w)

/-- vrsub: sent to the VIQ (R124). -/
def execVrsub (w : VWord) (s : State) : Host.Outcome State Fault Refusal := .next (s.send 0x00 w)

/-- vmul: sent to the VIQ (R124). -/
def execVmul (w : VWord) (s : State) : Host.Outcome State Fault Refusal := .next (s.send 0x01 w)

/-- vmulh: sent to the VIQ (R124). -/
def execVmulh (w : VWord) (s : State) : Host.Outcome State Fault Refusal := .next (s.send 0x01 w)

/-- vmacc: sent to the VIQ (R124). -/
def execVmacc (w : VWord) (s : State) : Host.Outcome State Fault Refusal := .next (s.send 0x01 w)

/-- vsadd: sent to the VIQ (R124). -/
def execVsadd (w : VWord) (s : State) : Host.Outcome State Fault Refusal := .next (s.send 0x02 w)

/-- vssub: sent to the VIQ (R124). -/
def execVssub (w : VWord) (s : State) : Host.Outcome State Fault Refusal := .next (s.send 0x02 w)

/-- vsmul: sent to the VIQ (R124). -/
def execVsmul (w : VWord) (s : State) : Host.Outcome State Fault Refusal := .next (s.send 0x02 w)

/-- vsll: sent to the VIQ (R124). -/
def execVsll (w : VWord) (s : State) : Host.Outcome State Fault Refusal := .next (s.send 0x03 w)

/-- vsrl: sent to the VIQ (R124). -/
def execVsrl (w : VWord) (s : State) : Host.Outcome State Fault Refusal := .next (s.send 0x03 w)

/-- vsra: sent to the VIQ (R124). -/
def execVsra (w : VWord) (s : State) : Host.Outcome State Fault Refusal := .next (s.send 0x03 w)

/-- vror: sent to the VIQ (R124). -/
def execVror (w : VWord) (s : State) : Host.Outcome State Fault Refusal := .next (s.send 0x03 w)

/-- vand: sent to the VIQ (R124). -/
def execVand (w : VWord) (s : State) : Host.Outcome State Fault Refusal := .next (s.send 0x04 w)

/-- vor: sent to the VIQ (R124). -/
def execVor (w : VWord) (s : State) : Host.Outcome State Fault Refusal := .next (s.send 0x04 w)

/-- vxor: sent to the VIQ (R124). -/
def execVxor (w : VWord) (s : State) : Host.Outcome State Fault Refusal := .next (s.send 0x04 w)

/-- vandn: sent to the VIQ (R124). -/
def execVandn (w : VWord) (s : State) : Host.Outcome State Fault Refusal := .next (s.send 0x04 w)

/-- vmin: sent to the VIQ (R124). -/
def execVmin (w : VWord) (s : State) : Host.Outcome State Fault Refusal := .next (s.send 0x05 w)

/-- vmax: sent to the VIQ (R124). -/
def execVmax (w : VWord) (s : State) : Host.Outcome State Fault Refusal := .next (s.send 0x05 w)

/-- vabs: sent to the VIQ (R124). -/
def execVabs (w : VWord) (s : State) : Host.Outcome State Fault Refusal := .next (s.send 0x05 w)

/-- vcmpEq: sent to the VIQ (R125). -/
def execVcmpEq (w : VWord) (s : State) : Host.Outcome State Fault Refusal := .next (s.send 0x06 w)

/-- vfcmpEq: sent to the VIQ (R125). -/
def execVfcmpEq (w : VWord) (s : State) : Host.Outcome State Fault Refusal := .next (s.send 0x23 w)

/-- vcmpNe: sent to the VIQ (R125). -/
def execVcmpNe (w : VWord) (s : State) : Host.Outcome State Fault Refusal := .next (s.send 0x06 w)

/-- vfcmpNe: sent to the VIQ (R125). -/
def execVfcmpNe (w : VWord) (s : State) : Host.Outcome State Fault Refusal := .next (s.send 0x23 w)

/-- vcmpLt: sent to the VIQ (R125). -/
def execVcmpLt (w : VWord) (s : State) : Host.Outcome State Fault Refusal := .next (s.send 0x06 w)

/-- vfcmpLt: sent to the VIQ (R125). -/
def execVfcmpLt (w : VWord) (s : State) : Host.Outcome State Fault Refusal := .next (s.send 0x23 w)

/-- vcmpLe: sent to the VIQ (R125). -/
def execVcmpLe (w : VWord) (s : State) : Host.Outcome State Fault Refusal := .next (s.send 0x06 w)

/-- vfcmpLe: sent to the VIQ (R125). -/
def execVfcmpLe (w : VWord) (s : State) : Host.Outcome State Fault Refusal := .next (s.send 0x23 w)

/-- vcmpGt: sent to the VIQ (R125). -/
def execVcmpGt (w : VWord) (s : State) : Host.Outcome State Fault Refusal := .next (s.send 0x06 w)

/-- vfcmpGt: sent to the VIQ (R125). -/
def execVfcmpGt (w : VWord) (s : State) : Host.Outcome State Fault Refusal := .next (s.send 0x23 w)

/-- vcmpGe: sent to the VIQ (R125). -/
def execVcmpGe (w : VWord) (s : State) : Host.Outcome State Fault Refusal := .next (s.send 0x06 w)

/-- vfcmpGe: sent to the VIQ (R125). -/
def execVfcmpGe (w : VWord) (s : State) : Host.Outcome State Fault Refusal := .next (s.send 0x23 w)

/-- vfcmpUn: sent to the VIQ (R125). -/
def execVfcmpUn (w : VWord) (s : State) : Host.Outcome State Fault Refusal := .next (s.send 0x23 w)

/-- mand: sent to the VIQ (R126). -/
def execMand (w : VWord) (s : State) : Host.Outcome State Fault Refusal := .next (s.send 0x07 w)

/-- mor: sent to the VIQ (R126). -/
def execMor (w : VWord) (s : State) : Host.Outcome State Fault Refusal := .next (s.send 0x07 w)

/-- mxor: sent to the VIQ (R126). -/
def execMxor (w : VWord) (s : State) : Host.Outcome State Fault Refusal := .next (s.send 0x07 w)

/-- mandn: sent to the VIQ (R126). -/
def execMandn (w : VWord) (s : State) : Host.Outcome State Fault Refusal := .next (s.send 0x07 w)

/-- mnot: sent to the VIQ (R126). -/
def execMnot (w : VWord) (s : State) : Host.Outcome State Fault Refusal := .next (s.send 0x07 w)

/-- mpop: sent to the VIQ (R126). -/
def execMpop (w : VWord) (s : State) : Host.Outcome State Fault Refusal := .next (s.send 0x07 w)

/-- mfirst: sent to the VIQ (R126). -/
def execMfirst (w : VWord) (s : State) : Host.Outcome State Fault Refusal := .next (s.send 0x07 w)

/-- vsel: sent to the VIQ (R128). -/
def execVsel (w : VWord) (s : State) : Host.Outcome State Fault Refusal := .next (s.send 0x08 w)

/-- vbcast: sent to the VIQ (R128). -/
def execVbcast (w : VWord) (s : State) : Host.Outcome State Fault Refusal := .next (s.send 0x09 w)

/-- vmv: sent to the VIQ (R128). -/
def execVmv (w : VWord) (s : State) : Host.Outcome State Fault Refusal := .next (s.send 0x09 w)

/-- vmvsV: sent to the VIQ (R128). -/
def execVmvsV (w : VWord) (s : State) : Host.Outcome State Fault Refusal := .next (s.send 0x09 w)

/-- vmvsX: sent to the VIQ (R128). -/
def execVmvsX (w : VWord) (s : State) : Host.Outcome State Fault Refusal := .next (s.send 0x09 w)

/-- vfadd: sent to the VIQ (R129). -/
def execVfadd (w : VWord) (s : State) : Host.Outcome State Fault Refusal := .next (s.send 0x20 w)

/-- vfsub: sent to the VIQ (R129). -/
def execVfsub (w : VWord) (s : State) : Host.Outcome State Fault Refusal := .next (s.send 0x20 w)

/-- vfmul: sent to the VIQ (R129). -/
def execVfmul (w : VWord) (s : State) : Host.Outcome State Fault Refusal := .next (s.send 0x20 w)

/-- vfmadd: sent to the VIQ (R129). -/
def execVfmadd (w : VWord) (s : State) : Host.Outcome State Fault Refusal := .next (s.send 0x21 w)

/-- vfmsub: sent to the VIQ (R129). -/
def execVfmsub (w : VWord) (s : State) : Host.Outcome State Fault Refusal := .next (s.send 0x21 w)

/-- vfnmadd: sent to the VIQ (R129). -/
def execVfnmadd (w : VWord) (s : State) : Host.Outcome State Fault Refusal := .next (s.send 0x21 w)

/-- vfnmsub: sent to the VIQ (R129). -/
def execVfnmsub (w : VWord) (s : State) : Host.Outcome State Fault Refusal := .next (s.send 0x21 w)

/-- vfmacc: sent to the VIQ (R129). -/
def execVfmacc (w : VWord) (s : State) : Host.Outcome State Fault Refusal := .next (s.send 0x21 w)

/-- vfmin: sent to the VIQ (R129). -/
def execVfmin (w : VWord) (s : State) : Host.Outcome State Fault Refusal := .next (s.send 0x22 w)

/-- vfmax: sent to the VIQ (R129). -/
def execVfmax (w : VWord) (s : State) : Host.Outcome State Fault Refusal := .next (s.send 0x22 w)

/-- vfabs: sent to the VIQ (R129). -/
def execVfabs (w : VWord) (s : State) : Host.Outcome State Fault Refusal := .next (s.send 0x22 w)

/-- vfneg: sent to the VIQ (R129). -/
def execVfneg (w : VWord) (s : State) : Host.Outcome State Fault Refusal := .next (s.send 0x22 w)

/-- vfsignC: sent to the VIQ (R129). -/
def execVfsignC (w : VWord) (s : State) : Host.Outcome State Fault Refusal := .next (s.send 0x22 w)

/-- vfsignN: sent to the VIQ (R129). -/
def execVfsignN (w : VWord) (s : State) : Host.Outcome State Fault Refusal := .next (s.send 0x22 w)

/-- vfsignX: sent to the VIQ (R129). -/
def execVfsignX (w : VWord) (s : State) : Host.Outcome State Fault Refusal := .next (s.send 0x22 w)

/-- vredoAdd: sent to the VIQ (R130). -/
def execVredoAdd (w : VWord) (s : State) : Host.Outcome State Fault Refusal := .next (s.send 0x30 w)

/-- vredoMin: sent to the VIQ (R130). -/
def execVredoMin (w : VWord) (s : State) : Host.Outcome State Fault Refusal := .next (s.send 0x30 w)

/-- vredoMax: sent to the VIQ (R130). -/
def execVredoMax (w : VWord) (s : State) : Host.Outcome State Fault Refusal := .next (s.send 0x30 w)

/-- vredtAdd: sent to the VIQ (R130). -/
def execVredtAdd (w : VWord) (s : State) : Host.Outcome State Fault Refusal := .next (s.send 0x31 w)

/-- vredtMin: sent to the VIQ (R130). -/
def execVredtMin (w : VWord) (s : State) : Host.Outcome State Fault Refusal := .next (s.send 0x31 w)

/-- vredtMax: sent to the VIQ (R130). -/
def execVredtMax (w : VWord) (s : State) : Host.Outcome State Fault Refusal := .next (s.send 0x31 w)

/-- vredtAnd: sent to the VIQ (R130). -/
def execVredtAnd (w : VWord) (s : State) : Host.Outcome State Fault Refusal := .next (s.send 0x31 w)

/-- vredtOr: sent to the VIQ (R130). -/
def execVredtOr (w : VWord) (s : State) : Host.Outcome State Fault Refusal := .next (s.send 0x31 w)

/-- vredtXor: sent to the VIQ (R130). -/
def execVredtXor (w : VWord) (s : State) : Host.Outcome State Fault Refusal := .next (s.send 0x31 w)

/-- vscanInAdd: sent to the VIQ (R131). -/
def execVscanInAdd (w : VWord) (s : State) : Host.Outcome State Fault Refusal := .next (s.send 0x32 w)

/-- vscanInMin: sent to the VIQ (R131). -/
def execVscanInMin (w : VWord) (s : State) : Host.Outcome State Fault Refusal := .next (s.send 0x32 w)

/-- vscanInMax: sent to the VIQ (R131). -/
def execVscanInMax (w : VWord) (s : State) : Host.Outcome State Fault Refusal := .next (s.send 0x32 w)

/-- vscanExAdd: sent to the VIQ (R131). -/
def execVscanExAdd (w : VWord) (s : State) : Host.Outcome State Fault Refusal := .next (s.send 0x32 w)

/-- vscanExMin: sent to the VIQ (R131). -/
def execVscanExMin (w : VWord) (s : State) : Host.Outcome State Fault Refusal := .next (s.send 0x32 w)

/-- vscanExMax: sent to the VIQ (R131). -/
def execVscanExMax (w : VWord) (s : State) : Host.Outcome State Fault Refusal := .next (s.send 0x32 w)

/-- vslipUp: sent to the VIQ (R132). -/
def execVslipUp (w : VWord) (s : State) : Host.Outcome State Fault Refusal := .next (s.send 0x33 w)

/-- vslipDn: sent to the VIQ (R132). -/
def execVslipDn (w : VWord) (s : State) : Host.Outcome State Fault Refusal := .next (s.send 0x33 w)

/-- vslipUpin: sent to the VIQ (R132). -/
def execVslipUpin (w : VWord) (s : State) : Host.Outcome State Fault Refusal := .next (s.send 0x33 w)

/-- vslipDnin: sent to the VIQ (R132). -/
def execVslipDnin (w : VWord) (s : State) : Host.Outcome State Fault Refusal := .next (s.send 0x33 w)

/-- vpick: sent to the VIQ (R133). -/
def execVpick (w : VWord) (s : State) : Host.Outcome State Fault Refusal := .next (s.send 0x34 w)

/-- vcompress: sent to the VIQ (R134). -/
def execVcompress (w : VWord) (s : State) : Host.Outcome State Fault Refusal := .next (s.send 0x35 w)

/-- vexpand: sent to the VIQ (R134). -/
def execVexpand (w : VWord) (s : State) : Host.Outcome State Fault Refusal := .next (s.send 0x35 w)

/-- vcvt: sent to the VIQ (R151). -/
def execVcvt (w : VWord) (s : State) : Host.Outcome State Fault Refusal := .next (s.send 0x38 w)

/-- vcvtEf: sent to the VIQ (R155). -/
def execVcvtEf (w : VWord) (s : State) : Host.Outcome State Fault Refusal := .next (s.send 0x39 w)

/-- vpack: sent to the VIQ (R158). -/
def execVpack (w : VWord) (s : State) : Host.Outcome State Fault Refusal := .next (s.send 0x3A w)

/-- vunpack: sent to the VIQ (R158). -/
def execVunpack (w : VWord) (s : State) : Host.Outcome State Fault Refusal := .next (s.send 0x3A w)

/-- vscaleMul: sent to the VIQ (R159). -/
def execVscaleMul (w : VWord) (s : State) : Host.Outcome State Fault Refusal := .next (s.send 0x3B w)

/-- vscaleDiv: sent to the VIQ (R159). -/
def execVscaleDiv (w : VWord) (s : State) : Host.Outcome State Fault Refusal := .next (s.send 0x3B w)

/-- vfclass: sent to the VIQ (R160). -/
def execVfclass (w : VWord) (s : State) : Host.Outcome State Fault Refusal := .next (s.send 0x3C w)

/-- vdiv: sent to the VIQ (R162). -/
def execVdiv (w : VWord) (s : State) : Host.Outcome State Fault Refusal := .next (s.send 0x3D w)

/-- vrdiv: sent to the VIQ (R162). -/
def execVrdiv (w : VWord) (s : State) : Host.Outcome State Fault Refusal := .next (s.send 0x3D w)

/-- vsqrt: sent to the VIQ (R162). -/
def execVsqrt (w : VWord) (s : State) : Host.Outcome State Fault Refusal := .next (s.send 0x3D w)

/-- vrsq: sent to the VIQ (R162). -/
def execVrsq (w : VWord) (s : State) : Host.Outcome State Fault Refusal := .next (s.send 0x3D w)

/-- vld: sent to the VIQ (R199). -/
def execVld (w : VWord) (s : State) : Host.Outcome State Fault Refusal := .next (s.send 0x40 w)

/-- vldC: sent to the VIQ (R336). -/
def execVldC (w : VWord) (s : State) : Host.Outcome State Fault Refusal := .next (s.sendWith 0x40 w (chunkFront w))

/-- vldQ: sent to the VIQ (R200). -/
def execVldQ (w : VWord) (s : State) : Host.Outcome State Fault Refusal := .next (s.send 0x40 w)

/-- vlds: sent to the VIQ (R199). -/
def execVlds (w : VWord) (s : State) : Host.Outcome State Fault Refusal := .next (s.send 0x41 w)

/-- vldx: sent to the VIQ (R199). -/
def execVldx (w : VWord) (s : State) : Host.Outcome State Fault Refusal := .next (s.send 0x42 w)

/-- vldg: sent to the VIQ (R201). -/
def execVldg (w : VWord) (s : State) : Host.Outcome State Fault Refusal := .next (s.send 0x43 w)

/-- vst: sent to the VIQ (R199). -/
def execVst (w : VWord) (s : State) : Host.Outcome State Fault Refusal := .next (s.send 0x44 w)

/-- vstC: sent to the VIQ (R336). -/
def execVstC (w : VWord) (s : State) : Host.Outcome State Fault Refusal := .next (s.sendWith 0x44 w (chunkFront w))

/-- vstQ: sent to the VIQ (R200). -/
def execVstQ (w : VWord) (s : State) : Host.Outcome State Fault Refusal := .next (s.send 0x44 w)

/-- vsts: sent to the VIQ (R199). -/
def execVsts (w : VWord) (s : State) : Host.Outcome State Fault Refusal := .next (s.send 0x45 w)

/-- vstx: sent to the VIQ (R199). -/
def execVstx (w : VWord) (s : State) : Host.Outcome State Fault Refusal := .next (s.send 0x46 w)

/-- vstxo: sent to the VIQ (R191). -/
def execVstxo (w : VWord) (s : State) : Host.Outcome State Fault Refusal := .next (s.send 0x47 w)

/-- vstg: sent to the VIQ (R201). -/
def execVstg (w : VWord) (s : State) : Host.Outcome State Fault Refusal := .next (s.send 0x48 w)

/-- vpref: sent to the VIQ (R202). -/
def execVpref (w : VWord) (s : State) : Host.Outcome State Fault Refusal := .next (s.send 0x49 w)

/-- scommit: sent to the VIQ (R203). -/
def execScommit (w : VWord) (s : State) : Host.Outcome State Fault Refusal := .next (s.sendU 0x4A w scommitFront)

/-- cutstep: sent to the VIQ (R204). -/
def execCutstep (w : VWord) (s : State) : Host.Outcome State Fault Refusal := .next (s.send 0x4B w)

/-- mzero: sent to the VIQ (R227). -/
def execMzero (w : VWord) (s : State) : Host.Outcome State Fault Refusal := .next (s.send 0x50 w)

/-- mouter: sent to the VIQ (R223). -/
def execMouter (w : VWord) (s : State) : Host.Outcome State Fault Refusal := .next (s.send 0x51 w)

/-- mouteri: sent to the VIQ (R223). -/
def execMouteri (w : VWord) (s : State) : Host.Outcome State Fault Refusal := .next (s.send 0x52 w)

/-- mouterc: sent to the VIQ (R224). -/
def execMouterc (w : VWord) (s : State) : Host.Outcome State Fault Refusal := .next (s.send 0x53 w)

/-- mlacc: sent to the VIQ (R228). -/
def execMlacc (w : VWord) (s : State) : Host.Outcome State Fault Refusal := .next (s.send 0x54 w)

/-- mdrain: sent to the VIQ (R231). -/
def execMdrain (w : VWord) (s : State) : Host.Outcome State Fault Refusal := .next (s.send 0x55 w)

/-- mtov: sent to the VIQ (R230). -/
def execMtov (w : VWord) (s : State) : Host.Outcome State Fault Refusal := .next (s.send 0x56 w)

/-- mscale: sent to the VIQ (R229). -/
def execMscale (w : VWord) (s : State) : Host.Outcome State Fault Refusal := .next (s.send 0x57 w)

/-- bclr: sent to the VIQ (R251). -/
def execBclr (w : VWord) (s : State) : Host.Outcome State Fault Refusal := .next (s.send 0x58 w)

/-- btload: sent to the VIQ (R252). -/
def execBtload (w : VWord) (s : State) : Host.Outcome State Fault Refusal := .next (s.send 0x58 w)

/-- btdrain: sent to the VIQ (R252). -/
def execBtdrain (w : VWord) (s : State) : Host.Outcome State Fault Refusal := .next (s.send 0x58 w)

/-- bqr: sent to the VIQ (R253). -/
def execBqr (w : VWord) (s : State) : Host.Outcome State Fault Refusal := .next (s.send 0x59 w)

/-- bqra: sent to the VIQ (R253). -/
def execBqra (w : VWord) (s : State) : Host.Outcome State Fault Refusal := .next (s.send 0x59 w)

/-- bqrD: sent to the VIQ (R253). -/
def execBqrD (w : VWord) (s : State) : Host.Outcome State Fault Refusal := .next (s.send 0x59 w)

/-- bapply: sent to the VIQ (R254). -/
def execBapply (w : VWord) (s : State) : Host.Outcome State Fault Refusal := .next (s.send 0x5A w)

/-- bapplyC0: sent to the VIQ (R254). -/
def execBapplyC0 (w : VWord) (s : State) : Host.Outcome State Fault Refusal := .next (s.send 0x5A w)

/-- bvec: sent to the VIQ (R256). -/
def execBvec (w : VWord) (s : State) : Host.Outcome State Fault Refusal := .next (s.send 0x5B w)

/-- bangleD: sent to the VIQ (R256). -/
def execBangleD (w : VWord) (s : State) : Host.Outcome State Fault Refusal := .next (s.send 0x5B w)

/-- bangleA: sent to the VIQ (R256). -/
def execBangleA (w : VWord) (s : State) : Host.Outcome State Fault Refusal := .next (s.send 0x5B w)

/-- brot: sent to the VIQ (R257). -/
def execBrot (w : VWord) (s : State) : Host.Outcome State Fault Refusal := .next (s.send 0x5C w)

/-- vrotate: sent to the VIQ (R256). -/
def execVrotate (w : VWord) (s : State) : Host.Outcome State Fault Refusal := .next (s.send 0x5C w)

/-- bgain: sent to the VIQ (R258). -/
def execBgain (w : VWord) (s : State) : Host.Outcome State Fault Refusal := .next (s.send 0x5D w)

/-- bsolve: sent to the VIQ (R255). -/
def execBsolve (w : VWord) (s : State) : Host.Outcome State Fault Refusal := .next (s.send 0x5E w)

/-- vamo: sent to the VIQ (R273). -/
def execVamo (w : VWord) (s : State) : Host.Outcome State Fault Refusal := .next (s.send 0x62 w)

/-- vamoo: sent to the VIQ (R273). -/
def execVamoo (w : VWord) (s : State) : Host.Outcome State Fault Refusal := .next (s.send 0x62 w)

/-- accw: sent to the VIQ (R277). -/
def execAccw (w : VWord) (s : State) : Host.Outcome State Fault Refusal := .next (s.send 0x63 w)

/-- vacc: sent to the VIQ (R278). -/
def execVacc (w : VWord) (s : State) : Host.Outcome State Fault Refusal := .next (s.send 0x63 w)

/-- amerge: sent to the VIQ (R279). -/
def execAmerge (w : VWord) (s : State) : Host.Outcome State Fault Refusal := .next (s.send 0x63 w)

/-- accrel: sent to the VIQ (R280). -/
def execAccrel (w : VWord) (s : State) : Host.Outcome State Fault Refusal := .next (s.send 0x63 w)

/-- cp: sent to the VIQ (R297). -/
def execCp (w : VWord) (s : State) : Host.Outcome State Fault Refusal := .next (s.send 0x69 w)

/-- cp2: sent to the VIQ (R297). -/
def execCp2 (w : VWord) (s : State) : Host.Outcome State Fault Refusal := .next (s.send 0x69 w)

/-- cpx: sent to the VIQ (R297). -/
def execCpx (w : VWord) (s : State) : Host.Outcome State Fault Refusal := .next (s.send 0x69 w)

/-- cpq: sent to the VIQ (R297). -/
def execCpq (w : VWord) (s : State) : Host.Outcome State Fault Refusal := .next (s.send 0x69 w)

/-- cpw: sent to the VIQ (R301). -/
def execCpw (w : VWord) (s : State) : Host.Outcome State Fault Refusal := .next (s.sendCpw w)

/-- wdecl: sent to the VIQ (R309). -/
def execWdecl (w : VWord) (s : State) : Host.Outcome State Fault Refusal := .next (s.send 0x70 w)

/-- wdeclRel: sent to the VIQ (R310). -/
def execWdeclRel (w : VWord) (s : State) : Host.Outcome State Fault Refusal := .next (s.send 0x70 w)

/-- vldr: sent to the VIQ (R326). -/
def execVldr (w : VWord) (s : State) : Host.Outcome State Fault Refusal := .next (s.send 0x71 w)

/-- vstr: sent to the VIQ (R327). -/
def execVstr (w : VWord) (s : State) : Host.Outcome State Fault Refusal := .next (s.send 0x72 w)

/-- step: sent to the VIQ (R314). -/
def execStep (w : VWord) (s : State) : Host.Outcome State Fault Refusal := .next (s.sendU 0x73 w fun t e => (t, e))

/-- stepAt: sent to the VIQ (R320). -/
def execStepAt (w : VWord) (s : State) : Host.Outcome State Fault Refusal := .next (s.sendU 0x73 w fun t e => (t, e))

/-- stepq: sent to the VIQ (R321). -/
def execStepq (w : VWord) (s : State) : Host.Outcome State Fault Refusal := .next (s.sendU 0x73 w fun t e => (t, e))

/-- fsbindRx: sent to the VIQ (R337). -/
def execFsbindRx (w : VWord) (s : State) : Host.Outcome State Fault Refusal := .next (s.send 0x74 w)

/-- fsbindTx: sent to the VIQ (R337). -/
def execFsbindTx (w : VWord) (s : State) : Host.Outcome State Fault Refusal := .next (s.send 0x74 w)

/-- fsbindU: sent to the VIQ (R337). -/
def execFsbindU (w : VWord) (s : State) : Host.Outcome State Fault Refusal := .next (s.send 0x74 w)

/-- vcred: sent to the VIQ (R343). -/
def execVcred (w : VWord) (s : State) : Host.Outcome State Fault Refusal := .next (s.send 0x75 w)

/-- setvl: sent to the VIQ (R109). -/
def execSetvl (w : VWord) (s : State) : Host.Outcome State Fault Refusal := .next (s.sendWith 0x78 w (setvlFront w))

/-- setvt: sent to the VIQ (R110). -/
def execSetvt (w : VWord) (s : State) : Host.Outcome State Fault Refusal := .next (s.send 0x78 w)

/-- setfmt: sent to the VIQ (R141). -/
def execSetfmt (w : VWord) (s : State) : Host.Outcome State Fault Refusal := .next (s.send 0x79 w)

/-- mshape: sent to the VIQ (R114). -/
def execMshape (w : VWord) (s : State) : Host.Outcome State Fault Refusal := .next (s.send 0x7A w)

/-- tshape: sent to the VIQ (R215). -/
def execTshape (w : VWord) (s : State) : Host.Outcome State Fault Refusal := .next (s.sendWith 0x7A w (tshapeFront w))

/-- mmode: sent to the VIQ (R214). -/
def execMmode (w : VWord) (s : State) : Host.Outcome State Fault Refusal := .next (s.sendWith 0x7B w (mmodeFront w))

end Sys2Proof.Machine
end

