-- ==== Sys2Proof/Machine/Front.lean ====
section
/-! DEFINITION. The front words of majors 0x60, 0x61 and 0x64 to 0x68: scalar atomics, sync registers, huddles, the pass ring,
fences and arrival words (spec/10_atomic_sync_copy_instructions.md R263 to R295). -/

namespace Sys2Proof.Machine

/-! ### Order -/

/-- A front word that changes state outside its thread waits until older VIQ words are done and older scalar stores are
performed; as a release it first has the committed strips performed (10 R264, R265). -/
def State.frontOrder (ord : Nat) (k : State → State) (s : State) : State :=
  match s.settle with
  | (t, .done) =>
    let u := t.leaveStores
    if u.th.fr.storeQ = [] then k (u.release ord) else u
  | (t, _) => t

/-- The acquire of a front word with ORD 1 or 3 (10 R265). -/
def State.frontAcquire (ord scope : Nat) (s : State) : State := if ord % 2 = 1 then s.acquire scope else s

/-! ### Atomics -/

/-- The low bytes of an operand register read as a type. -/
def operandOf (t : EType) (x : Word) : Nat := x.toNat % 2 ^ t.fixedBits

/-- The old value as s[d] receives it: I32 sign-extended, every other type zero-extended (10 R269). -/
def oldValue (t : EType) (old : Nat) : Word := if t = .i32 then BitVec.ofInt 64 (sext 32 old) else word old

/-- Run k at the home of an atomic access whose checks have passed, after the gates of R266 and R187 (10 R266, R271).
(DEDUCED, log 43.) (DEDUCED, log 44.) -/
def State.atHome (va : Word) (sz : Nat) (k : Nat → State → State) (s : State) : State :=
  match s.atomicCheck 0 va sz with
  | (t, .error c) => t.frontFault c
  | (t, .ok (pa, kind)) =>
    let g := (t.soGate kind).atomicGate pa sz
    if g.soWaits kind then g else if g.homePoisoned pa then g.frontFault .poison else k pa (g.l2Read false (g.cellOf pa) sz)

/-- The end of an FP atomic: an enabled flag traps with the memory and s[d] written and the position after the word
(10 R269; 12 Table 12.1), but at M with the word's own (12 R349, R352). -/
def State.amoDone (d : RegNo) (x : Word) (fl : Flags) (s : State) : State :=
  if s.trapped fl ≠ 0 then
    let t := if s.th.fr.m.lvl then s.wr d x else (s.wr d x).seqNext 8
    t.takeException .arithmetic noIndex t.th.fr.spc t.th.fr.spc (t.trapped fl) false
  else (s.wrFlags d x fl).seqNext 8

/-- amo.op: old to s[d], new to memory, indivisibly (10 R269, R271). -/
def State.amoWord (op : Nat) (w : VWord) (s : State) : State :=
  s.frontOrder w.ord fun t =>
    let sz := w.ety.fixedBits / 8
    t.atHome (t.rd w.va) sz fun pa g =>
      let old := g.homeNat pa sz
      let r := aluOp op w.ety 0 old (operandOf w.ety (g.rd w.vb))
      ((g.homePut pa sz r.1).frontAcquire w.ord w.scope).amoDone w.vd (oldValue w.ety old) r.2

/-- amo.swap (10 R269). -/
def execAmoSwap (w : VWord) (s : State) : Host.Outcome State Fault Refusal := .next (s.amoWord 0 w)
/-- amo.add (10 R269). -/
def execAmoAdd (w : VWord) (s : State) : Host.Outcome State Fault Refusal := .next (s.amoWord 1 w)
/-- amo.and (10 R269). -/
def execAmoAnd (w : VWord) (s : State) : Host.Outcome State Fault Refusal := .next (s.amoWord 2 w)
/-- amo.or (10 R269). -/
def execAmoOr (w : VWord) (s : State) : Host.Outcome State Fault Refusal := .next (s.amoWord 3 w)
/-- amo.xor (10 R269). -/
def execAmoXor (w : VWord) (s : State) : Host.Outcome State Fault Refusal := .next (s.amoWord 4 w)
/-- amo.min (10 R269). -/
def execAmoMin (w : VWord) (s : State) : Host.Outcome State Fault Refusal := .next (s.amoWord 5 w)
/-- amo.max (10 R269). -/
def execAmoMax (w : VWord) (s : State) : Host.Outcome State Fault Refusal := .next (s.amoWord 6 w)

/-- amocas: compare on bits and swap (10 R270). -/
def execAmocas (w : VWord) (s : State) : Host.Outcome State Fault Refusal :=
  .next (s.frontOrder w.ord fun t =>
    let sz := w.ety.fixedBits / 8
    t.atHome (t.rd w.va) sz fun pa g =>
      let old := g.homeNat pa sz
      let g1 := if old = operandOf w.ety (g.rd w.vb) then g.homePut pa sz (operandOf w.ety (g.rd w.vc)) else g
      ((g1.frontAcquire w.ord w.scope).wr w.vd (BitVec.ofInt 64 (sext (8 * sz) old))).seqNext 8)

/-! ### Sync registers -/

/-- Run k on a register's home die and index: a number above 11 bits is illegal, one outside the context's range raises
PageFault (10 R281). -/
def State.withSync (x : Word) (k : Nat → Nat → State → State) (s : State) : State :=
  if bitsOf x 63 11 ≠ 0 then s.frontFault .illegal
  else if !s.ownsSync (bitsOf x 8 0) then s.frontFault .pageFault
  else k (bitsOf x 10 9) (bitsOf x 8 0) s

/-- sync.rd: the value in the sync block of the thread's die (10 R283). -/
def execSyncRd (w : VWord) (s : State) : Host.Outcome State Fault Refusal :=
  .next (s.withSync (s.rd w.va) fun die n t =>
    ((t.frontAcquire w.ord w.scope).wr w.vd (t.syncSeen t.th.bind.die die n)).seqNext 8)

/-- A sync word at the home: the register's new value, and its old one to s[d] where the word returns it (10 R283). -/
def State.syncHome (w : VWord) (returns : Bool) (f : Word → Word → Word) (s : State) : State :=
  s.withSync (s.rd w.va) fun die n u => u.frontOrder w.ord fun t =>
    let old := t.syncGet die n
    let t1 := (t.syncPut die n (f old (t.rd w.vb))).frontAcquire w.ord w.scope
    (if returns then t1.wr w.vd old else t1).seqNext 8

/-- sync.wr (10 R283). -/
def execSyncWr (w : VWord) (s : State) : Host.Outcome State Fault Refusal := .next (s.syncHome w false fun _ b => b)
/-- sync.tas (10 R283). -/
def execSyncTas (w : VWord) (s : State) : Host.Outcome State Fault Refusal := .next (s.syncHome w true fun old _ => old ||| 1)
/-- sync.fadd (10 R283). -/
def execSyncFadd (w : VWord) (s : State) : Host.Outcome State Fault Refusal := .next (s.syncHome w true fun old b => old + b)

/-! ### Huddles -/

/-- A huddle's fields (10 Table 10.9). -/
structure Huddle where
  gen : Nat
  drp : Nat
  exp : Nat
  arr : Nat
  deriving DecidableEq, Repr

/-- Read a huddle (10 Table 10.9). -/
def huddleOf (x : Word) : Huddle := { gen := bitsOf x 63 36, drp := bitsOf x 35 24, exp := bitsOf x 23 12, arr := bitsOf x 11 0 }

/-- The word of a huddle (10 Table 10.9). -/
def Huddle.toWord (h : Huddle) : Word :=
  word (h.gen % 2 ^ 28 * 2 ^ 36 + h.drp % 2 ^ 12 * 2 ^ 24 + h.exp % 2 ^ 12 * 2 ^ 12 + h.arr % 2 ^ 12)

/-- One arrival, which may also drop: refused above EXP; a full phase advances GEN (10 R287). -/
def Huddle.arrive (h : Huddle) (drop : Bool) : Option Huddle :=
  if h.exp < h.arr + 1 then none
  else
    let a := h.arr + 1
    let d := h.drp + bitNat drop
    if a = h.exp then some { gen := (h.gen + 1) % 2 ^ 28, drp := 0, exp := h.exp - d, arr := 0 }
    else some { h with drp := d, arr := a }

/-- hud.init: EXP of a huddle without arrivals (10 Table 10.10). (DESIGN CHOICE, log 77.) -/
def execHudInit (w : VWord) (s : State) : Host.Outcome State Fault Refusal :=
  .next (if bitsOf (s.rd w.vb) 63 12 ≠ 0 then s.frontFault .illegal
    else s.withSync (s.rd w.va) fun die n u => u.frontOrder 0 fun t =>
      let h := huddleOf (t.syncGet die n)
      if h.arr = 0 then
        ((t.syncPut die n { h with exp := (t.rd w.vb).toNat, drp := 0 }.toWord).wr w.vd 0).seqNext 8
      else (t.wr w.vd 1).seqNext 8)

/-- Whether an arrival of the current thread belongs to the set in which a phase of a huddle has completed: it comes in the same
cycle from a later requester in the order of die, core and slot, and nothing but arrivals has come between. Operations of one register
reach their home in rising requester order within a cycle, so one from a requester that is not later is of another cycle (10 R284, R287).
(DEDUCED, log 76.) -/
def State.phaseNow (s : State) (reg : Nat) : Bool :=
  s.sync.phases.any fun x => x.1 = reg && x.2.1 = s.gtime && x.2.2 < s.th.bind.place

/-- Note that an arrival of the current thread completes a phase of a huddle (10 R287). -/
def State.notePhase (reg : Nat) (s : State) : State :=
  { s with sync := { s.sync with phases := (reg, s.gtime, s.th.bind.place) :: s.sync.phases.filter fun x => x.1 ≠ reg } }

/-- hud.arr and hud.drop, releases of package scope: s[d] := the phase joined, with bit 63 set where refused; in the cycle that
completes a phase every further one is refused (10 R286, R287). -/
def State.huddleWord (w : VWord) (drop : Bool) (s : State) : State :=
  s.withSync (s.rd w.va) fun die n u => u.frontOrder 2 fun t =>
    let reg := die * 512 + n
    let h := huddleOf (t.syncGet die n)
    if t.phaseNow reg then (t.wr w.vd (word ((h.gen + 2 ^ 28 - 1) % 2 ^ 28 + 2 ^ 63))).seqNext 8
    else
      match h.arrive drop with
      | none => (t.wr w.vd (word (h.gen + 2 ^ 63))).seqNext 8
      | some h' =>
        let u := t.syncPut die n h'.toWord
        ((if h'.gen = h.gen then u else u.notePhase reg).wr w.vd (word h.gen)).seqNext 8

/-- hud.arr (10 R287). -/
def execHudArr (w : VWord) (s : State) : Host.Outcome State Fault Refusal := .next (s.huddleWord w false)
/-- hud.drop (10 R287). -/
def execHudDrop (w : VWord) (s : State) : Host.Outcome State Fault Refusal := .next (s.huddleWord w true)

/-- The return of hud.wait, an acquire of package scope, once GEN in the die's sync block differs (10 R286, R288). -/
def State.huddleReturn (reg gen : Nat) (s : State) : State :=
  let h := huddleOf (s.syncSeen s.th.bind.die (reg / 512) (reg % 512))
  if h.gen = gen then s.onFr fun f => { f with wait := .huddle reg gen }
  else ((s.onFr fun f => { f with wait := .none }).acquire 3).seqNext 8

/-- hud.wait (10 R288). -/
def execHudWait (w : VWord) (s : State) : Host.Outcome State Fault Refusal :=
  .next (s.withSync (s.rd w.va) fun die n t => t.huddleReturn (die * 512 + n) (bitsOf (t.rd w.vb) 27 0))

/-! ### The pass ring -/

/-- TAG of ptag (10 Table 10.12). -/
def State.tag (s : State) : Nat := bitsOf s.th.fr.regs.ptag 3 0

/-- An entry of a core's post table (10 R289). -/
def State.postGet (s : State) (core tag : Nat) : BitVec 48 :=
  ((s.sync.post.find? fun e => e.1 = core ∧ e.2.1 = tag).map (·.2.2)).getD 0

/-- Write an entry of a core's post table (10 R289). -/
def State.postPut (core tag : Nat) (v : BitVec 48) (s : State) : State :=
  { s with sync := { s.sync with post := (core, tag, v) :: s.sync.post.filter fun e => ¬ (e.1 = core ∧ e.2.1 = tag) } }

/-- What a post makes of an entry (10 Table 10.13). -/
def postNew (set : Bool) (old v : BitVec 48) : BitVec 48 := if set || old ≤ v then v else old

/-- LAST of ptag, logged (10 R290; 03 R60). -/
def State.setLast (v : BitVec 48) (s : State) : State :=
  (s.log .ptag s.th.fr.regs.ptag).onRegs fun r => { r with ptag := word (v.toNat * 65536 + bitsOf r.ptag 15 0) }

/-- Whether the context holds the entry that ptag names (10 R289). -/
def State.ownsPost (s : State) : Bool := match s.ctxRec with | some c => c.posts.contains s.tag | none => false

/-- Run k on s[a] of a pass-ring word after its checks (10 R289, R291). (DESIGN CHOICE, log 77.) -/
def State.withPost (x : Word) (k : BitVec 48 → State → State) (s : State) : State :=
  if bitsOf x 63 48 ≠ 0 then s.frontFault .illegal
  else if !s.ownsPost then s.frontFault .pageFault
  else k (x.setWidth 48) s

/-- The other cores of a die in ring order from a core (10 R289). -/
def ringFrom (core : Nat) : List Nat := (List.range 55).map fun i => (core + 1 + i) % 56

/-- post and post.set, releases of die scope: the own core's table now, the others along the ring (10 R289, R291). -/
def State.postWord (w : VWord) (set : Bool) (s : State) : State :=
  s.withPost (s.rd w.va) fun v u => u.frontOrder 2 fun t =>
    let b := t.th.bind
    let new := postNew set (t.postGet b.coreNo t.tag) v
    let p : RingPost := { die := b.die, src := b.core, tag := t.tag, value := v, set := set, left := ringFrom b.core }
    let t1 := t.postPut b.coreNo t.tag new
    (({ t1 with sync := { t1.sync with ring := t1.sync.ring ++ [p] } }).setLast new).seqNext 8

/-- post (10 R291). -/
def execPost (w : VWord) (s : State) : Host.Outcome State Fault Refusal := .next (s.postWord w false)
/-- post.set (10 R291). -/
def execPostSet (w : VWord) (s : State) : Host.Outcome State Fault Refusal := .next (s.postWord w true)

/-- The return of waiti, an acquire of die scope, once the entry has reached the value in the thread's core (10 R291). -/
def State.ringReturn (v : Nat) (s : State) : State :=
  let x := s.postGet s.th.bind.coreNo s.tag
  if x.toNat < v then s.onFr fun f => { f with wait := .ring v }
  else (((s.onFr fun f => { f with wait := .none }).setLast x).acquire 2).seqNext 8

/-- waiti (10 R291). -/
def execWaiti (w : VWord) (s : State) : Host.Outcome State Fault Refusal :=
  .next (s.withPost (s.rd w.va) fun v t => t.ringReturn v.toNat)

/-! ### Fences -/

/-- Whether a fence names a page kind (10 R292). -/
def fenceNames (w : VWord) (kind : Nat) : Bool := kind < 3 && w.fnBits (9 + kind) 1 == 1

/-- fence: older VIQ words have retired and, for prior writes, the scalar stores and the entries of committed strips of the kinds it
names are performed; for later reads at scope core or wider the scalar data cache is cleared (10 R292). -/
def execFence (w : VWord) (s : State) : Host.Outcome State Fault Refusal :=
  .next (match s.settle with
    | (t, .done) =>
      let u := t.leaveStores
      if w.vd.getLsbD 1 && u.th.fr.storeQ.any (fun e => fenceNames w e.kind) then u
      else
        let v := if w.vd.getLsbD 1 then u.drainWhere fun e => e.remote.isNone && fenceNames w (e.kind % 8) else u
        (v.frontAcquire (if w.vd.getLsbD 2 then 1 else 0) w.scope).seqNext 8
    | (t, _) => t)

/-! ### Arrival words -/

/-- One update of the arrival word at a physical address; a line of the core's data cache takes it (10 R293; 03 R58). -/
def State.awWrite (pa : Nat) (f : Word → Word → Word × Word) (s : State) : State :=
  let t := s.awUpdate (s.cellOf pa) f
  t.dcacheStore t.th.bind.coreNo pa (t.bytesAt (t.cellOf pa) 16)

/-- aw.init and aw.add (10 R295). (DESIGN CHOICE, log 77.) -/
def State.awWord (w : VWord) (bad : Nat → Bool) (f : Nat → Word → Word → Word × Word) (s : State) : State :=
  if bad (s.rd w.vb).toNat then s.frontFault .illegal
  else s.frontOrder w.ord fun t =>
    t.atHome (t.rd w.va) 16 fun pa g => (g.awWrite pa (f (g.rd w.vb).toNat)).seqNext 8

/-- aw.init (10 R295). -/
def execAwInit (w : VWord) (s : State) : Host.Outcome State Fault Refusal :=
  .next (s.awWord w (fun n => n = 0 || 2 ^ 40 ≤ n) fun n _ d1 => awPack n false false (bitsOf d1 59 40) 0)

/-- aw.add (10 R295). -/
def execAwAdd (w : VWord) (s : State) : Host.Outcome State Fault Refusal :=
  .next (s.awWord w (fun n => 2 ^ 40 ≤ n) fun n d0 d1 => awDeliver n d0 d1)

/-- The return of aw.wait once GEN differs: s[d] := double 1 (10 R295). -/
def State.arrivalReturn (d : RegNo) (va : Word) (gen ord scope : Nat) (s : State) : State :=
  s.atHome va 16 fun pa g =>
    let d1 := (g.awRead (g.cellOf pa)).2
    if bitsOf d1 59 40 = gen then g.onFr fun f => { f with wait := .arrival d va gen ord scope }
    else (((g.onFr fun f => { f with wait := .none }).frontAcquire ord scope).wr d d1).seqNext 8

/-- aw.wait (10 R295). -/
def execAwWait (w : VWord) (s : State) : Host.Outcome State Fault Refusal :=
  .next (s.arrivalReturn w.vd (s.rd w.va) (bitsOf (s.rd w.vb) 19 0) w.ord w.scope)

end Sys2Proof.Machine
end

