-- ==== Sys2Proof/Machine/Lanes.lean ====
section
/-! DEFINITION. Lane mode: the words a lane may run, and how a cluster issues one from the next of its lanes
(spec/04_control_flow_instructions.md R96 to R99; 02 R30). -/

namespace Sys2Proof.Machine

/-- A word in a lane: the words that R96 calls legal have their meaning on the lane's registers, every other is illegal with
the lane's number (04 R96). -/
def laneExec (i : Instr) (s : State) : Host.Outcome State Fault Refusal :=
  match i with
  | .add d a b => execAdd d a b s
  | .sub d a b => execSub d a b s
  | .and d a b => execAnd d a b s
  | .or d a b => execOr d a b s
  | .xor d a b => execXor d a b s
  | .andn d a b => execAndn d a b s
  | .sll d a b => execSll d a b s
  | .srl d a b => execSrl d a b s
  | .sra d a b => execSra d a b s
  | .ror d a b => execRor d a b s
  | .slt d a b => execSlt d a b s
  | .sltn d a b => execSltn d a b s
  | .min d a b => execMin d a b s
  | .max d a b => execMax d a b s
  | .minn d a b => execMinn d a b s
  | .maxn d a b => execMaxn d a b s
  | .clz d a => execClz d a s
  | .ctz d a => execCtz d a s
  | .cpop d a => execCpop d a s
  | .mul d a b => execMul d a b s
  | .mulh d a b => execMulh d a b s
  | .mulhn d a b => execMulhn d a b s
  | .div d a b => execDiv d a b s
  | .divn d a b => execDivn d a b s
  | .rem d a b => execRem d a b s
  | .remn d a b => execRemn d a b s
  | .addi d a i => execAddi d a i s
  | .andi d a i => execAndi d a i s
  | .ori d a i => execOri d a i s
  | .xori d a i => execXori d a i s
  | .slli d a h => execSlli d a h s
  | .srli d a h => execSrli d a h s
  | .srai d a h => execSrai d a h s
  | .slti d a i => execSlti d a i s
  | .sltin d a i => execSltin d a i s
  | .lui d i => execLui d i s
  | .addpc d i => execAddpc d i s
  | .ldI8 d a i => execLdI8 d a i s
  | .ldI16 d a i => execLdI16 d a i s
  | .ldI32 d a i => execLdI32 d a i s
  | .ldI64 d a i => execLdI64 d a i s
  | .ldN8 d a i => execLdN8 d a i s
  | .ldN16 d a i => execLdN16 d a i s
  | .ldN32 d a i => execLdN32 d a i s
  | .stI8 a b i => execStI8 a b i s
  | .stI16 a b i => execStI16 a b i s
  | .stI32 a b i => execStI32 a b i s
  | .stI64 a b i => execStI64 a b i s
  | .faddD d a b m => execFaddD d a b m s
  | .fsubD d a b m => execFsubD d a b m s
  | .fmulD d a b m => execFmulD d a b m s
  | .fdivD d a b m => execFdivD d a b m s
  | .fsqrtD d a m => execFsqrtD d a m s
  | .fminD d a b => execFminD d a b s
  | .fmaxD d a b => execFmaxD d a b s
  | .fsignCD d a b => execFsignCD d a b s
  | .fsignND d a b => execFsignND d a b s
  | .fsignXD d a b => execFsignXD d a b s
  | .faddS d a b m => execFaddS d a b m s
  | .fsubS d a b m => execFsubS d a b m s
  | .fmulS d a b m => execFmulS d a b m s
  | .fdivS d a b m => execFdivS d a b m s
  | .fsqrtS d a m => execFsqrtS d a m s
  | .fminS d a b => execFminS d a b s
  | .fmaxS d a b => execFmaxS d a b s
  | .fsignCS d a b => execFsignCS d a b s
  | .fsignNS d a b => execFsignNS d a b s
  | .fsignXS d a b => execFsignXS d a b s
  | .fmaddD d a b m => execFmaddD d a b m s
  | .fmsubD d a b m => execFmsubD d a b m s
  | .fnmaddD d a b m => execFnmaddD d a b m s
  | .fnmsubD d a b m => execFnmsubD d a b m s
  | .fmaddS d a b m => execFmaddS d a b m s
  | .fmsubS d a b m => execFmsubS d a b m s
  | .fnmaddS d a b m => execFnmaddS d a b m s
  | .fnmsubS d a b m => execFnmsubS d a b m s
  | .cvtDS d a => execCvtDS d a s
  | .cvtSD d a m => execCvtSD d a m s
  | .cvtDI64 d a m => execCvtDI64 d a m s
  | .cvtDN64 d a m => execCvtDN64 d a m s
  | .cvtSI64 d a m => execCvtSI64 d a m s
  | .cvtSN64 d a m => execCvtSN64 d a m s
  | .cvtI64D d a m => execCvtI64D d a m s
  | .cvtN64D d a m => execCvtN64D d a m s
  | .cvtI64S d a m => execCvtI64S d a m s
  | .cvtN64S d a m => execCvtN64S d a m s
  | .fcmpEqD d a b => execFcmpEqD d a b s
  | .fcmpLtD d a b => execFcmpLtD d a b s
  | .fcmpLeD d a b => execFcmpLeD d a b s
  | .fkindD d a => execFkindD d a s
  | .fcmpEqS d a b => execFcmpEqS d a b s
  | .fcmpLtS d a b => execFcmpLtS d a b s
  | .fcmpLeS d a b => execFcmpLeS d a b s
  | .fkindS d a => execFkindS d a s
  | .b i => execB i s
  | .call i => execCall i s
  | .bcEq a b i => execBcEq a b i s
  | .bcNe a b i => execBcNe a b i s
  | .bcLt a b i => execBcLt a b i s
  | .bcGe a b i => execBcGe a b i s
  | .bcLtn a b i => execBcLtn a b i s
  | .bcGen a b i => execBcGen a b i s
  | .nop => execNop s
  | .calli a => execCalli a s
  | .jmpi a => execJmpi a s
  | .ret a => execRet a s
  | .lpadC => execLpadC s
  | .lpadJ => execLpadJ s
  | .lpadR => execLpadR s
  | .ljoin => execLjoin s
  | _ => .next (s.scalarFault .illegal noIndex 0)

/-- The registers that a word reads in a lane (04 R96; 03 R66 to R78). -/
def laneSources (i : Instr) : List RegNo :=
  match i with
  | .fmaddD d a b _ | .fmsubD d a b _ | .fnmaddD d a b _ | .fnmsubD d a b _ | .fmaddS d a b _ | .fmsubS d a b _
  | .fnmaddS d a b _ | .fnmsubS d a b _ => [d, a, b]
  | .add _ a b | .sub _ a b | .and _ a b | .or _ a b | .xor _ a b | .andn _ a b | .sll _ a b | .srl _ a b | .sra _ a b
  | .ror _ a b | .slt _ a b | .sltn _ a b | .min _ a b | .max _ a b | .minn _ a b | .maxn _ a b | .mul _ a b | .mulh _ a b
  | .mulhn _ a b | .div _ a b | .divn _ a b | .rem _ a b | .remn _ a b | .stI8 a b _ | .stI16 a b _ | .stI32 a b _ | .stI64 a b _
  | .faddD _ a b _ | .fsubD _ a b _ | .fmulD _ a b _ | .fdivD _ a b _ | .fminD _ a b | .fmaxD _ a b | .fsignCD _ a b
  | .fsignND _ a b | .fsignXD _ a b | .faddS _ a b _ | .fsubS _ a b _ | .fmulS _ a b _ | .fdivS _ a b _ | .fminS _ a b
  | .fmaxS _ a b | .fsignCS _ a b | .fsignNS _ a b | .fsignXS _ a b | .fcmpEqD _ a b | .fcmpLtD _ a b | .fcmpLeD _ a b
  | .fcmpEqS _ a b | .fcmpLtS _ a b | .fcmpLeS _ a b | .bcEq a b _ | .bcNe a b _ | .bcLt a b _ | .bcGe a b _ | .bcLtn a b _
  | .bcGen a b _ => [a, b]
  | .clz _ a | .ctz _ a | .cpop _ a | .addi _ a _ | .andi _ a _ | .ori _ a _ | .xori _ a _ | .slli _ a _ | .srli _ a _
  | .srai _ a _ | .slti _ a _ | .sltin _ a _ | .ldI8 _ a _ | .ldI16 _ a _ | .ldI32 _ a _ | .ldI64 _ a _ | .ldN8 _ a _
  | .ldN16 _ a _ | .ldN32 _ a _ | .fsqrtD _ a _ | .fsqrtS _ a _ | .cvtDS _ a | .cvtSD _ a _ | .cvtDI64 _ a _ | .cvtDN64 _ a _
  | .cvtSI64 _ a _ | .cvtSN64 _ a _ | .cvtI64D _ a _ | .cvtN64D _ a _ | .cvtI64S _ a _ | .cvtN64S _ a _ | .fkindD _ a
  | .fkindS _ a | .calli a | .jmpi a | .ret a => [a]
  | _ => []

/-- Whether a lane's element of a register it reads holds a marked byte (14 R421). -/
def State.laneMarked (s : State) (i : Instr) : Bool :=
  s.th.fr.curLane.any fun j => s.th.ln.bad.any fun m => m.1 ≠ 0 && m.2 / 8 = j && (laneSources i).any fun r => r.toNat = m.1

/-- The lane a cluster issues next: the first that has not joined, in rotation after the one last issued (04 R97). -/
def LaneSection.next (l : LaneSection) (cl : Nat) : Option Nat :=
  ((List.range 8).map fun i => 8 * cl + (l.last.getD cl 7 + 1 + i) % 8).find? fun j => !l.joined.getD j true

/-- A lane fetches from the lane instruction buffer and runs one word: ControlFlow outside the code, illegal for a word with
length bit 1 or one that does not decode, MachineCheck where it reads a marked byte (02 R30; 04 R96; 14 R421). -/
def State.laneWord (l : LaneSection) (pc : Word) (s : State) : State :=
  match l.wordAt pc with
  | none => s.scalarFault .controlFlow noIndex 0
  | some w =>
    if w.getLsbD 31 then s.scalarFault .illegal noIndex 0
    else
      match decode32 w with
      | .error _ => s.scalarFault .illegal noIndex 0
      | .ok i => if s.laneMarked i then s.scalarFault .machineCheck noIndex 0 else match laneExec i s with | .next t => t | _ => s

/-- Give the front back after lane j's word: the lane's PC is kept, and the front stands at the lsplit. A stop or the end of
the section has already moved the front (04 R99). -/
def State.laneBack (j : Nat) (s : State) : State :=
  match s.th.fr.curLane with
  | none => s
  | some _ =>
    s.onFr fun f =>
      { f with curLane := none, spc := (f.lanes.map (·.origin)).getD f.spc,
               lanes := f.lanes.map fun l => { l with pcs := l.pcs.set j f.spc, last := l.last.set (j / 8) (j % 8) } }

/-- One cluster issues one word from the next of its lanes (04 R97). -/
def State.laneIssue (cl : Nat) (s : State) : State :=
  match s.th.fr.lanes with
  | none => s
  | some l =>
    match l.next cl with
    | none => s
    | some j =>
      let pc := l.pcs.getD j l.start
      ((s.onFr fun f => { f with curLane := some j, spc := pc }).laneWord l pc).laneBack j

/-- The lane instruction buffers filled again from memory, after a stop has emptied them; a fetch that fails faults at its address, with
the thread at the lsplit: the state then, and whether lanes may issue (04 R95, R99). -/
def State.refillLanes (s : State) : State × Bool :=
  match s.th.fr.lanes with
  | none => (s, true)
  | some l =>
    if l.code ≠ [] then (s, true)
    else
      match fetchCode l.start (l.len / 4) s with
      | (t, .error (va, c)) => (t.takeException c noIndex va l.origin 0 false, false)
      | (t, .ok code) => (t.onFr fun f => { f with lanes := some { l with code := code } }, true)

/-- Each cluster of the thread issues one word, in cluster order, while the section and the thread go on (04 R97). -/
def State.lanesIssue (s : State) : State :=
  let r := s.refillLanes
  if r.2 then forUpTo r.1.width (fun cl t => if t.th.life = .running then t.laneIssue cl else t) r.1 else r.1

end Sys2Proof.Machine
end

