-- ==== Sys2Proof/Machine/EventsCore.lean ====
section
/-! DEFINITION. The events of a core and its memory: convoys, stores, walks, refreshes, slice ALU, sync registers, the pass
ring, waits, copies, deadlines, suspensions and gang switches (spec/95_what_each_step_holds.md; 03, 05, 07, 10, 12, 13). -/

namespace Sys2Proof.Machine

/-- Run f on the thread of a place while that thread runs; otherwise the event has no subject and nothing happens. -/
def State.whenRunning (p : Nat) (f : State → State) (s : State) : State :=
  s.at p fun u => if u.th.life = .running then f u else u

/-! ### Convoys, history, stores -/

/-- Whether the oldest convoy is closed and not parked, so that it may issue (05 R119; 12 R350). -/
def State.convoyReady (s : State) : Bool :=
  s.inLanes ≠ [] && !(s.th.fr.chainOpen && (splitConvoy s.th.fr.viq).2 = [])

/-- Issue the members of the oldest convoy that satisfy p for g cycles: group n of its first member in cycle n, and the others behind
it (05 R119, R121). -/
def State.issueWhere (p : VEntry → Bool) (g : Nat) (s : State) : State :=
  let ms := (splitConvoy s.th.fr.viq).1
  if s.convoyReady then (s.issueConvoy (cycleLimit (fun j => (ms[j]?).any p) g)).1 else s

/-- The words whose second phase is an event of its own: vamo and vamoo, and amerge (10 R274, R279). -/
def VEntry.isVamo (e : VEntry) : Bool := e.slot = .word && e.op = 0x62
/-- amerge (10 R279). -/
def VEntry.isMerge (e : VEntry) : Bool := e.slot = .word && e.op = 0x63 && e.w.fnFN = 2

/-- CONVOY_ISSUE: the oldest closed convoy issues for g cycles (05 R119, R121). -/
def execConvoyIssue (t g : Nat) (s : State) : Host.Outcome State Fault Refusal :=
  .next (s.whenRunning t fun u => u.issueWhere (fun e => !e.isVamo && !e.isMerge && e.slot = .word) g)

/-- CONVOY_RETIRE (05 R119). -/
def execConvoyRetire (t : Nat) (s : State) : Host.Outcome State Fault Refusal :=
  .next (s.whenRunning t fun u => if u.convoyReady then u.retireFront else u)

/-- The oldest history entry retires once the VIQ words up to its sequence number are fault-safe (03 R60). -/
def State.retireOneHistory (s : State) : State :=
  match s.th.fr.hist with
  | [] => s
  | h :: hs =>
    if s.th.fr.viq.all fun e => e.safe || h.seq < e.seq then
      (s.onFr fun f => { f with hist := hs }).onLn fun l => { l with flags := l.flags ||| h.flags }
    else s

/-- HISTORY_ENTRY_RETIRE (03 R60). -/
def execHistoryEntryRetire (t : Nat) (s : State) : Host.Outcome State Fault Refusal :=
  .next (s.whenRunning t State.retireOneHistory)

/-- The oldest scalar store leaves the queue when every older VIQ word is fault-safe (03 R61). -/
def State.leaveOneStore (s : State) : State :=
  match s.th.fr.storeQ with
  | [] => s
  | e :: _ =>
    if s.inLanes.all fun v => v.safe || e.seq < v.seq then s.leaveHead else s

/-- STORE_QUEUE_LEAVE (03 R61, R63). -/
def execStoreQueueLeave (t : Nat) (s : State) : Host.Outcome State Fault Refusal :=
  .next (s.whenRunning t State.leaveOneStore)

/-- Issue and retire the oldest entry where it satisfies p (03 R74; 07 R185). -/
def State.slotEvent (p : VEntry → Bool) (s : State) : State :=
  if (s.th.fr.viq.head?).any p && s.convoyReady then
    match s.issueConvoy noLimit with
    | (t, .done) => t.retireFront
    | (t, _) => t
  else s

/-- MTC_LANE_ENTRY (03 R74; 06 R150). -/
def execMtcLaneEntry (t : Nat) (s : State) : Host.Outcome State Fault Refusal :=
  .next (s.whenRunning t (State.slotEvent fun e => match e.slot with | .mtc _ => true | _ => false))

/-- COMMIT_ENTRY: the commit entry of smb, or scommit's (07 R185, R203). -/
def execCommitEntry (t : Nat) (s : State) : Host.Outcome State Fault Refusal :=
  .next (s.whenRunning t (State.slotEvent fun e => match e.slot with | .commit _ => true | .word => e.op = 0x4A | _ => false))

/-- Whether record k of the draining strips may drain now: no older one holds a byte of it or is a part of the same entry, an SO
record follows the older SO records, and a release every older record of kind RC or SO (07 R179, R182, R185). -/
def mayDrain (es : List StripEntry) (k : Nat) : Bool :=
  match es[k]? with
  | none => false
  | some e =>
    (es.take k).all fun x =>
      !(x.block = e.block && x.remote = e.remote && (x.cluster = e.cluster || x.marks &&& e.marks ≠ 0))
        && !(x.kind % 8 = 1 && e.kind % 8 = 1) && !(8 ≤ e.kind && x.kind % 8 < 2)

/-- STRIP_ENTRY_DRAIN: the bytes of one draining entry are performed at their home (07 R185). -/
def execStripEntryDrain (t k : Nat) (s : State) : Host.Outcome State Fault Refusal :=
  .next (s.at t fun u =>
    let es := u.th.st.draining
    match es[k]? with
    | none => u
    | some e =>
      if mayDrain es k then
        (u.drainEntry e).onSt fun x => { x with entries := x.entries.erase e, unacked := x.unacked ++ [e.slot] }
      else u)

/-- STORE_ACKNOWLEDGEMENT: the acknowledgement of one performed store returns (07 R437; 07 R185). -/
def execStoreAcknowledgement (t k : Nat) (s : State) : Host.Outcome State Fault Refusal :=
  .next (s.at t fun u => u.onSt fun x => { x with unacked := x.unacked.eraseIdx k })

/-- LANE_ISSUE (04 R97). -/
def execLaneIssue (t cl : Nat) (s : State) : Host.Outcome State Fault Refusal :=
  .next (s.whenRunning t fun u =>
    if cl < u.width ∧ u.th.fr.wait = .none then
      let r := u.refillLanes
      if r.2 then r.1.laneIssue cl else r.1
    else u)

/-- LOAD_RESPONSE: the value of a load is fixed at its home; in this model that is the moment the load runs, so the response
changes nothing (07 R437; 07 R178; DESIGN CHOICE, log 19). -/
def execLoadResponse (_ _ : Nat) (s : State) : Host.Outcome State Fault Refusal := .next s

/-! ### Translation, L2, refresh -/

/-- TLB_WALK: a walk for an access of one of a thread's clusters fills its TLB; one that fails leaves the fault to the
access (07 R176, R177). -/
def execTlbWalk (t cl : Nat) (va : BitVec 64) (acc : Access) (s : State) : Host.Outcome State Fault Refusal :=
  .next (s.whenRunning t fun u =>
    if cl < u.width then (match u.xlate cl va acc with | .ok x => x.st | .error _ => u) else u)

/-- L2_FILL (07 R168, R170). -/
def execL2Fill (pa : Nat) (s : State) : Host.Outcome State Fault Refusal := .next (s.l2Fill pa)

/-- A bank of the package. -/
def isBank (die stack bank : Nat) : Bool := die < 4 && stack < 2 && bank < 1024

/-- REFRESH_DUE: at an idle bank it is performed and closes the row, else it is owed (07 R193). -/
def execRefreshDue (die stack bank : Nat) (idle : Bool) (s : State) : Host.Outcome State Fault Refusal :=
  .next (if isBank die stack bank then
      let b := s.bankAt die stack bank
      s.setBank (if idle then { b with row := none } else { b with owed := b.owed + 1 })
    else s)

/-- OWED_REFRESH: an idle bank receives a refresh that it owes (07 R193). -/
def execOwedRefresh (die stack bank : Nat) (s : State) : Host.Outcome State Fault Refusal :=
  .next (let b := s.bankAt die stack bank
    if 0 < b.owed then s.setBank { b with owed := b.owed - 1, row := none } else s)

/-! ### Slice ALU, vector atomics, sync registers, the pass ring -/

/-- Whether a request names an operation that Table 10.3 allows for its type (10 R269). -/
def AluRequest.ok (r : AluRequest) : Bool :=
  let it := r.ety = .i32 || r.ety = .i64 || r.ety = .n32 || r.ety = .n64
  let ft := r.ety = .fp32 || r.ety = .fp64
  ((it && r.op ≤ 6) || (ft && (r.op = 0 || r.op = 1 || r.op = 5 || r.op = 6))) && r.bytes = r.ety.fixedBits / 8
    && r.pa % r.bytes = 0

/-- SLICE_ALU_REQUEST: one request is served indivisibly at its home; one that meets poison is not performed
(10 R267, R268, R271). (DESIGN CHOICE, log 53.) -/
def execSliceAluRequest (r : AluRequest) (s : State) : Host.Outcome State Fault Refusal :=
  .next (if AluRequest.ok r then
      match s.target s.th.bind.ctx r.pa with
      | .cell a =>
        if s.poisoned a then s
        else
          let old := leNat (s.bytesAt a r.bytes)
          s.perform a (leBytes r.bytes (aluOp r.op r.ety 0 old (operandOf r.ety r.operand)).1)
      | _ => s
    else s)

/-- VAMO_PERFORM: groups of a vector atomic are checked and sent once its waits hold (10 R274). -/
def execVamoPerform (t g : Nat) (s : State) : Host.Outcome State Fault Refusal :=
  .next (s.whenRunning t fun u => u.issueWhere VEntry.isVamo g)

/-- AMERGE_PERFORM (10 R279). -/
def execAmergePerform (t g : Nat) (s : State) : Host.Outcome State Fault Refusal :=
  .next (s.whenRunning t fun u => u.issueWhere VEntry.isMerge g)

/-- SYNC_MIRROR_UPDATE (10 R283). -/
def execSyncMirrorUpdate (die home : Nat) (s : State) : Host.Outcome State Fault Refusal := .next (s.mirrorApply die home)

/-- The posts that travel, without a core in what the oldest of another core's posts has still to reach. -/
def postPasses (die src core : Nat) : List RingPost → List RingPost
  | [] => []
  | p :: ps =>
    if p.die = die ∧ p.src = src ∧ p.left.contains core then { p with left := p.left.erase core } :: ps
    else p :: postPasses die src core ps

/-- The oldest post of a core that has still to reach another core arrives there; posts of one core arrive in the order
they were performed (10 R289). -/
def State.postArrive (die src core : Nat) (s : State) : State :=
  match s.sync.ring.find? fun p => p.die = die ∧ p.src = src ∧ p.left.contains core with
  | none => s
  | some p =>
    let c := 56 * die + core
    let t := s.postPut c p.tag (postNew p.set (s.postGet c p.tag) p.value)
    { t with sync := { t.sync with ring := (postPasses die src core t.sync.ring).filter fun x => x.left ≠ [] } }

/-- POST_RING_ARRIVAL (10 R289). -/
def execPostRingArrival (die src core : Nat) (s : State) : Host.Outcome State Fault Refusal :=
  .next (s.postArrive die src core)

/-! ### Waits -/

/-- The return of cpw, an acquire of package scope, once it has issued and few enough commands are outstanding
(10 R301). -/
def State.copiesReturn (limit : Word) (s : State) : State :=
  if !(s.th.fr.viq.any fun e => e.slot = .word && e.op = 0x69 && e.w.fnFN = 4) && s.copiesOut ≤ limit.toNat then
    (s.onFr fun f => { f with wait := .none }).acquire 3
  else s

/-- A waiting front returns where what it waits for has come; a return that needs a history entry waits while all are in use
(03 R60; 04 R100; 10 R288, R291, R295, R301). -/
def State.waitReturn (s : State) : State :=
  s.orWait (match s.th.fr.wait with
    | .none | .entry _ => s
    | .time d t => s.timeReturn d t
    | .huddle r g => s.huddleReturn r g
    | .ring v => s.ringReturn v
    | .arrival d a g o sc => s.arrivalReturn d a g o sc
    | .copies n => s.copiesReturn n)

/-- WAIT_T_RETURN (04 R100). -/
def execWaitTReturn (t : Nat) (s : State) : Host.Outcome State Fault Refusal :=
  .next (s.whenRunning t fun u => match u.th.fr.wait with | .time _ _ => u.waitReturn | _ => u)

/-- HUD_WAIT_RETURN (10 R288). -/
def execHudWaitReturn (t : Nat) (s : State) : Host.Outcome State Fault Refusal :=
  .next (s.whenRunning t fun u => match u.th.fr.wait with | .huddle _ _ => u.waitReturn | _ => u)

/-- WAITI_RETURN (10 R291). -/
def execWaitiReturn (t : Nat) (s : State) : Host.Outcome State Fault Refusal :=
  .next (s.whenRunning t fun u => match u.th.fr.wait with | .ring _ => u.waitReturn | _ => u)

/-- AW_WAIT_RETURN (10 R295). -/
def execAwWaitReturn (t : Nat) (s : State) : Host.Outcome State Fault Refusal :=
  .next (s.whenRunning t fun u => match u.th.fr.wait with | .arrival _ _ _ _ _ => u.waitReturn | _ => u)

/-- CPW_RETURN (10 R301). -/
def execCpwReturn (t : Nat) (s : State) : Host.Outcome State Fault Refusal :=
  .next (s.whenRunning t fun u => match u.th.fr.wait with | .copies _ => u.waitReturn | _ => u)

/-! ### Copies -/

/-- Run f on the command in a slot of a core's engine that satisfies p; a paused one that its thread's end stops still has its place, and
slots that come free go to paused commands (10 R296, R303). -/
def State.onSlot (core slot : Nat) (p : CopyCmd → Bool) (f : CopyCmd → State → State) (s : State) : State :=
  match s.copies.find? fun c => c.core = core ∧ c.slot = slot ∧ (!c.paused || c.stopping) ∧ p c with
  | some c => (f c s).readmitCopies
  | none => s

/-- COPY_CHUNK_DELIVERY: the next chunk of a command is moved and delivered (10 R296). -/
def execCopyChunkDelivery (core slot : Nat) (s : State) : Host.Outcome State Fault Refusal :=
  .next (s.onSlot core slot (fun c => c.fn ≠ 3) State.copyChunk)

/-- CPQ_DELIVERY (10 R297). -/
def execCpqDelivery (core slot : Nat) (s : State) : Host.Outcome State Fault Refusal :=
  .next (s.onSlot core slot (fun c => c.fn = 3) State.copyChunk)

/-- COPY_ABANDON: a command that its thread's end stops, or whose page Eloaler declines to map, is abandoned
(10 R300, R303). -/
def execCopyAbandon (core slot : Nat) (s : State) : Host.Outcome State Fault Refusal :=
  .next (s.onSlot core slot (fun c => c.held || c.stopping) State.abandonCopy)

/-- The address of the first page-table entry on the walk of an address that is not valid (07 R174, R176). -/
def State.missingPte (s : State) (k : Walker) (va : Word) : Option Nat :=
  let a2 := k.ptroot + 8 * bitsOf va 54 42
  match s.readPte k.ptroot (bitsOf va 54 42) with
  | .error _ => none
  | .ok e2 =>
    let n1 := bitsOf e2 43 16 * 65536
    if !e2.getLsbD 0 then some a2
    else if e2.getLsbD 4 then none
    else
      match s.readPte n1 (bitsOf va 41 29) with
      | .error _ => none
      | .ok e1 =>
        let n0 := bitsOf e1 43 16 * 65536
        if !e1.getLsbD 0 then some (n1 + 8 * bitsOf va 41 29)
        else if e1.getLsbD 4 then none
        else
          match s.readPte n0 (bitsOf va 28 16) with
          | .error _ => none
          | .ok e0 => if e0.getLsbD 0 then none else some (n0 + 8 * bitsOf va 28 16)

/-- Eloaler makes the first missing entry on the walk of an address valid, with a content of its choice (12 R354). -/
def State.mapEntry (k : Walker) (va : Word) (s : State) : State :=
  match s.missingPte k va with
  | none => s
  | some a => let d := s.draw; d.2.perform (d.2.cellOf a) (leBytes 8 (Config.freeWord d.1 ||| 1).toNat)

/-- Eloaler maps a page of a context, at each level where the walk misses an entry; which address and what the entries hold are free
values (12 R354; 10 R300; DESIGN CHOICE, log 78). -/
def State.mapPage (k : Walker) (s : State) : State :=
  let d := s.draw
  forUpTo 3 (fun _ t => t.mapEntry k (Config.freeWord d.1)) d.2

/-- Eloaler rewrites the data of a poisoned granule of its choice, as a loaded policy may before it resumes a thread (12 R354; 07 R192;
DESIGN CHOICE, log 78). -/
def State.rewriteGranule (s : State) : State :=
  let d := s.draw
  match s.poison[Config.freeChoice d.1]? with
  | none => d.2
  | some g => forUpTo 4 (fun i t => let x := t.draw; x.2.perform (32 * g + 8 * i) (leBytes 8 (Config.freeWord x.1).toNat))
      { d.2 with poison := d.2.poison.filter (· ≠ g) }

/-- COPY_PAGE_MAPPED: Eloaler maps a page of the context of a command that waits for one, and the command goes on (10 R300). -/
def execCopyPageMapped (core slot : Nat) (s : State) : Host.Outcome State Fault Refusal :=
  .next (s.onSlot core slot (·.held) fun c u => (u.mapPage (u.walkerOf c.ctx)).onCopyCmd c fun x => { x with held := false })

/-! ### Deadlines, faults, stops -/

/-- A pending deadline is taken at the boundary: the convoy in issue runs to its end or to where it waits for an event, a fault
of it is delivered first, and nothing younger issues (04 R102; 12 R367). -/
def State.takeDeadline (s : State) : State :=
  let stop := fun (u : State) => u.fatalEnd .deadline noIndex u.th.fr.spc u.vcp 0 false
  if s.inLanes.any (·.issued) then
    match s.issueConvoy noLimit with
    | (u, .done) => stop u.retireFront
    | (u, .blocked) => stop u
    | (u, .stopped) => u
  else stop s

/-- Whether the front's deadline is pending (04 R102). -/
def State.late (s : State) : Bool := s.th.fr.regs.dline < s.gtime

/-- DEADLINE (04 R102). -/
def execDeadline (t : Nat) (s : State) : Host.Outcome State Fault Refusal :=
  .next (s.whenRunning t fun u => if u.late then u.takeDeadline else u)

/-- A fault found at a thread's boundary: of its oldest convoy, else of the front's word (12 R349, R350). -/
def State.faultNow (c : ExcCause) (idx : Word) (s : State) : State :=
  if s.inLanes = [] then s.takeException c idx s.th.fr.spc s.th.fr.spc 0 false
  else
    let ms := (splitConvoy s.th.fr.viq).1
    s.convoyFault ms 0 { cause := c, index := idx, group := (ms.head?.map (·.prog)).getD 0, flags := 0 }

/-- Whether a cause is routed to the M handler (12 Table 12.1). -/
def goesToHandler : ExcCause → Bool
  | .illegal | .controlFlow | .misaligned | .kindCross | .arithmetic | .skew | .peerLost | .trap | .breakpoint => true
  | _ => false

/-- TRAP_DELIVERY (12 R350). -/
def execTrapDelivery (t : Nat) (c : ExcCause) (idx : BitVec 64) (s : State) : Host.Outcome State Fault Refusal :=
  .next (s.whenRunning t fun u => if goesToHandler c then u.faultNow c idx else u)

/-- SUSPEND_TO_ELOALER (12 R354). -/
def execSuspendToEloaler (t : Nat) (c : ExcCause) (idx : BitVec 64) (s : State) : Host.Outcome State Fault Refusal :=
  .next (s.whenRunning t fun u => if goesToEloaler c then u.faultNow c idx else u)

/-- FATAL_END: Eloaler ends a suspended thread with the cause, index and pair it was suspended with (12 R354). -/
def execFatalEnd (t : Nat) (s : State) : Host.Outcome State Fault Refusal :=
  .next (s.at t fun u => match u.th.life with | .suspended c idx spc vcp => u.fatalEnd c idx spc vcp 0 false | _ => u)

/-- A stop is requested of the current thread: a fault of its convoy in issue is delivered first, and the stop then stays pending
for the handler's first boundary; else a deadline that has passed is taken; else the thread stops (12 R362, R367). -/
def State.requestStop (k : StopKind) (s : State) : State :=
  let r : State × Settled := if s.prompt && s.inLanes.any (·.issued) then s.issueConvoy noLimit else (s, .blocked)
  if r.2 = .stopped then (if r.1.th.life = .running then r.1.onM fun m => { m with preq := some k } else r.1)
  else if s.late then s.takeDeadline
  else s.stopAs k.life k.cause

/-- PREEMPTION: the thread stops at its boundary, at M exactly as at U (12 R348, R362, R367). -/
def execPreemption (t : Nat) (s : State) : Host.Outcome State Fault Refusal :=
  .next (s.whenRunning t fun u => u.requestStop .preemption)

/-! ### Shared-store ways -/

/-- Whether a cell lies in a run of ways of a die (DEDUCED, log 9). -/
def inRun (die first ways a : Nat) : Bool :=
  2 ^ 44 ≤ a && (a - 2 ^ 44) / (56 * 16 * 384 * 256) = die && first ≤ (a - 2 ^ 44) / (384 * 256) % 16
    && (a - 2 ^ 44) / (384 * 256) % 16 < first + ways

/-- Cells of one way of one slice. -/
def waySpan : Nat := 384 * 256

/-- A run of ways goes back to the L2 empty: its content and poison marks are discarded (01 R12). -/
def State.clearWays (die first ways : Nat) (s : State) : State :=
  { s with mem := s.mem.filter fun c => !inRun die first ways c.1,
           poison := s.poison.filter fun g => !inRun die first ways (32 * g) }

/-- A context's content on a die is saved with its poison marks, and its ways are free for another context
(01 R13). -/
def State.saveWays (ctx die first ways : Nat) (s : State) : State :=
  let keep : SavedWays :=
    { ctx := ctx, die := die, ways := ways,
      bytes := (s.mem.filter fun c => inRun die first ways c.1).map fun c => (c.1 - first * waySpan, c.2),
      poison := (s.poison.filter fun g => inRun die first ways (32 * g)).map fun g => g - first * waySpan / 32 }
  let s1 := (s.clearWays die first ways).onCtx ctx fun c => { c with runs := c.runs.filter fun r => r.1 ≠ die }
  { s1 with saved := keep :: s1.saved }

/-- The lowest free run of n ways of a die (01 R12). -/
def State.freeRun (s : State) (die n : Nat) : Option Nat :=
  let free := s.l2Ways die
  (List.range 17).find? fun f => f + n ≤ 16 && (List.range n).all fun k => free.contains (f + k)

/-- Whether a context has a running thread on a die (01 R13). -/
def State.runsOn (s : State) (ctx die : Nat) : Bool :=
  s.threads.any fun t => t.bind.ctx = ctx && t.bind.die = die && t.life = .running

/-- A context takes a run of ways: lines in them leave the L2, dirty ones written back, and they read zero until what was
saved is put back (07 R168; 01 R12, R13). -/
def State.giveWays (ctx die first ways : Nat) (s : State) : State :=
  let gone := s.unc.l2.filter fun x => x.die = die ∧ first ≤ x.way ∧ x.way < first + ways
  let s1 := gone.foldl (fun t x => if x.dirty then t.hbmAccess (256 * x.line) else t) s
  let s2 := ((s1.onUnc fun u => { u with
      l2 := u.l2.filter fun x => ¬ (x.die = die ∧ first ≤ x.way ∧ x.way < first + ways) }).clearWays die first ways).onCtx ctx
    fun c => { c with runs := (die, first, ways) :: c.runs }
  match s2.saved.find? fun k => k.ctx = ctx ∧ k.die = die with
  | none => s2
  | some k =>
    { s2 with saved := s2.saved.erase k,
              mem := k.bytes.foldl (fun m c => memSet m (c.1 + first * waySpan) c.2) s2.mem,
              poison := k.poison.map (fun g => g + first * waySpan / 32) ++ s2.poison }

/-- A context takes `ways` ways on a die where it holds none, the content of contexts without a running thread there being
saved until there is room (01 R13; 12 R366). Which contexts' ways are saved, and which run is taken, is Eloaler's choice: contexts in
the order of their creation, and the lowest free run (DESIGN CHOICE, log 57). -/
def State.takeWays (ctx die ways : Nat) (s : State) : State :=
  if ways = 0 || s.ctxs.any fun c => c.id = ctx && c.runs.any fun r => r.1 = die then s
  else
    let s1 := s.ctxs.foldl (fun t c =>
      if (t.freeRun die ways).isSome || c.id = ctx || t.runsOn c.id die then t
      else
        match c.runs.find? fun r => r.1 = die with
        | some r => t.saveWays c.id die r.2.1 r.2.2
        | none => t) s
    match s1.freeRun die ways with
    | some f => s1.giveWays ctx die f ways
    | none => s1

/-- The ways that a context has saved from a die come back before a thread of it runs there; none while there is no room (01 R13). -/
def State.regainWays (ctx die : Nat) (s : State) : Option State :=
  match s.saved.find? fun k => k.ctx = ctx ∧ k.die = die with
  | none => some s
  | some k =>
    let t := s.takeWays ctx die k.ways
    if t.saved.any fun k => k.ctx = ctx ∧ k.die = die then none else some t

/-- A change of the firmware or of the place while a thread is suspended or between its arrival at a whistle and its release advances
GEN, and FW with the device's firmware release, which only rises; which of them a resume sees is free (12 R372; DESIGN CHOICE, log 58,
log 5). -/
def State.newFirmware (s : State) : State :=
  let d := s.draw
  let n := Config.freeChoice d.1
  let up := if n % 2 = 1 then min (65535 - Config.fverFw) (s.dev.fwUp + n / 2) else s.dev.fwUp
  if n % 2 = 1 ∨ s.th.fr.regs.fverUp < up then
    { d.2 with dev := { d.2.dev with fwUp := up } }.onRegs fun r => { r with fverGen := r.fverGen + 1, fverUp := max r.fverUp up }
  else d.2

/-- A stopped thread resumes where it stood once its context holds its ways again: its paused copies take slots again as they come
free, and the restore is traced (01 R13; 12 R362, R376; 10 R303). -/
def State.resume (s : State) : State :=
  match s.regainWays s.th.bind.ctx s.th.bind.die with
  | none => s
  | some u => ((u.onTh fun t => { t with life := .running }).traceEvent 2 5 0 noIndex s.th.fr.spc s.vcp).readmitCopies

/-- What Eloaler does before it resumes a thread: it maps the page of a PageFault, and a loaded policy rewrites or remaps the data of a
Poison or MachineCheck (12 R354). -/
def State.mend (c : ExcCause) (s : State) : State :=
  match c with
  | .pageFault => s.mapPage s.walker
  | .poison | .machineCheck => s.rewriteGranule.mapPage s.walker
  | _ => s

/-- ELOALER_RESUME: a thread suspended to Eloaler goes on at its recorded pair and indices, a missing page mapped; under the default
policy it ends fatally after Poison or MachineCheck (12 R354, R372). -/
def execEloalerResume (t : Nat) (s : State) : Host.Outcome State Fault Refusal :=
  .next (s.at t fun u =>
    match u.th.life with
    | .suspended c idx spc vcp =>
      if u.dev.defaultPolicy && (c = .poison || c = .machineCheck) then u.fatalEnd c idx spc vcp 0 false
      else (u.mend c).newFirmware.resume
    | _ => u)

/-! ### Gang switches -/

/-- The doubles of a bind record (13 Table 13.6). -/
def Bind.record (b : Bind) (go : Bool) : List Word :=
  [word (1 + bitNat b.tg * 2 + bitNat b.bg * 4 + bitNat b.conf * 8 + b.wc * 16 + b.slot * 64 + b.core * 256 + b.res * 2 ^ 16
      + b.slots * 2 ^ 19 + b.sways * 2 ^ 24 + b.ctx * 2 ^ 32 + b.key * 2 ^ 48 + bitNat go * 2 ^ 58),
    b.entry, b.sp, word (b.ptroot + b.stripA), word b.image, b.handler, b.start, b.deadline]

/-- Write a thread's slot-table entry with its status word (13 R398). -/
def State.putSlot (b : Bind) (go : Bool) (status : Nat) (s : State) : State :=
  let i := 4 * b.core + b.slot
  let m := memPut s.mem (slotEntry b.die i) ((b.record go).flatMap fun x => leBytes 8 x.toNat)
  { s with mem := memPut m (slotStatus b.die i) (leBytes 8 status) }

/-- Commands keep the name of their thread as it leaves or regains its slot. -/
def State.renameOwner (old new : Nat) (s : State) : State :=
  { s with copies := s.copies.map fun c => if c.owner = old then { c with owner := new } else c }

/-- A double of a slot-table entry as a number (13 R398). -/
def State.slotDouble (s : State) (die entry k : Nat) : Nat := leNat (memBytes s.mem (slotEntry die entry + 8 * k) 8)

/-- Stop a thread for a switch: a running one at its boundary, one that has not started with the start time and GO of its record; one
that is suspended or stopped takes part as it stands (12 R366, R367). -/
def State.switchStop (s : State) : State :=
  match s.th.life with
  | .running =>
    let u := s.requestStop .preemption
    if u.th.life ≠ .running then u else if u.late then u.takeDeadline else u.takeStop
  | .bound =>
    let i := 4 * s.th.bind.core + s.th.bind.slot
    s.onTh fun t =>
      { t with life := .swappedBound (s.slotDouble t.bind.die i 0 / 2 ^ 58 % 2 = 1),
               bind := { t.bind with start := word (s.slotDouble t.bind.die i 6) } }
  | _ => s

/-- Whether a thread in its slot holds a cluster that a bind record names (01 R14; 12 R365). -/
def Thread.holdsCluster (b : Bind) (t : Thread) : Bool :=
  t.life.inSlot && t.bind.die = b.die && t.bind.core = b.core && b.slot < t.bind.slot + 2 ^ t.bind.wc && t.bind.slot < b.slot + 2 ^ b.wc

/-- Whether the clusters of a bind record are free: no thread in its slot and no valid record of the slot table names one of them
(01 R14; 13 R398; 12 R365). -/
def State.clustersFree (s : State) (b : Bind) : Bool :=
  !(s.threads.any fun x => x.holdsCluster b) && (List.range 4).all fun k =>
    let d0 := s.slotDouble b.die (4 * b.core + k) 0
    d0 % 2 = 0 || b.slot + 2 ^ b.wc ≤ k || k + 2 ^ (d0 / 16 % 4) ≤ b.slot

/-- The threads of a context leave their slots with their images (12 R366 step 1). -/
def State.switchOut (ctx : Nat) (s : State) : State :=
  let mine := fun (t : Thread) => t.bind.ctx = ctx && t.life.inSlot
  let ps := (s.threads.filter fun t => mine t).map (·.bind.place)
  let s1 := ps.foldl (fun t p => t.at p State.switchStop) s
  let go := s1.threads.filter fun t => mine t
  let s2 := go.foldl (fun (t : State) x =>
    ({ t with th := x }.freeSlot).renameOwner x.bind.place (imageOwner x.bind)) s1
  { s2 with th := if mine s1.th then .reset else s1.th, others := s1.others.filter fun t => !mine t,
            images := s1.images ++ go }

/-- GO and the status of the slot-table entry of an image that comes back: one that had not started waits as it did (12 R366; 13 R398). -/
def Life.slotState : Life → Bool × Nat
  | .swappedBound go => (go, 1)
  | _ => (true, 2)

/-- An image comes back to its slot when its clusters are free (12 R365, R366 step 3; 01 R14). (DEDUCED, log 49.) -/
def State.imageBack (x : Thread) (s : State) : State :=
  if s.clustersFree x.bind then
    let t := (s.putSlot x.bind x.life.slotState.1 x.life.slotState.2).renameOwner (imageOwner x.bind) x.bind.place
    { t with others := t.others ++ [x], images := t.images.erase x }
  else s

/-- The images of a context come back to their slots one after another, after its ways (12 R366 steps 2 and 3). -/
def State.switchIn (ctx : Nat) (s : State) : State :=
  let s0 := (s.saved.filter fun k => k.ctx = ctx).foldl (fun t k => t.takeWays ctx k.die k.ways) s
  (s0.images.filter fun t => t.bind.ctx = ctx).foldl (fun t x => t.imageBack x) s0

/-- GANG_SWITCH: at time T the outgoing context leaves and the incoming one, 0 for none, is restored; before T nothing happens
(12 R366; 01 R24). An outgoing context runs again only when a later switch names it as incoming (12 R366). -/
def execGangSwitch (outgoing : Nat) (incoming : SwitchIn) (s : State) : Host.Outcome State Fault Refusal :=
  .next (if s.gtime < incoming.at_ then s
    else
      let s1 := (s.switchOut outgoing).switchIn incoming.ctx
      let away := if outgoing = 0 ∨ outgoing = incoming.ctx then s1.hub.away else outgoing :: s1.hub.away
      { s1 with hub := { s1.hub with
          switches := (s1.hub.switches.filter fun w => w.incoming ≠ incoming.ctx) ++
            [{ outgoing := outgoing, incoming := incoming.ctx, resume := incoming.resume }]
          away := (away.eraseDups).filter (· ≠ incoming.ctx) } })

/-- Whether a thread of a context may resume from its switch: at the switch's resume time, or at once where it gives none (12 R366). -/
def State.mayResume (ctx : Nat) (s : State) : Bool :=
  match s.hub.switches.find? fun w => w.incoming = ctx with
  | some w => (match w.resume with | some r => r ≤ s.gtime | none => true)
  | none => true

/-- Whether a thread waits for its switch's resume. -/
def Life.isSwapped : Life → Bool
  | .swapped | .swappedBound _ => true
  | _ => false

/-- SWITCH_RESUME: a restored thread resumes; one that had not started waits for its start again (12 R366, R372). -/
def execSwitchResume (t : Nat) (s : State) : Host.Outcome State Fault Refusal :=
  .next (let s1 := s.at t fun u =>
      if u.mayResume u.th.bind.ctx then
        match u.th.life with
        | .swapped => u.newFirmware.resume
        | .swappedBound _ => u.onTh fun x => { x with life := .bound }
        | _ => u
      else u
    let waits := fun (c : Nat) => s1.threads.any fun x => x.bind.ctx = c && x.life.isSwapped
    { s1 with hub := { s1.hub with switches := s1.hub.switches.filter fun w => waits w.incoming } })

end Sys2Proof.Machine
end

