-- ==== Sys2Proof/Machine/EventsFabric.lean ====
section
/-! DEFINITION. The events of the fabric: the whistle and its apply, remote accesses and translations, streams, aborts and torus
ports (spec/11_fabric_step_collective_instructions.md R311 to R346). -/

namespace Sys2Proof.Machine

/-! ### The whistle record -/

/-- A whistle of a context at which nobody has arrived. -/
def Whistle.fresh (ctx : Nat) : Whistle :=
  { ctx := ctx, launch := none, counted := [], children := [], overflow := [], conflict := [], sent := false, timeout := 0,
    forwarded := [], firstAt := none, applyAt := 0, go := false, applied := false, status := 0, rank := 0, handle := 0, nwin := 0,
    flags := 0, stepNo := 0, skewed := false, waiting := [] }

/-- The whistle of a context. -/
def State.whistleOf (s : State) (ctx : Nat) : Whistle := (s.whistles.find? fun w => w.ctx = ctx).getD (.fresh ctx)

/-- Record a context's whistle. -/
def State.setWhistle (w : Whistle) (s : State) : State :=
  { s with whistles := w :: s.whistles.filter fun x => x.ctx ≠ w.ctx }

/-- Whether a whistle is that of a launch; before any member of it is counted it may be that of each (11 R313). -/
def Whistle.isOf (w : Whistle) (launch : Nat) : Bool := w.launch.all (· = launch)

/-- The members of a context's whistle on this package that have not ended: the threads of its launch (11 R313); a thread that has ended
counts as arrived. -/
def State.membersOf (s : State) (ctx : Nat) : List Thread :=
  (s.threads ++ s.images).filter fun t => t.bind.ctx = ctx && t.life.inSlot && (s.whistleOf ctx).isOf t.bind.launch

/-- Whether every member of this package has arrived and is counted (11 R313, R315). -/
def State.allCounted (s : State) (ctx : Nat) : Bool :=
  (s.membersOf ctx).all fun t => (s.whistleOf ctx).counted.contains t.bind.place

/-- One hop towards coordinate 0 on a ring, the shorter way, a tie positive (11 R315). -/
def towardsZero (n c : Nat) : Nat := if n - c ≤ c then (c + 1) % n else c - 1

/-- The parent of a package in the whistle tree, none for the root (11 R315). -/
def Device.parentOf (d : Device) (rank : Nat) : Option Nat :=
  let (x, y, z) := d.coordsOf rank
  if z ≠ 0 then some (d.rankOf (x, y, towardsZero d.dims.2.2 z))
  else if y ≠ 0 then some (d.rankOf (x, towardsZero d.dims.2.1 y, z))
  else if x ≠ 0 then some (d.rankOf (towardsZero d.dims.1 x, y, z))
  else none

/-- The parent of this package in the whistle tree (11 R315). -/
def Device.parent (d : Device) : Option Nat := d.parentOf d.rank

/-- The children of this package in the whistle tree (11 R315). -/
def Device.children (d : Device) : List Nat := (List.range d.packages).filter fun r => d.parentOf r = some d.rank

/-- Whether every member and every child package has arrived (11 R315 step 1). -/
def State.allArrived (s : State) (ctx : Nat) : Bool :=
  s.allCounted ctx && s.dev.children.all fun r => (s.whistleOf ctx).children.contains r

/-- Send a whistle message to the parent: kind 0 start notice, 1 arrival (11 R315, Table 11.7 TYPE 11). -/
def State.sendUp (data : List Nat) (s : State) : State :=
  match s.dev.parent with
  | none => s
  | some p => s.sendFlits 11 p 18 (flitBytes data)

/-- Send a whistle message to the children: kind 2 go, 3 Skew (11 R315, R322). -/
def State.sendDown (data : List Nat) (s : State) : State :=
  s.dev.children.foldl (fun t r => t.sendFlits 11 r 18 (flitBytes data)) s

/-- The smaller of two timeouts, 0 standing for none. -/
def minTimeout (a b : Nat) : Nat := if a = 0 then b else if b = 0 then a else min a b

/-- A start notice at this package, recorded: the package's own is sent to its parent, a child's is forwarded when it is smaller than every
one forwarded (11 R315 step 1). -/
def State.notice (own : Bool) (ctx timeout : Nat) (s : State) : State :=
  let w := s.whistleOf ctx
  let w1 := { w with timeout := minTimeout w.timeout timeout, firstAt := some (w.firstAt.getD s.gtime.toNat) }
  if own then (s.setWhistle w1).sendUp [ctx, 0, timeout]
  else if w.forwarded.all fun t => timeout < t then
    (s.setWhistle { w1 with forwarded := timeout :: w.forwarded }).sendUp [ctx, 0, timeout]
  else s.setWhistle w1

/-! ### Arrivals -/

/-- STEP_ARRIVAL: the step word at the head of the VIQ issues; once its stores are performed it arrives (11 R314). -/
def execStepArrival (t : Nat) (s : State) : Host.Outcome State Fault Refusal :=
  .next (s.whenRunning t (State.slotEvent fun e => e.slot = .word && e.op = 0x73))

/-- An arrived member takes Skew at its step word, with index "−"; what is younger than a stepq is unwound as far as it has not
retired (11 R322). (DEDUCED, log 45.) -/
def State.takeSkew (s : State) : State :=
  let f := s.th.fab
  let s1 := s.onFab fun x => { x with arrived := false, queued := false, stepstat := putBits x.stepstat 2 1 0 }
  let own := fun (u : State) => u.leaveStores.takeException .skew noIndex f.stepAddr f.stepAddr 0 false
  match s.th.fr.stepq, s.th.fr.viq with
  | some q, _ => own (((s1.unwind q.seq []).onFr fun x => { x with stepq := none }).beforeStep q)
  | none, e :: _ =>
    if e.slot = .word && e.op = 0x73 then s1.convoyFault [e] 0 { cause := .skew, index := noIndex, group := 0, flags := 0 }
    else own (s1.unwind e.seq [])
  | none, [] => own s1

/-- Whether an arrived member must take Skew: the context's supersteps have ended and its release has not come
(11 R322). -/
def State.mustSkew (s : State) : Bool := s.skewed && s.th.fab.arrived && !s.th.fab.released

/-- The windows of a context on this package with a mark, as (rank, handle) pairs. -/
def State.markedWindows (s : State) (ctx : Nat) (p : Window → Bool) : List (Nat × Nat) :=
  ((s.activeWindows ctx).filter fun w => p w).map fun w => (s.dev.rank, w.handle)

/-- The windows marked overflowed and in conflict that this package reports: its own, those whose marks its members' writes have received,
and those that its children report (11 R311, R315, R318). -/
def State.reported (s : State) (ctx : Nat) : List (Nat × Nat) × List (Nat × Nat) :=
  let w := s.whistleOf ctx
  ((s.markedWindows ctx (·.overflowed) ++ w.overflow).eraseDups, (s.markedWindows ctx (·.conflicted) ++ w.conflict).eraseDups)

/-- The package's own arrival follows the last of its members and of its child packages (11 R315 step 1). -/
def State.arriveUp (ctx : Nat) (s : State) : State :=
  let w := s.whistleOf ctx
  if w.sent || w.skewed || s.dev.parent.isNone || !s.allArrived ctx then s
  else
    let r := s.reported ctx
    let pairs := fun (l : List (Nat × Nat)) => l.length :: l.flatMap fun x => [x.1, x.2]
    (s.setWhistle { w with sent := true }).sendUp ([ctx, 1, w.timeout, w.applyAt] ++ pairs r.1 ++ pairs r.2)

/-- Count a member's arrival at the hub; the first sends a start notice. A member of another launch of the context waits for this
launch's whistle to end (11 R313, R315). -/
def State.countArrival (ctx p : Nat) (s : State) : State :=
  let w := s.whistleOf ctx
  match (s.membersOf ctx).find? fun t => t.bind.place = p && t.fab.arrived && !t.fab.released with
  | none => s.arriveUp ctx
  | some x =>
    if w.skewed then s.whenRunning p State.takeSkew
    else if w.counted.contains p then s
    else
      let s1 := s.setWhistle { w with
        launch := some x.bind.launch, counted := p :: w.counted, timeout := minTimeout w.timeout x.fab.stepTimeout,
        firstAt := some (w.firstAt.getD s.gtime.toNat), applyAt := max w.applyAt x.fab.stepAt }
      (if w.counted = [] then s1.notice true ctx x.fab.stepTimeout else s1).arriveUp ctx

/-- Count a child package's arrival (11 R315). -/
def State.countChild (ctx rank timeout : Nat) (overflow conflict : List (Nat × Nat)) (at_ : Nat) (s : State) : State :=
  let w := s.whistleOf ctx
  if w.skewed || w.children.contains rank then s
  else
    (s.setWhistle { w with
      children := rank :: w.children, overflow := w.overflow ++ overflow, conflict := w.conflict ++ conflict,
      timeout := minTimeout w.timeout timeout, firstAt := some (w.firstAt.getD s.gtime.toNat), applyAt := max w.applyAt at_ }).arriveUp
      ctx

/-- WHISTLE_ARRIVAL_COUNTED: a member's arrival, or a child package's (11 R315). -/
def execWhistleArrivalCounted (ctx : Nat) (who : WhistleSource) (s : State) : Host.Outcome State Fault Refusal :=
  .next (match who with
    | .member t => s.countArrival ctx t
    | .child r timeout ov cf at_ => s.countChild ctx r timeout ov cf at_)

/-- START_NOTICE: a child's notice (11 R315). -/
def execStartNotice (ctx timeout : Nat) (s : State) : Host.Outcome State Fault Refusal := .next (s.notice false ctx timeout)

/-! ### The go -/

/-- The lowest of a list of (rank, handle) pairs (11 R318). -/
def lowestWindow : List (Nat × Nat) → Nat × Nat
  | [] => (0, 0)
  | [x] => x
  | x :: xs => let y := lowestWindow xs; if x.1 < y.1 ∨ (x.1 = y.1 ∧ x.2 ≤ y.2) then x else y

/-- What the root decides once every arrival has come (11 R318). -/
def State.decideStatus (s : State) (ctx : Nat) : WhistleMarks :=
  let x := s.reported ctx
  let r : Nat × List (Nat × Nat) := if x.1 ≠ [] then (1, x.1) else if x.2 ≠ [] then (2, x.2) else (0, [])
  let at_ := lowestWindow r.2
  { status := r.1, rank := at_.1, handle := at_.2, nwin := min 255 r.2.length, applyAt := (s.whistleOf ctx).applyAt }

/-- The go: the root decides it when every arrival has come, another package takes m from its parent after its own arrival; it goes on
down the tree (11 R315 step 2, R318). -/
def State.whistleGo (ctx : Nat) (m : WhistleMarks) (s : State) : State :=
  let w := s.whistleOf ctx
  if w.go || w.skewed || !s.allArrived ctx then s
  else
    let g := if s.dev.parent.isNone then s.decideStatus ctx else m
    let at_ := max w.applyAt g.applyAt
    (s.setWhistle { w with
      go := true, applyAt := at_, status := g.status, rank := g.rank, handle := g.handle, nwin := g.nwin }).sendDown
      [ctx, 2, g.status, g.rank, g.handle, g.nwin, at_]

/-- WHISTLE_GO (11 R315, R318). -/
def execWhistleGo (ctx : Nat) (m : WhistleMarks) (s : State) : Host.Outcome State Fault Refusal := .next (s.whistleGo ctx m)

/-! ### Remote accesses that have reached their target -/

/-- The number on this package of the launch of a context that a TAG names; one that has no launch here keeps the TAG beyond the
numbers (13 R438). -/
def State.launchHere (s : State) (ctx tag : Nat) : Nat :=
  ((s.hub.launches.find? fun l => l.ctx = ctx ∧ l.tag = tag).map (·.number)).getD (2 ^ 64 + tag)

/-- An element written from another package is entered in its window's buffer, and its acknowledgement goes back with the marks; 2
refuses a write whose window is not active (11 R311, R327, R330). -/
def State.serveWrite (f : RemoteWrite) (s : State) : State :=
  let ack := fun (t : State) (ov cf : Nat) => t.sendFlits 1 f.rank 17 (flitBytes [f.ctx, f.handle, f.place, ov, cf])
  match (s.activeWindows f.ctx).find? fun w => w.handle = f.handle with
  | none => ack s 2 0
  | some w =>
    if w.elemBytes ≠ f.bytes ∨ w.len ≤ f.elem * f.bytes then ack s 2 0
    else
      let r := s.enterWrite w
        { elem := f.elem, data := f.data, source := (f.rank, f.place), launch := s.launchHere f.ctx f.launch, order := f.order }
      ack r.1 (if r.2.1 then 1 else 0) (if r.2.2 then 1 else 0)

/-- What this package answers for bytes of a window of a context: their address, or the code of the cause; 255 for a window that is not
active any more (11 R325, R326, R330). -/
def State.windowServe (s : State) (ctx handle off size : Nat) : Except Nat Nat :=
  match (s.activeWindows ctx).find? fun w => w.handle = handle with
  | none => .error 0xFF
  | some w =>
    match w.pages[off / 65536]? with
    | none => .error 0x04
    | some p =>
      match s.target ctx p with
      | .cell a => if w.len < off + size then .error 0x04 else if s.poisoned (a + off % 65536) then .error 0x06 else .ok (a + off % 65536)
      | _ => .error 0x0B

/-- The step-start bytes of a window go back, or a cause in a byte beyond them (11 R326; DESIGN CHOICE, log 8). -/
def State.serveRead (f : RemoteRead) (s : State) : State :=
  match s.windowServe f.ctx f.handle f.offset f.bytes with
  | .ok a =>
    let t := (s.keyed (s.windowKey (s.walkerOf f.ctx) f.handle f.offset) a f.bytes).l2Read false a f.bytes
    t.sendFlits 3 f.rank 17 (flitBytes [f.ctx, f.handle, f.offset] ++ t.bytesAt a f.bytes)
  | .error c => s.sendFlits 3 f.rank 17 (flitBytes [f.ctx, f.handle, f.offset] ++ List.replicate f.bytes 0 ++ [BitVec.ofNat 8 c])

/-- Serve a remote access (11 R326, R327). -/
def State.serveAccess (a : RemoteAccess) (s : State) : State :=
  match a with
  | .write f => s.serveWrite f
  | .read f => s.serveRead f

/-! ### The apply -/

/-- One step of a window rule: the element so far and a source's value, with the rank of its package
(11 R316, R317, Table 11.4). -/
def ruleStep (rule : Nat) (t : EType) (acc : Elt) (rank v : Nat) : Elt :=
  let b := t.fixedBits
  let op := if rule = 2 then 0 else if rule = 3 then 1 else 2
  if rule = 5 then (acc.1 ||| v, acc.2)
  else if t.isFp then
    let r := (Lanes.reset.fp 0 t).rankOp op 0 rank acc.1 v
    (r.1, acc.2 ||| r.2)
  else ((credInt t b op false acc.1 v).1, acc.2)

/-- The new value of an element from its prior value and the sources' values in ascending source order
(11 R316, Table 11.4). -/
def ruleApply (rule : Nat) (t : EType) (x : Nat) (vs : List (Nat × Nat)) : Elt :=
  match rule with
  | 0 => ((vs.head?.map (·.2)).getD x, 0)
  | 1 => ((vs.getLast?.map (·.2)).getD x, 0)
  | 6 => (match vs with | [v] => v.2 | _ => x, 0)
  | _ => vs.foldl (fun a v => ruleStep rule t a v.1 v.2) (x, 0)

/-- Whether a source is lower (11 R306). -/
def lowerSource (a b : Nat × Nat) : Bool := a.1 < b.1 || (a.1 = b.1 && a.2 < b.2)

/-- Put a source's entry in ascending source order; of one source the last in program order stays (11 R308, R316). -/
def insertEntry (e : DefEntry) : List DefEntry → List DefEntry
  | [] => [e]
  | x :: xs =>
    if x.source = e.source then (if x.order ≤ e.order then e else x) :: xs
    else if lowerSource e.source x.source then e :: x :: xs
    else x :: insertEntry e xs

/-- Apply one element of a window (11 R316). -/
def State.applyElem (w : Window) (elem : Nat) (s0 : State) : State × Flags :=
  let sz := w.elemBytes
  let o := elem * sz
  let pa := w.pages.getD (o / 65536) 0 + o % 65536
  let s := s0.keyed (s0.windowKey (s0.walkerOf w.ctx) w.handle o) pa sz
  let es := (w.entries.filter fun e => e.elem = elem).foldl (fun l e => insertEntry e l) []
  let r := ruleApply w.rule ((EType.ofCode w.ety).getD .i8) (leNat (s.bytesAt pa sz))
    (es.map fun e => (e.source.1, e.data.toNat % 2 ^ (8 * sz)))
  (s.perform pa (leBytes sz r.1), r.2)

/-- Apply those of a window's entries that satisfy p, unless it is overflowed (11 R316). -/
def State.applyWindow (p : DefEntry → Bool) (w : Window) (s : State) : State × Flags :=
  if w.overflowed then (s, 0)
  else
    let mine := { w with entries := w.entries.filter fun e => p e }
    ((mine.entries.map (·.elem)).eraseDups).foldl (fun (a : State × Flags) k =>
      let r := a.1.applyElem mine k
      (r.1, a.2 ||| r.2)) (s, 0)

/-- A window after the apply: without the entries applied, and unmarked unless entries of another launch stay in it; one to be released is
freed at once where no other package has a thread of its context, and otherwise when the packages next to this one in the whistle tree
have acknowledged its invalidation (11 R310, R313, R330). (DEDUCED, log 69.) -/
def Window.afterApply (p : DefEntry → Bool) (others : List Nat) (w : Window) : Option Window :=
  let rest := w.entries.filter fun e => !p e
  let w1 := { w with entries := rest, overflowed := w.overflowed && rest ≠ [], conflicted := w.conflicted && rest ≠ [] }
  if !w.releasing then some w1
  else if others = [] then none
  else some { w1 with freeing := some others }

/-- The other packages where threads of a context stand (11 R330). -/
def State.otherRanks (s : State) (ctx : Nat) : List Nat := (s.ctxRanks ctx).filter (· ≠ s.dev.rank)

/-- The packages next to this one in the whistle tree (11 R315). -/
def Device.treeNeighbours (d : Device) : List Nat := d.parent.toList ++ d.children

/-- The child of this package behind which a package stands in the whistle tree, none where it stands behind the parent. -/
def Device.childTo (d : Device) : Nat → Nat → Option Nat
  | 0, _ => none
  | n + 1, r =>
    match d.parentOf r with
    | none => none
    | some p => if p = d.rank then some r else d.childTo n p

/-- The package next to this one in the whistle tree on the way to another (11 R315, R330). -/
def Device.treeHop (d : Device) (r : Nat) : Nat := (d.childTo d.packages r).getD (d.parent.getD 0)

/-- The invalidation of a window of package `target` leaves for some of the packages next to this one in the whistle tree (11 R330,
Table 11.7). (DEDUCED, log 69.) -/
def State.invalidate (ctx target handle : Nat) (ranks : List Nat) (s : State) : State :=
  ranks.foldl (fun t r => t.sendFlits 6 r 18 (flitBytes [ctx, handle, target])) s

/-- The packages next to this one that an invalidation of a context's window goes to: those behind which its threads stand (11 R330). -/
def State.invalidRanks (s : State) (ctx : Nat) : List Nat :=
  s.dev.treeNeighbours.filter fun n => (s.otherRanks ctx).any fun r => s.dev.treeHop r = n

/-- Apply the entries that satisfy p of every window of a context in order, and release the windows that wdecl.rel named (11 R310,
R316). -/
def State.applyWindows (ctx : Nat) (p : DefEntry → Bool) (s : State) : State × Flags :=
  let ws := s.activeWindows ctx
  let r := ws.foldl (fun (a : State × Flags) w => let x := a.1.applyWindow p w; (x.1, a.2 ||| x.2)) (s, 0)
  let others := s.invalidRanks ctx
  let s1 : State := { r.1 with windows := r.1.windows.filterMap fun w =>
    if w.ctx = ctx ∧ w.freeing.isNone then w.afterApply p others else some w }
  ((ws.filter (·.releasing)).foldl (fun t w => t.invalidate ctx t.dev.rank w.handle others) s1, r.2)

/-- The apply at this package, once the go has come and the time of step.at is reached; the remote accesses that have waited for it are
then served (11 R315, R316, R320). -/
def State.whistleApply (ctx : Nat) (s : State) : State :=
  let w := s.whistleOf ctx
  if w.go && !w.applied && w.applyAt ≤ s.gtime.toNat then
    let r := s.applyWindows ctx fun e => w.isOf e.launch
    w.waiting.foldl (fun t a => t.serveAccess a) (r.1.setWhistle { w with applied := true, flags := r.2, waiting := [] })
  else s

/-- WHISTLE_APPLY (11 R316). -/
def execWhistleApply (ctx : Nat) (s : State) : Host.Outcome State Fault Refusal := .next (s.whistleApply ctx)

/-! ### The release -/

/-- stepstat of a whistle that has completed (11 Table 11.5). -/
def Whistle.stepstat (w : Whistle) : Word :=
  let fl := fun (f : Flags) => bitNat (w.flags &&& f ≠ 0)
  word (w.stepNo % 65536 * 2 ^ 48 + w.rank * 2 ^ 32 + w.handle * 2 ^ 24 + w.nwin * 2 ^ 16 + fl fNV * 1024 + fl fOF * 512
    + fl fNX * 256 + w.status)

/-- A member's release: stepstat is set; a stepq then retires, while step and step.at return when they issue again; the
time from its arrival counts as whistle-wait (11 R318, R321, R323, R347). -/
def Thread.releasedBy (w : Whistle) (now : Nat) (t : Thread) : Thread :=
  if t.bind.ctx = w.ctx ∧ w.isOf t.bind.launch ∧ t.life.inSlot ∧ t.fab.arrived ∧ !t.fab.released then
    { t with
      fab := { t.fab with
        stepstat := w.stepstat, overflow := false, conflict := false,
        arrived := !t.fab.queued, queued := false, released := !t.fab.queued }
      fr := { t.fr with stepq := none }
      cnt :=
        let c := vecSet t.cnt 33 (vecGet t.cnt 33 0 + word (now - t.fab.arrivedAt))
        if t.fr.stepq.isSome then vecSet c 39 (vecGet c 39 0 + 1) else c }
  else t

/-- The release of a context's members on this package; a change of the firmware since a member's arrival shows in its fver
(11 R315, R318; 12 R372, R376). -/
def State.whistleRelease (ctx : Nat) (s : State) : State :=
  let w := s.whistleOf ctx
  if w.applied then
    let w1 := { w with stepNo := w.stepNo + 1 }
    let ps := ((s.membersOf ctx).filter fun t => t.fab.arrived && !t.fab.released).map (·.bind.place)
    let s1 := ps.foldl (fun (t : State) p => t.at p fun u =>
      let v := if u.th.life = .running then u.traceEvent 1 3 0 noIndex u.th.fr.spc u.vcp else u
      v.newFirmware) s
    (s1.onThreads (Thread.releasedBy w1 s.gtime.toNat)).setWhistle { Whistle.fresh ctx with stepNo := w1.stepNo }
  else s

/-- WHISTLE_RELEASE (11 R318). -/
def execWhistleRelease (ctx : Nat) (s : State) : Host.Outcome State Fault Refusal := .next (s.whistleRelease ctx)

/-- Whether a thread of a launch is in a slot or an image of this package. -/
def State.launchLives (s : State) (n : Nat) : Bool := (s.threads ++ s.images).any fun t => t.life.inSlot && t.bind.launch = n

/-- The final whistle, when every thread of a launch has ended: what its threads have written is applied (11 R313). -/
def State.finalWhistle (ctx : Nat) (s : State) : State :=
  let r := (s.applyWindows ctx fun e => !s.launchLives e.launch).1
  if (s.threads ++ s.images).any fun t => t.bind.ctx = ctx && t.life.inSlot && (s.whistleOf ctx).isOf t.bind.launch then r
  else r.setWhistle { Whistle.fresh ctx with stepNo := (s.whistleOf ctx).stepNo, skewed := (s.whistleOf ctx).skewed }

/-- FINAL_WHISTLE (11 R313). -/
def execFinalWhistle (ctx : Nat) (s : State) : Host.Outcome State Fault Refusal := .next (s.finalWhistle ctx)

/-- Skew: the timeout ran out before every arrival came. The step's writes are discarded, the context's supersteps end, and the
arrived members take Skew (11 R322). -/
def State.skewNow (ctx : Nat) (s : State) : State :=
  let w := s.whistleOf ctx
  let late : Bool := s.dev.parent.isSome || w.firstAt.any fun t => t + w.timeout ≤ s.gtime.toNat
  if w.go || w.skewed || !late || (s.dev.parent.isNone && s.allArrived ctx) then s
  else
    let s1 : State := { s with windows := s.windows.map fun x =>
        if x.ctx = ctx then { x with entries := [], overflowed := false, conflicted := false } else x }
    let s2 := (s1.setWhistle { w with skewed := true }).sendDown [ctx, 3]
    let ps := ((s.membersOf ctx).filter fun t => t.fab.arrived && !t.fab.released).map (·.bind.place)
    ps.foldl (fun (t : State) p => t.whenRunning p State.takeSkew) s2

/-- SKEW (11 R322). -/
def execSkew (ctx : Nat) (s : State) : Host.Outcome State Fault Refusal := .next (s.skewNow ctx)

/-! ### Remote accesses at their target -/

/-- Hold a remote access at the gateway while the apply of its context's whistle is in progress, and serve it otherwise (11 R315). -/
def State.gateAccess (ctx : Nat) (a : RemoteAccess) (s : State) : State :=
  let w := s.whistleOf ctx
  if w.go && !w.applied then s.setWhistle { w with waiting := w.waiting ++ [a] } else s.serveAccess a

/-- DEFERRED_WRITE (11 R311, R327, R330). -/
def execDeferredWrite (f : RemoteWrite) (s : State) : Host.Outcome State Fault Refusal := .next (s.gateAccess f.ctx (.write f))

/-- Run a function with the thread of a place that has a write of number k outstanding, in its slot or its image (11 R314). -/
def State.atWriter (t k : Nat) (f : State → State) (s : State) : State :=
  let waits := fun (x : Thread) => x.bind.place = t && k < x.fab.sent.length
  if s.threads.any fun x => x.isAt t && waits x then s.at t f
  else
    match s.images.find? fun x => waits x with
    | some x => s.asImage x f
    | none => s

/-- Drop the remote translation of a page of a window that the current thread's die holds (11 R330). -/
def State.dropTrans (rank handle page : Nat) (s : State) : State :=
  s.onUnc fun u => { u with rtrans := u.rtrans.filter fun x =>
    ¬ (x.1 = s.th.bind.die ∧ x.2.2.ctx = s.th.bind.ctx ∧ x.2.2.rank = rank ∧ x.2.2.handle = handle ∧ x.2.2.page = page) }

/-- The page of a window that a deferred write lies in. -/
def writePage (w : RemoteWrite) : Nat := w.elem * w.bytes / 65536

/-- The marks that a member's write has received join what this package's arrival carries (11 R311, R315 step 1). -/
def State.markReceived (ctx : Nat) (win : Nat × Nat) (overflow conflict : Bool) (s : State) : State :=
  let w := s.whistleOf ctx
  let add := fun (b : Bool) (l : List (Nat × Nat)) => if b && !l.contains win then l ++ [win] else l
  if overflow || conflict then s.setWhistle { w with overflow := add overflow w.overflow, conflict := add conflict w.conflict } else s

/-- The acknowledgement of write k of the current thread: performed, with its marks; or refused, and then the page is translated again, a
miss of the cache (11 R311, R314, R330, R347). -/
def State.writeAck (k : Nat) (overflow conflict refused : Bool) (s : State) : State :=
  match s.th.fab.sent[k]? with
  | none => s
  | some (rank, w, _) =>
    if refused then
      (((((s.count 36).count 35).onFab fun f => { f with sent := f.sent.set k (rank, w, true) }).dropTrans rank w.handle
        (writePage w)).askPage rank w.handle (writePage w) true)
    else
      (s.markReceived w.ctx (rank, w.handle) overflow conflict).onFab fun f =>
        { f with sent := f.sent.eraseIdx k, overflow := f.overflow || overflow, conflict := f.conflict || conflict }

/-- WRITE_ACKNOWLEDGEMENT: the answer to remote write k of a thread (11 R311, R314, R330). -/
def execWriteAcknowledgement (t k : Nat) (a : WriteAnswer) (s : State) : Host.Outcome State Fault Refusal :=
  .next (s.atWriter t k (State.writeAck k a.overflow a.conflict a.refused))

/-- READ_REQUEST: the step-start bytes of a window go back, or a cause (11 R326; DESIGN CHOICE, log 8). -/
def execReadRequest (f : RemoteRead) (s : State) : Host.Outcome State Fault Refusal := .next (s.gateAccess f.ctx (.read f))

/-- Whether an answer refuses an element of the running vldr: 255 in a byte beyond its bytes (DESIGN CHOICE, log 8). -/
def State.readIsRefused (s : State) (data : List Nat) : Bool :=
  s.th.fr.viq.head?.any fun e =>
    e.slot = .word && e.op = 0x71 && data.length = (s.view e).b / 8 + 1 && data.getLast? = some 255

/-- A refused read of element k: the entry of its page is dropped, and the running vldr asks again (11 R330). -/
def State.readRefused (k : Nat) (s : State) : State :=
  match s.th.fr.viq with
  | e :: _ =>
    let tgt := targetOf e.sb
    let page := (s.remoteOff e ((s.view e).b / 8) k).toNat / 65536
    ((s.count 36).dropTrans tgt.1 tgt.2 page).onFab fun f =>
      { f with remoteData := f.remoteData.filter fun x => x ≠ requestMark 0 ∧ x ≠ requestMark (page + 1) }
  | [] => s

/-- READ_DATA: the bytes of element k, or a cause in a byte beyond them, arrive for a vldr that has asked; 255 is the refusal of a page
under invalidation, and each refused element counts (11 R326, R330, R347; DESIGN CHOICE, log 8). -/
def execReadData (t k : Nat) (data : List Nat) (s : State) : Host.Outcome State Fault Refusal :=
  .next (s.at t fun u =>
    if 2 ^ 16 ≤ k then u
    else if u.readIsRefused data then (if u.th.fab.remoteData.contains (requestMark 0) then u.readRefused k else u.count 36)
    else if !u.th.fab.remoteData.contains (requestMark 0) then u
    else
      u.onFab fun f => { f with remoteData := (k, data.map (BitVec.ofNat 8)) :: f.remoteData.filter fun x => x.1 ≠ k })

/-! ### Remote translation -/

/-- The hub's walk for a page of a window: the page with its element size in the low bits, or a refusal: no thread of the context
here, the handle not active, the offset beyond the window, or a page that is not DS or not permitted (11 R325, R329). -/
def State.hubWalk (s : State) (f : RemoteRead) : State × Nat × Nat :=
  let acc := accessOf f.store
  if !((s.threads ++ s.images).any fun t => t.bind.ctx = f.ctx && t.life.inSlot) then (s, 2 ^ 44, 0)
  else
    match (s.activeWindows f.ctx).find? fun w => w.handle = f.handle with
    | none => (s, 2 ^ 44, 0)
    | some w =>
      match s.windowWalk (s.walkerOf f.ctx) w f.offset acc with
      | .error .machineCheck => (s, 2 ^ 44 + 1, 0)
      | .error _ => (s, 2 ^ 44, 0)
      | .ok p => (s.markPte p acc, w.pages.getD (f.offset / 65536) 0 + w.elemBytes, p.key)

/-- TRANSLATION_REQUEST: the walk of a window page for another package (11 R329; DESIGN CHOICE, log 8). -/
def execTranslationRequest (f : RemoteRead) (s : State) : Host.Outcome State Fault Refusal :=
  .next (let r := s.hubWalk f
    r.1.sendFlits 5 f.rank 17 (flitBytes [f.ctx, f.handle, f.offset / 65536, r.2.1, r.2.2, bitNat f.store]))

/-- A die's remote translation cache takes an entry: in the place of the one it replaces, else in the lowest free of 256 ways, else in
the way of the round-robin pointer (11 R329). -/
def State.rtransFill (die : Nat) (e : RemoteTrans) (s : State) : State :=
  let same := fun (x : RemoteTrans) => x.ctx = e.ctx ∧ x.rank = e.rank ∧ x.handle = e.handle ∧ x.page = e.page
  let mine := s.unc.rtrans.filter fun x => x.1 = die
  let r : Nat × List RoundRobin :=
    match mine.find? fun x => same x.2.2 with
    | some x => (x.2.1, s.unc.rr)
    | none =>
      match (List.range 256).find? fun k => !(mine.any fun x => x.2.1 = k) with
      | some k => (k, s.unc.rr)
      | none => rrTake 3 die 0 0 256 s.unc.rr
  s.onUnc fun u => { u with rr := r.2, rtrans := (die, r.1, e) :: u.rtrans.filter fun x => ¬ (x.1 = die ∧ x.2.1 = r.1) }

/-- The refused writes of the current thread to a page go out again once it is translated anew, or the thread faults
(11 R325, R330; DESIGN CHOICE, log 8). -/
def State.resend (e : RemoteTrans) (s : State) : State :=
  let held := fun (x : Nat × RemoteWrite × Bool) => x.2.2 && x.1 = e.rank && x.2.1.handle = e.handle && writePage x.2.1 = e.page
  let again := s.th.fab.sent.filter fun x => held x
  if again = [] then s
  else if 2 ^ 44 ≤ e.pa then
    (if s.th.life = .running then s.faultNow (if e.pa % 2 = 0 then .pageFault else .machineCheck) noIndex else s)
  else
    again.foldl (fun t x => t.sendWrite x.1 x.2.1) (s.onFab fun f =>
      { f with sent := f.sent.map fun x => if held x then (x.1, x.2.1, false) else x })

/-- TRANSLATION_RESPONSE: it fills an entry of a die's remote translation cache; the requests marked for its page may be sent again, and
refused writes to it go out again (11 R329, R330). -/
def execTranslationResponse (die : Nat) (e : RemoteTrans) (s : State) : Host.Outcome State Fault Refusal :=
  .next (let here := fun (t : Thread) => t.bind.die = die && t.bind.ctx = e.ctx
    let s1 := (s.rtransFill die e).onThreads fun t =>
      if here t then
        { t with fab := { t.fab with remoteData := t.fab.remoteData.filter fun x => x ≠ requestMark (e.page + 1) } }
      else t
    let s2 := ((s1.threads.filter fun t => here t && t.life.inSlot).map (·.bind.place)).foldl (fun (t : State) p => t.at p (State.resend e)) s1
    (s2.images.filter fun t => here t).foldl (fun (t : State) x => t.asImage x (State.resend e)) s2)

/-- The acknowledgement of an invalidation goes back towards its target (11 R330). -/
def State.acknowledge (ctx target handle : Nat) (s : State) : State :=
  s.sendFlits 7 (s.dev.treeHop target) 18 (flitBytes [ctx, handle, target, s.dev.rank])

/-- INVALIDATION: every die of this package drops what it holds of a window of package `rank`; the invalidation goes on along the whistle
tree, and the package acknowledges at once where none stands behind it (11 R330). (DEDUCED, log 69.) -/
def execInvalidation (ctx rank handle : Nat) (s : State) : Host.Outcome State Fault Refusal :=
  .next (let s1 := s.onUnc fun u => { u with
      rtrans := u.rtrans.filter fun x => ¬ (x.2.2.ctx = ctx ∧ x.2.2.rank = rank ∧ x.2.2.handle = handle) }
    match s.dev.treeNeighbours.erase (s.dev.treeHop rank) with
    | [] => s1.acknowledge ctx rank handle
    | ns => (s1.onUnc fun u => { u with
        relays := { ctx := ctx, target := rank, handle := handle, waiting := ns } :: u.relays.filter fun r =>
          ¬ (r.ctx = ctx ∧ r.target = rank ∧ r.handle = handle) }).invalidate ctx rank handle ns)

/-- A window that is being freed after one more acknowledgement; none once every one has come (11 R310, R330). -/
def Window.acknowledge (rank : Nat) (w : Window) : Option Window :=
  match w.freeing with
  | none => some w
  | some rs => if rs.erase rank = [] then none else some { w with freeing := some (rs.erase rank) }

/-- An acknowledgement that a relayed invalidation waits for; the last one lets this package acknowledge (11 R330). -/
def State.relayAck (ctx : Nat) (a : HandleAck) (s : State) : State :=
  let mine := fun (r : Relay) => r.ctx = ctx ∧ r.target = a.target ∧ r.handle = a.handle
  match s.unc.relays.find? fun r => mine r with
  | none => s
  | some r =>
    let rest := s.unc.relays.filter fun x => ¬ mine x
    if r.waiting.erase a.rank = [] then (s.onUnc fun u => { u with relays := rest }).acknowledge ctx a.target a.handle
    else s.onUnc fun u => { u with relays := { r with waiting := r.waiting.erase a.rank } :: rest }

/-- INVALIDATION_ACKNOWLEDGEMENT: every die of a package and of those behind it has acknowledged; with the last one the handle and the
buffer of a released window of this package are free, and for a window of another package the acknowledgement goes on (11 R310,
R330). -/
def execInvalidationAcknowledgement (ctx : Nat) (a : HandleAck) (s : State) : Host.Outcome State Fault Refusal :=
  .next (if a.target = s.dev.rank then
      { s with windows := s.windows.filterMap fun w => if w.ctx = ctx ∧ w.handle = a.handle then w.acknowledge a.rank else some w }
    else s.relayAck ctx a)

/-! ### Streams -/

/-- What a gate delivers: the flits that are next in sequence, one after the other, and the data among them (11 R332). -/
def Gate.run : Nat → Gate → Gate × List StreamMsg
  | 0, g => (g, [])
  | n + 1, g =>
    match g.early.find? fun x => x.1 = g.next with
    | none => (g, [])
    | some x =>
      let r := Gate.run n { g with next := (g.next + 1) % 65536, early := g.early.erase x }
      (r.1, x.2.toList ++ r.2)

/-- Data become present in the receive stream of the current thread for member p, in room reserved for them (11 R342). -/
def State.takeData (n p : Nat) (bs : List Byte) (s : State) : State :=
  match s.receiveFrom n p with
  | none => s
  | some k =>
    if bs.length ≤ (vecGet s.th.fab.fs k .reset).granted then
      s.onStream k fun y => { y with rx := y.rx ++ bs, granted := y.granted - bs.length }
    else s

/-- A stream flit of another package reaches the gateway: data go on in the order of their sequence numbers (11 R332, R345). -/
def State.gateIn (m : StreamMsg) (data : Bool) (s : State) : State :=
  let g0 : Gate := (s.unc.gates.find? fun g => g.src = m.src ∧ g.vc = m.comm).getD { src := m.src, vc := m.comm, next := 0, early := [] }
  let g1 := { g0 with early := g0.early ++ [(m.seq % 65536, if data then some m else none)] }
  let r := Gate.run g1.early.length g1
  r.2.foldl (fun t x => t.atMember x.ctx x.comm x.receiver (State.takeData x.comm x.sender (x.data.map (BitVec.ofNat 8))))
    (s.onUnc fun u => { u with gates := r.1 :: u.gates.filter fun g => ¬ (g.src = m.src ∧ g.vc = m.comm) })

/-- RESERVATION_REQUEST: the request of a sender on another package waits for its receiver's room, and is granted when that covers the
whole chunk (11 R342). -/
def execReservationRequest (ctx : Nat) (h : StreamHead) (bytes : Nat) (s : State) : Host.Outcome State Fault Refusal :=
  let m := h.msg ctx bytes []
  .next ((s.gateIn m false).onUnc fun u => { u with asks := u.asks ++ [m] }).grantAsks

/-- RESERVATION_GRANT: the newest chunk of a member's send stream is admitted: by the receiver on this package where it stands here and
has room, else by the grant that arrives (11 R342). -/
def execReservationGrant (ctx : Nat) (h : StreamHead) (s : State) : Host.Outcome State Fault Refusal :=
  .next (s.atMember ctx h.comm h.sender fun u =>
    match (List.range 8).find? fun k =>
        let x := vecGet u.th.fab.fs k .reset
        x.bound && x.send && !x.lost && x.comm = h.comm && u.peerOf x = some h.receiver with
    | none => u
    | some k => if s.memberHere ctx h.comm h.receiver then u.reserve k else u.onStream k Stream.letIn)

/-- A chunk that may be sent: its thread and stream, and the priority and communicator it is sent under. -/
structure Sendable where
  place : Nat
  fs : Nat
  prio : Nat
  ctx : Nat
  comm : Nat

/-- The eligible chunks of a die's running threads, in order of place and stream register (11 R342, R345). -/
def State.sendables (s : State) (die : Nat) : List Sendable :=
  (s.threads.filter fun t => t.bind.die = die && t.life = .running).flatMap fun t =>
    let y : State := { s with th := t }
    (List.range 8).filterMap fun n =>
      let x := vecGet t.fab.fs n .reset
      match x.stage with
      | c :: _ =>
        if x.bound && x.send && !x.lost && c.admitted && c.bytes.length = c.size then
          some { place := t.bind.place, fs := n, ctx := t.bind.ctx, comm := x.comm,
                 prio := ((y.comm x.comm).map (·.prio)).getD 0 }
        else none
      | [] => none

/-- When a communicator was last served: 0 never, else its place in the order of service (11 R342). -/
def State.lastServed (s : State) (die : Nat) (x : Sendable) : Nat :=
  match s.unc.served.findIdx? fun y => y = (die, x.ctx, x.comm) with | none => 0 | some k => k + 1

/-- The chunk that starts next: highest priority, then least recently served communicator, then lowest stream register
(11 R342). -/
def State.nextChunk (s : State) (die : Nat) : Option Sendable :=
  (s.sendables die).foldl (fun (a : Option Sendable) x =>
    match a with
    | none => some x
    | some y =>
      let bx := s.lastServed die x
      let by_ := s.lastServed die y
      if y.prio < x.prio ∨ (y.prio = x.prio ∧ (bx < by_ ∨ (bx = by_ ∧ x.fs < y.fs))) then some x else a) none

/-- The stream unit of a die sends one whole chunk (11 R342). -/
def State.sendChunk (die : Nat) (s : State) : State :=
  match s.nextChunk die with
  | none => s
  | some x =>
    match s.threads.find? fun t => t.isAt x.place with
    | none => s
    | some t =>
      let y : State := { s with th := t }
      let f := vecGet t.fab.fs x.fs .reset
      let bs := (f.stage.head?.map (·.bytes)).getD []
      match y.memberIndex x.comm, y.peerOf f with
      | some p, some q =>
        let here := s.memberHere x.ctx x.comm q
        let s1 := s.at x.place fun u =>
          let v := u.onStream x.fs fun z => { z with stage := z.stage.drop 1 }
          if here then v else v.sendToMember 8 x.comm q x.comm (flitBytes [x.ctx, x.comm, p, q] ++ bs)
        let s2 := if here then s1.atMember x.ctx x.comm q (State.takeData x.comm p bs) else s1
        s2.onUnc fun u => { u with served := (u.served.filter fun z => z ≠ (die, x.ctx, x.comm)) ++ [(die, x.ctx, x.comm)] }
      | _, _ => s

/-- STREAM_CHUNK_TRANSMIT (11 R342). -/
def execStreamChunkTransmit (die : Nat) (s : State) : Host.Outcome State Fault Refusal := .next (s.sendChunk die)

/-- STREAM_DATA: bytes of another package become present in the buffer of a receive stream, in its thread or its saved image, in the order
in which they were sent (11 R332, R342, R345). -/
def execStreamData (ctx : Nat) (h : StreamHead) (data : List Nat) (s : State) : Host.Outcome State Fault Refusal :=
  .next (s.gateIn (h.msg ctx 0 data) true)

/-- ABORT: an abort of a communicator, by its number and JOIN, reaches this package (11 R346; DESIGN CHOICE, log 8). -/
def execAbort (ctx comm : Nat) (s : State) : Host.Outcome State Fault Refusal := .next (s.abortHere ctx (comm % 16) (comm / 16))

end Sys2Proof.Machine
end

