-- ==== Sys2Proof/Machine/EventsHost.lean ====
section
/-! DEFINITION. The launch queue and what Eloaler and dispatch do with its entries: contexts, code objects, launches, binding, starts
and completion records (spec/13_launch_and_code_objects.md R381 to R402; 14 R407). -/

namespace Sys2Proof.Machine

/-! ### A context's memory as Eloaler sees it -/

/-- The page of a context's virtual address through its page table, none where no page maps it (13 R382, R401). -/
def State.ctxPage (s : State) (ctx : Nat) (va : Word) : Option Page :=
  match s.ctxs.find? fun c => c.id = ctx with
  | none => none
  | some _ => match s.walk (s.walkerOf ctx) va with | .error _ => none | .ok p => some p

/-- The physical address of a context's virtual address through its page table, none where no page maps it (13 R382, R401). -/
def State.ctxPhys (s : State) (ctx : Nat) (va : Word) : Option Nat := (s.ctxPage ctx va).map fun p => p.base + va.toNat % 2 ^ p.log

/-- The cell of a context's virtual address, none where no page maps it (13 R382, R401). -/
def State.ctxCell (s : State) (ctx : Nat) (va : Word) : Option Nat :=
  (s.ctxPhys ctx va).bind fun pa => match s.target ctx pa with | .cell a => some a | _ => none

/-- n bytes from a cell that a context's virtual address reaches, seen under the KEY of its page (00 R3; 14 R408). -/
def State.ctxKeyed (ctx : Nat) (va : Word) (a n : Nat) (s : State) : State :=
  match s.ctxPage ctx va with
  | none => s
  | some p => s.keyed p.key a n

/-- n bytes of a context's memory, none where a byte is not mapped. -/
def State.ctxBytes (s : State) (ctx : Nat) (va : Word) : Nat → Option (List Byte)
  | 0 => some []
  | n + 1 =>
    match s.ctxCell ctx va, s.ctxBytes ctx (va + 1) n with
    | some a, some bs => some ((s.ctxKeyed ctx va a 1).byteAt a :: bs)
    | _, _ => none

/-- Write consecutive bytes of a context's memory, each performed at its home. -/
def State.ctxWrite (ctx : Nat) (va : Word) (bs : List Byte) (s : State) : State :=
  match s.ctxCell ctx va with
  | none => s
  | some a =>
    if va.toNat % 65536 + bs.length ≤ 65536 then (s.ctxKeyed ctx va a bs.length).perform a bs
    else
      let n := 65536 - va.toNat % 65536
      let s1 := (s.ctxKeyed ctx va a n).perform a (bs.take n)
      match s1.ctxCell ctx (va + word n) with
      | none => s1
      | some b => (s1.ctxKeyed ctx (va + word n) b (bs.length - n)).perform b (bs.drop n)

/-! ### Completion records -/

/-- The hub address of a queue slot (14 Table 14.1). -/
def queueSlot (slot : Nat) : Nat := 0xF0000000000 + 256 * slot

/-- Write a completion record at COMPLETE: the report, doubles 1 to 3, then double 0; where it cannot be written it goes over bytes 224
to 255 of the queue entry, whose KIND then is 0 (13 R382). -/
def State.writeRecord (ctx slot : Nat) (complete d0 d1 d3 : Word) (report : List Word) (s : State) : State :=
  let rest := leBytes 8 d1.toNat ++ leBytes 8 s.gtime.toNat ++ leBytes 8 d3.toNat
  let rep := report.flatMap fun x => leBytes 8 x.toNat
  if complete.toNat % 32 = 0 ∧ (s.ctxCell ctx complete).isSome ∧ (rep = [] ∨ (s.ctxBytes ctx (complete + 32) rep.length).isSome) then
    ((s.ctxWrite ctx (complete + 32) rep).ctxWrite ctx (complete + 8) rest).ctxWrite ctx complete (leBytes 8 d0.toNat)
  else
    let m := memPut s.mem (queueSlot slot + 224) (leBytes 8 d0.toNat ++ rest)
    { s with mem := memSet m (queueSlot slot) 0 }

/-- Double 0 of a completion record (13 Table 13.2). -/
def recordHead (ended code rpt unc flg status : Nat) : Word :=
  word (ended * 2 ^ 24 + code * 2 ^ 16 + rpt * 2 ^ 15 + unc * 2 ^ 14 + flg * 256 + status)

/-- Complete an entry that is no launch: OK for code 0, else REFUSED (13 R382). -/
def State.completeEntry (slot : Nat) (e : List Byte) (code : Nat) (result : Word) (s : State) : State :=
  s.writeRecord (bytesNat e 14 2) slot (word (bytesNat e 56 8)) (recordHead 0 code 0 0 0 (if code = 0 then 1 else 6))
    (word (bytesNat e 200 8)) result []

/-! ### The queue -/

/-- DOORBELL_WRITE (14 R407). -/
def State.ringDoorbell (v : BitVec 32) (s : State) : State :=
  let h := s.hub
  let far := (v - h.taken).toNat
  if 4096 < far ∨ far < (h.avail - h.taken).toNat then { s with hub := { h with doorErrors := h.doorErrors + 1 } }
  else { s with hub := { h with doorbell := v, avail := v } }

/-- DOORBELL_WRITE: makes entries available, or is ignored and counted (14 R407). -/
def execDoorbellWrite (v : BitVec 32) (s : State) : Host.Outcome State Fault Refusal := .next (s.ringDoorbell v)

/-- ENTRY_TAKE: Eloaler copies the next available entry whole; an unknown KIND is refused (13 R381; 14 R407). -/
def execEntryTake (s : State) : Host.Outcome State Fault Refusal :=
  .next (let h := s.hub
    if h.avail = h.taken ∨ s.dev.step < 7 then s
    else
      let slot := h.taken.toNat % 4096
      let e := memBytes s.mem (queueSlot slot) 256
      let s1 : State := { s with hub := { h with taken := h.taken + 1 } }
      if 1 ≤ bytesNat e 0 1 ∧ bytesNat e 0 1 ≤ 5 then { s1 with hub := { s1.hub with entries := h.entries ++ [(slot, e)] } }
      else s1.completeEntry slot e 0x01 0)

/-- Handle the oldest entry that Eloaler has taken, when it is of a kind (13 R381). -/
def State.handle (kind : Nat) (f : Nat → List Byte → State → State) (s : State) : State :=
  match s.hub.entries with
  | (slot, e) :: es => if bytesNat e 0 1 = kind then f slot e { s with hub := { s.hub with entries := es } } else s
  | [] => s

/-- The code of a refusal among those whose reason holds; the spec orders no two of them, so the choice is free (DESIGN CHOICE, log 5). -/
def State.pickCode (cs : List Nat) (s : State) : Nat × State :=
  match cs with
  | [] => (0, s)
  | [c] => (c, s)
  | c :: _ => let d := s.draw; (cs.getD (Config.freeChoice d.1 % cs.length) c, d.2)

/-- Whether bytes lo to lo + n − 1 of an entry are zero. -/
def zeroBytes (e : List Byte) (lo n : Nat) : Bool := bytesNat e lo n = 0

/-! ### CREATE -/

/-- The lowest run of n indices below `size` that no context holds (13 R384). -/
def lowestRun (held : List (Nat × Nat)) (n size : Nat) : Option Nat :=
  (List.range (size + 1)).find? fun lo => lo + n ≤ size && held.all fun h => h.2 = 0 || n = 0 || h.1 + h.2 ≤ lo || lo + n ≤ h.1

/-- The lowest n post-table entries that no context holds (13 R384; 10 R289). -/
def State.freePosts (s : State) (n : Nat) : Option (List Nat) :=
  let free := (List.range 16).filter fun k => !(s.ctxs.any fun c => c.posts.contains k)
  if n ≤ free.length then some (free.take n) else none

/-- The reasons that refuse a CREATE (13 R384). -/
def State.createCodes (s : State) (e : List Byte) : List Nat :=
  let n := bytesNat e
  let zero := 2 ≤ n 1 1 || !zeroBytes e 3 11 || 1024 ≤ n 16 2 || !zeroBytes e 22 2 || !zeroBytes e 64 8 || !zeroBytes e 108 92
    || !zeroBytes e 208 48 || n 24 8 % 65536 ≠ 0 || 2 ^ 44 ≤ n 24 8
  let range := 16 < n 2 1 || 512 < n 18 2 || 16 < n 20 2 || n 32 8 % 4 ≠ 0 || n 40 8 % 65536 ≠ 0 || n 48 8 % 4096 ≠ 0
    || n 48 8 < 4096 || 2 ^ 32 < n 48 8 || n 14 2 = 0
  let key := (n 1 1 % 2 = 1 && n 16 2 = 0) || (n 16 2 ≠ 0 && s.ctxs.any fun c => c.key = n 16 2)
  let full := 8 ≤ s.ctxs.length || (n 18 2 ≤ 512 && (lowestRun (s.ctxs.map fun c => (c.syncLo, c.syncN)) (n 18 2) 512).isNone)
    || (n 20 2 ≤ 16 && (s.freePosts (n 20 2)).isNone)
  (if zero then [0x01] else []) ++ (if s.ctxs.any (fun c => c.id = n 14 2) then [0x02] else []) ++ (if full then [0x03] else [])
    ++ (if key then [0x04] else []) ++ (if range then [0x06] else [])

/-- The measurement of a confidential context at CREATE: the entry with COMPLETE and TAG zero (14 R411). -/
def State.createMeasure (s : State) (e : List Byte) : BitVec 512 :=
  let e0 := e.take 56 ++ List.replicate 8 0 ++ (e.drop 64).take 136 ++ List.replicate 8 0 ++ e.drop 208
  sha512 (leBytes 64 s.dev.mboot.toNat ++ leBytes 64 (sha512 e0).toNat)

/-- The context a CREATE entry makes (13 R384, R399; 10 R281, R289). -/
def State.newCtx (s : State) (images : List (Nat × Nat)) (e : List Byte) : Ctx :=
  let n := bytesNat e
  let bad := s.dev.badCores.foldl (fun a k => a ||| 2 ^ k) 0
  { id := n 14 2, key := n 16 2, conf := n 1 1 % 2 = 1, ptroot := n 24 8,
    res := ((List.range 8).find? fun r => !(s.ctxs.any fun c => c.res = r)).getD 0, swmax := n 2 1,
    syncLo := (lowestRun (s.ctxs.map fun c => (c.syncLo, c.syncN)) (n 18 2) 512).getD 0, syncN := n 18 2,
    posts := (s.freePosts (n 20 2)).getD [], handler := word (n 32 8), stack := word (n 40 8), stacksz := n 48 8, quota := n 72 8,
    used := images.map (·.2), images := images, cores := BitVec.ofNat 224 (n 80 28) &&& ~~~(BitVec.ofNat 224 bad), level := 0, objs := [], comms := [],
    ring := none, mc := if n 1 1 % 2 = 1 then s.createMeasure e else 0, unit := 0, tenant := [], dbg := false, runs := [],
    sched := (List.range 4).map fun d => (d, 0) }

/-- The image area of a context on a die, from two free numbers: a 4 KiB block of the die's HBM where it begins and a size that stays in
the HBM and within the quota; every such area is some pair's (13 R384, R399; 12 R363). -/
def imageArea (quota die a b : Nat) : Nat × Nat :=
  let at_ := 4096 * (a % 2 ^ 25)
  (2 ^ 38 * die + at_, b % (min quota (2 ^ 37 - at_) + 1))

/-- Eloaler's choice of the image areas of a new context, one on each die (13 R384; DESIGN CHOICE, log 35). -/
def State.imageAreas (quota : Nat) (s : State) : List (Nat × Nat) × State :=
  let c := fun (k : Nat) => Config.freeChoice (s.freeCount + k)
  ((List.range 4).map fun d => imageArea quota d (c (2 * d)) (c (2 * d + 1)), { s with freeCount := s.freeCount + 8 })

/-- The other packages of the pod on which a context exists, with its allowed cores there: what the CREATE entries that the host posts to
them ask for is not this package's to see, and is free (13 R384, R438; DESIGN CHOICE, log 79). -/
def State.farPackages (s : State) : List (Nat × BitVec 224) × State :=
  let c := fun (k : Nat) => Config.freeChoice (s.freeCount + k)
  (((List.range s.dev.packages).filter fun r => r ≠ s.dev.rank && c (2 * r) % 2 = 1).map fun r => (r, BitVec.ofNat 224 (c (2 * r + 1))),
   if s.dev.packages ≤ 1 then s else { s with freeCount := s.freeCount + 2 * s.dev.packages })

/-- A key pair of the device's random generator (14 R413; DESIGN CHOICE, log 5). -/
def State.newPair (s : State) : BitVec 512 × State :=
  (BitVec.ofNat 512 (leNat ((List.range 8).flatMap fun k => leBytes 8 (Config.freeWord (s.freeCount + k)).toNat)),
   { s with freeCount := s.freeCount + 8 })

/-- A key index that holds no pair receives one; index 0 is plaintext and needs none (13 R384; 14 R413). -/
def State.installKey (key : Nat) (s : State) : State :=
  if key = 0 ∨ s.dev.keys.any (fun k => k.1 = key) then s
  else
    let r := s.newPair
    { r.2 with dev := { r.2.dev with keys := (key, r.1) :: r.2.dev.keys } }

/-- CREATE on an entry (13 R384). -/
def State.createEntry (slot : Nat) (e : List Byte) (s : State) : State :=
  let p := s.pickCode (s.createCodes e)
  if p.1 ≠ 0 then p.2.completeEntry slot e p.1 0
  else
    let a := s.imageAreas (bytesNat e 72 8)
    let b := a.2.farPackages
    let c : Ctx := { s.newCtx a.1 e with far := b.1 }
    let mine := fun (k : Nat) => c.syncLo ≤ k % 512 && k % 512 < c.syncLo + c.syncN
    let s1 : State := { b.2.installKey c.key with
      ctxs := s.ctxs ++ [c],
      sync := { s.sync with home := s.sync.home.filter fun x => !mine x.1, mirror := s.sync.mirror.filter fun x => !mine x.2.1,
                            post := s.sync.post.filter fun x => !c.posts.contains x.2.1
                            flying := s.sync.flying.filter fun x => !mine x.2.2.1
                            ring := s.sync.ring.filter fun x => !c.posts.contains x.tag
                            phases := s.sync.phases.filter fun x => !mine x.1
                            saved := s.sync.saved.filter fun x => x.1 ≠ c.id } }
    s1.completeEntry slot e 0 0

/-- CREATE (13 R384). -/
def execCreate (s : State) : Host.Outcome State Fault Refusal := .next (s.handle 2 State.createEntry)

/-! ### Code objects -/

/-- A section-table entry (13 Table 13.10). -/
structure Section where
  type : Nat
  flags : Nat
  offset : Nat
  size : Nat
  voff : Nat

/-- A note-table entry (13 Table 13.11). -/
structure Note where
  name : List Byte
  flags : Nat
  size : Nat
  offset : Nat

/-- Whether a section's TYPE is known (13 Table 13.10). -/
def Section.known (x : Section) : Bool := 1 ≤ x.type && x.type ≤ 7
/-- Whether a section is mapped: ALLOC, of a known TYPE; one of an unknown TYPE is ignored (13 R401). -/
def Section.alloc (x : Section) : Bool := x.known && x.flags.testBit 4
/-- R, W and X of a section. -/
def Section.perms (x : Section) : Nat := x.flags / 2 % 8
/-- Pages of 64 KiB that a section maps. -/
def Section.pageCount (x : Section) : Nat := if x.alloc then ceilDiv x.size 65536 else 0

/-- Section k of a file (13 Table 13.10). -/
def fileSection (f : List Byte) (k : Nat) : Section :=
  let o := bytesNat f 16 8 + 32 * k
  { type := bytesNat f o 2, flags := bytesNat f (o + 2) 2, offset := bytesNat f (o + 8) 8, size := bytesNat f (o + 16) 8,
    voff := bytesNat f (o + 24) 8 }

/-- Note k of a file (13 Table 13.11). -/
def fileNote (f : List Byte) (k : Nat) : Note :=
  let o := bytesNat f 24 8 + 32 * k
  { name := (f.drop o).take 16, flags := bytesNat f (o + 16) 2, size := bytesNat f (o + 20) 4, offset := bytesNat f (o + 24) 8 }

/-- The sections of a file. -/
def fileSections (f : List Byte) : List Section := (List.range (bytesNat f 8 2)).map (fileSection f)
/-- The notes of a file. -/
def fileNotes (f : List Byte) : List Note := (List.range (bytesNat f 10 2)).map (fileNote f)

/-- The header and the tables lie as R400 says (13 R400, Table 13.9). -/
def headerOk (f : List Byte) : Bool :=
  let n := f.length
  64 ≤ n && bytesNat f 0 4 = 0x004F434E && bytesNat f 4 2 = 1 && 1 ≤ bytesNat f 6 1 && bytesNat f 6 1 ≤ 3 && zeroBytes f 7 1
    && zeroBytes f 12 4 && zeroBytes f 40 24 && bytesNat f 32 8 = n && bytesNat f 16 8 % 8 = 0 && bytesNat f 24 8 % 8 = 0
    && bytesNat f 16 8 + 32 * bytesNat f 8 2 ≤ n && bytesNat f 24 8 + 32 * bytesNat f 10 2 ≤ n

/-- The FMT section's eight registers. -/
def fmtWords (f : List Byte) (x : Section) : List Word := (List.range 8).map fun k => word (bytesNat f (x.offset + 8 * k) 8)

/-- One section is laid out as R400 and R401 say; o is its entry's place. -/
def sectionOk (f : List Byte) (o : Nat) (x : Section) : Bool :=
  let p := x.perms
  let need := match x.type with | 1 => p = 5 | 2 => p = 3 | 3 => p = 1 | 4 => p = 3 | _ => true
  x.flags < 32 && zeroBytes f (o + 4) 4 && !(x.flags.testBit 2 && x.flags.testBit 3) && need
    && (if x.type = 4 then x.offset = 0 else x.offset + x.size ≤ f.length)
    && (if x.flags.testBit 4 then x.voff % 65536 = 0 else x.voff = 0)
    && (x.type ≠ 6 || (x.size = 64 && (fmtWords f x).all fmtAccept))

/-- No two ALLOC sections overlap (13 R401). -/
def allocsApart : List Section → Bool
  | [] => true
  | x :: xs =>
    (xs.all fun y => !x.alloc || !y.alloc || x.pageCount = 0 || y.pageCount = 0 || x.voff + 65536 * x.pageCount ≤ y.voff
      || y.voff + 65536 * y.pageCount ≤ x.voff) && allocsApart xs

/-- The layout of a file (13 R400, R401 check 1). -/
def layoutOk (f : List Byte) : Bool :=
  headerOk f
    && (List.range (bytesNat f 8 2)).all (fun k => sectionOk f (bytesNat f 16 8 + 32 * k) (fileSection f k))
    && allocsApart (fileSections f)
    && (List.range (bytesNat f 10 2)).all fun k =>
        let o := bytesNat f 24 8 + 32 * k
        let x := fileNote f k
        x.flags < 2 && zeroBytes f (o + 18) 2 && x.offset + x.size ≤ f.length

/-- A note name as its 16 bytes. -/
def noteName (cs : List Nat) : List Byte := cs.map (BitVec.ofNat 8) ++ List.replicate (16 - cs.length) 0

/-- The name `glopas`. -/
def noteGlopas : List Byte := noteName [103, 108, 111, 112, 97, 115]
/-- The name `rhw.minfver`. -/
def noteMinfver : List Byte := noteName [114, 104, 119, 46, 109, 105, 110, 102, 118, 101, 114]

/-- The notes' refusal code, in the order of the notes, 0 for none (13 R401). -/
def noteCode (f : List Byte) : List Note → Nat
  | [] => 0
  | x :: xs =>
    if x.name = noteMinfver then (if Config.fverCap < bytesNat f x.offset 2 then 0x0E else noteCode f xs)
    else if x.name = noteGlopas then noteCode f xs
    else if x.flags = 1 then 0x0D
    else noteCode f xs

/-- Pages of 64 KiB that a file takes. -/
def filePages (f : List Byte) : Nat := ((fileSections f).map Section.pageCount).sum

/-- The lowest free handle of a context's code objects (13 R401). -/
def Ctx.freeObj (c : Ctx) : Option Nat := (List.range 64).find? fun h => !(c.objs.any fun o => o.handle = h)

/-- The first check of R401 that a LOAD fails, 0 for none. -/
def loadCode (c : Ctx) (die : Nat) (f : List Byte) : Nat :=
  if !layoutOk f then 0x0A
  else if c.level ≠ 0 ∧ c.level ≠ bytesNat f 6 1 then 0x0B
  else if (fileSections f).any fun x => !x.known && x.flags % 2 = 1 then 0x0C
  else if noteCode f (fileNotes f) ≠ 0 then noteCode f (fileNotes f)
  else if c.quota < c.used.getD die 0 + 65536 * filePages f then 0x0F
  else if c.freeObj.isNone then 0x10
  else 0

/-- The pages of a plan that section k of a file takes. -/
def sectionPages (f : List Byte) (pages : List Nat) (k : Nat) : List Nat :=
  let before := (((fileSections f).take k).map Section.pageCount).sum
  (pages.drop before).take (fileSection f k).pageCount

/-- Copy a section's body to its pages, the rest of each page zero (13 R401). -/
def State.placeSection (f : List Byte) (x : Section) (pages : List Nat) (s : State) : State :=
  let body := if x.type = 4 then [] else (f.drop x.offset).take x.size
  (List.range pages.length).foldl (fun t i =>
    let bs := (body.drop (65536 * i)).take 65536
    let a := pages.getD i 0
    { t with mem := memPut (t.mem.filter fun c => ¬ (a ≤ c.1 ∧ c.1 < a + 65536)) a bs,
             poison := t.poison.filter fun g => ¬ (a ≤ 32 * g ∧ 32 * g < a + 65536) }) s

/-- Whether the page tables map section k of a file at BASE + VOFF to its pages with its permissions, kind RC and the context's
KEY (13 R401). -/
def State.mapsSection (s : State) (c : Ctx) (f : List Byte) (base : Word) (pages : List Nat) (k : Nat) : Bool :=
  let x := fileSection f k
  let ps := sectionPages f pages k
  (List.range ps.length).all fun i =>
    match s.walk (s.walkerOf c.id) (base + word (x.voff + 65536 * i)) with
    | .ok p => p.base = ps.getD i 0 && p.kind = 0 && p.key = c.key && p.r = x.flags.testBit 1 && p.w = x.flags.testBit 2
        && p.x = x.flags.testBit 3 && p.log = 16
    | .error _ => false

/-- The page-table entries that a walk of an address reads, as far as it gets: their addresses (07 R174). -/
def State.walkPath (s : State) (k : Walker) (va : Word) : List Nat :=
  let a2 := k.ptroot + 8 * bitsOf va 54 42
  match s.readPte k.ptroot (bitsOf va 54 42) with
  | .error _ => []
  | .ok e2 =>
    let n1 := bitsOf e2 43 16 * 65536
    if !e2.getLsbD 0 || e2.getLsbD 4 then [a2]
    else
      match s.readPte n1 (bitsOf va 41 29) with
      | .error _ => [a2]
      | .ok e1 =>
        let a1 := n1 + 8 * bitsOf va 41 29
        if !e1.getLsbD 0 || e1.getLsbD 4 then [a2, a1] else [a2, a1, bitsOf e1 43 16 * 65536 + 8 * bitsOf va 28 16]

/-- The addresses of the pages of 64 KiB of a file's sections (13 R401). -/
def filePageVas (f : List Byte) (base : Word) : List Word :=
  (fileSections f).flatMap fun x => (List.range x.pageCount).map fun i => base + word (x.voff + 65536 * i)

/-- Whether a double is no valid pointer to a table: it may become an entry of a LOAD (07 R174; 13 R401). -/
def State.openEntry (s : State) (a : Nat) : Bool :=
  let e := word (leNat (memBytes s.mem a 8))
  !e.getLsbD 0 || e.getLsbD 4

/-- Whether pages of 64 KiB are a code object's own: no two are one, and none lies in the image areas of a context, in another code object,
in a window, also one whose pages are not free yet, or in the entries that a plan writes (13 R401; 11 R330; DEDUCED, log 48). -/
def State.pagesOwn (s : State) (plan : LoadPlan) : Bool :=
  let apart := fun (a n p : Nat) => a + n ≤ p || p + 65536 ≤ a
  decide plan.pages.Nodup && plan.pages.all fun p => (s.windows.all fun w => !w.pages.contains p) &&
    (s.ctxs.all fun c => (c.images.all fun r => apart r.1 r.2 p) && c.objs.all fun o => !o.pages.contains p)
      && plan.ptes.all fun x => apart x.1 8 p

/-- Write page-table entries. -/
def State.putPtes (ptes : List (Nat × Nat)) (s : State) : State :=
  { s with mem := ptes.foldl (fun m e => memPut m e.1 (leBytes 8 e.2)) s.mem }

/-- The object that a LOAD makes (13 R400, R401). -/
def loadedObj (f : List Byte) (base : Word) (handle : Nat) (plan : LoadPlan) : CodeObj :=
  let xs := fileSections f
  { handle := handle, sections := (xs.filter (·.alloc)).map fun x => (base.toNat + x.voff, x.size, x.flags + 65536 * x.type),
    fmts := ((xs.find? fun x => x.type = 6).map (fmtWords f)).getD (List.replicate 8 0), pages := plan.pages,
    die := plan.die, retiring := false, complete := none }

/-- LOAD on an entry, with Eloaler's choice of a die, pages and page-table entries; a choice that does not map the object as R401
says is none of Eloaler's, and the entry waits (13 R401; 14 R411). (DESIGN CHOICE, log 35.) (DEDUCED, log 48.) -/
def State.loadEntry (plan : LoadPlan) (slot : Nat) (e : List Byte) (s : State) : State :=
  match s.ctxs.find? fun c => c.id = bytesNat e 14 2 with
  | none => s.completeEntry slot e 0x02 0
  | some c =>
    let base := word (bytesNat e 40 8)
    let file := if base.toNat % 65536 = 0 then s.ctxBytes c.id (word (bytesNat e 24 8)) (bytesNat e 32 8) else none
    match file with
    | none => s.completeEntry slot e 0x0A 0
    | some f =>
      let code := loadCode c plan.die f
      if code ≠ 0 then s.completeEntry slot e code 0
      else
        let n := bytesNat f 8 2
        let s1 := (List.range n).foldl (fun t k => t.placeSection f (fileSection f k) (sectionPages f plan.pages k)) s
        let s2 := (plan.pages.foldl (fun t p => t.pageUnder c.key p) s1).putPtes plan.ptes
        let path := (filePageVas f base).flatMap fun va => s2.walkPath (s2.walkerOf c.id) va
        if plan.pages.length = filePages f ∧ plan.pages.all (fun p => p % 65536 = 0 ∧ p / 2 ^ 38 = plan.die ∧ p % 2 ^ 38 < 2 ^ 37)
            ∧ plan.die < 4 ∧ s.pagesOwn plan ∧ plan.ptes.all (fun x => path.contains x.1 && s.openEntry x.1)
            ∧ (List.range n).all (fun k => s2.mapsSection c f base plan.pages k) then
          let h := c.freeObj.getD 0
          let mc := if c.conf then sha512 (leBytes 64 c.mc.toNat ++ leBytes 64 (sha512 f).toNat) else c.mc
          let s3 := s2.onCtx c.id fun c =>
            { c with level := bytesNat f 6 1, used := c.used.modify plan.die (· + 65536 * filePages f), mc := mc,
                     objs := c.objs ++ [loadedObj f base h plan] }
          s3.completeEntry slot e 0 (word h)
        else { s with hub := { s.hub with entries := (slot, e) :: s.hub.entries } }

/-- LOAD (13 R401). -/
def execLoad (dest : LoadPlan) (s : State) : Host.Outcome State Fault Refusal := .next (s.handle 3 (State.loadEntry dest))

/-- UNLOAD on an entry: the object retires, and the entry stays open (13 R402). -/
def State.unloadEntry (slot : Nat) (e : List Byte) (s : State) : State :=
  let h := bytesNat e 24 8
  match s.ctxs.find? fun c => c.id = bytesNat e 14 2 with
  | none => s.completeEntry slot e 0x02 0
  | some c =>
    if c.objs.any fun o => o.handle = h && !o.retiring then
      s.onCtx c.id fun c =>
        { c with objs := c.objs.map fun o => if o.handle = h then { o with retiring := true, complete := some (slot, e) } else o }
    else s.completeEntry slot e 0x07 0

/-- UNLOAD (13 R402). -/
def execUnload (s : State) : Host.Outcome State Fault Refusal := .next (s.handle 4 State.unloadEntry)

/-- Whether an address lies in an ALLOC section of an object. -/
def CodeObj.holds (o : CodeObj) (a : Word) : Bool := o.sections.any fun x => x.1 ≤ a.toNat && a.toNat < x.1 + x.2.1

/-- Whether a thread has spc, vcp, a lane PC or mspc inside an object (13 R402). -/
def Thread.inside (o : CodeObj) (t : Thread) : Bool :=
  let vcp := match t.fr.viq with | [] => t.fr.spc | e :: _ => e.addr
  let lanes := ((t.fr.lanes.map (·.pcs)).getD []) ++ ((t.fr.parkedLanes.map (·.pcs)).getD [])
  o.holds t.fr.spc || o.holds vcp || o.holds t.fr.m.mspc || lanes.any o.holds

/-- Whether anything still uses an object (13 R402). -/
def State.objInUse (s : State) (ctx : Nat) (o : CodeObj) : Bool :=
  ((s.threads ++ s.images).any fun t => t.bind.ctx = ctx && t.life.inSlot && t.inside o)
    || s.hub.launches.any fun l => l.ctx = ctx && bytesNat l.entry 24 8 = o.handle && (l.boundTo ≠ 0 || l.binding.isSome)

/-- Every TLB entry of a context leaves the package (12 R371). -/
def State.dropTlb (ctx : Nat) (s : State) : State := s.onUnc fun u => { u with tlb := u.tlb.filter fun e => e.ctx ≠ ctx }

/-- The addresses of the leaves that map the pages of an object, by the walk of each page of its sections (13 R402; 07 R174). -/
def State.leavesOf (s : State) (ctx : Nat) (o : CodeObj) : List Nat :=
  o.sections.flatMap fun x => (List.range (ceilDiv x.2.1 65536)).filterMap fun i =>
    match s.walk (s.walkerOf ctx) (word (x.1 + 65536 * i)) with
    | .ok p => if o.pages.contains p.base then some p.pte else none
    | .error _ => none

/-- UNLOAD_COMPLETE: nothing uses the object, so its pages are unmapped, its handle is free and its entry completes (13 R402). -/
def execUnloadComplete (ctx handle : Nat) (s : State) : Host.Outcome State Fault Refusal :=
  .next (match (s.ctxs.find? fun c => c.id = ctx).bind fun c => c.objs.find? fun o => o.handle = handle && o.retiring with
    | none => s
    | some o =>
      if s.objInUse ctx o then s
      else
        let s1 := (s.putPtes ((s.leavesOf ctx o).map fun a => (a, 0))).dropTlb ctx
        let s2 := s1.onCtx ctx fun c =>
          { c with objs := c.objs.filter fun x => x.handle ≠ handle, used := c.used.modify o.die (· - 65536 * o.pages.length) }
        match o.complete with
        | none => s2
        | some (slot, e) => s2.completeEntry slot e 0 0)

end Sys2Proof.Machine
end

