-- ==== Sys2Proof/Machine/EventsLaunch.lean ====
section
/-! DEFINITION. Launches: the checks of a launch record and its auxiliary block, binding, dispatch, starts, ends and kills
(spec/13_launch_and_code_objects.md R382 to R399). -/

namespace Sys2Proof.Machine

/-! ### The launch record -/

/-- COUNT, DOMAIN and SCOPE of a level (13 R387). -/
def levelCount (e : List Byte) (n : Nat) : Nat := bytesNat e (64 + 8 * n) 4
/-- DOMAIN of a level (13 R387). -/
def levelDomain (e : List Byte) (n : Nat) : Nat := bytesNat e (68 + 8 * n) 1 % 8
/-- SCOPE of a level (13 R387). -/
def levelScope (e : List Byte) (n : Nat) : Nat := bytesNat e (68 + 8 * n) 1 / 16 % 8
/-- NLEV. -/
def levels (e : List Byte) : Nat := bytesNat e 1 1
/-- T(n): the threads of an instance of level n (13 R387). -/
def threadsAt (e : List Byte) (n : Nat) : Nat := (List.range (n + 1)).foldl (fun a k => a * levelCount e k) 1
/-- T(n − 1). -/
def threadsBelow (e : List Byte) (n : Nat) : Nat := (List.range n).foldl (fun a k => a * levelCount e k) 1
/-- TRUSS of a launch. -/
def wantsTruss (e : List Byte) : Bool := (bytesNat e 4 1).testBit 2
/-- BRACE of a launch. -/
def wantsBrace (e : List Byte) : Bool := (bytesNat e 4 1).testBit 3
/-- VLREQ of a launch. -/
def vlRequested (e : List Byte) : Bool := (bytesNat e 4 1).testBit 4
/-- DEADLINE of a launch, all ones when it is not valid (13 R395). -/
def launchDeadline (e : List Byte) : Nat := if (bytesNat e 4 1).testBit 1 then bytesNat e 48 8 else 2 ^ 64 - 1

/-- Element bits of an ESZ code (05 Table 5.2). -/
def eszBits (z : Nat) : Nat := if z = 4 then 4 else 8 * 2 ^ z

/-- The thread width (13 R389). -/
def launchWidth (e : List Byte) : Nat :=
  if !vlRequested e then bytesNat e 5 1
  else if wantsTruss e || wantsBrace e then 4
  else ([1, 2].find? fun w => bytesNat e 8 2 ≤ w * 32768 / eszBits (bytesNat e 6 1)).getD 4

/-- Threads one instance of a domain holds, for a context on some number of packages (13 Table 13.5). -/
def State.holding (s : State) (packages d w : Nat) : Nat :=
  match d with
  | 0 => 1
  | 1 => 4 / w
  | 2 => 16 / w
  | 3 => 224 / w
  | 4 => 896 / w
  | 5 => 896 / w * max s.dev.dims.1 (max s.dev.dims.2.1 s.dev.dims.2.2)
  | _ => 896 / w * packages

/-- The reasons for code 0x01: a byte that must be zero is not (13 R386, R387). -/
def launchZero (e : List Byte) : Bool :=
  let fl := bytesNat e 4 1
  fl < 32 && zeroBytes e 13 1 && zeroBytes e 18 6 && zeroBytes e 208 48 && (vlRequested e || (zeroBytes e 6 1 && zeroBytes e 8 2))
    && (!vlRequested e || zeroBytes e 5 1) && (fl.testBit 0 || zeroBytes e 40 8) && (fl.testBit 1 || zeroBytes e 48 8)
    && (List.range 8).all fun n =>
      if n < levels e then bytesNat e (68 + 8 * n) 4 / 128 = 0 && bytesNat e (68 + 8 * n) 1 / 8 % 2 = 0 else zeroBytes e (64 + 8 * n) 8

/-- The fields are in range, but for those that other codes cover (13 R386, Table 13.8 code 0x06). -/
def launchRange (e : List Byte) (swmax : Nat) : Bool :=
  let n := bytesNat e
  let w := n 5 1
  1 ≤ levels e && levels e ≤ 8 && n 2 1 < levels e && n 3 1 ≤ 7
    && (if vlRequested e then n 6 1 ≤ 4 && 1 ≤ n 8 2 && n 8 2 ≤ 32768 else w = 1 || w = 2 || w = 4)
    && 16 ≤ n 7 1 && n 7 1 ≤ 24 && 64 ≤ n 10 2 && n 10 2 ≤ 1024 && n 12 1 ≤ swmax && n 32 8 % 4 = 0 && n 192 8 % 64 = 0
    && (!(wantsTruss e || wantsBrace e) || launchWidth e = 4)

/-- The hierarchy is valid, for a context on some number of packages (13 R387, R388). -/
def State.hierarchyOk (s : State) (packages : Nat) (e : List Byte) : Bool :=
  (List.range (levels e)).all fun n =>
    let t := threadsAt e n
    1 ≤ levelCount e n && levelDomain e n < 7 && levelScope e n ≤ 4 && t < 2 ^ 32
      && t ≤ s.holding packages (levelDomain e n) (launchWidth e) && (levelScope e n ≠ 0 || t = 1)
      && (n = 0 || (levelDomain e (n - 1) ≤ levelDomain e n && levelScope e (n - 1) ≤ levelScope e n))

/-- Whether a word's address lies in a TEXT section of an object (13 Table 13.4). -/
def CodeObj.inText (o : CodeObj) (a : Nat) : Bool :=
  o.sections.any fun x => x.2.2 / 65536 = 1 && x.1 ≤ a && a < x.1 + x.2.1

/-! ### Placement -/

/-- The narrower of the two regions that every instance of a level lies in, DOMAIN's and SCOPE's: 0 slot, 1 core, 2 quad, 3 die, 4 package,
5 torus line, 6 pod (13 R388). -/
def levelRegion (e : List Byte) (n : Nat) : Nat :=
  let sc := match levelScope e n with | 0 => 0 | 1 => 1 | 2 => 3 | 3 => 4 | _ => 6
  min (min (levelDomain e n) sc) 6

/-- The quad of a core: the number of its origin core (01 R25). -/
def quadOf (core : Nat) : Nat := core / 16 * 16 + core % 8 / 2 * 2

/-- A place with its die counted through the pod, four to a package in order of rank; elsewhere the dies of this package are 0 to 3, and
those of another are counted from 4 × (rank + 1) (11 R334; 01 R22). -/
def Device.inPod (d : Device) (p : Nat × Nat × Nat) : Nat × Nat × Nat := (if p.1 < 4 then 4 * d.rank + p.1 else p.1 - 4, p.2)

/-- A place of the pod as this package counts it. -/
def Device.fromPod (d : Device) (p : Nat × Nat × Nat) : Nat × Nat × Nat := (if p.1 / 4 = d.rank then p.1 % 4 else p.1 + 4, p.2)

/-- The torus lines of a package: the line along X, then Y, then Z, each with its lowest rank (13 Table 13.5). -/
def Device.lines (d : Device) (rank : Nat) : List Nat :=
  let (x, y, z) := d.coordsOf rank
  [d.rankOf (0, y, z), d.packages + d.rankOf (x, 0, z), 2 * d.packages + d.rankOf (x, y, 0)]

/-- The regions of a kind that a place of the pod (die, core, cluster) lies in, each by its number: a core of row 6 lies in no quad, and a
package on three torus lines (13 Table 13.5; 01 R25). -/
def Device.regionsOf (d : Device) (kind : Nat) (p : Nat × Nat × Nat) : List Nat :=
  match kind with
  | 0 => [1024 * p.1 + 4 * p.2.1 + p.2.2]
  | 1 => [64 * p.1 + p.2.1]
  | 2 => if p.2.1 < 48 then [64 * p.1 + quadOf p.2.1] else []
  | 3 => [p.1]
  | 4 => [p.1 / 4]
  | 5 => d.lines (p.1 / 4)
  | _ => [0]

/-- The regions that an instance of level n with a thread at a place of the pod may lie in, in DOMAIN and in SCOPE's domain at once: none on
a core of row 6 where DOMAIN is the quad (13 R388; 01 R25). -/
def Device.levelRegions (d : Device) (e : List Byte) (n : Nat) (p : Nat × Nat × Nat) : List Nat :=
  if levelDomain e n = 2 ∧ 48 ≤ p.2.1 then [] else d.regionsOf (levelRegion e n) p

/-- How many instances of level n − 1 the free cores of a region hold at most, with torus lines of one axis; level 0 counts threads
(13 R388, R393; DEDUCED, log 62). -/
def Device.instancesIn (d : Device) (e : List Byte) (w : Nat) : Nat → List (Nat × Nat × Nat) → Nat
  | 0, cores => cores.length * (4 / w)
  | n + 1, cores =>
    let keys := (cores.flatMap (d.levelRegions e n)).eraseDups
    let fit := fun (gs : List Nat) =>
      (gs.map fun g => d.instancesIn e w n (cores.filter fun c => (d.levelRegions e n c).contains g) / levelCount e n).sum
    if levelRegion e n = 0 then
      d.instancesIn e w n (cores.filter fun c => d.levelRegions e n c ≠ []) / levelCount e n
    else if levelRegion e n = 5 then ([0, 1, 2].map fun axis => fit (keys.filter fun g => g / d.packages = axis)).foldl max 0
    else fit keys

/-- The allowed cores of a context on this package (13 Table 13.3). -/
def Ctx.coreList (c : Ctx) : List (Nat × Nat × Nat) :=
  (List.range 224).filterMap fun k => if c.cores.getLsbD k then some (k / 56, k % 56, 0) else none

/-- The allowed cores of a context on a package of the pod (13 Table 13.3, R438). -/
def State.coresOn (s : State) (c : Ctx) (rank : Nat) : List (Nat × Nat × Nat) :=
  let far := (c.far.find? fun x => x.1 = rank).map (·.2)
  (List.range 224).filterMap fun k =>
    if (if rank = s.dev.rank then c.cores else far.getD 0).getLsbD k then some (4 * rank + k / 56, k % 56, 0) else none

/-- The packages on which a context exists, in order of rank (13 R384, R438). -/
def State.ctxPackages (s : State) (c : Ctx) : List Nat :=
  (List.range s.dev.packages).filter fun r => r = s.dev.rank || c.far.any fun x => x.1 = r

/-- Whether no route between two packages crosses a port that is down (11 R333). -/
def Device.linked (d : Device) (a b : Nat) : Bool := !((d.route a b ++ d.route b a).any fun x => d.portsDown.contains x)

/-- Whether some packages, each linked with each other one and with those kept, satisfy p (11 R333). -/
def Device.someLinked (d : Device) (p : List Nat → Bool) : List Nat → List Nat → Bool
  | [], kept => p kept
  | r :: rs, kept =>
    if !kept.all (d.linked r) then d.someLinked p rs kept
    else d.someLinked p rs (kept ++ [r]) || (!rs.all (d.linked r) && d.someLinked p rs kept)

/-- Whether a gang can be placed with every allowed core free, on packages of which no two are parted by a down port (13 R392, R393;
11 R333; 14 R419). (DEDUCED, log 62.) -/
def State.placeable (s : State) (c : Ctx) (e : List Byte) : Bool :=
  s.dev.someLinked (fun rs => 1 ≤ s.dev.instancesIn e (launchWidth e) (bytesNat e 2 1 + 1) (rs.flatMap (s.coresOn c))) (s.ctxPackages c) []

/-- Whether places in order of flat index keep every instance of every level inside its regions (13 R388, R438). -/
def State.placesOk (s : State) (e : List Byte) (all : List (Nat × Nat × Nat)) : Bool :=
  let ps := all.map s.dev.inPod
  (List.range (levels e)).all fun n =>
    let t := threadsAt e n
    (List.range ps.length).all fun i =>
      let mine := (ps.drop (i / t * t)).take t
      (s.dev.levelRegions e n (ps.getD i (0, 0, 0))).any fun g => mine.all fun x => (s.dev.levelRegions e n x).contains g

/-! ### The auxiliary block -/

/-- Sign-extend bit 54 of a virtual address (07 R174). -/
def fromVa55 (n : Nat) : Word := (BitVec.ofNat 55 n).signExtend 64

/-- A run of lines before runs that follow it. -/
def joinRun (a b : Nat) : List (Nat × Nat) → List (Nat × Nat)
  | (c, d) :: rs => if c = b + 1 then (a, d) :: rs else (a, b) :: (c, d) :: rs
  | [] => [(a, b)]

/-- The physically contiguous runs of lines that virtual lines v to last map to, none where one is not mapped (13 R390). -/
def State.cutRuns (s : State) (ctx last : Nat) : Nat → Nat → Option (List (Nat × Nat))
  | 0, _ => some []
  | fuel + 1, v =>
    if last < v then some []
    else
      match s.walk (s.walkerOf ctx) (fromVa55 (256 * v)) with
      | .error _ => none
      | .ok p =>
        let o := 256 * v % 2 ^ p.log
        let n := min (last - v + 1) ((2 ^ p.log - o) / 256)
        let a := (p.base + o) / 256
        (s.cutRuns ctx last fuel (v + n)).map fun rs => joinRun a (a + n - 1) rs

/-- The die entries of a cut entry (13 R390; 07 Table 7.2). -/
def State.cutEntry (s : State) (c : Ctx) (b : List Byte) : Option (List (Nat × BitVec 128)) :=
  let base := bytesNat b 0 8
  let last := bytesNat b 8 8
  let d2 := bytesNat b 16 8
  if 2 ^ 47 ≤ base || 2 ^ 47 ≤ last || last < base || d2 / 2 ^ 35 ≠ 1 || !zeroBytes b 24 8 then none
  else
    (s.cutRuns c.id last (last / 256 - base / 256 + 1) base).map fun rs => rs.map fun r =>
      (r.1 / 2 ^ 30 % 4, BitVec.ofNat 128 (r.1 + r.2 * 2 ^ 36 + d2 % 65536 * 2 ^ 85 + d2 / 65536 % 65536 * 2 ^ 101
        + d2 / 2 ^ 32 % 8 * 2 ^ 117 + 2 ^ 120 + c.res * 2 ^ 121))

/-- The physical place of a range that must lie in one page in a die's HBM (13 R390). -/
def State.onePage (s : State) (ctx va size : Nat) : Option Nat :=
  match s.walk (s.walkerOf ctx) (fromVa55 va) with
  | .error _ => none
  | .ok p =>
    let o := va % 2 ^ p.log
    if o + size ≤ 2 ^ p.log ∧ p.base < 2 ^ 40 ∧ (p.base + o + size - 1) % 2 ^ 38 < 2 ^ 37 then some (p.base + o) else none

/-- The window of a 32-byte entry with physical bases, on its die; one that is not enabled gives none to write
(13 R390; 07 Table 7.3). -/
def State.windowEntry (s : State) (ctx : Nat) (b : List Byte) : Option (List (Nat × List Word)) :=
  let d := fun (k : Nat) => bytesNat b (8 * k) 8
  let p := d 0 / 2 ^ 59 % 16
  let sce := d 0 / 2 ^ 58 % 2
  let size := 4096 * d 1
  let okBits := d 0 / 2 ^ 43 % 2 ^ 15 = 0 && d 1 < 2 ^ 32 && d 2 < 2 ^ 43 && d 3 < 2 ^ 43 && (sce = 1 || d 3 = 0) && 1 ≤ d 1
    && (p = 3 || p = 5 || p = 6 || p = 7)
  if !okBits then none
  else if d 0 < 2 ^ 63 then some []
  else
    match s.onePage ctx (4096 * (d 0 % 2 ^ 43)) size, s.onePage ctx (4096 * d 2) (size / 32 * (4 * p + sce)),
      (if sce = 1 then s.onePage ctx (4096 * d 3) (size / 32) else some 0) with
    | some a, some q, some c =>
      if a / 2 ^ 38 = q / 2 ^ 38 ∧ (sce = 0 ∨ a / 2 ^ 38 = c / 2 ^ 38) then
        some [(a / 2 ^ 38, [word (2 ^ 63 + p * 2 ^ 59 + sce * 2 ^ 58 + a / 4096), word (d 1), word (q / 4096), word (c / 4096)])]
      else none
    | _, _, _ => none

/-- The ranges a window takes: its views and its packed storage. -/
def windowRanges (ws : List Word) : List (Nat × Nat) :=
  match FormatWindow.view { die := 0, index := 0, ctx := 0, words := ws } with
  | none => []
  | some v => [(v.dbase, v.dsize), (v.pbase, v.dsize / 32 * (4 * v.p + v.sce))] ++ (if v.sce = 1 then [(v.sbase, v.dsize / 32)] else [])

/-- Whether no two of a list of ranges overlap. -/
def rangesApart : List (Nat × Nat) → Bool
  | [] => true
  | r :: rs => (rs.all fun x => r.1 + r.2 ≤ x.1 || x.1 + x.2 ≤ r.1) && rangesApart rs

/-- A communicator entry (13 R390). -/
def commEntry (k : Nat) (b : List Byte) : Option Comm :=
  let d0 := bytesNat b 0 8
  let c : Comm := { number := k, first := d0 % 2 ^ 32, members := d0 / 2 ^ 32 % 2 ^ 24, prio := d0 / 2 ^ 56 % 8, stride := bytesNat b 8 4,
                    join := bytesNat b 12 4, aborted := false }
  if d0 / 2 ^ 59 = 0 ∧ 1 ≤ c.members ∧ 1 ≤ c.stride then some c else none

/-- All of a list of results, none where one is none. -/
def allSome {α : Type} : List (Option α) → Option (List α)
  | [] => some []
  | none :: _ => none
  | some x :: xs => (allSome xs).map fun ys => x :: ys

/-- The places of a die's cut list and the windows of its controllers are enough, and no two windows overlap
(13 R390; 07 R172, R173). -/
def State.auxFits (s : State) (c : Ctx) (a : Aux) : Bool :=
  (List.range 4).all fun d =>
    let others := s.unc.fmtWins.filter fun w => w.die = d ∧ w.ctx ≠ c.id
    let mine := (a.wins.filter fun w => w.1 = d).map (·.2)
    (s.unc.cuts.filter fun x => x.die = d ∧ field x.bits 121 3 ≠ c.res).length + (a.cuts.filter fun x => x.1 = d).length ≤ 256
      && others.length + mine.length ≤ 16
      && rangesApart ((others.map (·.words) ++ mine).flatMap windowRanges)

/-- The auxiliary block of a launch, none where it is invalid (13 R390). -/
def State.readAux (s : State) (c : Ctx) (e : List Byte) : Option Aux :=
  let at_ := bytesNat e 192 8
  if at_ = 0 then some { cuts := [], wins := [], comms := [], ring := none }
  else
    match s.ctxBytes c.id (word at_) 16 with
    | none => none
    | some h =>
      let nc := bytesNat h 0 2
      let nw := bytesNat h 2 2
      let nm := bytesNat h 4 2
      let lg := bytesNat h 6 1
      if 256 < nc || 16 < nw || 16 < nm || !zeroBytes h 7 1 || (lg = 0 && !zeroBytes h 8 8)
          || (lg ≠ 0 && (lg < (if c.conf then 12 else 7) || 30 < lg)) then none
      else
        match s.ctxBytes c.id (word (at_ + 16)) (32 * nc + 32 * nw + 16 * nm) with
        | none => none
        | some b =>
          let cuts := allSome ((List.range nc).map fun k => s.cutEntry c ((b.drop (32 * k)).take 32))
          let wins := allSome ((List.range nw).map fun k => s.windowEntry c.id ((b.drop (32 * (nc + k))).take 32))
          let comms := allSome ((List.range nm).map fun k => commEntry k ((b.drop (32 * (nc + nw) + 16 * k)).take 16))
          match cuts, wins, comms with
          | some x, some y, some z =>
            let a : Aux := { cuts := x.flatten, wins := y.flatten, comms := z, ring := if lg = 0 then none else some (word (bytesNat h 8 8), lg) }
            if s.auxFits c a then some a else none
          | _, _, _ => none

/-! ### LAUNCH -/

/-- The reasons that refuse a launch of a context (13 R386 to R392, R402). (DEDUCED, log 15.) -/
def State.launchCodes (s : State) (c : Ctx) (e : List Byte) : List Nat :=
  let range := launchRange e c.swmax
  let tree := s.hierarchyOk (s.ctxPackages c).length e
  let code := c.objs.any fun o => o.handle = bytesNat e 24 8 && !o.retiring && o.inText (bytesNat e 32 8)
  (if launchZero e then [] else [0x01]) ++ (if bytesNat e 16 2 = c.key then [] else [0x04])
    ++ (if !range || tree then [] else [0x05]) ++ (if range then [] else [0x06]) ++ (if code then [] else [0x07])
    ++ (if (s.readAux c e).isSome then [] else [0x08]) ++ (if !range || !tree || s.placeable c e then [] else [0x09])

/-- A launch that has been accepted (13 R386, R392). -/
def State.newLaunch (s : State) (slot : Nat) (c : Ctx) (e : List Byte) : Launch :=
  { number := s.hub.nextLaunch, entry := e, slot := slot, ctx := c.id, takenAt := s.gtime.toNat, aged := false,
    threads := threadsBelow e (levels e), boundTo := 0, homes := [], binding := none,
    aux := (s.readAux c e).getD { cuts := [], wins := [], comms := [], ring := none }, ended := 0, status := 0, code := 0,
    unc := false, flags := 0, firstFatal := none, report := [], killed := false }

/-- LAUNCH on an entry: refused, or queued for binding, where the entries of other packages join it (13 R386, R392, R438). -/
def State.launchEntry (slot : Nat) (e : List Byte) (s : State) : State :=
  match s.ctxs.find? fun c => c.id = bytesNat e 14 2 with
  | none =>
    let p := s.pickCode ((if launchZero e then [] else [0x01]) ++ [0x02])
    p.2.completeEntry slot e p.1 (BitVec.allOnes 64)
  | some c =>
    let p := s.pickCode (s.launchCodes c e)
    if p.1 ≠ 0 then p.2.completeEntry slot e p.1 (BitVec.allOnes 64)
    else { s with hub := { s.hub with launches := s.hub.launches ++ [s.newLaunch slot c e], nextLaunch := s.hub.nextLaunch + 1 } }

/-- LAUNCH: a package that has not locked accepts none (13 R386; 14 R415; 01 R24). -/
def execLaunch (s : State) : Host.Outcome State Fault Refusal := .next (if s.dev.locked then s.handle 1 State.launchEntry else s)

/-- LAUNCH_AGE_LIMIT: a launch that has waited 10 ms (13 R392). -/
def execLaunchAgeLimit (n : Nat) (s : State) : Host.Outcome State Fault Refusal :=
  .next (s.onLaunch n fun l => if l.boundTo = 0 ∧ l.takenAt + 10000000 ≤ s.gtime.toNat then { l with aged := true } else l)

/-! ### Completion -/

/-- Whether a launch holds a die: a thread of it was bound there (01 R12). -/
def Launch.holds (l : Launch) (die : Nat) : Bool :=
  l.homes.any (fun h => h.1 = die) || (l.binding.any fun p => p.places.any fun h => h.1 = die)

/-- A context gives its ways on the dies where it has no launch bound any more (01 R12). -/
def State.returnWays (ctx : Nat) (s : State) : State :=
  (List.range 4).foldl (fun t d =>
    if t.hub.launches.any fun l => l.ctx = ctx && l.holds d then t
    else
      let mine := (t.ctxs.find? fun c => c.id = ctx).elim [] (·.runs)
      let t1 := (mine.filter fun r => r.1 = d).foldl (fun (u : State) r => u.clearWays d r.2.1 r.2.2) t
      { t1.onCtx ctx fun c => { c with runs := c.runs.filter fun r => r.1 ≠ d } with
        saved := t1.saved.filter fun k => ¬ (k.ctx = ctx ∧ k.die = d) }) s

/-- What a launch and the other packages' share of it come to: counts and flags together, and the fatal end that came first
(13 R397, R438). -/
def Launch.with (l : Launch) (x : LaunchShare) : Launch :=
  let at_ := fun (r : List Word) => (r.getD 6 0).toNat
  let l1 := { l with ended := l.ended + x.ended, flags := l.flags ||| x.flags, status := firstStatus l.status x.status }
  if x.firstFatal.isSome ∧ (l.firstFatal.isNone ∨ at_ x.report < at_ l.report) then
    { l1 with firstFatal := x.firstFatal, code := if l.status = 6 then l.code else x.code, unc := x.unc, report := x.report }
  else l1

/-- STATUS of a launch that has ended: KILLED first, then what ended it, else OK (13 R397). -/
def Launch.finalStatus (l : Launch) : Nat := if l.killed then 4 else if l.status = 0 then 1 else l.status

/-- The report block: of the first fatal end, or of a DEADLINE that met no started thread, of which only the cause and the time are
stated and the rest is free (13 R383, R396; DESIGN CHOICE, log 61, log 5). -/
def State.launchReport (l : Launch) (s : State) : List Word × State :=
  if l.finalStatus = 2 ∨ l.finalStatus = 3 ∨ l.finalStatus = 5 then
    if l.report ≠ [] then (l.report, s)
    else
      let f := fun (k : Nat) => Config.freeWord (s.freeCount + k)
      ([word (bitsOf (f 0) 31 0 + 8 * 2 ^ 32), f 1, f 2, f 3, f 4, 0, s.gtime, 0], { s with freeCount := s.freeCount + 5 })
  else ([], s)

/-- Write a launch's completion record and forget the launch; its context's ways on dies it leaves go back (13 R382, R383,
R397; 01 R12). -/
def State.closeLaunch (l : Launch) (s : State) : State :=
  let r := s.launchReport l
  let d0 := recordHead l.ended l.code (bitNat (r.1 ≠ [])) (bitNat l.unc) l.flags.toNat l.finalStatus
  let s1 := r.2.writeRecord l.ctx l.slot (word (bytesNat l.entry 56 8)) d0 (word (bytesNat l.entry 200 8))
    ((l.firstFatal.map word).getD (BitVec.allOnes 64)) r.1
  let s2 : State := { s1 with hub := { s1.hub with launches := s1.hub.launches.filter fun x => x.number ≠ l.number } }
  s2.returnWays l.ctx

/-- Whether a launch's threads have all ended, and what must precede its record has happened: the final whistle is applied and
copies that were stopped have stopped (13 R397; 10 R303; 11 R313). -/
def State.launchOver (s : State) (l : Launch) : Bool :=
  let live := fun (t : Thread) => t.life.inSlot && t.bind.launch = l.number
  let rest := fun (t : Thread) => t.life.inSlot && t.bind.ctx = l.ctx
  !((s.threads ++ s.images).any live) && l.binding.isNone && (l.boundTo = l.threads || l.killed || l.status ≠ 0)
    && ((s.activeWindows l.ctx).all fun w => w.entries.all fun e => e.launch ≠ l.number)
    && ((s.threads ++ s.images).any rest || (s.activeWindows l.ctx).all fun w => !w.releasing)
    && !(s.copies.any fun c => c.ctx = l.ctx && c.stopping)

/-- The flat indices of a launch's threads that other packages have bound (11 R334; 13 R438). -/
def Launch.farFlats (l : Launch) : List Nat := (List.range l.homes.length).filter fun k => 4 ≤ (l.homes.getD k (0, 0, 0)).1

/-- Whether what other packages report of a launch is a share of it: a fatal end is one of a thread of theirs and carries its report, and no
more threads have ended than they have bound (13 R383, R397, R438). -/
def Launch.shareOk (l : Launch) (x : LaunchShare) : Bool :=
  x.ended ≤ l.farFlats.length && (l.farFlats ≠ [] || x.flags = 0) && (x.status = 0 || [2, 3, 5].contains x.status)
    && x.firstFatal.isSome = decide (x.status ≠ 0) && x.firstFatal.all (fun k => l.farFlats.contains k)
    && (x.firstFatal.isNone || x.report.length = 8) && (x.firstFatal.isSome || (x.report = [] && x.code = 0 && !x.unc))

/-- Whether a share is a whole one: where nothing has ended the launch, every thread that other packages have bound has ended
(13 R397, R438). -/
def Launch.shareWhole (l : Launch) (x : LaunchShare) : Bool :=
  l.shareOk x && (l.killed || l.status ≠ 0 || x.status ≠ 0 || x.ended = l.farFlats.length)

/-- LAUNCH_COMPLETE, with what other packages report of the launch; a fatal end that another package reports while threads run here ends
them (13 R382, R397, R438). -/
def execLaunchComplete (n : LaunchEnd) (s : State) : Host.Outcome State Fault Refusal :=
  .next (match s.hub.launches.find? fun l => l.number = n.number with
    | none => s
    | some l =>
      if s.launchOver l then (if l.shareWhole n.elsewhere then s.closeLaunch (l.with n.elsewhere) else s)
      else if l.shareOk n.elsewhere ∧ n.elsewhere.status ≠ 0 ∧ l.status = 0 then
        (s.onLaunch l.number fun x => { x with status := n.elsewhere.status }).endLaunch l.number
      else s)

/-- QUEUED_LAUNCH_DEADLINE: the gangs of a launch that are not bound when its DEADLINE has passed are dropped; one of which nothing is bound
completes DEADLINE without running (13 R396). -/
def execQueuedLaunchDeadline (n : Nat) (s : State) : Host.Outcome State Fault Refusal :=
  .next (match s.hub.launches.find? fun l => l.number = n with
    | none => s
    | some l =>
      if s.gtime.toNat ≤ launchDeadline l.entry ∨ l.threads ≤ l.boundTo then s
      else
        let l1 := { l with binding := none, status := firstStatus l.status 3, threads := l.boundTo }
        let s1 := (s.dropBinding n).onLaunch n fun _ => l1
        if l.boundTo = 0 then s1.closeLaunch l1 else s1)

/-! ### Binding -/

/-- STATE and the refusal code of a slot-table entry (13 R398). -/
def State.slotStatusOf (s : State) (die index : Nat) : Nat := leNat (memBytes s.mem (slotStatus die index) 8)

/-! ### Placement under the default policy -/

/-- Whether w clusters of a core from cl on are free: by the records of this package, or by what other packages report of theirs
(13 R393, R438). -/
def State.setFree (s : State) (held : List (Nat × Nat × Nat)) (w : Nat) (p : Nat × Nat × Nat) : Bool :=
  if p.1 / 4 = s.dev.rank then
    (List.range 4).all fun k =>
      let d := s.slotDouble (p.1 % 4) (4 * p.2.1 + k) 0
      d % 2 = 0 || d / 64 % 4 + 2 ^ (d / 16 % 4) ≤ p.2.2 || p.2.2 + w ≤ d / 64 % 4
  else (List.range w).all fun k => !held.contains (p.1 + 4, p.2.1, p.2.2 + k)

/-- The packages that a gang of a launch may stand on: those of its context that no down port parts from its threads or from one another,
the lowest first (11 R333; DEDUCED, log 62). -/
def State.gangPackages (s : State) (c : Ctx) (l : Launch) : List Nat :=
  (s.ctxPackages c).foldl (fun a r =>
    if (a ++ l.homes.map s.homeRank).all (s.dev.linked r) then a ++ [r] else a) []

/-- The free aligned cluster sets of a context's allowed cores for threads of a launch, in order of number through the pod
(13 R393, R438; 01 Table 1.3). -/
def State.freeSets (s : State) (held : List (Nat × Nat × Nat)) (c : Ctx) (l : Launch) : List (Nat × Nat × Nat) :=
  let w := launchWidth l.entry
  ((s.gangPackages c l).flatMap (s.coresOn c)).flatMap fun x =>
    (((List.range (4 / w)).map fun k => (x.1, x.2.1, w * k))).filter (s.setFree held w)

/-- The lowest-numbered region of a level with at least so many of some sets in it (13 R393). -/
def Device.lowestRegion (d : Device) (e : List Byte) (n need : Nat) (sets : List (Nat × Nat × Nat)) : Option Nat :=
  (((sets.flatMap (d.levelRegions e n)).eraseDups.filter fun g =>
    need ≤ (sets.filter fun x => (d.levelRegions e n x).contains g).length)).min?

/-- Place one instance of level n − 1 in some sets, its own instances in order of index; a thread takes the lowest set. Its places, and
the sets that are left (13 R393). -/
def Device.placeInstance (d : Device) (e : List Byte) :
    Nat → List (Nat × Nat × Nat) → Option (List (Nat × Nat × Nat) × List (Nat × Nat × Nat))
  | 0, [] => none
  | 0, x :: xs => some ([x], xs)
  | n + 1, sets =>
    (d.lowestRegion e n (threadsAt e n) sets).bind fun g =>
      let inside := sets.filter fun x => (d.levelRegions e n x).contains g
      let got := (List.range (levelCount e n)).foldl (fun a _ => a.bind fun y =>
        (d.placeInstance e n y.2).map fun z => (y.1 ++ z.1, z.2)) (some ([], inside))
      got.map fun y => (y.1, sets.filter fun x => !y.1.contains x)

/-- The sets a level leaves to a launch's next gang: those of a region where every earlier gang of the same instance stands, the lowest that
holds what is left of the instance, else of the lowest region that holds a whole instance (13 R393). -/
def Device.narrow (d : Device) (l : Launch) (n : Nat) (sets : List (Nat × Nat × Nat)) : List (Nat × Nat × Nat) :=
  let t := threadsAt l.entry n
  let mine := (l.homes.drop (l.boundTo / t * t)).map d.inPod
  let here := fun (x : Nat × Nat × Nat) => (d.levelRegions l.entry n x).any fun g => mine.all fun y => (d.levelRegions l.entry n y).contains g
  match d.lowestRegion l.entry n (t - l.boundTo % t) (sets.filter here) with
  | none => []
  | some g => sets.filter fun x => (d.levelRegions l.entry n x).contains g && here x

/-- The places of a launch's next gang under the default policy, none where it cannot be placed now (13 R393, R438). -/
def State.defaultPlaces (s : State) (held : List (Nat × Nat × Nat)) (l : Launch) : Option (List (Nat × Nat × Nat)) :=
  (s.ctxs.find? fun c => c.id = l.ctx).bind fun c =>
    let gang := bytesNat l.entry 2 1
    let above := ((List.range (levels l.entry)).filter fun n => gang < n).reverse
    let sets := above.foldl (fun a n => s.dev.narrow l n a) (s.freeSets held c l)
    (s.dev.placeInstance l.entry (gang + 1) sets).map fun y => y.1.map s.dev.fromPod

/-- The bind record of thread `flat` of a launch at a place (13 R395, R398; 01 R12, R14, R18). -/
def launchBind (c : Ctx) (l : Launch) (flat : Nat) (p : Nat × Nat × Nat) (image : Nat) : Bind :=
  let e := l.entry
  { die := p.1, core := p.2.1, slot := p.2.2, wc := (launchWidth e).log2, tg := wantsTruss e, bg := wantsBrace e, ctx := c.id,
    key := c.key, conf := c.conf, res := c.res, slots := bytesNat e 7 1, sways := bytesNat e 12 1, stripA := bytesNat e 10 2,
    ptroot := c.ptroot, image := image, entry := word (bytesNat e 32 8),
    sp := c.stack + word ((flat + 1) * c.stacksz - 64), handler := c.handler, start := 0, deadline := word (launchDeadline e),
    level := c.level, flat := flat, launch := l.number }

/-- The thread block: i(n) as double n (13 R387, R395). -/
def threadBlock (e : List Byte) (flat : Nat) : List Byte :=
  (List.range 8).flatMap fun n =>
    leBytes 8 (if n < levels e then flat / threadsBelow e n % levelCount e n else 0)

/-- Whether an aged launch that came before holds this one back (13 R392). (DEDUCED, log 23.) -/
def State.heldBack (s : State) (l : Launch) : Bool :=
  s.hub.launches.any fun m => m.aged && m.boundTo = 0 && m.number < l.number && bytesNat l.entry 3 1 ≤ bytesNat m.entry 3 1

/-- Cores of a die that a power cap leaves usable: four fewer for each 50 W below 3,600 W (14 R417). -/
def Device.usableCores (d : Device) : Nat := 56 - 4 * ((3600 - d.powerCap) / 50)

/-- Whether the cores with threads, and those of a plan, stay within the power cap. Cores whose Truss or Brace is granted are counted down
last, so a launch that asks for either is held back by such cores alone (14 R417). (DEDUCED, log 24.) -/
def State.capOk (s : State) (l : Launch) (p : BindPlan) : Bool :=
  let arrays := wantsTruss l.entry || wantsBrace l.entry
  (List.range 4).all fun d =>
    let held := (s.threads.filter fun t => t.life.inSlot ∧ t.bind.die = d ∧ (!arrays ∨ t.bind.tg ∨ t.bind.bg)).map (·.bind.core)
    let new := (p.places.filter fun x => x.1 = d).map (·.2.1)
    new = [] || ((held ++ new).eraseDups).length ≤ s.dev.usableCores

/-- The ways a context holds on a die, or has saved from it. -/
def State.heldWays (s : State) (ctx die : Nat) : Option Nat :=
  match (s.ctxs.find? fun c => c.id = ctx).bind fun c => c.runs.find? fun r => r.1 = die with
  | some r => some r.2.2
  | none => (s.saved.find? fun k => k.ctx = ctx ∧ k.die = die).map (·.ways)

/-- Take the ways a launch asks for on a die: the run Eloaler names where it is free, else the first there is room for; none
where the context holds another count or there is no room (01 R12, R13). A context that is bound on a die with no ways takes them for
a launch that asks for some (DESIGN CHOICE, log 57). -/
def State.bindWays (ctx ways : Nat) (runs : List (Nat × Nat)) (die : Nat) (s : State) : Option State :=
  match s.heldWays ctx die with
  | some n =>
    if n ≠ ways then none
    else
      let t := s.takeWays ctx die ways
      if (t.ctxs.find? fun c => c.id = ctx).any fun c => c.runs.any fun r => r.1 = die then some t else none
  | none =>
    if ways = 0 then some s
    else
      let free := s.l2Ways die
      match runs.find? fun r => r.1 = die && r.2 + ways ≤ 16 && (List.range ways).all fun k => free.contains (r.2 + k) with
      | some r => some (s.giveWays ctx die r.2 ways)
      | none =>
        let t := s.takeWays ctx die ways
        if (t.ctxs.find? fun c => c.id = ctx).any fun c => c.runs.any fun r => r.1 = die then some t else none

/-- Ways on every die of a plan. -/
def State.bindAllWays (ctx ways : Nat) (p : BindPlan) (s : State) : Option State :=
  ((p.places.map (·.1)).eraseDups).foldl (fun (a : Option State) d => a.bind fun t => t.bindWays ctx ways p.runs d) (some s)

/-- Threads of a gang of a launch (13 R394). -/
def Launch.gangSize (l : Launch) : Nat := threadsAt l.entry (bytesNat l.entry 2 1)

/-- The flat indices of a gang's threads on this package (13 R438). -/
def planFlats (l : Launch) (p : BindPlan) : List Nat :=
  ((List.range l.gangSize).filter fun k => !(p.elsewhere.any fun x => x.1 = k)).map (p.first + ·)

/-- The places of a whole gang in order of flat index (13 R438; 11 R334). -/
def gangHomes (l : Launch) (p : BindPlan) : List (Nat × Nat × Nat) :=
  (List.range l.gangSize).map fun k =>
    match p.elsewhere.find? fun x => x.1 = k with
    | some x => x.2
    | none => (((planFlats l p).findIdx? fun x => x = p.first + k).bind fun i => p.places[i]?).getD (0, 0, 0)

/-- Whether no route between two packages of a launch crosses a port that is down (11 R333). -/
def State.gangReaches (s : State) (homes : List (Nat × Nat × Nat)) : Bool :=
  let rs := (homes.map s.homeRank).eraseDups
  rs.all fun a => rs.all fun b => (s.dev.route a b).all fun x => !s.dev.portsDown.contains x

/-- Whether a launch comes before another: a higher class, or an earlier place in the queue within the class (13 R392). -/
def Launch.before (m l : Launch) : Bool :=
  bytesNat l.entry 3 1 < bytesNat m.entry 3 1 || (bytesNat l.entry 3 1 = bytesNat m.entry 3 1 && m.number < l.number)

/-- Whether the places of the cut list, the windows of the controllers and the ranges they take suffice for what the first gang of a launch
brings with it (13 R390; 07 R169, R172, R173; DEDUCED, log 14). -/
def State.auxReady (s : State) (l : Launch) : Bool :=
  l.boundTo ≠ 0 || bytesNat l.entry 192 8 = 0 || (s.ctxs.find? fun c => c.id = l.ctx).all fun c => s.auxFits c l.aux

/-- The launches that join a communicator of a launch, which bind with it (13 R390). -/
def State.joined (s : State) (l : Launch) : List Launch :=
  s.hub.launches.filter fun m => m.number ≠ l.number && m.aux.comms.any fun a => a.join ≠ 0 &&
    l.aux.comms.any fun b => a.join = b.join && a.number = b.number

/-- Whether another launch joins each communicator of a launch that has a JOIN, here or by the report of other packages; a launch binds with
those that join it (13 R390; DEDUCED, log 14). -/
def State.partnersHere (s : State) (l : Launch) (p : BindPlan) : Bool :=
  l.boundTo ≠ 0 || l.aux.comms.all fun b => b.join = 0 || p.joins.contains (b.join, b.number) ||
    (s.joined l).any fun m => m.aux.comms.any fun a => a.join = b.join && a.number = b.number

/-- Whether the next gang of a launch could be bound now under the default policy, by the records of this package and by what a plan reports
of the others (13 R392, R393, R438). -/
def State.bindable (s : State) (m : Launch) (q : BindPlan) : Bool :=
  m.status = 0 && !m.killed && m.binding.isNone && m.boundTo < m.threads && !s.heldBack m && !q.cannot.contains m.number
    && !s.hub.away.contains m.ctx && s.auxReady m && s.partnersHere m q && s.gtime.toNat ≤ launchDeadline m.entry &&
    (s.defaultPlaces q.held m).any fun ps =>
      let p : BindPlan := { first := 0, places := ps.filter fun x => x.1 < 4, images := [], runs := [], elsewhere := [], start := 0, refused := none }
      (s.bindAllWays m.ctx (bytesNat m.entry 12 1) p).isSome && s.capOk m p

/-- Whether the policy loaded into Eloaler lets a launch bind now with a plan: the default policy takes launches in order of class and
place in the queue, and the lowest places of the pod; another policy is Eloaler's own (13 R392, R393, R438; DESIGN CHOICE, log 35). -/
def State.policyOk (s : State) (l : Launch) (p : BindPlan) : Bool :=
  !s.dev.defaultPolicy ||
    (s.defaultPlaces p.held l = some (gangHomes l p) && !(s.hub.launches.any fun m => m.before l && s.bindable m p))

/-- Whether an entry that another package has taken joins a launch: the same CTXID and TAG (13 R438). -/
def Launch.peer (l : Launch) (e : List Byte) : Bool := bytesNat e 14 2 = bytesNat l.entry 14 2 && bytesNat e 200 8 = bytesNat l.entry 200 8

/-- Whether two entries of one launch agree in every byte except COMPLETE (13 R438). -/
def entriesAgree (a b : List Byte) : Bool := a.take 56 = b.take 56 && a.drop 64 = b.drop 64

/-- Whether an entry that another package of its context has taken differs from a launch's own (13 R438). -/
def State.peersDiffer (s : State) (c : Ctx) (l : Launch) (p : BindPlan) : Bool :=
  l.boundTo = 0 && p.entries.any fun x => x.1 ≠ s.dev.rank && (s.ctxPackages c).contains x.1 && l.peer x.2 && !entriesAgree l.entry x.2

/-- Whether every other package of its context has taken the entry of a launch (13 R438). -/
def State.peersReady (s : State) (c : Ctx) (l : Launch) (p : BindPlan) : Bool :=
  l.boundTo ≠ 0 || (s.ctxPackages c).all fun r => r = s.dev.rank || p.entries.any fun x => x.1 = r && l.peer x.2 && entriesAgree l.entry x.2

/-- Whether a place on another package is an allowed core of a context there (13 R399, R438). -/
def State.allowedAt (s : State) (c : Ctx) (p : Nat × Nat × Nat) : Bool :=
  4 ≤ p.1 && s.homeRank p ≠ s.dev.rank && p.2.2 < 4 && (s.coresOn c (s.homeRank p)).contains (p.1 - 4, p.2.1, 0)

/-- Whether a plan is one that Eloaler may write for the next gang of a launch; a context that a switch has taken out runs no gang, and no
gang is bound after DEADLINE (13 R388, R390, R392 to R394, R396, R438; 12 R366). -/
def State.planOk (s : State) (l : Launch) (p : BindPlan) : Bool :=
  let n := (planFlats l p).length
  s.dev.locked && l.status = 0 && !l.killed && !s.hub.away.contains l.ctx && p.first = l.boundTo && l.boundTo < l.threads && p.places.length = n
    && p.images.length = n && (p.places.map fun x => (x.1, slotOf x)).Nodup && s.gtime.toNat ≤ launchDeadline l.entry
    && p.places.all (fun x => x.1 < 4 && x.2.1 < 56 && x.2.2 < 4 && s.slotDouble x.1 (slotOf x) 0 % 2 = 0)
    && s.placesOk l.entry (l.homes ++ gangHomes l p) && s.gangReaches (l.homes ++ gangHomes l p)
    && (s.ctxs.find? fun c => c.id = l.ctx).any (fun c => s.peersReady c l p && p.elsewhere.all fun x => s.allowedAt c x.2)
    && s.auxReady l && s.partnersHere l p && !s.heldBack l && s.capOk l p && s.policyOk l p

/-- Write the bind records and thread blocks of a gang with GO clear: doubles 1 to 7 of each, then double 0 (13 R394,
R395, R398). -/
def State.writeGang (c : Ctx) (l : Launch) (p : BindPlan) (s : State) : State :=
  (List.range p.places.length).foldl (fun t i =>
    let x := p.places.getD i (0, 0, 0)
    let b := launchBind c l ((planFlats l p).getD i 0) x (p.images.getD i 0)
    let t1 := t.ctxWrite c.id b.sp (threadBlock l.entry b.flat)
    let at_ := slotEntry x.1 (slotOf x)
    let rest := ((b.record false).drop 1).flatMap fun w => leBytes 8 w.toNat
    { t1 with mem := memPut (memPut t1.mem (at_ + 8) rest) at_ (leBytes 8 ((b.record false).headD 0).toNat) }) s

/-- The plan as its launch keeps it while its records await dispatch; a launch whose entries on several packages differ is refused with code
0x11 (13 R394, R438). -/
def State.startBinding (l : Launch) (p : BindPlan) (s : State) : State :=
  match s.ctxs.find? fun c => c.id = l.ctx with
  | none => s
  | some c =>
    if s.peersDiffer c l p then s.closeLaunch { l with status := 6, code := 0x11 }
    else if s.planOk l p then
      match s.bindAllWays l.ctx (bytesNat l.entry 12 1) p with
      | none => s
      | some t => (t.writeGang c l p).onLaunch l.number fun x => { x with binding := some p }
    else s

/-- A gang refused by dispatch: its records are cleared, with those of the launches that bind together with it, and the launch completes
REFUSED, once threads of its earlier gangs have ended (13 R390, R394). (DEDUCED, log 21.) -/
def State.refuseGang (l : Launch) (p : BindPlan) (code : Nat) (s : State) : State :=
  let with_ := if l.boundTo = 0 then (s.joined l).filter fun m => m.boundTo = 0 else []
  let s1 := with_.foldl (fun t m => t.dropBinding m.number) (s.clearGang p)
  let l1 := { l with binding := none, status := 6, code := 0x20 + code }
  let s2 := s1.onLaunch l.number fun _ => l1
  if l.boundTo = 0 then s2.closeLaunch l1 else s2

/-- Whether dispatch has accepted every record of a gang (13 R394). -/
def State.accepted (s : State) (p : BindPlan) : Bool := p.places.all fun x => s.slotStatusOf x.1 (slotOf x) % 4 = 1

/-- The lowest indices below n that are not taken. -/
def freeIndices (taken : List Nat) (n : Nat) : List Nat := (List.range n).filter fun k => !taken.contains k

/-- The cut entries, format windows, communicators and trace ring of a launch become its context's when its first gang binds
(13 R390; 07 R169, R172); a gang starts only where they fit (`auxReady`). (DEDUCED, log 14.) -/
def State.applyAux (l : Launch) (s : State) : State :=
  if bytesNat l.entry 192 8 = 0 then s
  else
    let res := ((s.ctxs.find? fun c => c.id = l.ctx).map (·.res)).getD 0
    let s1 := s.onUnc fun u => { u with
      cuts := u.cuts.filter fun x => field x.bits 121 3 ≠ res, fmtWins := u.fmtWins.filter fun w => w.ctx ≠ l.ctx }
    let s2 := (List.range 4).foldl (fun (t : State) d =>
      let cs := (l.aux.cuts.filter fun x => x.1 = d).map (·.2)
      let ws := (l.aux.wins.filter fun x => x.1 = d).map (·.2)
      let ci := freeIndices ((t.unc.cuts.filter fun x => x.die = d).map (·.index)) 256
      let wi := freeIndices ((t.unc.fmtWins.filter fun x => x.die = d).map (·.index)) 16
      t.onUnc fun u => { u with
        cuts := u.cuts ++ (ci.zip cs).map fun x => { die := d, index := x.1, bits := x.2 }
        fmtWins := u.fmtWins ++ (wi.zip ws).map fun x => { die := d, index := x.1, ctx := l.ctx, words := x.2 } }) s1
    s2.onCtx l.ctx fun c => { c with
      comms := l.aux.comms
      ring := l.aux.ring.map fun r =>
        { base := r.1, log := r.2, prod := 0, seq := 0, truncated := false, pending := [] } }

/-- GO in every record of a launch's gang, with the gang's start time S (13 R394). -/
def State.goGang (start : Nat) (l : Launch) (s : State) : State :=
  match l.binding with
  | none => s
  | some p =>
    let s1 := if l.boundTo = 0 then s.applyAux l else s
    let s2 : State := p.places.foldl (fun t x =>
      let i := slotOf x
      let m := memPut t.mem (slotEntry x.1 i + 48) (leBytes 8 start)
      { t with mem := memPut m (slotEntry x.1 i) (leBytes 8 (t.slotDouble x.1 i 0 % 2 ^ 58 + 2 ^ 58)) }) s1
    s2.onLaunch l.number fun y =>
      { y with binding := none, boundTo := y.boundTo + l.gangSize, homes := y.homes ++ gangHomes l p }

/-- START of a launch, 0 where it is not valid. -/
def launchStart (e : List Byte) : Nat := if (bytesNat e 4 1).testBit 0 then bytesNat e 40 8 else 0

/-- S of a gang: the later of START and 2,000 ns from now, for the launches that join it together, with 220 ns more for each hop to the
farthest package of a gang that this package is the lowest-ranked of; another package takes what that one sends, which no START is later
than (13 R390, R394, R438). -/
def State.gangStart (all : List Launch) (p : BindPlan) (s : State) : Nat :=
  let ranks := p.elsewhere.map fun x => s.homeRank x.2
  let hops := (ranks.map fun r => (s.dev.route s.dev.rank r).length).foldl max 0
  let own := if ranks.all fun r => s.dev.rank < r then s.gtime.toNat + 2000 + 220 * hops else p.start.toNat
  all.foldl (fun a m => max a (launchStart m.entry)) own

/-- GO for the gangs of some launches, one after another, none where what a launch brings with it does not fit (13 R390, R394). -/
def State.goAll (start : Nat) : List Launch → State → Option State
  | [], s => some s
  | l :: ls, s => if s.auxReady l then State.goAll start ls (s.goGang start l) else none

/-- The records of a launch's gang are written: where dispatch refuses one, here or on another package, the gang is cleared; where it
has accepted all, and those of the launches that join it, they start, once what they bring with them fits. `q` is what other packages
report (13 R390, R394, R438). -/
def State.finishBinding (l : Launch) (p q : BindPlan) (s : State) : State :=
  match p.places.find? fun x => s.slotStatusOf x.1 (slotOf x) % 4 = 3 with
  | some x => s.refuseGang l p (s.slotStatusOf x.1 (slotOf x) / 16 % 16)
  | none =>
    match (if p.elsewhere = [] then none else q.refused) with
    | some code => s.refuseGang l p code
    | none =>
      let js := s.joined l
      if s.accepted p && js.all fun m => 0 < m.boundTo || m.binding.any fun q => s.accepted q then
        let all := l :: js.filter fun m => m.boundTo = 0
        (State.goAll (s.gangStart all { p with start := q.start }) all s).getD s
      else s

/-- GANG_BIND: Eloaler writes the next gang's records, or sets GO in them, or clears them (13 R392 to R394, R438). -/
def execGangBind (n : Nat) (p : BindPlan) (s : State) : Host.Outcome State Fault Refusal :=
  .next (match s.hub.launches.find? fun l => l.number = n with
    | none => s
    | some l => match l.binding with | none => s.startBinding l p | some q => s.finishBinding l q p)

/-! ### Dispatch -/

/-- Whether a record has its reserved bits zero and its fields in range (13 Table 13.6). -/
def recordOk (d0 d3 d4 : Nat) : Bool :=
  d0 / 2 ^ 59 = 0 && d0 / 2 ^ 29 % 8 = 0 && d0 / 2 ^ 14 % 4 = 0 && d0 / 256 % 64 < 56 && d0 / 16 % 4 < 3 && d0 / 2 ^ 24 % 32 ≤ 16
    && 16 ≤ d0 / 2 ^ 19 % 32 && d0 / 2 ^ 19 % 32 ≤ 24 && d3 / 2 ^ 44 = 0 && d3 / 2 ^ 11 % 32 = 0 && 64 ≤ d3 % 2 ^ 11
    && d3 % 2 ^ 11 ≤ 1024 && d4 / 2 ^ 44 = 0 && d4 % 4096 = 0

/-- The other valid records of a core, as their first double (13 R399). -/
def State.otherRecords (s : State) (die core cl : Nat) : List Nat :=
  ((List.range 4).filter fun k => k ≠ cl).filterMap fun k =>
    let d := s.slotDouble die (4 * core + k) 0
    if d % 2 = 1 then some d else none

/-- The first check of Table 13.7 that a record fails, 0 for none. -/
def State.dispatchCode (s : State) (die entry : Nat) : Nat :=
  let d := s.slotDouble die entry
  let d0 := d 0
  let core := d0 / 256 % 64
  let cl := d0 / 64 % 4
  let w := 2 ^ (d0 / 16 % 4)
  let others := s.otherRecords die core cl
  let lim := s.ctxs.find? fun c => c.res = d0 / 2 ^ 16 % 8
  if !recordOk d0 (d 3) (d 4) || entry ≠ 4 * core + cl then 1
  else
    match lim with
    | none => 2
    | some c =>
      if !c.cores.getLsbD (56 * die + core) then 2
      else if d0 / 2 ^ 32 % 65536 ≠ c.id || d0 / 2 ^ 48 % 1024 ≠ c.key || (d0 / 8 % 2 = 1) ≠ c.conf || d 3 / 65536 * 65536 ≠ c.ptroot then 3
      else if c.swmax < d0 / 2 ^ 24 % 32 || !(c.images[die]?).any (fun r => r.1 ≤ d 4 && d 4 < r.1 + r.2) then 4
      else if cl % w ≠ 0 || others.any fun x => cl < x / 64 % 4 + 2 ^ (x / 16 % 4) && x / 64 % 4 < cl + w then 5
      else if (d0 / 2 % 4 ≠ 0 && w ≠ 4) || others.any fun x => (x / 2 % 4) &&& (d0 / 2 % 4) ≠ 0 then 6
      else 0

/-- The initial state of a thread under the device's firmware (13 R395; 03 R57; 06 R142; 12 R372). -/
def boundThread (fw : Nat) (c : Ctx) (e : List Byte) (b : Bind) : Thread :=
  let fmts := ((c.objs.find? fun o => o.handle = bytesNat e 24 8).map (·.fmts)).getD []
  let sreg := fun (k : Nat) =>
    if k = 2 then b.sp else if 3 ≤ k ∧ k ≤ 10 then word (bytesNat e (128 + 8 * (k - 3)) 8) else 0
  { Thread.reset with
    bind := b, life := .bound,
    fr := { Front.reset with
      s := Vector.ofFn fun (k : Fin 64) => sreg k.val, spc := b.entry,
      regs := { FrontRegs.reset with dline := b.deadline, fverUp := fw }, m := { MRegs.reset with dbg := c.dbg } },
    ln := { Lanes.reset with fmt := Vector.ofFn fun (k : Fin 8) => fmts.getD k.val 0 } }

/-- Put a thread in the slot of its place. -/
def State.install (t : Thread) (s : State) : State :=
  let dead := fun (x : Thread) => x.bind.place = t.bind.place && !x.life.inSlot
  if dead s.th then { s with th := t, others := s.others.filter fun x => !dead x }
  else { s with others := (s.others.filter fun x => !dead x) ++ [t] }

/-- The launch and the index in its gang whose record stands at an entry. -/
def State.bindingAt (s : State) (die entry : Nat) : Option (Launch × BindPlan × Nat) :=
  s.hub.launches.findSome? fun l =>
    l.binding.bind fun p => (p.places.findIdx? fun x => x.1 = die && slotOf x = entry).map fun i => (l, p, i)

/-- BIND_RECORD_VALID: dispatch checks a record that has become valid, and accepts it or writes why not (13 R399). -/
def execBindRecordValid (die entry : Nat) (s : State) : Host.Outcome State Fault Refusal :=
  .next (if s.slotDouble die entry 0 % 2 = 0 || s.slotStatusOf die entry % 4 ≠ 0 then s
    else
      match s.bindingAt die entry with
      | none => s
      | some (l, p, i) =>
        let code := s.dispatchCode die entry
        if code ≠ 0 then s.setSlotStatus die entry (3 + 16 * code)
        else
          match s.ctxs.find? fun c => c.id = l.ctx with
          | none => s
          | some c =>
            let b := launchBind c l ((planFlats l p).getD i 0) (p.places.getD i (0, 0, 0)) (p.images.getD i 0)
            (s.setSlotStatus die entry 1).install (boundThread s.dev.fwUp c l.entry b))

/-- A bound thread whose deadline has passed never starts, and gangs not yet bound are dropped (13 R396). (DEDUCED, log 22.) -/
def State.neverStart (s : State) : State :=
  let s1 := (s.dropBinding s.th.bind.launch).onLaunch s.th.bind.launch fun l => { l with status := firstStatus l.status 3, threads := l.boundTo }
  s1.freeSlot.onTh fun t => { t with life := .ended }

/-- THREAD_START: a bound thread starts at its start time once GO is set (13 R394 to R396, R399), unless a switch has taken its context out (12 R366). -/
def execThreadStart (die entry : Nat) (s : State) : Host.Outcome State Fault Refusal :=
  .next (s.at (224 * die + entry) fun u =>
    let start := u.slotDouble die entry 6
    if u.th.life ≠ .bound || u.slotDouble die entry 0 / 2 ^ 58 % 2 = 0 then u
    else if u.th.bind.deadline < u.gtime then u.neverStart
    else if u.gtime.toNat < start || u.hub.away.contains u.th.bind.ctx then u
    else
      match u.regainWays u.th.bind.ctx die with
      | none => u
      | some v => (v.setSlotStatus die entry 2).onTh fun t => { t with life := .running, bind := { t.bind with start := word start } })

/-! ### Kills -/

/-- A key index is cleared: the lines of the L2 are written back or dropped (14 R413); what memory holds stays (DESIGN CHOICE, log 70). -/
def State.clearKey (key : Nat) (s : State) : State :=
  if key = 0 then s
  else { s.onUnc fun u => { u with l2 := [] } with dev := { s.dev with keys := s.dev.keys.filter fun k => k.1 ≠ key } }

/-- What a context held on the package is freed; other packages drop their translations of its windows, whose pages are free once they
have acknowledged (13 R385; 14 R413; 01 R12; 11 R330). (DEDUCED, log 25.) -/
def State.removeCtx (c : Ctx) (s0 : State) : State :=
  let mine := fun (k : Nat) => c.syncLo ≤ k % 512 && k % 512 < c.syncLo + c.syncN
  let ranks := s0.invalidRanks c.id
  let s := (s0.activeWindows c.id).foldl (fun t w => t.invalidate c.id t.dev.rank w.handle ranks) s0
  let s1 := (List.range 4).foldl (fun (t : State) d =>
    ((c.runs.filter fun r => r.1 = d).foldl (fun (u : State) r => u.clearWays d r.2.1 r.2.2) t)) s
  let s2 := (s1.onUnc fun u => { u with
      tlb := u.tlb.filter fun e => e.ctx ≠ c.id, icache := u.icache.filter fun e => e.ctx ≠ c.id,
      dcache := u.dcache.filter fun e => e.ctx ≠ c.id, cuts := u.cuts.filter fun x => field x.bits 121 3 ≠ c.res,
      fmtWins := u.fmtWins.filter fun w => w.ctx ≠ c.id, rtrans := u.rtrans.filter fun x => x.2.2.ctx ≠ c.id,
      served := u.served.filter fun x => x.2.1 ≠ c.id, asks := u.asks.filter fun m => m.ctx ≠ c.id })
  let s3 : State := { s2 with
    ctxs := s2.ctxs.filter fun x => x.id ≠ c.id,
    windows := s2.windows.filterMap fun w =>
      if w.ctx ≠ c.id ∨ w.freeing.isSome then some w
      else if ranks = [] then none
      else some { w with entries := [], cap := 0, freeing := some ranks }
    whistles := s2.whistles.filter fun w => w.ctx ≠ c.id, saved := s2.saved.filter fun k => k.ctx ≠ c.id,
    images := s2.images.filter fun t => t.bind.ctx ≠ c.id,
    sync := { s2.sync with
      saved := (c.id, (s2.sync.home.filter fun x => mine x.1), s2.sync.post.filter fun x => c.posts.contains x.2.1) ::
        s2.sync.saved.filter fun x => x.1 ≠ c.id }
    hub := { s2.hub with switches := s2.hub.switches.filter fun w => w.incoming ≠ c.id, away := s2.hub.away.filter (· ≠ c.id) } }
  if s3.ctxs.any fun x => x.key = c.key then s3 else s3.clearKey c.key

/-- What other packages report of a launch that a kill ends: how many of the threads they have bound have ended, the flags of these, and a
fatal end among them before it, are free values (13 R438; DESIGN CHOICE, log 5). -/
def State.killShare (l : Launch) (s : State) : LaunchShare × State :=
  if l.farFlats = [] then (.nothing, s)
  else
    let c := fun (k : Nat) => Config.freeChoice (s.freeCount + k)
    let fatal : Bool := c 2 % 2 = 1
    ({ ended := c 0 % (l.farFlats.length + 1), flags := BitVec.ofNat 6 (c 1), status := 0,
       firstFatal := if fatal then some (l.farFlats.getD (c 3 % l.farFlats.length) 0) else none,
       code := if fatal then c 4 % 256 else 0, unc := fatal && c 5 % 2 = 1, report := [] }, { s with freeCount := s.freeCount + 6 })

/-- Every launch of a context ends and completes KILLED (13 R385, R397, R438). -/
def State.killLaunches (id : Nat) (s : State) : State :=
  (s.hub.launches.filter fun l => l.ctx = id).foldl (fun t l =>
    let t1 := (t.onLaunch l.number fun x => { x with killed := true }).endLaunch l.number
    match t1.hub.launches.find? fun x => x.number = l.number with
    | none => t1
    | some x => let y := t1.killShare x; y.2.closeLaunch (x.with y.1)) s

/-- Kill a context: aborts on its communicators, its threads stop, its copies are abandoned, its launches complete KILLED, its open
UNLOADs complete as its objects are freed, and it is removed (13 R381, R385, R402; 11 R346; 10 R303). -/
def State.killCtx (id : Nat) (s : State) : State :=
  match s.ctxs.find? fun c => c.id = id with
  | none => s
  | some c =>
    let s1 := c.comms.foldl (fun (t : State) n => t.abortComm id n.number) s
    let s2 := s1.killLaunches id
    let s3a := (s2.copies.filter fun x => x.ctx = id).foldl (fun (t : State) x => t.abandonCopy x) s2
    let s3 := (c.objs.filterMap (·.complete)).foldl (fun (t : State) x => t.completeEntry x.1 x.2 0 0) s3a
    (s3.removeCtx (((s3.ctxs.find? fun x => x.id = id)).getD c)).readmitCopies

/-- Kill every context that satisfies p. -/
def State.killWhere (p : Ctx → Bool) (s : State) : State :=
  ((s.ctxs.filter p).map (·.id)).foldl (fun t id => t.killCtx id) s

/-- KILL on an entry (13 R385). -/
def State.killEntry (slot : Nat) (e : List Byte) (s : State) : State :=
  let id := bytesNat e 14 2
  if s.ctxs.any fun c => c.id = id then (s.killCtx id).completeEntry slot e 0 0
  else s.completeEntry slot e 0x02 0

/-- KILL (13 R385). -/
def execKill (s : State) : Host.Outcome State Fault Refusal := .next (s.handle 5 State.killEntry)

end Sys2Proof.Machine
end

