-- ==== Sys2Proof/Machine/EventsDevice.lean ====
section
/-! DEFINITION. The device's own events: RDMA, boot, attestation, keys, time, power, ports, the debug port, trace rings and background
work (spec/14_device_integration.md; 12 R368, R369, R377 to R379; 11 R333). -/

namespace Sys2Proof.Machine

/-! ### RDMA -/

/-- Bytes of an event's list of numbers. -/
def toBytes (xs : List Nat) : List Byte := xs.map (BitVec.ofNat 8)

/-- A list of exactly n bytes: cut, or filled with zeros. -/
def fixBytes (n : Nat) (bs : List Byte) : List Byte := bs.take n ++ List.replicate (n - bs.length) 0

/-- Whether a queue pair is connected and not in the error state (14 R404, R405). -/
def State.qpLive (s : State) (port qp : Nat) : Bool := s.dev.qps.any fun q => q.port = port && q.qp = qp && !q.error

/-- A Remote Access Error NAK: the queue pair enters the error state (14 R404). -/
def State.nak (port qp : Nat) (s : State) : State :=
  let dev := { s.dev with qps := s.dev.qps.map fun q => if q.port = port ∧ q.qp = qp then { q with error := true } else q }
  { s with dev := dev }.emit (.rdmaNak port qp)

/-- RDMA_CONNECT: accepted with the host credential, up to 256 connected queue pairs a port, once the boot has opened the ports; a queue
pair in error is no longer connected (14 R405, R409; DEDUCED, log 27). -/
def execRdmaConnect (port qp : Nat) (credential : List Nat) (s : State) : Host.Outcome State Fault Refusal :=
  .next (let same := s.dev.qps.filter fun q => q.port = port && !q.error
    if s.dev.step = 7 && port < 4 && same.length < 256 && !(same.any fun q => q.qp = qp) && toBytes credential = s.dev.credential then
      { s with dev := { s.dev with qps := { port := port, qp := qp, error := false } ::
        (s.dev.qps.filter fun q => !(q.port = port && q.qp = qp)) } }.emit (.connection port qp true)
    else s.emit (.connection port qp false))

/-- Whether a request may reach the page of a context's address, in a chunk of n bytes that lies in one page (14 R404).
(DEDUCED, log 26.) -/
def State.hostPage (s : State) (ctx : Nat) (acc : Access) (va : Word) (n : Nat) : Bool :=
  let k := s.walkerOf ctx
  match s.walk k va with
  | .error _ => false
  | .ok p =>
    let pa := p.base + va.toNat % 2 ^ p.log
    s.leafOk k p acc && !inShared p.base && !s.inView p.base (2 ^ p.log)
      && (match s.target ctx pa with | .cell _ => true | _ => false)
      && !(s.unc.fmtWins.any fun w => (windowRanges w.words).any fun r => pa < r.1 + r.2 && r.1 < pa + n)

/-- The chunks of a range that do not cross a line of 256 bytes, as (offset, length) (14 R406). -/
def hostLines (va n : Nat) : List (Nat × Nat) :=
  (List.range ((va % 256 + n + 255) / 256)).map fun k =>
    let lo := max (va / 256 * 256 + 256 * k) va
    (lo - va, min (va / 256 * 256 + 256 * (k + 1)) (va + n) - lo)

/-- Whether a request's range may be reached (14 R404). -/
def State.hostRange (s : State) (ctx : Nat) (acc : Access) (va n : Nat) : Bool :=
  (s.ctxs.any fun c => c.id = ctx) && va + n ≤ 2 ^ 64 && (hostLines va n).all fun x => s.hostPage ctx acc (word (va + x.1)) x.2

/-- The context region of an R_Key (14 Table 14.2). -/
def contextKey (rkey : Nat) : Option Nat := if 0x10000 ≤ rkey ∧ rkey < 0x20000 then some (rkey - 0x10000) else none

/-- A host WRITE performed line by line in ascending order (14 R406). (DEDUCED, log 27.) -/
def State.hostWrite (ctx va : Nat) (bs : List Byte) (s : State) : State :=
  (hostLines va bs.length).foldl (fun t x => t.ctxWrite ctx (word (va + x.1)) ((bs.drop x.1).take x.2)) s

/-- A request arrives on a queue pair: one whose packet carries the mark of congestion is answered with a congestion notification
packet as well (00 R3). -/
def State.arriveRdma (p : HostPort) (qp : Nat) (s : State) : State := if p.marked then s.emit (.congestion p.port qp) else s

/-- The payloads of a read response, at most the path MTU of 4,096 bytes each (00 R3). -/
def roceParts (bs : List Byte) : List (List Byte) :=
  (List.range (max 1 ((bs.length + 4095) / 4096))).map fun k => (bs.drop (4096 * k)).take 4096

/-- A read response leaves in its packets (14 R406). -/
def State.respond (port qp : Nat) (bs : List Byte) (s : State) : State :=
  { s with out := s.out ++ (roceParts bs).map (.rdmaData port qp) }

/-- A WRITE on a connected queue pair (14 R404, R406, R407). -/
def State.rdmaWrite (port qp rkey addr : Nat) (bs : List Byte) (s : State) : State :=
  if rkey = 0x100 ∧ addr + bs.length ≤ 0x100000 then
    { s with mem := memPut s.mem (0xF0000000000 + addr) bs }.emit (.rdmaAck port qp)
  else if rkey = 0x101 ∧ addr = 0 ∧ bs.length = 4 then (s.ringDoorbell (BitVec.ofNat 32 (leNat bs))).emit (.rdmaAck port qp)
  else
    match contextKey rkey with
    | some c => if s.hostRange c .write addr bs.length then (s.hostWrite c addr bs).emit (.rdmaAck port qp) else s.nak port qp
    | none => s.nak port qp

/-- RDMA_WRITE (14 R404, R406, R407). -/
def execRdmaWrite (p : HostPort) (qp rkey addr : Nat) (data : List Nat) (s : State) : Host.Outcome State Fault Refusal :=
  .next (if s.qpLive p.port qp then (s.arriveRdma p qp).rdmaWrite p.port qp rkey addr (toBytes data) else s)

/-- A byte that a host READ returns; the spec gives a poisoned one no value (07 R192; DESIGN CHOICE, log 5). -/
def State.hostByte (s : State) (ctx : Nat) (va : Word) (k : Nat) : Byte :=
  match s.ctxCell ctx va with
  | none => 0
  | some a => if s.poisoned a then (Config.freeWord (s.freeCount + k)).setWidth 8 else (s.ctxKeyed ctx va a 1).byteAt a

/-- The lines of a host READ go through the L2 (14 R406; 07 R168). -/
def State.hostRead (ctx va n : Nat) (s : State) : State :=
  (hostLines va n).foldl (fun t x =>
    match t.ctxCell ctx (word (va + x.1)) with
    | some a => t.l2Read false a x.2
    | none => t) s

/-- A READ on a connected queue pair (14 R404, R406). -/
def State.rdmaRead (port qp rkey addr len : Nat) (s : State) : State :=
  if rkey = 0x100 ∧ addr + len ≤ 0x100000 then s.respond port qp (memBytes s.mem (0xF0000000000 + addr) len)
  else
    match contextKey rkey with
    | some c =>
      if s.hostRange c .read addr len then
        { s.hostRead c addr len with freeCount := s.freeCount + len }.respond port qp
          ((List.range len).map fun k => s.hostByte c (word (addr + k)) k)
      else s.nak port qp
    | none => s.nak port qp

/-- RDMA_READ (14 R404, R406). -/
def execRdmaRead (p : HostPort) (qp rkey addr len : Nat) (s : State) : Host.Outcome State Fault Refusal :=
  .next (if s.qpLive p.port qp then (s.arriveRdma p qp).rdmaRead p.port qp rkey addr len else s)

/-! ### Boot, time, power -/

/-- A report over I3C (DESIGN CHOICE, log 8): 0 telemetry, 1 the boot stopped at a step, 2 a torus port, 3 power-off requested, 4 cores that
failed the self-test. -/
def State.report (code : Nat) (data : List Nat) (s : State) : State := s.emit (.i3c code data)

/-- Whether the boot ROM accepts a flash image (14 R410). -/
def Device.acceptsImage (d : Device) (img : List Byte) : Bool :=
  let key := (img.drop 32).take 32
  let body := (img.drop 256).take (bytesNat img 8 8)
  256 + bytesNat img 8 8 ≤ img.length && bytesNat img 0 4 = 0x4C4F4C45 && bytesNat img 16 16 = 0 && bytesNat img 128 128 = 0
    && ((d.digests.zip d.revoked).take 4).any (fun x => !x.2 && x.1 = sha512 key)
    && ed25519Verify key (img.take 32 ++ body) ((img.drop 64).take 64) && d.rollback ≤ bytesNat img 4 4

/-- Extend a measurement (14 R411). -/
def extend (m : BitVec 512) (part : List Byte) : BitVec 512 :=
  sha512 (leBytes 64 m.toNat ++ leBytes 64 (sha512 part).toNat)

/-- The torus ports that join this package to another: those of the dimensions longer than one (14 R416; 01 R22).
(DEDUCED, log 28.) -/
def Device.neededPorts (d : Device) : List Nat :=
  (if 1 < d.dims.1 then [0, 1] else []) ++ (if 1 < d.dims.2.1 then [2, 3] else []) ++ (if 1 < d.dims.2.2 then [4, 5] else [])

/-- Steps 6 and 7: once the ports have trained and the package has locked the Ethernet ports open (14 Table 14.4). -/
def State.joinPod (s : State) : State :=
  if s.dev.step = 5 ∧ s.dev.failed.isNone ∧ s.dev.locked ∧ s.dev.neededPorts.all (fun p => s.dev.ports.contains p) then
    { s with dev := { s.dev with step := 7 } }
  else s

/-- Steps 1 to 5: the image of slot A or B is verified and measured, every line is zeroed, and the dies are trained and tested; the
source of the pod's time then starts to count. Whether the training of step 4 or 5 fails is free; a failure stops the boot there
(14 R409 to R411, R416, R419; DESIGN CHOICE, log 5). -/
def State.boot (s : State) : State :=
  let d := s.dev
  match d.flash.find? fun img => d.acceptsImage img with
  | none => { s with dev := { d with power := true, step := 1, failed := some 2 } }.report 1 [2]
  | some img =>
    let x := s.draw
    let whole := img.take (256 + bytesNat img 8 8)
    let m := extend (extend (extend 0 Config.romRecord) whole) d.board
    let src : Bool := decide (d.rank = 0)
    let dev := { d with power := true, step := 5, failed := none, mboot := m, sv := bytesNat img 4 4, locked := src }
    match Config.freeChoice x.1 % 3 with
    | 1 => { x.2 with dev := { dev with step := 3, failed := some 4, locked := false } }.report 1 [4]
    | 2 => { x.2 with dev := { dev with step := 4, failed := some 5, locked := false }, mem := [], lineKeys := [], poison := [] }.report 1 [5]
    | _ =>
      let s1 : State := { x.2 with dev := dev, mem := [], lineKeys := [], poison := [], gtime := if src then d.epoch.getD 0 else 0 }
      (if d.badCores = [] then s1 else s1.report 4 d.badCores).joinPod

/-- POWER_GOOD (14 R409). -/
def execPowerGood (s : State) : Host.Outcome State Fault Refusal := .next (if s.dev.power then s else s.boot)

/-- Whether a neighbour's geometry and coordinates are right for a port: 0 to 5 are +X, −X, +Y, −Y, +Z, −Z (14 R416). -/
def Device.neighbourOk (d : Device) (port : Nat) (nb : PortExchange) : Bool :=
  let (x, y, z) := d.coords
  let go := fun (n c : Nat) => if port % 2 = 0 then (c + 1) % n else (c + n - 1) % n
  (nb.dx, nb.dy, nb.dz) = d.dims && port < 6 &&
    (nb.x, nb.y, nb.z) = (match port / 2 with
      | 0 => (go d.dims.1 x, y, z)
      | 1 => (x, go d.dims.2.1 y, z)
      | _ => (x, y, go d.dims.2.2 z))

/-- TORUS_TRAINING: the exchange of step 6; a port that fails it stops the boot (14 R416). -/
def execTorusTraining (port : Nat) (nb : PortExchange) (s : State) : Host.Outcome State Fault Refusal :=
  .next (if s.dev.step ≠ 5 ∨ s.dev.failed.isSome then s
    else if s.dev.neighbourOk port nb then { s with dev := { s.dev with ports := port :: s.dev.ports.filter (· ≠ port) } }.joinPod
    else { s with dev := { s.dev with failed := some 6 } }.report 1 [6, port])

/-- EPOCH_WRITE: the pod epoch's start value, which counts before step 5 (14 R416). (DEDUCED, log 32.) -/
def execEpochWrite (v : BitVec 64) (s : State) : Host.Outcome State Fault Refusal :=
  .next (if s.dev.step < 5 then { s with dev := { s.dev with epoch := some v } } else s)

/-- TIME_LOCK: a package that has stayed within 0.5 ns of the source for 10 ms locks, and its gtime begins at lock
(14 R414, R415). -/
def execTimeLock (v : BitVec 64) (s : State) : Host.Outcome State Fault Refusal :=
  .next (if s.dev.locked ∨ s.dev.step < 5 then s else { s with gtime := v, dev := { s.dev with locked := true } }.joinPod)

/-- Whether a context has a thread on the package. -/
def State.hasThread (s : State) (c : Ctx) : Bool := (s.threads ++ s.images).any fun t => t.bind.ctx = c.id && t.life.inSlot

/-- TIME_LOCK_LOSS: the package leaves lock, and every context with a thread on it is killed (14 R415). -/
def execTimeLockLoss (s : State) : Host.Outcome State Fault Refusal :=
  .next (if s.dev.locked then { s with dev := { s.dev with locked := false } }.killWhere s.hasThread else s)

/-- ROLLBACK_FUSE_COMMAND: fuses are blown up to SV, of which there are 64 (14 R410). -/
def execRollbackFuseCommand (s : State) : Host.Outcome State Fault Refusal :=
  .next { s with dev := { s.dev with rollback := max s.dev.rollback (min s.dev.sv 64) } }

/-- ATTESTATION_REQUEST: the report, and the tenant key that seals units from now on (14 R412; 12 R379). -/
def execAttestationRequest (ctx : Nat) (nonce pub : List Nat) (s : State) : Host.Outcome State Fault Refusal :=
  .next (match s.ctxs.find? fun c => c.id = ctx with
    | none => s
    | some c =>
      if !c.conf then s
      else
        let d := s.draw
        let secret := Config.freshSecret d.1
        let key := x25519Base secret
        let them := fixBytes 32 (toBytes pub)
        let head := fixBytes 32 (toBytes nonce) ++ leBytes 64 s.dev.mboot.toNat ++ leBytes 64 c.mc.toNat ++ leBytes 2 c.id
          ++ leBytes 2 Config.fverCap ++ leBytes 2 Config.fverFw ++ leBytes 26 0 ++ key
        let hash := sha512 (x25519 secret them ++ key ++ them ++ leBytes 2 c.id)
        let tenant := (leBytes 64 hash.toNat).take 32
        (d.2.onCtx ctx fun c => { c with tenant := tenant, unit := 0 }).emit
          (.attestation (head ++ ed25519Sign Config.identitySecret head)))

/-- KEY_WITHDRAWAL: the context that holds the key is killed first (14 R413). -/
def execKeyWithdrawal (key : Nat) (s : State) : Host.Outcome State Fault Refusal :=
  .next (if key = 0 then s else (s.killWhere fun c => c.key = key).clearKey key)

/-- POWER_CAP (14 R417). -/
def execPowerCap (watts : Nat) (s : State) : Host.Outcome State Fault Refusal :=
  .next { s with dev := { s.dev with powerCap := watts } }

/-- JUNCTION105: every context is killed (14 R417). -/
def execJunction105 (s : State) : Host.Outcome State Fault Refusal := .next (s.killWhere fun _ => true)

/-- JUNCTION110: power-off is requested over I3C (14 R417). -/
def execJunction110 (s : State) : Host.Outcome State Fault Refusal :=
  .next ({ s with dev := { s.dev with offRequested := true } }.report 3 [])

/-- The contexts with threads on two packages whose route to each other crosses one of some ports (11 R333). -/
def State.partedBy (s : State) (ports : List (Nat × Nat)) : List Nat :=
  (s.ctxs.map (·.id)).filter fun c =>
    let rs := s.ctxRanks c
    rs.any fun a => rs.any fun b => (s.dev.route a b).any fun x => ports.contains x

/-- TORUS_PORT_DOWN: a port of a package, and the port at its other end, are down until reset; the hubs at both ends report theirs, and
the contexts whose threads on two packages they part are killed (11 R333). -/
def execTorusPortDown (p : PodPort) (s : State) : Host.Outcome State Fault Refusal :=
  .next (if 6 ≤ p.port ∨ s.dev.packages ≤ p.rank ∨ s.dev.portsDown.contains (p.rank, p.port) then s
    else
      let ends := [(p.rank, p.port), (s.dev.neighbour p.rank p.port, 2 * (p.port / 2) + 1 - p.port % 2)].eraseDups
      let s1 : State := { s with dev := { s.dev with portsDown := ends ++ s.dev.portsDown } }
      let s2 := (ends.filter fun x => x.1 = s.dev.rank).foldl (fun t x => t.report 2 [x.2]) s1
      (s2.partedBy ends).foldl (fun t c => t.killCtx c) s2)

/-- POWER_DOWN: every piece of state but flash and fuses is lost; what the board and the silicon fix stays (14 R418,
R419). -/
def execPowerDown (s : State) : Host.Outcome State Fault Refusal :=
  .next (let d := s.dev
    { State.reset with
      dev := { Device.reset with
        power := false, step := 0, mboot := 0, locked := false, flash := d.flash, board := d.board, digests := d.digests, revoked := d.revoked,
        rollback := d.rollback, dims := d.dims, coords := d.coords, badCores := d.badCores, defaultPolicy := d.defaultPolicy, fwUp := d.fwUp, credential := d.credential },
      prompt := s.prompt, pace := s.pace, freeCount := s.freeCount, inputs := s.inputs, sched := s.sched, out := s.out })

/-! ### The debug port -/

/-- Whether the debug port serves a command that a confidential context denies (12 R368). (DEDUCED, log 29.) -/
def State.debugOpen (s : State) (ctx : Nat) : Bool := s.ctxs.any fun c => c.id = ctx && !c.conf

/-- Set mstat.DBG in every thread of a context (12 R368). -/
def State.setDbg (ctx : Nat) (b : Bool) (s : State) : State :=
  (s.onThreads fun t => if t.bind.ctx = ctx then { t with fr := { t.fr with m := { t.fr.m with dbg := b } } } else t).onCtx ctx
    fun c => { c with dbg := b }

/-- DEBUG_ATTACH (12 R368). -/
def execDebugAttach (ctx : Nat) (s : State) : Host.Outcome State Fault Refusal :=
  .next (if s.ctxs.any fun c => c.id = ctx then s.setDbg ctx true else s)

/-- DEBUG_DETACH (12 R368). -/
def execDebugDetach (ctx : Nat) (s : State) : Host.Outcome State Fault Refusal :=
  .next (if s.debugOpen ctx then s.setDbg ctx false else s)

/-- The places of a context's threads that satisfy p, or of the one named. -/
def State.debugTargets (s : State) (ctx : Nat) (t : Option Nat) (p : Thread → Bool) : List Nat :=
  (s.threads.filter fun x => x.bind.ctx = ctx ∧ p x ∧ (t.isNone ∨ t = some x.bind.place)).map (·.bind.place)

/-- DEBUG_STOP: each running thread named stops at its boundary (12 R362, R368). -/
def execDebugStop (ctx : Nat) (t : Option Nat) (s : State) : Host.Outcome State Fault Refusal :=
  .next ((s.debugTargets ctx t fun x => x.life = .running).foldl
    (fun u p => u.at p fun v => v.requestStop .debug) s)

/-- DEBUG_READ_IMAGE: bytes of a stopped thread's image at a physical address; bytes whose layout the spec leaves open are free
values (12 R363, R368; DESIGN CHOICE, log 5, log 13). -/
def execDebugReadImage (t pa len : Nat) (s : State) : Host.Outcome State Fault Refusal :=
  .next (s.at t fun u =>
    if u.th.life = .stopped && u.debugOpen u.th.bind.ctx && u.th.bind.image ≤ pa then
      let bs := (List.range len).map fun k =>
        (u.imageByte (pa - u.th.bind.image + k)).getD ((Config.freeWord (u.freeCount + k)).setWidth 8)
      { u with freeCount := u.freeCount + len }.emit (.debug bs)
    else u)

/-- A VIQ entry with another word, none where vqrestore would refuse it (12 R361, R368). -/
def State.editedEntry (s : State) (e : VEntry) (w : BitVec 64) : Option VEntry :=
  match unpackWide w with
  | none => none
  | some (op, f) =>
    let x := { e with op := op.toNat, w := f }
    if e.slot = .word && w.getLsbD 31 && viqWordOk op.toNat f && s.threadOk op.toNat f && decide (x.pipe = .none) = decide (e.pipe = .none)
        && x.prog ≤ s.slotGroups (if x.issued then x else { x with vtype := s.th.ln.vtype }) then some x
    else none

/-- The entries of the VIQ section of the current thread's image: a stepq that waits for its release, then the VIQ (12 R361). -/
def State.imageEntry (s : State) (n : Nat) : Option VEntry := (s.th.fr.stepq.toList ++ s.th.fr.viq)[n]?

/-- Put an entry of the VIQ section back. -/
def State.putImageEntry (n : Nat) (e : VEntry) (s : State) : State :=
  s.onFr fun f =>
    if f.stepq.isSome then (if n = 0 then { f with stepq := some e } else { f with viq := f.viq.set (n - 1) e })
    else { f with viq := f.viq.set n e }

/-- Triangle n of the current thread changed (09 R246). -/
def State.onTri (n : Nat) (f : Triangle → Triangle) (s : State) : State :=
  s.onBr fun b => { b with tri := vecSet b.tri n (f (vecGet b.tri n { u := 0, c := 0, cnt := Vector.replicate 32 0 })) }

/-- A debugger's edit of the current thread, none where a check of vqrestore refuses it (12 R368). -/
def State.editImage (s : State) : ImageEdit → Option State
  | .scalar r v => if 1 ≤ r ∧ r < 64 then some (s.onFr fun f => { f with s := vecSet f.s r v }) else none
  | .spc v => if v.toNat % 4 = 0 then some (s.onFr fun f => { f with spc := v }) else none
  | .vectorByte r k v =>
    if r < 64 ∧ k < 4096 * s.width then
      some (s.onLn fun l => { l with v := vecSet l.v r (setField (vecGet l.v r 0) (8 * k) 8 v.toNat) })
    else none
  | .viqWord n w =>
    match s.imageEntry n with
    | none => none
    | some e => (s.editedEntry e w).map fun x => s.putImageEntry n x
  | .progress n p =>
    match s.imageEntry n with
    | none => none
    | some e =>
      if p ≤ s.slotGroups (if e.issued then e else { e with vtype := s.th.ln.vtype }) then some (s.putImageEntry n { e with prog := p })
      else none
  | .control n v => s.setCr n v
  | .fmt n v => if n < 8 ∧ fmtAccept v then some (s.onLn fun l => { l with fmt := vecSet l.fmt n v }) else none
  | .shape n v => if n < 16 then some (s.onLn fun l => { l with shape := vecSet l.shape n v }) else none
  | .viqSection bs => (s.readImage bs).map fun r => s.placeImage r
  | .maskByte m k v =>
    if m < 8 ∧ k < 1024 * s.width then
      some (s.onLn fun l => { l with m := vecSet l.m m (setField (vecGet l.m m 0) (8 * k) 8 v.toNat) })
    else none
  | .accByte n k v =>
    if n < 2 ∧ k < 65536 ∧ s.th.bind.tg then
      some (s.onTr fun t => { t with acc := vecSet t.acc n (setField (vecGet t.acc n 0) (8 * k) 8 v.toNat) })
    else none
  | .stripByte n k v =>
    if n < s.th.st.entries.length ∧ k < 64 then
      some (s.onSt fun t => { t with entries := t.entries.modify n fun e => { e with data := setField e.data (8 * k) 8 v.toNat } })
    else none
  | .history n v =>
    if n < s.th.fr.hist.length then some (s.onFr fun f => { f with hist := f.hist.modify n fun h => { h with old := v } }) else none
  | .storeByte n k v =>
    if (s.th.fr.storeQ[n]?).any fun e => k < e.bytes.length then
      some (s.onFr fun f => { f with storeQ := f.storeQ.modify n fun e => { e with bytes := e.bytes.set k v } })
    else none
  | .accTag n b => if n < 2 ∧ s.th.bind.tg then some (s.onTr fun t => { t with tagInt := vecSet t.tagInt n b }) else none
  | .counter n v => if n < s.th.cnt.toList.length then some (s.onTh fun t => { t with cnt := vecSet t.cnt n v }) else none
  | .windowCopy l k v =>
    if (s.th.ln.win.copies[l]?).any fun c => k < c.length then
      some (s.onLn fun x => { x with win := { x.win with copies := x.win.copies.modify l fun c => c.set k v } })
    else none
  | .triangle n k v =>
    if n < 4 ∧ k < 1024 ∧ s.th.bind.bg then some (s.onTri n fun t => { t with u := setField t.u (32 * k) 32 v.toNat }) else none
  | .triColumn n k v =>
    if n < 4 ∧ k < 32 ∧ s.th.bind.bg then some (s.onTri n fun t => { t with c := setField t.c (32 * k) 32 v.toNat }) else none
  | .triCount n k v => if n < 4 ∧ k < 32 ∧ s.th.bind.bg then some (s.onTri n fun t => { t with cnt := vecSet t.cnt k v.toNat }) else none
  | .streamByte n k v =>
    if n < 8 ∧ k < (vecGet s.th.fab.fs n .reset).rx.length then
      some (s.onFab fun f => { f with fs := vecSet f.fs n { vecGet f.fs n .reset with rx := (vecGet f.fs n .reset).rx.set k v } })
    else none
  | .lanePc l v =>
    if v.toNat % 4 = 0 ∧ s.th.fr.lanes.any (fun x => l < x.pcs.length) then
      some (s.onFr fun f => { f with lanes := f.lanes.map fun x => { x with pcs := x.pcs.set l v } })
    else none
  | .laneJoined l b =>
    if s.th.fr.lanes.any fun x => l < x.joined.length then
      some (s.onFr fun f => { f with lanes := f.lanes.map fun x => { x with joined := x.joined.set l b } })
    else none
  | .copyPos n p =>
    match (s.copies.filter fun c => c.owner = s.th.bind.place ∧ c.paused)[n]? with
    | some c => if p ≤ c.total then some (s.onCopyCmd c fun x => { x with pos := p }) else none
    | none => none

/-- DEBUG_WRITE_IMAGE: an edit that fails a check has no effect (12 R368). -/
def execDebugWriteImage (t : Nat) (e : ImageEdit) (s : State) : Host.Outcome State Fault Refusal :=
  .next (s.at t fun u =>
    if u.th.life = .stopped && u.debugOpen u.th.bind.ctx then (u.editImage e).getD u else u)

/-- DEBUG_PATCH: the bytes are performed at their home, their lines leave every instruction cache, and then it is acknowledged
(12 R369). -/
def execDebugPatch (ctx : Nat) (va : BitVec 64) (data : List Nat) (s : State) : Host.Outcome State Fault Refusal :=
  .next (if s.debugOpen ctx && (s.ctxBytes ctx va data.length).isSome then
      let places := (List.range data.length).filterMap fun k => s.ctxPhys ctx (va + word k)
      let s1 := s.hostWrite ctx va.toNat (toBytes data)
      (s1.onUnc fun u => { u with icache := u.icache.filter fun c => !(places.any fun a => a / 256 = c.line) }).emit (.debug [])
    else s)

/-- DEBUG_RESUME (12 R368). -/
def execDebugResume (ctx : Nat) (t : Option Nat) (s : State) : Host.Outcome State Fault Refusal :=
  .next ((s.debugTargets ctx t fun x => x.life = .stopped).foldl (fun u p => u.at p State.resume) s)

/-- DEBUG_RESUME_ONE: the thread runs one front word and stops again (12 R368). -/
def execDebugResumeOne (t : Nat) (s : State) : Host.Outcome State Fault Refusal :=
  .next (s.at t fun u =>
    if u.th.life = .stopped && u.debugOpen u.th.bind.ctx then (u.onTh fun x => { x with oneWord := true }).resume else u)

/-! ### Trace rings -/

/-- A dropped record is counted in the LOST of its thread, thread `flat` of a launch, in its slot or its image
(12 R377, R378). (DEDUCED, log 30.) -/
def State.lostRecord (launch flat : Nat) (s : State) : State :=
  let hit := fun (t : Thread) => t.life.inSlot && t.bind.launch = launch && t.bind.flat = flat
  s.onThreads fun t =>
    if hit t then { t with fr := { t.fr with regs := { t.fr.regs with
      lost := if t.fr.regs.lost = 65535 then 65535 else t.fr.regs.lost + 1 } } }
    else t

/-- Bytes of a ring. -/
def Ring.size (r : Ring) : Nat := 2 ^ r.log

/-- Free bytes of a ring, by the CONS word that the host writes (12 R377, R378). -/
def State.ringFree (s : State) (ctx : Nat) (r : Ring) : Nat :=
  let cons := ((s.ctxBytes ctx (r.base + 8) 8).map leNat).getD 0
  r.size - (r.prod - cons)

/-- Write stream bytes at an offset of a ring that they do not run past (12 R377). -/
def State.ringPut (ctx : Nat) (r : Ring) (o : Nat) (bs : List Byte) (s : State) : State :=
  (hostLines o bs.length).foldl (fun (t : State) x => t.ctxWrite ctx (r.base + word (64 + o + x.1)) ((bs.drop x.1).take x.2)) s

/-- Write stream bytes at a ring's PROD, byte n of the stream at offset n mod SIZE, then PROD (12 R377). -/
def State.ringWrite (ctx : Nat) (r : Ring) (bs : List Byte) (s : State) : State × Ring :=
  let o := r.prod % r.size
  let n := r.size - o
  let s1 := (s.ringPut ctx r o (bs.take n)).ringPut ctx r 0 (bs.drop n)
  let r1 := { r with prod := r.prod + bs.length }
  (s1.ctxWrite ctx r.base (leBytes 8 r1.prod), r1)

/-- A header with SEQ set (12 Table 12.15). -/
def withSeq (h : Word) (seq : Nat) : Word := putBits h 32 16 seq

/-- The truncation marker that follows a record's header. -/
def markerOf (h : Word) (seq : Nat) : Word := withSeq (putBits (putBits h 56 6 0x3F) 48 8 1) seq

/-- What of a record goes into a stream with F free words: its words, whether it is truncated, and the records counted
(12 R378). -/
def recordWords (ws : List Word) (free seq : Nat) : List Word × Bool × Nat :=
  let h := ws.headD 0
  if ws.length ≤ free then (withSeq h seq :: ws.drop 1, false, 1)
  else if 2 ≤ free then (withSeq h seq :: (ws.drop 1).take (free - 2) ++ [markerOf h (seq + 1)], true, 2)
  else if free = 1 then ([markerOf h seq], true, 1)
  else ([], true, 0)

/-- Seal the oldest unit of a confidential ring, filled with zero words (12 R379). -/
def State.sealUnit (c : Ctx) (r : Ring) (s : State) : State × Ring :=
  let plain := fixBytes 4064 ((r.pending.take 508).flatMap fun w => leBytes 8 w.toNat)
  let nonce := leBytes 4 0 ++ leBytes 8 c.unit
  let aad := nonce ++ leBytes 4 0
  let sealed := gcmSeal c.tenant nonce aad plain
  let w := s.ringWrite c.id r (fixBytes 4064 sealed.1 ++ aad ++ fixBytes 16 sealed.2)
  (w.1.onCtx c.id fun x => { x with unit := c.unit + 1 }, { w.2 with pending := r.pending.drop 508 })

/-- Seal the full units of a ring while there is room (12 R379). -/
def State.sealFull (c : Ctx) : Nat → State × Ring → State × Ring
  | 0, x => x
  | n + 1, x =>
    if 508 ≤ x.2.pending.length ∧ 4096 ≤ x.1.ringFree c.id x.2 then State.sealFull { c with unit := c.unit + 1 } n (x.1.sealUnit c x.2) else x

/-- Append a record to its context's ring (12 R377 to R379). -/
def State.appendRecord (launch flat : Nat) (c : Ctx) (r : Ring) (ws : List Word) (s : State) : State :=
  let free := s.ringFree c.id r / 8 + (if c.conf then 1016 - r.pending.length else 0)
  if (r.truncated && free < r.size / 128) || (c.conf && c.tenant = []) then s.lostRecord launch flat
  else
    let x := recordWords ws free r.seq
    let r1 := { r with truncated := x.2.1, seq := (r.seq + x.2.2) % 65536 }
    let y := if c.conf then State.sealFull c 2 (s, { r1 with pending := r1.pending ++ x.1 })
      else s.ringWrite c.id r1 (x.1.flatMap fun w => leBytes 8 w.toNat)
    let s1 := y.1.onCtx c.id fun c => { c with ring := some y.2 }
    if x.2.1 then s1.lostRecord launch flat else s1

/-- TRACE_RECORD_APPEND: the oldest record of the hub's queue reaches its context's ring; where the context has no ring it is lost
(12 R377). -/
def execTraceRecordAppend (s : State) : Host.Outcome State Fault Refusal :=
  .next (match s.hub.traceQ with
    | [] => s
    | (ctx, launch, flat, ws) :: q =>
      let s1 : State := { s with hub := { s.hub with traceQ := q } }
      match s.ctxs.find? fun c => c.id = ctx with
      | none => s1
      | some c => match c.ring with | none => s1.lostRecord launch flat | some r => s1.appendRecord launch flat c r ws)

/-- TRACE_UNIT_SEAL: a unit whose first record is 1 ms old is sealed, zero words filling it (12 R379). -/
def execTraceUnitSeal (ctx : Nat) (s : State) : Host.Outcome State Fault Refusal :=
  .next (match s.ctxs.find? fun c => c.id = ctx with
    | none => s
    | some c =>
      match c.ring with
      | none => s
      | some r =>
        if c.conf && decide (c.tenant ≠ []) && decide (r.pending ≠ []) && 4096 ≤ s.ringFree ctx r then
          let y := s.sealUnit c r
          y.1.onCtx ctx fun c => { c with ring := some y.2 }
        else s)

/-! ### Background work -/

/-- What a scrub finds, counted in telemetry: an uncorrectable error, or, which is free, a corrected one (14 R420, R421; DESIGN CHOICE,
log 5). -/
def State.scrubbed (bad : Bool) (s : State) : State :=
  if bad then { s with tele := { s.tele with uncorrected := s.tele.uncorrected + 1 } }
  else let d := s.draw; { d.2 with tele := { s.tele with corrected := s.tele.corrected + Config.freeChoice d.1 % 2 } }

/-- Poison a granule (07 R192). -/
def State.poisonGranule (g : Nat) (s : State) : State := if s.poison.contains g then s else { s with poison := g :: s.poison }

/-- The HBM address of line k of a stack (01 R11). (DEDUCED, log 31.) -/
def patrolLine (die stack k : Nat) : Nat := die * 2 ^ 38 + (k / 16 * 32 + stack * 16 + k % 16) * 256

/-- PATROL_SCRUB: the next line of a stack, at a bank that owes no refresh; an uncorrectable error poisons its granule, which of the
line's eight is free (14 R420, R421; DESIGN CHOICE, log 5). -/
def execPatrolScrub (die stack : Nat) (bad : Bool) (s : State) : Host.Outcome State Fault Refusal :=
  .next (if 4 ≤ die ∨ 2 ≤ stack then s
    else
      let i := 2 * die + stack
      let a := patrolLine die stack (s.dev.patrol.getD i 0)
      let b := bankOf a
      if 0 < (s.bankAt b.1 b.2.1 b.2.2.1).owed then s
      else
        let s1 := State.scrubbed bad { s with dev := { s.dev with patrol := s.dev.patrol.modify i fun k => (k + 1) % 2 ^ 28 } }
        if bad then
          let d := s1.draw
          d.2.poisonGranule (a / 32 + Config.freeChoice d.1 % 8)
        else s1)

/-- The granule of cell memory that granule k of a slice holds: shared store of a context, or the L2 line there (01 R12;
07 R168). -/
def State.sliceGranule (s : State) (die slice k : Nat) : Option Nat :=
  let way := k / 3072
  let set := k / 8 % 384
  if (s.l2Ways die).contains way then
    (s.unc.l2.find? fun x => x.die = die ∧ x.slice = slice ∧ x.set = set ∧ x.way = way).map fun x => 8 * x.line + k % 8
  else some ((2 ^ 44 + (((die * 56 + slice) * 16 + way) * 384 + set) * 256) / 32 + k % 8)

/-- SHARED_STORE_SCRUB: the next granule of a slice (14 R420, R421). -/
def execSharedStoreScrub (die slice : Nat) (bad : Bool) (s : State) : Host.Outcome State Fault Refusal :=
  .next (if 4 ≤ die ∨ 56 ≤ slice then s
    else
      let i := 56 * die + slice
      let k := s.dev.scrub.getD i 0
      let s1 := State.scrubbed bad { s with dev := { s.dev with scrub := s.dev.scrub.modify i fun k => (k + 1) % 49152 } }
      match s.sliceGranule die slice k with
      | some g => if bad then s1.poisonGranule g else s1
      | none => s1)

/-- REGISTER_FILE_SCRUB: an uncorrectable error marks the register's byte (14 R421). -/
def execRegisterFileScrub (t reg byte : Nat) (bad : Bool) (s : State) : Host.Outcome State Fault Refusal :=
  .next (s.at t fun u =>
    if reg < 64 && byte < 4096 * u.width then
      let v := u.scrubbed bad
      if bad && !u.th.ln.bad.contains (reg, byte) then v.onLn fun l => { l with bad := (reg, byte) :: l.bad } else v
    else u)

/-- UCIE_RECALIBRATION: one of the ten links; flits wait, nothing else changes (14 R420). -/
def execUcieRecalibration (link : Nat) (s : State) : Host.Outcome State Fault Refusal :=
  .next (if link < 10 then
      { s with tele := { s.tele with uciePhase := s.tele.uciePhase.filter (· ≠ link) ++ [link] } }
    else s)

/-- TORUS_RECALIBRATION (14 R420). -/
def execTorusRecalibration (port : Nat) (s : State) : Host.Outcome State Fault Refusal :=
  .next (if port < 6 then
      { s with tele := { s.tele with torusPhase := s.tele.torusPhase.filter (· ≠ port) ++ [port] } }
    else s)

/-- AGEING_GUARD_BAND: the supply moves by at most 5 mV, counted in telemetry (14 R420). -/
def execAgeingGuardBand (mv : Nat) (s : State) : Host.Outcome State Fault Refusal :=
  .next (if mv ≤ 5 then { s with tele := { s.tele with ageing := s.tele.ageing + 1 } } else s)

/-- TELEMETRY: temperatures of the five dies and the power, which are free, the counters of stacks and dies and the error counts go out over
I3C (14 R420; DESIGN CHOICE, log 5, log 8). -/
def execTelemetry (s : State) : Host.Outcome State Fault Refusal :=
  .next ({ s with freeCount := s.freeCount + 6, tele := { s.tele with sent := s.tele.sent + 1 } }.report 0
    ((List.range 6).map (fun k => Config.freeChoice (s.freeCount + k)) ++ s.unc.forced.toList.map BitVec.toNat
      ++ s.unc.merges.toList.map BitVec.toNat ++ [s.hub.doorErrors, s.tele.ageing, s.tele.corrected, s.tele.uncorrected]))

end Sys2Proof.Machine
end

