-- ==== Sys2Proof/Machine/Dispatch.lean ====
section
/-! DEFINITION. What each instruction and each event does: one direct call of its meaning per constructor. -/

namespace Sys2Proof.Machine

/-- The meaning of an instruction or event (every row of spec/opcode_table.json). -/
def exec (i : Instr) (s : State) : Host.Outcome State Fault Refusal :=
  match i with
  | .add d a b => Sys2Proof.Machine.execAdd d a b s
  | .sub d a b => Sys2Proof.Machine.execSub d a b s
  | .and d a b => Sys2Proof.Machine.execAnd d a b s
  | .or d a b => Sys2Proof.Machine.execOr d a b s
  | .xor d a b => Sys2Proof.Machine.execXor d a b s
  | .andn d a b => Sys2Proof.Machine.execAndn d a b s
  | .sll d a b => Sys2Proof.Machine.execSll d a b s
  | .srl d a b => Sys2Proof.Machine.execSrl d a b s
  | .sra d a b => Sys2Proof.Machine.execSra d a b s
  | .ror d a b => Sys2Proof.Machine.execRor d a b s
  | .slt d a b => Sys2Proof.Machine.execSlt d a b s
  | .sltn d a b => Sys2Proof.Machine.execSltn d a b s
  | .min d a b => Sys2Proof.Machine.execMin d a b s
  | .max d a b => Sys2Proof.Machine.execMax d a b s
  | .minn d a b => Sys2Proof.Machine.execMinn d a b s
  | .maxn d a b => Sys2Proof.Machine.execMaxn d a b s
  | .clz d a => Sys2Proof.Machine.execClz d a s
  | .ctz d a => Sys2Proof.Machine.execCtz d a s
  | .cpop d a => Sys2Proof.Machine.execCpop d a s
  | .mul d a b => Sys2Proof.Machine.execMul d a b s
  | .mulh d a b => Sys2Proof.Machine.execMulh d a b s
  | .mulhn d a b => Sys2Proof.Machine.execMulhn d a b s
  | .div d a b => Sys2Proof.Machine.execDiv d a b s
  | .divn d a b => Sys2Proof.Machine.execDivn d a b s
  | .rem d a b => Sys2Proof.Machine.execRem d a b s
  | .remn d a b => Sys2Proof.Machine.execRemn d a b s
  | .addi d a k => Sys2Proof.Machine.execAddi d a k s
  | .andi d a k => Sys2Proof.Machine.execAndi d a k s
  | .ori d a k => Sys2Proof.Machine.execOri d a k s
  | .xori d a k => Sys2Proof.Machine.execXori d a k s
  | .slli d a h => Sys2Proof.Machine.execSlli d a h s
  | .srli d a h => Sys2Proof.Machine.execSrli d a h s
  | .srai d a h => Sys2Proof.Machine.execSrai d a h s
  | .slti d a k => Sys2Proof.Machine.execSlti d a k s
  | .sltin d a k => Sys2Proof.Machine.execSltin d a k s
  | .lui d k => Sys2Proof.Machine.execLui d k s
  | .addpc d k => Sys2Proof.Machine.execAddpc d k s
  | .ldI8 d a k => Sys2Proof.Machine.execLdI8 d a k s
  | .ldI16 d a k => Sys2Proof.Machine.execLdI16 d a k s
  | .ldI32 d a k => Sys2Proof.Machine.execLdI32 d a k s
  | .ldI64 d a k => Sys2Proof.Machine.execLdI64 d a k s
  | .ldN8 d a k => Sys2Proof.Machine.execLdN8 d a k s
  | .ldN16 d a k => Sys2Proof.Machine.execLdN16 d a k s
  | .ldN32 d a k => Sys2Proof.Machine.execLdN32 d a k s
  | .stI8 a b k => Sys2Proof.Machine.execStI8 a b k s
  | .stI16 a b k => Sys2Proof.Machine.execStI16 a b k s
  | .stI32 a b k => Sys2Proof.Machine.execStI32 a b k s
  | .stI64 a b k => Sys2Proof.Machine.execStI64 a b k s
  | .mfc d n => Sys2Proof.Machine.execMfc d n s
  | .mtc a n => Sys2Proof.Machine.execMtc a n s
  | .faddD d a b m => Sys2Proof.Machine.execFaddD d a b m s
  | .fsubD d a b m => Sys2Proof.Machine.execFsubD d a b m s
  | .fmulD d a b m => Sys2Proof.Machine.execFmulD d a b m s
  | .fdivD d a b m => Sys2Proof.Machine.execFdivD d a b m s
  | .fsqrtD d a m => Sys2Proof.Machine.execFsqrtD d a m s
  | .fminD d a b => Sys2Proof.Machine.execFminD d a b s
  | .fmaxD d a b => Sys2Proof.Machine.execFmaxD d a b s
  | .fsignCD d a b => Sys2Proof.Machine.execFsignCD d a b s
  | .fsignND d a b => Sys2Proof.Machine.execFsignND d a b s
  | .fsignXD d a b => Sys2Proof.Machine.execFsignXD d a b s
  | .faddS d a b m => Sys2Proof.Machine.execFaddS d a b m s
  | .fsubS d a b m => Sys2Proof.Machine.execFsubS d a b m s
  | .fmulS d a b m => Sys2Proof.Machine.execFmulS d a b m s
  | .fdivS d a b m => Sys2Proof.Machine.execFdivS d a b m s
  | .fsqrtS d a m => Sys2Proof.Machine.execFsqrtS d a m s
  | .fminS d a b => Sys2Proof.Machine.execFminS d a b s
  | .fmaxS d a b => Sys2Proof.Machine.execFmaxS d a b s
  | .fsignCS d a b => Sys2Proof.Machine.execFsignCS d a b s
  | .fsignNS d a b => Sys2Proof.Machine.execFsignNS d a b s
  | .fsignXS d a b => Sys2Proof.Machine.execFsignXS d a b s
  | .fmaddD d a b m => Sys2Proof.Machine.execFmaddD d a b m s
  | .fmsubD d a b m => Sys2Proof.Machine.execFmsubD d a b m s
  | .fnmaddD d a b m => Sys2Proof.Machine.execFnmaddD d a b m s
  | .fnmsubD d a b m => Sys2Proof.Machine.execFnmsubD d a b m s
  | .fmaddS d a b m => Sys2Proof.Machine.execFmaddS d a b m s
  | .fmsubS d a b m => Sys2Proof.Machine.execFmsubS d a b m s
  | .fnmaddS d a b m => Sys2Proof.Machine.execFnmaddS d a b m s
  | .fnmsubS d a b m => Sys2Proof.Machine.execFnmsubS d a b m s
  | .cvtDS d a => Sys2Proof.Machine.execCvtDS d a s
  | .cvtSD d a m => Sys2Proof.Machine.execCvtSD d a m s
  | .cvtDI64 d a m => Sys2Proof.Machine.execCvtDI64 d a m s
  | .cvtDN64 d a m => Sys2Proof.Machine.execCvtDN64 d a m s
  | .cvtSI64 d a m => Sys2Proof.Machine.execCvtSI64 d a m s
  | .cvtSN64 d a m => Sys2Proof.Machine.execCvtSN64 d a m s
  | .cvtI64D d a m => Sys2Proof.Machine.execCvtI64D d a m s
  | .cvtN64D d a m => Sys2Proof.Machine.execCvtN64D d a m s
  | .cvtI64S d a m => Sys2Proof.Machine.execCvtI64S d a m s
  | .cvtN64S d a m => Sys2Proof.Machine.execCvtN64S d a m s
  | .fcmpEqD d a b => Sys2Proof.Machine.execFcmpEqD d a b s
  | .fcmpLtD d a b => Sys2Proof.Machine.execFcmpLtD d a b s
  | .fcmpLeD d a b => Sys2Proof.Machine.execFcmpLeD d a b s
  | .fkindD d a => Sys2Proof.Machine.execFkindD d a s
  | .fcmpEqS d a b => Sys2Proof.Machine.execFcmpEqS d a b s
  | .fcmpLtS d a b => Sys2Proof.Machine.execFcmpLtS d a b s
  | .fcmpLeS d a b => Sys2Proof.Machine.execFcmpLeS d a b s
  | .fkindS d a => Sys2Proof.Machine.execFkindS d a s
  | .b k => Sys2Proof.Machine.execB k s
  | .call k => Sys2Proof.Machine.execCall k s
  | .bcEq a b k => Sys2Proof.Machine.execBcEq a b k s
  | .bcNe a b k => Sys2Proof.Machine.execBcNe a b k s
  | .bcLt a b k => Sys2Proof.Machine.execBcLt a b k s
  | .bcGe a b k => Sys2Proof.Machine.execBcGe a b k s
  | .bcLtn a b k => Sys2Proof.Machine.execBcLtn a b k s
  | .bcGen a b k => Sys2Proof.Machine.execBcGen a b k s
  | .nop => Sys2Proof.Machine.execNop s
  | .calli a => Sys2Proof.Machine.execCalli a s
  | .jmpi a => Sys2Proof.Machine.execJmpi a s
  | .ret a => Sys2Proof.Machine.execRet a s
  | .lpadC => Sys2Proof.Machine.execLpadC s
  | .lpadJ => Sys2Proof.Machine.execLpadJ s
  | .lpadR => Sys2Proof.Machine.execLpadR s
  | .lbrk n => Sys2Proof.Machine.execLbrk n s
  | .endThread => Sys2Proof.Machine.execEndThread s
  | .waitT d a => Sys2Proof.Machine.execWaitT d a s
  | .dline a => Sys2Proof.Machine.execDline a s
  | .lsplit a b => Sys2Proof.Machine.execLsplit a b s
  | .ljoin => Sys2Proof.Machine.execLjoin s
  | .loop n a k => Sys2Proof.Machine.execLoop n a k s
  | .smb a k => Sys2Proof.Machine.execSmb a k s
  | .smbcfg d z j => Sys2Proof.Machine.execSmbcfg d z j s
  | .trap a => Sys2Proof.Machine.execTrap a s
  | .eret => Sys2Proof.Machine.execEret s
  | .bkpt => Sys2Proof.Machine.execBkpt s
  | .ifence => Sys2Proof.Machine.execIfence s
  | .tlbinv a => Sys2Proof.Machine.execTlbinv a s
  | .halt a => Sys2Proof.Machine.execHalt a s
  | .vqsave a => Sys2Proof.Machine.execVqsave a s
  | .vqrestore a => Sys2Proof.Machine.execVqrestore a s
  | .smplCnt d a => Sys2Proof.Machine.execSmplCnt d a s
  | .smplMark => Sys2Proof.Machine.execSmplMark s
  | .trc a => Sys2Proof.Machine.execTrc a s
  | .tlbinvAll => Sys2Proof.Machine.execTlbinvAll s
  | .mfcM d n => Sys2Proof.Machine.execMfcM d n s
  | .mtcM a n => Sys2Proof.Machine.execMtcM a n s
  | .vadd w => Sys2Proof.Machine.execVadd w s
  | .vsub w => Sys2Proof.Machine.execVsub w s
  | .vrsub w => Sys2Proof.Machine.execVrsub w s
  | .vmul w => Sys2Proof.Machine.execVmul w s
  | .vmulh w => Sys2Proof.Machine.execVmulh w s
  | .vmacc w => Sys2Proof.Machine.execVmacc w s
  | .vsadd w => Sys2Proof.Machine.execVsadd w s
  | .vssub w => Sys2Proof.Machine.execVssub w s
  | .vsmul w => Sys2Proof.Machine.execVsmul w s
  | .vsll w => Sys2Proof.Machine.execVsll w s
  | .vsrl w => Sys2Proof.Machine.execVsrl w s
  | .vsra w => Sys2Proof.Machine.execVsra w s
  | .vror w => Sys2Proof.Machine.execVror w s
  | .vand w => Sys2Proof.Machine.execVand w s
  | .vor w => Sys2Proof.Machine.execVor w s
  | .vxor w => Sys2Proof.Machine.execVxor w s
  | .vandn w => Sys2Proof.Machine.execVandn w s
  | .vmin w => Sys2Proof.Machine.execVmin w s
  | .vmax w => Sys2Proof.Machine.execVmax w s
  | .vabs w => Sys2Proof.Machine.execVabs w s
  | .vcmpEq w => Sys2Proof.Machine.execVcmpEq w s
  | .vcmpNe w => Sys2Proof.Machine.execVcmpNe w s
  | .vcmpLt w => Sys2Proof.Machine.execVcmpLt w s
  | .vcmpLe w => Sys2Proof.Machine.execVcmpLe w s
  | .vcmpGt w => Sys2Proof.Machine.execVcmpGt w s
  | .vcmpGe w => Sys2Proof.Machine.execVcmpGe w s
  | .mand w => Sys2Proof.Machine.execMand w s
  | .mor w => Sys2Proof.Machine.execMor w s
  | .mxor w => Sys2Proof.Machine.execMxor w s
  | .mandn w => Sys2Proof.Machine.execMandn w s
  | .mnot w => Sys2Proof.Machine.execMnot w s
  | .mpop w => Sys2Proof.Machine.execMpop w s
  | .mfirst w => Sys2Proof.Machine.execMfirst w s
  | .vsel w => Sys2Proof.Machine.execVsel w s
  | .vbcast w => Sys2Proof.Machine.execVbcast w s
  | .vmv w => Sys2Proof.Machine.execVmv w s
  | .vmvsV w => Sys2Proof.Machine.execVmvsV w s
  | .vmvsX w => Sys2Proof.Machine.execVmvsX w s
  | .vfadd w => Sys2Proof.Machine.execVfadd w s
  | .vfsub w => Sys2Proof.Machine.execVfsub w s
  | .vfmul w => Sys2Proof.Machine.execVfmul w s
  | .vfmadd w => Sys2Proof.Machine.execVfmadd w s
  | .vfmsub w => Sys2Proof.Machine.execVfmsub w s
  | .vfnmadd w => Sys2Proof.Machine.execVfnmadd w s
  | .vfnmsub w => Sys2Proof.Machine.execVfnmsub w s
  | .vfmacc w => Sys2Proof.Machine.execVfmacc w s
  | .vfmin w => Sys2Proof.Machine.execVfmin w s
  | .vfmax w => Sys2Proof.Machine.execVfmax w s
  | .vfabs w => Sys2Proof.Machine.execVfabs w s
  | .vfneg w => Sys2Proof.Machine.execVfneg w s
  | .vfsignC w => Sys2Proof.Machine.execVfsignC w s
  | .vfsignN w => Sys2Proof.Machine.execVfsignN w s
  | .vfsignX w => Sys2Proof.Machine.execVfsignX w s
  | .vfcmpEq w => Sys2Proof.Machine.execVfcmpEq w s
  | .vfcmpNe w => Sys2Proof.Machine.execVfcmpNe w s
  | .vfcmpLt w => Sys2Proof.Machine.execVfcmpLt w s
  | .vfcmpLe w => Sys2Proof.Machine.execVfcmpLe w s
  | .vfcmpGt w => Sys2Proof.Machine.execVfcmpGt w s
  | .vfcmpGe w => Sys2Proof.Machine.execVfcmpGe w s
  | .vfcmpUn w => Sys2Proof.Machine.execVfcmpUn w s
  | .vredoAdd w => Sys2Proof.Machine.execVredoAdd w s
  | .vredoMin w => Sys2Proof.Machine.execVredoMin w s
  | .vredoMax w => Sys2Proof.Machine.execVredoMax w s
  | .vredtAdd w => Sys2Proof.Machine.execVredtAdd w s
  | .vredtMin w => Sys2Proof.Machine.execVredtMin w s
  | .vredtMax w => Sys2Proof.Machine.execVredtMax w s
  | .vredtAnd w => Sys2Proof.Machine.execVredtAnd w s
  | .vredtOr w => Sys2Proof.Machine.execVredtOr w s
  | .vredtXor w => Sys2Proof.Machine.execVredtXor w s
  | .vscanInAdd w => Sys2Proof.Machine.execVscanInAdd w s
  | .vscanInMin w => Sys2Proof.Machine.execVscanInMin w s
  | .vscanInMax w => Sys2Proof.Machine.execVscanInMax w s
  | .vscanExAdd w => Sys2Proof.Machine.execVscanExAdd w s
  | .vscanExMin w => Sys2Proof.Machine.execVscanExMin w s
  | .vscanExMax w => Sys2Proof.Machine.execVscanExMax w s
  | .vslipUp w => Sys2Proof.Machine.execVslipUp w s
  | .vslipDn w => Sys2Proof.Machine.execVslipDn w s
  | .vslipUpin w => Sys2Proof.Machine.execVslipUpin w s
  | .vslipDnin w => Sys2Proof.Machine.execVslipDnin w s
  | .vpick w => Sys2Proof.Machine.execVpick w s
  | .vcompress w => Sys2Proof.Machine.execVcompress w s
  | .vexpand w => Sys2Proof.Machine.execVexpand w s
  | .vcvt w => Sys2Proof.Machine.execVcvt w s
  | .vcvtEf w => Sys2Proof.Machine.execVcvtEf w s
  | .vpack w => Sys2Proof.Machine.execVpack w s
  | .vunpack w => Sys2Proof.Machine.execVunpack w s
  | .vscaleMul w => Sys2Proof.Machine.execVscaleMul w s
  | .vscaleDiv w => Sys2Proof.Machine.execVscaleDiv w s
  | .vfclass w => Sys2Proof.Machine.execVfclass w s
  | .vdiv w => Sys2Proof.Machine.execVdiv w s
  | .vrdiv w => Sys2Proof.Machine.execVrdiv w s
  | .vsqrt w => Sys2Proof.Machine.execVsqrt w s
  | .vrsq w => Sys2Proof.Machine.execVrsq w s
  | .vld w => Sys2Proof.Machine.execVld w s
  | .vldC w => Sys2Proof.Machine.execVldC w s
  | .vldQ w => Sys2Proof.Machine.execVldQ w s
  | .vlds w => Sys2Proof.Machine.execVlds w s
  | .vldx w => Sys2Proof.Machine.execVldx w s
  | .vldg w => Sys2Proof.Machine.execVldg w s
  | .vst w => Sys2Proof.Machine.execVst w s
  | .vstC w => Sys2Proof.Machine.execVstC w s
  | .vstQ w => Sys2Proof.Machine.execVstQ w s
  | .vsts w => Sys2Proof.Machine.execVsts w s
  | .vstx w => Sys2Proof.Machine.execVstx w s
  | .vstxo w => Sys2Proof.Machine.execVstxo w s
  | .vstg w => Sys2Proof.Machine.execVstg w s
  | .vpref w => Sys2Proof.Machine.execVpref w s
  | .scommit w => Sys2Proof.Machine.execScommit w s
  | .cutstep w => Sys2Proof.Machine.execCutstep w s
  | .mzero w => Sys2Proof.Machine.execMzero w s
  | .mouter w => Sys2Proof.Machine.execMouter w s
  | .mouteri w => Sys2Proof.Machine.execMouteri w s
  | .mouterc w => Sys2Proof.Machine.execMouterc w s
  | .mlacc w => Sys2Proof.Machine.execMlacc w s
  | .mdrain w => Sys2Proof.Machine.execMdrain w s
  | .mtov w => Sys2Proof.Machine.execMtov w s
  | .mscale w => Sys2Proof.Machine.execMscale w s
  | .bclr w => Sys2Proof.Machine.execBclr w s
  | .btload w => Sys2Proof.Machine.execBtload w s
  | .btdrain w => Sys2Proof.Machine.execBtdrain w s
  | .bqr w => Sys2Proof.Machine.execBqr w s
  | .bqra w => Sys2Proof.Machine.execBqra w s
  | .bqrD w => Sys2Proof.Machine.execBqrD w s
  | .bapply w => Sys2Proof.Machine.execBapply w s
  | .bapplyC0 w => Sys2Proof.Machine.execBapplyC0 w s
  | .bvec w => Sys2Proof.Machine.execBvec w s
  | .bangleD w => Sys2Proof.Machine.execBangleD w s
  | .bangleA w => Sys2Proof.Machine.execBangleA w s
  | .brot w => Sys2Proof.Machine.execBrot w s
  | .vrotate w => Sys2Proof.Machine.execVrotate w s
  | .bgain w => Sys2Proof.Machine.execBgain w s
  | .bsolve w => Sys2Proof.Machine.execBsolve w s
  | .amoSwap w => Sys2Proof.Machine.execAmoSwap w s
  | .amoAdd w => Sys2Proof.Machine.execAmoAdd w s
  | .amoAnd w => Sys2Proof.Machine.execAmoAnd w s
  | .amoOr w => Sys2Proof.Machine.execAmoOr w s
  | .amoXor w => Sys2Proof.Machine.execAmoXor w s
  | .amoMin w => Sys2Proof.Machine.execAmoMin w s
  | .amoMax w => Sys2Proof.Machine.execAmoMax w s
  | .amocas w => Sys2Proof.Machine.execAmocas w s
  | .vamo w => Sys2Proof.Machine.execVamo w s
  | .vamoo w => Sys2Proof.Machine.execVamoo w s
  | .accw w => Sys2Proof.Machine.execAccw w s
  | .vacc w => Sys2Proof.Machine.execVacc w s
  | .amerge w => Sys2Proof.Machine.execAmerge w s
  | .accrel w => Sys2Proof.Machine.execAccrel w s
  | .syncRd w => Sys2Proof.Machine.execSyncRd w s
  | .syncWr w => Sys2Proof.Machine.execSyncWr w s
  | .syncTas w => Sys2Proof.Machine.execSyncTas w s
  | .syncFadd w => Sys2Proof.Machine.execSyncFadd w s
  | .hudInit w => Sys2Proof.Machine.execHudInit w s
  | .hudArr w => Sys2Proof.Machine.execHudArr w s
  | .hudDrop w => Sys2Proof.Machine.execHudDrop w s
  | .hudWait w => Sys2Proof.Machine.execHudWait w s
  | .post w => Sys2Proof.Machine.execPost w s
  | .postSet w => Sys2Proof.Machine.execPostSet w s
  | .waiti w => Sys2Proof.Machine.execWaiti w s
  | .fence w => Sys2Proof.Machine.execFence w s
  | .awInit w => Sys2Proof.Machine.execAwInit w s
  | .awAdd w => Sys2Proof.Machine.execAwAdd w s
  | .awWait w => Sys2Proof.Machine.execAwWait w s
  | .cp w => Sys2Proof.Machine.execCp w s
  | .cp2 w => Sys2Proof.Machine.execCp2 w s
  | .cpx w => Sys2Proof.Machine.execCpx w s
  | .cpq w => Sys2Proof.Machine.execCpq w s
  | .cpw w => Sys2Proof.Machine.execCpw w s
  | .wdecl w => Sys2Proof.Machine.execWdecl w s
  | .wdeclRel w => Sys2Proof.Machine.execWdeclRel w s
  | .vldr w => Sys2Proof.Machine.execVldr w s
  | .vstr w => Sys2Proof.Machine.execVstr w s
  | .step w => Sys2Proof.Machine.execStep w s
  | .stepAt w => Sys2Proof.Machine.execStepAt w s
  | .stepq w => Sys2Proof.Machine.execStepq w s
  | .fsbindRx w => Sys2Proof.Machine.execFsbindRx w s
  | .fsbindTx w => Sys2Proof.Machine.execFsbindTx w s
  | .fsbindU w => Sys2Proof.Machine.execFsbindU w s
  | .vcred w => Sys2Proof.Machine.execVcred w s
  | .setvl w => Sys2Proof.Machine.execSetvl w s
  | .setvt w => Sys2Proof.Machine.execSetvt w s
  | .setfmt w => Sys2Proof.Machine.execSetfmt w s
  | .mshape w => Sys2Proof.Machine.execMshape w s
  | .tshape w => Sys2Proof.Machine.execTshape w s
  | .mmode w => Sys2Proof.Machine.execMmode w s
  | .convoyIssue t g => Sys2Proof.Machine.execConvoyIssue t g s
  | .convoyRetire t => Sys2Proof.Machine.execConvoyRetire t s
  | .historyEntryRetire t => Sys2Proof.Machine.execHistoryEntryRetire t s
  | .storeQueueLeave t => Sys2Proof.Machine.execStoreQueueLeave t s
  | .mtcLaneEntry t => Sys2Proof.Machine.execMtcLaneEntry t s
  | .commitEntry t => Sys2Proof.Machine.execCommitEntry t s
  | .stripEntryDrain t k => Sys2Proof.Machine.execStripEntryDrain t k s
  | .storeAcknowledgement t k => Sys2Proof.Machine.execStoreAcknowledgement t k s
  | .laneIssue t cl => Sys2Proof.Machine.execLaneIssue t cl s
  | .tlbWalk t cl va acc => Sys2Proof.Machine.execTlbWalk t cl va acc s
  | .l2Fill pa => Sys2Proof.Machine.execL2Fill pa s
  | .refreshDue die stack bank idle => Sys2Proof.Machine.execRefreshDue die stack bank idle s
  | .owedRefresh die stack bank => Sys2Proof.Machine.execOwedRefresh die stack bank s
  | .sliceAluRequest r => Sys2Proof.Machine.execSliceAluRequest r s
  | .vamoPerform t g => Sys2Proof.Machine.execVamoPerform t g s
  | .amergePerform t g => Sys2Proof.Machine.execAmergePerform t g s
  | .syncMirrorUpdate die home => Sys2Proof.Machine.execSyncMirrorUpdate die home s
  | .postRingArrival die src core => Sys2Proof.Machine.execPostRingArrival die src core s
  | .waitTReturn t => Sys2Proof.Machine.execWaitTReturn t s
  | .hudWaitReturn t => Sys2Proof.Machine.execHudWaitReturn t s
  | .waitiReturn t => Sys2Proof.Machine.execWaitiReturn t s
  | .awWaitReturn t => Sys2Proof.Machine.execAwWaitReturn t s
  | .cpwReturn t => Sys2Proof.Machine.execCpwReturn t s
  | .copyChunkDelivery core slot => Sys2Proof.Machine.execCopyChunkDelivery core slot s
  | .cpqDelivery core slot => Sys2Proof.Machine.execCpqDelivery core slot s
  | .copyAbandon core slot => Sys2Proof.Machine.execCopyAbandon core slot s
  | .copyPageMapped core slot => Sys2Proof.Machine.execCopyPageMapped core slot s
  | .deadline t => Sys2Proof.Machine.execDeadline t s
  | .trapDelivery t c idx => Sys2Proof.Machine.execTrapDelivery t c idx s
  | .suspendToEloaler t c idx => Sys2Proof.Machine.execSuspendToEloaler t c idx s
  | .eloalerResume t => Sys2Proof.Machine.execEloalerResume t s
  | .fatalEnd t => Sys2Proof.Machine.execFatalEnd t s
  | .preemption t => Sys2Proof.Machine.execPreemption t s
  | .gangSwitch outgoing incoming => Sys2Proof.Machine.execGangSwitch outgoing incoming s
  | .switchResume t => Sys2Proof.Machine.execSwitchResume t s
  | .stepArrival t => Sys2Proof.Machine.execStepArrival t s
  | .whistleArrivalCounted ctx who => Sys2Proof.Machine.execWhistleArrivalCounted ctx who s
  | .startNotice ctx timeout => Sys2Proof.Machine.execStartNotice ctx timeout s
  | .whistleGo ctx m => Sys2Proof.Machine.execWhistleGo ctx m s
  | .whistleApply ctx => Sys2Proof.Machine.execWhistleApply ctx s
  | .whistleRelease ctx => Sys2Proof.Machine.execWhistleRelease ctx s
  | .finalWhistle ctx => Sys2Proof.Machine.execFinalWhistle ctx s
  | .skew ctx => Sys2Proof.Machine.execSkew ctx s
  | .deferredWrite f => Sys2Proof.Machine.execDeferredWrite f s
  | .writeAcknowledgement t k a => Sys2Proof.Machine.execWriteAcknowledgement t k a s
  | .readRequest f => Sys2Proof.Machine.execReadRequest f s
  | .readData t k data => Sys2Proof.Machine.execReadData t k data s
  | .translationRequest f => Sys2Proof.Machine.execTranslationRequest f s
  | .translationResponse die e => Sys2Proof.Machine.execTranslationResponse die e s
  | .invalidation ctx rank handle => Sys2Proof.Machine.execInvalidation ctx rank handle s
  | .invalidationAcknowledgement ctx a => Sys2Proof.Machine.execInvalidationAcknowledgement ctx a s
  | .reservationRequest ctx h bytes => Sys2Proof.Machine.execReservationRequest ctx h bytes s
  | .reservationGrant ctx h => Sys2Proof.Machine.execReservationGrant ctx h s
  | .streamChunkTransmit die => Sys2Proof.Machine.execStreamChunkTransmit die s
  | .streamData ctx h data => Sys2Proof.Machine.execStreamData ctx h data s
  | .abort ctx comm => Sys2Proof.Machine.execAbort ctx comm s
  | .torusPortDown p => Sys2Proof.Machine.execTorusPortDown p s
  | .timeLock v => Sys2Proof.Machine.execTimeLock v s
  | .timeLockLoss => Sys2Proof.Machine.execTimeLockLoss s
  | .powerGood => Sys2Proof.Machine.execPowerGood s
  | .torusTraining port nb => Sys2Proof.Machine.execTorusTraining port nb s
  | .epochWrite v => Sys2Proof.Machine.execEpochWrite v s
  | .rollbackFuseCommand => Sys2Proof.Machine.execRollbackFuseCommand s
  | .attestationRequest ctx nonce pub => Sys2Proof.Machine.execAttestationRequest ctx nonce pub s
  | .keyWithdrawal key => Sys2Proof.Machine.execKeyWithdrawal key s
  | .powerCap watts => Sys2Proof.Machine.execPowerCap watts s
  | .junction105 => Sys2Proof.Machine.execJunction105 s
  | .junction110 => Sys2Proof.Machine.execJunction110 s
  | .rdmaConnect port qp credential => Sys2Proof.Machine.execRdmaConnect port qp credential s
  | .rdmaWrite p qp rkey addr data => Sys2Proof.Machine.execRdmaWrite p qp rkey addr data s
  | .rdmaRead p qp rkey addr len => Sys2Proof.Machine.execRdmaRead p qp rkey addr len s
  | .doorbellWrite v => Sys2Proof.Machine.execDoorbellWrite v s
  | .entryTake => Sys2Proof.Machine.execEntryTake s
  | .launch => Sys2Proof.Machine.execLaunch s
  | .create => Sys2Proof.Machine.execCreate s
  | .load dest => Sys2Proof.Machine.execLoad dest s
  | .unload => Sys2Proof.Machine.execUnload s
  | .unloadComplete ctx handle => Sys2Proof.Machine.execUnloadComplete ctx handle s
  | .kill => Sys2Proof.Machine.execKill s
  | .launchAgeLimit n => Sys2Proof.Machine.execLaunchAgeLimit n s
  | .queuedLaunchDeadline n => Sys2Proof.Machine.execQueuedLaunchDeadline n s
  | .gangBind n p => Sys2Proof.Machine.execGangBind n p s
  | .bindRecordValid die entry => Sys2Proof.Machine.execBindRecordValid die entry s
  | .threadStart die entry => Sys2Proof.Machine.execThreadStart die entry s
  | .launchComplete n => Sys2Proof.Machine.execLaunchComplete n s
  | .debugAttach ctx => Sys2Proof.Machine.execDebugAttach ctx s
  | .debugDetach ctx => Sys2Proof.Machine.execDebugDetach ctx s
  | .debugStop ctx t => Sys2Proof.Machine.execDebugStop ctx t s
  | .debugReadImage t pa len => Sys2Proof.Machine.execDebugReadImage t pa len s
  | .debugWriteImage t e => Sys2Proof.Machine.execDebugWriteImage t e s
  | .debugPatch ctx va data => Sys2Proof.Machine.execDebugPatch ctx va data s
  | .debugResume ctx t => Sys2Proof.Machine.execDebugResume ctx t s
  | .debugResumeOne t => Sys2Proof.Machine.execDebugResumeOne t s
  | .traceRecordAppend => Sys2Proof.Machine.execTraceRecordAppend s
  | .traceUnitSeal ctx => Sys2Proof.Machine.execTraceUnitSeal ctx s
  | .patrolScrub die stack bad => Sys2Proof.Machine.execPatrolScrub die stack bad s
  | .sharedStoreScrub die slice bad => Sys2Proof.Machine.execSharedStoreScrub die slice bad s
  | .registerFileScrub t reg byte bad => Sys2Proof.Machine.execRegisterFileScrub t reg byte bad s
  | .ucieRecalibration link => Sys2Proof.Machine.execUcieRecalibration link s
  | .torusRecalibration port => Sys2Proof.Machine.execTorusRecalibration port s
  | .ageingGuardBand mv => Sys2Proof.Machine.execAgeingGuardBand mv s
  | .telemetry => Sys2Proof.Machine.execTelemetry s
  | .powerDown => Sys2Proof.Machine.execPowerDown s
  | .loadResponse t pa => Sys2Proof.Machine.execLoadResponse t pa s

end Sys2Proof.Machine
end

