-- ==== Sys2Proof/Machine/Run.lean ====
section
/-! DEFINITION. What a step is made of: running a decoded word, what a prompt model does in the background, the front's next
word, and which thread goes on (spec/02 R29, R36, R43 to R45; 03 R55; 04 R88, R100, R102; 12 R367). -/

namespace Sys2Proof.Machine

/-! ### Running a word -/

/-- A word that fails decode (02 R43). -/
def illegalWord (s : State) : Host.Outcome State Fault Refusal := .next (s.frontFault .illegal)

/-- Run a 64-bit word of an encoding level (02 R43, R49). -/
noncomputable def runWord (level : Nat) (w : BitVec 64) (s : State) : Host.Outcome State Fault Refusal :=
  match decode64 level w with
  | .ok i => exec i s
  | .error _ => illegalWord s

/-- Run a 32-bit word (02 R43). -/
def runHalf (w : BitVec 32) (s : State) : Host.Outcome State Fault Refusal :=
  match decode32 w with
  | .ok i => exec i s
  | .error _ => illegalWord s

/-! The rest of this section is the same function as `runWord` for Lean's compiler, which has no tags for all the constructors
of `Instr`; `runWord_eq_compiled` says that it is the same. -/

/-- A meaning under the checks of R43 on its word. -/
def whenOk (ok : Bool) (o : Host.Outcome State Fault Refusal) (s : State) : Host.Outcome State Fault Refusal :=
  if ok then o else illegalWord s

/-- A word of a major below 0x51. -/
def runLow (o : Option Instr) (s : State) : Host.Outcome State Fault Refusal :=
  match checked o with
  | .ok i => exec i s
  | .error _ => illegalWord s

/-- Major 0x51 runs (R223). -/
def runMajor51 (w : VWord) (s : State) : Host.Outcome State Fault Refusal :=
  whenOk (okMouter w) (execMouter w s) s

/-- Major 0x52 runs (R223). -/
def runMajor52 (w : VWord) (s : State) : Host.Outcome State Fault Refusal :=
  whenOk (okMouteri w) (execMouteri w s) s

/-- Major 0x53 runs (R224). -/
def runMajor53 (w : VWord) (s : State) : Host.Outcome State Fault Refusal :=
  whenOk (okMouterc w) (execMouterc w s) s

/-- Major 0x54 runs (R228). -/
def runMajor54 (w : VWord) (s : State) : Host.Outcome State Fault Refusal :=
  whenOk (okMlacc w) (execMlacc w s) s

/-- Major 0x55 runs (R231). -/
def runMajor55 (w : VWord) (s : State) : Host.Outcome State Fault Refusal :=
  whenOk (okMdrain w) (execMdrain w s) s

/-- Major 0x56 runs (R230). -/
def runMajor56 (w : VWord) (s : State) : Host.Outcome State Fault Refusal :=
  whenOk (okMtov w) (execMtov w s) s

/-- Major 0x57 runs (R229). -/
def runMajor57 (w : VWord) (s : State) : Host.Outcome State Fault Refusal :=
  whenOk (okMscale w) (execMscale w s) s

/-- Major 0x58 runs (R251). -/
def runMajor58 (w : VWord) (s : State) : Host.Outcome State Fault Refusal :=
  if w.fnBits 10 2 == 0 then whenOk (okBclr w) (execBclr w s) s
  else if w.fnBits 10 2 == 1 then whenOk (okBtload w) (execBtload w s) s
  else if w.fnBits 10 2 == 2 then whenOk (okBtdrain w) (execBtdrain w s) s
  else illegalWord s

/-- Major 0x59 runs (R253). -/
def runMajor59 (w : VWord) (s : State) : Host.Outcome State Fault Refusal :=
  match w.key with
  | 0 => whenOk (okBqr w) (execBqr w s) s
  | 1 => whenOk (okBqra w) (execBqra w s) s
  | 2 => whenOk (okBqrD w) (execBqrD w s) s
  | _ => illegalWord s

/-- Major 0x5A runs (R254). -/
def runMajor5A (w : VWord) (s : State) : Host.Outcome State Fault Refusal :=
  match w.key with
  | 0 => whenOk (okBqra w) (execBapply w s) s
  | 1 => whenOk (okBqra w) (execBapplyC0 w s) s
  | _ => illegalWord s

/-- Major 0x5B runs (R256). -/
def runMajor5B (w : VWord) (s : State) : Host.Outcome State Fault Refusal :=
  match w.key with
  | 0 => whenOk (okBvec w) (execBvec w s) s
  | 1 => whenOk (okBangleD w) (execBangleD w s) s
  | 2 => whenOk (okBangleD w) (execBangleA w s) s
  | _ => illegalWord s

/-- Major 0x5C runs (R257). -/
def runMajor5C (w : VWord) (s : State) : Host.Outcome State Fault Refusal :=
  if w.fnBits 6 1 == 0 then whenOk (okBrot w) (execBrot w s) s
  else if w.fnBits 6 1 == 1 then whenOk (okVrotate w) (execVrotate w s) s
  else illegalWord s

/-- Major 0x5D runs (R258). -/
def runMajor5D (w : VWord) (s : State) : Host.Outcome State Fault Refusal :=
  match w.key with
  | 0 => whenOk (okBgain w) (execBgain w s) s
  | _ => illegalWord s

/-- Major 0x5E runs (R255). -/
def runMajor5E (w : VWord) (s : State) : Host.Outcome State Fault Refusal :=
  match w.key with
  | 0 => whenOk (okBsolve w) (execBsolve w s) s
  | _ => illegalWord s

/-- Major 0x60 runs (R269). -/
def runMajor60 (w : VWord) (s : State) : Host.Outcome State Fault Refusal :=
  match w.fnFN with
  | 0 => whenOk (okAmoSwap w) (execAmoSwap w s) s
  | 1 => whenOk (okAmoSwap w) (execAmoAdd w s) s
  | 2 => whenOk (okAmoAnd w) (execAmoAnd w s) s
  | 3 => whenOk (okAmoAnd w) (execAmoOr w s) s
  | 4 => whenOk (okAmoAnd w) (execAmoXor w s) s
  | 5 => whenOk (okAmoSwap w) (execAmoMin w s) s
  | 6 => whenOk (okAmoSwap w) (execAmoMax w s) s
  | _ => illegalWord s

/-- Major 0x61 runs (R270). -/
def runMajor61 (w : VWord) (s : State) : Host.Outcome State Fault Refusal :=
  whenOk (okAmocas w) (execAmocas w s) s

/-- Major 0x62 runs (R273). -/
def runMajor62 (w : VWord) (s : State) : Host.Outcome State Fault Refusal :=
  if w.fnBits 11 1 == 0 then whenOk (okVamo w) (execVamo w s) s
  else if w.fnBits 11 1 == 1 then whenOk (okVamo w) (execVamoo w s) s
  else illegalWord s

/-- Major 0x63 runs (R277). -/
def runMajor63 (w : VWord) (s : State) : Host.Outcome State Fault Refusal :=
  match w.fnFN with
  | 0 => whenOk (okAccw w) (execAccw w s) s
  | 1 => whenOk (okVacc w) (execVacc w s) s
  | 2 => whenOk (okAmerge w) (execAmerge w s) s
  | 3 => whenOk (okAccrel w) (execAccrel w s) s
  | _ => illegalWord s

/-- Major 0x64 runs (R283). -/
def runMajor64 (w : VWord) (s : State) : Host.Outcome State Fault Refusal :=
  match w.fnFN with
  | 0 => whenOk (okSyncRd w) (execSyncRd w s) s
  | 1 => whenOk (okSyncWr w) (execSyncWr w s) s
  | 2 => whenOk (okSyncTas w) (execSyncTas w s) s
  | 3 => whenOk (okSyncFadd w) (execSyncFadd w s) s
  | _ => illegalWord s

/-- Major 0x65 runs (R286). -/
def runMajor65 (w : VWord) (s : State) : Host.Outcome State Fault Refusal :=
  match w.fnFN with
  | 0 => whenOk (okHudInit w) (execHudInit w s) s
  | 1 => whenOk (okHudArr w) (execHudArr w s) s
  | 2 => whenOk (okHudArr w) (execHudDrop w s) s
  | 3 => whenOk (okHudWait w) (execHudWait w s) s
  | _ => illegalWord s

/-- Major 0x66 runs (R291). -/
def runMajor66 (w : VWord) (s : State) : Host.Outcome State Fault Refusal :=
  match w.fnFN with
  | 0 => whenOk (okPost w) (execPost w s) s
  | 1 => whenOk (okPost w) (execPostSet w s) s
  | 2 => whenOk (okPost w) (execWaiti w s) s
  | _ => illegalWord s

/-- Major 0x67 runs (R292). -/
def runMajor67 (w : VWord) (s : State) : Host.Outcome State Fault Refusal :=
  whenOk (okFence w) (execFence w s) s

/-- Major 0x68 runs (R295). -/
def runMajor68 (w : VWord) (s : State) : Host.Outcome State Fault Refusal :=
  match w.fnFN with
  | 0 => whenOk (okSyncWr w) (execAwInit w s) s
  | 1 => whenOk (okSyncWr w) (execAwAdd w s) s
  | 2 => whenOk (okAwWait w) (execAwWait w s) s
  | _ => illegalWord s

/-- Major 0x69 runs (R297). -/
def runMajor69 (w : VWord) (s : State) : Host.Outcome State Fault Refusal :=
  match w.fnFN with
  | 0 => whenOk (okCp w) (execCp w s) s
  | 1 => whenOk (okCp2 w) (execCp2 w s) s
  | 2 => whenOk (okCp2 w) (execCpx w s) s
  | 3 => whenOk (okCpq w) (execCpq w s) s
  | 4 => whenOk (okCpw w) (execCpw w s) s
  | _ => illegalWord s

/-- Major 0x70 runs (R309). -/
def runMajor70 (w : VWord) (s : State) : Host.Outcome State Fault Refusal :=
  match w.key with
  | 0 => whenOk (okWdecl w) (execWdecl w s) s
  | 32 => whenOk (okWdeclRel w) (execWdeclRel w s) s
  | _ => illegalWord s

/-- Major 0x71 runs (R326). -/
def runMajor71 (w : VWord) (s : State) : Host.Outcome State Fault Refusal :=
  whenOk (okVldr w) (execVldr w s) s

/-- Major 0x72 runs (R327). -/
def runMajor72 (w : VWord) (s : State) : Host.Outcome State Fault Refusal :=
  whenOk (okVstr w) (execVstr w s) s

/-- Major 0x73 runs (R314). -/
def runMajor73 (w : VWord) (s : State) : Host.Outcome State Fault Refusal :=
  match w.key with
  | 0 => whenOk (okStep w) (execStep w s) s
  | 32 => whenOk (okStepAt w) (execStepAt w s) s
  | 64 => whenOk (okStep w) (execStepq w s) s
  | _ => illegalWord s

/-- Major 0x74 runs (R337). -/
def runMajor74 (w : VWord) (s : State) : Host.Outcome State Fault Refusal :=
  match w.key with
  | 0 => whenOk (okFsbindRx w) (execFsbindRx w s) s
  | 1 => whenOk (okFsbindRx w) (execFsbindTx w s) s
  | 2 => whenOk (okFsbindU w) (execFsbindU w s) s
  | _ => illegalWord s

/-- Major 0x75 runs (R343). -/
def runMajor75 (w : VWord) (s : State) : Host.Outcome State Fault Refusal :=
  match w.key with
  | 0 => whenOk (okVcred w) (execVcred w s) s
  | _ => illegalWord s

/-- Major 0x78 runs (R109). -/
def runMajor78 (w : VWord) (s : State) : Host.Outcome State Fault Refusal :=
  if w.key < 5 then whenOk (okSetvl w) (execSetvl w s) s
  else if w.key == 16 then whenOk (okSetvt w) (execSetvt w s) s
  else illegalWord s

/-- Major 0x79 runs (R141). -/
def runMajor79 (w : VWord) (s : State) : Host.Outcome State Fault Refusal :=
  match w.key with
  | 0 => whenOk (okSetfmt w) (execSetfmt w s) s
  | _ => illegalWord s

/-- Major 0x7A runs (R114). -/
def runMajor7A (w : VWord) (s : State) : Host.Outcome State Fault Refusal :=
  match w.key with
  | 0 => whenOk (okMshape w) (execMshape w s) s
  | 16 => whenOk (okTshape w) (execTshape w s) s
  | _ => illegalWord s

/-- Major 0x7B runs (R214). -/
def runMajor7B (w : VWord) (s : State) : Host.Outcome State Fault Refusal :=
  whenOk (okMmode w) (execMmode w s) s

/-- A 64-bit word by its major. -/
def runMajor (op : Nat) (w : VWord) (s : State) : Host.Outcome State Fault Refusal :=
  match op with
  | 0 => runLow (wideMajor00 w) s
  | 1 => runLow (wideMajor01 w) s
  | 2 => runLow (wideMajor02 w) s
  | 3 => runLow (wideMajor03 w) s
  | 4 => runLow (wideMajor04 w) s
  | 5 => runLow (wideMajor05 w) s
  | 6 => runLow (wideMajor06 w) s
  | 7 => runLow (wideMajor07 w) s
  | 8 => runLow (wideMajor08 w) s
  | 9 => runLow (wideMajor09 w) s
  | 32 => runLow (wideMajor20 w) s
  | 33 => runLow (wideMajor21 w) s
  | 34 => runLow (wideMajor22 w) s
  | 35 => runLow (wideMajor23 w) s
  | 48 => runLow (wideMajor30 w) s
  | 49 => runLow (wideMajor31 w) s
  | 50 => runLow (wideMajor32 w) s
  | 51 => runLow (wideMajor33 w) s
  | 52 => runLow (wideMajor34 w) s
  | 53 => runLow (wideMajor35 w) s
  | 56 => runLow (wideMajor38 w) s
  | 57 => runLow (wideMajor39 w) s
  | 58 => runLow (wideMajor3A w) s
  | 59 => runLow (wideMajor3B w) s
  | 60 => runLow (wideMajor3C w) s
  | 61 => runLow (wideMajor3D w) s
  | 64 => runLow (wideMajor40 w) s
  | 65 => runLow (wideMajor41 w) s
  | 66 => runLow (wideMajor42 w) s
  | 67 => runLow (wideMajor43 w) s
  | 68 => runLow (wideMajor44 w) s
  | 69 => runLow (wideMajor45 w) s
  | 70 => runLow (wideMajor46 w) s
  | 71 => runLow (wideMajor47 w) s
  | 72 => runLow (wideMajor48 w) s
  | 73 => runLow (wideMajor49 w) s
  | 74 => runLow (wideMajor4A w) s
  | 75 => runLow (wideMajor4B w) s
  | 80 => runLow (wideMajor50 w) s
  | 81 => runMajor51 w s
  | 82 => runMajor52 w s
  | 83 => runMajor53 w s
  | 84 => runMajor54 w s
  | 85 => runMajor55 w s
  | 86 => runMajor56 w s
  | 87 => runMajor57 w s
  | 88 => runMajor58 w s
  | 89 => runMajor59 w s
  | 90 => runMajor5A w s
  | 91 => runMajor5B w s
  | 92 => runMajor5C w s
  | 93 => runMajor5D w s
  | 94 => runMajor5E w s
  | 96 => runMajor60 w s
  | 97 => runMajor61 w s
  | 98 => runMajor62 w s
  | 99 => runMajor63 w s
  | 100 => runMajor64 w s
  | 101 => runMajor65 w s
  | 102 => runMajor66 w s
  | 103 => runMajor67 w s
  | 104 => runMajor68 w s
  | 105 => runMajor69 w s
  | 112 => runMajor70 w s
  | 113 => runMajor71 w s
  | 114 => runMajor72 w s
  | 115 => runMajor73 w s
  | 116 => runMajor74 w s
  | 117 => runMajor75 w s
  | 120 => runMajor78 w s
  | 121 => runMajor79 w s
  | 122 => runMajor7A w s
  | 123 => runMajor7B w s
  | _ => illegalWord s

/-- `runWord` as the compiler runs it. -/
def runWordCompiled (level : Nat) (w : BitVec 64) (s : State) : Host.Outcome State Fault Refusal :=
  match rewriteWide level w with
  | none => illegalWord s
  | some w3 =>
    match unpackWide w3 with
    | none => illegalWord s
    | some (op, f) => runMajor op.toNat f s

/-- The row of a major, run. -/
noncomputable def runRow (o : Option Instr) (s : State) : Host.Outcome State Fault Refusal :=
  match checked o with
  | .ok i => exec i s
  | .error _ => illegalWord s

/-- An assigned row, run. -/
theorem runRow_some (i : Instr) (s : State) : runRow (some i) s = whenOk i.checks (exec i s) s := by
  unfold runRow checked whenOk
  cases h : i.checks <;> simp [h]

/-- A reserved row, run. -/
theorem runRow_none (s : State) : runRow none s = illegalWord s := rfl

/-- The row of this major, run, is its compiled form. -/
theorem runRow_wideMajor51 (w : VWord) (s : State) : runRow (wideMajor51 w) s = runMajor51 w s := by
  unfold wideMajor51 runMajor51
  exact runRow_some _ _

/-- The row of this major, run, is its compiled form. -/
theorem runRow_wideMajor52 (w : VWord) (s : State) : runRow (wideMajor52 w) s = runMajor52 w s := by
  unfold wideMajor52 runMajor52
  exact runRow_some _ _

/-- The row of this major, run, is its compiled form. -/
theorem runRow_wideMajor53 (w : VWord) (s : State) : runRow (wideMajor53 w) s = runMajor53 w s := by
  unfold wideMajor53 runMajor53
  exact runRow_some _ _

/-- The row of this major, run, is its compiled form. -/
theorem runRow_wideMajor54 (w : VWord) (s : State) : runRow (wideMajor54 w) s = runMajor54 w s := by
  unfold wideMajor54 runMajor54
  exact runRow_some _ _

/-- The row of this major, run, is its compiled form. -/
theorem runRow_wideMajor55 (w : VWord) (s : State) : runRow (wideMajor55 w) s = runMajor55 w s := by
  unfold wideMajor55 runMajor55
  exact runRow_some _ _

/-- The row of this major, run, is its compiled form. -/
theorem runRow_wideMajor56 (w : VWord) (s : State) : runRow (wideMajor56 w) s = runMajor56 w s := by
  unfold wideMajor56 runMajor56
  exact runRow_some _ _

/-- The row of this major, run, is its compiled form. -/
theorem runRow_wideMajor57 (w : VWord) (s : State) : runRow (wideMajor57 w) s = runMajor57 w s := by
  unfold wideMajor57 runMajor57
  exact runRow_some _ _

/-- The row of this major, run, is its compiled form. -/
theorem runRow_wideMajor58 (w : VWord) (s : State) : runRow (wideMajor58 w) s = runMajor58 w s := by
  unfold wideMajor58 runMajor58
  repeat' split
  all_goals first | exact runRow_some _ _ | exact runRow_none _

/-- The row of this major, run, is its compiled form. -/
theorem runRow_wideMajor59 (w : VWord) (s : State) : runRow (wideMajor59 w) s = runMajor59 w s := by
  unfold wideMajor59 runMajor59
  generalize w.key = k
  split
  all_goals first | exact runRow_some _ _ | exact runRow_none _ | (split <;> first | exact runRow_none _ | simp_all)

/-- The row of this major, run, is its compiled form. -/
theorem runRow_wideMajor5A (w : VWord) (s : State) : runRow (wideMajor5A w) s = runMajor5A w s := by
  unfold wideMajor5A runMajor5A
  generalize w.key = k
  split
  all_goals first | exact runRow_some _ _ | exact runRow_none _ | (split <;> first | exact runRow_none _ | simp_all)

/-- The row of this major, run, is its compiled form. -/
theorem runRow_wideMajor5B (w : VWord) (s : State) : runRow (wideMajor5B w) s = runMajor5B w s := by
  unfold wideMajor5B runMajor5B
  generalize w.key = k
  split
  all_goals first | exact runRow_some _ _ | exact runRow_none _ | (split <;> first | exact runRow_none _ | simp_all)

/-- The row of this major, run, is its compiled form. -/
theorem runRow_wideMajor5C (w : VWord) (s : State) : runRow (wideMajor5C w) s = runMajor5C w s := by
  unfold wideMajor5C runMajor5C
  repeat' split
  all_goals first | exact runRow_some _ _ | exact runRow_none _

/-- The row of this major, run, is its compiled form. -/
theorem runRow_wideMajor5D (w : VWord) (s : State) : runRow (wideMajor5D w) s = runMajor5D w s := by
  unfold wideMajor5D runMajor5D
  generalize w.key = k
  split
  all_goals first | exact runRow_some _ _ | exact runRow_none _ | (split <;> first | exact runRow_none _ | simp_all)

/-- The row of this major, run, is its compiled form. -/
theorem runRow_wideMajor5E (w : VWord) (s : State) : runRow (wideMajor5E w) s = runMajor5E w s := by
  unfold wideMajor5E runMajor5E
  generalize w.key = k
  split
  all_goals first | exact runRow_some _ _ | exact runRow_none _ | (split <;> first | exact runRow_none _ | simp_all)

/-- The row of this major, run, is its compiled form. -/
theorem runRow_wideMajor60 (w : VWord) (s : State) : runRow (wideMajor60 w) s = runMajor60 w s := by
  unfold wideMajor60 runMajor60
  generalize w.fnFN = k
  split
  all_goals first | exact runRow_some _ _ | exact runRow_none _ | (split <;> first | exact runRow_none _ | simp_all)

/-- The row of this major, run, is its compiled form. -/
theorem runRow_wideMajor61 (w : VWord) (s : State) : runRow (wideMajor61 w) s = runMajor61 w s := by
  unfold wideMajor61 runMajor61
  exact runRow_some _ _

/-- The row of this major, run, is its compiled form. -/
theorem runRow_wideMajor62 (w : VWord) (s : State) : runRow (wideMajor62 w) s = runMajor62 w s := by
  unfold wideMajor62 runMajor62
  repeat' split
  all_goals first | exact runRow_some _ _ | exact runRow_none _

/-- The row of this major, run, is its compiled form. -/
theorem runRow_wideMajor63 (w : VWord) (s : State) : runRow (wideMajor63 w) s = runMajor63 w s := by
  unfold wideMajor63 runMajor63
  generalize w.fnFN = k
  split
  all_goals first | exact runRow_some _ _ | exact runRow_none _ | (split <;> first | exact runRow_none _ | simp_all)

/-- The row of this major, run, is its compiled form. -/
theorem runRow_wideMajor64 (w : VWord) (s : State) : runRow (wideMajor64 w) s = runMajor64 w s := by
  unfold wideMajor64 runMajor64
  generalize w.fnFN = k
  split
  all_goals first | exact runRow_some _ _ | exact runRow_none _ | (split <;> first | exact runRow_none _ | simp_all)

/-- The row of this major, run, is its compiled form. -/
theorem runRow_wideMajor65 (w : VWord) (s : State) : runRow (wideMajor65 w) s = runMajor65 w s := by
  unfold wideMajor65 runMajor65
  generalize w.fnFN = k
  split
  all_goals first | exact runRow_some _ _ | exact runRow_none _ | (split <;> first | exact runRow_none _ | simp_all)

/-- The row of this major, run, is its compiled form. -/
theorem runRow_wideMajor66 (w : VWord) (s : State) : runRow (wideMajor66 w) s = runMajor66 w s := by
  unfold wideMajor66 runMajor66
  generalize w.fnFN = k
  split
  all_goals first | exact runRow_some _ _ | exact runRow_none _ | (split <;> first | exact runRow_none _ | simp_all)

/-- The row of this major, run, is its compiled form. -/
theorem runRow_wideMajor67 (w : VWord) (s : State) : runRow (wideMajor67 w) s = runMajor67 w s := by
  unfold wideMajor67 runMajor67
  exact runRow_some _ _

/-- The row of this major, run, is its compiled form. -/
theorem runRow_wideMajor68 (w : VWord) (s : State) : runRow (wideMajor68 w) s = runMajor68 w s := by
  unfold wideMajor68 runMajor68
  generalize w.fnFN = k
  split
  all_goals first | exact runRow_some _ _ | exact runRow_none _ | (split <;> first | exact runRow_none _ | simp_all)

/-- The row of this major, run, is its compiled form. -/
theorem runRow_wideMajor69 (w : VWord) (s : State) : runRow (wideMajor69 w) s = runMajor69 w s := by
  unfold wideMajor69 runMajor69
  generalize w.fnFN = k
  split
  all_goals first | exact runRow_some _ _ | exact runRow_none _ | (split <;> first | exact runRow_none _ | simp_all)

/-- The row of this major, run, is its compiled form. -/
theorem runRow_wideMajor70 (w : VWord) (s : State) : runRow (wideMajor70 w) s = runMajor70 w s := by
  unfold wideMajor70 runMajor70
  generalize w.key = k
  split
  all_goals first | exact runRow_some _ _ | exact runRow_none _ | (split <;> first | exact runRow_none _ | simp_all)

/-- The row of this major, run, is its compiled form. -/
theorem runRow_wideMajor71 (w : VWord) (s : State) : runRow (wideMajor71 w) s = runMajor71 w s := by
  unfold wideMajor71 runMajor71
  exact runRow_some _ _

/-- The row of this major, run, is its compiled form. -/
theorem runRow_wideMajor72 (w : VWord) (s : State) : runRow (wideMajor72 w) s = runMajor72 w s := by
  unfold wideMajor72 runMajor72
  exact runRow_some _ _

/-- The row of this major, run, is its compiled form. -/
theorem runRow_wideMajor73 (w : VWord) (s : State) : runRow (wideMajor73 w) s = runMajor73 w s := by
  unfold wideMajor73 runMajor73
  generalize w.key = k
  split
  all_goals first | exact runRow_some _ _ | exact runRow_none _ | (split <;> first | exact runRow_none _ | simp_all)

/-- The row of this major, run, is its compiled form. -/
theorem runRow_wideMajor74 (w : VWord) (s : State) : runRow (wideMajor74 w) s = runMajor74 w s := by
  unfold wideMajor74 runMajor74
  generalize w.key = k
  split
  all_goals first | exact runRow_some _ _ | exact runRow_none _ | (split <;> first | exact runRow_none _ | simp_all)

/-- The row of this major, run, is its compiled form. -/
theorem runRow_wideMajor75 (w : VWord) (s : State) : runRow (wideMajor75 w) s = runMajor75 w s := by
  unfold wideMajor75 runMajor75
  generalize w.key = k
  split
  all_goals first | exact runRow_some _ _ | exact runRow_none _ | (split <;> first | exact runRow_none _ | simp_all)

/-- The row of this major, run, is its compiled form. -/
theorem runRow_wideMajor78 (w : VWord) (s : State) : runRow (wideMajor78 w) s = runMajor78 w s := by
  unfold wideMajor78 runMajor78
  repeat' split
  all_goals first | exact runRow_some _ _ | exact runRow_none _

/-- The row of this major, run, is its compiled form. -/
theorem runRow_wideMajor79 (w : VWord) (s : State) : runRow (wideMajor79 w) s = runMajor79 w s := by
  unfold wideMajor79 runMajor79
  generalize w.key = k
  split
  all_goals first | exact runRow_some _ _ | exact runRow_none _ | (split <;> first | exact runRow_none _ | simp_all)

/-- The row of this major, run, is its compiled form. -/
theorem runRow_wideMajor7A (w : VWord) (s : State) : runRow (wideMajor7A w) s = runMajor7A w s := by
  unfold wideMajor7A runMajor7A
  generalize w.key = k
  split
  all_goals first | exact runRow_some _ _ | exact runRow_none _ | (split <;> first | exact runRow_none _ | simp_all)

/-- The row of this major, run, is its compiled form. -/
theorem runRow_wideMajor7B (w : VWord) (s : State) : runRow (wideMajor7B w) s = runMajor7B w s := by
  unfold wideMajor7B runMajor7B
  exact runRow_some _ _

/-- A row, run, is its compiled form. -/
theorem runRow_row64 (op : Nat) (w : VWord) (s : State) : runRow (row64 op w) s = runMajor op w s := by
  unfold row64 runMajor
  split
  iterate 39 rfl
  · exact runRow_wideMajor51 w s
  · exact runRow_wideMajor52 w s
  · exact runRow_wideMajor53 w s
  · exact runRow_wideMajor54 w s
  · exact runRow_wideMajor55 w s
  · exact runRow_wideMajor56 w s
  · exact runRow_wideMajor57 w s
  · exact runRow_wideMajor58 w s
  · exact runRow_wideMajor59 w s
  · exact runRow_wideMajor5A w s
  · exact runRow_wideMajor5B w s
  · exact runRow_wideMajor5C w s
  · exact runRow_wideMajor5D w s
  · exact runRow_wideMajor5E w s
  · exact runRow_wideMajor60 w s
  · exact runRow_wideMajor61 w s
  · exact runRow_wideMajor62 w s
  · exact runRow_wideMajor63 w s
  · exact runRow_wideMajor64 w s
  · exact runRow_wideMajor65 w s
  · exact runRow_wideMajor66 w s
  · exact runRow_wideMajor67 w s
  · exact runRow_wideMajor68 w s
  · exact runRow_wideMajor69 w s
  · exact runRow_wideMajor70 w s
  · exact runRow_wideMajor71 w s
  · exact runRow_wideMajor72 w s
  · exact runRow_wideMajor73 w s
  · exact runRow_wideMajor74 w s
  · exact runRow_wideMajor75 w s
  · exact runRow_wideMajor78 w s
  · exact runRow_wideMajor79 w s
  · exact runRow_wideMajor7A w s
  · exact runRow_wideMajor7B w s
  · first | exact runRow_none s | (split <;> first | exact runRow_none s | contradiction)

/-- Running a word is what the compiled code does. -/
@[csimp] theorem runWord_eq_compiled : @runWord = @runWordCompiled := by
  funext level w s
  unfold runWord runWordCompiled decode64
  cases rewriteWide level w with
  | none => rfl
  | some w3 =>
    simp only
    cases unpackWide w3 with
    | none => rfl
    | some p => exact runRow_row64 p.1.toNat p.2 s

/-! ### The background of a prompt model -/

/-- Posts on the rings reach the cores they have still to reach (10 R289). -/
def State.postsArrive (s : State) : State :=
  s.sync.ring.foldl (fun t p => p.left.foldl (fun (u : State) c => u.postArrive p.die p.src c) t) s

/-- Each copy command moves one chunk (10 R296). -/
def State.copiesGo (s : State) : State :=
  s.copies.foldl (fun (t : State) c =>
    match t.copies.find? fun x => x.owner = c.owner && x.seq = c.seq with
    | some x => t.copyChunk x
    | none => t) s

/-- Chunks that wait for room ask again, and each die's stream unit sends one chunk (11 R342). -/
def State.streamsGo (s : State) : State :=
  let ask := fun (t : State) (p : Nat) => t.at p fun u =>
    forUpTo 8 (fun n v => if (vecGet v.th.fab.fs n .reset).send then v.reserve n else v) u
  let waits := fun (t : Thread) => t.life = .running && t.fab.fs.toList.any fun x => x.bound && x.send && x.stage.any fun c => !c.admitted
  forUpTo 4 (fun d t => t.sendChunk d) (((s.threads.filter waits).map (·.bind.place)).foldl ask s)

/-- The contexts with a member that waits at a whistle (11 R314). -/
def State.whistling (s : State) : List Nat :=
  ((s.threads.filter fun t => t.life.inSlot && t.fab.arrived && !t.fab.released).map (·.bind.ctx)).eraseDups

/-- A whistle goes as far as this package can take it: arrivals are counted, and in a pod of one package the go, the apply and the
release come, or Skew does (11 R315, R318, R322). -/
def State.whistleGoes (ctx : Nat) (s : State) : State :=
  let s1 := ((s.membersOf ctx).map (·.bind.place)).foldl (fun (t : State) p => t.countArrival ctx p) s
  if 1 < s1.dev.packages then s1
  else
    ((((s1.whistleGo ctx (s1.decideStatus ctx)).whistleApply ctx).whistleRelease ctx)).skewNow ctx

/-- What a prompt model does beside the front in every step; otherwise all of it comes as events (DESIGN CHOICE, log 6). -/
def State.background (s : State) : State :=
  if s.prompt then
    let s1 := (s.mirrorAll.postsArrive.copiesGo).readmitCopies.streamsGo
    s1.whistling.foldl (fun (t : State) c => t.whistleGoes c) s1
  else s

/-! ### The front's next word -/

/-- The words of a fetch: a 32-bit word, a 64-bit word, or one that is illegal where it stands (02 R28, R29; 04 R88). -/
inductive Fetched where
  | half (w : BitVec 32)
  | wide (w : BitVec 64)
  | bad
  | stop (c : ExcCause)
  deriving DecidableEq, Repr

/-- Fetch the word at spc: 4 bytes, and 8 where the length bit is set (02 R28, R29, R45; 04 R88). -/
def State.fetchWord (s : State) : State × Fetched :=
  let pc := s.th.fr.spc
  match s.fetch pc 4 with
  | (t, .error c) => (t, .stop c)
  | (t, .ok lo) =>
    if leNat lo < 2 ^ 31 then (t, .half (BitVec.ofNat 32 (leNat lo)))
    else if pc.toNat % 8 ≠ 0 || t.splitsEnd pc then (t, .bad)
    else
      match t.fetch pc 8 with
      | (u, .error c) => (u, .stop c)
      | (u, .ok bs) => (u, .wide (BitVec.ofNat 64 (leNat bs)))

/-- Whether the front's next word would join the open convoy, as sending it tells (02 R36; 05 R118). -/
def State.nextJoins (s : State) : Bool :=
  match s.fetchWord.2 with
  | .wide w =>
    match runWord s.th.bind.level w { s with prompt := false } with
    | .next t => (t.th.fr.viq.getLast?).any fun e => e.joined && e.seq = s.th.fr.seq + 1
    | _ => false
  | _ => false

/-- A waiting front tries the return of what it waits for. While it waits for a word that carries C, its convoy is open, and closes
where the next word cannot join it (02 R36; 05 R119, R127). (DEDUCED, log 11.) -/
def State.waitOn (s : State) : State :=
  match s.th.fr.wait with
  | .none => s
  | .entry q =>
    if s.th.fr.viq.any fun e => e.seq = q then (if s.th.fr.chainOpen && !s.nextJoins then s.closeChain else s)
    else s.onFr fun f => { f with wait := .none }
  | _ => s.waitReturn

/-- The majors of 64-bit words that the front executes itself (02 Table 2.7). -/
def frontMajor (op : Nat) : Bool := op = 0x60 || op = 0x61 || (0x64 ≤ op && op ≤ 0x68)

/-- The open convoy closes before a word that does not enter the VIQ (02 R36). -/
def State.beforeFrontWord (s : State) : State := s.closeChain

/-- A state function on a next state. -/
def onNext (f : State → State) : Host.Outcome State Fault Refusal → Host.Outcome State Fault Refusal
  | .next s => .next (f s)
  | o => o

/-- After a word of n bytes at an address: the fetch buffer goes with a front that does not go on in sequence, and a thread resumed
for one word stops again (12 R368, R369). -/
def State.afterWord (pc : Word) (n : Nat) (s : State) : State :=
  let s1 := if s.th.fr.spc = pc + word n then s else s.onFr fun f => { f with fbuf := none }
  if s1.th.oneWord && s1.th.life = .running then (s1.onTh fun t => { t with oneWord := false }).stopAs .stopped .debugStop else s1

/-- Run what was fetched at the encoding level of the thread (02 R43, R49; 03 R55). -/
def State.runFetched (s : State) : Fetched → Host.Outcome State Fault Refusal
  | .half w => onNext (State.afterWord s.th.fr.spc 4) (onNext s.beforeFrontWord.orWait (runHalf w s.beforeFrontWord))
  | .wide w =>
    let t := if frontMajor (w.extractLsb' 24 7).toNat then s.beforeFrontWord else s
    onNext (State.afterWord s.th.fr.spc 8) (onNext t.orWait (runWord s.th.bind.level w t))
  | .bad => illegalWord s
  | .stop c => .next (s.frontStop c noIndex 0)

/-! ### The thread's next step -/

/-- What reaches a running thread before its next word: Skew, a pending deadline, a pending stop, its closed convoys, the word it
waits for, or its lane section; none where the front's next word is due (04 R97, R102; 11 R322; 12 R367). -/
def State.beforeWord (s : State) : State × Bool :=
  if s.mustSkew then (s.takeSkew, false)
  else if s.late then (s.takeDeadline, false)
  else if s.th.fr.m.preq.isSome then (s.takeStop, false)
  else
    let r : State × Settled := if s.prompt && !s.th.fr.chainOpen then s.settle else (s, .done)
    if r.2 = .stopped then (r.1, false)
    else if r.1.th.fr.wait ≠ .none then (r.1.waitOn, false)
    else if r.1.th.fr.lanes.isSome then (r.1.lanesIssue, false)
    else (r.1, true)

/-- The next step of a running thread. -/
def State.threadStep (s : State) : Host.Outcome State Fault Refusal :=
  let r := s.beforeWord
  if r.2 then
    let x := r.1.fetchWord
    x.1.runFetched x.2
  else .next r.1

/-- Time goes on by the model's pace, and in a prompt model the background runs (DESIGN CHOICE, log 6, log 7). -/
def State.tick (s : State) : State := ({ s with gtime := s.gtime + word s.pace }).background

/-- Whether an entry of the inputs is an event; an instruction word is none (DESIGN CHOICE, log 8). -/
def isEvent (i : Instr) : Bool := (encode i).isNone

/-- The thread whose turn it is: the schedule's next, else the current one while it runs, else any that runs (DESIGN CHOICE, log 8). -/
def State.turn (s : State) : State :=
  let s1 := match s.sched with
    | [] => s
    | p :: ps => { s with sched := ps ++ [p] }.focus p
  if s1.th.life = .running then s1
  else
    match s1.threads.find? fun t => t.life = .running with
    | some t => s1.focus t.bind.place
    | none => s1

end Sys2Proof.Machine
end

