-- ==== Sys2Proof/Machine/Step.lean ====
section
/-! DEFINITION. The step of the machine: an input event, the next step of a running thread, or time going by; and how an
instruction is placed where the next step fetches it. -/

namespace Sys2Proof.Machine

/-- ONE STEP: the oldest input event happens; else the thread whose turn it is takes its next step and time goes on; else only
time goes on (DESIGN CHOICE, log 7, log 8). -/
def step (s : State) : Host.Outcome State Fault Refusal :=
  match s.inputs with
  | i :: is => if isEvent i then exec i { s with inputs := is } else .fault .inputNotEvent
  | [] =>
    let t := s.turn
    if t.th.life = .running then onNext State.tick t.threadStep else .next t.tick

/-- The current thread runs at U with nothing in flight, its code page is mapped for its cluster, and the instruction's bytes stand where
its front fetches next (DESIGN CHOICE, log 3). -/
def State.withFetchWord (s : State) (nbits w : Nat) : State :=
  let pc := word (s.th.fr.spc.toNat / 8 * 8)
  let e : TlbEntry :=
    { core := s.th.bind.coreNo, cluster := s.th.bind.slot, big := false, set := bitsOf pc 54 16 % 64, way := 0, ctx := s.th.bind.ctx,
      vpn := bitsOf pc 54 16, pa := 0, kind := 0, key := 0, r := true, w := false, x := true, d := false }
  let fr := { s.th.fr with
    spc := pc, viq := [], stepq := none, hist := [], storeQ := [], wait := .none, lanes := none, curLane := none, fbuf := none, chainOpen := false,
    m := { s.th.fr.m with lvl := false, preq := none },
    regs := { s.th.fr.regs with dline := if s.late then BitVec.allOnes 64 else s.th.fr.regs.dline } }
  let th := { s.th with life := .running, fr := fr, fab := { s.th.fab with arrived := false }, oneWord := false }
  { s with
    th := th, inputs := [], sched := [], poison := s.poison.filter fun g => 2048 ≤ g,
    lineKeys := s.lineKeys.filter fun x => 256 ≤ x.1,
    mem := memPut s.mem (pc.toNat % 65536) (leBytes 8 (w % 2 ^ nbits)),
    unc := { s.unc with tlb := e :: s.unc.tlb, icache := [], fmtWins := [] } }

end Sys2Proof.Machine
end

