-- ==== Sys2Proof/Safety.lean ====
section
/-! DEFINITION. What counts as a safe state and a safe run, in the terms the statements use. -/

namespace Sys2Proof.Machine

/-- The inputs list holds events only, so that a step never meets the fault inputNotEvent (DESIGN CHOICE, log 8). -/
def State.InputsOk (s : State) : Prop := ∀ i ∈ s.inputs, isEvent i = true

/-- The memory is in its canonical form (DEDUCED, log 2). -/
def State.MemOk (s : State) : Prop := Memory.wf s.mem = true

/-- A step that answers a next state. -/
def State.StepsTo (s t : State) : Prop := step s = .next t

/-- The states that steps lead to from a state. -/
inductive State.Reaches : State → State → Prop where
  | here (s : State) : State.Reaches s s
  | after (s t u : State) : State.Reaches s t → State.StepsTo t u → State.Reaches s u

end Sys2Proof.Machine
end

