-- ==== Sys2Proof/Certificates/Slice0/Obligations.lean ====
section
/-! DEFINITION. The statements for the provers. `s` is a state before an instruction or an event, `t` the state after it. Where a
statement writes the next state as an update of `s`, all that the update does not name is as it was. -/

namespace Sys2Proof.Claims

open Sys2Proof.Machine

/-! ### Words of the front -/

/-- What the integer words of R66 to R69 give: the destination, the value and the flags (03 Tables 3.3 to 3.5). -/
def intResult (s : State) : Instr → Option (RegNo × Word × Flags)
  | .add d a b => some (d, s.rd a + s.rd b, 0)
  | .sub d a b => some (d, s.rd a - s.rd b, 0)
  | .and d a b => some (d, s.rd a &&& s.rd b, 0)
  | .or d a b => some (d, s.rd a ||| s.rd b, 0)
  | .xor d a b => some (d, s.rd a ^^^ s.rd b, 0)
  | .andn d a b => some (d, s.rd a &&& ~~~(s.rd b), 0)
  | .sll d a b => some (d, s.rd a <<< ((s.rd b).toNat % 64), 0)
  | .srl d a b => some (d, s.rd a >>> ((s.rd b).toNat % 64), 0)
  | .sra d a b => some (d, (s.rd a).sshiftRight ((s.rd b).toNat % 64), 0)
  | .ror d a b => some (d, (s.rd a).rotateRight ((s.rd b).toNat % 64), 0)
  | .slt d a b => some (d, if (s.rd a).toInt < (s.rd b).toInt then 1 else 0, 0)
  | .sltn d a b => some (d, if (s.rd a).toNat < (s.rd b).toNat then 1 else 0, 0)
  | .min d a b => some (d, if (s.rd a).toInt < (s.rd b).toInt then s.rd a else s.rd b, 0)
  | .max d a b => some (d, if (s.rd a).toInt < (s.rd b).toInt then s.rd b else s.rd a, 0)
  | .minn d a b => some (d, if (s.rd a).toNat < (s.rd b).toNat then s.rd a else s.rd b, 0)
  | .maxn d a b => some (d, if (s.rd a).toNat < (s.rd b).toNat then s.rd b else s.rd a, 0)
  | .clz d a => some (d, word (leadingZeros (s.rd a).toNat 64), 0)
  | .ctz d a => some (d, word (trailingZeros (s.rd a).toNat 64), 0)
  | .cpop d a => some (d, word (onesCount (s.rd a).toNat 64), 0)
  | .mul d a b => some (d, s.rd a * s.rd b, 0)
  | .mulh d a b => some (d, BitVec.ofInt 64 ((s.rd a).toInt * (s.rd b).toInt / 2 ^ 64), 0)
  | .mulhn d a b => some (d, word ((s.rd a).toNat * (s.rd b).toNat / 2 ^ 64), 0)
  | .div d a b =>
    if s.rd b = 0 then some (d, BitVec.allOnes 64, fDZ) else some (d, BitVec.ofInt 64 ((s.rd a).toInt.tdiv (s.rd b).toInt), 0)
  | .divn d a b =>
    if s.rd b = 0 then some (d, BitVec.allOnes 64, fDZ) else some (d, word ((s.rd a).toNat / (s.rd b).toNat), 0)
  | .rem d a b =>
    if s.rd b = 0 then some (d, s.rd a, fDZ) else some (d, BitVec.ofInt 64 ((s.rd a).toInt.tmod (s.rd b).toInt), 0)
  | .remn d a b => if s.rd b = 0 then some (d, s.rd a, fDZ) else some (d, word ((s.rd a).toNat % (s.rd b).toNat), 0)
  | .addi d a k => some (d, s.rd a + k.signExtend 64, 0)
  | .andi d a k => some (d, s.rd a &&& k.signExtend 64, 0)
  | .ori d a k => some (d, s.rd a ||| k.signExtend 64, 0)
  | .xori d a k => some (d, s.rd a ^^^ k.signExtend 64, 0)
  | .slti d a k => some (d, if (s.rd a).toInt < k.toInt then 1 else 0, 0)
  | .sltin d a k => some (d, if (s.rd a).toNat < (k.signExtend 64).toNat then 1 else 0, 0)
  | .slli d a h => some (d, s.rd a <<< h.toNat, 0)
  | .srli d a h => some (d, s.rd a >>> h.toNat, 0)
  | .srai d a h => some (d, (s.rd a).sshiftRight h.toNat, 0)
  | .lui d k => some (d, k.signExtend 64 <<< 13, 0)
  | .addpc d k => some (d, s.th.fr.spc + (k.signExtend 64 <<< 13), 0)
  | _ => none

/-- Register r as a format of 64 or 32 bits reads it: whole, or its low half (03 R57). -/
def fin (f : Fmt) (s : State) (r : RegNo) : Nat := (s.rd r).toNat % 2 ^ f.width

/-- A floating-point result of two operands. -/
def fp2 (f : Fmt) (s : State) (d a b : RegNo) (op : Nat → Nat → Nat × Flags) : Option (RegNo × Word × Flags) :=
  some (d, word (op (fin f s a) (fin f s b)).1, (op (fin f s a) (fin f s b)).2)

/-- A floating-point result of one operand. -/
def fp1 (f : Fmt) (s : State) (d a : RegNo) (op : Nat → Nat × Flags) : Option (RegNo × Word × Flags) :=
  some (d, word (op (fin f s a)).1, (op (fin f s a)).2)

/-- A fused result ±(a × b) ± d, rounded once; fnmadd of an exact zero sum gives −0 under RNE (03 R77; log 17). -/
def fusedCode (f : Fmt) (s : State) (d a b : RegNo) (m : BitVec 3) (np nc : Bool) : Nat × Flags :=
  let r := f.fma m.toNat np nc (fin f s a) (fin f s b) (fin f s d)
  if np = true ∧ nc = true ∧ m = 0 ∧ r.1 % 2 ^ (f.width - 1) = 0 ∧ r.2 = 0 then (2 ^ (f.width - 1), 0) else r

/-- A fused result for s[d]. -/
def fused (f : Fmt) (s : State) (d a b : RegNo) (m : BitVec 3) (np nc : Bool) : Option (RegNo × Word × Flags) :=
  some (d, word (fusedCode f s d a b m np nc).1, (fusedCode f s d a b m np nc).2)

/-- A compare: 0 with a NaN; NV for a signalling NaN and, where `quiet` holds, for any NaN (03 R79). -/
def compares (f : Fmt) (R : FVal → FVal → Bool) (quiet : Bool) (x y : Nat) : Nat × Flags :=
  if (f.decode x).isNan || (f.decode y).isNan then (0, if quiet || (f.decode x).isSig || (f.decode y).isSig then fNV else 0)
  else (if R (f.decode x) (f.decode y) then 1 else 0, 0)

/-- What the floating-point words of R75 to R79 give, on FP64 (`d`) and FP32 (`s`). -/
def fpResult (s : State) : Instr → Option (RegNo × Word × Flags)
  | .faddD d a b m => fp2 fp64 s d a b (fp64.add m.toNat)
  | .fsubD d a b m => fp2 fp64 s d a b (fp64.sub m.toNat)
  | .fmulD d a b m => fp2 fp64 s d a b (fp64.mul m.toNat)
  | .fdivD d a b m => fp2 fp64 s d a b (fp64.div m.toNat)
  | .fsqrtD d a m => fp1 fp64 s d a (fp64.sqrt m.toNat)
  | .fminD d a b => fp2 fp64 s d a b (fp64.minMax true)
  | .fmaxD d a b => fp2 fp64 s d a b (fp64.minMax false)
  | .fsignCD d a b => fp2 fp64 s d a b fun x y => (fp64.withSign x (y.testBit 63), 0)
  | .fsignND d a b => fp2 fp64 s d a b fun x y => (fp64.withSign x (!y.testBit 63), 0)
  | .fsignXD d a b => fp2 fp64 s d a b fun x y => (fp64.withSign x (x.testBit 63 ^^ y.testBit 63), 0)
  | .faddS d a b m => fp2 fp32 s d a b (fp32.add m.toNat)
  | .fsubS d a b m => fp2 fp32 s d a b (fp32.sub m.toNat)
  | .fmulS d a b m => fp2 fp32 s d a b (fp32.mul m.toNat)
  | .fdivS d a b m => fp2 fp32 s d a b (fp32.div m.toNat)
  | .fsqrtS d a m => fp1 fp32 s d a (fp32.sqrt m.toNat)
  | .fminS d a b => fp2 fp32 s d a b (fp32.minMax true)
  | .fmaxS d a b => fp2 fp32 s d a b (fp32.minMax false)
  | .fsignCS d a b => fp2 fp32 s d a b fun x y => (fp32.withSign x (y.testBit 31), 0)
  | .fsignNS d a b => fp2 fp32 s d a b fun x y => (fp32.withSign x (!y.testBit 31), 0)
  | .fsignXS d a b => fp2 fp32 s d a b fun x y => (fp32.withSign x (x.testBit 31 ^^ y.testBit 31), 0)
  | .fmaddD d a b m => fused fp64 s d a b m false false
  | .fmsubD d a b m => fused fp64 s d a b m false true
  | .fnmaddD d a b m => fused fp64 s d a b m true true
  | .fnmsubD d a b m => fused fp64 s d a b m true false
  | .fmaddS d a b m => fused fp32 s d a b m false false
  | .fmsubS d a b m => fused fp32 s d a b m false true
  | .fnmaddS d a b m => fused fp32 s d a b m true true
  | .fnmsubS d a b m => fused fp32 s d a b m true false
  | .cvtDS d a => fp1 fp32 s d a fun x => fp64.round 0 (fp32.decode x)
  | .cvtSD d a m => fp1 fp64 s d a fun x => fp32.round m.toNat (fp64.decode x)
  | .cvtDI64 d a m => some (d, word (fp64.ofInt m.toNat (s.rd a).toInt).1, (fp64.ofInt m.toNat (s.rd a).toInt).2)
  | .cvtDN64 d a m => some (d, word (fp64.ofInt m.toNat (s.rd a).toNat).1, (fp64.ofInt m.toNat (s.rd a).toNat).2)
  | .cvtSI64 d a m => some (d, word (fp32.ofInt m.toNat (s.rd a).toInt).1, (fp32.ofInt m.toNat (s.rd a).toInt).2)
  | .cvtSN64 d a m => some (d, word (fp32.ofInt m.toNat (s.rd a).toNat).1, (fp32.ofInt m.toNat (s.rd a).toNat).2)
  | .cvtI64D d a m => fp1 fp64 s d a fun x => toIntType m.toNat false true 64 (fp64.decode x)
  | .cvtN64D d a m => fp1 fp64 s d a fun x => toIntType m.toNat false false 64 (fp64.decode x)
  | .cvtI64S d a m => fp1 fp32 s d a fun x => toIntType m.toNat false true 64 (fp32.decode x)
  | .cvtN64S d a m => fp1 fp32 s d a fun x => toIntType m.toNat false false 64 (fp32.decode x)
  | .fcmpEqD d a b => fp2 fp64 s d a b (compares fp64 (fun x y => x.same y) false)
  | .fcmpLtD d a b => fp2 fp64 s d a b (compares fp64 (fun x y => x.below y) true)
  | .fcmpLeD d a b => fp2 fp64 s d a b (compares fp64 (fun x y => !y.below x) true)
  | .fkindD d a => some (d, word (2 ^ fp64.classOf (fin fp64 s a)), 0)
  | .fcmpEqS d a b => fp2 fp32 s d a b (compares fp32 (fun x y => x.same y) false)
  | .fcmpLtS d a b => fp2 fp32 s d a b (compares fp32 (fun x y => x.below y) true)
  | .fcmpLeS d a b => fp2 fp32 s d a b (compares fp32 (fun x y => !y.below x) true)
  | .fkindS d a => some (d, word (2 ^ fp32.classOf (fin fp32 s a)), 0)
  | _ => none

/-- No flag of a result has its trap enabled (03 R75). -/
def untrapped (s : State) (r : Nat × Flags) : Prop := r.2 &&& s.th.fr.copy.traps = 0

/-- The state after a word at the front that writes a result with its flags to s[d] and goes on in sequence. -/
def written (s : State) (d : RegNo) (r : Nat × Flags) : State := (s.wrFlags d (word r.1) r.2).seqNext 4

/-- A word at the front that writes x to s[d] and raises fl: s0 takes nothing, every other register stays, the flags join vxflags
or, behind a word that can still fault, stay in the history buffer, the front goes on in sequence, and nothing else changes. -/
structure RegisterWord (s t : State) (d : RegNo) (x : Word) (fl : Flags) : Prop where
  result : d ≠ 0 → t.rd d = x
  others : ∀ r, r ≠ d → t.rd r = s.rd r
  pc : t.th.fr.spc = (s.arrive (s.th.fr.spc + 4)).2
  loops : t.th.fr.regs = (s.arrive (s.th.fr.spc + 4)).1.th.fr.regs
  flags : t.th.ln.flags = if s.unsafeOlder then s.th.ln.flags else s.th.ln.flags ||| fl
  history : s.unsafeOlder = false → t.th.fr.hist = s.th.fr.hist
  frame : (t.onFr fun f => { f with s := s.th.fr.s, spc := s.th.fr.spc, regs := s.th.fr.regs, hist := s.th.fr.hist }).onLn
    (fun l => { l with flags := s.th.ln.flags }) = s

/-- The same in a lane: the lane's element of v[d], no other lane's, and the lane's PC. -/
structure LaneRegisterWord (s t : State) (j : Nat) (d : RegNo) (x : Word) (fl : Flags) : Prop where
  result : d ≠ 0 → t.rd d = x
  others : ∀ r, r ≠ d → t.rd r = s.rd r
  lanes : ∀ r k, k ≠ j → elemAt (vecGet t.th.ln.v r 0) 64 k = elemAt (vecGet s.th.ln.v r 0) 64 k
  pc : t.th.fr.spc = s.th.fr.spc + 4
  flags : t.th.ln.flags = s.th.ln.flags ||| fl
  frame : (t.onFr fun f => { f with spc := s.th.fr.spc }).onLn (fun l => { l with v := s.th.ln.v, flags := s.th.ln.flags }) = s

/-- The loads of Table 3.6: bytes, extension, destination, base and offset. -/
def loadForm : Instr → Option (Nat × (Nat → Word) × RegNo × RegNo × BitVec 13)
  | .ldI8 d a k => some (1, fun x => (BitVec.ofNat 8 x).signExtend 64, d, a, k)
  | .ldI16 d a k => some (2, fun x => (BitVec.ofNat 16 x).signExtend 64, d, a, k)
  | .ldI32 d a k => some (4, fun x => (BitVec.ofNat 32 x).signExtend 64, d, a, k)
  | .ldI64 d a k => some (8, BitVec.ofNat 64, d, a, k)
  | .ldN8 d a k => some (1, BitVec.ofNat 64, d, a, k)
  | .ldN16 d a k => some (2, BitVec.ofNat 64, d, a, k)
  | .ldN32 d a k => some (4, BitVec.ofNat 64, d, a, k)
  | _ => none

/-- The stores of Table 3.6: bytes, base, source and offset. -/
def storeForm : Instr → Option (Nat × RegNo × RegNo × BitVec 13)
  | .stI8 a b k => some (1, a, b, k)
  | .stI16 a b k => some (2, a, b, k)
  | .stI32 a b k => some (4, a, b, k)
  | .stI64 a b k => some (8, a, b, k)
  | _ => none

/-- n bytes at a physical address lie in the HBM of a die, outside every format window. -/
def PlainHbm (s : State) (pa n : Nat) : Prop := pa + n ≤ 2 ^ 40 ∧ pa % 2 ^ 38 + n ≤ 2 ^ 37 ∧ s.unc.fmtWins = []

/-- n bytes at a physical address are the n cells of HBM or shared store from c on, with no format window about. -/
def Cells (s : State) (pa n c : Nat) : Prop := s.unc.fmtWins = [] ∧ ∀ k < n, s.target s.th.bind.ctx (pa + k) = .cell (c + k)

/-- Nothing of the front stands before memory: an empty store queue, no strip entry, no cached line. -/
def NoBuffers (s : State) : Prop :=
  s.th.fr.storeQ = [] ∧ s.th.st.entries = [] ∧ s.th.st.parked = [] ∧ s.unc.dcache = []

end Sys2Proof.Claims

namespace Sys2Proof.Claims

open Sys2Proof.Machine

/-! ### Control flow -/

/-- The direct branches of R81 and R82: whether taken, the target P + Sext(imm) × 4, and whether s1 takes P + 4. -/
def branchForm (s : State) : Instr → Option (Bool × Word × Bool)
  | .b k => some (true, s.th.fr.spc + (k.signExtend 64 <<< 2), false)
  | .call k => some (true, s.th.fr.spc + (k.signExtend 64 <<< 2), true)
  | .bcEq a b k => some (decide (s.rd a = s.rd b), s.th.fr.spc + (k.signExtend 64 <<< 2), false)
  | .bcNe a b k => some (decide (s.rd a ≠ s.rd b), s.th.fr.spc + (k.signExtend 64 <<< 2), false)
  | .bcLt a b k => some (decide ((s.rd a).toInt < (s.rd b).toInt), s.th.fr.spc + (k.signExtend 64 <<< 2), false)
  | .bcGe a b k => some (decide ((s.rd b).toInt ≤ (s.rd a).toInt), s.th.fr.spc + (k.signExtend 64 <<< 2), false)
  | .bcLtn a b k => some (decide ((s.rd a).toNat < (s.rd b).toNat), s.th.fr.spc + (k.signExtend 64 <<< 2), false)
  | .bcGen a b k => some (decide ((s.rd b).toNat ≤ (s.rd a).toNat), s.th.fr.spc + (k.signExtend 64 <<< 2), false)
  | _ => none

/-- The indirect branches of R84: the register, the landing pad's word, and whether s1 takes P + 4. -/
def indirectForm : Instr → Option (RegNo × Nat × Bool)
  | .calli a => some (a, 0x70000004, true)
  | .jmpi a => some (a, 0x70000005, false)
  | .ret a => some (a, 0x70000006, false)
  | _ => none

/-- A front that raises a cause at its own address, with no older word in the VIQ (03 R64). -/
def faultsHere (s : State) (c : ExcCause) : State := s.takeException c noIndex s.th.fr.spc s.th.fr.spc 0 false

/-- Whether R96 lets a lane run a word: the integer, floating-point, load, store and branch words, nop, the landing pads and ljoin. -/
def laneLegal (s : State) (i : Instr) : Bool :=
  (intResult s i).isSome || (fpResult s i).isSome || (loadForm i).isSome || (storeForm i).isSome || (branchForm s i).isSome
    || (indirectForm i).isSome || i ∈ [Instr.nop, .lpadC, .lpadJ, .lpadR, .ljoin]

/-- What the slots of smbc that name register r add for a strip of vl elements (04 R94). -/
def slotsAdd (c : Word) (vl : Nat) (r : RegNo) : Word :=
  ((List.range 4).map fun j => if smbSize c j ≠ 0 ∧ smbReg c j = r then word (vl * 2 ^ (smbSize c j - 1)) else 0).sum

/-- A prompt model with nothing in flight: the VIQ, the history buffer and the store queue are empty, no convoy is open, and the front
runs no lane (log 6). -/
structure Idle (s : State) : Prop where
  prompt : s.prompt = true
  viq : s.th.fr.viq = []
  stepq : s.th.fr.stepq = none
  hist : s.th.fr.hist = []
  storeQ : s.th.fr.storeQ = []
  chain : s.th.fr.chainOpen = false
  lane : s.th.fr.curLane = none

end Sys2Proof.Claims

namespace Sys2Proof.Claims

open Sys2Proof.Machine

/-! ### Control registers -/

/-- A Boolean as a bit. -/
def bit (b : Bool) : Nat := if b then 1 else 0

/-- The registers of Table 2.8 that the front holds, or that are read at once, by number and value (02 R48; 03 Table 3.7). -/
def frontTable (s : State) : List (Nat × Word) :=
  let r := s.th.fr.regs
  [(0x012, r.sbase), (0x015, r.smbc), (0x040, vecGet r.zs 0 0), (0x041, vecGet r.ze 0 0), (0x042, vecGet r.zc 0 0),
   (0x043, vecGet r.zs 1 0), (0x044, vecGet r.ze 1 0), (0x045, vecGet r.zc 1 0), (0x072, r.ptag), (0x0A0, s.gtime), (0x0A1, r.dline),
   (0x0B0, word (Config.fverCap * 2 ^ 32 + min 65535 (Config.fverFw + r.fverUp) * 2 ^ 16 + r.fverGen.toNat)), (0x300, r.smplcfg),
   (0x301, word (r.lost.toNat * 2 ^ 32 + r.next.toNat)), (0x302, r.trccfg)]

/-- The lane registers of Table 2.8; those of the Truss read zero without its grant (02 R48; 01 R16). -/
def laneTable (s : State) : List (Nat × Word) :=
  let l := s.th.ln
  let t := fun (x : Word) => if s.th.bind.tg then x else 0
  [(0x010, word l.vl), (0x011, word l.vtype.toNat),
   (0x013, word (s.th.st.early * 2 ^ 32 + s.th.st.fill * 2 ^ 16 + bit s.th.st.uncs * 4 + bit s.th.st.unc * 2 + bit s.th.st.isOpen)),
   (0x014, word l.efc.toNat), (0x016, word (l.traps.toNat * 256 + l.flags.toNat)), (0x050, t s.th.tr.mvl), (0x051, t (word s.th.tr.tm)),
   (0x052, t (word s.th.tr.tn)), (0x053, t (word s.th.tr.tk)), (0x054, t (word s.th.tr.mcfg.toNat)), (0x060, s.th.br.bcfg),
   (0x061, s.th.br.bstat), (0x071, l.win.cfg), (0x200, s.th.fab.cgrp), (0x201, s.th.fab.cop), (0x202, s.th.fab.cstride),
   (0x203, s.th.fab.cchunk)]

/-- The M-level registers (12 R355, Tables 12.2 and 12.3). -/
def mTable (s : State) : List (Nat × Word) :=
  let m := s.th.fr.m
  let b := s.th.bind
  [(0x800, word (bit m.preq.isSome * 16 + bit m.dbg * 8 + bit m.lane * 4 + bit m.pk * 2 + bit m.lvl)), (0x801, m.mcause), (0x802, m.mspc),
   (0x803, m.mvcp), (0x804, word (b.handler.toNat / 4 * 4)), (0x805, m.mindex),
   (0x806, word (b.slot * 2 ^ 42 + b.core * 2 ^ 36 + b.die * 2 ^ 34 + bit b.bg * 2 ^ 33 + bit b.tg * 2 ^ 32 + b.wc * 2 ^ 30
    + b.key * 2 ^ 20 + bit b.conf * 2 ^ 19 + b.res * 2 ^ 16 + b.ctx))]

/-- Registers that mtc leaves alone: read-only, or written by other words (00 R5; 03 R74). -/
def ignored : List Nat := [0x010, 0x011, 0x012, 0x015, 0x050, 0x051, 0x052, 0x053, 0x054, 0x061, 0x070, 0x071, 0x0A0, 0x0A1, 0x0B0, 0x204,
  0x208, 0x209, 0x20A, 0x20B, 0x20C, 0x20D, 0x20E, 0x20F, 0x301]

/-- Front registers that mtc writes whole, with their reserved bits (00 R5; 04 Tables 4.4 to 4.6; 12 R374, R376). -/
def frontWrites : List (Nat × Word) :=
  [(0x040, 3), (0x041, 3), (0x042, 0xFFFC000000000000), (0x043, 3), (0x044, 3), (0x045, 0xFFFC000000000000),
   (0x300, 0xFFFFFFFF000000FE), (0x302, 0xFFFFFFFFFFFFFFF0)]

/-- Lane registers that mtc writes whole, with their reserved bits (06 Table 6.9; 09 R248; 11 R335). -/
def laneWrites : List (Nat × Word) :=
  [(0x014, 0xFFFFFFFF00000000), (0x060, 0xFFFFFFFFFFFFFFFE), (0x200, 0xFFFFFFFFFFFFFFF0), (0x201, 0xFFFFFFFFFFFFFFF0), (0x202, 0), (0x203, 0)]

/-- The causes that go to the M handler where there is one (12 Table 12.1). -/
def toHandler (c : ExcCause) : Bool := c ≠ .pageFault && c ≠ .poison && c ≠ .machineCheck

/-- A thread that is alone in its launch as far as this package knows. -/
def Alone (s : State) : Prop := s.others = [] ∧ s.images = []

/-- The bytes of an image of entries with a pair: the header of Table 12.5, and of Table 12.6 what every word has (12 R361). -/
def ImageOf (t : Thread) (es : List VEntry) (vcp spc : Word) (b : List Byte) : Prop :=
  b.length = 128 + 64 * es.length ∧ bytesNat b 0 2 = es.length ∧ bytesNat b 2 1 = t.width % 256 ∧ bytesNat b 3 5 = 0 ∧
    bytesNat b 8 8 = vcp.toNat ∧ bytesNat b 16 8 = spc.toNat ∧ bytesNat b 24 8 = 0 ∧
    (∀ r < 64, bytesNat b (32 + r) 1 = vecGet t.ln.vprog r 0 % 256) ∧ (∀ r < 8, bytesNat b (96 + 2 * r) 2 = vecGet t.ln.mprog r 0 % 65536) ∧
    bytesNat b 112 16 = 0 ∧ ∀ k e, es[k]? = some e →
      let o := 128 + 64 * k
      bytesNat b o 8 = (if e.slot = .word then (packWide (BitVec.ofNat 7 e.op) e.w).toNat else e.half % 2 ^ 64) ∧
      bytesNat b (o + 8) 8 = e.addr.toNat ∧ bytesNat b (o + 16) 8 = e.sc.toNat ∧ bytesNat b (o + 24) 8 = e.sb.toNat ∧
      bytesNat b (o + 32) 2 = e.vl % 65536 ∧ bytesNat b (o + 34) 2 = e.vtype.toNat ∧ bytesNat b (o + 36) 2 = e.prog % 65536 ∧
      bytesNat b (o + 38) 1 =
        bit (!e.joined) + 2 * bit ((es[k + 1]?).any fun n => n.joined) + 4 * bit e.issued + 8 * bit (e.pipe = .none) ∧
      bytesNat b (o + 39) 1 = 0 ∧ bytesNat b (o + 40) 8 = e.seq % 2 ^ 64

/-- Entries and indices that an image gives (12 R361, Tables 12.5 and 12.6). -/
def ReadFrom (b : List Byte) (r : List VEntry × Vector Nat 64 × Vector Nat 8) : Prop :=
  r.1.length = bytesNat b 0 2 ∧ 1 ≤ r.1.length ∧ r.1.length ≤ 64 ∧ (∀ n < 64, vecGet r.2.1 n 0 = bytesNat b (32 + n) 1) ∧
    (∀ n < 8, vecGet r.2.2 n 0 = bytesNat b (96 + 2 * n) 2) ∧ ∀ k e, r.1[k]? = some e →
      let o := 128 + 64 * k
      e.addr.toNat = bytesNat b (o + 8) 8 ∧ e.sb.toNat = bytesNat b (o + 24) 8 ∧ e.vl = bytesNat b (o + 32) 2 ∧
      e.vtype.toNat = bytesNat b (o + 34) 2 ∧ e.prog = bytesNat b (o + 36) 2 ∧ e.joined = !(bytesNat b (o + 38) 1).testBit 0 ∧
      e.issued = (bytesNat b (o + 38) 1).testBit 2 ∧ e.seq = bytesNat b (o + 40) 8 ∧
      (e.slot = .word → e.sc.toNat = bytesNat b (o + 16) 8 ∧
        unpackWide (BitVec.ofNat 64 (bytesNat b o 8)) = some (BitVec.ofNat 7 e.op, e.w))

end Sys2Proof.Claims

namespace Sys2Proof.Claims

open Sys2Proof.Machine

/-! ### Words of the VIQ -/

/-- The entry of a word as the lanes of an idle thread issue it: the scalars it carries, its vl and its vtype (02 R40; 03 R56; 05 R107,
R108; 10 R297). -/
def entry (s : State) (op : Nat) (w : VWord) : VEntry :=
  let after := (s.arrive (s.th.fr.spc + 8)).2
  { seq := s.th.fr.seq + 1, addr := s.th.fr.spc, after := after, op := op, w := w, slot := .word, sc := s.rd w.vc, sb := s.rd w.vb,
    x0 := if op = 0x69 ∨ op = 0x70 ∨ op = 0x73 then s.rd w.va else 0, x1 := if op = 0x69 then s.rd w.vd else 0,
    x2 := if op = 0x69 then s.rd (w.vb + 1) else 0, vl := s.th.fr.copy.vl, vtype := s.th.ln.vtype, first := true, joined := false,
    issued := true, prog := 0, safe := false, complete := false, sampled := false, issuedAt := (after, s.th.fr.spc), atM := false,
    range := none, unit := 0, held := [], lines := [], active := 0, half := 0, zcs := if op = 0x73 then some s.th.fr.regs.zc else none }

/-- A thread at U of a prompt model that has nothing in flight, and a word with C clear whose checks of R43 and R44 pass; its vl is one
that setvl can grant, no register byte is marked, and sampling is off (02 R43, R44; 05 R107; 12 R375; 14 R421). -/
structure Sendable (s : State) (op : Nat) (w : VWord) : Prop where
  idle : Idle s
  atU : s.th.fr.m.lvl = false
  width : s.th.bind.wc ≤ 2
  alone : w.chain = false
  sent : s.threadOk op w = true
  issues : s.issueOk (entry s op w) = true
  vl : s.th.fr.copy.vl ≤ s.width * 8192
  marks : s.th.ln.bad = []
  samples : s.th.fr.regs.smplcfg.getLsbD 0 = false ∧ s.th.fr.regs.mark = false

/-- The same with no stream bound (11 R338). -/
structure Ready (s : State) (op : Nat) (w : VWord) : Prop extends Sendable s op w where
  streams : ∀ n, (vecGet s.th.fab.fs n .reset).bound = false

/-- The front after a word of the VIQ that it has sent and that has run: it goes on in sequence. -/
def frontAfter (s : State) : Front :=
  { s.th.fr with spc := (s.arrive (s.th.fr.spc + 8)).2, regs := (s.arrive (s.th.fr.spc + 8)).1.th.fr.regs, seq := s.th.fr.seq + 1 }

/-- The thread's counters after one vector word (12 Table 12.13). -/
def countAfter (s : State) : Vector Word 41 := vecSet s.th.cnt 39 (vecGet s.th.cnt 39 0 + 1)

/-- A word that ran in the lanes and changed no more than the front's place, the count of words and the lane registers. -/
structure LanesOnly (s t : State) : Prop where
  front : t.th.fr = frontAfter s
  count : t.th.cnt = countAfter s
  rest : { t with th := { t.th with fr := s.th.fr, ln := s.th.ln, cnt := s.th.cnt } } = s

/-! #### Operands -/

/-- Bits of an element of a word (05 R105; 06 R140). -/
def eb (s : State) (w : VWord) : Nat := s.th.ln.bits (vtFsel s.th.ln.vtype) w.ety

/-- The format of a floating-point word (06 Table 6.2, R139). -/
def ef (s : State) (w : VWord) : Fmt := s.th.ln.fp (vtFsel s.th.ln.vtype) w.ety

/-- The code that b bits hold: type 14 ignores the bits above its format (06 R140). -/
def codeOf (s : State) (w : VWord) (x : Nat) : Nat := if w.ety = .fmt then x % 2 ^ (ef s w).width else x

/-- Element i of register r. -/
def elt (s : State) (w : VWord) (r : RegNo) (i : Nat) : Nat := codeOf s w (elemAt (vecGet s.th.ln.v r.toNat 0) (eb s w) i)

/-- Element i of a register operand, replicated where rsel names it: unit ridx of 4^rsz elements (02 R42). -/
def src (s : State) (w : VWord) (sel : RSel) (r : RegNo) (i : Nat) : Nat :=
  elt s w r (if w.rsel = sel then w.ridx.toNat * 4 ^ w.rsz.toNat + i % 4 ^ w.rsz.toNat else i)

/-- Operand A: v[va] (02 R40). -/
def srcA (s : State) (w : VWord) (i : Nat) : Nat := src s w .a w.va i

/-- Operand B: v[vb], the low bits of s[vc], or imm12 in the word's type (02 R40, R41). -/
def srcB (s : State) (w : VWord) (i : Nat) : Nat :=
  match w.form with
  | .vv => src s w .b w.vb i
  | .vs => codeOf s w ((s.rd w.vc).toNat % 2 ^ eb s w)
  | .vi => if w.ety.isFp then ((ef s w).ofInt 0 w.fn.toInt).1 else (w.fn.toInt % (2 ^ eb s w : Nat)).toNat

/-- Operand C: v[vc], or v[vb] in VS form (02 R40). -/
def srcC (s : State) (w : VWord) (i : Nat) : Nat := match w.form with | .vv => src s w .c w.vc i | _ => elt s w w.vb i

/-- The old element i of the destination. -/
def old (s : State) (w : VWord) (i : Nat) : Nat := elt s w w.vd i

/-- An element as an integer of the word's type. -/
def num (s : State) (w : VWord) (x : Nat) : Int :=
  if w.ety.isSignedInt ∧ 2 ^ (eb s w - 1) ≤ x then x - (2 ^ eb s w : Nat) else x

/-- Active elements: all, or those whose bit of m[mask] is 1 (02 R38). -/
def active (s : State) (w : VWord) (i : Nat) : Bool := w.mask = 0 || (vecGet s.th.ln.m w.mask.toNat 0).toNat.testBit i

/-! #### Element words -/

/-- A word that gives elements i < n of v[vd], of `bits` bits: `at i` where `act i` holds, else zero under `zeros` and nothing without
it; `checks` are the conditions of its own entry; `efc` is what it leaves in efc. -/
structure EltForm where
  op : Nat
  w : VWord
  bits : Nat
  n : Nat
  act : Nat → Bool
  zeros : Bool
  at_ : Nat → Elt
  checks : Bool
  efc : BitVec 32

/-- The plain form: one result for each active element in the word's own type (05 R115, R122). -/
def plain (s : State) (op : Nat) (w : VWord) (f : Nat → Elt) : EltForm :=
  { op := op, w := w, bits := eb s w, n := s.th.fr.copy.vl, act := active s w, zeros := vtMp s.th.ln.vtype, at_ := f, checks := true,
    efc := s.th.ln.efc }

/-- No active element raises a flag whose trap is enabled in vxflags (05 R123). -/
def EltForm.quiet (f : EltForm) (s : State) : Prop := ∀ i < f.n, f.act i = true → (f.at_ i).2 &&& s.th.ln.traps = 0

/-- The flags that the active elements raise. -/
def EltForm.flags (f : EltForm) : Flags := orFlags (fun i => if f.act i then (f.at_ i).2 else 0) 0 f.n

/-- What an element word leaves: the elements of R115, its progress complete, its flags in vxflags, and nothing else. -/
structure ElementWord (s t : State) (f : EltForm) : Prop where
  frame : LanesOnly s t
  lanes : ∃ x : VReg, t.th.ln = { s.th.ln with v := vecSet s.th.ln.v f.w.vd.toNat x,
                                               vprog := vecSet s.th.ln.vprog f.w.vd.toNat 64, flags := s.th.ln.flags ||| f.flags,
                                               efc := f.efc } ∧
    ∀ i, elemAt x f.bits i =
      if i < f.n ∧ f.act i then (f.at_ i).1 % 2 ^ f.bits
      else if i < f.n ∧ f.zeros then 0
      else elemAt (vecGet s.th.ln.v f.w.vd.toNat 0) f.bits i

/-- An integer form of two operands, wrapped to the element (05 R124). -/
def int2 (s : State) (op : Nat) (w : VWord) (f : Int → Int → Int) : EltForm :=
  plain s op w fun i => ((f (num s w (srcA s w i)) (num s w (srcB s w i)) % (2 ^ eb s w : Nat)).toNat, 0)

/-- A saturating form: clamped to the type, with SAT where it is clamped (02 R38; 05 Table 5.7). -/
def sat2 (s : State) (op : Nat) (w : VWord) (f : Int → Int → Int) : EltForm :=
  plain s op w fun i =>
    let x := f (num s w (srcA s w i)) (num s w (srcB s w i))
    let hi : Int := if w.ety.isSignedInt then 2 ^ (eb s w - 1) - 1 else 2 ^ eb s w - 1
    let lo : Int := if w.ety.isSignedInt then -(2 ^ (eb s w - 1)) else 0
    ((max lo (min hi x) % (2 ^ eb s w : Nat)).toNat, if x < lo ∨ hi < x then fSAT else 0)

/-- A form on the bits of two operands (05 R124). -/
def bit2 (s : State) (op : Nat) (w : VWord) (f : Nat → Nat → Nat) : EltForm := plain s op w fun i => (f (srcA s w i) (srcB s w i), 0)

/-- The integer words and the moves (05 Tables 5.7, 5.10): k is B modulo the width. -/
def integerForm (s : State) : Instr → Option EltForm
  | .vadd w => some (int2 s 0x00 w fun a b => a + b)
  | .vsub w => some (int2 s 0x00 w fun a b => a - b)
  | .vrsub w => some (int2 s 0x00 w fun a b => b - a)
  | .vmul w => some (int2 s 0x01 w fun a b => a * b)
  | .vmulh w => some (int2 s 0x01 w fun a b => a * b / (2 ^ eb s w : Nat))
  | .vmacc w => some (plain s 0x01 w fun i =>
      (((num s w (old s w i) + num s w (srcA s w i) * num s w (srcB s w i)) % (2 ^ eb s w : Nat)).toNat, 0))
  | .vsadd w => some (sat2 s 0x02 w fun a b => a + b)
  | .vssub w => some (sat2 s 0x02 w fun a b => a - b)
  | .vsmul w => some (sat2 s 0x02 w fun a b => a * b)
  | .vsll w => some (bit2 s 0x03 w fun a b => a * 2 ^ (b % eb s w))
  | .vsrl w => some (bit2 s 0x03 w fun a b => a / 2 ^ (b % eb s w))
  | .vsra w => some (plain s 0x03 w fun i =>
      let a : Int := if 2 ^ (eb s w - 1) ≤ srcA s w i then srcA s w i - (2 ^ eb s w : Nat) else srcA s w i
      ((a / (2 ^ (srcB s w i % eb s w) : Nat) % (2 ^ eb s w : Nat)).toNat, 0))
  | .vror w => some (bit2 s 0x03 w fun a b => a / 2 ^ (b % eb s w) + a * 2 ^ (eb s w - b % eb s w))
  | .vand w => some (bit2 s 0x04 w fun a b => a &&& b)
  | .vor w => some (bit2 s 0x04 w fun a b => a ||| b)
  | .vxor w => some (bit2 s 0x04 w fun a b => a ^^^ b)
  | .vandn w => some (bit2 s 0x04 w fun a b => a &&& (2 ^ eb s w - 1 - b))
  | .vmin w => some (int2 s 0x05 w min)
  | .vmax w => some (int2 s 0x05 w max)
  | .vabs w => some (int2 s 0x05 w fun a _ => |a|)
  | .vbcast w => some (plain s 0x09 w fun i => (srcB s w i, 0))
  | .vmv w => some (plain s 0x09 w fun i => (srcA s w i, 0))
  | .vsel w => some { plain s 0x08 w fun i => (if (vecGet s.th.ln.m w.mask.toNat 0).toNat.testBit i then srcA s w i else srcB s w i, 0)
                      with act := fun _ => true }
  | .vmvsV w => some { plain s 0x09 w fun _ => (codeOf s w ((s.rd w.vc).toNat % 2 ^ eb s w), 0) with act := fun _ => true, n := 1 }
  | _ => none

/-- A floating-point form of two operands: the operation's code and flags in mode FRM (05 R129; 06 R162). -/
def fop2 (s : State) (op : Nat) (w : VWord) (f : Fmt → Nat → Nat → Nat → Elt) : EltForm :=
  plain s op w fun i => f (ef s w) (vtFrm s.th.ln.vtype) (srcA s w i) (srcB s w i)

/-- A fused form ±(a × b) ± c, rounded once. -/
def fused3 (s : State) (op : Nat) (w : VWord) (np nc : Bool) (c : Nat → Nat) : EltForm :=
  plain s op w fun i => (ef s w).fma (vtFrm s.th.ln.vtype) np nc (srcA s w i) (srcB s w i) (c i)

/-- A sign form: only on a format with a sign bit (05 R129). -/
def sign2 (s : State) (w : VWord) (f : Fmt → Nat → Nat → Bool) : EltForm :=
  { plain s 0x22 w fun i => ((ef s w).withSign (srcA s w i) (f (ef s w) (srcA s w i) (srcB s w i)), 0) with checks := (ef s w).sgn }

/-- The block scale of element i of vscale: unit i / block of v[vb], of 8 or 16 bits, or the scalar (06 R159). -/
def scaleOf (s : State) (w : VWord) (i : Nat) : Nat :=
  let fn := w.fn.toNat
  let block := match fn / 2 % 4 with | 0 => 32 | 1 => 16 | 2 => 8 | _ => 1
  match w.form with
  | .vv => elemAt (vecGet s.th.ln.v w.vb.toNat 0) (if fn / 8 % 2 = 1 then 8 else 16)
      (if w.rsel = .b then w.ridx.toNat * 4 ^ w.rsz.toNat + i / block % 4 ^ w.rsz.toNat else i / block)
  | _ => (s.rd w.vc).toNat

/-- A scaled form (06 R159). -/
def scaled (s : State) (w : VWord) (dv : Bool) : EltForm :=
  plain s 0x3B w fun i => (ef s w).scale (vtFrm s.th.ln.vtype) dv (w.fn.toNat / 8 % 2) (scaleOf s w i) (srcA s w i)

/-- The floating-point words (05 Table 5.11; 06 R159, R162). -/
def floatForm (s : State) : Instr → Option EltForm
  | .vfadd w => some (fop2 s 0x20 w Fmt.add)
  | .vfsub w => some (fop2 s 0x20 w Fmt.sub)
  | .vfmul w => some (fop2 s 0x20 w Fmt.mul)
  | .vfmadd w => some (fused3 s 0x21 w false false (srcC s w))
  | .vfmsub w => some (fused3 s 0x21 w false true (srcC s w))
  | .vfnmadd w => some (fused3 s 0x21 w true true (srcC s w))
  | .vfnmsub w => some (fused3 s 0x21 w true false (srcC s w))
  | .vfmacc w => some (fused3 s 0x21 w false false (old s w))
  | .vfmin w => some (fop2 s 0x22 w fun f _ => f.minMax true)
  | .vfmax w => some (fop2 s 0x22 w fun f _ => f.minMax false)
  | .vfabs w => some (sign2 s w fun _ _ _ => false)
  | .vfneg w => some (sign2 s w fun f a _ => !f.negCode a)
  | .vfsignC w => some (sign2 s w fun f _ b => f.negCode b)
  | .vfsignN w => some (sign2 s w fun f _ b => !f.negCode b)
  | .vfsignX w => some (sign2 s w fun f a b => f.negCode a != f.negCode b)
  | .vdiv w => some (fop2 s 0x3D w Fmt.div)
  | .vrdiv w => some (fop2 s 0x3D w fun f m a b => f.div m b a)
  | .vsqrt w => some (fop2 s 0x3D w fun f m a _ => f.sqrt m a)
  | .vrsq w => some (fop2 s 0x3D w fun f m a _ => f.rsq m a)
  | .vscaleMul w => some (scaled s w false)
  | .vscaleDiv w => some (scaled s w true)
  | _ => none

/-! #### Conversions -/

/-- One element converted from type `a` to type `d` in a rounding mode: exact values are rounded or clamped once (06 R148, R152). -/
def converted (s : State) (mode : Nat) (sat : Bool) (a d : EType) (x : Nat) : Elt :=
  let l := s.th.ln
  let fs := vtFsel l.vtype
  let n : Int := if a.isSignedInt ∧ 2 ^ (l.bits fs a - 1) ≤ x then x - (2 ^ l.bits fs a : Nat) else x
  let top : Int := if d.isSignedInt then 2 ^ (l.bits fs d - 1) - 1 else 2 ^ l.bits fs d - 1
  let low : Int := if d.isSignedInt then -(2 ^ (l.bits fs d - 1)) else 0
  match a.isFp, d.isFp with
  | true, true => (l.fp fs d).round mode ((l.fp fs a).decode x)
  | true, false => toIntType mode sat d.isSignedInt (l.bits fs d) ((l.fp fs a).decode x)
  | false, true => (l.fp fs d).ofInt mode n
  | false, false =>
    if sat then ((max low (min top n) % (2 ^ l.bits fs d : Nat)).toNat, if n < low ∨ top < n then fSAT else 0)
    else ((n % (2 ^ l.bits fs d : Nat)).toNat, 0)

/-- The residuals that vcvt.ef carries from active element to active element, from efc.RES (06 R155). -/
def residual (s : State) (w : VWord) (d : Fmt) : Nat → Nat
  | 0 => s.th.ln.efc.toNat
  | i + 1 => if active s w i then (efStep (ef s w) d (residual s w d i) (srcA s w i)).1 else residual s w d i

/-- The low n bits of an element, or clamped to n bits of its type, with SAT where it is clamped (06 R158). -/
def packed (s : State) (w : VWord) (n x : Nat) : Elt :=
  let top : Int := if w.ety.isSignedInt then 2 ^ (n - 1) - 1 else 2 ^ n - 1
  let low : Int := if w.ety.isSignedInt then -(2 ^ (n - 1)) else 0
  if w.ety = .fmt ∨ w.fn.toNat / 16 % 2 = 0 then (x, 0)
  else ((max low (min top (num s w x)) % (2 ^ n : Nat)).toNat, if num s w x < low ∨ top < num s w x then fSAT else 0)

/-- What pack and unpack ask: vl within the register of containers, and a format's own width (06 R158). -/
def packChecks (s : State) (w : VWord) : Bool :=
  s.th.fr.copy.vl ≤ vlmax s.width (eb s w) && (w.ety ≠ .fmt ||
    (decide (fmtField (s.th.ln.fmtWord (vtFsel s.th.ln.vtype)) 0 4 = w.fn.toNat % 16) && decide (w.fn.toNat % 16 < eb s w)))

/-- The conversion words (06 R151 to R158). -/
def convertForm (s : State) : Instr → Option EltForm
  | .vcvt w =>
    (EType.ofCode (w.fn.toNat % 16)).map fun d =>
      let fs := vtFsel s.th.ln.vtype
      let bd := s.th.ln.bits fs d
      let rm := w.fn.toNat / 16 % 8
      { plain s 0x38 w fun i => converted s (if rm = 0 then vtFrm s.th.ln.vtype else rm - 1) (w.fn.toNat / 128 % 2 = 1) w.ety d (srcA s w i)
        with bits := bd, checks := s.th.ln.typeOk fs d && decide (s.th.fr.copy.vl ≤ vlmax s.width (max (eb s w) bd))
                                     && (w.vd ≠ w.va || bd ≤ eb s w) }
  | .vcvtEf w =>
    (EType.ofCode (w.fn.toNat % 16)).map fun d =>
      let fs := vtFsel s.th.ln.vtype
      let f := s.th.ln.fp fs d
      { plain s 0x39 w fun i => (efStep (ef s w) f (residual s w f i) (srcA s w i)).2
        with bits := s.th.ln.bits fs d, efc := BitVec.ofNat 32 (residual s w f s.th.fr.copy.vl),
             checks := s.th.ln.typeOk fs d && decide (s.th.fr.copy.vl ≤ vlmax s.width (eb s w)) && (d ≠ .fmt || !beyondFp32 f) }
  | .vpack w => some { plain s 0x3A w fun i => packed s w (w.fn.toNat % 16) (srcA s w i) with
      bits := w.fn.toNat % 16, act := fun _ => true, checks := packChecks s w }
  | .vunpack w => some { plain s 0x3A w fun i =>
        let x := elemAt (vecGet s.th.ln.v w.va.toNat 0) (w.fn.toNat % 16)
          (if w.rsel = .a then w.ridx.toNat * 4 ^ w.rsz.toNat + i % 4 ^ w.rsz.toNat else i)
        (if w.ety = .i8 ∧ 2 ^ (w.fn.toNat % 16 - 1) ≤ x then x + 2 ^ eb s w - 2 ^ (w.fn.toNat % 16) else x, 0) with
      act := fun _ => true, checks := packChecks s w }
  | _ => none

/-! #### Reductions, scans and permutes -/

/-- The ordered fold of the active elements below n, from element 0 of B (05 R130). -/
def folded (s : State) (op : Nat) (w : VWord) (f : RedOp) (n : Nat) : Elt :=
  ((List.range n).filter (active s w)).foldl (fun a i =>
    let r := s.redOp (entry s op w) f a.1 (srcA s w i); (r.1, a.2 ||| r.2)) (srcB s w 0, 0)

/-- One level of the tree: neighbours are joined, a missing one leaves the other (05 R130). -/
def joinPairs (f : Nat → Nat → Elt) : List (Option Elt) → List (Option Elt)
  | some x :: some y :: zs => some ((f x.1 y.1).1, x.2 ||| y.2 ||| (f x.1 y.1).2) :: joinPairs f zs
  | some x :: none :: zs => some x :: joinPairs f zs
  | none :: y :: zs => y :: joinPairs f zs
  | zs => zs

/-- k levels of the tree. -/
def treeLevels (f : Nat → Nat → Elt) : Nat → List (Option Elt) → List (Option Elt)
  | 0, xs => xs
  | k + 1, xs => treeLevels f k (joinPairs f xs)

/-- The balanced tree over the VLMAX elements, elements that are inactive or at or beyond vl missing, and then element 0 of B
(05 R130). -/
def treed (s : State) (op : Nat) (w : VWord) (f : RedOp) : Elt :=
  let m := vlmax s.width (eb s w)
  let g := s.redOp (entry s op w) f
  let leaves := (List.range m).map fun i => if i < s.th.fr.copy.vl ∧ active s w i then some (srcA s w i, (0 : Flags)) else none
  match treeLevels g (Nat.log2 m) leaves with
  | some x :: _ => ((g (srcB s w 0) x.1).1, x.2 ||| (g (srcB s w 0) x.1).2)
  | _ => (srcB s w 0, 0)

/-- A reduction: element 0 takes the result, whatever vl is. -/
def reduced (s : State) (op : Nat) (w : VWord) (r : Elt) : EltForm := { plain s op w fun _ => r with n := 1, act := fun _ => true }

/-- A scan: active element i takes the fold up to it, itself left out where exclusive (05 R131). -/
def scanned (s : State) (w : VWord) (f : RedOp) (excl : Bool) : EltForm :=
  plain s 0x32 w fun i =>
    ((folded s 0x32 w f (if excl then i else i + 1)).1, (s.redOp (entry s 0x32 w) f (folded s 0x32 w f i).1 (srcA s w i)).2)

/-- The reductions and scans (05 Table 5.12). -/
def foldForm (s : State) : Instr → Option EltForm
  | .vredoAdd w => some (reduced s 0x30 w (folded s 0x30 w .add s.th.fr.copy.vl))
  | .vredoMin w => some (reduced s 0x30 w (folded s 0x30 w .min s.th.fr.copy.vl))
  | .vredoMax w => some (reduced s 0x30 w (folded s 0x30 w .max s.th.fr.copy.vl))
  | .vredtAdd w => some (reduced s 0x31 w (treed s 0x31 w .add))
  | .vredtMin w => some (reduced s 0x31 w (treed s 0x31 w .min))
  | .vredtMax w => some (reduced s 0x31 w (treed s 0x31 w .max))
  | .vredtAnd w => some (reduced s 0x31 w (treed s 0x31 w .and))
  | .vredtOr w => some (reduced s 0x31 w (treed s 0x31 w .or))
  | .vredtXor w => some (reduced s 0x31 w (treed s 0x31 w .xor))
  | .vscanInAdd w => some (scanned s w .add false)
  | .vscanInMin w => some (scanned s w .min false)
  | .vscanInMax w => some (scanned s w .max false)
  | .vscanExAdd w => some (scanned s w .add true)
  | .vscanExMin w => some (scanned s w .min true)
  | .vscanExMax w => some (scanned s w .max true)
  | _ => none

/-- The distance or index that a slide or pick carries: s[vc], or imm12 (05 R132, R133). -/
def distance (s : State) (w : VWord) : Nat := match w.form with | .vi => w.fn.toNat | _ => (s.rd w.vc).toNat

/-- Element i of A, and 0 from VLMAX on. -/
def fromA (s : State) (w : VWord) (i : Nat) : Nat := if i < vlmax s.width (eb s w) then srcA s w i else 0

/-- The active elements below vl, in order. -/
def actives (s : State) (w : VWord) : List Nat := (List.range s.th.fr.copy.vl).filter (active s w)

/-- The permutes (05 R132 to R134). -/
def permuteForm (s : State) : Instr → Option EltForm
  | .vslipUp w => some (plain s 0x33 w fun i =>
      (if distance s w ≤ i then srcA s w (i - distance s w) else elemAt (vecGet s.th.ln.v w.vd.toNat 0) (eb s w) i, 0))
  | .vslipDn w => some (plain s 0x33 w fun i => (fromA s w (i + distance s w), 0))
  | .vslipUpin w => some (plain s 0x33 w fun i => (if i = 0 then srcB s w 0 else srcA s w (i - 1), 0))
  | .vslipDnin w => some (plain s 0x33 w fun i => (if i + 1 = s.th.fr.copy.vl then srcB s w 0 else srcA s w (i + 1), 0))
  | .vpick w => some (plain s 0x34 w fun i =>
      (fromA s w (if w.form = .vv then elemAt (vecGet s.th.ln.v w.vb.toNat 0) (eb s w) i else distance s w), 0))
  | .vcompress w => some { plain s 0x35 w fun j => (srcA s w ((actives s w).getD j 0), 0) with
      act := fun j => j < (actives s w).length, zeros := false }
  | .vexpand w => some (plain s 0x35 w fun i => (srcA s w ((List.range i).filter (active s w)).length, 0))
  | _ => none

/-! #### Masks and scalars -/

/-- A word that gives bits i < vl of m[md], and leaves the other bits. -/
structure MaskForm where
  op : Nat
  w : VWord
  act : Nat → Bool
  zeros : Bool
  at_ : Nat → Bool × Flags

/-- What a mask word leaves: its bits, its flags, and nothing else. -/
structure MaskWord (s t : State) (f : MaskForm) : Prop where
  frame : LanesOnly s t
  lanes : ∃ (x : MReg) (p : Nat), t.th.ln = { s.th.ln with
      m := vecSet s.th.ln.m f.w.vd.toNat x, mprog := vecSet s.th.ln.mprog f.w.vd.toNat p,
      flags := s.th.ln.flags ||| orFlags (fun i => if f.act i then (f.at_ i).2 else 0) 0 s.th.fr.copy.vl } ∧
    ∀ i, x.toNat.testBit i =
      if i < s.th.fr.copy.vl ∧ f.act i then (f.at_ i).1
      else if i < s.th.fr.copy.vl ∧ f.zeros then false
      else (vecGet s.th.ln.m f.w.vd.toNat 0).toNat.testBit i

/-- An integer compare (05 Table 5.8). -/
def compare2 (s : State) (w : VWord) (R : Int → Int → Bool) : MaskForm :=
  { op := 0x06, w := w, act := active s w, zeros := vtMp s.th.ln.vtype,
    at_ := fun i => (R (num s w (srcA s w i)) (num s w (srcB s w i)), 0) }

/-- A floating-point compare: with a NaN it gives `un`, and raises NV for a signalling NaN or, where `loud` holds, any (05 R125). -/
def fcompare2 (s : State) (w : VWord) (R : FVal → FVal → Bool) (un loud : Bool) : MaskForm :=
  { op := 0x23, w := w, act := active s w, zeros := vtMp s.th.ln.vtype,
    at_ := fun i =>
      let x := (ef s w).decode (srcA s w i)
      let y := (ef s w).decode (srcB s w i)
      if x.isNan ∨ y.isNan then (un, if loud ∨ x.isSig ∨ y.isSig then fNV else 0) else (R x y, 0) }

/-- A logic word on masks, over every i < vl (05 R126). -/
def logic2 (s : State) (w : VWord) (F : Bool → Bool → Bool) : MaskForm :=
  { op := 0x07, w := w, act := fun _ => true, zeros := false,
    at_ := fun i => (F ((vecGet s.th.ln.m w.va.toNat 0).toNat.testBit i) ((vecGet s.th.ln.m w.vb.toNat 0).toNat.testBit i), 0) }

/-- The words that write a mask (05 Tables 5.8, 5.9; 06 R160). -/
def maskForm (s : State) : Instr → Option MaskForm
  | .vcmpEq w => some (compare2 s w fun x y => x = y)
  | .vcmpNe w => some (compare2 s w fun x y => x ≠ y)
  | .vcmpLt w => some (compare2 s w fun x y => x < y)
  | .vcmpLe w => some (compare2 s w fun x y => x ≤ y)
  | .vcmpGt w => some (compare2 s w fun x y => y < x)
  | .vcmpGe w => some (compare2 s w fun x y => y ≤ x)
  | .vfcmpEq w => some (fcompare2 s w (fun x y => x.same y) false false)
  | .vfcmpNe w => some (fcompare2 s w (fun x y => !x.same y) true false)
  | .vfcmpLt w => some (fcompare2 s w (fun x y => x.below y) false true)
  | .vfcmpLe w => some (fcompare2 s w (fun x y => !y.below x) false true)
  | .vfcmpGt w => some (fcompare2 s w (fun x y => y.below x) false true)
  | .vfcmpGe w => some (fcompare2 s w (fun x y => !x.below y) false true)
  | .vfcmpUn w => some (fcompare2 s w (fun _ _ => false) true false)
  | .vfclass w => some {
      op := 0x3C, w := w, act := active s w, zeros := vtMp s.th.ln.vtype,
      at_ := fun i => (w.fn.toNat.testBit ((ef s w).classOf (srcA s w i)), 0) }
  | .mand w => some (logic2 s w fun a b => a && b)
  | .mor w => some (logic2 s w fun a b => a || b)
  | .mxor w => some (logic2 s w fun a b => a != b)
  | .mandn w => some (logic2 s w fun a b => a && !b)
  | .mnot w => some (logic2 s w fun a _ => !a)
  | _ => none

/-- The words of the lanes that give a scalar register, and what they give (05 R127, R128). -/
def scalarForm (s : State) : Instr → Option (Nat × VWord × Word)
  | .mpop w => some (0x07, w, word ((List.range s.th.fr.copy.vl).countP fun i => (vecGet s.th.ln.m w.va.toNat 0).toNat.testBit i))
  | .mfirst w => some (0x07, w,
      (((List.range s.th.fr.copy.vl).find? fun i => (vecGet s.th.ln.m w.va.toNat 0).toNat.testBit i).map word).getD (BitVec.allOnes 64))
  | .vmvsX w => some (0x09, w, BitVec.ofInt 64 (num s w (srcA s w 0)))
  | _ => none

end Sys2Proof.Claims

namespace Sys2Proof.Claims

open Sys2Proof.Machine

/-! ### Sending, traps and memory words -/

/-- The words of the VIQ with their majors (02 Table 2.7), and what the front has to do with each besides sending it: 0 nothing, 1 it waits for the
entry, 2 it waits for copies (cpw), 3 a part of its own. -/
def viqWord : Instr → Option (Nat × VWord × Nat)
  | .vadd w => some (0x00, w, 0)
  | .vsub w => some (0x00, w, 0)
  | .vrsub w => some (0x00, w, 0)
  | .vmul w => some (0x01, w, 0)
  | .vmulh w => some (0x01, w, 0)
  | .vmacc w => some (0x01, w, 0)
  | .vsadd w => some (0x02, w, 0)
  | .vssub w => some (0x02, w, 0)
  | .vsmul w => some (0x02, w, 0)
  | .vsll w => some (0x03, w, 0)
  | .vsrl w => some (0x03, w, 0)
  | .vsra w => some (0x03, w, 0)
  | .vror w => some (0x03, w, 0)
  | .vand w => some (0x04, w, 0)
  | .vor w => some (0x04, w, 0)
  | .vxor w => some (0x04, w, 0)
  | .vandn w => some (0x04, w, 0)
  | .vmin w => some (0x05, w, 0)
  | .vmax w => some (0x05, w, 0)
  | .vabs w => some (0x05, w, 0)
  | .vcmpEq w => some (0x06, w, 0)
  | .vfcmpEq w => some (0x23, w, 0)
  | .vcmpNe w => some (0x06, w, 0)
  | .vfcmpNe w => some (0x23, w, 0)
  | .vcmpLt w => some (0x06, w, 0)
  | .vfcmpLt w => some (0x23, w, 0)
  | .vcmpLe w => some (0x06, w, 0)
  | .vfcmpLe w => some (0x23, w, 0)
  | .vcmpGt w => some (0x06, w, 0)
  | .vfcmpGt w => some (0x23, w, 0)
  | .vcmpGe w => some (0x06, w, 0)
  | .vfcmpGe w => some (0x23, w, 0)
  | .vfcmpUn w => some (0x23, w, 0)
  | .mand w => some (0x07, w, 0)
  | .mor w => some (0x07, w, 0)
  | .mxor w => some (0x07, w, 0)
  | .mandn w => some (0x07, w, 0)
  | .mnot w => some (0x07, w, 0)
  | .mpop w => some (0x07, w, 1)
  | .mfirst w => some (0x07, w, 1)
  | .vsel w => some (0x08, w, 0)
  | .vbcast w => some (0x09, w, 0)
  | .vmv w => some (0x09, w, 0)
  | .vmvsV w => some (0x09, w, 0)
  | .vmvsX w => some (0x09, w, 1)
  | .vfadd w => some (0x20, w, 0)
  | .vfsub w => some (0x20, w, 0)
  | .vfmul w => some (0x20, w, 0)
  | .vfmadd w => some (0x21, w, 0)
  | .vfmsub w => some (0x21, w, 0)
  | .vfnmadd w => some (0x21, w, 0)
  | .vfnmsub w => some (0x21, w, 0)
  | .vfmacc w => some (0x21, w, 0)
  | .vfmin w => some (0x22, w, 0)
  | .vfmax w => some (0x22, w, 0)
  | .vfabs w => some (0x22, w, 0)
  | .vfneg w => some (0x22, w, 0)
  | .vfsignC w => some (0x22, w, 0)
  | .vfsignN w => some (0x22, w, 0)
  | .vfsignX w => some (0x22, w, 0)
  | .vredoAdd w => some (0x30, w, 0)
  | .vredoMin w => some (0x30, w, 0)
  | .vredoMax w => some (0x30, w, 0)
  | .vredtAdd w => some (0x31, w, 0)
  | .vredtMin w => some (0x31, w, 0)
  | .vredtMax w => some (0x31, w, 0)
  | .vredtAnd w => some (0x31, w, 0)
  | .vredtOr w => some (0x31, w, 0)
  | .vredtXor w => some (0x31, w, 0)
  | .vscanInAdd w => some (0x32, w, 0)
  | .vscanInMin w => some (0x32, w, 0)
  | .vscanInMax w => some (0x32, w, 0)
  | .vscanExAdd w => some (0x32, w, 0)
  | .vscanExMin w => some (0x32, w, 0)
  | .vscanExMax w => some (0x32, w, 0)
  | .vslipUp w => some (0x33, w, 0)
  | .vslipDn w => some (0x33, w, 0)
  | .vslipUpin w => some (0x33, w, 0)
  | .vslipDnin w => some (0x33, w, 0)
  | .vpick w => some (0x34, w, 0)
  | .vcompress w => some (0x35, w, 0)
  | .vexpand w => some (0x35, w, 0)
  | .vcvt w => some (0x38, w, 0)
  | .vcvtEf w => some (0x39, w, 0)
  | .vpack w => some (0x3A, w, 0)
  | .vunpack w => some (0x3A, w, 0)
  | .vscaleMul w => some (0x3B, w, 0)
  | .vscaleDiv w => some (0x3B, w, 0)
  | .vfclass w => some (0x3C, w, 0)
  | .vdiv w => some (0x3D, w, 0)
  | .vrdiv w => some (0x3D, w, 0)
  | .vsqrt w => some (0x3D, w, 0)
  | .vrsq w => some (0x3D, w, 0)
  | .vld w => some (0x40, w, 0)
  | .vldC w => some (0x40, w, 3)
  | .vldQ w => some (0x40, w, 0)
  | .vlds w => some (0x41, w, 0)
  | .vldx w => some (0x42, w, 0)
  | .vldg w => some (0x43, w, 0)
  | .vst w => some (0x44, w, 0)
  | .vstC w => some (0x44, w, 3)
  | .vstQ w => some (0x44, w, 0)
  | .vsts w => some (0x45, w, 0)
  | .vstx w => some (0x46, w, 0)
  | .vstxo w => some (0x47, w, 0)
  | .vstg w => some (0x48, w, 0)
  | .vpref w => some (0x49, w, 0)
  | .scommit w => some (0x4A, w, 3)
  | .cutstep w => some (0x4B, w, 0)
  | .mzero w => some (0x50, w, 0)
  | .mouter w => some (0x51, w, 0)
  | .mouteri w => some (0x52, w, 0)
  | .mouterc w => some (0x53, w, 0)
  | .mlacc w => some (0x54, w, 0)
  | .mdrain w => some (0x55, w, 0)
  | .mtov w => some (0x56, w, 0)
  | .mscale w => some (0x57, w, 0)
  | .bclr w => some (0x58, w, 0)
  | .btload w => some (0x58, w, 0)
  | .btdrain w => some (0x58, w, 0)
  | .bqr w => some (0x59, w, 0)
  | .bqra w => some (0x59, w, 0)
  | .bqrD w => some (0x59, w, 0)
  | .bapply w => some (0x5A, w, 0)
  | .bapplyC0 w => some (0x5A, w, 0)
  | .bvec w => some (0x5B, w, 0)
  | .bangleD w => some (0x5B, w, 0)
  | .bangleA w => some (0x5B, w, 0)
  | .brot w => some (0x5C, w, 0)
  | .vrotate w => some (0x5C, w, 0)
  | .bgain w => some (0x5D, w, 0)
  | .bsolve w => some (0x5E, w, 0)
  | .vamo w => some (0x62, w, 0)
  | .vamoo w => some (0x62, w, 0)
  | .accw w => some (0x63, w, 0)
  | .vacc w => some (0x63, w, 0)
  | .amerge w => some (0x63, w, 0)
  | .accrel w => some (0x63, w, 0)
  | .cp w => some (0x69, w, 0)
  | .cp2 w => some (0x69, w, 0)
  | .cpx w => some (0x69, w, 0)
  | .cpq w => some (0x69, w, 0)
  | .cpw w => some (0x69, w, 2)
  | .wdecl w => some (0x70, w, 1)
  | .wdeclRel w => some (0x70, w, 0)
  | .vldr w => some (0x71, w, 0)
  | .vstr w => some (0x72, w, 0)
  | .step w => some (0x73, w, 1)
  | .stepAt w => some (0x73, w, 1)
  | .stepq w => some (0x73, w, 1)
  | .fsbindRx w => some (0x74, w, 0)
  | .fsbindTx w => some (0x74, w, 0)
  | .fsbindU w => some (0x74, w, 0)
  | .vcred w => some (0x75, w, 0)
  | .setvl w => some (0x78, w, 3)
  | .setvt w => some (0x78, w, 0)
  | .setfmt w => some (0x79, w, 0)
  | .mshape w => some (0x7A, w, 0)
  | .tshape w => some (0x7A, w, 3)
  | .mmode w => some (0x7B, w, 3)
  | _ => none

/-- The state once a word has left the VIQ and touched nothing: the front has gone on, and the word is counted. -/
def ran (s : State) : State := { s with th := { s.th with fr := frontAfter s, cnt := countAfter s } }

/-- The same with s[d] written by the front's part or by the lanes. -/
def gave (s : State) (d : RegNo) (x : Word) : State :=
  (ran s).onFr fun f => { f with s := if d = 0 then f.s else vecSet f.s d.toNat x }

/-- A word whose checks fail at the lanes when it is the only one in flight: it raises a cause at the address after it, itself the
oldest word, and stays in the VIQ with k groups done, with the replicated unit, slot, range and shape it has taken; `ln` is what the lanes then
hold (05 R116, R121; 01 R18; 03 R62; 12 R349). -/
def StopsAt (s : State) (op : Nat) (w : VWord) (k : Nat) (c : ExcCause) (idx : Word) (fl : Flags) (ln : Lanes) (t : State) : Prop :=
  ∃ (u : Nat) (h : List VReg) (r : Option (Word × Nat)) (x : Word),
    t = ({ s with th := { s.th with ln := ln, fr := { frontAfter s with
        viq := [{ entry s op w with prog := k, unit := u, held := h, range := r, shape := x }] } } }).takeException
      c idx (entry s op w).after s.th.fr.spc fl false

/-- Bytes of an element in memory: one for a pair of 4-bit elements (07 R198). -/
def msize (b : Nat) : Nat := if b = 4 then 1 else b / 8

/-- Cluster of element i: clusters take 64 bytes of a register in turn (05 R105). -/
def clusterAt (s : State) (w : VWord) (i : Nat) : Nat := i * eb s w / 8 % (64 * s.width) / 64

/-- A vector memory word on elements in registers: its addresses, whether it gathers or scatters by slice, whether it moves CHUNK, and
the checks of its entry (07 R198; 11 R336). -/
structure MemForm where
  op : Nat
  w : VWord
  addr : Nat → Word
  slice : Bool
  chunk : Bool
  checks : Bool

/-- Unit stride from s[vc] + OFF elements. -/
def unitForm (s : State) (op : Nat) (w : VWord) : MemForm :=
  let z := msize (eb s w)
  { op := op, w := w, slice := false, chunk := false, checks := true,
    addr := fun i => s.rd w.vc + BitVec.ofInt 64 (w.va.toInt * z) + word (if eb s w = 4 then i / 2 else i * z) }

/-- Unit stride from s[vc] + CHUNK × STRIDE. -/
def chunkForm (s : State) (op : Nat) (w : VWord) : MemForm :=
  { unitForm s op w with
    chunk := true,
    addr := fun i => s.rd w.vc + s.th.fr.copy.chunk * s.th.fr.copy.stride + word (if eb s w = 4 then i / 2 else i * msize (eb s w)) }

/-- The stride s[vb]. -/
def strideForm (s : State) (op : Nat) (w : VWord) : MemForm :=
  { op := op, w := w, slice := false, chunk := false, checks := eb s w ≠ 4,
    addr := fun i => s.rd w.vc + BitVec.ofInt 64 (w.va.toInt * msize (eb s w)) + word i * s.rd w.vb }

/-- s[vc] + index × scale, the index of v[va] read as N32, I64 or N16. -/
def indexForm (s : State) (op : Nat) (w : VWord) (slice : Bool) : MemForm :=
  let x := match w.fn.toNat / 256 % 4 with | 0 => 32 | 1 => 64 | _ => 16
  { op := op, w := w, slice := slice, chunk := false, checks := eb s w ≠ 4 && decide (s.th.fr.copy.vl ≤ vlmax s.width x),
    addr := fun i => s.rd w.vc + word (elemAt (vecGet s.th.ln.v w.va.toNat 0) x i) * (if w.fn.toNat / 1024 % 2 = 1 then word (eb s w / 8) else 1) }

/-- The load words. -/
def loadWordForm (s : State) : Instr → Option MemForm
  | .vld w => some (unitForm s 0x40 w)
  | .vldC w => some (chunkForm s 0x40 w)
  | .vlds w => some (strideForm s 0x41 w)
  | .vldx w => some (indexForm s 0x42 w false)
  | .vldg w => some (indexForm s 0x43 w true)
  | _ => none

/-- The store words; the last value tells those whose winner at a byte is the highest element from those that leave it open (07 R191), as
R199 leaves it for two elements of a vsts that write one byte (log 80). -/
def storeWordForm (s : State) : Instr → Option (MemForm × Bool)
  | .vst w => some (unitForm s 0x44 w, true)
  | .vstC w => some (chunkForm s 0x44 w, true)
  | .vsts w => some (strideForm s 0x45 w, false)
  | .vstx w => some (indexForm s 0x46 w false, false)
  | .vstxo w => some (indexForm s 0x47 w false, true)
  | .vstg w => some (indexForm s 0x48 w true, false)
  | _ => none

/-- The page of n bytes at va is in the TLB of the cluster, with the permission and no page of deferred stores; the bytes lie at pa in
clean HBM outside every view (07 R177, R180, R201). -/
def Resident (s : State) (slice : Bool) (cluster : Nat) (va : Word) (n : Nat) (acc : Access) (pa : Nat) : Prop :=
  va.toNat % 65536 + n ≤ 65536 ∧ PlainHbm s pa n ∧ (∀ k < n, (pa + k) / 32 ∉ s.poison) ∧
    (slice = true → va.toNat % n = 0) ∧
    ∃ kind < 3, s.xlate cluster va acc = .ok { st := s, pa := pa, kind := kind } ∧ (kind = 1 → slice = false ∧ va.toNat % n = 0)

/-- The front after a memory word: vld.c and vst.c move CHUNK on in its copy (11 R336). -/
def memFront (s : State) (chunk : Bool) : Front :=
  { frontAfter s with copy := if chunk then { s.th.fr.copy with chunk := s.th.fr.copy.chunk + 1 } else s.th.fr.copy }

/-- The fabric registers after a memory word. -/
def memFabric (s : State) (chunk : Bool) : Fabric :=
  if chunk then { s.th.fab with cchunk := s.th.fr.copy.chunk + 1 } else s.th.fab

/-- What an acquire of scope core or wider leaves of the caches: none of the context's lines in the core's data cache (07 R182). -/
def acquired (s : State) (w : VWord) : Uncore :=
  if w.fn.toNat % 4 = 1 ∧ 1 ≤ w.fn.toNat / 4 % 8 then
    { s.unc with dcache := s.unc.dcache.filter fun c => ¬ (c.core = 56 * s.th.bind.die + s.th.bind.core ∧ c.ctx = s.th.bind.ctx) }
  else s.unc

/-- The L2 and the banks behind it as they were: what an access of HBM moves besides its bytes (07 R168, R194; log 54). -/
def cold (s : State) (u : Uncore) : Uncore := { u with l2 := s.unc.l2, banks := s.unc.banks, forced := s.unc.forced }

/-- The four registers of group q replaced. -/
def setFour {α : Type} {n : Nat} (v : Vector α n) (q : Nat) (g : Nat → α) : Vector α n :=
  vecSet (vecSet (vecSet (vecSet v (4 * q) (g 0)) (4 * q + 1) (g 1)) (4 * q + 2) (g 2)) (4 * q + 3) (g 3)

/-- Element i of b bits of four registers read as one row-major vector at width W, a register W × 32,768 bits (05 R113). -/
def inFour (wid : Nat) (g : Nat → VReg) (b i : Nat) : Nat :=
  elemAt (g (i * b / (wid * 32768))) b (i % (wid * 32768 / b))

/-- A nibble of a byte. -/
def nib (x : Byte) (h : Nat) : Nat := x.toNat / 16 ^ h % 16

/-- Stores: n elements, their places, values and activity; a 4-bit element is one nibble of its byte (07 R184, R199). -/
structure Writes where
  n : Nat
  bits : Nat
  act : Nat → Bool
  pa : Nat → Nat
  val : Nat → Nat
  half : Nat → Nat

/-- The active elements that write nibble h of the byte at a. -/
def Writes.at_ (x : Writes) (a h : Nat) : List Nat :=
  (List.range x.n).filter fun i => x.act i && decide (x.pa i ≤ a) && decide (a < x.pa i + msize x.bits) && (x.bits ≠ 4 || x.half i % 2 = h)

/-- The nibble that element i writes there. -/
def Writes.value (x : Writes) (i a h : Nat) : Nat :=
  if x.bits = 4 then x.val i % 16 else x.val i / 256 ^ (a - x.pa i) % 256 / 16 ^ h % 16

/-- What a store word leaves where the strip was empty: its bytes in the open strip, so that the thread reads them, and every other byte
as it was; memory itself stays until the commit (07 R184, R185, R189). `last` tells that the highest element wins at each nibble; else some
element wins each naturally aligned unit (07 R191). -/
structure StoreWord (s t : State) (chunk : Bool) (x : Writes) (last : Bool) : Prop where
  front : t.th.fr = memFront s chunk
  fabric : t.th.fab = memFabric s chunk
  count : t.th.cnt = countAfter s
  inStrip : ∀ e ∈ t.th.st.entries, e.strip = s.th.st.open_ ∧ e.remote = none
  strip : { t.th.st with entries := [] } = s.th.st
  untouched : ∀ a h, h < 2 → x.at_ a h = [] → nib (t.ownByte a a) h = nib (s.ownByte a a) h
  written : last = true → ∀ a h i, h < 2 → (x.at_ a h).getLast? = some i → nib (t.ownByte a a) h = x.value i a h
  units : last = false → (∀ i < x.n, x.act i = true → x.pa i % msize x.bits = 0) → ∀ i < x.n, x.act i = true → ∃ j < x.n,
    x.act j = true ∧ x.pa j = x.pa i ∧ ∀ k < msize x.bits, (t.ownByte (x.pa i + k) (x.pa i + k)).toNat = x.val j / 256 ^ k % 256
  draws : last = true → t.freeCount = s.freeCount
  rest : { t with th := { t.th with fr := s.th.fr, st := s.th.st, fab := s.th.fab, cnt := s.th.cnt }, freeCount := s.freeCount } = s

/-- The tile of a vld.q or vst.q: extents, pitch and address of element i, from the shape entry of its group (07 R200). -/
structure TileForm where
  rows : Nat
  cols : Nat
  addr : Nat → Word

/-- Read it. -/
def tileForm (s : State) (w : VWord) : TileForm :=
  let x := vecGet s.th.ln.shape (w.vd.toNat / 4) 0
  let cols := bitsOf x 19 4
  let z := msize (eb s w)
  let pitch : Word := if w.vb = 0 then word (if eb s w = 4 then cols / 2 else cols * z) else s.rd w.vb
  { rows := bitsOf x 35 20, cols := cols,
    addr := fun i => s.rd w.vc + BitVec.ofInt 64 (w.va.toInt * z) + word (i / cols) * pitch +
      word (if eb s w = 4 then i % cols / 2 else i % cols * z) }

/-- The checks of R200 on the shape entry, and the tile fits the group. -/
def tileFits (s : State) (w : VWord) : Prop :=
  let x := vecGet s.th.ln.shape (w.vd.toNat / 4) 0
  bitsOf x 35 20 ≠ 0 ∧ bitsOf x 3 0 = w.ety.code ∧ (w.ety = .fmt → bitsOf x 38 36 = vtFsel s.th.ln.vtype) ∧
    (eb s w = 4 → bitsOf x 19 4 % 2 = 0) ∧ bitsOf x 35 20 * bitsOf x 19 4 * eb s w ≤ s.width * 131072

/-- A number of distinct 64-byte blocks that the active elements of a cluster touch. -/
def blocksIn (n z : Nat) (act : Nat → Bool) (pa : Nat → Nat) : Nat :=
  (((List.range n).filter act).flatMap fun i => [pa i / 64, (pa i + z - 1) / 64]).eraseDups.length

/-- The strip takes the elements of a word in each cluster with no early commit, and no store awaits its acknowledgement
(07 R185, R187). -/
def HasRoom (s : State) (n z : Nat) (act : Nat → Bool) (cluster pa : Nat → Nat) : Prop :=
  s.th.st.unacked = [] ∧ ∀ c < 4, blocksIn n z (fun i => act i && cluster i == c) pa ≤ s.th.bind.stripA

end Sys2Proof.Claims

namespace Sys2Proof.Claims

open Sys2Proof.Machine

/-! ### The Truss and the Brace -/

/-- Element (r, c) of a tile (05 R113; 06 R140). -/
def tcode (s : State) (t : Tile) (r c : Nat) : Nat :=
  let x := inFour s.width (fun j => vecGet s.th.ln.v (4 * t.q + j) 0) t.b (r * t.cols + c)
  if t.ety = .fmt then x % 2 ^ (s.th.ln.fp t.fsel .fmt).width else x

/-- Its value as a floating-point number. -/
def tval (s : State) (t : Tile) (r c : Nat) : FVal := (s.th.ln.fp t.fsel t.ety).decode (tcode s t r c)

/-- Its value as an integer of 8 bits. -/
def tint (s : State) (t : Tile) (r c : Nat) : Int :=
  if t.ety = .i8 ∧ 128 ≤ tcode s t r c then tcode s t r c - 256 else tcode s t r c

/-- A value taken through steps 0 to n − 1, with the flags they raise. -/
def through (f : Nat → Nat → Elt) (c : Nat) : Nat → Elt
  | 0 => (c, 0)
  | n + 1 => let a := through f c n; let r := f n a.1; (r.1, a.2 ||| r.2)

/-- An outer-product word: what its issue asks, its steps, and what step k makes of the value x of cell (i, j). -/
structure OuterForm where
  op : Nat
  w : VWord
  checks : Bool
  steps : Nat
  add : Nat → Nat → Nat → Nat → Elt

/-- SPN, SCL and CLS of mcfg, and g (08 Table 8.1, R211). -/
def tspn (s : State) : Nat := s.th.tr.mcfg.toNat / 4 % 4
/-- SCL. -/
def tscl (s : State) : Nat := s.th.tr.mcfg.toNat / 16 % 4
/-- CLS. -/
def tcls (s : State) : Nat := s.th.tr.mcfg.toNat % 4
/-- g. -/
def tg (s : State) : Nat := 2 ^ (s.th.tr.mcfg.toNat % 4)

/-- The k-rows of step c of a dense word: g of them, fewer at the end (08 R223). -/
def krows (s : State) (c : Nat) : List Nat := (List.range s.th.tr.tk).filter fun k => k / tg s = c

/-- Extents and classes that the operands of a word must have (08 R222, Table 8.5). -/
def fits (s : State) (int : Bool) (w : VWord) (a b : Tile) (rows : Nat) : Bool :=
  classHas s.th.ln (tcls s) int a && classHas s.th.ln (tcls s) int b && (vecGet s.th.tr.tagInt w.vd.toNat false == int) &&
    decide (s.th.tr.tk ≤ a.rows) && decide (s.th.tr.tm ≤ a.cols) && decide (rows ≤ b.rows) && decide (s.th.tr.tn ≤ b.cols)

/-- The scale group that mouter asks for where SCL is on (08 R220). -/
def scaleFits (s : State) (c : Option Tile) : Bool :=
  c.any fun t => t.ety = (if tscl s = 1 then EType.n8 else EType.n16) && decide (2 * (s.th.tr.tk / 32) ≤ t.rows) &&
    decide (max s.th.tr.tm s.th.tr.tn ≤ t.cols)

/-- The scales of k-row k for cell (i, j) (08 R220). -/
def scalePair (s : State) (c : Option Tile) (k i j : Nat) : Option (Option (Nat × Int) × Option (Nat × Int)) :=
  if tscl s = 0 then none
  else c.map fun t =>
    let kind := if tscl s = 1 then 1 else 0
    (Machine.scaleOf kind (tcode s t (k / 32) i), Machine.scaleOf kind (tcode s t (s.th.tr.tk / 32 + k / 32) j))

/-- The row of A that row q of a compressed B stands for at column j (08 R221). -/
def compressedRow (s : State) (mt : Tile) (q j : Nat) : Nat := 48 * (q / mcN s.th.tr.mcfg) + tcode s mt q j

/-- The outer-product words (08 R218 to R224): the exact sum of a step's products is added to the cell and rounded once. -/
def outerForm (s : State) : Instr → Option OuterForm
  | .mouter w =>
    match s.tile (w.va.toNat / 4), s.tile (w.vb.toNat / 4) with
    | some a, some b =>
      let c := s.tile (w.vc.toNat / 4)
      some {
        op := 0x51, w := w, steps := (s.th.tr.tk + tg s - 1) / tg s,
        checks := fits s false w a b s.th.tr.tk && tspn s = 0 && (if tscl s = 0 then w.vc = 0 else scaleFits s c),
        add := fun i j k x => trussAdd x ((krows s k).map fun r => trussProd (tval s a r i) (tval s b r j) (scalePair s c r i j)) }
    | _, _ => none
  | .mouteri w =>
    match s.tile (w.va.toNat / 4), s.tile (w.vb.toNat / 4) with
    | some a, some b => some {
        op := 0x52, w := w, steps := (s.th.tr.tk + tg s - 1) / tg s,
        checks := fits s true w a b s.th.tr.tk && tspn s = 0 && tscl s = 0 && w.vc = 0,
        add := fun i j k x => trussInt (mcSat s.th.tr.mcfg) x ((krows s k).map fun r => tint s a r i * tint s b r j).sum }
    | _, _ => none
  | .mouterc w =>
    match s.tile (w.va.toNat / 4), s.tile (w.vb.toNat / 4), s.tile (w.vc.toNat / 4) with
    | some a, some b, some mt =>
      let rows := s.th.tr.tk * mcN s.th.tr.mcfg / 48
      let int : Bool := w.ety = .i32
      some {
        op := 0x53, w := w, steps := rows / tg s,
        checks := fits s int w a b rows && tspn s ≠ 0 && tscl s = 0 && mt.ety = .n8 && decide (rows ≤ mt.rows) &&
          decide (s.th.tr.tn ≤ mt.cols) && (List.range (rows * s.th.tr.tn)).all fun x => tcode s mt (x / s.th.tr.tn) (x % s.th.tr.tn) ≤ 47,
        add := fun i j k x =>
          let qs := (List.range (tg s)).map fun y => k * tg s + y
          if int then trussInt (mcSat s.th.tr.mcfg) x
            (qs.map fun q => tint s a (compressedRow s mt q j) i * tint s b q j).sum
          else trussAdd x (qs.map fun q => trussProd (tval s a (compressedRow s mt q j) i) (tval s b q j) none) }
    | _, _, _ => none
  | _ => none

/-- Cell (i, j) of a tile (08 R210). -/
def cell (x : AccTile) (i j : Nat) : Nat := elemAt x 32 (128 * i + j)

/-- What a word that writes one accumulator leaves: its tile, its tag, the flags in vxflags, and nothing else. -/
def withAcc (s : State) (n : Nat) (x : AccTile) (int : Bool) (fl : Flags) : State :=
  ((ran s).onTr fun t => { t with acc := vecSet t.acc n x, tagInt := vecSet t.tagInt n int }).onLn fun l => { l with flags := l.flags ||| fl }

/-- Conv of R231 in a word of type e. -/
def convCell (s : State) (w : VWord) (x : Nat) : Elt :=
  if w.ety = .bf16 then bf16.round (vtFrm s.th.ln.vtype) (fp32.decode x)
  else if w.ety = .fp16 then fp16.round (vtFrm s.th.ln.vtype) (fp32.decode x)
  else (x, 0)

/-- The type rule of R230: an integer tile goes out as etype 2, a floating-point tile as 8, 9 or 10. -/
def tagged (s : State) (w : VWord) (n : Nat) : Prop := (vecGet s.th.tr.tagInt n false = true ↔ w.ety = .i32)

/-- The scaled cell: c × a × b as one exact product, rounded once (08 R229). -/
def scaledCell (s : State) (w : VWord) (i j : Nat) : Elt :=
  scaleCell (vecGet s.th.tr.tagInt w.vd.toNat false) (cell (vecGet s.th.tr.acc w.vd.toNat 0) i j)
    (fp32.decode (elemAt (vecGet s.th.ln.v w.va.toNat 0) 32 i)) (fp32.decode (elemAt (vecGet s.th.ln.v w.vb.toNat 0) 32 j))

/-- A triangle after a word: its flags in vxflags, bstat, and nothing else. -/
def withTri (s : State) (n : Nat) (t : Triangle) (rows : Nat) (fl : Flags) (ln : Lanes) : State :=
  ((ran s).onBr fun b => { b with tri := vecSet b.tri n t, bstat := word (n * 2 ^ 16 + rows) }).onLn fun _ => { ln with flags := ln.flags ||| fl }

/-- bcfg.DEF (09 Table 9.3). -/
def deferred (s : State) : Bool := s.th.br.bcfg.getLsbD 0

/-- The triangle after the rows below n of a tile have gone through it (09 R249). -/
def triAfter (s : State) (t : Tile) (tri : Triangle) (rhs : Nat → Nat) : Nat → Triangle
  | 0 => tri
  | n + 1 => (rowStep (deferred s) (triAfter s t tri rhs n) (s.tileRow t n) (rhs n)).t

/-- Row n of the tile in the array. -/
def rowOf (s : State) (t : Tile) (tri : Triangle) (rhs : Nat → Nat) (n : Nat) : RowAcc :=
  rowStep (deferred s) (triAfter s t tri rhs n) (s.tileRow t n) (rhs n)

/-- The flags of n rows. -/
def rowFlags (s : State) (t : Tile) (tri : Triangle) (rhs : Nat → Nat) (n : Nat) : Flags := orFlags (fun r => (rowOf s t tri rhs r).fl) 0 n

/-- The column of a triangle after the rows below n of a bapply (09 R254). -/
def colAfter (s : State) (t : Tile) (rhs : Nat → Nat) (c : BitVec 1024) : Nat → BitVec 1024
  | 0 => c
  | n + 1 => (applyRow (tcode s t n) (colAfter s t rhs c n) (rhs n)).1

/-- Triangle n. -/
def triOf (s : State) (n : Nat) : Triangle := vecGet s.th.br.tri n .reset

/-- One output of Rotate, kept as it stands on a bypass (09 R241, R244). -/
def turned (a b w : Nat) : Elt × Elt := rotateOut outB48 a b w

/-- The element words of the Brace (09 R256, R257). -/
def braceForm (s : State) : Instr → Option EltForm
  | .bvec w => some (plain s 0x5B w fun i =>
      match vectorise (srcA s w i) (srcB s w i) with
      | .bypass _ nv => (0x80000000, if nv then fNV else 0)
      | .turn d _ _ _ => (d, 0))
  | .bangleD w => some (plain s 0x5B w fun i => (angToDir (srcA s w i), 0))
  | .bangleA w => some (plain s 0x5B w fun i => dirToAng (srcA s w i))
  | .brot w =>
    let h := 2 ^ (w.fn.toNat / 2 % 16)
    some { plain s 0x5C w fun i =>
        let p := i / (2 * h) * h + i % h
        let lo := i / (2 * h) * (2 * h) + i % h
        let x := srcB s w p
        let o := turned (srcA s w lo) (srcA s w (lo + h)) (if w.fn.toNat % 2 = 0 then angToDir x else x)
        if i / h % 2 = 0 then o.1 else o.2 with
      act := fun _ => true, checks := s.th.fr.copy.vl % (2 * h) = 0 }
  | _ => none

/-- The element places of a triangle in memory: element 33 i + k on and above the diagonal, k = 32 the column (09 R252). -/
def triAddr (s : State) (w : VWord) (x : Nat) : Word :=
  s.rd w.vc + BitVec.ofInt 64 (w.va.toInt * 4) + word (x / 33) * (if w.vb = 0 then 132 else s.rd w.vb) + word (x % 33 * 4)

end Sys2Proof.Claims

namespace Sys2Proof.Claims

open Sys2Proof.Machine

/-! ### Atomics, copies and the fabric -/

/-- What the place `a` holds before element k, the active elements below k performed in index order: an element at the place replaces
what it finds by the operation of Table 10.3 (10 R267, R269, R273). -/
def placeBefore (m : Memory) (sz : Nat) (act : Nat → Bool) (pa : Nat → Nat) (op : Nat → Nat → Elt) (a : Nat) : Nat → Nat
  | 0 => leNat (memBytes m a sz)
  | k + 1 =>
    let x := placeBefore m sz act pa op a k
    if act k && pa k == a then (op k x).1 else x

/-- Memory after n such elements: their places hold what the last one left, every other byte is as it was; beside it only the data
cache, the L2 and the banks behind it may change. -/
structure PlacesWritten (s t : State) (n sz : Nat) (act : Nat → Bool) (pa : Nat → Nat) (op : Nat → Nat → Elt) : Prop where
  canonical : t.MemOk
  written : ∀ k < n, act k = true → leNat (memBytes t.mem (pa k) sz) = placeBefore s.mem sz act pa op (pa k) n % 2 ^ (8 * sz)
  others : ∀ a, (∀ k < n, act k = true → a < pa k ∨ pa k + sz ≤ a) → memGet t.mem a = memGet s.mem a
  caches : { cold s t.unc with dcache := s.unc.dcache } = s.unc
  rest : { t with mem := s.mem, unc := s.unc, th := s.th } = s

/-- Committed stores that were waiting for their acknowledgement have it once a word has drained the strips. -/
def drained (s : State) (on : Bool) : Strip := if on then { s.th.st with unacked := [] } else s.th.st

/-- An acquire of scope core or wider has left none of the context's lines in the core's data cache (07 R182; 10 R265). -/
def Acquired (s t : State) (on : Bool) : Prop :=
  on = true → ∀ c ∈ t.unc.dcache, ¬ (c.core = 56 * s.th.bind.die + s.th.bind.core ∧ c.ctx = s.th.bind.ctx)

/-- The window's copies have one row for each lane, of COUNT elements (10 R275, R277). -/
def WindowOk (s : State) : Prop :=
  let w := s.th.ln.win
  bitsOf w.cfg 0 0 = 1 ∧ 1 ≤ bitsOf w.cfg 18 8 ∧ w.copies.length = 8 * s.width ∧ ∀ c ∈ w.copies, c.length = bitsOf w.cfg 18 8

/-- Element k of lane j's copy. -/
def copyAt (l : Lanes) (j k : Nat) : Word := (l.win.copies.getD j []).getD k 0

/-- The operation of the window as a row of Table 10.3. -/
def windowOp (s : State) : Nat := match bitsOf s.th.ln.win.cfg 2 1 with | 0 => 1 | 1 => 5 | _ => 6

/-- The identities of Table 10.6. -/
def identity (t : EType) (op : Nat) : Nat := identityOf t op

/-- The copy command of a word: destination, source, and the parameters B0 and B1 (10 Table 10.16). -/
def copyForm (s : State) : Instr → Option (VWord × Nat × Word × Word × Word × Word)
  | .cp w => some (w, 0, s.rd w.vd, s.rd w.va, s.rd w.vb, 0)
  | .cp2 w => some (w, 1, s.rd w.vd, s.rd w.va, s.rd w.vb, s.rd (w.vb + 1))
  | .cpx w => some (w, 2, s.rd w.vd, s.rd w.va, s.rd w.vb, s.rd (w.vb + 1))
  | .cpq w => some (w, 3, 0, 0, s.rd w.vb, 0)
  | _ => none

/-- What R297 asks of the parameters; cpq delivers to an arrival word that it names. -/
def copyFits (w : VWord) (fn : Nat) (b0 b1 : Word) : Prop :=
  match fn with
  | 1 => b0.toNat % 2 ^ 32 ≠ 0 ∧ b0.toNat / 2 ^ 32 ≠ 0
  | 2 => b0.toNat / 2 ^ 32 ≤ 8 ∧ b1.toNat % 4 = 0
  | 3 => w.vc ≠ 0 ∧ b0.toNat < 2 ^ 40
  | _ => b0.toNat < 2 ^ 40

/-- The bytes a command moves or delivers. -/
def copyBytes (fn : Nat) (b0 : Word) : Nat :=
  match fn with
  | 1 => b0.toNat % 2 ^ 32 * (b0.toNat / 2 ^ 32)
  | 2 => b0.toNat % 2 ^ 32 * 2 ^ (b0.toNat / 2 ^ 32)
  | _ => b0.toNat

/-- A window configuration of Table 11.1. -/
def windowConfig (c : Word) : Prop :=
  c.toNat < 2 ^ 28 ∧ c.toNat / 2 ^ 8 ≠ 0 ∧ c.toNat / 2 ^ 7 % 2 = 0 ∧ c.toNat / 2 ^ 4 % 8 ≠ 7 ∧ c.toNat % 16 ≤ 13

/-- The active windows of the thread's context. -/
def ownWindows (s : State) : List Window := s.windows.filter fun w => w.ctx = s.th.bind.ctx ∧ w.freeing = none

/-- The front of a word that gives s[d] := x, for which the front waits. -/
def gaveWait (s : State) (d : RegNo) (x : Word) : State := (gave s d x).onFr fun f => { f with wait := .entry (s.th.fr.seq + 1) }

/-- The offset of element i of vldr and vstr: unit stride, or the N32 index of v[va] (11 R324). -/
def remoteAt (s : State) (w : VWord) (i : Nat) : Word :=
  s.rd w.vc + word ((if w.fn.toNat / 2048 = 1 then elemAt (vecGet s.th.ln.v w.va.toNat 0) 32 i else i) * (eb s w / 8))

/-- A word on a window of the thread's own package: the target names it, its checks of R324 hold, and window m has the handle. -/
structure OwnTarget (s : State) (w : VWord) (m : Window) : Prop where
  target : (s.rd w.vb).toNat = s.dev.rank + m.handle * 2 ^ 16
  rank : s.dev.rank < 2 ^ 14 ∧ s.dev.rank < s.dev.dims.1 * s.dev.dims.2.1 * s.dev.dims.2.2
  handle : m.handle < 64
  width : eb s w ≠ 4
  index : w.fn.toNat / 2048 = 1 → s.th.fr.copy.vl ≤ vlmax s.width 32
  named : (ownWindows s).find? (fun x => x.handle = m.handle) = some m
  steps : (s.whistles.any fun x => x.ctx = s.th.bind.ctx && x.skewed) = false ∧ s.th.fab.queued = false
  data : s.th.fab.remoteData = []

/-- The bytes of an element at an offset of a window lie in one of its pages, in clean HBM last seen under the page's KEY; the page tables
still give the page the kind DS, the access and its A and D bits (11 R307, R325; 07 R176; 00 R3, log 70). -/
def InWindow (s : State) (m : Window) (off : Word) (n : Nat) (acc : Access) (pa : Nat) : Prop :=
  (∃ x, s.walk s.walker (m.base + word (off.toNat / 65536 * 65536)) = .ok x ∧ x.kind = 3 ∧ s.leafOk s.walker x acc = true ∧
    s.markPte x acc = s) ∧
  off.toNat % n = 0 ∧ off.toNat < m.len ∧ (∃ p, m.pages[off.toNat / 65536]? = some p ∧ p + 65536 ≤ 2 ^ 40 ∧ p % 2 ^ 38 + 65536 ≤ 2 ^ 37 ∧
    p % 65536 = 0 ∧ pa = p + off.toNat % 65536) ∧ s.unc.fmtWins = [] ∧ (∀ k < n, (pa + k) / 32 ∉ s.poison) ∧
  s.keyed (s.windowKey s.walker m.handle off.toNat) pa n = s

/-- The bytes at an offset that the entries of the strip hold for a remote target, in program order. -/
def remoteByte (t : State) (key : Nat × Nat × Nat) (a : Nat) : List Nat :=
  t.th.st.entries.filterMap fun e =>
    if e.remote = some key ∧ e.block = a / 64 ∧ field e.marks (2 * (a % 64)) 2 = 3 then some (field e.data (8 * (a % 64)) 8) else none

/-- The operation of vcred on a and b, p being the member index (11 R343, R344). -/
def credForm (s : State) (w : VWord) (p : Nat) : EltForm :=
  let op := s.th.fab.cop.toNat % 8
  let top : Int := if w.ety.isSignedInt then 2 ^ (eb s w - 1) - 1 else 2 ^ eb s w - 1
  let low : Int := if w.ety.isSignedInt then -(2 ^ (eb s w - 1)) else 0
  { plain s 0x75 w fun i =>
      let a := srcA s w i
      let b := srcB s w i
      let x := num s w a
      let y := num s w b
      if active s w i = false then (a, 0)
      else if w.ety.isFp then (ef s w).rankOp op (vtFrm s.th.ln.vtype) p a b
      else
        match op with
        | 0 => if s.th.fab.cop.toNat / 8 % 2 = 1 then
            ((max low (min top (x + y)) % (2 ^ eb s w : Nat)).toNat, if x + y < low ∨ top < x + y then fSAT else 0)
          else (((x + y) % (2 ^ eb s w : Nat)).toNat, 0)
        | 1 => (if x ≤ y then a else b, 0)
        | 2 => (if y ≤ x then a else b, 0)
        | 3 => (a &&& b, 0)
        | 4 => (a ||| b, 0)
        | _ => (a ^^^ b, 0) with
    act := fun _ => true, checks := op ≤ 5 && (!w.ety.isFp || op ≤ 2) }

/-- A step word may arrive: it has not, no stepq is pending, its gang is the launch's top one, Skew has not come, its timeout is below 2^40, and
its stores are performed (11 R313, R314, R321, R322). -/
structure MayArrive (s : State) (w : VWord) : Prop where
  fresh : s.th.fab.arrived = false
  top : s.gangIsTop = true
  timeout : (s.rd w.va).toNat < 2 ^ 40
  skew : (s.whistles.any fun x => x.ctx = s.th.bind.ctx && x.skewed) = false
  stores : s.th.st.entries = [] ∧ s.th.fab.sent = []

/-- The fabric registers once it has (11 R314, R320). -/
def arrivedAs (s : State) (w : VWord) (queued : Bool) (at_ : Nat) : Fabric :=
  { s.th.fab with arrived := true, queued := queued, released := false, stepAddr := s.th.fr.spc,
                  stepTimeout := if s.rd w.va = 0 then 10000000 else (s.rd w.va).toNat, stepAt := at_, arrivedAt := s.gtime.toNat }

/-- The strip behind a step word, which commits it (11 R314; 07 R186). -/
def stepStrip (s : State) : Strip := { s.th.st with open_ := s.th.st.open_ + 1, unacked := [], unc := false }

end Sys2Proof.Claims

namespace Sys2Proof.Claims

open Sys2Proof.Machine

/-! ### Words of the front that act outside the thread -/

/-- The front of a thread that has nothing in flight: no lane, no older word of the VIQ, no store queued, an empty strip (10 R264 to R266). -/
structure FrontQuiet (s : State) : Prop where
  lane : s.th.fr.curLane = none
  older : s.older = []
  storeQ : s.th.fr.storeQ = []
  strip : s.th.st.entries = [] ∧ s.th.st.parked = []

/-- ORD and SCOPE of a word (10 Table 10.1). -/
def wordOrd (w : VWord) : Nat := w.fn.toNat % 4
/-- SCOPE. -/
def wordScope (w : VWord) : Nat := w.fn.toNat / 4 % 8

/-- The state a front word leaves that only orders: a release has its acknowledgements, an acquire of scope core or wider clears the context's
lines (10 R265). -/
def ordered (s : State) (ord scope : Nat) : State :=
  { s.onSt fun _ => drained s (2 ≤ ord) with unc := if ord % 2 = 1 ∧ 1 ≤ scope then
      { s.unc with dcache := s.unc.dcache.filter fun c => ¬ (c.core = 56 * s.th.bind.die + s.th.bind.core ∧ c.ctx = s.th.bind.ctx) } else s.unc }

/-- The operations of amo on Table 10.3's rows. -/
def amoForm : Instr → Option (Nat × VWord)
  | .amoSwap w => some (0, w)
  | .amoAdd w => some (1, w)
  | .amoAnd w => some (2, w)
  | .amoOr w => some (3, w)
  | .amoXor w => some (4, w)
  | .amoMin w => some (5, w)
  | .amoMax w => some (6, w)
  | _ => none

/-- Two doubles as one number of 16 bytes. -/
def pair (d0 d1 : Nat) : Nat := d0 % 2 ^ 64 + d1 % 2 ^ 64 * 2 ^ 64

/-- aw.init: TARGET n, GEN kept, all else zero (10 Table 10.15). -/
def awBegun (n x : Nat) : Nat := pair n (x / 2 ^ 104 % 2 ^ 20 * 2 ^ 40)

/-- A delivery of n bytes (10 R294): COUNT grows; at TARGET, GEN goes on and COUNT keeps the rest, with OVR where there is one. -/
def awAdded (n x : Nat) : Nat :=
  let target := x % 2 ^ 40
  let c := x / 2 ^ 64 % 2 ^ 40 + n
  let gen := x / 2 ^ 104 % 2 ^ 20
  let ovr := x / 2 ^ 124 % 2
  let err := x / 2 ^ 125 % 2
  if target ≤ c then pair target ((c - target) % 2 ^ 40 + (gen + 1) % 2 ^ 20 * 2 ^ 40 + (if target < c then 1 else ovr) * 2 ^ 60 + err * 2 ^ 61)
  else pair target (c + gen * 2 ^ 40 + ovr * 2 ^ 60 + err * 2 ^ 61)

/-- A sync register that s[a] names, and that the context holds (10 R281). -/
def Named (s : State) (x : Word) : Prop := x.toNat < 2 ^ 11 ∧ s.ownsSync (x.toNat % 512) = true

/-- The home value of the register that x names. -/
def homeValue (s : State) (x : Word) : Word := s.syncGet (x.toNat / 512) (x.toNat % 512)

/-- A word that writes a sync register at its home: it holds v, its new value is on its way to the other dies, every other register keeps its
value; where a huddle's phase `ends`, the cycle and the arrival's place are noted, and every other write forgets an older note of its register
(10 R283, R284, R287; log 76). -/
structure SyncWritten (s t : State) (x v : Word) (ends : Bool) : Prop where
  home : ∀ die n, n < 512 → t.syncGet die n = if die = x.toNat / 512 ∧ n = x.toNat % 512 then v else s.syncGet die n
  flying : t.sync.flying = s.sync.flying ++ ([0, 1, 2, 3].filter (· ≠ x.toNat / 512)).map fun d => (d, x.toNat / 512, x.toNat, v)
  phases : t.sync.phases =
    (if ends then [(x.toNat, s.gtime, s.th.bind.place)] else []) ++ s.sync.phases.filter fun y => y.1 ≠ x.toNat
  rest : { t.sync with home := s.sync.home, flying := s.sync.flying, phases := s.sync.phases } = s.sync

/-- A huddle register's fields (10 Table 10.9). -/
def hudGen (x : Word) : Nat := x.toNat / 2 ^ 36
/-- DRP. -/
def hudDrp (x : Word) : Nat := x.toNat / 2 ^ 24 % 2 ^ 12
/-- EXP. -/
def hudExp (x : Word) : Nat := x.toNat / 2 ^ 12 % 2 ^ 12
/-- ARR. -/
def hudArr (x : Word) : Nat := x.toNat % 2 ^ 12

/-- A huddle after one arrival: the last expected one ends the phase (10 R287). -/
def hudAfter (x : Word) (drop : Bool) : Word :=
  let d := hudDrp x + (if drop then 1 else 0)
  if hudArr x + 1 = hudExp x then word ((hudGen x + 1) % 2 ^ 28 * 2 ^ 36 + (hudExp x - d) % 2 ^ 12 * 2 ^ 12)
  else word (hudGen x * 2 ^ 36 + d % 2 ^ 12 * 2 ^ 24 + hudExp x * 2 ^ 12 + (hudArr x + 1))

/-- The tag of ptag, and the value of a core's post table at a tag (10 R289). -/
def ptagTag (s : State) : Nat := s.th.fr.regs.ptag.toNat % 16

/-- The context holds the entry that ptag names. -/
def HoldsTag (s : State) : Prop := ∃ c, s.ctxs.find? (fun c => c.id = s.th.bind.ctx) = some c ∧ ptagTag s ∈ c.posts

/-- LAST of ptag takes a value. -/
def lastIs (s : State) (v : Nat) : State := s.onRegs fun r => { r with ptag := word (v * 65536 + r.ptag.toNat % 65536) }

end Sys2Proof.Claims

namespace Sys2Proof.Claims

open Sys2Proof.Machine

/-! ### Events -/

/-- The place whose thread an event acts on. -/
def eventPlace : Instr → Option Nat
  | .convoyIssue t _ => some t
  | .convoyRetire t => some t
  | .historyEntryRetire t => some t
  | .storeQueueLeave t => some t
  | .mtcLaneEntry t => some t
  | .commitEntry t => some t
  | .stripEntryDrain t _ => some t
  | .storeAcknowledgement t _ => some t
  | .laneIssue t _ => some t
  | .tlbWalk t _ _ _ => some t
  | .vamoPerform t _ => some t
  | .amergePerform t _ => some t
  | .waitTReturn t => some t
  | .hudWaitReturn t => some t
  | .waitiReturn t => some t
  | .awWaitReturn t => some t
  | .cpwReturn t => some t
  | .deadline t => some t
  | .trapDelivery t _ _ => some t
  | .suspendToEloaler t _ _ => some t
  | .eloalerResume t => some t
  | .fatalEnd t => some t
  | .preemption t => some t
  | .stepArrival t => some t
  | .readData t _ _ => some t
  | .debugReadImage t _ _ => some t
  | .debugWriteImage t _ => some t
  | .debugResumeOne t => some t
  | .registerFileScrub t _ _ _ => some t
  | .threadStart die k => some (224 * die + k)
  | _ => none

/-- The same state in a model that lags: what runs behind the front comes as events (log 6). -/
def lagging (s : State) : State := { s with prompt := false }

/-- n bytes are written at a, and every other byte is as it was. -/
structure BytesWritten (s t : State) (a : Nat) (bs : List Byte) : Prop where
  canonical : t.MemOk
  written : ∀ k < bs.length, memGet t.mem (a + k) = bs.getD k 0
  others : ∀ b, b < a ∨ a + bs.length ≤ b → memGet t.mem b = memGet s.mem b

/-- Word k of the lane code of a section. -/
def codeWord (l : LaneSection) (k : Nat) : Nat := leNat ((l.code.drop (4 * k)).take 4)

/-- The lane that a cluster issues: the first that has not joined, in rotation after the last (04 R97). -/
def TurnOf (l : LaneSection) (cl j : Nat) : Prop :=
  ∃ i < 8, j = 8 * cl + (l.last.getD cl 7 + 1 + i) % 8 ∧ l.joined.getD j true = false ∧
    ∀ k < i, l.joined.getD (8 * cl + (l.last.getD cl 7 + 1 + k) % 8) true = true

/-- A wait's return finds room in the history buffer for what it may log: no older word can still fault, or 56 entries at most are in use
(03 R60). -/
def LogRoom (s : State) : Prop := s.unsafeOlder = false ∨ s.th.fr.hist.length ≤ 56

/-- What a scrub counts in telemetry and nothing else: an uncorrectable error, else at most one corrected one (14 R420, R421). -/
def Scrubbed (s t : State) (bad : Bool) : Prop :=
  t.tele.uncorrected = s.tele.uncorrected + (if bad then 1 else 0) ∧ s.tele.corrected ≤ t.tele.corrected ∧
    t.tele.corrected ≤ s.tele.corrected + (if bad then 0 else 1) ∧
    { t.tele with corrected := s.tele.corrected, uncorrected := s.tele.uncorrected } = s.tele

/-- The lane that a cluster issues next, j, and the word at its PC in the section's code, which decodes to i (04 R95 to R97). -/
structure LaneAt (s : State) (l : LaneSection) (cl j : Nat) (i : Instr) : Prop where
  lanes : s.th.fr.lanes = some l ∧ s.th.fr.curLane = none ∧ s.th.fr.wait = .none ∧ l.code ≠ []
  cluster : cl < s.width
  turn : TurnOf l cl j
  place : j < l.pcs.length
  clean : s.th.ln.bad = []
  inside : let pc := l.pcs.getD j 0
    l.start.toNat ≤ pc.toNat ∧ (pc.toNat - l.start.toNat) % 4 = 0 ∧ (pc.toNat - l.start.toNat) / 4 < l.len / 4
  word : ∃ w : BitVec 32, codeWord l (((l.pcs.getD j 0).toNat - l.start.toNat) / 4) = w.toNat ∧ w.toNat < 2 ^ 31 ∧ decode32 w = .ok i

/-- The thread as lane j of the section. -/
def asLane (s : State) (l : LaneSection) (j : Nat) : State := s.onFr fun f => { f with curLane := some j, spc := l.pcs.getD j 0 }

/-- The entry of the one word that is in flight. -/
def OneEntry (s : State) (e : VEntry) : Prop :=
  s.th.fr.viq = [e] ∧ e.first = true ∧ e.prog = 0 ∧ e.complete = false ∧ e.safe = false ∧ e.sampled = false ∧ e.issued = false ∧
    s.th.fr.chainOpen = false ∧ s.th.fr.m.pk = false ∧ s.th.fr.hist = [] ∧ s.th.fr.storeQ = []

/-- A resident page of the copy engine: n bytes at va lie at pa, in clean HBM outside every view (10 R296). -/
def EngineSees (s : State) (core ctx : Nat) (va : Word) (n : Nat) (acc : Access) (pa : Nat) : Prop :=
  PlainHbm s pa n ∧ (∀ k < n, (pa + k) / 32 ∉ s.poison) ∧ ∀ k < n, s.engineXlate core ctx (va + word k) acc = (s, .cell (pa + k))

/-- The command in a slot of a core's engine, with no command of the package paused (10 R296, R303). -/
def InSlot (s : State) (core slot : Nat) (c : CopyCmd) : Prop :=
  (s.copies.filter fun x => decide (x.core = core ∧ x.slot = slot)) = [c] ∧ ∀ x ∈ s.copies, x.paused = false

/-- A cut-list entry that is active and whose range holds a line (07 R170). -/
def CutHolds (s : State) (die line : Nat) (c : CutEntry) : Prop :=
  let at_ := s.schedPtr die (field c.bits 121 3)
  c ∈ s.unc.cuts ∧ c.die = die ∧ field c.bits 120 1 = 1 ∧ field c.bits 85 16 ≤ at_ ∧ at_ < field c.bits 101 16 ∧
    field c.bits 0 36 ≤ line ∧ line ≤ field c.bits 36 36

/-- The class of a line: that of the lowest-numbered such entry, 0 without one (07 R170). -/
def ClassIs (s : State) (die line k : Nat) : Prop :=
  ((∀ c, ¬ CutHolds s die line c) ∧ k = 0) ∨
    ∃ c, CutHolds s die line c ∧ k = field c.bits 117 3 ∧ ∀ d, CutHolds s die line d → c.index ≤ d.index

/-- The commands without one of them. -/
def withoutCopy (s : State) (c : CopyCmd) : List CopyCmd := s.copies.filter fun x => ¬ (x.owner = c.owner ∧ x.seq = c.seq)

/-- A stream register of the thread. -/
def streamOf (s : State) (n : Nat) : Stream := vecGet s.th.fab.fs n .reset

/-- The thread's stream register n replaced. -/
def withStream (s : State) (n : Nat) (x : Stream) : State := s.onFab fun f => { f with fs := vecSet f.fs n x }

/-- The whistle of a context, and the record of another in its place. -/
def whistleIs (s t : State) (w : Whistle) : Prop :=
  t.whistleOf w.ctx = w ∧ (∀ c, c ≠ w.ctx → t.whistleOf c = s.whistleOf c) ∧ { t with whistles := s.whistles, out := s.out } = s

/-- An entry that Eloaler has taken and not handled: its slot and its bytes, of a KIND. -/
def Taken (s : State) (kind slot : Nat) (e : List Byte) : Prop :=
  ∃ rest, s.hub.entries = (slot, e) :: rest ∧ bytesNat e 0 1 = kind

/-- The state with that entry handled. -/
def entryDone (s : State) : State := { s with hub := { s.hub with entries := s.hub.entries.drop 1 } }

/-- A context's address is mapped to a cell, and stays so whatever the n bytes there hold (13 R382), and its page's KEY is the one that memory
is seen under there (14 R408; the model's choice, log 70). -/
def Mapped (s : State) (ctx : Nat) (va : Word) (a n : Nat) : Prop :=
  PlainHbm s a n ∧ ∀ u : State, { u with mem := s.mem, unc := s.unc, poison := s.poison } = s → u.unc.fmtWins = [] → (∀ g ∈ u.poison, g ∈ s.poison) →
    (∀ b, b < a ∨ a + n ≤ b → memGet u.mem b = memGet s.mem b) → ∀ k < n, u.ctxCell ctx (va + word k) = some (a + k) ∧
      ∀ m ≤ n - k, u.ctxKeyed ctx (va + word k) (a + k) m = u

end Sys2Proof.Claims

namespace Sys2Proof.Claims

open Sys2Proof.Machine

/-! ### The fabric -/

/-- The smaller of two timeouts, 0 standing for none. -/
def sooner (a b : Nat) : Nat := if a = 0 then b else if b = 0 then a else min a b

/-- Numbers of 8 bytes each, the lowest byte first: how this model lays out the payload of a message (log 8). -/
def doubles (ns : List Nat) : List Byte := ns.flatMap (leBytes 8)

/-- The SEQ of the next flit to a package on a virtual channel (11 R332, Table 11.7). -/
def nextSeq (s : State) (dst vc : Nat) : Nat := ((s.unc.seqs.find? fun x => x.1 = dst ∧ x.2.1 = vc).map (·.2.2)).getD 0

/-- The flits of a message: payloads of at most 56 bytes in order, each behind its header (11 R331, Table 11.7). -/
def flitsOf (s : State) (type dst vc : Nat) (bs : List Byte) : List OutMsg :=
  (List.range ((bs.length + 55) / 56)).map fun k =>
    let part := (bs.drop (56 * k)).take 56
    .flit (word (dst + s.dev.rank * 2 ^ 14 + vc * 2 ^ 28 + type * 2 ^ 33 + (nextSeq s dst vc + k) % 65536 * 2 ^ 37 + part.length * 2 ^ 56)) part

/-- A message goes to a package: nothing where its route crosses a port that is down, else its flits, and the SEQ counts on
(11 R331 to R333). -/
def sentTo (s : State) (type dst vc : Nat) (bs : List Byte) : State :=
  if s.dev.routeDown dst ∨ bs = [] then s
  else
    let rest := s.unc.seqs.filter fun x => ¬ (x.1 = dst ∧ x.2.1 = vc)
    { s with
      out := s.out ++ flitsOf s type dst vc bs
      unc := { s.unc with seqs := (dst, vc, (nextSeq s dst vc + (bs.length + 55) / 56) % 65536) :: rest } }

/-- A message to the parent in the whistle tree; the root has none (11 R315). -/
def toParent (s : State) (data : List Nat) : State :=
  match s.dev.parent with | none => s | some p => sentTo s 11 p 18 (doubles data)

/-- A message to every child in the whistle tree (11 R315). -/
def toChildren (s : State) (data : List Nat) : State := s.dev.children.foldl (fun t r => sentTo t 11 r 18 (doubles data)) s

/-- A thread that has arrived at the whistle and waits for its release. -/
def waits (t : Thread) : Bool := t.fab.arrived && !t.fab.released

/-- The record of a context's whistle replaced. -/
def withWhistle (s : State) (w : Whistle) : State := { s with whistles := w :: s.whistles.filter fun x => x.ctx ≠ w.ctx }

/-- The marked windows of a context, as (rank, handle), each once: those here, and those that its members' acknowledgements and the child
packages have named (11 R311, R315). -/
def marked (s : State) (ctx : Nat) (p : Window → Bool) (far : List (Nat × Nat)) : List (Nat × Nat) :=
  (((s.windows.filter fun x => decide (x.ctx = ctx) && x.freeing.isNone && p x).map fun x => (s.dev.rank, x.handle)) ++ far).eraseDups

/-- Every member of this package and every child package has arrived (11 R315 step 1). -/
abbrev AllIn (s : State) (ctx : Nat) : Prop :=
  (∀ t ∈ s.membersOf ctx, t.bind.place ∈ (s.whistleOf ctx).counted) ∧ ∀ r ∈ s.dev.children, r ∈ (s.whistleOf ctx).children

/-- The package's own arrival goes to its parent, once, when every arrival below it has come, with the smallest timeout, the latest time of
step.at and the marked windows (11 R315, R318, R320). -/
def ownArrival (s : State) (ctx : Nat) : State :=
  let w := s.whistleOf ctx
  let list := fun (l : List (Nat × Nat)) => l.length :: l.flatMap fun x => [x.1, x.2]
  if w.sent = true ∨ w.skewed = true ∨ s.dev.parent = none ∨ ¬ AllIn s ctx then s
  else toParent (withWhistle s { w with sent := true })
    ([ctx, 1, w.timeout, w.applyAt] ++ list (marked s ctx (·.overflowed) w.overflow) ++ list (marked s ctx (·.conflicted) w.conflict))

/-- A start notice at this package: recorded, and sent on to the parent, its own always and a child's when it is smaller than every one
forwarded before (11 R315). -/
def noticed (own : Bool) (s : State) (ctx k : Nat) : State :=
  let w := s.whistleOf ctx
  let v := { w with timeout := sooner w.timeout k, firstAt := some (w.firstAt.getD s.gtime.toNat) }
  if own then toParent (withWhistle s v) [ctx, 0, k]
  else if ∀ t ∈ w.forwarded, k < t then toParent (withWhistle s { v with forwarded := k :: w.forwarded }) [ctx, 0, k] else withWhistle s v

/-- The reported window: the lowest (rank, handle) of those that carry the status (11 R318). -/
def Lowest (r : List (Nat × Nat)) (x : Nat × Nat) : Prop :=
  (r = [] ∧ x = (0, 0)) ∨ (x ∈ r ∧ ∀ y ∈ r, x.1 < y.1 ∨ (x.1 = y.1 ∧ x.2 ≤ y.2))

/-- An integer element as its type reads it. -/
def intOf (t : EType) (b x : Nat) : Int := if t.isSignedInt ∧ 2 ^ (b - 1) ≤ x then x - 2 ^ b else x

/-- The new value of an integer element x that two sources wrote, v₁ from the lower (11 Table 11.4). -/
def ruleInt (rule : Nat) (t : EType) (b x v1 v2 : Nat) : Nat :=
  let least := fun (p q : Nat) => if intOf t b p ≤ intOf t b q then p else q
  let most := fun (p q : Nat) => if intOf t b q ≤ intOf t b p then p else q
  match rule with
  | 0 => v1
  | 1 => v2
  | 2 => (x + v1 + v2) % 2 ^ b
  | 3 => least (least x v1) v2
  | 4 => most (most x v1) v2
  | 5 => x ||| v1 ||| v2
  | _ => x

/-- The context has one active window, of an integer type, whose buffer holds an entry of each of two sources for one element; the
element lies at pa in clean HBM (11 R307, R308). -/
structure TwoWrites (s : State) (ctx : Nat) (m : Window) (t : EType) (e1 e2 : DefEntry) (pa : Nat) : Prop where
  only : (s.windows.filter fun x => decide (x.ctx = ctx) && x.freeing.isNone) = [m]
  type : EType.ofCode m.ety = some t ∧ t.isFp = false ∧ t ≠ .fmt
  rule : m.rule < 7 ∧ m.overflowed = false ∧ m.releasing = false
  entries : m.entries = [e1, e2] ∧ e1.elem = e2.elem
  sources : e1.source.1 < e2.source.1 ∨ (e1.source.1 = e2.source.1 ∧ e1.source.2 < e2.source.2)
  place : pa = m.pages.getD (e1.elem * m.elemBytes / 65536) 0 + e1.elem * m.elemBytes % 65536
  clean : PlainHbm s pa m.elemBytes ∧ (∀ k < m.elemBytes, (pa + k) / 32 ∉ s.poison) ∧
    s.keyed (s.windowKey (s.walkerOf ctx) m.handle (e1.elem * m.elemBytes)) pa m.elemBytes = s

/-- The apply has run: the element has the value of its rule, every other byte is as it was, and the window is empty. -/
structure AppliedTwo (s t : State) (m : Window) (ty : EType) (e1 e2 : DefEntry) (pa : Nat) : Prop where
  value : BytesWritten s t pa (leBytes m.elemBytes (ruleInt m.rule ty ty.fixedBits (leNat (memBytes s.mem pa m.elemBytes))
    (e1.data.toNat % 2 ^ ty.fixedBits) (e2.data.toNat % 2 ^ ty.fixedBits)))
  windows : t.windows = s.windows.map fun x =>
    if x.ctx = m.ctx ∧ x.freeing = none then { x with entries := [], overflowed := false, conflicted := false } else x
  rest : { t with mem := s.mem, unc := s.unc, windows := s.windows } = s
  caches : cold s t.unc = s.unc

/-- A window with an entry more (11 R308, R311): of one source to one element the later write stands, and under ERROR a second
source marks the conflict. -/
def entered (m : Window) (e : DefEntry) : Window :=
  if m.cap ≤ m.entries.length then { m with overflowed := true }
  else { m with entries := m.entries ++ [e],
                conflicted := m.conflicted || (m.rule == 6 && m.entries.any fun x => x.elem == e.elem && x.source != e.source) }

/-- The marks that a write's acknowledgement brings join what the package's arrival carries (11 R311, R315). -/
def withMarks (s : State) (ctx : Nat) (x : Nat × Nat) (ov cf : Bool) : State :=
  let w := s.whistleOf ctx
  let add := fun (b : Bool) (l : List (Nat × Nat)) => if b = true ∧ x ∉ l then l ++ [x] else l
  if ov || cf then withWhistle s { w with overflow := add ov w.overflow, conflict := add cf w.conflict } else s

/-- The number here of the launch of a context whose entry has the TAG; one that has none here keeps the TAG beyond the numbers (13 R438). -/
def launchNo (s : State) (ctx tag : Nat) : Nat :=
  ((s.hub.launches.find? fun l => decide (l.ctx = ctx) && decide (leNat ((l.entry.drop 200).take 8) = tag)).map (·.number)).getD (2 ^ 64 + tag)

/-- An acknowledgement of an invalidation goes back towards the package whose window it names (11 R330). -/
def acked (s : State) (ctx target h : Nat) : State := sentTo s 7 (s.dev.treeHop target) 18 (doubles [ctx, h, target, s.dev.rank])

/-- Whether a relayed invalidation is that of a window of a package. -/
def relays (ctx target h : Nat) (r : Relay) : Bool := decide (r.ctx = ctx) && decide (r.target = target) && decide (r.handle = h)

/-- A step word may arrive when its entry issues: what `MayArrive` asks, of the entry (11 R313, R314, R321, R322). -/
structure StepReady (s : State) (e : VEntry) : Prop where
  word : e.slot = .word ∧ e.op = 0x73 ∧ s.issueOk { e with vtype := s.th.ln.vtype } = true
  fresh : s.th.fab.arrived = false ∧ s.th.fab.queued = false
  top : s.gangIsTop = true
  timeout : e.x0.toNat < 2 ^ 40
  skew : (s.whistles.any fun x => x.ctx = s.th.bind.ctx && x.skewed) = false
  stores : s.th.st.entries = [] ∧ s.th.st.unacked = [] ∧ s.th.fab.sent = []
  plain : s.th.ln.bad = [] ∧ ∀ n, (vecGet s.th.fab.fs n .reset).bound = false

/-- The gate of the gateway for a source package and communicator takes part now, with nothing that came early (11 R332). -/
def gateIs (s : State) (src vc next : Nat) (early : List (Nat × Option StreamMsg)) : Prop :=
  (s.unc.gates.find? fun g => g.src = src ∧ g.vc = vc).getD { src := src, vc := vc, next := 0, early := [] } =
    { src := src, vc := vc, next := next, early := early }

/-- That gate replaced. -/
def withGate (s : State) (src vc next : Nat) (early : List (Nat × Option StreamMsg)) : State :=
  let rest := s.unc.gates.filter fun g => ¬ (g.src = src ∧ g.vc = vc)
  { s with unc := { s.unc with gates := { src := src, vc := vc, next := next, early := early } :: rest } }

/-- The current thread is member q of the communicator, and its stream register k is the bound receive stream from member p. -/
def Receives (s : State) (m : StreamMsg) (k : Nat) : Prop :=
  s.isMember m.ctx m.comm m.receiver s.th = true ∧ k < 8 ∧ s.receiveFrom m.comm m.sender = some k

/-- The stream with data present that had room reserved (11 R342). -/
def received (x : Stream) (data : List Nat) : Stream :=
  { x with rx := x.rx ++ data.map (BitVec.ofNat 8), granted := x.granted - data.length }

end Sys2Proof.Claims

namespace Sys2Proof.Claims

open Sys2Proof.Machine

/-! ### Launches -/

/-- The place of a queue slot (14 Table 14.1). -/
def queueAt (slot : Nat) : Nat := 0xF0000000000 + 256 * slot

/-- The four doubles of a completion record (13 Table 13.2). -/
def recordOf (d0 tag gtime d3 : Nat) : List Byte := leBytes 8 d0 ++ leBytes 8 tag ++ leBytes 8 gtime ++ leBytes 8 d3

/-- A completion record and its report are written at COMPLETE; where COMPLETE is not aligned or not mapped the record goes over bytes 224
to 255 of the queue entry, whose KIND is then 0 (13 R382). -/
structure Recorded (s t : State) (ctx slot : Nat) (complete : Word) (rec report : List Byte) : Prop where
  home : ∀ a, complete.toNat % 32 = 0 → Mapped s ctx complete a (32 + report.length) → BytesWritten s t a (rec ++ report) ∧ t.lineKeys = s.lineKeys
  queue : complete.toNat % 32 ≠ 0 ∨ s.ctxCell ctx complete = none →
    t.MemOk ∧ memBytes t.mem (queueAt slot + 224) 32 = rec ∧ memGet t.mem (queueAt slot) = 0 ∧
      ∀ b, b ≠ queueAt slot → b < queueAt slot + 224 ∨ queueAt slot + 256 ≤ b → memGet t.mem b = memGet s.mem b
  rest : { t with mem := s.mem, unc := s.unc, poison := s.poison, lineKeys := s.lineKeys } = s
  caches : { cold s t.unc with merges := s.unc.merges } = s.unc

/-- An entry that is no running launch completes: OK with code 0, else REFUSED with the code (13 R382). -/
def Finished (s t : State) (slot : Nat) (e : List Byte) (code : Nat) (result : Word) : Prop :=
  Recorded s t (bytesNat e 14 2) slot (word (bytesNat e 56 8))
    (recordOf (code * 2 ^ 16 + if code = 0 then 1 else 6) (bytesNat e 200 8) s.gtime.toNat result.toNat) []

/-- A launch completes with a STATUS and is forgotten (13 R382, R383). -/
def Closed (s t : State) (l : Launch) (status : Nat) (report : List Word) : Prop :=
  ∃ u : State, Recorded s u l.ctx l.slot (word (bytesNat l.entry 56 8))
      (recordOf (l.ended * 2 ^ 24 + l.code * 2 ^ 16 + (if report = [] then 0 else 2 ^ 15) + (if l.unc then 2 ^ 14 else 0) + l.flags.toNat * 256 + status)
        (bytesNat l.entry 200 8) s.gtime.toNat ((l.firstFatal.map word).getD (BitVec.allOnes 64)).toNat)
      (report.flatMap fun x => leBytes 8 x.toNat) ∧
    t = { u with hub := { u.hub with launches := u.hub.launches.filter fun x => x.number ≠ l.number } }

/-- A launch together with what other packages report of it (13 R397, R438): counts and flags join, of two statuses the first of KILLED,
REFUSED, DEADLINE, STEP and FAULT stands (log 21), and of two first fatal ends the earlier; a launch that dispatch refused keeps its code
(13 R394). -/
def withShare (l : Launch) (x : LaunchShare) : Launch :=
  let is := fun (n : Nat) => l.status = n ∨ x.status = n
  let sum := { l with
    ended := l.ended + x.ended, flags := l.flags ||| x.flags
    status := if is 4 then 4 else if is 6 then 6 else if is 3 then 3 else if is 5 then 5 else if is 2 then 2 else 0 }
  if x.firstFatal ≠ none ∧ (l.firstFatal = none ∨ (x.report.getD 6 0).toNat < (l.report.getD 6 0).toNat) then
    { sum with firstFatal := x.firstFatal, code := if l.status = 6 then l.code else x.code, unc := x.unc, report := x.report }
  else sum

/-- A context holds no L2 way and has none saved (01 R12, R13). -/
def NoWays (s : State) (ctx : Nat) : Prop := (∀ c ∈ s.ctxs, c.id = ctx → c.runs = []) ∧ ∀ k ∈ s.saved, k.ctx ≠ ctx

/-- The context with an id. -/
def ctxIs (s : State) (id : Nat) (c : Ctx) : Prop := (s.ctxs.find? fun x => x.id = id) = some c

/-- Change the contexts with an id. -/
def withCtx (s : State) (id : Nat) (f : Ctx → Ctx) : State := { s with ctxs := s.ctxs.map fun c => if c.id = id then f c else c }

/-- The body of a section: zero for type 4 (13 Table 13.10). -/
def sectionBody (f : List Byte) (x : Section) : List Byte := if x.type = 4 then [] else (f.drop x.offset).take x.size

/-- Threads of a launch: the product of its levels' counts (13 R387). -/
def countsTo (e : List Byte) : Nat → Nat
  | 0 => 1
  | n + 1 => countsTo e n * bytesNat e (64 + 8 * n) 4

/-- A double of a slot-table entry, and a status word (13 R398; 14 R403). -/
def slotWord (s : State) (die entry k : Nat) : Nat := leNat (memBytes s.mem (0xF0000200000 + die * 0x10000 + entry * 64 + 8 * k) 8)
/-- The status word. -/
def statusWord (s : State) (die entry : Nat) : Nat := leNat (memBytes s.mem (0xF0000208000 + die * 0x10000 + entry * 8) 8)

/-- The state with another status word. -/
def withStatus (s : State) (die entry v : Nat) : State :=
  { s with mem := memPut s.mem (0xF0000208000 + die * 0x10000 + entry * 8) (leBytes 8 v) }

/-- No thread, launch, image, copy or communicator of a context is on the package. -/
structure CtxIdle (s : State) (id : Nat) (c : Ctx) : Prop where
  threads : ∀ t ∈ s.th :: s.others, t.bind.ctx ≠ id
  images : ∀ t ∈ s.images, t.bind.ctx ≠ id
  launches : ∀ l ∈ s.hub.launches, l.ctx ≠ id
  copies : ∀ x ∈ s.copies, x.ctx ≠ id
  rest : c.comms = [] ∧ c.runs = [] ∧ ∀ o ∈ c.objs, o.complete = none

end Sys2Proof.Claims

namespace Sys2Proof.Claims

open Sys2Proof.Machine

/-! ### The device -/

/-- A live queue pair (14 R404, R405). -/
def Live (s : State) (port qp : Nat) : Prop := ∃ q ∈ s.dev.qps, q.port = port ∧ q.qp = qp ∧ q.error = false

/-- A Remote Access Error NAK: the queue pair is in error (14 R404). -/
def refused (s : State) (port qp : Nat) : State :=
  { s with
    dev := { s.dev with qps := s.dev.qps.map fun q => if q.port = port ∧ q.qp = qp then { q with error := true } else q }
    out := s.out ++ [.rdmaNak port qp] }

/-- The device with a thread-wide change of a context's debug bit (12 R368). -/
def debugSet (s : State) (ctx : Nat) (b : Bool) : State :=
  let f := fun (t : Thread) => if t.bind.ctx = ctx then { t with fr := { t.fr with m := { t.fr.m with dbg := b } } } else t
  { withCtx s ctx fun c => { c with dbg := b } with th := f s.th, others := s.others.map f, images := s.images.map f }

/-- The debug port may read and change a context that is on the package and not confidential (12 R368). -/
def Open (s : State) (ctx : Nat) : Prop := ∃ c ∈ s.ctxs, c.id = ctx ∧ c.conf = false

/-- The torus ports that the pod's geometry uses (14 R416). -/
def portsOf (d : Device) : List Nat :=
  [0, 1, 2, 3, 4, 5].filter fun p => decide (1 < if p < 2 then d.dims.1 else if p < 4 then d.dims.2.1 else d.dims.2.2)

/-- Boot step 7 follows step 5 once the ports have trained and the package has locked (14 Table 14.4, R415, R416). -/
def joined (d : Device) : Device :=
  if d.step = 5 ∧ d.failed = none ∧ d.locked = true ∧ ∀ p ∈ portsOf d, p ∈ d.ports then { d with step := 7 } else d

/-- The neighbour of a port has this pod's geometry and the coordinates next to this package's on the port's ring (14 R416). -/
def Next (d : Device) (port : Nat) (nb : PortExchange) : Prop :=
  let go := fun (n c : Nat) => if port % 2 = 0 then (c + 1) % n else (c + n - 1) % n
  port < 6 ∧ (nb.dx, nb.dy, nb.dz) = d.dims ∧
    nb.x = (if port / 2 = 0 then go d.dims.1 d.coords.1 else d.coords.1) ∧ nb.y = (if port / 2 = 1 then go d.dims.2.1 d.coords.2.1 else d.coords.2.1) ∧
    nb.z = if port / 2 = 2 then go d.dims.2.2 d.coords.2.2 else d.coords.2.2

/-- No context is left on the package. -/
def Emptied (t : State) (p : Ctx → Prop) (s : State) : Prop := ∀ c ∈ s.ctxs, p c → ∀ x ∈ t.ctxs, x.id ≠ c.id

end Sys2Proof.Claims

namespace Sys2Proof.Claims

/-- The fields of a 64-bit word that are all zero: form VV, no mask, C clear, etype I8. -/
def plainWord : VWord :=
  { form := .vv, mask := 0, chain := false, rsel := .none, rsz := 0, ridx := 0, ety := .i8, fn := 0, vd := 0, va := 0, vb := 0, vc := 0 }

end Sys2Proof.Claims

open Sys2Proof Sys2Proof.Machine Sys2Proof.Claims

/-- 02 R28 to R46: the decoder gives back every well-formed instruction from the bytes of its encoding, whatever follows them. -/
def Obligations.DecodeOfEncode : Prop :=
  ∀ (i : Instr) (e : Encoding) (rest : List Byte),
    i.wellFormed = true → encode i = some e → decode 3 (e.bytes ++ rest) = .instr i rest

/-- 02 R43, R46: what the decoder accepts is well-formed, and its bytes are those of its encoding: no bit is passed over. -/
def Obligations.EncodeOfDecode : Prop :=
  ∀ (i : Instr) (bs rest : List Byte),
    decode 3 bs = .instr i rest → i.wellFormed = true ∧ ∃ e, encode i = some e ∧ bs = e.bytes ++ rest

/-- A step runs the decoded word: fetched at spc, 4 bytes or, with the length bit set, 8; a word that fails decode raises
IllegalInstruction (02 R28, R29, R43; 03 R55). Around `exec` a step closes the open convoy before a word that does not enter the
VIQ, gives the fetch buffer up where the front does not go on in sequence (`afterWord`), and lets time go on (`tick`). An input event
happens before any word (log 8: the model's own interface). -/
def Obligations.StepRunsDecoded : Prop :=
  (∀ s t : State, s.inputs = [] → s.sched = [] → s.th.life = .running → s.beforeWord = (s, true) →
    (∀ bs w, s.fetch s.th.fr.spc 4 = (t, .ok bs) → leNat bs = BitVec.toNat w → w.toNat < 2 ^ 31 →
      (∀ i, decode32 w = .ok i → step s = onNext State.tick (onNext (State.afterWord t.th.fr.spc 4) (onNext t.beforeFrontWord.orWait (exec i t.beforeFrontWord)))) ∧
      (∀ x, decode32 w = .error x →
        step s = .next ((t.beforeFrontWord.orWait (t.beforeFrontWord.frontFault .illegal)).afterWord t.th.fr.spc 4).tick)) ∧
    (∀ u bs cs (w : BitVec 64), s.fetch s.th.fr.spc 4 = (u, .ok bs) → 2 ^ 31 ≤ leNat bs → s.th.fr.spc.toNat % 8 = 0 →
      u.splitsEnd s.th.fr.spc = false → u.fetch s.th.fr.spc 8 = (t, .ok cs) → leNat cs = w.toNat →
      (∀ i, decode64 t.th.bind.level w = .ok i →
        let v := if frontMajor (w.extractLsb' 24 7).toNat then t.beforeFrontWord else t
        step s = onNext State.tick (onNext (State.afterWord t.th.fr.spc 8) (onNext v.orWait (exec i v)))) ∧
      (∀ x, decode64 t.th.bind.level w = .error x →
        let v := if frontMajor (w.extractLsb' 24 7).toNat then t.beforeFrontWord else t
        step s = .next (State.tick (State.afterWord t.th.fr.spc 8 (v.orWait (v.frontFault .illegal))))))) ∧
  (∀ (s : State) (i : Instr) (is : List Instr), s.inputs = i :: is → isEvent i = true →
    step s = exec i { s with inputs := is })

/-- No instruction and no event stops the machine: each answers a next state from every state, and so does a step whose
inputs are events. -/
def Obligations.EveryStepAnswers : Prop :=
  (∀ (i : Instr) (s : State), ∃ t, exec i s = .next t) ∧ ∀ s : State, s.InputsOk → ∃ t, step s = .next t

/-- The invariant of the memory list: its canonical form holds after every step (log 2). -/
def Obligations.StepKeepsMemory : Prop :=
  ∀ s t : State, s.MemOk → step s = .next t → t.MemOk

/-- After a cold boot the memory is canonical and reads zero everywhere, no context and no thread is there, gtime is zero, the
inputs hold no word, and the device stands at boot step 7 (07 R168; 14 R409). That memory reads zero is log 2's, the empty TLB and the zero of
gtime are log 1's, and the boot step and the measurement of the boot log 3's: the model's choices. -/
def Obligations.ResetState : Prop :=
  State.reset.MemOk ∧ State.reset.InputsOk ∧ (∀ a, State.reset.byteAt a = 0) ∧ State.reset.ctxs = [] ∧
    State.reset.th.life = .free ∧ State.reset.others = [] ∧ State.reset.gtime = 0 ∧ State.reset.dev.step = 7 ∧
    State.reset.unc.tlb = [] ∧ State.reset.poison = [] ∧ State.reset.lineKeys = [] ∧ State.reset.dev.mboot = Config.bootMeasure

/-- Bytes stored are read back, and every other byte reads as before (07 R178; memory in canonical form, log 2). -/
def Obligations.StoresReadBack : Prop :=
  ∀ (s : State) (a : Nat) (bs : List Byte), s.MemOk → s.unc.fmtWins = [] →
    (State.putBytes a bs s).MemOk ∧ (State.putBytes a bs s).bytesAt a bs.length = bs ∧
      (∀ c, c < a ∨ a + bs.length ≤ c → (State.putBytes a bs s).byteAt c = s.byteAt c) ∧
      { State.putBytes a bs s with mem := s.mem } = s

/-- Majors 0x00 to 0x0A and 0x20 to 0x24: the results of Tables 3.3 to 3.5, with DZ for a zero divisor, and those of R75 to R79, where no
trap is enabled for a flag they raise (03 R57, R66 to R69, R75 to R79; 04 R88). -/
def Obligations.ScalarWords : Prop :=
  ((∀ (i : Instr) (s : State) (d : RegNo) (x : Word) (fl : Flags), intResult s i = some (d, x, fl) →
    s.th.fr.curLane = none → fl &&& s.th.fr.copy.traps = 0 → ∃ t, exec i s = .next t ∧ RegisterWord s t d x fl) ∧
  (∀ (s : State) (d a b : RegNo), s.th.fr.curLane = none →
    (exec (.add d a b) s = .next ((s.wr d (s.rd a + s.rd b)).seqNext 4) ∧
      exec (.sub d a b) s = .next ((s.wr d (s.rd a - s.rd b)).seqNext 4) ∧
      exec (.and d a b) s = .next ((s.wr d (s.rd a &&& s.rd b)).seqNext 4) ∧
      exec (.or d a b) s = .next ((s.wr d (s.rd a ||| s.rd b)).seqNext 4) ∧
      exec (.xor d a b) s = .next ((s.wr d (s.rd a ^^^ s.rd b)).seqNext 4) ∧
      exec (.andn d a b) s = .next ((s.wr d (s.rd a &&& ~~~(s.rd b))).seqNext 4) ∧
      exec (.sll d a b) s = .next ((s.wr d (s.rd a <<< ((s.rd b).toNat % 64))).seqNext 4) ∧
      exec (.srl d a b) s = .next ((s.wr d (s.rd a >>> ((s.rd b).toNat % 64))).seqNext 4) ∧
      exec (.sra d a b) s = .next ((s.wr d ((s.rd a).sshiftRight ((s.rd b).toNat % 64))).seqNext 4) ∧
      exec (.ror d a b) s = .next ((s.wr d ((s.rd a).rotateRight ((s.rd b).toNat % 64))).seqNext 4) ∧
      exec (.slt d a b) s = .next ((s.wr d (if (s.rd a).toInt < (s.rd b).toInt then 1 else 0)).seqNext 4) ∧
      exec (.sltn d a b) s = .next ((s.wr d (if (s.rd a).toNat < (s.rd b).toNat then 1 else 0)).seqNext 4) ∧
      exec (.min d a b) s = .next ((s.wr d (if (s.rd a).toInt < (s.rd b).toInt then s.rd a else s.rd b)).seqNext 4) ∧
      exec (.max d a b) s = .next ((s.wr d (if (s.rd a).toInt < (s.rd b).toInt then s.rd b else s.rd a)).seqNext 4) ∧
      exec (.minn d a b) s = .next ((s.wr d (if (s.rd a).toNat < (s.rd b).toNat then s.rd a else s.rd b)).seqNext 4) ∧
      exec (.maxn d a b) s = .next ((s.wr d (if (s.rd a).toNat < (s.rd b).toNat then s.rd b else s.rd a)).seqNext 4) ∧
      exec (.mul d a b) s = .next ((s.wr d (s.rd a * s.rd b)).seqNext 4) ∧
      exec (.mulh d a b) s = .next ((s.wr d (BitVec.ofInt 64 ((s.rd a).toInt * (s.rd b).toInt / 2 ^ 64))).seqNext 4) ∧
      exec (.mulhn d a b) s = .next ((s.wr d (word ((s.rd a).toNat * (s.rd b).toNat / 2 ^ 64))).seqNext 4)) ∧
    (exec (.clz d a) s = .next ((s.wr d (word (leadingZeros (s.rd a).toNat 64))).seqNext 4) ∧
      exec (.ctz d a) s = .next ((s.wr d (word (trailingZeros (s.rd a).toNat 64))).seqNext 4) ∧
      exec (.cpop d a) s = .next ((s.wr d (word (onesCount (s.rd a).toNat 64))).seqNext 4)) ∧
    (∀ k : BitVec 13, exec (.addi d a k) s = .next ((s.wr d (s.rd a + k.signExtend 64)).seqNext 4) ∧
      exec (.andi d a k) s = .next ((s.wr d (s.rd a &&& k.signExtend 64)).seqNext 4) ∧
      exec (.ori d a k) s = .next ((s.wr d (s.rd a ||| k.signExtend 64)).seqNext 4) ∧
      exec (.xori d a k) s = .next ((s.wr d (s.rd a ^^^ k.signExtend 64)).seqNext 4) ∧
      exec (.slti d a k) s = .next ((s.wr d (if (s.rd a).toInt < k.toInt then 1 else 0)).seqNext 4) ∧
      exec (.sltin d a k) s = .next ((s.wr d (if (s.rd a).toNat < (k.signExtend 64).toNat then 1 else 0)).seqNext 4)) ∧
    (∀ h : BitVec 6, exec (.slli d a h) s = .next ((s.wr d (s.rd a <<< h.toNat)).seqNext 4) ∧
      exec (.srli d a h) s = .next ((s.wr d (s.rd a >>> h.toNat)).seqNext 4) ∧
      exec (.srai d a h) s = .next ((s.wr d ((s.rd a).sshiftRight h.toNat)).seqNext 4)) ∧
    (∀ k : BitVec 19, exec (.lui d k) s = .next ((s.wr d (k.signExtend 64 <<< 13)).seqNext 4) ∧
      exec (.addpc d k) s = .next ((s.wr d (s.th.fr.spc + (k.signExtend 64 <<< 13))).seqNext 4)) ∧
    (s.rd b ≠ 0 →
      exec (.div d a b) s = .next ((s.wr d (BitVec.ofInt 64 ((s.rd a).toInt.tdiv (s.rd b).toInt))).seqNext 4) ∧
      exec (.divn d a b) s = .next ((s.wr d (word ((s.rd a).toNat / (s.rd b).toNat))).seqNext 4) ∧
      exec (.rem d a b) s = .next ((s.wr d (BitVec.ofInt 64 ((s.rd a).toInt.tmod (s.rd b).toInt))).seqNext 4) ∧
      exec (.remn d a b) s = .next ((s.wr d (word ((s.rd a).toNat % (s.rd b).toNat))).seqNext 4)) ∧
    (s.rd b = 0 → fDZ &&& s.th.fr.copy.traps = 0 →
      exec (.div d a b) s = .next ((s.wrFlags d (BitVec.allOnes 64) fDZ).seqNext 4) ∧
      exec (.divn d a b) s = .next ((s.wrFlags d (BitVec.allOnes 64) fDZ).seqNext 4) ∧
      exec (.rem d a b) s = .next ((s.wrFlags d (s.rd a) fDZ).seqNext 4) ∧
      exec (.remn d a b) s = .next ((s.wrFlags d (s.rd a) fDZ).seqNext 4)))) ∧
  ((∀ (i : Instr) (s : State) (d : RegNo) (x : Word) (fl : Flags), fpResult s i = some (d, x, fl) →
    s.th.fr.curLane = none → fl &&& s.th.fr.copy.traps = 0 → ∃ t, exec i s = .next t ∧ RegisterWord s t d x fl) ∧
  (∀ (s : State) (d a b : RegNo) (m : BitVec 3), s.th.fr.curLane = none →
    (untrapped s (fp64.add m.toNat (fin fp64 s a) (fin fp64 s b)) → exec (.faddD d a b m) s = .next (written s d (fp64.add m.toNat (fin fp64 s a) (fin fp64 s b)))) ∧
    (untrapped s (fp64.sub m.toNat (fin fp64 s a) (fin fp64 s b)) → exec (.fsubD d a b m) s = .next (written s d (fp64.sub m.toNat (fin fp64 s a) (fin fp64 s b)))) ∧
    (untrapped s (fp64.mul m.toNat (fin fp64 s a) (fin fp64 s b)) → exec (.fmulD d a b m) s = .next (written s d (fp64.mul m.toNat (fin fp64 s a) (fin fp64 s b)))) ∧
    (untrapped s (fp64.div m.toNat (fin fp64 s a) (fin fp64 s b)) → exec (.fdivD d a b m) s = .next (written s d (fp64.div m.toNat (fin fp64 s a) (fin fp64 s b)))) ∧
    (untrapped s (fp64.sqrt m.toNat (fin fp64 s a)) → exec (.fsqrtD d a m) s = .next (written s d (fp64.sqrt m.toNat (fin fp64 s a)))) ∧
    (untrapped s (fp64.minMax true (fin fp64 s a) (fin fp64 s b)) → exec (.fminD d a b) s = .next (written s d (fp64.minMax true (fin fp64 s a) (fin fp64 s b)))) ∧
    (untrapped s (fp64.minMax false (fin fp64 s a) (fin fp64 s b)) → exec (.fmaxD d a b) s = .next (written s d (fp64.minMax false (fin fp64 s a) (fin fp64 s b)))) ∧
    (untrapped s (fp64.withSign (fin fp64 s a) ((fin fp64 s b).testBit 63), 0) → exec (.fsignCD d a b) s = .next (written s d (fp64.withSign (fin fp64 s a) ((fin fp64 s b).testBit 63), 0))) ∧
    (untrapped s (fp64.withSign (fin fp64 s a) (!(fin fp64 s b).testBit 63), 0) → exec (.fsignND d a b) s = .next (written s d (fp64.withSign (fin fp64 s a) (!(fin fp64 s b).testBit 63), 0))) ∧
    (untrapped s (fp64.withSign (fin fp64 s a) ((fin fp64 s a).testBit 63 ^^ (fin fp64 s b).testBit 63), 0) → exec (.fsignXD d a b) s = .next (written s d (fp64.withSign (fin fp64 s a) ((fin fp64 s a).testBit 63 ^^ (fin fp64 s b).testBit 63), 0))) ∧
    (untrapped s (fp32.add m.toNat (fin fp32 s a) (fin fp32 s b)) → exec (.faddS d a b m) s = .next (written s d (fp32.add m.toNat (fin fp32 s a) (fin fp32 s b)))) ∧
    (untrapped s (fp32.sub m.toNat (fin fp32 s a) (fin fp32 s b)) → exec (.fsubS d a b m) s = .next (written s d (fp32.sub m.toNat (fin fp32 s a) (fin fp32 s b)))) ∧
    (untrapped s (fp32.mul m.toNat (fin fp32 s a) (fin fp32 s b)) → exec (.fmulS d a b m) s = .next (written s d (fp32.mul m.toNat (fin fp32 s a) (fin fp32 s b)))) ∧
    (untrapped s (fp32.div m.toNat (fin fp32 s a) (fin fp32 s b)) → exec (.fdivS d a b m) s = .next (written s d (fp32.div m.toNat (fin fp32 s a) (fin fp32 s b)))) ∧
    (untrapped s (fp32.sqrt m.toNat (fin fp32 s a)) → exec (.fsqrtS d a m) s = .next (written s d (fp32.sqrt m.toNat (fin fp32 s a)))) ∧
    (untrapped s (fp32.minMax true (fin fp32 s a) (fin fp32 s b)) → exec (.fminS d a b) s = .next (written s d (fp32.minMax true (fin fp32 s a) (fin fp32 s b)))) ∧
    (untrapped s (fp32.minMax false (fin fp32 s a) (fin fp32 s b)) → exec (.fmaxS d a b) s = .next (written s d (fp32.minMax false (fin fp32 s a) (fin fp32 s b)))) ∧
    (untrapped s (fp32.withSign (fin fp32 s a) ((fin fp32 s b).testBit 31), 0) → exec (.fsignCS d a b) s = .next (written s d (fp32.withSign (fin fp32 s a) ((fin fp32 s b).testBit 31), 0))) ∧
    (untrapped s (fp32.withSign (fin fp32 s a) (!(fin fp32 s b).testBit 31), 0) → exec (.fsignNS d a b) s = .next (written s d (fp32.withSign (fin fp32 s a) (!(fin fp32 s b).testBit 31), 0))) ∧
    (untrapped s (fp32.withSign (fin fp32 s a) ((fin fp32 s a).testBit 31 ^^ (fin fp32 s b).testBit 31), 0) → exec (.fsignXS d a b) s = .next (written s d (fp32.withSign (fin fp32 s a) ((fin fp32 s a).testBit 31 ^^ (fin fp32 s b).testBit 31), 0))) ∧
    (untrapped s (fusedCode fp64 s d a b m false false) → exec (.fmaddD d a b m) s = .next (written s d (fusedCode fp64 s d a b m false false))) ∧
    (untrapped s (fusedCode fp64 s d a b m false true) → exec (.fmsubD d a b m) s = .next (written s d (fusedCode fp64 s d a b m false true))) ∧
    (untrapped s (fusedCode fp64 s d a b m true true) → exec (.fnmaddD d a b m) s = .next (written s d (fusedCode fp64 s d a b m true true))) ∧
    (untrapped s (fusedCode fp64 s d a b m true false) → exec (.fnmsubD d a b m) s = .next (written s d (fusedCode fp64 s d a b m true false))) ∧
    (untrapped s (fusedCode fp32 s d a b m false false) → exec (.fmaddS d a b m) s = .next (written s d (fusedCode fp32 s d a b m false false))) ∧
    (untrapped s (fusedCode fp32 s d a b m false true) → exec (.fmsubS d a b m) s = .next (written s d (fusedCode fp32 s d a b m false true))) ∧
    (untrapped s (fusedCode fp32 s d a b m true true) → exec (.fnmaddS d a b m) s = .next (written s d (fusedCode fp32 s d a b m true true))) ∧
    (untrapped s (fusedCode fp32 s d a b m true false) → exec (.fnmsubS d a b m) s = .next (written s d (fusedCode fp32 s d a b m true false))) ∧
    (untrapped s (fp64.round 0 (fp32.decode (fin fp32 s a))) → exec (.cvtDS d a) s = .next (written s d (fp64.round 0 (fp32.decode (fin fp32 s a))))) ∧
    (untrapped s (fp32.round m.toNat (fp64.decode (fin fp64 s a))) → exec (.cvtSD d a m) s = .next (written s d (fp32.round m.toNat (fp64.decode (fin fp64 s a))))) ∧
    (untrapped s (fp64.ofInt m.toNat (s.rd a).toInt) → exec (.cvtDI64 d a m) s = .next (written s d (fp64.ofInt m.toNat (s.rd a).toInt))) ∧
    (untrapped s (fp64.ofInt m.toNat (s.rd a).toNat) → exec (.cvtDN64 d a m) s = .next (written s d (fp64.ofInt m.toNat (s.rd a).toNat))) ∧
    (untrapped s (fp32.ofInt m.toNat (s.rd a).toInt) → exec (.cvtSI64 d a m) s = .next (written s d (fp32.ofInt m.toNat (s.rd a).toInt))) ∧
    (untrapped s (fp32.ofInt m.toNat (s.rd a).toNat) → exec (.cvtSN64 d a m) s = .next (written s d (fp32.ofInt m.toNat (s.rd a).toNat))) ∧
    (untrapped s (toIntType m.toNat false true 64 (fp64.decode (fin fp64 s a))) → exec (.cvtI64D d a m) s = .next (written s d (toIntType m.toNat false true 64 (fp64.decode (fin fp64 s a))))) ∧
    (untrapped s (toIntType m.toNat false false 64 (fp64.decode (fin fp64 s a))) → exec (.cvtN64D d a m) s = .next (written s d (toIntType m.toNat false false 64 (fp64.decode (fin fp64 s a))))) ∧
    (untrapped s (toIntType m.toNat false true 64 (fp32.decode (fin fp32 s a))) → exec (.cvtI64S d a m) s = .next (written s d (toIntType m.toNat false true 64 (fp32.decode (fin fp32 s a))))) ∧
    (untrapped s (toIntType m.toNat false false 64 (fp32.decode (fin fp32 s a))) → exec (.cvtN64S d a m) s = .next (written s d (toIntType m.toNat false false 64 (fp32.decode (fin fp32 s a))))) ∧
    (untrapped s (compares fp64 (fun x y => x.same y) false (fin fp64 s a) (fin fp64 s b)) → exec (.fcmpEqD d a b) s = .next (written s d (compares fp64 (fun x y => x.same y) false (fin fp64 s a) (fin fp64 s b)))) ∧
    (untrapped s (compares fp64 (fun x y => x.below y) true (fin fp64 s a) (fin fp64 s b)) → exec (.fcmpLtD d a b) s = .next (written s d (compares fp64 (fun x y => x.below y) true (fin fp64 s a) (fin fp64 s b)))) ∧
    (untrapped s (compares fp64 (fun x y => !y.below x) true (fin fp64 s a) (fin fp64 s b)) → exec (.fcmpLeD d a b) s = .next (written s d (compares fp64 (fun x y => !y.below x) true (fin fp64 s a) (fin fp64 s b)))) ∧
    (untrapped s ((2 ^ fp64.classOf (fin fp64 s a)), 0) → exec (.fkindD d a) s = .next (written s d ((2 ^ fp64.classOf (fin fp64 s a)), 0))) ∧
    (untrapped s (compares fp32 (fun x y => x.same y) false (fin fp32 s a) (fin fp32 s b)) → exec (.fcmpEqS d a b) s = .next (written s d (compares fp32 (fun x y => x.same y) false (fin fp32 s a) (fin fp32 s b)))) ∧
    (untrapped s (compares fp32 (fun x y => x.below y) true (fin fp32 s a) (fin fp32 s b)) → exec (.fcmpLtS d a b) s = .next (written s d (compares fp32 (fun x y => x.below y) true (fin fp32 s a) (fin fp32 s b)))) ∧
    (untrapped s (compares fp32 (fun x y => !y.below x) true (fin fp32 s a) (fin fp32 s b)) → exec (.fcmpLeS d a b) s = .next (written s d (compares fp32 (fun x y => !y.below x) true (fin fp32 s a) (fin fp32 s b)))) ∧
    (untrapped s ((2 ^ fp32.classOf (fin fp32 s a)), 0) → exec (.fkindS d a) s = .next (written s d ((2 ^ fp32.classOf (fin fp32 s a)), 0)))))

/-- A flag whose trap is enabled: the word raises Arithmetic with index "−" at its own address, and writes nothing (03 R75). A scalar access
that fails a check raises its cause at its own address: Misaligned before anything else, whatever its page, but that a DS page first has
the access wait while a stepq is pending and a store take Skew; a store of another size than its window's elements is Misaligned (03 R64,
R71; 11 R308, R321). -/
def Obligations.ScalarFaults : Prop :=
  (∀ (i : Instr) (s : State) (d : RegNo) (x : Word) (fl : Flags),
    intResult s i = some (d, x, fl) ∨ fpResult s i = some (d, x, fl) → s.th.fr.curLane = none → s.older = [] →
    fl &&& s.th.fr.copy.traps ≠ 0 →
    exec i s = .next (s.takeException .arithmetic noIndex s.th.fr.spc s.th.fr.spc (fl &&& s.th.fr.copy.traps) false)) ∧
  ((∀ (s : State) (va : Word) (n : Nat) (acc : Access), s.pending = false → s.skewed = false → va.toNat % n ≠ 0 →
    s.scalarCheck va n acc = (s, .error .misaligned)) ∧
  (∀ (s : State) (va : Word) (n : Nat) (pa : Nat) (w : Window), s.pending = false → s.skewed = false →
    s.pageSeen s.scalarCluster va = some (pa, 3) → s.windowAt s.th.bind.ctx pa = some w → n ≠ w.elemBytes →
    s.scalarCheck va n .write = (s, .error .misaligned)) ∧
  (∀ (s : State) (va : Word) (n : Nat) (acc : Access) (c : ExcCause), va.toNat % n = 0 → s.th.fr.curLane = none →
    s.dsFirst 0 va n false acc = none → s.xlate 0 va acc = .error c → s.scalarCheck va n acc = (s, .error c)) ∧
  ∀ (i : Instr) (s t : State) (n : Nat) (ext : Nat → Word) (d a b : RegNo) (k : BitVec 13) (c : ExcCause),
    s.th.fr.curLane = none → t.older = [] → t.th.fr = s.th.fr → c ≠ .preemption → c ≠ .skew →
    (loadForm i = some (n, ext, d, a, k) ∧ s.scalarCheck (s.rd a + k.signExtend 64) n .read = (t, .error c)) ∨
      (storeForm i = some (n, a, b, k) ∧ s.scalarCheck (s.rd a + k.signExtend 64) n .write = (t, .error c)) →
    exec i s = .next (t.takeException c noIndex s.th.fr.spc s.th.fr.spc 0 false))

/-- The words of a lane j, on the lane's elements: the integer and floating-point words; loads, whose bytes are those of the cluster's own
strip store buffer, else of memory; stores, which enter that buffer and change no memory; nop and the landing pads; indirect branches,
within the section's code. A 64-bit word, one that does not decode and one that R96 does not name raise IllegalInstruction, and a fetch
outside the code ControlFlow, each with index j at the lane's PC (04 R84, R96, R98, R99). Loads and stores are stated where their checks
pass, loads where nothing holds them, and stores where the buffer has room and holds no byte of their block. -/
def Obligations.LaneWords : Prop :=
  (∀ (i : Instr) (s : State) (j : Nat) (d : RegNo) (x : Word) (fl : Flags),
    intResult s i = some (d, x, fl) ∨ fpResult s i = some (d, x, fl) → s.th.fr.curLane = some j → j < 2048 →
    fl &&& s.th.fr.copy.traps = 0 → ∃ t, exec i s = .next t ∧ LaneRegisterWord s t j d x fl) ∧
  (∀ (i : Instr) (s : State) (j n : Nat) (ext : Nat → Word) (d a : RegNo) (k : BitVec 13) (pa kind : Nat),
    loadForm i = some (n, ext, d, a, k) → s.th.fr.curLane = some j → j < 2048 →
    s.scalarCheck (s.rd a + k.signExtend 64) n .read = (s, .ok (pa, kind)) → (kind = 1 → s.th.st.entries = []) →
    s.loadPoison pa kind n = false →
    ∃ t, exec i s = .next t ∧ LaneRegisterWord s { t with unc := s.unc } j d (ext (s.loadValue pa kind n)) 0 ∧
      (PlainHbm s pa n → kind < 3 → (∀ e ∈ s.th.st.entries, e.cluster = j / 8 → e.remote = none → e.block ≠ pa / 64) → pa % n = 0 →
        s.loadValue pa kind n = leNat (memBytes s.mem pa n))) ∧
  (∀ (i : Instr) (s : State) (j n : Nat) (a b : RegNo) (k : BitVec 13) (pa kind : Nat),
    storeForm i = some (n, a, b, k) → s.th.fr.curLane = some j → pa % n = 0 →
    s.scalarCheck (s.rd a + k.signExtend 64) n .write = (s, .ok (pa, kind)) → (kind = 1 → s.th.st.entries = []) →
    (∀ e ∈ s.th.st.entries, e.cluster = j / 8 → e.block ≠ pa / 64) →
    let bs := leBytes n (s.rd b).toNat
    let ws : List ElemWrite :=
      [{ index := 0, cluster := j / 8, bytes := (List.range n).map fun x => (pa + x, kind), value := bs, mark := 3, order := s.scalarOrder }]
    s.overAllowance none ws = false → s.lacksEntries none ws = false →
    ∃ t, exec i s = .next t ∧ t.th.fr.spc = s.th.fr.spc + 4 ∧
      (∀ x < n, stripByte (pa + x) (t.th.st.entries.filter fun e => e.cluster = j / 8) = some (3, bs.getD x 0)) ∧
      (∀ c cl, c < pa ∨ pa + n ≤ c →
        stripByte c (t.th.st.entries.filter fun e => e.cluster = cl) = stripByte c (s.th.st.entries.filter fun e => e.cluster = cl)) ∧
      ((t.onFr fun f => { f with spc := s.th.fr.spc }).onFab fun f => { f with dsOrder := s.th.fab.dsOrder }).onSt (fun _ => s.th.st) = s) ∧
  (∀ (s : State) (j : Nat), s.th.fr.curLane = some j → ∀ i ∈ [Instr.nop, .lpadC, .lpadJ, .lpadR],
    exec i s = .next (s.onFr fun f => { f with spc := s.th.fr.spc + 4 })) ∧
  (∀ (i : Instr) (s : State) (j : Nat) (l : LaneSection) (a : RegNo) (pad : Nat) (link : Bool) (w : BitVec 32),
    indirectForm i = some (a, pad, link) → s.th.fr.curLane = some j → s.th.fr.lanes = some l →
    ((s.rd a).toNat % 4 ≠ 0 ∨ (l.wordAt (s.rd a) = some w ∧ w.toNat ≠ pad) →
      exec i s = .next (s.takeException .controlFlow (word j) s.th.fr.spc l.origin 0 true)) ∧
    (j < 2048 → (s.rd a).toNat % 4 = 0 → l.wordAt (s.rd a) = some w → w.toNat = pad → ∃ t, exec i s = .next t ∧ t.th.fr.spc = s.rd a ∧
      (link = true → t.rd 1 = s.th.fr.spc + 4 ∧ ∀ r, r ≠ 1 → t.rd r = s.rd r) ∧
      (link = false → t.onFr (fun f => { f with spc := s.th.fr.spc }) = s))) ∧
  ∀ (s : State) (j : Nat) (l : LaneSection) (pc : Word), s.th.fr.curLane = some j → s.th.fr.lanes = some l →
    (l.wordAt pc = none → s.laneWord l pc = s.takeException .controlFlow (word j) s.th.fr.spc l.origin 0 true) ∧
    ∀ w, l.wordAt pc = some w →
      (2 ^ 31 ≤ w.toNat ∨ (∃ x, decode32 w = .error x) ∨ (∃ i, decode32 w = .ok i ∧ laneLegal s i = false) →
        s.laneWord l pc = s.takeException .illegal (word j) s.th.fr.spc l.origin 0 true)

/-- Loads at the front whose checks pass and that need not wait: s[d] takes the extended value, which in plain memory is the
little-endian number of its bytes; memory stays (03 R70 to R72). Only the data cache may take the line. -/
def Obligations.ScalarLoads : Prop :=
  ∀ (i : Instr) (s : State) (n : Nat) (ext : Nat → Word) (d a : RegNo) (k : BitVec 13) (pa kind : Nat),
    loadForm i = some (n, ext, d, a, k) → s.th.fr.curLane = none →
    s.scalarCheck (s.rd a + k.signExtend 64) n .read = (s, .ok (pa, kind)) → s.loadWaits kind (s.rd a + k.signExtend 64) n = false →
    s.loadPoison pa kind n = false → (kind = 1 → s.th.st.entries = []) →
    ∃ t, exec i s = .next t ∧ RegisterWord s { t with unc := s.unc } d (ext (s.loadValue pa kind n)) 0 ∧
      (∀ c, t.byteAt c = s.byteAt c) ∧
      (PlainHbm s pa n → NoBuffers s → s.loadValue pa kind n = leNat (memBytes s.mem pa n))

/-- Stores at the front whose checks pass: behind a word that can still fault the bytes wait in the store queue and no byte of memory
changes; with no such word they are at the n bytes of HBM or shared store that pa stands for, the physical address of s[a] + offset, and no
other byte changes. In a sync window the 8 bytes become the home register, and on a DS page they are entered in the window, whose bytes
stay (03 R61, R63, R70; 10 R282, R283; 11 R308). -/
def Obligations.ScalarStores : Prop :=
  ∀ (i : Instr) (s : State) (n : Nat) (a b : RegNo) (k : BitVec 13) (pa kind : Nat),
    storeForm i = some (n, a, b, k) → s.th.fr.curLane = none → NoBuffers s → s.MemOk →
    s.scalarCheck (s.rd a + k.signExtend 64) n .write = (s, .ok (pa, kind)) →
    ((∃ v ∈ s.inLanes, v.safe = false ∧ v.seq ≤ s.th.fr.seq) → ∃ t, exec i s = .next t ∧ t.mem = s.mem ∧
      t.th.fr.storeQ = [⟨pa, leBytes n (s.rd b).toNat, kind, s.th.fr.seq, if kind = 3 then s.scalarOrder else 0, s.th.fr.m.lvl⟩]) ∧
    (∀ c, Cells s pa n c → kind < 3 → s.unsafeOlder = false → ∃ t, exec i s = .next t ∧
      t.bytesAt c n = leBytes n (s.rd b).toNat ∧ (∀ x, x < c ∨ c + n ≤ x → t.byteAt x = s.byteAt x) ∧
      t.th.fr.spc = (s.arrive (s.th.fr.spc + 4)).2 ∧
      { t.onFr (fun f => { f with spc := s.th.fr.spc, regs := s.th.fr.regs }) with mem := s.mem, unc := s.unc, poison := s.poison } = s) ∧
    (∀ die r o, s.target s.th.bind.ctx pa = .sync die r o → kind = 1 → s.unsafeOlder = false → ∃ t, exec i s = .next t ∧
      n = 8 ∧
      t.sync.home.find? (fun e => e.1 = die * 512 + r) = some (die * 512 + r, s.rd b) ∧
      (∀ x, x ≠ die * 512 + r → t.sync.home.find? (fun e => e.1 = x) = s.sync.home.find? (fun e => e.1 = x)) ∧
      t.mem = s.mem ∧ t.th.fr.spc = (s.arrive (s.th.fr.spc + 4)).2) ∧
    (∀ w, kind = 3 → (∃ c, Cells s pa n c) → s.windowAt s.th.bind.ctx pa = some w → s.skewed = false → s.unsafeOlder = false → ∃ t, exec i s = .next t ∧
      t.mem = s.mem ∧ t.th.fr.storeQ = [] ∧ t.th.fr.spc = (s.arrive (s.th.fr.spc + 4)).2 ∧
      t.windows = s.windows.map fun x => if x.ctx = w.ctx ∧ x.handle = w.handle then
        (w.enter ⟨w.offsetOf pa / w.elemBytes, word (leNat (leBytes n (s.rd b).toNat)), (s.dev.rank, s.th.bind.place), s.th.bind.launch, s.scalarOrder⟩).1 else x)

/-- Behind a word that can still fault, a register word logs what it replaces, and unwinding to a point no younger than it gives
the front's registers and loop sets back (03 R60, R64). -/
def Obligations.HistoryRestores : Prop :=
  ∀ (i : Instr) (s t : State) (d : RegNo) (x : Word) (fl : Flags) (k : Nat) (keep : List VEntry),
    intResult s i = some (d, x, fl) ∨ fpResult s i = some (d, x, fl) → s.th.fr.curLane = none → s.unsafeOlder = true →
    fl &&& s.th.fr.copy.traps = 0 → (∀ h ∈ s.th.fr.hist, h.seq < k) → k ≤ s.th.fr.seq → exec i s = .next t →
    (t.unwind k keep).th.fr.s = s.th.fr.s ∧ (t.unwind k keep).th.fr.regs = s.th.fr.regs ∧
      (t.unwind k keep).th.fr.hist = s.th.fr.hist ∧ (t.unwind k keep).th.ln = s.th.ln

/-- A code that is no NaN stands for a value that its format rounds to the code itself, in every mode and without a flag
(06 R139 to R147), for the six formats of Table 2.3. -/
def Obligations.RoundOfDecode : Prop :=
  ∀ f ∈ [fp64, fp32, fp16, bf16, e4m3, e5m2], ∀ mode x : Nat, mode ≤ 4 → x < 2 ^ f.width → (f.decode x).isNan = false →
    f.round mode (f.decode x) = (x, 0)

/-- Direct branches go to P + Sext(imm) × 4 when their relation holds, with s1 := P + 4 for call, and else on in sequence; in a lane
the lane's PC moves (04 R81, R82, R89, R96). -/
def Obligations.DirectBranches : Prop :=
  ∀ (i : Instr) (s : State) (taken : Bool) (target : Word) (link : Bool), branchForm s i = some (taken, target, link) →
    (s.th.fr.curLane = none →
      exec i s = .next (if taken then (if link then s.wr 1 (s.th.fr.spc + 4) else s).branchTo target else s.seqNext 4)) ∧
    ∀ j < 2048, s.th.fr.curLane = some j → ∃ t, exec i s = .next t ∧ t.th.fr.spc = (if taken then target else s.th.fr.spc + 4) ∧
      (link = true → t.rd 1 = s.th.fr.spc + 4 ∧ ∀ r, r ≠ 1 → t.rd r = s.rd r) ∧ (link = false → t.onFr (fun f => { f with spc := s.th.fr.spc }) = s)

/-- Indirect branches go to s[a] where the landing pad of their kind stands; a target that is no multiple of 4, or any other word
there, raises ControlFlow; calli, jmpi and ret each complete at their own landing pad (04 R84). -/
def Obligations.IndirectBranches : Prop :=
  (∀ (i : Instr) (s : State) (a : RegNo) (pad : Nat) (link : Bool), indirectForm i = some (a, pad, link) →
    s.th.fr.curLane = none →
    ((s.rd a).toNat % 4 ≠ 0 → s.older = [] → exec i s = .next (faultsHere s .controlFlow)) ∧
    ∀ u bs, (s.rd a).toNat % 4 = 0 → s.fetchFresh (s.rd a) 4 = (u, .ok bs) → u.th.fr.curLane = none → bs.length ≤ 4 →
      (leNat bs = pad → exec i s = .next ((if link then u.wr 1 (u.th.fr.spc + 4) else u).branchTo (s.rd a))) ∧
      (leNat bs ≠ pad → u.older = [] → exec i s = .next (faultsHere u .controlFlow))) ∧
  (∀ (s u : State) (a : RegNo) (bs : List Byte), s.th.fr.curLane = none → (s.rd a).toNat % 4 = 0 →
    s.fetchFresh (s.rd a) 4 = (u, .ok bs) → u.th.fr.curLane = none → bs.length = 4 →
    (leNat bs = 0x70000004 → exec (.calli a) s = .next ((u.wr 1 (u.th.fr.spc + 4)).branchTo (s.rd a))) ∧
    (leNat bs = 0x70000005 → exec (.jmpi a) s = .next (u.branchTo (s.rd a))) ∧
    (leNat bs = 0x70000006 → exec (.ret a) s = .next (u.branchTo (s.rd a))))

/-- nop and the landing pads only go on in sequence (04 R83). wait.t gives gtime once it has reached s[a], and else holds the front; dline only
moves the deadline earlier (04 R100, R101). -/
def Obligations.WaitingWords : Prop :=
  (∀ (s : State), s.th.fr.curLane = none → ∀ i ∈ [Instr.nop, .lpadC, .lpadJ, .lpadR], exec i s = .next (s.seqNext 4)) ∧
  (∀ (s : State) (d a : RegNo), s.th.fr.curLane = none →
    (s.th.fr.wait = .none → s.rd a ≤ s.gtime → ∃ t, exec (.waitT d a) s = .next t ∧ RegisterWord s t d s.gtime 0) ∧
    (s.gtime < s.rd a → exec (.waitT d a) s = .next (s.onFr fun f => { f with wait := .time d (s.rd a) })) ∧
    ∃ u : State, exec (.dline a) s = .next (u.seqNext 4) ∧
      u.th.fr.regs.dline = (if s.rd a ≤ s.th.fr.regs.dline then s.rd a else s.th.fr.regs.dline) ∧
      u.onFr (fun f => { f with hist := s.th.fr.hist, regs := { f.regs with dline := s.th.fr.regs.dline } }) = s)

/-- Going on in sequence at U: where an active set ends at the address, its COUNT goes down and the front goes to its start while COUNT
remains, else the set ends; of two sets that end there the one with N goes first, and with neither or both set 1, the model's choice (04 R88;
log 59). A taken branch at U ends the active sets whose
body does not hold the target, each with its inner set; at M it touches none (04 R89, R91). -/
def Obligations.LoopBounds : Prop :=
  (∀ (s : State) (n : Nat), s.th.fr.m.lvl = false →
    let a := s.th.fr.spc + word n
    let t := s.seqNext n
    (s.endsAt false a = false → s.endsAt true a = false → t = s.onFr fun f => { f with spc := a }) ∧
    (∀ k, s.endsAt k a = true → s.endsAt (!k) a = false →
      t.zc (!k) = s.zc (!k) ∧
      (1 < zcCount (s.zc k) → t.th.fr.spc = s.zs k ∧ zcCount (t.zc k) = zcCount (s.zc k) - 1 ∧ zcA (t.zc k) = true ∧
        zcN (t.zc k) = zcN (s.zc k)) ∧
      (zcCount (s.zc k) ≤ 1 → t.th.fr.spc = a ∧ t.zc k = 0)) ∧
    (∀ k, s.endsAt k a = true → s.endsAt (!k) a = true →
      (zcN (s.zc k) = true ∧ zcN (s.zc (!k)) = false) ∨ (zcN (s.zc k) = zcN (s.zc (!k)) ∧ k = true) →
      (1 < zcCount (s.zc k) → t.th.fr.spc = s.zs k ∧ zcCount (t.zc k) = zcCount (s.zc k) - 1 ∧ t.zc (!k) = s.zc (!k)) ∧
      (zcCount (s.zc k) ≤ 1 → t.zc k = 0 ∧
        (1 < zcCount (s.zc (!k)) → t.th.fr.spc = s.zs (!k) ∧ zcCount (t.zc (!k)) = zcCount (s.zc (!k)) - 1) ∧
        (zcCount (s.zc (!k)) ≤ 1 → t.th.fr.spc = a ∧ t.zc (!k) = 0)))) ∧
  (∀ (s : State) (target : Word),
    (s.branchTo target).th.fr.spc = target ∧
    (s.th.fr.m.lvl = true → s.branchTo target = s.onFr fun f => { f with spc := target }) ∧
    (s.th.fr.m.lvl = false → ∀ k,
      let out := fun k => zcA (s.zc k) && !(decide (s.zs k ≤ target) && decide (target < s.ze k))
      (s.branchTo target).zc k =
        if zcA (s.zc k) ∧ (out k = true ∨ (out (!k) = true ∧ zcN (s.zc k) = true)) then word (zcCount (s.zc k)) else s.zc k))

/-- loop starts set n over the words from P + 4 to E with count s[a], nested where the other set is active; a count of zero goes to E;
what R87 forbids is illegal. lbrk ends set n and the set inner to it (04 R87, R90). -/
def Obligations.LoopWords : Prop :=
  ∀ (s : State) (b : BitVec 1) (a : RegNo) (k : BitVec 13), s.th.fr.curLane = none →
    let n := b == 1#1
    let e := s.th.fr.spc + (k.signExtend 64 <<< 2)
    let bad := s.th.fr.m.lvl = true ∨ k.toInt < 2 ∨ 2 ^ 48 ≤ (s.rd a).toNat ∨ zcA (s.zc n) = true ∨
      (zcA (s.zc (!n)) = true ∧ ¬ (s.zs (!n) ≤ s.th.fr.spc + 4 ∧ e ≤ s.ze (!n)))
    (bad → s.older = [] → exec (.loop b a k) s = .next (faultsHere s .illegal)) ∧
    (¬ bad → s.rd a = 0 → exec (.loop b a k) s = .next ((s.arrive e).1.onFr fun f => { f with spc := (s.arrive e).2 })) ∧
    (¬ bad → s.rd a ≠ 0 → ∃ u : State, exec (.loop b a k) s = .next (u.seqNext 4) ∧
      vecGet u.th.fr.regs.zs (setIx n) 0 = s.th.fr.spc + 4 ∧ vecGet u.th.fr.regs.ze (setIx n) 0 = e ∧
      u.zc n = word ((s.rd a).toNat + 2 ^ 48 + (if zcA (s.zc (!n)) then 2 ^ 49 else 0)) ∧ u.zc (!n) = s.zc (!n) ∧
      u.onFr (fun f => { f with hist := s.th.fr.hist, regs := s.th.fr.regs }) = s) ∧
    ∃ u : State, exec (.lbrk b) s = .next (u.seqNext 4) ∧
      u.zc n = (if zcA (s.zc n) then word (zcCount (s.zc n)) else s.zc n) ∧
      u.zc (!n) = (if zcA (s.zc n) ∧ zcN (s.zc (!n)) ∧ zcA (s.zc (!n)) then word (zcCount (s.zc (!n))) else s.zc (!n)) ∧
      u.onFr (fun f => { f with hist := s.th.fr.hist, regs := s.th.fr.regs }) = s

/-- smb: the count, the registers of smbc and sbase move by a strip of vl elements, the open strip commits, and while elements remain
the front branches back with the next vl in its copy and in the lanes (04 R94; 07 R185). Stated where nothing is in flight and the strip
holds no entry. smbcfg writes one slot of smbc (04 R93). -/
def Obligations.StripWords : Prop :=
  (∀ (s : State) (a : RegNo) (k : BitVec 13), Idle s → s.th.fr.m.lvl = false → s.th.st.entries = [] →
    (∀ j < 4, smbSize s.th.fr.regs.smbc j ≠ 0 → smbReg s.th.fr.regs.smbc j ≠ a) →
    let vl := s.th.fr.copy.vl
    let n := (s.rd a).toInt - vl
    let nv := min n.toNat (vlmax s.width (Machine.sizeOf (vtEsz s.th.ln.vtype)))
    ∃ t, exec (.smb a k) s = .next t ∧ (a ≠ 0 → t.rd a = BitVec.ofInt 64 n) ∧
      (∀ r, r ≠ 0 → r ≠ a → t.rd r = s.rd r + slotsAdd s.th.fr.regs.smbc vl r) ∧
      t.th.fr.regs.sbase = s.th.fr.regs.sbase + word vl ∧ t.th.st.open_ = s.th.st.open_ + 1 ∧ t.th.st.unc = false ∧ t.mem = s.mem ∧
      (0 < n → t.th.fr.copy.vl = nv ∧ t.th.ln.vl = nv ∧ t.th.fr.spc = s.th.fr.spc + (k.signExtend 64 <<< 2)) ∧
      (n ≤ 0 → t.th.fr.copy.vl = vl ∧ t.th.ln.vl = s.th.ln.vl ∧ t.th.fr.spc = (s.arrive (s.th.fr.spc + 4)).2) ∧
      { t.th.fr.regs with sbase := s.th.fr.regs.sbase, zc := s.th.fr.regs.zc } = s.th.fr.regs ∧
      ((t.onFr fun f => { f with s := s.th.fr.s, spc := s.th.fr.spc, regs := s.th.fr.regs, copy := { f.copy with vl := vl }, seq := s.th.fr.seq }).onLn
        fun l => { l with vl := s.th.ln.vl }).onSt (fun _ => s.th.st) = s) ∧
  ∀ (s : State) (d : RegNo) (z : BitVec 3) (j : BitVec 2), (Instr.smbcfg d z j).wellFormed = true → ∃ u : State, exec (.smbcfg d z j) s = .next (u.seqNext 4) ∧
    smbSize u.th.fr.regs.smbc j.toNat = z.toNat ∧ smbReg u.th.fr.regs.smbc j.toNat = d ∧
    (∀ i < 4, i ≠ j.toNat → smbSize u.th.fr.regs.smbc i = smbSize s.th.fr.regs.smbc i ∧
      smbReg u.th.fr.regs.smbc i = smbReg s.th.fr.regs.smbc i) ∧
    u.onFr (fun f => { f with hist := s.th.fr.hist, regs := { f.regs with smbc := s.th.fr.regs.smbc } }) = s

/-- lsplit starts a lane section at U: every lane of the thread at the first word of the code, which is fetched once; a bad extent is
illegal. ljoin ends its lane, and with the last lane the section: the front goes on after the lsplit (04 R95, R99). That lane 0 of each
cluster issues first, which `last` says, is the model's choice (log 60). -/
def Obligations.LaneSections : Prop :=
  (∀ (s : State) (a b : RegNo), s.th.fr.curLane = none → s.th.fr.m.lvl = false → s.older = [] →
    let len := (s.rd b).toNat
    let bad := (s.rd a).toNat % 4 ≠ 0 ∨ len % 4 ≠ 0 ∨ len < 4 ∨ 8192 < len
    (bad → exec (.lsplit a b) s = .next (faultsHere s .illegal)) ∧
    ∀ u code, ¬ bad → fetchCode (s.rd a) (len / 4) s = (u, .ok code) →
      exec (.lsplit a b) s = .next (u.onFr fun f => { f with lanes := some {
          origin := s.th.fr.spc, start := s.rd a, len := len, code := code, pcs := List.replicate (8 * s.width) (s.rd a),
          joined := List.replicate (8 * s.width) false, last := List.replicate s.width 7 } })) ∧
  (∀ (s : State) (j : Nat) (l : LaneSection), s.th.fr.curLane = some j → s.th.fr.lanes = some l →
    ((l.joined.set j true).all id = false →
      exec .ljoin s = .next (s.onFr fun f => { f with lanes := some { l with joined := l.joined.set j true } })) ∧
    ((l.joined.set j true).all id = true →
      exec .ljoin s = .next ((s.onFr fun f => { f with lanes := none, curLane := none, spc := l.origin }).seqNext 4))) ∧
  ∀ s : State, s.th.fr.curLane = none → s.older = [] → exec .ljoin s = .next (faultsHere s .illegal)

/-- end at U, with nothing of the thread in flight: the thread leaves its slot, whose entry is no longer valid, and its launch counts it
and takes its flags; at M the word is illegal (04 R103; 13 R397, R399; 12 R348). -/
def Obligations.EndOfThread : Prop :=
  ∀ s : State, s.th.fr.curLane = none →
    (s.th.fr.m.lvl = true → s.older = [] → exec .endThread s = .next (faultsHere s .illegal)) ∧
    (s.th.fr.m.lvl = false → s.MemOk → s.th.fr.viq = [] → s.th.fr.stepq = none → s.th.fr.storeQ = [] → s.th.st.isOpen = false → s.th.st.unc = false → s.storesDone = true → s.pending = false → s.copies = [] →
      (∀ k < 8, (vecGet s.th.fab.fs k .reset).stage = []) → ∃ t, exec .endThread s = .next t ∧ t.th.life = .ended ∧
        leNat (memBytes t.mem (slotEntry s.th.bind.die (4 * s.th.bind.core + s.th.bind.slot)) 8) % 2 = 0 ∧
        t.hub.launches = (s.hub.launches.map fun l =>
          if l.number = s.th.bind.launch then { l with ended := l.ended + 1, flags := l.flags ||| s.th.ln.flags } else l) ∧
        t.th.fr.s = s.th.fr.s ∧ t.others = s.others)

/-- mfc and mfc.m: the value of Table 2.8; a lane register is read once every older VIQ word has retired; an unlisted number, a number of
M level from mfc, and mfc.m at U are illegal (02 R48; 03 R74; 12 R355, R356). -/
def Obligations.ReadControl : Prop :=
  ∀ (s : State) (d : RegNo) (n : BitVec 12), s.th.fr.curLane = none →
    (∀ x, (n.toNat, x) ∈ frontTable s ∨ ((n.toNat, x) ∈ laneTable s ∧ s.older = []) →
      (∃ t, exec (.mfc d n) s = .next t ∧ RegisterWord s t d x 0) ∧
      (s.th.fr.m.lvl = true → ∃ t, exec (.mfcM d n) s = .next t ∧ RegisterWord s t d x 0)) ∧
    (∀ x, (n.toNat, x) ∈ mTable s → s.th.fr.m.lvl = true → ∃ t, exec (.mfcM d n) s = .next t ∧ RegisterWord s t d x 0) ∧
    (s.older = [] → 0x800 ≤ n.toNat ∨ crClass n.toNat = none → exec (.mfc d n) s = .next (faultsHere s .illegal)) ∧
    (s.older = [] → s.th.fr.m.lvl = false → exec (.mfcM d n) s = .next (faultsHere s .illegal))

/-- mtc: a front register takes the value, a lane register takes it in order through the VIQ, vxflags clears the flags written 1 and takes
the trap enables, sstat clears UNCS, ptag takes its TAG, and a read-only register takes nothing; a reserved bit is illegal (00 R5; 03 R74).
A loop set that the word may activate is written after the arrival at the next word: the model's reading of R86 (04 R86; log 36). -/
def Obligations.WriteControl : Prop :=
  ∀ (s : State) (a : RegNo) (n : BitVec 12), s.th.fr.curLane = none →
    let x := s.rd a
    let starts := (n = 0x042 ∧ zcA (s.zc false) = false) ∨ (n = 0x045 ∧ zcA (s.zc true) = false)
    (∀ rs, (n.toNat, rs) ∈ frontWrites → x &&& rs = 0 →
      (¬ starts → ∃ u : State, exec (.mtc a n) s = .next (u.seqNext 4) ∧ u.crValue n.toNat = x ∧
        u.onFr (fun f => { f with hist := s.th.fr.hist, regs := s.th.fr.regs }) = s) ∧
      (starts → ∃ u : State, exec (.mtc a n) s = .next u ∧ u.crValue n.toNat = x ∧
        u.onFr (fun f => { f with hist := (s.seqNext 4).th.fr.hist, regs := (s.seqNext 4).th.fr.regs }) = s.seqNext 4)) ∧
    (n = 0x072 → x &&& 0xFFF0 = 0 → ∃ u : State, exec (.mtc a n) s = .next (u.seqNext 4) ∧
      u.th.fr.regs.ptag = word (s.th.fr.regs.ptag.toNat / 16 * 16 + x.toNat % 16) ∧
      u.onFr (fun f => { f with hist := s.th.fr.hist, regs := { f.regs with ptag := s.th.fr.regs.ptag } }) = s) ∧
    (n.toNat ∈ ignored → exec (.mtc a n) s = .next (s.seqNext 4)) ∧
    (∀ rs, (n.toNat, rs) ∈ frontWrites ∨ (n.toNat, rs) ∈ laneWrites → x &&& rs ≠ 0 → s.older = [] →
      exec (.mtc a n) s = .next (faultsHere s .illegal)) ∧
    (Idle s → s.th.fr.m.lvl = false →
      (∀ rs, (n.toNat, rs) ∈ laneWrites → x &&& rs = 0 → ∃ t, exec (.mtc a n) s = .next t ∧ t.crValue n.toNat = x ∧
        t.th.fr.spc = (s.arrive (s.th.fr.spc + 4)).2 ∧ t.mem = s.mem ∧ t.th.fr.s = s.th.fr.s) ∧
      (n = 0x016 → x &&& 0xFFFFFFFFFFFFC0C0 = 0 → ∃ t, exec (.mtc a n) s = .next t ∧
        t.th.ln.flags = s.th.ln.flags &&& ~~~(x.setWidth 6) ∧ t.th.ln.traps = (x >>> 8).setWidth 6 ∧ t.th.fr.copy.traps = (x >>> 8).setWidth 6) ∧
      (n = 0x013 → x &&& 0xFFFF0000F800FFF8 = 0 → ∃ t, exec (.mtc a n) s = .next t ∧
        t.th.st = { s.th.st with uncs := s.th.st.uncs && !x.getLsbD 2 }))

/-- mtc.m at M writes the registers of R356 as well, where their own instruction could have left the value in them, else it raises
DoubleFault; the deadline only moves earlier; at U the word is illegal (12 R356). Which values that refuses, `mtcmOk`, is the model's choice
(log 37). -/
def Obligations.WriteControlM : Prop :=
  ∀ (s : State) (a : RegNo) (n : BitVec 12), s.th.fr.curLane = none →
    let x := s.rd a
    (s.th.fr.m.lvl = false → s.older = [] → exec (.mtcM a n) s = .next (faultsHere s .illegal)) ∧
    (s.th.fr.m.lvl = true → s.older = [] → s.mtcmOk n.toNat x = false → exec (.mtcM a n) s = .next (faultsHere s .doubleFault)) ∧
    (s.th.fr.m.lvl = true → s.mtcmOk n.toNat x = true →
      (Idle s → s.th.fr.m.pk = false → s.th.bind.tg = true → n.toNat ∈ [0x010, 0x011, 0x050, 0x051, 0x052, 0x053, 0x054, 0x071] →
        ∃ t, exec (.mtcM a n) s = .next t ∧ t.crValue n.toNat = x ∧ t.th.fr.spc = s.th.fr.spc + 4 ∧ t.th.fr.s = s.th.fr.s) ∧
      (n.toNat ∈ [0x012, 0x015] → ∃ u : State, exec (.mtcM a n) s = .next (u.seqNext 4) ∧ u.crValue n.toNat = x ∧
        u.onFr (fun f => { f with hist := s.th.fr.hist, regs := s.th.fr.regs }) = s) ∧
      (n = 0x0A1 → ∃ u : State, exec (.mtcM a n) s = .next (u.seqNext 4) ∧
        u.th.fr.regs.dline = (if x ≤ s.th.fr.regs.dline then x else s.th.fr.regs.dline)) ∧
      (n = 0x802 → x &&& 3 = 0 → exec (.mtcM a n) s = .next ((s.onM fun m => { m with mspc := x }).seqNext 4)))

/-- Taking an exception at U with a handler: the level is M, PK says whether words stand in the VIQ, mcause holds the code, the flags
and UNC, mspc and mvcp the pair, mindex the index, and the front goes to mhandler; registers and memory stay (12 R350, R352, R355). -/
def Obligations.ExceptionEntry : Prop :=
  ∀ (s : State) (c : ExcCause) (idx spc vcp : Word) (flg : Flags) (lane : Bool), toHandler c = true → s.th.fr.m.lvl = false →
    4 ≤ s.th.bind.handler.toNat →
    let t := s.takeException c idx spc vcp flg lane
    t.th.fr.m.lvl = true ∧ t.th.fr.m.pk = !s.th.fr.viq.isEmpty ∧ t.th.fr.m.lane = lane ∧ t.th.fr.m.dbg = s.th.fr.m.dbg ∧
      t.th.fr.m.preq = s.th.fr.m.preq ∧ t.th.fr.m.mcause = word (c.code + flg.toNat * 256 + bit s.th.st.unc * 2 ^ 17) ∧
      t.th.fr.m.mspc = word (spc.toNat / 4 * 4) ∧ t.th.fr.m.mvcp = vcp ∧ t.th.fr.m.mindex = idx ∧
      t.th.fr.spc = word (s.th.bind.handler.toNat / 4 * 4) ∧ t.th.fr.s = s.th.fr.s ∧ t.th.fr.viq = s.th.fr.viq ∧
      t.th.fr.hist = s.th.fr.hist ∧ t.th.fr.storeQ = s.th.fr.storeQ ∧ t.th.life = s.th.life ∧ t.th.ln = s.th.ln ∧ t.th.st = s.th.st ∧
      t.th.tr = s.th.tr ∧ t.th.br = s.th.br ∧ t.mem = s.mem ∧ t.others = s.others ∧ t.unc = s.unc ∧ t.copies = s.copies ∧ t.ctxs = s.ctxs

/-- The causes that go to Eloaler suspend the thread with its cause, index and pair; at M, or with no handler, every other cause is a
fatal end, which at M is that of a DoubleFault; of two statuses of a launch the first of log 21 stays, and a refusal keeps its code (12 R349,
R352, R354; 13 R394, R397). -/
def Obligations.ExceptionRoutes : Prop :=
  ∀ (s : State) (c : ExcCause) (idx spc vcp : Word) (flg : Flags) (lane : Bool),
    (toHandler c = false → (s.takeException c idx spc vcp flg lane).th.life = .suspended c idx spc vcp ∧
      (s.takeException c idx spc vcp flg lane).th.fr.s = s.th.fr.s ∧ (s.takeException c idx spc vcp flg lane).mem = s.mem ∧
      (s.takeException c idx spc vcp flg lane).th.fr.viq = s.th.fr.viq) ∧
    (toHandler c = true → Alone s → s.th.fr.m.lvl = true ∨ s.th.bind.handler.toNat < 4 →
      let t := s.takeException c idx spc vcp flg lane
      let k := if s.th.fr.m.lvl then ExcCause.doubleFault else c
      t.th.life = .ended ∧ ∀ l ∈ s.hub.launches, l.number = s.th.bind.launch → l.firstFatal = none →
        ∃ l' ∈ t.hub.launches, l'.number = l.number ∧ l'.firstFatal = some s.th.bind.flat ∧ (l.status = 0 → l'.code = k.code ∧ l'.status = statusOf k) ∧
          l'.status = firstStatus l.status (statusOf k) ∧ (l.status = 6 → l'.code = l.code) ∧
          l'.ended = l.ended + 1 ∧ l'.report[1]? = some spc ∧ l'.report[2]? = some (if s.th.fr.m.lvl then s.vcp else vcp) ∧
          l'.report[3]? = some (if s.th.fr.m.lvl then noIndex else idx) ∧ l'.report[4]? = some s.openBase)

/-- trap traps with its successor and s[a] as the index, bkpt with its own address unless a debugger is attached, which stops the thread;
both only at U. eret at M clears LVL, PK and LANE and goes to mspc, and then takes a stop that is pending; halt at M, with nothing of the
thread in flight, is a fatal end with the cause in mcause (12 R348, R358 to R360). -/
def Obligations.TrapWords : Prop :=
  ∀ (s : State) (a : RegNo), s.th.fr.curLane = none →
    (s.th.fr.m.lvl = false → s.older = [] →
      exec (.trap a) s = .next ((s.seqNext 4).takeException .trap (s.rd a) (s.seqNext 4).th.fr.spc (s.seqNext 4).th.fr.spc 0 false)) ∧
    (s.th.fr.m.lvl = false → s.older = [] → s.th.fr.m.dbg = false → exec .bkpt s = .next (faultsHere s .breakpoint)) ∧
    (s.th.fr.m.lvl = false → s.th.fr.m.dbg = true → ∃ t, exec .bkpt s = .next t ∧ t.th.life = .stopped ∧ t.th.fr.spc = s.th.fr.spc ∧
      t.th.fr.s = s.th.fr.s ∧ t.mem = s.mem) ∧
    (s.th.fr.m.lvl = true → s.older = [] → exec (.trap a) s = .next (faultsHere s .doubleFault) ∧
      exec .bkpt s = .next (faultsHere s .doubleFault)) ∧
    (s.th.fr.m.lvl = false → s.older = [] → exec .eret s = .next (faultsHere s .illegal) ∧ exec (.halt a) s = .next (faultsHere s .illegal)) ∧
    (s.th.fr.m.lvl = true → s.th.fr.m.preq = none → s.th.fr.m.lane = false → ∃ t, exec .eret s = .next t ∧ t.th.fr.m.lvl = false ∧
      t.th.fr.m.pk = false ∧ t.th.fr.spc = s.th.fr.m.mspc ∧ t.th.fr.m.mcause = s.th.fr.m.mcause ∧ t.th.fr.s = s.th.fr.s ∧
      t.th.fr.viq = s.th.fr.viq ∧ t.th.ln = s.th.ln ∧ t.mem = s.mem) ∧
    (∀ k, s.th.fr.m.lvl = true → s.th.fr.m.preq = some k → ∃ t, exec .eret s = .next t ∧ t.th.life = k.life ∧ t.th.fr.m.lvl = false ∧
      t.th.fr.m.preq = none) ∧
    (s.th.fr.m.lvl = true → s.older = [] → s.th.fr.storeQ = [] → s.endQuiet = true →
      exec (.halt a) s = .next (s.fatalEnd (causeOf (bitsOf s.th.fr.m.mcause 7 0)) s.th.fr.m.mindex s.th.fr.m.mspc s.th.fr.m.mvcp (s.rd a) true) ∧
      (Alone s → ∃ t, exec (.halt a) s = .next t ∧ t.th.life = .ended))

/-- ifence, tlbinv and tlbinv.all, once older words and stores are done: the lines of the context leave the core's instruction cache; the
entries of the context that map s[a], or all of them, leave every TLB of the package. The last two are M only (12 R370, R371). -/
def Obligations.MaintenanceWords : Prop :=
  ∀ (s : State) (a : RegNo), s.th.fr.curLane = none → s.older = [] →
    (s.th.fr.storeQ = [] → s.storesDone = true →
      (∃ u : State, exec .ifence s = .next (u.seqNext 4) ∧
        (∀ c, c ∈ u.unc.icache ↔ c ∈ s.unc.icache ∧ ¬ (c.core = s.th.bind.coreNo ∧ c.ctx = s.th.bind.ctx)) ∧ u.th.fr.fbuf = none ∧
        { u.onFr (fun f => { f with fbuf := s.th.fr.fbuf }) with unc := s.unc } = s) ∧
      (s.th.fr.m.lvl = true →
        (∃ u : State, exec (.tlbinv a) s = .next (u.seqNext 4) ∧ { u with unc := { u.unc with tlb := s.unc.tlb } } = s ∧
          ∀ e, e ∈ u.unc.tlb ↔ e ∈ s.unc.tlb ∧
            ¬ (e.ctx = s.th.bind.ctx ∧ e.vpn = (if e.big then bitsOf (s.rd a) 54 29 else bitsOf (s.rd a) 54 16))) ∧
        ∃ u : State, exec .tlbinvAll s = .next (u.seqNext 4) ∧ { u with unc := { u.unc with tlb := s.unc.tlb } } = s ∧
          ∀ e, e ∈ u.unc.tlb ↔ e ∈ s.unc.tlb ∧ e.ctx ≠ s.th.bind.ctx)) ∧
    (s.th.fr.m.lvl = false → exec (.tlbinv a) s = .next (faultsHere s .illegal) ∧ exec .tlbinvAll s = .next (faultsHere s .illegal))

/-- smpl.cnt gives the counter numbered s[a] (those of cycles have gone on by a free amount since they were last read, logs 5 and 41);
smpl.mark marks the next vector memory word; trc
sends a software record where trccfg asks for it (12 R373, R375, R376). -/
def Obligations.CounterWords : Prop :=
  ∀ (s : State) (d a : RegNo), s.th.fr.curLane = none →
    (s.older = [] → (s.rd a).toNat ∈ [9, 33, 35, 36, 39] →
      ∃ t, exec (.smplCnt d a) s = .next t ∧ RegisterWord s t d (vecGet s.th.cnt (s.rd a).toNat 0) 0) ∧
    (s.older = [] → (s.rd a).toNat ≤ 40 → (s.rd a).toNat ∉ [9, 33, 35, 36, 39] →
      let x := vecGet s.th.cnt (s.rd a).toNat 0 + Config.freeWord s.freeCount
      ∃ t, exec (.smplCnt d a) s = .next t ∧
        RegisterWord ({ s with freeCount := s.freeCount + 1 }.onTh fun h => { h with cnt := vecSet h.cnt (s.rd a).toNat x }) t d x 0) ∧
    (s.older = [] → ∀ k < 8, (s.rd a).toNat = 0x100 + k → ∃ t, exec (.smplCnt d a) s = .next t ∧ RegisterWord s t d (vecGet s.unc.forced k 0) 0) ∧
    (s.older = [] → ∀ k < 4, (s.rd a).toNat = 0x110 + k → ∃ t, exec (.smplCnt d a) s = .next t ∧ RegisterWord s t d (vecGet s.unc.merges k 0) 0) ∧
    (s.older = [] → (40 < (s.rd a).toNat ∧ (s.rd a).toNat < 0x100) ∨ (0x108 ≤ (s.rd a).toNat ∧ (s.rd a).toNat < 0x110) ∨
        0x114 ≤ (s.rd a).toNat →
      exec (.smplCnt d a) s = .next (faultsHere s .illegal)) ∧
    exec .smplMark s = .next ((s.onRegs fun r => { r with mark := true }).seqNext 4) ∧
    (s.th.fr.regs.trccfg.getLsbD 3 = false → exec (.trc a) s = .next (s.seqNext 4)) ∧
    (s.th.fr.regs.trccfg.getLsbD 3 = true → s.hub.traceQ.length < 64 → ∃ u : State, exec (.trc a) s = .next (u.seqNext 4) ∧
      u.hub.traceQ = s.hub.traceQ ++ [(s.th.bind.ctx, s.th.bind.launch, s.th.bind.flat, [s.traceHeader 2 5, word (s.th.fr.spc.toNat % 2 ^ 55),
        word (s.gtime.toNat % 2 ^ 62), word ((s.rd a).toNat % 2 ^ 32), word ((s.rd a).toNat / 2 ^ 32)])] ∧
      { u with hub := { u.hub with traceQ := s.hub.traceQ } } = s)

/-- vqsave at M writes the parked convoy's image, block by block, and frees the lanes; vqrestore reads an image, and its entries become the
parked convoy. The image that is written has the header and the entries of Tables 12.5 and 12.6, and what is read from one has what they
say (12 R361). -/
def Obligations.ConvoyImages : Prop :=
  (∀ (t : Thread) (es : List VEntry) (vcp spc : Word), es.length ≤ 64 → ImageOf t es vcp spc (t.viqImage es vcp spc)) ∧
  (∀ (s : State) (bs : List Byte) (r : List VEntry × Vector Nat 64 × Vector Nat 8), s.readImage bs = some r → ReadFrom bs r) ∧
  ∀ (s : State) (a : RegNo), s.th.fr.curLane = none → s.th.fr.storeQ = [] → s.th.fr.m.lvl = true → (s.rd a).toNat % 64 = 0 →
    (∀ t cells, s.th.fr.m.pk = true → imageCells .write (s.rd a) (2 + s.th.fr.viq.length) s = (t, some cells) →
      ∃ u : State, exec (.vqsave a) s = .next (u.seqNext 4) ∧ u.th.fr.viq = [] ∧ u.th.fr.m.pk = false ∧ u.th.fr.s = t.th.fr.s ∧
        u.mem = (writeBlocks cells (t.th.viqImage s.th.fr.viq s.th.fr.m.mvcp s.th.fr.m.mspc) t).mem) ∧
    (∀ t u hs es r, s.th.fr.m.pk = false → s.older = [] → imageCells .read (s.rd a) 2 s = (t, some hs) →
      let n := bytesNat (hs.flatMap fun c => t.bytesAt c 64) 0 2
      1 ≤ n → n ≤ 64 → imageCells .read (s.rd a + 128) n t = (u, some es) →
      u.readImage ((hs.flatMap fun c => t.bytesAt c 64) ++ es.flatMap fun c => u.bytesAt c 64) = some r →
      ∃ v : State, exec (.vqrestore a) s = .next (v.seqNext 4) ∧ v.th.fr.viq = r.1 ∧ v.th.fr.m.pk = true ∧ v.th.ln.vprog = r.2.1 ∧
        v.th.ln.mprog = r.2.2 ∧ v.th.fr.s = u.th.fr.s ∧ v.mem = u.mem)

/-- The element words of the integer families and the moves give the results of Tables 5.7 and 5.10 to active elements below vl, zero
or nothing to inactive ones by MP, and nothing to the tail; SAT joins vxflags and none of them traps (05 R115, R122 to R124, R128). -/
def Obligations.IntegerElements : Prop :=
  ∀ (s : State) (i : Instr) (f : EltForm), integerForm s i = some f → i.wellFormed = true → Ready s f.op f.w →
    ∃ t, exec i s = .next t ∧ ElementWord s t f

/-- The same for the floating-point words of Tables 5.11 and 6.13 (05 R129; 06 R159, R162). The model's choices: a scale beyond the
register reads as 0 (log 65), the replicated unit of vscale counts scales (log 68), and the sign of an exact zero of vfnmadd and vfnmsub
(log 17). -/
def Obligations.FloatElements : Prop :=
  ∀ (s : State) (i : Instr) (f : EltForm), floatForm s i = some f → i.wellFormed = true → Ready s f.op f.w → f.checks = true → f.quiet s →
    ∃ t, exec i s = .next t ∧ ElementWord s t f

/-- The same for the conversions (06 R151 to R158). The model's choices: the replicated unit of vunpack (log 68), and the sign of an exact
zero residual of vcvt.ef (log 82). -/
def Obligations.Conversions : Prop :=
  ∀ (s : State) (i : Instr) (f : EltForm), convertForm s i = some f → i.wellFormed = true → Ready s f.op f.w → f.checks = true → f.quiet s →
    ∃ t, exec i s = .next t ∧ ElementWord s t f

/-- Reductions, whose result goes to element 0, scans, slides, pick, compress and expand (05 R130 to R134). That vpick reads an index of its
whole container is the model's choice between R133 and R140 (log 64). -/
def Obligations.FoldsAndPermutes : Prop :=
  (∀ (s : State) (i : Instr) (f : EltForm), foldForm s i = some f → i.wellFormed = true → Ready s f.op f.w → f.quiet s →
    ∃ t, exec i s = .next t ∧ ElementWord s t f) ∧
  (∀ (s : State) (i : Instr) (f : EltForm), permuteForm s i = some f → i.wellFormed = true → Ready s f.op f.w →
    ∃ t, exec i s = .next t ∧ ElementWord s t f)

/-- Compares, class tests and mask logic write bits of a mask register; mpop, mfirst and vmvs.x give a scalar register, for which the front
waits (05 R125 to R128; 06 R160). -/
def Obligations.MaskAndScalarResults : Prop :=
  (∀ (s : State) (i : Instr) (f : MaskForm), maskForm s i = some f → i.wellFormed = true → Ready s f.op f.w →
    (∀ k < s.th.fr.copy.vl, f.act k = true → (f.at_ k).2 &&& s.th.ln.traps = 0) →
    ∃ t, exec i s = .next t ∧ MaskWord s t f) ∧
  (∀ (s : State) (i : Instr) (op : Nat) (w : VWord) (x : Word), scalarForm s i = some (op, w, x) → i.wellFormed = true → Ready s op w →
    ∃ t, exec i s = .next t ∧
      t.th.fr = { frontAfter s with s := if w.vd = 0 then s.th.fr.s else vecSet s.th.fr.s w.vd.toNat x,
                                    wait := .entry (s.th.fr.seq + 1) } ∧
      t.th.cnt = countAfter s ∧ { t with th := { t.th with fr := s.th.fr, cnt := s.th.cnt } } = s)

/-- A word of the VIQ is sent with its scalars and waits there when nothing runs ahead: it joins the open convoy where R36 and R118
allow, else that convoy closes; C keeps the convoy open while it may grow; the front goes on, and waits where R127 has it wait
(02 R36, R40; 03 R56; 05 R118, R127). -/
def Obligations.WordsAreSent : Prop :=
  ∀ (s : State) (i : Instr) (op : Nat) (w : VWord) (k : Nat), viqWord i = some (op, w, k) → i.wellFormed = true →
    s.prompt = false → s.threadOk op w = true → (s.th.fr.m.lvl = true → s.th.fr.m.pk = false ∧ op ≠ 0x4A ∧ op ≠ 0x73) →
    s.th.fr.curLane = none → s.viqUsed < 64 →
    let joins := s.th.fr.chainOpen && mayJoin s.th.fr.viq (entry s op w)
    ∃ t e, exec i s = .next t ∧ t.th.fr.viq = s.th.fr.viq ++ [e] ∧
      e.op = op ∧ e.w = w ∧ e.slot = .word ∧ e.seq = s.th.fr.seq + 1 ∧ e.addr = s.th.fr.spc ∧ e.after = t.th.fr.spc ∧ e.joined = joins ∧
      e.first = true ∧ e.issued = false ∧ e.prog = 0 ∧ e.safe = false ∧ e.complete = false ∧ e.atM = s.th.fr.m.lvl ∧
      t.th.fr.seq = s.th.fr.seq + 1 ∧ t.th.fr.spc = (s.arrive (s.th.fr.spc + 8)).2 ∧
      t.th.fr.chainOpen = (w.chain && pipeOf op ≠ .none && pipeOf op ≠ .xp &&
        decide ((if joins then (lastConvoy s.th.fr.viq.reverse).length else 0) < 3)) ∧
      t.th.fr.wait = (match k with | 1 => .entry (s.th.fr.seq + 1) | 2 => .copies (s.rd w.va) | _ => s.th.fr.wait) ∧
      (k < 3 → e.sc = s.rd w.vc ∧ e.sb = s.rd w.vb ∧ e.vl = s.th.fr.copy.vl ∧ (op = 0x69 ∨ op = 0x70 ∨ op = 0x73 → e.x0 = s.rd w.va) ∧
        (op = 0x69 → e.x1 = s.rd w.vd ∧ e.x2 = s.rd (w.vb + 1)) ∧ t.th.fr.s = s.th.fr.s ∧ t.th.fr.copy = s.th.fr.copy ∧
        { t.th.fr.regs with zc := s.th.fr.regs.zc } = s.th.fr.regs) ∧
      { t with th := { t.th with fr := s.th.fr, cnt := s.th.cnt } } = s

/-- A word that fails a check of R44 at its issue, alone in flight, raises IllegalInstruction with index 0 and has no effect. An active element
that raises a flag whose trap is enabled: the lowest such element m is reported with its enabled flags; the groups below m's are written
with their flags, nothing of m's group or above is, and the word stays in the VIQ at that group (05 R121, R123; 12 R349). -/
def Obligations.VectorFaults : Prop :=
  (∀ (s : State) (i : Instr) (op : Nat) (w : VWord) (k : Nat), viqWord i = some (op, w, k) → k = 0 → i.wellFormed = true →
    Idle s → s.th.fr.m.lvl = false → s.th.bind.wc ≤ 2 → w.chain = false → s.threadOk op w = true → s.th.fr.copy.vl ≤ s.width * 8192 →
    s.th.fr.regs.smplcfg.getLsbD 0 = false ∧ s.th.fr.regs.mark = false → (∀ n, (vecGet s.th.fab.fs n .reset).bound = false) →
    s.issueOk (entry s op w) = false →
    ∃ t, exec i s = .next t ∧ StopsAt s op w 0 .illegal 0 0 s.th.ln t) ∧
  (∀ (s : State) (i : Instr) (f : EltForm) (m : Nat), floatForm s i = some f → i.wellFormed = true →
    Ready s f.op f.w → f.checks = true → m < f.n → f.act m = true → (f.at_ m).2 &&& s.th.ln.traps ≠ 0 →
    (∀ k < m, f.act k = true → (f.at_ k).2 &&& s.th.ln.traps = 0) →
    let per := s.width * 512 / f.bits
    let done := m / per * per
    ∃ (t : State) (x : VReg), exec i s = .next t ∧
      (∀ i, elemAt x f.bits i =
        if i < done ∧ f.act i then (f.at_ i).1 % 2 ^ f.bits else if i < done ∧ f.zeros then 0
        else elemAt (vecGet s.th.ln.v f.w.vd.toNat 0) f.bits i) ∧
      StopsAt s f.op f.w (m / per) .arithmetic (word m) ((f.at_ m).2 &&& s.th.ln.traps)
        { s.th.ln with v := vecSet s.th.ln.v f.w.vd.toNat x, vprog := vecSet s.th.ln.vprog f.w.vd.toNat (m / per),
                       flags := s.th.ln.flags ||| orFlags (fun i => if f.act i then (f.at_ i).2 else 0) 0 done } t)

/-- Loads give each active element below vl the little-endian number of its bytes, or its nibble, and leave memory as it is; an acquire
clears the data cache; vpref writes no register and no memory (07 R182, R198, R199, R201, R202; 11 R336). Stated for elements whose pages the TLBs hold, with an
empty strip. -/
def Obligations.VectorLoads : Prop :=
  (∀ (s : State) (i : Instr) (f : MemForm) (pa : Nat → Nat), loadWordForm s i = some f → i.wellFormed = true → Ready s f.op f.w →
    f.checks = true → s.th.st.entries = [] → s.th.st.parked = [] →
    (∀ k < s.th.fr.copy.vl, active s f.w k = true → Resident s f.slice (clusterAt s f.w k) (f.addr k) (msize (eb s f.w)) .read (pa k)) →
    let value := fun k => if eb s f.w = 4 then leNat (memBytes s.mem (pa k) 1) / 16 ^ (k % 2) % 16 else leNat (memBytes s.mem (pa k) (eb s f.w / 8))
    ∃ t, exec i s = .next t ∧
      ElementWord s (((t.onFr fun _ => frontAfter s).onFab fun _ => s.th.fab).onUnc fun _ => s.unc) (plain s f.op f.w fun k => (value k, 0)) ∧
      t.th.fr = memFront s f.chunk ∧ t.th.fab = memFabric s f.chunk ∧ cold s t.unc = acquired s f.w) ∧
  ∀ (s : State) (w : VWord) (pa : Nat → Nat), (Instr.vpref w).wellFormed = true → Ready s 0x49 w →
    (∀ k < s.th.fr.copy.vl, active s w k = true →
      Resident s false (clusterAt s w k) ((unitForm s 0x49 w).addr k) (msize (eb s w)) .read (pa k)) →
    ∃ t : State, exec (.vpref w) s = .next t ∧ { t with unc := cold s t.unc } = ran s

/-- Stores put the active elements below vl into the open strip at their addresses, where no early commit is due (07 R184, R198, R199,
R201; 11 R336). The winner of two elements of one vsts is left open, the model's reading of R199 (log 80). -/
def Obligations.VectorStores : Prop :=
  ∀ (s : State) (i : Instr) (f : MemForm) (last : Bool) (pa : Nat → Nat), storeWordForm s i = some (f, last) → i.wellFormed = true →
    Ready s f.op f.w → f.checks = true → s.th.st.entries = [] →
    (∀ k < s.th.fr.copy.vl, active s f.w k = true → Resident s f.slice (clusterAt s f.w k) (f.addr k) (msize (eb s f.w)) .write (pa k)) →
    HasRoom s s.th.fr.copy.vl (msize (eb s f.w)) (active s f.w) (clusterAt s f.w) pa →
    ∃ t, exec i s = .next t ∧ StoreWord s t f.chunk {
        n := s.th.fr.copy.vl, bits := eb s f.w, act := active s f.w, pa := pa, val := old s f.w, half := fun k => k } last

/-- vld.q fills a whole group from a tile of memory, zero beyond it; vst.q stores a tile (07 R200). Which element of a tile wins where two
of more than 4 bits write one byte is open, the model's reading of R200 (log 80). -/
def Obligations.TileAccesses : Prop :=
  (∀ (s : State) (w : VWord) (pa : Nat → Nat), (Instr.vldQ w).wellFormed = true → Ready s 0x40 w → tileFits s w → s.th.st.entries = [] → s.th.st.parked = [] →
    let f := tileForm s w
    (∀ k < f.rows * f.cols, Resident s false (clusterAt s w k) (f.addr k) (msize (eb s w)) .read (pa k)) →
    let value := fun k => if eb s w = 4 then leNat (memBytes s.mem (pa k) 1) / 16 ^ (k % f.cols % 2) % 16
      else leNat (memBytes s.mem (pa k) (eb s w / 8))
    ∃ (t : State) (g : Nat → VReg), exec (.vldQ w) s = .next t ∧ { t with unc := cold s t.unc } = { ran s with
        th := { (ran s).th with ln := { s.th.ln with v := setFour s.th.ln.v (w.vd.toNat / 4) g, vprog := setFour s.th.ln.vprog (w.vd.toNat / 4) fun _ => 64 } },
        unc := acquired s w } ∧
      (∀ j < 4, (g j).toNat < 2 ^ (s.width * 32768)) ∧
      ∀ k, k * eb s w < s.width * 131072 → inFour s.width g (eb s w) k = if k < f.rows * f.cols then value k else 0) ∧
  ∀ (s : State) (w : VWord) (pa : Nat → Nat), (Instr.vstQ w).wellFormed = true → Ready s 0x44 w → tileFits s w → s.th.st.entries = [] →
    let f := tileForm s w
    HasRoom s (f.rows * f.cols) (msize (eb s w)) (fun _ => true) (clusterAt s w) pa →
    (∀ k < f.rows * f.cols, Resident s false (clusterAt s w k) (f.addr k) (msize (eb s w)) .write (pa k)) →
    ∃ t, exec (.vstQ w) s = .next t ∧ StoreWord s t false {
        n := f.rows * f.cols, bits := eb s w, act := fun _ => true, pa := pa,
        val := fun k => inFour s.width (fun j => vecGet s.th.ln.v (w.vd.toNat / 4 * 4 + j) 0) (eb s w) k, half := fun k => k % f.cols } (decide (eb s w = 4))

/-- The words that set vl, vtype, a format, a shape, the Truss's configuration and extents, and the schedule pointer, and scommit
(05 R107 to R114; 06 R141; 07 R203, R204; 08 R212 to R215). -/
def Obligations.ConfigurationWords : Prop :=
  (∀ (s : State) (w : VWord), (Instr.setvl w).wellFormed = true → Ready s 0x78 w →
    let z := if w.form = .vi then w.vb.toNat else w.fn.toNat
    let n := min (if w.form = .vi then w.fn.toNat else (s.rd w.vc).toNat) (vlmax s.width (Machine.sizeOf z))
    exec (.setvl w) s = .next (((gave s w.vd (word n)).onCopy fun c => { c with vl := n }).onLn fun l =>
      { l with vl := n, vtype := BitVec.ofNat 10 (l.vtype.toNat / 8 * 8 + z) })) ∧
  (∀ (s : State) (w : VWord), (Instr.setvt w).wellFormed = true → Ready s 0x78 w →
    let x : Word := if w.form = .vi then w.fn.signExtend 64 else s.rd w.vc
    (x.toNat < 1024 ∧ x.toNat % 8 = 0 ∧ x.toNat / 64 % 8 ≤ 4 → exec (.setvt w) s = .next ((ran s).onLn fun l =>
      { l with vtype := BitVec.ofNat 10 (x.toNat + l.vtype.toNat % 8) })) ∧
    (¬ (x.toNat < 1024 ∧ x.toNat % 8 = 0 ∧ x.toNat / 64 % 8 ≤ 4) →
      ∃ t, exec (.setvt w) s = .next t ∧ StopsAt s 0x78 w 0 .illegal 0 0 s.th.ln t)) ∧
  (∀ (s : State) (w : VWord), (Instr.setfmt w).wellFormed = true → Ready s 0x79 w →
    (s.rd w.vc = 0 ∨ fmtValid (s.rd w.vc) = true → exec (.setfmt w) s = .next ((ran s).onLn fun l =>
      { l with fmt := vecSet l.fmt w.vd.toNat (s.rd w.vc) })) ∧
    (¬ (s.rd w.vc = 0 ∨ fmtValid (s.rd w.vc) = true) → ∃ t, exec (.setfmt w) s = .next t ∧ StopsAt s 0x79 w 0 .illegal 0 0 s.th.ln t)) ∧
  (∀ (s : State) (w : VWord), (Instr.mshape w).wellFormed = true → Ready s 0x7A w →
    let x := (s.rd w.vc).toNat
    let cols := x % 2 ^ 16
    let rows := x / 2 ^ 16
    let ok := rows < 2 ^ 16 ∧ rows ≠ 0 ∧ cols ≠ 0 ∧ rows * cols * eb s w ≤ s.width * 131072
    let entry : Word := word (w.ety.code + cols * 2 ^ 4 + rows * 2 ^ 20 + vtFsel s.th.ln.vtype * 2 ^ 36)
    (ok → exec (.mshape w) s = .next ((ran s).onLn fun l => { l with shape := vecSet l.shape (w.vd.toNat / 4) entry })) ∧
    (¬ ok → ∃ t, exec (.mshape w) s = .next t ∧ StopsAt s 0x7A w 0 .illegal 0 0 s.th.ln t)) ∧
  (∀ (s : State) (w : VWord), (Instr.tshape w).wellFormed = true → Ready s 0x7A w →
    let x := (s.rd w.vc).toNat
    let c := s.th.fr.copy.mcfg.toNat
    let tm := min (x / 2 ^ 32 % 2 ^ 16) 128
    let tn := min (x / 2 ^ 16 % 2 ^ 16) 128
    let k := min (x % 2 ^ 16) s.th.fr.copy.kmax
    let k := if c / 4 % 4 ≠ 0 then k / 48 * 48 else k
    let tk := if c / 16 % 4 ≠ 0 then k / 32 * 32 else k
    exec (.tshape w) s = .next (((gave s w.vd (word (tm * 2 ^ 32 + tn * 2 ^ 16 + tk))).onCopy fun c => { c with tm := tm }).onTr fun t =>
      { t with tm := tm, tn := tn, tk := tk })) ∧
  (∀ (s : State) (w : VWord), (Instr.mmode w).wellFormed = true → Ready s 0x7B w →
    let c := BitVec.ofNat 7 w.fn.toNat
    let dense := 256 * 2 ^ (w.fn.toNat % 4)
    let kmax := if w.fn.toNat / 4 % 4 = 0 then dense else dense / 48 * 48
    exec (.mmode w) s = .next (((ran s).onCopy fun k => { k with mcfg := c, kmax := kmax, tm := 0 }).onTr fun t =>
      { t with mcfg := c, mvl := word (128 * 2 ^ 24 + 128 * 2 ^ 16 + kmax), tm := 0, tn := 0, tk := 0 })) ∧
  (∀ (s : State) (w : VWord), (Instr.scommit w).wellFormed = true → Ready s 0x4A w → s.th.st.entries = [] →
    exec (.scommit w) s = .next (((ran s).onRegs fun r => { r with sbase := r.sbase + word s.th.fr.copy.vl }).onSt fun t =>
      { t with open_ := t.open_ + 1, unacked := [], unc := false })) ∧
  ∀ (s : State) (w : VWord), (Instr.cutstep w).wellFormed = true → Ready s 0x4B w →
    ((s.rd w.vc).toNat < 2 ^ 16 → ∃ t, exec (.cutstep w) s = .next t ∧ { t with ctxs := s.ctxs } = ran s ∧
      t.ctxs.length = s.ctxs.length ∧ ∀ (n : Nat) (a b : Ctx), s.ctxs[n]? = some a → t.ctxs[n]? = some b →
        { b with sched := a.sched } = a ∧ (a.id ≠ s.th.bind.ctx → b = a) ∧
        (a.id = s.th.bind.ctx → ∀ d, ((b.sched.find? fun p => p.1 = d).map (·.2)).getD 0 =
          (let p := ((a.sched.find? fun p => p.1 = d).map (·.2)).getD 0
           if d = s.th.bind.die then max p (s.rd w.vc).toNat else p))) ∧
    (2 ^ 16 ≤ (s.rd w.vc).toNat → ∃ t, exec (.cutstep w) s = .next t ∧ StopsAt s 0x4B w 0 .illegal 0 0 s.th.ln t)

/-- Outer products: each cell of the tm × tn region takes the steps of the word in order, each step's exact sum of products added and
rounded once; every other cell stays; with an extent of zero nothing happens; the flags of all cells join vxflags at the end
(08 R218 to R224). -/
def Obligations.OuterProducts : Prop :=
  ∀ (s : State) (i : Instr) (f : OuterForm), outerForm s i = some f → i.wellFormed = true → Ready s f.op f.w → f.checks = true →
    s.th.tr.tm ≤ 128 → s.th.tr.tn ≤ 128 →
    let old := vecGet s.th.tr.acc f.w.vd.toNat 0
    let at_ := fun i j => through (f.add i j) (cell old i j) f.steps
    ∃ (t : State) (x : AccTile), exec i s = .next t ∧
      (∀ i j, i < 128 → j < 128 → cell x i j = if i < s.th.tr.tm ∧ j < s.th.tr.tn then (at_ i j).1 else cell old i j) ∧
      t = withAcc s f.w.vd.toNat x (vecGet s.th.tr.tagInt f.w.vd.toNat false)
        (orFlags (fun k => (at_ (k / s.th.tr.tn) (k % s.th.tr.tn)).2) 0 (s.th.tr.tm * s.th.tr.tn))

/-- mzero, mlacc and mscale write a whole tile and its tag; mtov copies one to a group with its shape entry; mdrain stores the
tm × vl region (08 R227 to R231). Of mtov and mdrain: where no enabled flag is raised. -/
def Obligations.AccumulatorWords : Prop :=
  (∀ (s : State) (w : VWord), (Instr.mzero w).wellFormed = true → Ready s 0x50 w →
    exec (.mzero w) s = .next (withAcc s w.vd.toNat 0 (w.ety = .i32) 0)) ∧
  (∀ (s : State) (w : VWord) (a : Tile), (Instr.mlacc w).wellFormed = true → Ready s 0x54 w → s.tile (w.va.toNat / 4) = some a →
    a.ety = w.ety → a.rows ≤ 128 → a.cols ≤ 128 → ∃ x : AccTile, exec (.mlacc w) s = .next (withAcc s w.vd.toNat x (w.ety = .i32) 0) ∧
      ∀ i j, i < 128 → j < 128 → cell x i j = if i < a.rows ∧ j < a.cols then tcode s a i j else 0) ∧
  (∀ (s : State) (w : VWord), (Instr.mscale w).wellFormed = true → Ready s 0x57 w → ∃ x : AccTile,
    exec (.mscale w) s = .next (withAcc s w.vd.toNat x false (orFlags (fun k => (scaledCell s w (k / 128) (k % 128)).2) 0 16384)) ∧
      ∀ i j, i < 128 → j < 128 → cell x i j = (scaledCell s w i j).1) ∧
  (∀ (s : State) (w : VWord), (Instr.mtov w).wellFormed = true → Ready s 0x56 w → tagged s w w.va.toNat →
    16384 * eb s w ≤ s.width * 131072 →
    let c := fun k => convCell s w (cell (vecGet s.th.tr.acc w.va.toNat 0) (k / 128) (k % 128))
    (∀ k < 16384, (c k).2 &&& s.th.ln.traps = 0) → ∃ g : Nat → VReg, exec (.mtov w) s = .next ((ran s).onLn fun l =>
        { l with v := setFour l.v (w.vd.toNat / 4) g, vprog := setFour l.vprog (w.vd.toNat / 4) fun _ => 64,
                 shape := vecSet l.shape (w.vd.toNat / 4) (word (w.ety.code + 128 * 2 ^ 4 + 128 * 2 ^ 20 + vtFsel l.vtype * 2 ^ 36)),
                 flags := l.flags ||| orFlags (fun k => (c k).2) 0 16384 }) ∧
      (∀ j < 4, (g j).toNat < 2 ^ (s.width * 32768)) ∧
      ∀ k, k * eb s w < s.width * 131072 → inFour s.width g (eb s w) k = if k < 16384 then (c k).1 else 0) ∧
  ∀ (s : State) (w : VWord) (pa : Nat → Nat), (Instr.mdrain w).wellFormed = true → Ready s 0x55 w → tagged s w w.vd.toNat →
    s.th.fr.copy.vl ≤ 128 → s.th.st.entries = [] →
    let vl := s.th.fr.copy.vl
    let n := s.th.tr.tm * vl
    let z := msize (eb s w)
    let c := fun k => convCell s w (cell (vecGet s.th.tr.acc w.vd.toNat 0) (k / vl) (k % vl))
    let act := fun k => active s w (k % vl)
    let pitch : Word := if w.vb = 0 then word (vl * z) else s.rd w.vb
    (∀ k < n, act k = true → (c k).2 &&& s.th.ln.traps = 0 ∧ Resident s false (clusterAt s w (k % vl))
      (s.rd w.vc + BitVec.ofInt 64 (w.va.toInt * z) + word (k / vl) * pitch + word (k % vl * z)) z .write (pa k)) →
    HasRoom s n z act (fun k => clusterAt s w (k % vl)) pa →
    ∃ t, exec (.mdrain w) s = .next t ∧
      t.th.ln = { s.th.ln with flags := s.th.ln.flags ||| orFlags (fun k => if act k then (c k).2 else 0) 0 n } ∧
      StoreWord s (t.onLn fun _ => s.th.ln) false { n := n, bits := eb s w, act := act, pa := pa, val := fun k => (c k).1, half := fun k => k } true

/-- bvec, bangle.d, bangle.a, brot and vrotate (09 R256, R257): flags join vxflags, and no element traps (09 R250). -/
def Obligations.RotatorElements : Prop :=
  (∀ (s : State) (i : Instr) (f : EltForm), braceForm s i = some f → i.wellFormed = true → Ready s f.op f.w → f.checks = true →
    ∃ t, exec i s = .next t ∧ ElementWord s t f) ∧
  ∀ (s : State) (w : VWord), (Instr.vrotate w).wellFormed = true → Ready s 0x5C w →
    let dir := fun i => if w.fn.toNat % 2 = 0 then angToDir (srcC s w i) else srcC s w i
    let o := fun i => turned (srcA s w i) (srcB s w i) (dir i)
    let vl := s.th.fr.copy.vl
    let put := fun (F : Nat → Elt) (r : RegNo) (i : Nat) =>
      if i < vl ∧ active s w i then (F i).1 else if i < vl ∧ vtMp s.th.ln.vtype then 0 else elemAt (vecGet s.th.ln.v r.toNat 0) 32 i
    ∃ x y : VReg, exec (.vrotate w) s = .next ((ran s).onLn fun l => { l with
        v := vecSet (vecSet l.v w.vd.toNat x) (w.vd.toNat + 1) y,
        vprog := vecSet (vecSet l.vprog w.vd.toNat 64) (w.vd.toNat + 1) 64,
        flags := l.flags ||| orFlags (fun i => if active s w i then (o i).1.2 ||| (o i).2.2 else 0) 0 vl }) ∧
      (∀ i, elemAt x 32 i = put (fun i => (o i).1) w.vd i) ∧ ∀ i, elemAt y 32 i = put (fun i => (o i).2) (w.vd + 1) i

/-- The row words: bqr, bqra and bqr.d take the rows of a tile through a triangle in order; bapply takes right-hand values through recorded
directions. bstat holds the triangle and the rows (09 R248, R249, R253, R254). -/
def Obligations.RowWords : Prop :=
  (∀ (s : State) (w : VWord) (a : Tile), s.tile (w.va.toNat / 4) = some a → a.ety = .fp32 → a.cols ≤ 32 →
    let n := w.vc.toNat
    let res := triAfter s a (triOf s n)
    ((Instr.bqr w).wellFormed = true → Ready s 0x59 w →
      exec (.bqr w) s = .next (withTri s n (res (fun _ => 0) a.rows) a.rows (rowFlags s a (triOf s n) (fun _ => 0) a.rows) s.th.ln)) ∧
    (a.rows ≤ 4096 → (Instr.bqra w).wellFormed = true → Ready s 0x59 w →
      let rhs := fun r => elemAt (vecGet s.th.ln.v w.vb.toNat 0) 32 r
      ∃ x : VReg, exec (.bqra w) s = .next (withTri s n (res rhs a.rows) a.rows (rowFlags s a (triOf s n) rhs a.rows)
          { s.th.ln with v := vecSet s.th.ln.v w.vd.toNat x, vprog := vecSet s.th.ln.vprog w.vd.toNat 64 }) ∧
        ∀ r < 4096, elemAt x 32 r = if r < a.rows then (rowOf s a (triOf s n) rhs r).yr else elemAt (vecGet s.th.ln.v w.vd.toNat 0) 32 r) ∧
    (a.rows ≤ 128 * s.width → (Instr.bqrD w).wellFormed = true → Ready s 0x59 w →
      ∃ g : Nat → VReg, exec (.bqrD w) s = .next (withTri s n (res (fun _ => 0) a.rows) a.rows (rowFlags s a (triOf s n) (fun _ => 0) a.rows)
          { s.th.ln with v := setFour s.th.ln.v (w.vd.toNat / 4) g, vprog := setFour s.th.ln.vprog (w.vd.toNat / 4) fun _ => 64,
                         shape := vecSet s.th.ln.shape (w.vd.toNat / 4) (word (6 + 32 * 2 ^ 4 + a.rows * 2 ^ 20)) }) ∧
        (∀ j < 4, (g j).toNat < 2 ^ (s.width * 32768)) ∧
        ∀ k, k < s.width * 4096 → inFour s.width g 32 k =
          if k < 32 * a.rows then elemAt (rowOf s a (triOf s n) (fun _ => 0) (k / 32)).dir 32 (k % 32) else 0)) ∧
  ∀ (s : State) (w : VWord) (a : Tile) (clear : Bool), s.tile (w.va.toNat / 4) = some a → a.ety = .n32 → a.cols = 32 → a.rows ≤ 512 →
    deferred s = false → (if clear then Instr.bapplyC0 w else .bapply w).wellFormed = true → Ready s 0x5A w →
    let n := w.vc.toNat
    let rhs := fun r => elemAt (vecGet s.th.ln.v w.vb.toNat 0) 32 r
    let c := fun r => colAfter s a rhs (if clear then 0 else (triOf s n).c) r
    let o := fun r => applyRow (tcode s a r) (c r) (rhs r)
    ∃ x : VReg, exec (if clear then .bapplyC0 w else .bapply w) s = .next (withTri s n { triOf s n with c := c a.rows } a.rows
        (orFlags (fun r => (o r).2.2) 0 a.rows)
        { s.th.ln with v := vecSet s.th.ln.v w.vd.toNat x, vprog := vecSet s.th.ln.vprog w.vd.toNat 64 }) ∧
      ∀ r < 4096, elemAt x 32 r = if r < a.rows then (o r).2.1 else elemAt (vecGet s.th.ln.v w.vd.toNat 0) 32 r

/-- bclr, bgain, btload, btdrain and bsolve (09 R251, R252, R255, R258). -/
def Obligations.TriangleWords : Prop :=
  (∀ (s : State) (w : VWord), (Instr.bclr w).wellFormed = true → Ready s 0x58 w →
    exec (.bclr w) s = .next ((ran s).onBr fun b => { b with tri := vecSet b.tri w.vc.toNat { u := 0, c := 0, cnt := Vector.replicate 32 0 } })) ∧
  (∀ (s : State) (w : VWord), (Instr.bgain w).wellFormed = true → Ready s 0x5D w →
    exec (.bgain w) s = .next ((ran s).onBr fun b => { b with bcfg := word (w.fn.toNat % 2) })) ∧
  (∀ (s : State) (w : VWord) (pa : Nat → Nat), (Instr.btload w).wellFormed = true → Ready s 0x58 w → s.th.st.entries = [] →
    s.th.st.parked = [] → (∀ x < 1056, x / 33 ≤ x % 33 → Resident s false (x % 33 / 16) (triAddr s w x) 4 .read (pa x)) →
    ∃ (u : State) (t : Triangle), exec (.btload w) s = .next u ∧
      { u with unc := cold s u.unc } = { (ran s).onBr fun b => { b with tri := vecSet b.tri w.vd.toNat t } with unc := acquired s w } ∧
      t.cnt = Vector.replicate 32 0 ∧
      (∀ i k, i < 32 → k < 32 → elemAt t.u 32 (32 * i + k) = if i ≤ k then leNat (memBytes s.mem (pa (33 * i + k)) 4) else 0) ∧
      ∀ i < 32, elemAt t.c 32 i = leNat (memBytes s.mem (pa (33 * i + 32)) 4)) ∧
  (∀ (s : State) (w : VWord) (pa : Nat → Nat), (Instr.btdrain w).wellFormed = true → Ready s 0x58 w → s.th.st.entries = [] →
    let tri := triOf s w.vd.toNat
    let act := fun x => decide (x / 33 ≤ x % 33)
    let v := fun x => fp32.mul 0 (if x % 33 = 32 then elemAt tri.c 32 (x / 33) else elemAt tri.u 32 (32 * (x / 33) + x % 33))
      (gainOf (vecGet tri.cnt (x / 33) 0))
    (∀ x < 1056, x / 33 ≤ x % 33 → Resident s false (x % 33 / 16) (triAddr s w x) 4 .write (pa x)) →
    HasRoom s 1056 4 act (fun x => x % 33 / 16) pa →
    ∃ t, exec (.btdrain w) s = .next t ∧
      t.th.ln = { s.th.ln with flags := s.th.ln.flags ||| orFlags (fun x => if act x then (v x).2 else 0) 0 1056 } ∧
      StoreWord s (t.onLn fun _ => s.th.ln) false { n := 1056, bits := 32, act := act, pa := pa, val := fun x => (v x).1, half := fun x => x } true) ∧
  ∀ (s : State) (w : VWord), (Instr.bsolve w).wellFormed = true → Ready s 0x5E w → 1 ≤ s.th.fr.copy.vl → s.th.fr.copy.vl ≤ 32 →
    let n := s.th.fr.copy.vl
    let tri := triOf s w.vc.toNat
    let u := fun i k => elemAt tri.u 32 (32 * i + k)
    ∃ x : VReg,
      let sum := fun i => solveSum (fp32.decode (elemAt tri.c 32 i))
        ((List.range (n - 1 - i)).map fun j => (fp32.decode (u i (i + 1 + j)), fp32.decode (elemAt x 32 (i + 1 + j))))
      let q := fun i => fp32.div 0 (sum i).1 (u i i)
      exec (.bsolve w) s = .next ((ran s).onLn fun l => { l with
        v := vecSet l.v w.vd.toNat x, vprog := vecSet l.vprog w.vd.toNat 64,
        flags := l.flags ||| orFlags (fun i => (sum i).2 ||| (q i).2) 0 n }) ∧
      (∀ i < n, elemAt x 32 i = (q i).1) ∧ ∀ i < 4096, n ≤ i → elemAt x 32 i = elemAt (vecGet s.th.ln.v w.vd.toNat 0) 32 i

/-- vamo and vamoo at places in memory that are aligned and clean: each active element's place takes the operation of Table 10.3, old values go
to v[vd] unless NR is set, and flags join vxflags. vamoo performs elements in index order; of vamo this is stated where no two elements
meet (10 R266 to R274). -/
def Obligations.VectorAtomics : Prop :=
  ∀ (s : State) (w : VWord) (pa : Nat → Nat) (ordered : Bool),
    (if ordered then Instr.vamoo w else .vamo w).wellFormed = true → Ready s 0x62 w → s.MemOk → s.th.st.entries = [] →
    s.th.fr.copy.vl ≤ vlmax s.width 32 →
    let vl := s.th.fr.copy.vl
    let sz := eb s w / 8
    let fn := w.fn.toNat
    let act := active s w
    let va := fun k => s.rd w.vc + word (elemAt (vecGet s.th.ln.v w.va.toNat 0) 32 k * if fn / 1024 % 2 = 1 then sz else 1)
    let op := fun k x => aluOp (fn / 32 % 16) w.ety 0 x (elemAt (vecGet s.th.ln.v w.vb.toNat 0) (eb s w) k)
    let before := fun k => placeBefore s.mem sz act pa op (pa k) k
    let fl := orFlags (fun k => if act k then (op k (before k)).2 else 0) 0 vl
    (∀ k < vl, act k = true → Resident s true (clusterAt s w k) (va k) sz .write (pa k)) →
    (ordered = false → ∀ j < vl, ∀ k < vl, act j = true → act k = true → pa j = pa k → j = k) →
    (∀ k < vl, act k = true → (op k (before k)).2 &&& s.th.ln.traps = 0) →
    ∃ (t : State) (x : VReg), exec (if ordered then .vamoo w else .vamo w) s = .next t ∧ PlacesWritten s t vl sz act pa op ∧
      Acquired s t (vl ≠ 0 ∧ fn % 2 = 1 ∧ 1 ≤ fn / 4 % 8) ∧
      t.th = { (ran s).th with
        st := drained s (vl ≠ 0 ∧ 2 ≤ fn % 4),
        ln := { s.th.ln with
          v := if fn / 512 % 2 = 1 then s.th.ln.v else vecSet s.th.ln.v w.vd.toNat x,
          vprog := if fn / 512 % 2 = 1 then s.th.ln.vprog else vecSet s.th.ln.vprog w.vd.toNat 64, flags := s.th.ln.flags ||| fl } } ∧
      ∀ i, elemAt x (eb s w) i =
        if i < vl ∧ act i then before i % 2 ^ eb s w
        else if i < vl ∧ vtMp s.th.ln.vtype then 0 else elemAt (vecGet s.th.ln.v w.vd.toNat 0) (eb s w) i

/-- accw opens a window of identities, vacc updates the copy of each element's lane, amerge folds the copies into memory and leaves
identities, accrel releases the window (10 R275 to R280). -/
def Obligations.AccumulationWindows : Prop :=
  (∀ (s : State) (w : VWord), (Instr.accw w).wellFormed = true → Ready s 0x63 w →
    let n := (s.rd w.vc).toNat
    let slots := (n * (eb s w / 8) + 2047) / 2048
    let wop := w.fn.toNat / 512 % 4
    let ok := bitsOf s.th.ln.win.cfg 0 0 = 0 ∧ 1 ≤ n ∧ n ≤ 1024 ∧ slots + 16 ≤ s.th.bind.slots
    (ok → exec (.accw w) s = .next ((ran s).onLn fun l => { l with win := {
      cfg := word (slots * 2 ^ 20 + n * 2 ^ 8 + w.ety.code * 2 ^ 3 + wop * 2 + 1),
      copies := List.replicate (8 * s.width) (List.replicate n (word (identity w.ety (match wop with | 0 => 1 | 1 => 5 | _ => 6)))) } })) ∧
    (¬ ok → ∃ t, exec (.accw w) s = .next t ∧ StopsAt s 0x63 w 0 .illegal 0 0 s.th.ln t)) ∧
  (∀ (s : State) (w : VWord), (Instr.vacc w).wellFormed = true → Ready s 0x63 w → WindowOk s → bitsOf s.th.ln.win.cfg 6 3 = w.ety.code →
    let vl := s.th.fr.copy.vl
    let ix := fun i => elemAt (vecGet s.th.ln.v w.va.toNat 0) 32 i
    let lane := fun i => i * (eb s w / 8) % (64 * s.width) / 8
    let fold := fun j k => ((List.range vl).filter fun i => active s w i && lane i == j && ix i == k).foldl (fun (a : Elt) i =>
      let r := aluOp (windowOp s) w.ety (vtFrm s.th.ln.vtype) a.1 (elemAt (vecGet s.th.ln.v w.vb.toNat 0) (eb s w) i)
      ((word r.1).toNat, a.2 ||| r.2)) ((copyAt s.th.ln j k).toNat, 0)
    let n := bitsOf s.th.ln.win.cfg 18 8
    let fl := orFlags (fun x => (fold (x / n) (x % n)).2) 0 (8 * s.width * n)
    (∀ i < vl, active s w i = true → ix i < n) → fl &&& s.th.ln.traps = 0 →
    ∃ c : List (List Word), exec (.vacc w) s = .next ((ran s).onLn fun l => { l with win := { l.win with copies := c }, flags := l.flags ||| fl }) ∧
      c.length = 8 * s.width ∧ (∀ r ∈ c, r.length = n) ∧
      ∀ j k, j < 8 * s.width → k < n → (c.getD j []).getD k 0 = word (fold j k).1) ∧
  (∀ (s : State) (w : VWord) (pa : Nat → Nat), (Instr.amerge w).wellFormed = true → Ready s 0x63 w → WindowOk s →
    bitsOf s.th.ln.win.cfg 6 3 = w.ety.code → s.MemOk → s.th.st.entries = [] →
    let n := bitsOf s.th.ln.win.cfg 18 8
    let sz := eb s w / 8
    let fn := w.fn.toNat
    let op := fun k x => s.th.ln.win.copies.foldl (fun (a : Elt) c =>
      let r := aluOp (windowOp s) w.ety (vtFrm s.th.ln.vtype) a.1 (c.getD k 0).toNat
      (r.1, a.2 ||| r.2)) (x, 0)
    (∀ k < n, Resident s true (k * eb s w / 8 % (64 * s.width) / 64) (s.rd w.vc + word (k * sz)) sz .write (pa k)) →
    (∀ j < n, ∀ k < n, pa j = pa k → j = k) →
    ∃ t, exec (.amerge w) s = .next t ∧ PlacesWritten s t n sz (fun _ => true) pa op ∧ Acquired s t (fn % 2 = 1 ∧ 1 ≤ fn / 4 % 8) ∧
      t.th = { (ran s).th with
        st := drained s (2 ≤ fn % 4),
        ln := { s.th.ln with
          win := { s.th.ln.win with
            copies := List.replicate (8 * s.width) (List.replicate n (word (identity w.ety (windowOp s)))) },
          flags := s.th.ln.flags ||| orFlags (fun k => (op k (leNat (memBytes s.mem (pa k) sz))).2) 0 n } }) ∧
  ∀ (s : State) (w : VWord), (Instr.accrel w).wellFormed = true → Ready s 0x63 w →
    exec (.accrel w) s = .next ((ran s).onLn fun l => { l with win := if bitsOf l.win.cfg 0 0 = 1 then { cfg := 0, copies := [] } else l.win })

/-- cp, cp2, cpx and cpq give a command to the lowest free slot of the core's engine, none for zero bytes; what R297 forbids is illegal, an
arrival word off 16 bytes misaligned; cpw waits until at most s[a] commands are outstanding (10 R296 to R298, R301). -/
def Obligations.CopyWords : Prop :=
  (∀ (s : State) (i : Instr) (w : VWord) (fn : Nat) (dst src b0 b1 : Word), copyForm s i = some (w, fn, dst, src, b0, b1) →
    i.wellFormed = true → Ready s 0x69 w → s.th.st.entries = [] →
    let off := w.vc ≠ 0 ∧ (s.rd w.vc).toNat % 16 ≠ 0
    let t := (ran s).onSt fun _ => drained s true
    let core := 56 * s.th.bind.die + s.th.bind.core
    (¬ copyFits w fn b0 b1 → ∃ t, exec i s = .next t ∧ StopsAt s 0x69 w 0 .illegal 0 0 s.th.ln t) ∧
    (copyFits w fn b0 b1 → off → ∃ t, exec i s = .next t ∧ StopsAt s 0x69 w 0 .misaligned 0 0 s.th.ln t) ∧
    (copyFits w fn b0 b1 → ¬ off → ∀ k < 16,
      (∀ c ∈ s.copies, c.core = core → c.paused = false → c.slot ≠ k) →
      (∀ j < k, ∃ c ∈ s.copies, c.core = core ∧ c.paused = false ∧ c.slot = j) →
      exec i s = .next { t with copies := if copyBytes fn b0 = 0 then s.copies else s.copies ++ [{
        core := core, slot := k, owner := 4 * core + s.th.bind.slot, ctx := s.th.bind.ctx, fn := fn, stream := w.fn.getLsbD 9,
        dst := dst, src := src, b0 := b0, b1 := b1, aw := if w.vc = 0 then none else some (s.rd w.vc), pos := 0, olds := [], seq := s.th.fr.seq + 1,
        held := false, paused := false, stopping := false }] })) ∧
  ∀ (s : State) (w : VWord), (Instr.cpw w).wellFormed = true → Ready s 0x69 w →
    exec (.cpw w) s = .next ((ran s).onFr fun f => { f with wait := .copies (s.rd w.va) })

/-- wdecl declares a window over DS pages of one die and gives its handle, or one of the failures of R309; wdecl.rel marks one for release at
the next whistle; vldr reads the step-start bytes of a window of its own package; vstr holds its bytes for the window in the strip store
buffer and changes no memory (11 R306 to R310, R324 to R327). wdecl is stated for pages the TLB holds, with no stepq pending. -/
def Obligations.WindowAndRemoteWords : Prop :=
  ((∀ (s : State) (w : VWord) (p : Nat → Nat) (k : Nat → Nat), (Instr.wdecl w).wellFormed = true → Ready s 0x70 w → s.th.fab.queued = false →
    let base := s.rd w.va
    let len := (s.rd w.vb).toNat
    let cfg := s.rd w.vc
    let fits := base.toNat % 65536 = 0 ∧ len ≠ 0 ∧ len % 65536 = 0 ∧ len ≤ 2 ^ 36 ∧ windowConfig cfg
    (¬ fits → ∃ t, exec (.wdecl w) s = .next t ∧ StopsAt s 0x70 w 0 .illegal 0 0 s.th.ln t) ∧
    (fits → (∀ j < len / 65536, s.xlate 0 (base + word (j * 65536)) .read = .ok { st := s, pa := p j, kind := k j }) →
      let die := p 0 / 2 ^ 38 % 4
      let ds := ∀ j < len / 65536, k j = 3 ∧ p j < 2 ^ 40 ∧ p j / 2 ^ 38 % 4 = die
      let clear := ∀ x ∈ ownWindows s, ¬ (x.base.toNat < base.toNat + len ∧ base.toNat < x.base.toNat + x.len)
      let taken := fun h => ∃ x ∈ s.windows, x.ctx = s.th.bind.ctx ∧ x.handle = h
      let size := 16 * (cfg.toNat / 2 ^ 8)
      (¬ ds → exec (.wdecl w) s = .next (gaveWait s w.vd 0x8000000000000003)) ∧
      (ds → ¬ clear → exec (.wdecl w) s = .next (gaveWait s w.vd 0x8000000000000004)) ∧
      (ds → clear → (∀ h < 64, taken h) → exec (.wdecl w) s = .next (gaveWait s w.vd 0x8000000000000001)) ∧
      (ds → clear → ∀ h < 64, ¬ taken h → (∀ j < h, taken j) →
        (s.bufferPlace s.th.bind.ctx die size = none → exec (.wdecl w) s = .next (gaveWait s w.vd 0x8000000000000002)) ∧
        ∀ a, s.bufferPlace s.th.bind.ctx die size = some a → exec (.wdecl w) s = .next { gaveWait s w.vd (word h) with
          windows := s.windows ++ [{
            ctx := s.th.bind.ctx, handle := h, base := base, len := len, die := die, pages := (List.range (len / 65536)).map p,
            cap := cfg.toNat / 2 ^ 8, rule := cfg.toNat / 2 ^ 4 % 8, ety := cfg.toNat % 16, bufAt := a, entries := [], overflowed := false,
            conflicted := false, releasing := false, freeing := none }] }))) ∧
  ∀ (s : State) (w : VWord), (Instr.wdeclRel w).wellFormed = true → Ready s 0x70 w → s.th.fab.queued = false →
    let h := (s.rd w.va).toNat
    let named := h < 64 ∧ ∃ x ∈ ownWindows s, x.handle = h
    (named → exec (.wdeclRel w) s = .next { ran s with windows := s.windows.map fun x =>
      if x.ctx = s.th.bind.ctx ∧ x.handle = h ∧ x.freeing = none then { x with releasing := true } else x }) ∧
    (¬ named → ∃ t, exec (.wdeclRel w) s = .next t ∧ StopsAt s 0x70 w 0 .illegal 0 0 s.th.ln t)) ∧
  ((∀ (s : State) (w : VWord) (m : Window) (pa : Nat → Nat), (Instr.vldr w).wellFormed = true → Ready s 0x71 w → OwnTarget s w m →
    (∀ i < s.th.fr.copy.vl, active s w i = true → InWindow s m (remoteAt s w i) (eb s w / 8) .read (pa i)) →
    ∃ t, exec (.vldr w) s = .next t ∧ ElementWord s (t.onUnc fun u => cold s u) (plain s 0x71 w fun i => (leNat (memBytes s.mem (pa i) (eb s w / 8)), 0))) ∧
  ∀ (s : State) (w : VWord) (m : Window) (pa : Nat → Nat), (Instr.vstr w).wellFormed = true → Ready s 0x72 w → OwnTarget s w m →
    s.th.st.entries = [] → m.elemBytes = eb s w / 8 →
    let vl := s.th.fr.copy.vl
    let act := active s w
    let z := eb s w / 8
    let off := fun i => (remoteAt s w i).toNat
    (∀ i < vl, act i = true → InWindow s m (remoteAt s w i) z .write (pa i)) → HasRoom s vl z act (clusterAt s w) off →
    ∃ t, exec (.vstr w) s = .next t ∧ { t with th := { t.th with st := { t.th.st with entries := [] } } } = ran s ∧
      (∀ e ∈ t.th.st.entries, e.strip = s.th.st.open_ ∧ e.remote = some (s.dev.rank, m.handle, z)) ∧
      ∀ a, (remoteByte t (s.dev.rank, m.handle, z) a).getLast? =
        ((List.range vl).filter fun i => act i && decide (off i ≤ a) && decide (a < off i + z)).getLast?.map fun i =>
          old s w i / 256 ^ (a - off i) % 256)

/-- step and step.at arrive at the whistle and wait for its release, stepq arrives, gives STEPNO + 1 and is counted as a word only when it
retires, at its release; fsbind binds and unbinds stream registers; vcred reduces two contributions (11 R314, R318, R320, R321, R337,
R343). That s[d] is the 16-bit STEPNO of stepstat plus 1 without a wrap is the model's reading (log 46); so is the member
index that vcred takes with no stream bound (log 18). -/
def Obligations.StepAndStreamWords : Prop :=
  (∀ (s : State) (w : VWord) (at_ : Bool), (if at_ then Instr.stepAt w else .step w).wellFormed = true → Ready s 0x73 w → MayArrive s w →
    s.th.fab.queued = false →
    exec (if at_ then .stepAt w else .step w) s = .next { s with th := { s.th with
      fr := { frontAfter s with viq := [entry s 0x73 w], wait := .entry (s.th.fr.seq + 1) }, st := stepStrip s,
      fab := arrivedAs s w false (if at_ then (s.rd w.vb).toNat else 0) } }) ∧
  (∀ (s : State) (w : VWord), (Instr.stepq w).wellFormed = true → Ready s 0x73 w → MayArrive s w → s.th.fab.queued = false →
    let no := ((s.whistles.find? fun x => x.ctx = s.th.bind.ctx).map (·.stepNo)).getD 0
    ∃ e : VEntry, e.seq = s.th.fr.seq + 1 ∧ e.op = 0x73 ∧ e.w = w ∧ e.addr = s.th.fr.spc ∧ e.complete = true ∧
      exec (.stepq w) s = .next (((((gaveWait s w.vd (word (no % 65536 + 1))).onSt fun _ => stepStrip s).onFab fun _ =>
        { arrivedAs s w true 0 with stepstat := s.th.fab.stepstat ||| 4 }).onFr fun f => { f with stepq := some e }).onTh fun t =>
          { t with cnt := s.th.cnt })) ∧
  (∀ (s : State) (w : VWord) (send : Bool), (if send then Instr.fsbindTx w else .fsbindRx w).wellFormed = true → Ready s 0x74 w →
    s.unc.asks = [] → let c := s.th.fab.cgrp.toNat % 16
    let k := (s.rd w.vc).toInt
    (∀ cm p, s.comm c = some cm → s.memberIndex c = some p → -8388608 ≤ k → k ≤ 8388607 →
      exec (if send then .fsbindTx w else .fsbindRx w) s = .next ((ran s).onFab fun f => { f with fs := vecSet f.fs w.vd.toNat {
        bound := true, send := send, lost := cm.aborted, comm := c, offset := k, rx := [], granted := 0, stage := [] } })) ∧
    (s.comm c = none ∨ s.memberIndex c = none ∨ k < -8388608 ∨ 8388607 < k →
      ∃ t, exec (if send then .fsbindTx w else .fsbindRx w) s = .next t ∧ StopsAt s 0x74 w 0 .illegal 0 0 s.th.ln t)) ∧
  (∀ (s : State) (w : VWord), (Instr.fsbindU w).wellFormed = true → Sendable s 0x74 w →
    let t := vecGet s.th.fab.fs w.vd.toNat .reset
    (t.bound = false ∨ t.lost = true ∨ (t.send = true ∧ t.stage = []) ∨ (t.send = false ∧ t.rx = [] ∧ t.granted = 0) →
      exec (.fsbindU w) s = .next ((ran s).onFab fun f => { f with fs := vecSet f.fs w.vd.toNat .reset })) ∧
    (t.bound = true ∧ t.lost = false ∧ t.send = false ∧ (t.rx ≠ [] ∨ t.granted ≠ 0) →
      ∃ t, exec (.fsbindU w) s = .next t ∧ StopsAt s 0x74 w 0 .illegal 0 0 s.th.ln t)) ∧
  ∀ (s : State) (w : VWord) (p : Nat), (Instr.vcred w).wellFormed = true → Ready s 0x75 w →
    s.memberIndex (s.th.fab.cgrp.toNat % 16) = some p → (credForm s w p).checks = true → (credForm s w p).quiet s →
    ∃ t, exec (.vcred w) s = .next t ∧ ElementWord s t (credForm s w p)

/-- amo and amocas replace a place in memory and give its old value; a floating-point flag whose trap is enabled traps after both writes, at M at
the word's own address; a fence for prior writes drains the committed strips' entries of the kinds it names, and no other; aw.init, aw.add
and aw.wait, whose checks come in the model's order (log 77). Stated where nothing of the thread is in flight and the page is in the TLB (10 R264 to R271, R292 to R295). -/
def Obligations.AtomicWords : Prop :=
  (∀ (s : State) (i : Instr) (op : Nat) (w : VWord) (pa : Nat), amoForm i = some (op, w) → i.wellFormed = true → FrontQuiet s → s.MemOk →
    let sz := w.ety.fixedBits / 8
    Resident s true 0 (s.rd w.va) sz .write pa →
    let old := leNat (memBytes s.mem pa sz)
    let f := fun (_ : Nat) x => aluOp op w.ety 0 x ((s.rd w.vb).toNat % 2 ^ (8 * sz))
    let x : Word := if w.ety = .i32 then (BitVec.ofNat 32 old).signExtend 64 else word old
    let fl := (f 0 old).2
    ∃ u : State, PlacesWritten s u 1 sz (fun _ => true) (fun _ => pa) f ∧ Acquired s u (wordOrd w % 2 = 1 ∧ 1 ≤ wordScope w) ∧
      (fl &&& s.th.fr.copy.traps = 0 → exec i s = .next u ∧
        u.th = (((s.onSt fun _ => drained s (2 ≤ wordOrd w)).wrFlags w.vd x fl).seqNext 8).th) ∧
      (fl &&& s.th.fr.copy.traps ≠ 0 →
        u.th = (let r := (s.onSt fun _ => drained s (2 ≤ wordOrd w)).wr w.vd x; if s.th.fr.m.lvl then r else r.seqNext 8).th ∧
        exec i s = .next (u.takeException .arithmetic noIndex u.th.fr.spc u.th.fr.spc (fl &&& s.th.fr.copy.traps) false))) ∧
  (∀ (s : State) (w : VWord) (pa : Nat), (Instr.amocas w).wellFormed = true → FrontQuiet s → s.MemOk →
    let sz := w.ety.fixedBits / 8
    Resident s true 0 (s.rd w.va) sz .write pa →
    let old := leNat (memBytes s.mem pa sz)
    let same := old = (s.rd w.vb).toNat % 2 ^ (8 * sz)
    let x : Word := if w.ety = .i32 then (BitVec.ofNat 32 old).signExtend 64 else word old
    ∃ u, exec (.amocas w) s = .next u ∧ Acquired s u (wordOrd w % 2 = 1 ∧ 1 ≤ wordScope w) ∧
      PlacesWritten s u 1 sz (fun _ => same) (fun _ => pa) (fun _ _ => ((s.rd w.vc).toNat % 2 ^ (8 * sz), 0)) ∧
      u.th = (((s.onSt fun _ => drained s (2 ≤ wordOrd w)).wr w.vd x).seqNext 8).th) ∧
  (∀ (s : State) (w : VWord), (Instr.fence w).wellFormed = true → FrontQuiet s →
    exec (.fence w) s = .next ((ordered s (if w.vd.getLsbD 2 then 1 else 0) (wordScope w)).seqNext 8)) ∧
  (∀ (s : State) (w : VWord), (Instr.fence w).wellFormed = true → s.th.fr.curLane = none → s.older = [] → s.th.fr.storeQ = [] →
    ∃ t, exec (.fence w) s = .next t ∧ t.th.fr = (s.seqNext 8).th.fr ∧ t.th.st.entries = if w.vd.getLsbD 1 then
      s.th.st.entries.filter fun e => e.strip = s.th.st.open_ || e.remote.isSome || !(e.kind % 8 < 3 && w.fn.getLsbD (9 + e.kind % 8))
    else s.th.st.entries) ∧
  (∀ (s : State) (w : VWord) (pa : Nat), FrontQuiet s → s.MemOk →
    let n := (s.rd w.vb).toNat
    let put := fun (i : Instr) (f : Nat → Nat) => ∃ u, exec i s = .next u ∧ u.th = ((s.onSt fun _ => drained s (2 ≤ wordOrd w)).seqNext 8).th ∧
      PlacesWritten s u 1 16 (fun _ => true) (fun _ => pa) fun _ x => (f x, 0)
    ((Instr.awInit w).wellFormed = true → n = 0 ∨ 2 ^ 40 ≤ n → exec (.awInit w) s = .next (faultsHere s .illegal)) ∧
    ((Instr.awAdd w).wellFormed = true → 2 ^ 40 ≤ n → exec (.awAdd w) s = .next (faultsHere s .illegal)) ∧
    (Resident s true 0 (s.rd w.va) 16 .write pa →
      ((Instr.awInit w).wellFormed = true → 1 ≤ n → n < 2 ^ 40 → put (.awInit w) (awBegun n)) ∧
      ((Instr.awAdd w).wellFormed = true → n < 2 ^ 40 → put (.awAdd w) (awAdded n)))) ∧
  ∀ (s : State) (w : VWord) (pa : Nat), (Instr.awWait w).wellFormed = true → FrontQuiet s → s.th.fr.wait = .none →
    Resident s true 0 (s.rd w.va) 16 .write pa →
    let d1 := leNat (memBytes s.mem (pa + 8) 8)
    let gen := (s.rd w.vb).toNat % 2 ^ 20
    ∃ u, exec (.awWait w) s = .next u ∧ u.onUnc (cold s) =
      if d1 / 2 ^ 40 % 2 ^ 20 = gen then s.onFr fun f => { f with wait := .arrival w.vd (s.rd w.va) gen (wordOrd w) (wordScope w) }
      else ((ordered s (wordOrd w % 2) (wordScope w)).wr w.vd (word d1)).seqNext 8

/-- Sync registers, huddles and the pass ring: values at the home, refusals, waits and releases; a number above 11 bits is illegal, one outside
the context's range raises PageFault (10 R281 to R291). An arrival joins the set that completed a phase where it comes in the same cycle from
a later requester, the model's reading of R284 (log 76). The order of the checks of hud.init and of the pass ring is the model's choice
(log 77). -/
def Obligations.SyncWords : Prop :=
  (∀ (s : State) (i : Instr) (w : VWord), FrontQuiet s →
    i ∈ [Instr.syncRd w, .syncWr w, .syncTas w, .syncFadd w, .hudArr w, .hudDrop w, .hudWait w] →
    (2 ^ 11 ≤ (s.rd w.va).toNat → exec i s = .next (faultsHere s .illegal)) ∧
    ((s.rd w.va).toNat < 2 ^ 11 → ¬ Named s (s.rd w.va) → exec i s = .next (faultsHere s .pageFault))) ∧
  (∀ (s : State) (w : VWord), FrontQuiet s → Named s (s.rd w.va) →
    let n := (s.rd w.va).toNat
    let old := homeValue s (s.rd w.va)
    let o := s.onSt fun _ => drained s (2 ≤ wordOrd w)
    let seen := s.syncSeen s.th.bind.die (n / 512) (n % 512)
    let puts := fun (i : Instr) (v : Word) (ends : Bool) (r : State) =>
      ∃ u, exec i s = .next u ∧ SyncWritten s u (s.rd w.va) v ends ∧ { u with sync := s.sync } = r
    let writes := fun (i : Instr) (v : Word) (r : State) => puts i v false r
    let acq := fun (r : State) => { r with unc := (ordered s (wordOrd w) (wordScope w)).unc }
    exec (.syncRd w) s = .next (((ordered s (wordOrd w % 2) (wordScope w)).wr w.vd seen).seqNext 8) ∧
    writes (.syncWr w) (s.rd w.vb) (acq (o.seqNext 8)) ∧
    writes (.syncTas w) (old ||| 1) (acq ((o.wr w.vd old).seqNext 8)) ∧
    writes (.syncFadd w) (old + s.rd w.vb) (acq ((o.wr w.vd old).seqNext 8)) ∧
    (2 ^ 12 ≤ (s.rd w.vb).toNat → exec (.hudInit w) s = .next (faultsHere s .illegal)) ∧
    ((s.rd w.vb).toNat < 2 ^ 12 → hudArr old ≠ 0 → exec (.hudInit w) s = .next ((s.wr w.vd 1).seqNext 8)) ∧
    ((s.rd w.vb).toNat < 2 ^ 12 → hudArr old = 0 →
      writes (.hudInit w) (word (hudGen old * 2 ^ 36 + (s.rd w.vb).toNat * 2 ^ 12)) ((s.wr w.vd 0).seqNext 8)) ∧
    (∀ drop : Bool, let i := if drop then Instr.hudDrop w else .hudArr w
      let r := s.onSt fun _ => drained s true
      let ended := ∃ p < s.th.bind.place, (n, s.gtime, p) ∈ s.sync.phases
      (ended → exec i s = .next ((r.wr w.vd (word ((hudGen old + 2 ^ 28 - 1) % 2 ^ 28 + 2 ^ 63))).seqNext 8)) ∧
      (¬ ended → hudExp old ≤ hudArr old → exec i s = .next ((r.wr w.vd (word (hudGen old + 2 ^ 63))).seqNext 8)) ∧
      (¬ ended → hudArr old < hudExp old →
        puts i (hudAfter old drop) (hudArr old + 1 = hudExp old) ((r.wr w.vd (word (hudGen old))).seqNext 8))) ∧
    (s.th.fr.wait = .none → hudGen seen ≠ (s.rd w.vb).toNat % 2 ^ 28 →
      exec (.hudWait w) s = .next ((ordered s 1 3).seqNext 8)) ∧
    (hudGen seen = (s.rd w.vb).toNat % 2 ^ 28 →
      exec (.hudWait w) s = .next (s.onFr fun f => { f with wait := .huddle n ((s.rd w.vb).toNat % 2 ^ 28) }))) ∧
  ∀ (s : State) (w : VWord), FrontQuiet s →
    let x := (s.rd w.va).toNat
    let core := 56 * s.th.bind.die + s.th.bind.core
    let held := s.postGet core (ptagTag s)
    (∀ i ∈ [Instr.post w, .postSet w, .waiti w], (2 ^ 48 ≤ x → exec i s = .next (faultsHere s .illegal)) ∧
      (x < 2 ^ 48 → ¬ HoldsTag s → exec i s = .next (faultsHere s .pageFault))) ∧
    (x < 2 ^ 48 → HoldsTag s →
      (∀ set : Bool, let new := if set ∨ held.toNat ≤ x then x else held.toNat
        ∃ u, exec (if set then .postSet w else .post w) s = .next u ∧
          (∀ k tag, u.postGet k tag = if k = core ∧ tag = ptagTag s then BitVec.ofNat 48 new else s.postGet k tag) ∧
          u.sync.ring = s.sync.ring ++ [{
            die := s.th.bind.die, src := s.th.bind.core, tag := ptagTag s, value := BitVec.ofNat 48 x, set := set,
            left := (List.range 55).map fun k => (s.th.bind.core + 1 + k) % 56 }] ∧
          { u.sync with post := s.sync.post, ring := s.sync.ring } = s.sync ∧
          { u with sync := s.sync } = (lastIs (s.onSt fun _ => drained s true) new).seqNext 8) ∧
      (held.toNat < x → exec (.waiti w) s = .next (s.onFr fun f => { f with wait := .ring x })) ∧
      (x ≤ held.toNat → s.th.fr.wait = .none → exec (.waiti w) s = .next ((lastIs (ordered s 1 2) held.toNat).seqNext 8)))

/-- Events of a thread: one that stands at the place, whichever thread is current, and none where no thread stands. Convoys, the
one-slot entries and the step word issue by their events in a lagging model as they do at once in a prompt one (log 6); the history buffer,
lanes, waits, deadlines, traps, suspensions, pre-emption and gang switches (03 R60; 04 R97, R100, R102; 05 R119; 10 R274, R279, R288, R291,
R295, R301; 12 R350, R354, R362, R366). The model's choices: a load is performed where it runs, so that its response changes nothing (log 19),
and what Eloaler maps or rewrites before it resumes a thread is free (log 78). -/
def Obligations.ThreadEvents : Prop :=
  (∀ (s : State) (i : Instr) (p : Nat), eventPlace i = some p →
    ((s.threads.all fun t => !t.isAt p) = true → exec i s = .next s) ∧
    ∀ (k : Nat) (t : State), s.th.isAt p = false → s.others.findIdx? (Thread.isAt p) = some k → exec i (s.swapWith k) = .next t →
      exec i s = .next (t.swapWith k)) ∧
  (∀ (s : State) (p pa : Nat), exec (.loadResponse p pa) s = .next s) ∧
  (∀ (s : State) (p : Nat), s.th.isAt p = true → s.th.life = .running →
    (∀ (i : Instr) (op : Nat) (w : VWord) (k g : Nat), viqWord i = some (op, w, k) → laneToScalar op w = false → i.wellFormed = true →
      Ready s op w → 2 ^ 32 ≤ g →
      (op < 0x40 → ∃ a b c t, exec i (lagging s) = .next a ∧ a.th.fr.viq.length = 1 ∧ exec (.convoyIssue p g) a = .next b ∧
        exec (.convoyRetire p) b = .next c ∧ exec i s = .next t ∧ c = lagging t) ∧
      (op = 0x62 → s.th.st.entries = [] → s.th.st.unacked = [] → ∃ a b c t, exec i (lagging s) = .next a ∧ exec (.convoyIssue p g) a = .next a ∧ exec (.vamoPerform p g) a = .next b ∧
        exec (.convoyRetire p) b = .next c ∧ exec i s = .next t ∧ c = lagging t) ∧
      (op = 0x63 → w.fn.toNat / 32 = 2 → s.th.st.entries = [] → s.th.st.unacked = [] → ∃ a b c t, exec i (lagging s) = .next a ∧ exec (.amergePerform p g) a = .next b ∧
        exec (.convoyRetire p) b = .next c ∧ exec i s = .next t ∧ c = lagging t)) ∧
    (∀ h hs, s.th.fr.hist = h :: hs →
      ((∀ e ∈ s.th.fr.viq, e.safe = true ∨ h.seq < e.seq) → exec (.historyEntryRetire p) s =
        .next ((s.onFr fun f => { f with hist := hs }).onLn fun l => { l with flags := l.flags ||| h.flags })) ∧
      ((∃ e ∈ s.th.fr.viq, e.safe = false ∧ e.seq ≤ h.seq) → exec (.historyEntryRetire p) s = .next s)) ∧
    (∀ e, OneEntry s e → s.th.fr.m.lvl = false →
      (∀ n rs, e.slot = .mtc n → (n, rs) ∈ laneWrites → e.sc &&& rs = 0 → ∃ t, exec (.mtcLaneEntry p) s = .next t ∧ t.crValue n = e.sc ∧
        t.th.fr.viq = [] ∧ t.th.fr.s = s.th.fr.s ∧ t.th.fr.spc = s.th.fr.spc ∧ t.mem = s.mem) ∧
      (∀ n, e.slot = .commit n → s.prompt = false → ∃ t, exec (.commitEntry p) s = .next t ∧ t.th.fr.viq = [] ∧
        t.th.st = { s.th.st with open_ := s.th.st.open_ + 1, unc := false } ∧ t.th.ln = { s.th.ln with vl := n.getD s.th.ln.vl } ∧
        t.th.fr.spc = s.th.fr.spc ∧ t.mem = s.mem)) ∧
    (∀ (l : LaneSection) (cl j : Nat) (i : Instr) (d : RegNo) (x : Word) (fl : Flags), LaneAt s l cl j i → j < 2048 →
      intResult (asLane s l j) i = some (d, x, fl) ∨ fpResult (asLane s l j) i = some (d, x, fl) → fl &&& s.th.fr.copy.traps = 0 →
      let next := l.pcs.getD j 0 + 4
      ∃ t, exec (.laneIssue p cl) s = .next t ∧ t.th.fr.curLane = none ∧ t.th.fr.spc = l.origin ∧
        t.th.fr.lanes = some { l with pcs := l.pcs.set j next, last := l.last.set (j / 8) (j % 8) } ∧
        LaneRegisterWord (asLane s l j) (t.onFr fun f => { f with curLane := some j, spc := next, lanes := some l }) j d x fl) ∧
    (∀ (l : LaneSection) (cl j : Nat) (i : Instr) (u : State), LaneAt s l cl j i → (intResult s i).isSome = true ∨ (branchForm s i).isSome = true →
      exec i (asLane s l j) = .next u → u.th.fr.lanes = some l → u.th.fr.curLane = some j →
      exec (.laneIssue p cl) s = .next (u.onFr fun f => { f with
        curLane := none, spc := l.origin, lanes := some { l with pcs := l.pcs.set j f.spc, last := l.last.set (j / 8) (j % 8) } })) ∧
    (∀ (d : RegNo) (x : Word), s.th.fr.wait = .time d x →
      (s.gtime < x → exec (.waitTReturn p) s = .next s) ∧
      (x ≤ s.gtime → LogRoom s → exec (.waitTReturn p) s = .next (((s.onFr fun f => { f with wait := .none }).wr d s.gtime).seqNext 4)) ∧
      (x ≤ s.gtime → d ≠ 0 → s.th.fr.curLane = none → s.unsafeOlder = true → 64 ≤ s.th.fr.hist.length →
        exec (.waitTReturn p) s = .next s)) ∧
    (∀ r g, s.th.fr.wait = .huddle r g →
      (hudGen (s.syncSeen s.th.bind.die (r / 512) (r % 512)) = g → exec (.hudWaitReturn p) s = .next s) ∧
      (hudGen (s.syncSeen s.th.bind.die (r / 512) (r % 512)) ≠ g → LogRoom s →
        exec (.hudWaitReturn p) s = .next ((ordered (s.onFr fun f => { f with wait := .none }) 1 3).seqNext 8))) ∧
    (∀ v, s.th.fr.wait = .ring v →
      let held := (s.postGet (56 * s.th.bind.die + s.th.bind.core) (ptagTag s)).toNat
      (held < v → exec (.waitiReturn p) s = .next s) ∧
      (v ≤ held → LogRoom s → exec (.waitiReturn p) s =
        .next ((lastIs (ordered (s.onFr fun f => { f with wait := .none }) 1 2) held).seqNext 8))) ∧
    (∀ d va g ord scope pa, s.th.fr.wait = .arrival d va g ord scope → FrontQuiet s → ord < 2 → Resident s true 0 va 16 .write pa →
      let d1 := leNat (memBytes s.mem (pa + 8) 8)
      ∃ t, exec (.awWaitReturn p) s = .next t ∧ t.onUnc (cold s) = if d1 / 2 ^ 40 % 2 ^ 20 = g then s
        else ((ordered (s.onFr fun f => { f with wait := .none }) ord scope).wr d (word d1)).seqNext 8) ∧
    (∀ n, s.th.fr.wait = .copies n → s.th.fr.viq = [] →
      let out := (s.copies.filter fun c => c.owner = p).length
      (n.toNat < out → exec (.cpwReturn p) s = .next s) ∧
      (out ≤ n.toNat → exec (.cpwReturn p) s = .next (ordered (s.onFr fun f => { f with wait := .none }) 1 3))) ∧
    (s.gtime ≤ s.th.fr.regs.dline → exec (.deadline p) s = .next s) ∧
    (s.th.fr.regs.dline < s.gtime → s.older = [] → exec (.deadline p) s = .next (s.fatalEnd .deadline noIndex s.th.fr.spc s.vcp 0 false)) ∧
    (∀ c idx, s.older = [] →
      (c ∈ [.illegal, .controlFlow, .misaligned, .kindCross, .arithmetic, .skew, .peerLost, .trap, .breakpoint] →
        exec (.trapDelivery p c idx) s = .next (s.takeException c idx s.th.fr.spc s.th.fr.spc 0 false)) ∧
      (c ∈ [.pageFault, .poison, .machineCheck] → ∃ t, exec (.suspendToEloaler p c idx) s = .next t ∧
        t.th.life = .suspended c idx s.th.fr.spc s.th.fr.spc ∧ t.th.fr.s = s.th.fr.s ∧ t.mem = s.mem)) ∧
    (s.th.fr.regs.dline < s.gtime → s.older = [] → exec (.preemption p) s = exec (.deadline p) s) ∧
    (s.gtime ≤ s.th.fr.regs.dline → (∀ e ∈ s.older, e.issued = false) →
      (∃ t, exec (.preemption p) s = .next t ∧ t.th.life = .swapped ∧ t.th.fr.s = s.th.fr.s ∧ t.th.fr.spc = s.th.fr.spc ∧ t.th.ln = s.th.ln ∧
        t.th.fr.m.lvl = s.th.fr.m.lvl ∧ t.mem = s.mem) ∧
      ∀ o inc at_ res, Alone s → s.th.bind.ctx = o → inc ≠ o → s.saved = [] → at_ ≤ s.gtime →
        ∃ t x, exec (.gangSwitch o ⟨inc, at_, res⟩) s = .next t ∧ t.th.life = .free ∧
          t.others = [] ∧ t.images = [x] ∧ x.life = .swapped ∧ x.fr.s = s.th.fr.s ∧ x.bind = s.th.bind ∧
          t.hub.switches = (s.hub.switches.filter fun w => w.incoming ≠ inc) ++ [{ outgoing := o, incoming := inc, resume := res }] ∧
          (o ≠ 0 → o ∈ t.hub.away) ∧ inc ∉ t.hub.away)) ∧
  (∀ (s : State) (o inc : Nat) (at_ : BitVec 64) (res : Option (BitVec 64)), s.gtime < at_ → exec (.gangSwitch o ⟨inc, at_, res⟩) s = .next s) ∧
  ∀ (s : State) (p : Nat), s.th.isAt p = true →
    let home := ∀ k ∈ s.saved, ¬ (k.ctx = s.th.bind.ctx ∧ k.die = s.th.bind.die)
    let timely := ∀ w r, (s.hub.switches.find? fun w => w.incoming = s.th.bind.ctx) = some w → w.resume = some r → r ≤ s.gtime
    (∀ c idx spc vcp, s.th.life = .suspended c idx spc vcp →
      (home → s.dev.defaultPolicy = false ∨ (c ≠ .poison ∧ c ≠ .machineCheck) → ∃ t, exec (.eloalerResume p) s = .next t ∧ t.th.life = .running ∧
        { t.th.fr with regs := s.th.fr.regs } = s.th.fr ∧ t.th.ln = s.th.ln ∧
        (c ≠ .pageFault → c ≠ .poison → c ≠ .machineCheck → t.mem = s.mem) ∧
        (c = .pageFault → (∀ va, s.missingPte s.walker va = none) → t.mem = s.mem)) ∧
      (s.dev.defaultPolicy = true → c = .poison ∨ c = .machineCheck → exec (.eloalerResume p) s = exec (.fatalEnd p) s) ∧
      (Alone s → ∃ t, exec (.fatalEnd p) s = .next t ∧ t.th.life = .ended ∧ ∀ l ∈ s.hub.launches, l.number = s.th.bind.launch →
        l.firstFatal = none → l.status ≠ 6 → ∃ l' ∈ t.hub.launches, l'.number = l.number ∧ l'.firstFatal = some s.th.bind.flat ∧ l'.code = c.code ∧
          l'.report[1]? = some spc ∧ l'.report[2]? = some vcp ∧ l'.report[3]? = some idx)) ∧
    (s.th.life = .swapped → home → timely → ∃ t, exec (.switchResume p) s = .next t ∧ t.th.life = .running ∧ { t.th.fr with regs := s.th.fr.regs } = s.th.fr ∧ t.th.ln = s.th.ln ∧ t.mem = s.mem) ∧
    (∀ go, s.th.life = .swappedBound go → timely → ∃ t, exec (.switchResume p) s = .next t ∧ t.th.life = .bound ∧ t.th.fr = s.th.fr ∧
      t.mem = s.mem) ∧
    (¬ timely → exec (.switchResume p) s = .next { s with hub := { s.hub with
      switches := s.hub.switches.filter fun w => (s.th :: s.others).any fun x => decide (x.bind.ctx = w.incoming) && x.life.isSwapped } })

/-- Events of memory: stores that leave the queue, strip entries that drain, acknowledgements, walks, fills, refreshes, requests at the slice
ALUs, mirrors, posts, copies and scrubs (03 R61; 07 R168, R170, R185, R193, R437; 10 R267, R283, R289, R294, R296 to R300; 14 R420, R421). The
model's choices: the order of a patrol over a stack's lines (log 31), a request at a slice done whole in one step (log 53), and a fill done at
once (log 54). -/
def Obligations.MemoryEvents : Prop :=
  (∀ (s : State) (p : Nat), s.th.isAt p = true → s.MemOk →
    (∀ e es, s.th.life = .running → s.th.fr.storeQ = e :: es →
      ((∃ v ∈ s.inLanes, v.safe = false ∧ v.seq ≤ e.seq) → exec (.storeQueueLeave p) s = .next s) ∧
      ((∀ v ∈ s.inLanes, v.safe = true ∨ e.seq < v.seq) → e.kind = 0 → s.th.st.entries = [] → PlainHbm s e.pa e.bytes.length →
        ∃ t, exec (.storeQueueLeave p) s = .next t ∧ BytesWritten s t e.pa e.bytes ∧ t.th = { s.th with fr := { s.th.fr with storeQ := es } })) ∧
    (∀ (e : StripEntry) (k : Nat), (s.th.st.entries.filter fun x => x.strip ≠ s.th.st.open_)[k]? = some e → s.th.st.entries.Nodup →
      e.kind = 0 → e.remote = none → PlainHbm s (e.block * 64) 64 →
      (∀ x ∈ (s.th.st.entries.filter fun x => x.strip ≠ s.th.st.open_).take k, x.block ≠ e.block ∨ x.remote ≠ none) →
      ∃ t, exec (.stripEntryDrain p k) s = .next t ∧ t.MemOk ∧
        t.th = { s.th with st := { s.th.st with entries := s.th.st.entries.erase e, unacked := s.th.st.unacked ++ [e.slot] } } ∧
        (∀ b < 64, field e.marks (2 * b) 2 = 3 → (memGet t.mem (e.block * 64 + b)).toNat = field e.data (8 * b) 8) ∧
        (∀ b < 64, field e.marks (2 * b) 2 = 0 → memGet t.mem (e.block * 64 + b) = memGet s.mem (e.block * 64 + b)) ∧
        ∀ a, a < e.block * 64 ∨ e.block * 64 + 64 ≤ a → memGet t.mem a = memGet s.mem a) ∧
    (∀ k, exec (.storeAcknowledgement p k) s = .next (s.onSt fun x => { x with unacked := x.unacked.eraseIdx k })) ∧
    (s.th.life = .running → ∀ cl < s.width, ∀ va acc,
      (∀ c, s.xlate cl va acc = .error c → exec (.tlbWalk p cl va acc) s = .next s) ∧
      (∀ x, s.xlate cl va acc = .ok x → exec (.tlbWalk p cl va acc) s = .next x.st ∧ x.st.th = s.th)) ∧
    ∀ r b bad, r < 64 → b < 4096 * s.width → ∃ t, exec (.registerFileScrub p r b bad) s = .next t ∧ Scrubbed s t bad ∧
      { t with tele := s.tele, freeCount := s.freeCount } =
        if bad ∧ (r, b) ∉ s.th.ln.bad then s.onLn fun l => { l with bad := (r, b) :: l.bad } else s) ∧
  (∀ (s : State) (pa : Nat), pa < 2 ^ 40 → pa % 2 ^ 38 < 2 ^ 37 →
    let die := pa / 2 ^ 38
    let slice := pa % 2 ^ 38 / 256 % 56
    let set := pa % 2 ^ 38 / 256 / 56 % 384
    let here := fun (x : L2Line) => x.die = die ∧ x.slice = slice ∧ x.set = set
    ((∃ x ∈ s.unc.l2, x.line = pa / 256) → exec (.l2Fill pa) s = .next s) ∧
    ((∀ x ∈ s.unc.l2, x.line ≠ pa / 256) → s.l2Ways die ≠ [] → ∃ t way, exec (.l2Fill pa) s = .next t ∧ way ∈ s.l2Ways die ∧
      { die := die, slice := slice, set := set, way := way, line := pa / 256, dirty := false } ∈ t.unc.l2 ∧
      (∀ x, ¬ (here x ∧ x.way = way) → (x ∈ t.unc.l2 ↔ x ∈ s.unc.l2)) ∧
      ((∃ w ∈ s.l2Ways die, ∀ x ∈ s.unc.l2, here x → x.way ≠ w) → ∀ x ∈ s.unc.l2, here x → x.way ≠ way) ∧
      ((∀ w ∈ s.l2Ways die, ∃ x ∈ s.unc.l2, here x ∧ x.way = w) → (s.unc.cuts.map fun c => (c.die, c.index)).Nodup →
        (s.unc.l2.map fun x => (x.die, x.slice, x.set, x.way)).Nodup → ∀ x ∈ s.unc.l2, here x → x.way = way →
        ∀ y ∈ s.unc.l2, here y → y.way ∈ s.l2Ways die → ∀ k m, ClassIs s die x.line k → ClassIs s die y.line m →
          k ≤ m ∧ (k = m → way ≤ y.way)) ∧
      { t with unc := { t.unc with l2 := s.unc.l2, banks := s.unc.banks, forced := s.unc.forced } } = s)) ∧
  (∀ (s : State) (die stack bank : Nat), die < 4 → stack < 2 → bank < 1024 →
    let b := s.bankAt die stack bank
    let same := fun (t : State) => ∀ d k n, (d, k, n) ≠ (die, stack, bank) → t.bankAt d k n = s.bankAt d k n
    (∀ idle, ∃ t, exec (.refreshDue die stack bank idle) s = .next t ∧ same t ∧ { t with unc := { t.unc with banks := s.unc.banks } } = s ∧
      (t.bankAt die stack bank).owed = (if idle then b.owed else b.owed + 1) ∧
      (t.bankAt die stack bank).row = if idle then none else b.row) ∧
    (b.owed = 0 → exec (.owedRefresh die stack bank) s = .next s) ∧
    (0 < b.owed → ∃ t, exec (.owedRefresh die stack bank) s = .next t ∧ same t ∧ { t with unc := { t.unc with banks := s.unc.banks } } = s ∧
      (t.bankAt die stack bank).owed = b.owed - 1 ∧ (t.bankAt die stack bank).row = none)) ∧
  (∀ (s : State) (r : AluRequest), (r.ety ∈ [.i32, .i64, .n32, .n64] ∧ r.op ≤ 6) ∨ (r.ety ∈ [.fp32, .fp64] ∧ r.op ∈ [0, 1, 5, 6]) →
    r.bytes = r.ety.fixedBits / 8 → r.pa % r.bytes = 0 → s.MemOk → PlainHbm s r.pa r.bytes →
    (r.pa / 32 ∈ s.poison → exec (.sliceAluRequest r) s = .next s) ∧
    ((∀ k < r.bytes, (r.pa + k) / 32 ∉ s.poison) → ∃ t, exec (.sliceAluRequest r) s = .next t ∧
      PlacesWritten s t 1 r.bytes (fun _ => true) (fun _ => r.pa) fun _ x => aluOp r.op r.ety 0 x (r.operand.toNat % 2 ^ (8 * r.bytes)))) ∧
  (∀ (s : State) (die home : Nat),
    ((∀ e ∈ s.sync.flying, ¬ (e.1 = die ∧ e.2.1 = home)) → exec (.syncMirrorUpdate die home) s = .next s) ∧
    ∀ before e after, s.sync.flying = before ++ e :: after → e.1 = die → e.2.1 = home → (∀ x ∈ before, ¬ (x.1 = die ∧ x.2.1 = home)) →
      ∃ t, exec (.syncMirrorUpdate die home) s = .next t ∧ t.sync.flying = before ++ after ∧
        (∀ k d n, n < 512 → k ≠ d → t.syncSeen k d n = if k = die ∧ d * 512 + n = e.2.2.1 then e.2.2.2 else s.syncSeen k d n) ∧
        { t with sync := { t.sync with flying := s.sync.flying, mirror := s.sync.mirror } } = s) ∧
  (∀ (s : State) (die src core : Nat) (before after : List RingPost) (q : RingPost), s.sync.ring = before ++ q :: after → q.die = die →
    q.src = src → core ∈ q.left → (∀ x ∈ before, ¬ (x.die = die ∧ x.src = src ∧ core ∈ x.left)) →
    ∃ t, exec (.postRingArrival die src core) s = .next t ∧
      (∀ k tag, t.postGet k tag = if k = 56 * die + core ∧ tag = q.tag then
        (if q.set ∨ (s.postGet k tag).toNat ≤ q.value.toNat then q.value else s.postGet k tag) else s.postGet k tag) ∧
      t.sync.ring = (before ++ { q with left := q.left.erase core } :: after).filter (fun x => x.left ≠ []) ∧
      { t with sync := { t.sync with post := s.sync.post, ring := s.sync.ring } } = s) ∧
  (∀ (s : State) (core slot : Nat) (c : CopyCmd), InSlot s core slot c →
    (∀ (ps pd : Nat), c.fn = 0 → c.held = false → c.stopping = false → c.aw = none → c.pos = 0 → c.olds = [] → 0 < c.b0.toNat →
      c.dst.toNat % 4096 + c.b0.toNat ≤ 4096 → c.src.toNat + c.b0.toNat ≤ 2 ^ 64 → s.MemOk →
      (c.src.toNat + c.b0.toNat ≤ c.dst.toNat ∨ c.dst.toNat + c.b0.toNat ≤ c.src.toNat) →
      (ps + c.b0.toNat ≤ pd ∨ pd + c.b0.toNat ≤ ps) →
      EngineSees s c.core c.ctx c.src c.b0.toNat .read ps → EngineSees s c.core c.ctx c.dst c.b0.toNat .write pd →
      ∃ t, exec (.copyChunkDelivery core slot) s = .next t ∧ t.copies = withoutCopy s c ∧
        BytesWritten s t pd (memBytes s.mem ps c.b0.toNat)) ∧
    (∀ va a, c.fn = 3 → c.held = false → c.stopping = false → c.aw = some va → (∀ x ∈ s.copies, ¬ (x.owner = c.owner ∧ x.seq < c.seq)) →
      s.MemOk → EngineSees s c.core c.ctx va 16 .write a → c.b0.toNat < 2 ^ 40 →
      ∃ t, exec (.cpqDelivery core slot) s = .next t ∧ t.copies = withoutCopy s c ∧
        BytesWritten s t a (leBytes 16 (awAdded c.b0.toNat (leNat (memBytes s.mem a 16))))) ∧
    (c.held = true ∨ c.stopping = true → c.aw = none → c.owner = s.th.bind.place → c.owner < 4096 → s.th.life.inSlot = true →
      exec (.copyAbandon core slot) s = .next { s.onLn fun l => { l with cpErr := true } with copies := withoutCopy s c }) ∧
    (c.held = true → ∃ t, exec (.copyPageMapped core slot) s = .next t ∧
      t.copies = s.copies.map (fun x => if x.owner = c.owner ∧ x.seq = c.seq then { x with held := false } else x) ∧ t.th = s.th ∧
      ((∀ va, s.missingPte (s.walkerOf c.ctx) va = none) → t.mem = s.mem))) ∧
  (∀ (s : State) (die stack : Nat), die < 4 → stack < 2 →
    let n := s.dev.patrol.getD (2 * die + stack) 0
    let line := die * 2 ^ 38 + (n / 16 * 32 + stack * 16 + n % 16) * 256
    let on := { s with dev := { s.dev with patrol := s.dev.patrol.modify (2 * die + stack) fun k => (k + 1) % 2 ^ 28 } }
    let owed := (s.bankAt (line / 2 ^ 38 % 4) (line % 2 ^ 38 / 2 ^ 12 % 2) (line % 2 ^ 38 / 2 ^ 13 % 1024)).owed
    (0 < owed → ∀ bad, exec (.patrolScrub die stack bad) s = .next s) ∧
    (owed = 0 → (∃ t, exec (.patrolScrub die stack false) s = .next t ∧ Scrubbed s t false ∧
        { t with tele := s.tele, freeCount := s.freeCount } = on) ∧
      ∃ t g, exec (.patrolScrub die stack true) s = .next t ∧ Scrubbed s t true ∧ line / 32 ≤ g ∧ g < line / 32 + 8 ∧ g ∈ t.poison ∧
        (∀ x, x ≠ g → (x ∈ t.poison ↔ x ∈ s.poison)) ∧ { t with poison := s.poison, tele := s.tele, freeCount := s.freeCount } = on)) ∧
  ∀ (s : State) (die slice : Nat) (bad : Bool), die < 4 → slice < 56 → ∃ t, exec (.sharedStoreScrub die slice bad) s = .next t ∧
    Scrubbed s t bad ∧ t.dev.scrub = s.dev.scrub.modify (56 * die + slice) (fun k => (k + 1) % 49152) ∧ (bad = false → t.poison = s.poison) ∧
    (∀ x ∈ s.poison, x ∈ t.poison) ∧ { t with poison := s.poison, tele := s.tele, freeCount := s.freeCount, dev := { t.dev with scrub := s.dev.scrub } } = s

/-- Events of the fabric: arrival, start notice, go, apply, release, final whistle and Skew of a context's whistle; remote writes, reads and
translations at the package they reach, and their answers; streams in the order of their flits, aborts, and a torus port that goes down (11
R310, R311, R313 to R318, R322, R325, R326, R329 to R333, R342, R345, R346). The payload of a message is laid out by the model (log 8). Its
readings besides: every thread that stands at the whistle takes Skew, a stepq going back to its word (log 45); a translation that a vldr asked
for was checked for reading only (log 47); an apply takes the writes of its launch's threads, and an invalidation travels the whistle tree
(log 69). -/
def Obligations.FabricEvents : Prop :=
  (∀ (s : State) (p : Nat) (e : VEntry), s.th.isAt p = true → s.th.life = .running → OneEntry s e → StepReady s e →
    let queued := e.w.key ≠ 0 ∧ e.w.key ≠ 32
    let no := ((s.whistles.find? fun x => x.ctx = s.th.bind.ctx).map (·.stepNo)).getD 0
    ∃ t, exec (.stepArrival p) s = .next t ∧ t.mem = s.mem ∧ t.th.ln = s.th.ln ∧ t.th.fr.spc = s.th.fr.spc ∧
      t.th.st = { s.th.st with open_ := s.th.st.open_ + 1, unc := false } ∧
      t.th.fab = { s.th.fab with
        arrived := true, queued := queued, released := false, stepAddr := e.addr,
        stepTimeout := if e.x0 = 0 then 10000000 else e.x0.toNat, stepAt := if e.w.key = 32 then e.sb.toNat else 0,
        arrivedAt := s.gtime.toNat, stepstat := if queued then s.th.fab.stepstat ||| 4 else s.th.fab.stepstat } ∧
      (¬ queued → t.th.fr.s = s.th.fr.s ∧ ∃ x, t.th.fr.viq = [x] ∧ x.seq = e.seq ∧ x.w = e.w ∧ x.complete = false) ∧
      (queued → t.th.fr.viq = [] ∧ (∃ x, t.th.fr.stepq = some x ∧ x.seq = e.seq ∧ x.w = e.w) ∧
        t.th.fr.s = if e.w.vd = 0 then s.th.fr.s else vecSet s.th.fr.s e.w.vd.toNat (word (no % 65536 + 1)))) ∧
  (∀ (s : State) (w : VWord) (t : State), s.th.life = .running → s.th.isAt s.th.bind.place = true → (Instr.step w).wellFormed = true →
    Ready s 0x73 w → MayArrive s w → s.th.fab.queued = false → s.th.st.unacked = [] → exec (.step w) s = .next t →
    ∃ a, exec (.step w) (lagging s) = .next a ∧ a.th.fab = s.th.fab ∧ exec (.stepArrival s.th.bind.place) a = .next (lagging t)) ∧
  (∀ (s : State) (ctx : Nat),
    let w := s.whistleOf ctx
    let ms := s.membersOf ctx
    let found := fun p => ms.find? fun t => decide (t.bind.place = p) && waits t
    (∀ p, found p = none → exec (.whistleArrivalCounted ctx (.member p)) s = .next (ownArrival s ctx)) ∧
    (∀ p x, found p = some x → w.skewed = false → p ∈ w.counted → exec (.whistleArrivalCounted ctx (.member p)) s = .next s) ∧
    (∀ p x, found p = some x → w.skewed = false → p ∉ w.counted →
      let v := withWhistle s { w with
        launch := some x.bind.launch, counted := p :: w.counted, timeout := sooner w.timeout x.fab.stepTimeout,
        firstAt := some (w.firstAt.getD s.gtime.toNat), applyAt := max w.applyAt x.fab.stepAt }
      exec (.whistleArrivalCounted ctx (.member p)) s = .next (ownArrival (if w.counted = [] then noticed true v ctx x.fab.stepTimeout else v) ctx)) ∧
    (∀ r k ov cf at_, exec (.whistleArrivalCounted ctx (.child r k ov cf at_)) s = .next (if w.skewed = true ∨ r ∈ w.children then s else
      ownArrival (withWhistle s { w with
        children := r :: w.children, overflow := w.overflow ++ ov, conflict := w.conflict ++ cf, timeout := sooner w.timeout k,
        firstAt := some (w.firstAt.getD s.gtime.toNat), applyAt := max w.applyAt at_ }) ctx)) ∧
    (∀ k, exec (.startNotice ctx k) s = .next (noticed false s ctx k)) ∧
    (∀ m, (w.go = true ∨ w.skewed = true ∨ ¬ AllIn s ctx → exec (.whistleGo ctx m) s = .next s) ∧
      (w.go = false → w.skewed = false → AllIn s ctx →
        let goes := fun status rank handle nwin at_ => toChildren (withWhistle s { w with
          go := true, applyAt := at_, status := status, rank := rank, handle := handle, nwin := nwin }) [ctx, 2, status, rank, handle, nwin, at_]
        (s.dev.parent ≠ none → exec (.whistleGo ctx m) s = .next (goes m.status m.rank m.handle m.nwin (max w.applyAt m.applyAt))) ∧
        (s.dev.parent = none →
          let full := marked s ctx (·.overflowed) w.overflow
          let clash := marked s ctx (·.conflicted) w.conflict
          let rs := if full ≠ [] then full else clash
          ∃ x, Lowest rs x ∧ exec (.whistleGo ctx m) s =
            .next (goes (if full ≠ [] then 1 else if clash ≠ [] then 2 else 0) x.1 x.2 (min 255 rs.length) w.applyAt)))) ∧
    (w.go = false ∨ w.applied = true ∨ s.gtime.toNat < w.applyAt → exec (.whistleApply ctx) s = .next s) ∧
    (w.go = true → w.applied = false → w.applyAt ≤ s.gtime.toNat → w.waiting = [] → ∀ m ty e1 e2 pa, s.MemOk → TwoWrites s ctx m ty e1 e2 pa →
      w.launch = none ∨ (w.launch = some e1.launch ∧ w.launch = some e2.launch) →
      ∃ u, exec (.whistleApply ctx) s = .next (withWhistle u { w with applied := true, flags := 0 }) ∧ AppliedTwo s u m ty e1 e2 pa) ∧
    (w.applied = false → exec (.whistleRelease ctx) s = .next s) ∧
    (w.applied = true → Alone s → s.th.bind.ctx = ctx → s.th.life = .running → s.th.fr.regs.trccfg.getLsbD 1 = false → waits s.th = true →
      w.launch = none ∨ w.launch = some s.th.bind.launch →
      let raised := fun f : Flags => if w.flags &&& f ≠ 0 then 1 else 0
      let after := s.onFab fun f => { f with
        stepstat := word ((w.stepNo + 1) % 65536 * 2 ^ 48 + w.rank * 2 ^ 32 + w.handle * 2 ^ 24 + w.nwin * 2 ^ 16 + raised fNV * 1024 +
          raised fOF * 512 + raised fNX * 256 + w.status)
        overflow := false, conflict := false, arrived := !f.queued, queued := false, released := !f.queued }
      let cnt := vecSet s.th.cnt 33 (vecGet s.th.cnt 33 0 + word (s.gtime.toNat - s.th.fab.arrivedAt))
      ∃ gen up fw, exec (.whistleRelease ctx) s = .next (withWhistle { (after.onRegs fun r => { r with fverGen := gen, fverUp := up }).onTh fun t =>
        { t with cnt := if t.fr.stepq.isSome then vecSet cnt 39 (vecGet cnt 39 0 + 1) else cnt, fr := { t.fr with stepq := none } } with
          freeCount := s.freeCount + 1, dev := { s.dev with fwUp := fw } }
        { Whistle.fresh ctx with stepNo := w.stepNo + 1 })) ∧
    (∀ m ty e1 e2 pa, s.MemOk → TwoWrites s ctx m ty e1 e2 pa →
      (∀ e ∈ [e1, e2], ∀ t ∈ s.th :: s.others ++ s.images, t.life.inSlot = true → t.bind.launch ≠ e.launch) →
      ∃ u, AppliedTwo s u m ty e1 e2 pa ∧ exec (.finalWhistle ctx) s =
        .next (if ms = [] then withWhistle u { Whistle.fresh ctx with stepNo := w.stepNo, skewed := w.skewed } else u)) ∧
    (ms ≠ [] → (∀ x ∈ s.windows, x.ctx = ctx → x.freeing = none → x.releasing = false ∧ x.entries ≠ [] ∧
      ∀ e ∈ x.entries, ∃ t ∈ s.th :: s.others ++ s.images, t.life.inSlot = true ∧ t.bind.launch = e.launch) →
      exec (.finalWhistle ctx) s = .next s) ∧
    (w.go = true ∨ w.skewed = true ∨ (s.dev.parent = none ∧ (w.firstAt = none ∨ AllIn s ctx)) → exec (.skew ctx) s = .next s) ∧
    (∀ f, w.firstAt = some f → s.dev.parent = none → s.gtime.toNat < f + w.timeout → exec (.skew ctx) s = .next s) ∧
    (w.go = false → w.skewed = false →
      s.dev.parent ≠ none ∨ ((∃ f, w.firstAt = some f ∧ f + w.timeout ≤ s.gtime.toNat) ∧ ¬ AllIn s ctx) →
      let cleared := { s with windows := s.windows.map fun x =>
        if x.ctx = ctx then { x with entries := [], overflowed := false, conflicted := false } else x }
      let u := toChildren (withWhistle cleared { w with skewed := true }) [ctx, 3]
      ((∀ t ∈ ms, waits t = false) → exec (.skew ctx) s = .next u) ∧
      (Alone s → s.th.life = .running → s.th.bind.ctx = ctx → waits s.th = true → w.launch = none ∨ w.launch = some s.th.bind.launch →
        s.th.fr.viq = [] → s.th.fr.storeQ = [] →
        let v := u.onFab fun f => { f with arrived := false, queued := false, stepstat := f.stepstat &&& ~~~4 }
        let skews := fun (x : State) => x.takeException .skew noIndex s.th.fab.stepAddr s.th.fab.stepAddr 0 false
        (s.th.fr.stepq = none → exec (.skew ctx) s = .next (skews v)) ∧
        ∀ q, s.th.fr.stepq = some q → exec (.skew ctx) s = .next (skews (((v.unwind q.seq []).onFr fun f => { f with stepq := none }).onRegs
          fun r => { r with zc := q.zcs.getD r.zc }))))) ∧
  (∀ (s : State) (f : RemoteWrite),
    let w := s.whistleOf f.ctx
    let own := s.windows.filter fun x => decide (x.ctx = f.ctx) && x.freeing.isNone
    let ack := fun (t : State) (a b : Nat) => sentTo t 1 f.rank 17 (doubles [f.ctx, f.handle, f.place, a, b])
    (w.go = true → w.applied = false →
      exec (.deferredWrite f) s = .next (withWhistle s { w with waiting := w.waiting ++ [.write f] })) ∧
    (w.go = false ∨ w.applied = true → ((∀ x ∈ own, x.handle ≠ f.handle) → exec (.deferredWrite f) s = .next (ack s 2 0)) ∧
      ∀ m, own.find? (fun x => x.handle = f.handle) = some m →
      (m.elemBytes ≠ f.bytes ∨ m.len ≤ f.elem * f.bytes → exec (.deferredWrite f) s = .next (ack s 2 0)) ∧
      (m.elemBytes = f.bytes → f.elem * f.bytes < m.len → (∃ x ∈ s.whistles, x.ctx = m.ctx ∧ x.skewed = true) →
        exec (.deferredWrite f) s = .next (ack s 0 0)) ∧
      (m.elemBytes = f.bytes → f.elem * f.bytes < m.len → (∀ x ∈ s.whistles, x.ctx = m.ctx → x.skewed = false) →
        let e := { elem := f.elem, data := f.data, source := (f.rank, f.place), launch := launchNo s f.ctx f.launch, order := f.order }
        let full := m.cap ≤ m.entries.length
        let clash := ¬ full ∧ m.rule = 6 ∧ ∃ x ∈ m.entries, x.elem = e.elem ∧ x.source ≠ e.source
        exec (.deferredWrite f) s = .next (ack { s with
          windows := s.windows.map fun x => if x.ctx = f.ctx ∧ x.handle = f.handle then entered m e else x }
          (if full then 1 else 0) (if clash then 1 else 0))))) ∧
  (∀ (s : State) (f : RemoteRead),
    let w := s.whistleOf f.ctx
    let own := s.windows.filter fun x => decide (x.ctx = f.ctx) && x.freeing.isNone
    let answer := fun bs => sentTo s 3 f.rank 17 (doubles [f.ctx, f.handle, f.offset] ++ bs)
    let refuse := fun (c : Byte) => answer (List.replicate f.bytes 0 ++ [c])
    let walked := fun (t : State) a key => sentTo t 5 f.rank 17 (doubles [f.ctx, f.handle, f.offset / 65536, a, key, bit f.store])
    let acc : Access := if f.store then .write else .read
    (w.go = true → w.applied = false → exec (.readRequest f) s = .next (withWhistle s { w with waiting := w.waiting ++ [.read f] })) ∧
    (w.go = false ∨ w.applied = true → (∀ x ∈ own, x.handle ≠ f.handle) → exec (.readRequest f) s = .next (refuse 255)) ∧
    ((∀ x ∈ own, x.handle ≠ f.handle) ∨ (∀ t ∈ s.th :: s.others ++ s.images, ¬ (t.bind.ctx = f.ctx ∧ t.life.inSlot = true)) →
      exec (.translationRequest f) s = .next (walked s (2 ^ 44) 0)) ∧
    ∀ m, own.find? (fun x => x.handle = f.handle) = some m →
      (w.go = false ∨ w.applied = true → ∀ pa, m.pages[f.offset / 65536]? = some pa → pa < 2 ^ 40 → pa % 2 ^ 38 < 2 ^ 37 → s.unc.fmtWins = [] →
        let a := pa + f.offset % 65536
        (m.len < f.offset + f.bytes → exec (.readRequest f) s = .next (refuse 4)) ∧
        (f.offset + f.bytes ≤ m.len → a / 32 ∈ s.poison → exec (.readRequest f) s = .next (refuse 6)) ∧
        (f.offset + f.bytes ≤ m.len → a / 32 ∉ s.poison → s.keyed (s.windowKey (s.walkerOf f.ctx) f.handle f.offset) a f.bytes = s →
          ∃ t, exec (.readRequest f) s = .next t ∧ t.onUnc (cold s) = answer (memBytes s.mem a f.bytes))) ∧
      ((∃ t ∈ s.th :: s.others ++ s.images, t.bind.ctx = f.ctx ∧ t.life.inSlot = true) →
        (m.len ≤ f.offset → exec (.translationRequest f) s = .next (walked s (2 ^ 44) 0)) ∧
        ∀ p, f.offset < m.len → s.walk (s.walkerOf f.ctx) (m.base + word (f.offset / 65536 * 65536)) = .ok p →
          (p.kind = 3 → s.leafOk (s.walkerOf f.ctx) p acc = true → exec (.translationRequest f) s =
            .next (walked (s.markPte p acc) (m.pages.getD (f.offset / 65536) 0 + m.elemBytes) p.key)) ∧
          (p.kind ≠ 3 ∨ s.leafOk (s.walkerOf f.ctx) p acc = false → exec (.translationRequest f) s = .next (walked s (2 ^ 44) 0)))) ∧
  (∀ (s : State) (p : Nat), s.th.isAt p = true →
    (∀ k rank x held ov cf, s.th.fab.sent[k]? = some (rank, x, held) →
      exec (.writeAcknowledgement p k ⟨ov, cf, false⟩) s = .next ((withMarks s x.ctx (rank, x.handle) ov cf).onFab fun f =>
        { f with sent := f.sent.eraseIdx k, overflow := f.overflow || ov, conflict := f.conflict || cf }) ∧
      let page := x.elem * x.bytes / 65536
      exec (.writeAcknowledgement p k ⟨ov, cf, true⟩) s = .next (sentTo { (s.onFab fun f => { f with sent := f.sent.set k (rank, x, true) }).onTh fun t =>
          { t with cnt := vecSet (vecSet t.cnt 36 (vecGet t.cnt 36 0 + 1)) 35 (vecGet t.cnt 35 0 + 1) } with
        unc := { s.unc with rtrans := s.unc.rtrans.filter fun y => ¬ (y.1 = s.th.bind.die ∧ y.2.2.ctx = s.th.bind.ctx ∧ y.2.2.rank = rank ∧
          y.2.2.handle = x.handle ∧ y.2.2.page = page) } } 4 rank 16 (doubles [s.th.bind.ctx, x.handle, page, 1, s.dev.rank]))) ∧
    (∀ k data, (2 ^ 40, []) ∈ s.th.fab.remoteData → k < 2 ^ 16 → data.getLast? ≠ some 255 → exec (.readData p k data) s = .next (s.onFab fun f =>
      { f with remoteData := (k, data.map (BitVec.ofNat 8)) :: f.remoteData.filter fun x => x.1 ≠ k })) ∧
    (∀ k data, (2 ^ 40, []) ∉ s.th.fab.remoteData → k < 2 ^ 16 → data.getLast? ≠ some 255 → exec (.readData p k data) s = .next s) ∧
    (∀ k data e es, (2 ^ 40, []) ∉ s.th.fab.remoteData → k < 2 ^ 16 → s.th.fr.viq = e :: es → e.slot = .word → e.op = 0x71 →
      data.length = (s.view e).b / 8 + 1 → data.getLast? = some 255 →
      exec (.readData p k data) s = .next (s.onTh fun t => { t with cnt := vecSet t.cnt 36 (vecGet t.cnt 36 0 + 1) }))) ∧
  (∀ (s : State) (ctx bytes : Nat) (h : StreamHead) (data : List Nat), s.unc.asks = [] → let m := h.msg ctx 0 data
    (∀ next, gateIs s m.src m.comm next [] → next ≠ m.seq % 65536 →
      exec (.streamData ctx h data) s = .next (withGate s m.src m.comm next [(m.seq % 65536, some m)])) ∧
    ∀ early, gateIs s m.src m.comm (m.seq % 65536) early → let on := (m.seq % 65536 + 1) % 65536
      (early = [] →
        let s1 := withGate s m.src m.comm on []
        let asked : State := { s1 with unc := { s1.unc with asks := [h.msg ctx bytes []] } }
        ((∀ t ∈ s.th :: s.others ++ s.images, s.isMember m.ctx m.comm m.receiver t = false) →
          exec (.streamData ctx h data) s = .next s1 ∧ exec (.reservationRequest ctx h bytes) s = .next asked) ∧
        ∀ k, Receives s m k → let r := streamOf s k
          (m.data.length ≤ r.granted → exec (.streamData ctx h data) s = .next (withStream s1 k (received r m.data))) ∧
          (r.granted < m.data.length → exec (.streamData ctx h data) s = .next s1) ∧
          (16384 - r.rx.length - r.granted < bytes → exec (.reservationRequest ctx h bytes) s = .next asked) ∧
          (bytes ≤ 16384 - r.rx.length - r.granted → ∀ home, s.memberHome s.th.bind.ctx m.comm m.sender = some home →
            exec (.reservationRequest ctx h bytes) s = .next (sentTo (withStream s1 k { r with granted := r.granted + bytes })
              10 (s.homeRank home) 17 (doubles [m.ctx, m.comm, m.sender, m.receiver, bytes])))) ∧
      ∀ m2 k, early = [(on, some m2)] → (m2.ctx, m2.comm, m2.sender, m2.receiver) = (m.ctx, m.comm, m.sender, m.receiver) → Receives s m k →
        m.data.length + m2.data.length ≤ (streamOf s k).granted → exec (.streamData ctx h data) s =
          .next (withStream (withGate s m.src m.comm ((on + 1) % 65536) []) k (received (received (streamOf s k) m.data) m2.data))) ∧
  (∀ (s : State) (ctx : Nat) (m : StreamHead) (k : Nat), s.isMember ctx m.comm m.sender s.th = true → k < 8 → s.memberHere ctx m.comm m.receiver = false →
    let sends := fun (j : Nat) => let x := streamOf s j
      x.bound = true ∧ x.send = true ∧ x.lost = false ∧ x.comm = m.comm ∧ s.peerOf x = some m.receiver
    (sends k → (∀ j < k, ¬ sends j) → exec (.reservationGrant ctx m) s =
      .next (withStream s k { streamOf s k with stage := (streamOf s k).stage.map fun c => { c with admitted := true } })) ∧
    ((∀ j < 8, ¬ sends j) → exec (.reservationGrant ctx m) s = .next s)) ∧
  (∀ (s : State) (die : Nat),
    let ready := fun (x : Stream) => x.bound = true ∧ x.send = true ∧ x.lost = false ∧
      ∃ c cs, x.stage = c :: cs ∧ c.admitted = true ∧ c.bytes.length = c.size
    ((∀ t ∈ s.th :: s.others, t.bind.die = die → t.life = .running → ∀ n < 8, ¬ ready (vecGet t.fab.fs n .reset)) →
      exec (.streamChunkTransmit die) s = .next s) ∧
    (Alone s → s.th.bind.die = die → s.th.life = .running → s.th.isAt s.th.bind.place = true →
      ∀ n c cs me peer h, n < 8 → ready (streamOf s n) → (∀ k < 8, k ≠ n → ¬ ready (streamOf s k)) → (streamOf s n).stage = c :: cs →
        let num := (streamOf s n).comm
        let ctx := s.th.bind.ctx
        s.memberIndex num = some me → s.peerOf (streamOf s n) = some peer → s.memberHere ctx num peer = false → s.memberHome ctx num peer = some h →
        let t := sentTo (withStream s n { streamOf s n with stage := cs }) 8 (s.homeRank h) num (doubles [ctx, num, me, peer] ++ c.bytes)
        exec (.streamChunkTransmit die) s = .next { t with unc := { t.unc with
          served := (s.unc.served.filter fun z => z ≠ (die, ctx, num)) ++ [(die, ctx, num)] } })) ∧
  (∀ (s : State) (die : Nat) (e : RemoteTrans),
    let same := fun (x : RemoteTrans) => (x.ctx, x.rank, x.handle, x.page) = (e.ctx, e.rank, e.handle, e.page)
    let used := fun (k : Nat) => ∃ x ∈ s.unc.rtrans, x.1 = die ∧ x.2.1 = k
    let marks := fun (t : State) => t.th.fab.remoteData = s.th.fab.remoteData.filter fun x => x ≠ (2 ^ 40 + (e.page + 1), [])
    ((∀ t ∈ s.th :: s.others ++ s.images, ∀ x ∈ t.fab.sent, x.2.2 = false) → ∃ t way, exec (.translationResponse die e) s = .next t ∧
      ((∃ x ∈ s.unc.rtrans, x.1 = die ∧ x.2.1 = way ∧ same x.2.2) ∨ ((∀ x ∈ s.unc.rtrans, x.1 = die → ¬ same x.2.2) ∧
        ((way < 256 ∧ ¬ used way ∧ ∀ k < way, used k) ∨ ∀ k < 256, used k))) ∧
      (∀ x, x ∈ t.unc.rtrans ↔ x = (die, way, e) ∨ (x ∈ s.unc.rtrans ∧ ¬ (x.1 = die ∧ x.2.1 = way))) ∧
      (s.th.bind.die = die → s.th.bind.ctx = e.ctx → marks t) ∧ { t.unc with rtrans := s.unc.rtrans, rr := s.unc.rr } = s.unc ∧
      { t with unc := s.unc, th := s.th, others := s.others, images := s.images } = s) ∧
    (∀ x : RemoteWrite, Alone s → s.th.bind.die = die → s.th.bind.ctx = e.ctx → s.th.life = .running → s.th.isAt s.th.bind.place = true →
      s.th.fab.sent = [(e.rank, x, true)] → x.handle = e.handle → x.elem * x.bytes / 65536 = e.page →
      ∃ u, { u with unc := s.unc, th := s.th } = s ∧ { u.th with fab := s.th.fab } = s.th ∧ marks u ∧ { u.th.fab with remoteData := s.th.fab.remoteData } = s.th.fab ∧
        { u.unc with rtrans := s.unc.rtrans, rr := s.unc.rr } = s.unc ∧
        (e.pa < 2 ^ 44 → exec (.translationResponse die e) s = .next (sentTo (u.onFab fun f => { f with sent := [(e.rank, x, false)] }) 0 e.rank 16
          (doubles [x.ctx, x.handle, x.elem, x.bytes, x.data.toNat, x.rank, x.place, x.launch, x.order]))) ∧
        (2 ^ 44 ≤ e.pa → s.older = [] → exec (.translationResponse die e) s =
          .next (u.takeException (if e.pa % 2 = 0 then .pageFault else .machineCheck) noIndex s.th.fr.spc s.th.fr.spc 0 false)))) ∧
  ∀ (s : State),
    (∀ ctx rank h,
      let u : State := { s with
        unc := { s.unc with rtrans := s.unc.rtrans.filter fun x => ¬ (x.2.2.ctx = ctx ∧ x.2.2.rank = rank ∧ x.2.2.handle = h) } }
      let on := s.dev.treeNeighbours.erase (s.dev.treeHop rank)
      (on = [] → exec (.invalidation ctx rank h) s = .next (acked u ctx rank h)) ∧
      (on ≠ [] → exec (.invalidation ctx rank h) s = .next (on.foldl (fun t r => sentTo t 6 r 18 (doubles [ctx, h, rank]))
        { u with unc := { u.unc with
          relays := { ctx := ctx, target := rank, handle := h, waiting := on } :: s.unc.relays.filter fun r => !relays ctx rank h r } }))) ∧
    (∀ ctx h rank, let named := fun (x : Window) => x.ctx = ctx ∧ x.handle = h
      ((∀ x ∈ s.windows, ¬ (named x ∧ x.freeing ≠ none)) → exec (.invalidationAcknowledgement ctx ⟨s.dev.rank, h, rank⟩) s = .next s) ∧
      ∀ before x after rs, s.windows = before ++ x :: after → (∀ y ∈ before ++ after, ¬ named y) → named x → x.freeing = some rs →
        exec (.invalidationAcknowledgement ctx ⟨s.dev.rank, h, rank⟩) s = .next { s with
          windows := before ++ (if rs.erase rank = [] then [] else [{ x with freeing := some (rs.erase rank) }]) ++ after }) ∧
    (∀ ctx target h rank, target ≠ s.dev.rank →
      let others := s.unc.relays.filter fun r => !relays ctx target h r
      (s.unc.relays.find? (relays ctx target h) = none → exec (.invalidationAcknowledgement ctx ⟨target, h, rank⟩) s = .next s) ∧
      ∀ r, s.unc.relays.find? (relays ctx target h) = some r →
        (r.waiting.erase rank = [] → exec (.invalidationAcknowledgement ctx ⟨target, h, rank⟩) s =
          .next (acked { s with unc := { s.unc with relays := others } } ctx target h)) ∧
        (r.waiting.erase rank ≠ [] → exec (.invalidationAcknowledgement ctx ⟨target, h, rank⟩) s =
          .next { s with unc := { s.unc with relays := { r with waiting := r.waiting.erase rank } :: others } })) ∧
    (∀ ctx n join, n < 16 → let hits := fun c => s.sameComm n c ctx || (join ≠ 0 && s.joinOf n c = join)
      ∃ t, exec (.abort ctx (n + 16 * join)) s = .next t ∧
      (hits s.th.bind.ctx = true → ∀ k < 8, streamOf t k = if (streamOf s k).bound = true ∧ (streamOf s k).comm = n then
        { streamOf s k with lost := true, granted := 0, stage := [] } else streamOf s k) ∧
      (hits s.th.bind.ctx = false → t.th = s.th) ∧
      (∀ c ∈ t.ctxs, hits c.id = true → ∀ y ∈ c.comms, y.number = n → y.aborted = true) ∧
      (∀ m, m ∈ t.unc.asks ↔ m ∈ s.unc.asks ∧ ¬ (m.comm = n ∧ hits m.ctx = true)) ∧
      { t with th := s.th, others := s.others, images := s.images, ctxs := s.ctxs, unc := { t.unc with asks := s.unc.asks } } = s) ∧
    ∀ rank port, (6 ≤ port ∨ s.dev.packages ≤ rank ∨ (rank, port) ∈ s.dev.portsDown → exec (.torusPortDown ⟨rank, port⟩) s = .next s) ∧
      (port < 6 → rank < s.dev.packages → (rank, port) ∉ s.dev.portsDown →
        let ends := [(rank, port), (s.dev.neighbour rank port, if port % 2 = 0 then port + 1 else port - 1)].eraseDups
        (∀ c ∈ s.ctxs, ∀ a ∈ s.ctxRanks c.id, ∀ b ∈ s.ctxRanks c.id, ∀ x ∈ s.dev.route a b, x ∉ ends) →
        exec (.torusPortDown ⟨rank, port⟩) s = .next { s with
          dev := { s.dev with portsDown := ends ++ s.dev.portsDown }
          out := s.out ++ (ends.filter fun x => x.1 = s.dev.rank).map fun x => .i3c 2 [x.2] })

/-- The launch queue: the doorbell, entries taken, CREATE, LOAD, UNLOAD, LAUNCH and KILL with the records they write, binding, dispatch, starts and
completions, with what other packages report (13 R381 to R387, R392 to R402, R438; 14 R407, R413, R415). A refusal for which several reasons hold may carry the code of any (log 5), the reasons
are those of `createCodes` and `launchCodes` (log 15), and Eloaler's choices come with the events or are free values (log 35). The model's
choices besides: how an object is loaded and which pages are its own (log 48), what a KILL frees and in which order (log 25), which status
stands of several (log 21), what a DEADLINE of a launch that never started reports (log 61), which places a gang may take in a pod (log 62),
and which other packages a context is on (log 79). -/
def Obligations.LaunchEvents : Prop :=
  (∀ (s : State) (v : BitVec 32), let far := (v - s.hub.taken).toNat
    (4096 < far ∨ far < (s.hub.avail - s.hub.taken).toNat →
      exec (.doorbellWrite v) s = .next { s with hub := { s.hub with doorErrors := s.hub.doorErrors + 1 } }) ∧
    (far ≤ 4096 → (s.hub.avail - s.hub.taken).toNat ≤ far → exec (.doorbellWrite v) s = .next { s with hub := { s.hub with doorbell := v, avail := v } })) ∧
  (∀ (s : State), s.MemOk → let slot := s.hub.taken.toNat % 4096
    let e := memBytes s.mem (queueAt slot) 256
    (s.hub.avail = s.hub.taken ∨ s.dev.step < 7 → exec .entryTake s = .next s) ∧
    (s.hub.avail ≠ s.hub.taken → 7 ≤ s.dev.step →
      ((memGet s.mem (queueAt slot)).toNat ∈ [1, 2, 3, 4, 5] →
        exec .entryTake s = .next { s with hub := { s.hub with taken := s.hub.taken + 1, entries := s.hub.entries ++ [(slot, e)] } }) ∧
      ((memGet s.mem (queueAt slot)).toNat ∉ [1, 2, 3, 4, 5] → ∃ t, exec .entryTake s = .next t ∧
        Finished { s with hub := { s.hub with taken := s.hub.taken + 1 } } t slot e 1 0))) ∧
  (∀ (s : State) (plan : LoadPlan) (i : Instr) (k : Nat),
    (i, k) ∈ [(.launch, 1), (.create, 2), (.load plan, 3), (.unload, 4), (.kill, 5)] →
    (∀ slot e rest, s.hub.entries = (slot, e) :: rest → bytesNat e 0 1 ≠ k) → exec i s = .next s) ∧
  (∀ (s : State) (slot : Nat) (e : List Byte), s.MemOk → let u := entryDone s
    let n := bytesNat e
    (Taken s 2 slot e →
      ((∃ c ∈ s.ctxs, c.id = n 14 2) → ∃ code ∈ [1, 2, 3, 4, 6], ∃ t, exec .create s = .next t ∧
        Finished { u with freeCount := t.freeCount } t slot e code 0) ∧
      (u.createCodes e ≠ [] → ∃ code ∈ u.createCodes e, ∃ t, exec .create s = .next t ∧
        Finished { u with freeCount := t.freeCount } t slot e code 0) ∧
      (u.createCodes e = [] → ∃ t v c, exec .create s = .next t ∧ Finished v t slot e 0 0 ∧ v.ctxs = s.ctxs ++ [c] ∧
        { v with ctxs := s.ctxs, dev := s.dev, sync := s.sync, freeCount := s.freeCount } = u ∧ { v.dev with keys := s.dev.keys } = s.dev ∧
        (∀ k ∈ s.dev.keys, k ∈ v.dev.keys) ∧ (∀ x ∈ c.far, x.1 < s.dev.packages ∧ x.1 ≠ s.dev.rank) ∧ c.id = n 14 2 ∧ c.key = n 16 2 ∧ c.conf = decide (n 1 1 % 2 = 1) ∧
        c.ptroot = n 24 8 ∧ c.swmax = n 2 1 ∧ c.syncN = n 18 2 ∧ c.posts.length = n 20 2 ∧ c.handler = word (n 32 8) ∧ c.stack = word (n 40 8) ∧
        c.stacksz = n 48 8 ∧ c.quota = n 72 8 ∧ c.level = 0 ∧ c.objs = [] ∧ (c.key ≠ 0 → ∃ k, (c.key, k) ∈ v.dev.keys) ∧ c.used = c.images.map (·.2) ∧ c.images.length = 4 ∧
        (∀ k < 4, let x := c.images.getD k (0, 0); x.1 % 4096 = 0 ∧ x.1 / 2 ^ 38 = k ∧ x.1 % 2 ^ 38 + x.2 ≤ 2 ^ 37 ∧ x.2 ≤ n 72 8) ∧
        (∀ die k, c.syncLo ≤ k → k < c.syncLo + c.syncN → k < 512 → v.syncGet die k = 0) ∧ ∀ core, ∀ tag ∈ c.posts, v.postGet core tag = 0)) ∧
    (∀ plan, Taken s 3 slot e →
      ((∀ c ∈ s.ctxs, c.id ≠ n 14 2) → ∃ t, exec (.load plan) s = .next t ∧ Finished u t slot e 2 0) ∧
      ∀ c, ctxIs s (n 14 2) c →
        (n 40 8 % 65536 ≠ 0 ∨ u.ctxBytes c.id (word (n 24 8)) (n 32 8) = none → ∃ t, exec (.load plan) s = .next t ∧ Finished u t slot e 0x0A 0) ∧
        ∀ f, n 40 8 % 65536 = 0 → u.ctxBytes c.id (word (n 24 8)) (n 32 8) = some f →
          (loadCode c plan.die f ≠ 0 → ∃ t, exec (.load plan) s = .next t ∧ Finished u t slot e (loadCode c plan.die f) 0) ∧
          (loadCode c plan.die f = 0 →
            let w := (plan.pages.foldl (fun t p => t.pageUnder c.key p) ((List.range (bytesNat f 8 2)).foldl
              (fun t k => t.placeSection f (fileSection f k) (sectionPages f plan.pages k)) u)).putPtes plan.ptes
            let onPath := fun (a : Nat) => ∃ va ∈ filePageVas f (word (n 40 8)), a ∈ w.walkPath (w.walkerOf c.id) va
            let fits := u.pagesOwn plan = true ∧ (∀ x ∈ plan.ptes, onPath x.1 ∧ u.openEntry x.1 = true) ∧ plan.pages.length = filePages f ∧ (∀ p ∈ plan.pages, p % 65536 = 0 ∧ p / 2 ^ 38 = plan.die ∧ p % 2 ^ 38 < 2 ^ 37) ∧
              plan.die < 4 ∧ ∀ k < bytesNat f 8 2, w.mapsSection c f (word (n 40 8)) plan.pages k = true
            (¬ fits → exec (.load plan) s = .next s) ∧
            (fits → ∃ t v h o, exec (.load plan) s = .next t ∧ Finished v t slot e 0 (word h) ∧ c.freeObj = some h ∧ o.handle = h ∧
              o.retiring = false ∧ o.pages = plan.pages ∧ v = withCtx w c.id (fun x => { x with
                level := bytesNat f 6 1, used := x.used.modify plan.die (· + 65536 * filePages f), objs := x.objs ++ [o]
                mc := if c.conf then sha512 (leBytes 64 c.mc.toNat ++ leBytes 64 (sha512 f).toNat) else c.mc }) ∧
              plan.pages.Nodup ∧ (∀ a ∈ plan.ptes, ∀ p ∈ plan.pages, a.1 + 8 ≤ p ∨ p + 65536 ≤ a.1) ∧ (∀ x ∈ s.windows, ∀ p ∈ plan.pages, p ∉ x.pages) ∧
              (∀ k < bytesNat f 8 2, ∀ i p,
                (sectionPages f plan.pages k)[i]? = some p → ∀ j < 65536,
                  memGet v.mem (p + j) = (sectionBody f (fileSection f k)).getD (65536 * i + j) 0)))) ∧
    (Taken s 4 slot e →
      ((∀ c ∈ s.ctxs, c.id ≠ n 14 2) → ∃ t, exec .unload s = .next t ∧ Finished u t slot e 2 0) ∧
      ∀ c, ctxIs s (n 14 2) c →
        ((∀ o ∈ c.objs, ¬ (o.handle = n 24 8 ∧ o.retiring = false)) → ∃ t, exec .unload s = .next t ∧ Finished u t slot e 7 0) ∧
        ((∃ o ∈ c.objs, o.handle = n 24 8 ∧ o.retiring = false) → exec .unload s = .next (withCtx u c.id fun x => { x with
          objs := x.objs.map fun o => if o.handle = n 24 8 then { o with retiring := true, complete := some (slot, e) } else o }))) ∧
    (s.dev.locked = false → exec .launch s = .next s) ∧
    (Taken s 1 slot e → s.dev.locked = true →
      ((∀ c ∈ s.ctxs, c.id ≠ n 14 2) → ∃ code t, (code = 2 ∨ (code = 1 ∧ launchZero e = false)) ∧ exec .launch s = .next t ∧
        Finished { u with freeCount := t.freeCount } t slot e code (BitVec.allOnes 64)) ∧
      ∀ c, ctxIs s (n 14 2) c →
        let codes := u.launchCodes c e
        (codes ≠ [] → ∃ code ∈ codes, ∃ t, exec .launch s = .next t ∧
          Finished { u with freeCount := t.freeCount } t slot e code (BitVec.allOnes 64)) ∧
        (codes = [] → ∃ l, exec .launch s = .next { u with hub := { u.hub with
            launches := s.hub.launches ++ [l], nextLaunch := s.hub.nextLaunch + 1 } } ∧ l.number = s.hub.nextLaunch ∧ l.entry = e ∧ l.slot = slot ∧
          l.ctx = c.id ∧ l.takenAt = s.gtime.toNat ∧ l.threads = countsTo e (n 1 1) ∧ l.boundTo = 0 ∧ l.binding = none ∧ l.ended = 0 ∧ l.status = 0 ∧
          l.killed = false ∧ l.firstFatal = none)) ∧
    (Taken s 5 slot e →
      ((∀ c ∈ s.ctxs, c.id ≠ n 14 2) → ∃ t, exec .kill s = .next t ∧ Finished u t slot e 2 0) ∧
      ∀ c, ctxIs s (n 14 2) c → (∃ t, exec .kill s = .next t ∧ ∀ x ∈ t.ctxs, x.id ≠ n 14 2) ∧
        (CtxIdle s (n 14 2) c → ∃ t v, exec .kill s = .next t ∧ Finished v t slot e 0 0 ∧ v.ctxs = s.ctxs.filter (fun x => x.id ≠ n 14 2) ∧
          (∀ x ∈ v.unc.tlb, x.ctx ≠ n 14 2) ∧ (∀ x ∈ v.windows, x.ctx = n 14 2 → x.freeing ≠ none) ∧
          (s.windows = [] → v.windows = []) ∧ (∃ h p, (n 14 2, h, p) ∈ v.sync.saved ∧ (∀ x, x ∈ h ↔ x ∈ s.sync.home ∧ c.syncLo ≤ x.1 % 512 ∧
            x.1 % 512 < c.syncLo + c.syncN) ∧ ∀ x, x ∈ p ↔ x ∈ s.sync.post ∧ x.2.1 ∈ c.posts) ∧ v.mem = s.mem ∧ v.th = s.th ∧ v.others = s.others))) ∧
  (∀ (s : State) (ctx h : Nat), s.MemOk →
    let held := (s.ctxs.find? fun c => c.id = ctx).bind fun c => c.objs.find? fun o => decide (o.handle = h) && o.retiring
    (held = none → exec (.unloadComplete ctx h) s = .next s) ∧
    ∀ o, held = some o →
      (s.objInUse ctx o = true → exec (.unloadComplete ctx h) s = .next s) ∧
      (s.objInUse ctx o = false →
        let v := withCtx { s with
            mem := (s.leavesOf ctx o).foldl (fun m a => memPut m a (leBytes 8 0)) s.mem
            unc := { s.unc with tlb := s.unc.tlb.filter fun x => x.ctx ≠ ctx } } ctx fun c => { c with
          objs := c.objs.filter fun x => x.handle ≠ h, used := c.used.modify o.die (· - 65536 * o.pages.length) }
        (o.complete = none → exec (.unloadComplete ctx h) s = .next v) ∧
        ∀ slot e, o.complete = some (slot, e) → ∃ t, exec (.unloadComplete ctx h) s = .next t ∧ Finished v t slot e 0 0)) ∧
  (∀ (s : State) (n : Nat),
    exec (.launchAgeLimit n) s = .next { s with hub := { s.hub with launches := s.hub.launches.map fun l =>
      if l.number = n ∧ l.boundTo = 0 ∧ l.takenAt + 10000000 ≤ s.gtime.toNat then { l with aged := true } else l } } ∧
    ∀ l, (s.hub.launches.find? fun l => l.number = n) = some l → s.MemOk →
      (l.threads ≤ l.boundTo ∨ s.gtime.toNat ≤ launchDeadline l.entry → exec (.queuedLaunchDeadline n) s = .next s) ∧
      (l.boundTo < l.threads → launchDeadline l.entry < s.gtime.toNat → ∃ t, exec (.queuedLaunchDeadline n) s = .next t ∧
        ∀ y ∈ t.hub.launches, y.number = n → y.binding = none ∧ y.threads = l.boundTo ∧ y.boundTo = l.boundTo ∧ y.status ∈ [3, 4, 6]) ∧
      (l.boundTo < l.threads → launchDeadline l.entry < s.gtime.toNat → l.boundTo ≠ 0 → (∀ y ∈ s.hub.launches, y.number = n → y.binding = none) →
        exec (.queuedLaunchDeadline n) s = .next { s with hub := { s.hub with launches := s.hub.launches.map fun y => if y.number = n then
          { l with status := if l.status = 4 ∨ l.status = 6 then l.status else 3, threads := l.boundTo } else y } }) ∧
      (l.boundTo = 0 → 0 < l.threads → (∀ y ∈ s.hub.launches, y.number = n → y.binding = none) → launchDeadline l.entry < s.gtime.toNat →
        NoWays s l.ctx → l.killed = false → l.status = 0 → l.report = [] → ∃ t rep, exec (.queuedLaunchDeadline n) s = .next t ∧ Closed { s with freeCount := s.freeCount + 5 } t l 3 rep ∧ rep.length = 8 ∧
          (rep.getD 0 0).toNat / 2 ^ 32 = 8 ∧ rep.getD 5 1 = 0 ∧ rep.getD 6 0 = s.gtime ∧ rep.getD 7 1 = 0) ∧
      (∀ x, s.launchOver l = false → l.shareOk x = false ∨ x.status = 0 ∨ l.status ≠ 0 → exec (.launchComplete ⟨n, x⟩) s = .next s) ∧
      (∀ x, s.launchOver l = false → l.shareOk x = true → x.status ≠ 0 → l.status = 0 → ∃ t, exec (.launchComplete ⟨n, x⟩) s = .next t ∧
        (∀ y ∈ t.hub.launches, y.number = n → y.status = x.status ∧ y.binding = none) ∧
        (s.th.bind.launch = n → s.th.life.inSlot = true → t.th.life = .ended)) ∧
      (∀ x, s.launchOver l = true → l.shareWhole x = false → exec (.launchComplete ⟨n, x⟩) s = .next s) ∧
      (∀ x, s.launchOver l = true → l.shareWhole x = true → NoWays s l.ctx → let m := withShare l x
        let status := if m.killed then 4 else if m.status = 0 then 1 else m.status
        let ill := status = 2 ∨ status = 3 ∨ status = 5
        (ill → m.report ≠ []) → ∃ t, exec (.launchComplete ⟨n, x⟩) s = .next t ∧ Closed s t m status (if ill then m.report else [])) ∧
      (∀ p c, ctxIs s l.ctx c → s.peersDiffer c l p = true → l.binding = none → l.killed = false → NoWays s l.ctx →
        ∃ t, exec (.gangBind n p) s = .next t ∧ Closed s t { l with code := 0x11 } 6 []) ∧
      (∀ p, l.binding = none → (∀ c, ctxIs s l.ctx c → s.peersDiffer c l p = false) → s.planOk l p = false → exec (.gangBind n p) s = .next s) ∧
      (∀ p c v x, l.binding = none → s.peersDiffer c l p = false → s.planOk l p = true → ctxIs s l.ctx c → s.bindAllWays l.ctx (bytesNat l.entry 12 1) p = some v →
        p.places = [x] → v.MemOk →
        let b := launchBind c l ((planFlats l p).getD 0 0) x (p.images.getD 0 0)
        v.ctxCell c.id b.sp = none ∨ (∃ a, Mapped v c.id b.sp a 64) →
        ∃ t, exec (.gangBind n p) s = .next t ∧ { t with mem := v.mem, hub := v.hub, unc := v.unc, poison := v.poison } = v ∧ { cold v t.unc with merges := v.unc.merges } = v.unc ∧
          (∀ a, Mapped v c.id b.sp a 64 → memBytes t.mem a 64 = (List.range 8).flatMap fun k => leBytes 8 (if k < bytesNat l.entry 1 1 then
            (planFlats l p).getD 0 0 / countsTo l.entry k % bytesNat l.entry (64 + 8 * k) 4 else 0)) ∧
          t.hub = { v.hub with launches := v.hub.launches.map fun y => if y.number = n then { y with binding := some p } else y } ∧
          ∀ k < 8, slotWord t x.1 (4 * x.2.1 + x.2.2) k = ([1 + bit b.tg * 2 + bit b.bg * 4 + bit b.conf * 8 + b.wc * 16 + b.slot * 64 + b.core * 256 +
              b.res * 2 ^ 16 + b.slots * 2 ^ 19 + b.sways * 2 ^ 24 + b.ctx * 2 ^ 32 + b.key * 2 ^ 48, b.entry.toNat, b.sp.toNat,
            b.ptroot + b.stripA, b.image, b.handler.toNat, 0, b.deadline.toNat].getD k 0) % 2 ^ 64) ∧
      ∀ p q x, l.binding = some q → q.places = [x] → x.1 < 4 → x.2.1 < 56 → x.2.2 < 4 →
        let at_ := 4 * x.2.1 + x.2.2
        let state := statusWord s x.1 at_ % 4
        let one := q.elsewhere = []
        (state ≠ 1 → state ≠ 3 → one ∨ p.refused = none → exec (.gangBind n p) s = .next s) ∧
        (∀ code, (state = 3 ∧ code = statusWord s x.1 at_ / 16 % 16) ∨ (state ≠ 3 ∧ ¬ one ∧ p.refused = some code) →
          l.boundTo = 0 → l.killed = false → l.report = [] → NoWays s l.ctx → ∃ t v, exec (.gangBind n p) s = .next t ∧
          Closed v t { l with binding := none, status := 6, code := 0x20 + code } 6 [] ∧
          slotWord v x.1 at_ 0 = slotWord s x.1 at_ 0 / 2 * 2 ∧ statusWord v x.1 at_ = 0) ∧
        (state = 1 → one ∨ p.refused = none → s.auxReady l = false → exec (.gangBind n p) s = .next s) ∧
        (state = 1 → one ∨ p.refused = none → s.joined l = [] → s.auxReady l = true → ∃ t, exec (.gangBind n p) s = .next t ∧
          slotWord t x.1 at_ 0 = slotWord s x.1 at_ 0 % 2 ^ 58 + 2 ^ 58 ∧
          (let far := q.elsewhere.map fun y => s.homeRank y.2
           let hops := (far.map fun r => (s.dev.route s.dev.rank r).length).foldl max 0
           slotWord t x.1 at_ 6 = max (if ∀ r ∈ far, s.dev.rank < r then s.gtime.toNat + 2000 + 220 * hops else p.start.toNat) (launchStart l.entry) % 2 ^ 64) ∧
          t.hub = { s.hub with launches := s.hub.launches.map fun y => if y.number = n then { y with
            binding := none, boundTo := y.boundTo + l.gangSize, homes := y.homes ++ gangHomes l q } else y })) ∧
  ∀ (s : State) (die entry : Nat), die < 4 → entry < 224 → s.MemOk →
    (slotWord s die entry 0 % 2 = 0 ∨ statusWord s die entry % 4 ≠ 0 ∨ s.bindingAt die entry = none → exec (.bindRecordValid die entry) s = .next s) ∧
    (∀ l p i, slotWord s die entry 0 % 2 = 1 → statusWord s die entry % 4 = 0 → s.bindingAt die entry = some (l, p, i) →
      (s.dispatchCode die entry ≠ 0 →
        exec (.bindRecordValid die entry) s = .next (withStatus s die entry (3 + 16 * s.dispatchCode die entry))) ∧
      (s.dispatchCode die entry = 0 → ∀ c, ctxIs s l.ctx c → ∃ t x, exec (.bindRecordValid die entry) s = .next t ∧ statusWord t die entry = 1 ∧
        x ∈ t.th :: t.others ∧ x.life = .bound ∧ x.bind = launchBind c l ((planFlats l p).getD i 0) (p.places.getD i (0, 0, 0)) (p.images.getD i 0) ∧
        x.fr.spc = word (bytesNat l.entry 32 8) ∧ x.fr.m.lvl = false ∧ x.fr.m.dbg = c.dbg ∧ x.fr.regs.dline = word (launchDeadline l.entry) ∧ x.fr.regs.fverUp = s.dev.fwUp ∧
        (∀ r < 64, vecGet x.fr.s r 0 = if r = 2 then x.bind.sp else if 3 ≤ r ∧ r ≤ 10 then word (bytesNat l.entry (128 + 8 * (r - 3)) 8) else 0) ∧
        x.ln.v = Vector.replicate 64 0 ∧ x.ln.m = Vector.replicate 8 0 ∧ x.ln.vl = 0 ∧ x.ln.flags = 0 ∧ x.tr = .reset ∧ x.br = .reset)) ∧
    (s.th.isAt (224 * die + entry) = true →
      (s.th.life ≠ .bound ∨ slotWord s die entry 0 / 2 ^ 58 % 2 = 0 → exec (.threadStart die entry) s = .next s) ∧
      (s.th.life = .bound → slotWord s die entry 0 / 2 ^ 58 % 2 = 1 →
        (s.th.bind.deadline < s.gtime → ∃ t, exec (.threadStart die entry) s = .next t ∧ t.th = { s.th with life := .ended } ∧
          t.hub = { s.hub with launches := s.hub.launches.map fun l => if l.number = s.th.bind.launch then
            { l with status := if l.status = 4 ∨ l.status = 6 then l.status else 3, threads := l.boundTo, binding := none } else l }) ∧
        (s.gtime ≤ s.th.bind.deadline → s.gtime.toNat < slotWord s die entry 6 ∨ s.th.bind.ctx ∈ s.hub.away → exec (.threadStart die entry) s = .next s) ∧
        (s.gtime ≤ s.th.bind.deadline → slotWord s die entry 6 ≤ s.gtime.toNat → s.th.bind.ctx ∉ s.hub.away → (∀ k ∈ s.saved, ¬ (k.ctx = s.th.bind.ctx ∧ k.die = die)) →
          exec (.threadStart die entry) s = .next { withStatus s die entry 2 with
            th := { s.th with life := .running, bind := { s.th.bind with start := word (slotWord s die entry 6) } } })))

/-- Events of the device: RDMA, power-good and the boot, torus training, time, fuses, attestation, keys, power, the debug port, trace rings,
recalibration, telemetry and power-down (12 R368, R369, R377 to R379; 14 R404 to R407, R409 to R420). The model's choices: the
numbers of I3C reports and the order of telemetry's fields (log 8), what fails a boot step, temperatures, power and errors found (log 5), what
a host request may reach, `hostRange` (log 26), which requests go on after an error and the order of a WRITE's lines (log 27), a stopped
thread's image as its state and what an edit of it may set (log 13), the state of a stopped thread (log 29), patches and resumes (log 28), a
record's lost count (log 30), which word breaks and single steps (log 32), time and calibration (log 16), and keys (log 70). -/
def Obligations.DeviceEvents : Prop :=
  (∀ (s : State) (port qp : Nat) (cred : List Nat),
    let ok := s.dev.step = 7 ∧ port < 4 ∧ (s.dev.qps.filter fun q => q.port = port && !q.error).length < 256 ∧
      (∀ q ∈ s.dev.qps, ¬ (q.port = port ∧ q.qp = qp ∧ q.error = false)) ∧ cred.map (BitVec.ofNat 8) = s.dev.credential
    (ok → exec (.rdmaConnect port qp cred) s = .next { s with
      dev := { s.dev with qps := { port := port, qp := qp, error := false } :: (s.dev.qps.filter fun q => ¬ (q.port = port ∧ q.qp = qp)) }, out := s.out ++ [.connection port qp true] }) ∧
    (¬ ok → exec (.rdmaConnect port qp cred) s = .next { s with out := s.out ++ [.connection port qp false] })) ∧
  (∀ (s : State) (port qp rkey addr : Nat) (marked : Bool) (data : List Nat) (len : Nat), s.MemOk → let bs := data.map (BitVec.ofNat 8)
    let write := exec (.rdmaWrite ⟨port, marked⟩ qp rkey addr data) s
    let read := exec (.rdmaRead ⟨port, marked⟩ qp rkey addr len) s
    let named := 0x10000 ≤ rkey ∧ rkey < 0x20000
    let ctx := rkey - 0x10000
    let v : State := { s with out := s.out ++ if marked then [.congestion port qp] else [] }
    let packets := fun (x : List Byte) => (List.range (max 1 ((len + 4095) / 4096))).map fun k => OutMsg.rdmaData port qp ((x.drop (4096 * k)).take 4096)
    (¬ Live s port qp → write = .next s ∧ read = .next s) ∧
    (Live s port qp →
      (rkey = 0x100 → addr + bs.length ≤ 0x100000 → ∃ t, write = .next t ∧ BytesWritten s t (0xF0000000000 + addr) bs ∧
        { t with mem := s.mem } = { s with out := v.out ++ [.rdmaAck port qp] }) ∧
      (rkey = 0x100 → addr + len ≤ 0x100000 → read = .next { s with out := v.out ++ packets (memBytes s.mem (0xF0000000000 + addr) len) }) ∧
      (rkey = 0x101 → addr = 0 → bs.length = 4 → ∃ t, exec (.doorbellWrite (BitVec.ofNat 32 (leNat bs))) s = .next t ∧
        write = .next { t with out := v.out ++ [.rdmaAck port qp] }) ∧
      (named → s.hostRange ctx .write addr bs.length = false → write = .next (refused v port qp)) ∧
      (named → s.hostRange ctx .read addr len = false → read = .next (refused v port qp)) ∧
      (named → s.hostRange ctx .write addr bs.length = true → ∀ a, Mapped v ctx (word addr) a bs.length →
        ∃ t, write = .next t ∧ BytesWritten s t a bs ∧ t.out = v.out ++ [.rdmaAck port qp] ∧ t.th = s.th ∧ t.dev = s.dev) ∧
      (named → s.hostRange ctx .read addr len = true → ∀ a, Mapped v ctx (word addr) a len → (∀ k < len, (a + k) / 32 ∉ s.poison) →
        ∃ t, read = .next t ∧ t.onUnc (cold s) = { s with freeCount := s.freeCount + len, out := v.out ++ packets (memBytes s.mem a len) }) ∧
      (rkey ∉ [0x100, 0x101] → ¬ named → write = .next (refused v port qp) ∧ read = .next (refused v port qp)))) ∧
  (∀ (s : State), let d := s.dev
    (d.power = true → exec .powerGood s = .next s) ∧
    (d.power = false → (∀ img ∈ d.flash, d.acceptsImage img = false) → exec .powerGood s =
      .next { s with dev := { d with power := true, step := 1, failed := some 2 }, out := s.out ++ [.i3c 1 [2]] }) ∧
    (d.power = false → ∀ img, (d.flash.find? fun x => d.acceptsImage x) = some img →
      let whole := img.take (256 + bytesNat img 8 8)
      let grow := fun (m : BitVec 512) (part : List Byte) => sha512 (leBytes 64 m.toNat ++ leBytes 64 (sha512 part).toNat)
      let up := { d with
          power := true, step := 5, failed := none, sv := bytesNat img 4 4, locked := decide (d.rank = 0),
          mboot := grow (grow (grow 0 Config.romRecord) whole) d.board }
      let fails := Config.freeChoice s.freeCount % 3
      (fails = 1 → exec .powerGood s = .next { s with
        freeCount := s.freeCount + 1, out := s.out ++ [.i3c 1 [4]], dev := { up with step := 3, failed := some 4, locked := false } }) ∧
      (fails = 2 → exec .powerGood s = .next { s with
        freeCount := s.freeCount + 1, out := s.out ++ [.i3c 1 [5]], dev := { up with step := 4, failed := some 5, locked := false }
        mem := [], lineKeys := [], poison := [] }) ∧
      (fails = 0 → exec .powerGood s = .next { s with
        freeCount := s.freeCount + 1, mem := [], lineKeys := [], poison := [], gtime := if d.rank = 0 then d.epoch.getD 0 else 0
        out := s.out ++ if d.badCores = [] then [] else [.i3c 4 d.badCores], dev := joined up })) ∧
    (∀ port nb, (d.step ≠ 5 ∨ d.failed ≠ none → exec (.torusTraining port nb) s = .next s) ∧
      (d.step = 5 → d.failed = none →
        (¬ Next d port nb → exec (.torusTraining port nb) s = .next { s with dev := { d with failed := some 6 }, out := s.out ++ [.i3c 1 [6, port]] }) ∧
        (Next d port nb → exec (.torusTraining port nb) s =
          .next { s with dev := joined { d with ports := port :: d.ports.filter fun x => x ≠ port } }))) ∧
    (∀ v, exec (.epochWrite v) s = .next (if d.step < 5 then { s with dev := { d with epoch := some v } } else s) ∧
      exec (.timeLock v) s = .next (if d.locked = true ∨ d.step < 5 then s else { s with gtime := v, dev := joined { d with locked := true } })) ∧
    (d.locked = false → exec .timeLockLoss s = .next s) ∧
    (d.locked = true → ∃ t, exec .timeLockLoss s = .next t ∧ Emptied t (fun c => s.hasThread c = true) s ∧
      ((∀ c ∈ s.ctxs, s.hasThread c = false) → t = { s with dev := { d with locked := false } })) ∧
    exec .rollbackFuseCommand s = .next { s with dev := { d with rollback := max d.rollback (min d.sv 64) } } ∧
    (∀ ctx nonce pub, ((∀ c, ctxIs s ctx c → c.conf = false) → exec (.attestationRequest ctx nonce pub) s = .next s) ∧
      ∀ c, ctxIs s ctx c → c.conf = true →
        let fix := fun (n : Nat) (x : List Byte) => x.take n ++ List.replicate (n - x.length) 0
        let key := x25519Base (Config.freshSecret s.freeCount)
        let them := fix 32 (pub.map (BitVec.ofNat 8))
        let head := fix 32 (nonce.map (BitVec.ofNat 8)) ++ leBytes 64 d.mboot.toNat ++ leBytes 64 c.mc.toNat ++ leBytes 2 c.id ++
          leBytes 2 Config.fverCap ++ leBytes 2 Config.fverFw ++ leBytes 26 0 ++ key
        let secret := sha512 (x25519 (Config.freshSecret s.freeCount) them ++ key ++ them ++ leBytes 2 c.id)
        exec (.attestationRequest ctx nonce pub) s = .next { withCtx s ctx (fun x => { x with
          tenant := (leBytes 64 secret.toNat).take 32, unit := 0 }) with
          freeCount := s.freeCount + 1, out := s.out ++ [.attestation (head ++ ed25519Sign Config.identitySecret head)] }) ∧
    (exec (.keyWithdrawal 0) s = .next s) ∧
    (∀ key, key ≠ 0 → ∃ t, exec (.keyWithdrawal key) s = .next t ∧ Emptied t (fun c => c.key = key) s ∧ (∀ k, (key, k) ∉ t.dev.keys) ∧ t.unc.l2 = [] ∧
      ((∀ c ∈ s.ctxs, c.key ≠ key) → { t with unc := s.unc, dev := d } = s ∧ { t.unc with l2 := s.unc.l2 } = s.unc)) ∧
    (∀ w, exec (.powerCap w) s = .next { s with dev := { d with powerCap := w } }) ∧
    (∃ t, exec .junction105 s = .next t ∧ t.ctxs = []) ∧
    exec .junction110 s = .next { s with dev := { d with offRequested := true }, out := s.out ++ [.i3c 3 []] } ∧
    (∃ t, exec .powerDown s = .next t ∧ t.mem = [] ∧ t.poison = [] ∧ t.ctxs = [] ∧ t.th = State.reset.th ∧ t.others = [] ∧ t.images = [] ∧
      t.dev.power = false ∧ t.dev.step = 0 ∧ t.dev.mboot = 0 ∧ t.dev.fwUp = d.fwUp ∧ t.lineKeys = [] ∧ t.dev.locked = false ∧ t.dev.keys = [] ∧ t.dev.flash = d.flash ∧ t.dev.rollback = d.rollback ∧
      t.dev.digests = d.digests ∧ t.dev.revoked = d.revoked)) ∧
  (∀ (s : State) (ctx : Nat),
    ((∀ c ∈ s.ctxs, c.id ≠ ctx) → exec (.debugAttach ctx) s = .next s) ∧
    ((∃ c ∈ s.ctxs, c.id = ctx) → exec (.debugAttach ctx) s = .next (debugSet s ctx true)) ∧
    (¬ Open s ctx → exec (.debugDetach ctx) s = .next s) ∧ (Open s ctx → exec (.debugDetach ctx) s = .next (debugSet s ctx false)) ∧
    (∀ who, (∀ t ∈ s.th :: s.others, t.bind.ctx = ctx → t.life ≠ .running) → exec (.debugStop ctx who) s = .next s) ∧
    (∀ who, (∀ t ∈ s.th :: s.others, t.bind.ctx = ctx → t.life ≠ .stopped) → exec (.debugResume ctx who) s = .next s) ∧
    (∀ who, Alone s → s.th.bind.ctx = ctx → who = none ∨ who = some s.th.bind.place →
      (s.th.life = .running → s.gtime ≤ s.th.fr.regs.dline → (∀ e ∈ s.older, e.issued = false) → ∃ t, exec (.debugStop ctx who) s = .next t ∧ t.th.life = .stopped ∧ t.th.fr.s = s.th.fr.s ∧ t.th.fr.spc = s.th.fr.spc ∧
        t.th.fr.viq = s.th.fr.viq ∧ t.th.ln = s.th.ln ∧ t.mem = s.mem) ∧
      (s.th.life = .stopped → (∀ k ∈ s.saved, ¬ (k.ctx = ctx ∧ k.die = s.th.bind.die)) → ∃ t, exec (.debugResume ctx who) s = .next t ∧ t.th.life = .running ∧ t.th.fr.s = s.th.fr.s ∧ t.th.fr.spc = s.th.fr.spc ∧
        t.th.fr.viq = s.th.fr.viq ∧ t.th.ln = s.th.ln ∧ t.mem = s.mem)) ∧
    (∀ va data, (¬ Open s ctx → exec (.debugPatch ctx va data) s = .next s) ∧
      ∀ a, Open s ctx → s.MemOk → Mapped s ctx va a data.length → va.toNat + data.length ≤ 2 ^ 64 → ∃ t, exec (.debugPatch ctx va data) s = .next t ∧
        BytesWritten s t a (data.map (BitVec.ofNat 8)) ∧ (∀ k < data.length, ∀ x ∈ t.unc.icache, x.line ≠ (a + k) / 256) ∧
        t.out = s.out ++ [.debug []] ∧ t.th = s.th)) ∧
  (∀ (s : State) (p : Nat), s.th.isAt p = true →
    (s.th.life ≠ .stopped ∨ ¬ Open s s.th.bind.ctx → (∀ pa len, exec (.debugReadImage p pa len) s = .next s) ∧
      (∀ e, exec (.debugWriteImage p e) s = .next s) ∧ exec (.debugResumeOne p) s = .next s) ∧
    (s.th.life = .stopped → Open s s.th.bind.ctx →
      (∀ r < 64, ∀ k < 4096 * s.width,
        exec (.debugReadImage p (s.th.bind.image + 20480 + 8192 * s.width + 4096 * s.width * r + k) 1) s = .next { s with
          freeCount := s.freeCount + 1, out := s.out ++ [.debug [BitVec.ofNat 8 (field (vecGet s.th.ln.v r 0) (8 * k) 8)]] }) ∧
      (∀ r < 8, ∀ k < 1024 * s.width, exec (.debugReadImage p (s.th.bind.image + 20480 + 1024 * s.width * r + k) 1) s = .next { s with
          freeCount := s.freeCount + 1, out := s.out ++ [.debug [BitVec.ofNat 8 (field (vecGet s.th.ln.m r 0) (8 * k) 8)]] }) ∧
      (∀ r k, 1 ≤ r → r < 64 → k < 8 → exec (.debugReadImage p (s.th.bind.image + 4096 + 8 * (r - 1) + k) 1) s = .next { s with
          freeCount := s.freeCount + 1, out := s.out ++ [.debug [BitVec.ofNat 8 ((vecGet s.th.fr.s r 0).toNat / 256 ^ k)]] }) ∧
      (∀ r v, 1 ≤ r → r < 64 → exec (.debugWriteImage p (.scalar r v)) s = .next (s.onFr fun f => { f with s := vecSet f.s r v })) ∧
      (∀ v, exec (.debugWriteImage p (.spc v)) s = .next (if v.toNat % 4 = 0 then s.onFr fun f => { f with spc := v } else s)) ∧
      (∀ r k v, r < 64 → k < 4096 * s.width → exec (.debugWriteImage p (.vectorByte r k v)) s =
        .next (s.onLn fun l => { l with v := vecSet l.v r (setField (vecGet l.v r 0) (8 * k) 8 v.toNat) })) ∧
      (∀ n w, (s.th.fr.stepq.toList ++ s.th.fr.viq).length ≤ n → exec (.debugWriteImage p (.viqWord n w)) s = .next s) ∧
      (∀ n k e, (s.th.fr.stepq.toList ++ s.th.fr.viq)[n]? = some e → exec (.debugWriteImage p (.progress n k)) s =
        .next (if k ≤ s.slotGroups (if e.issued = true then e else { e with vtype := s.th.ln.vtype }) then
          s.onFr fun f => if f.stepq = none then { f with viq := f.viq.set n { e with prog := k } }
            else if n = 0 then { f with stepq := some { e with prog := k } } else { f with viq := f.viq.set (n - 1) { e with prog := k } } else s)) ∧
      (∀ n k v, exec (.debugWriteImage p (.maskByte n k v)) s = .next (if n < 8 ∧ k < 1024 * s.width then
        s.onLn fun l => { l with m := vecSet l.m n (setField (vecGet l.m n 0) (8 * k) 8 v.toNat) } else s)) ∧
      (∀ n k v, exec (.debugWriteImage p (.accByte n k v)) s = .next (if n < 2 ∧ k < 65536 ∧ s.th.bind.tg = true then
        s.onTr fun x => { x with acc := vecSet x.acc n (setField (vecGet x.acc n 0) (8 * k) 8 v.toNat) } else s)) ∧
      (∀ n v, exec (.debugWriteImage p (.shape n v)) s =
        .next (if n < 16 then s.onLn fun l => { l with shape := vecSet l.shape n v } else s)) ∧
      (∀ n v, exec (.debugWriteImage p (.fmt n v)) s =
        .next (if n < 8 ∧ fmtAccept v = true then s.onLn fun l => { l with fmt := vecSet l.fmt n v } else s)) ∧
      (∀ n k v, exec (.debugWriteImage p (.stripByte n k v)) s = .next (if n < s.th.st.entries.length ∧ k < 64 then
        s.onSt fun x => { x with entries := x.entries.modify n fun e => { e with data := setField e.data (8 * k) 8 v.toNat } } else s)) ∧
      (∀ n v, exec (.debugWriteImage p (.history n v)) s = .next (if n < s.th.fr.hist.length then
        s.onFr fun f => { f with hist := f.hist.modify n fun h => { h with old := v } } else s)) ∧
      (∀ n k v, exec (.debugWriteImage p (.storeByte n k v)) s = .next (if (s.th.fr.storeQ[n]?).any (fun e => k < e.bytes.length) then
        s.onFr fun f => { f with storeQ := f.storeQ.modify n fun e => { e with bytes := e.bytes.set k v } } else s)) ∧
      (∀ n b, exec (.debugWriteImage p (.accTag n b)) s = .next (if n < 2 ∧ s.th.bind.tg = true then
        s.onTr fun x => { x with tagInt := vecSet x.tagInt n b } else s)) ∧
      (∀ n v, exec (.debugWriteImage p (.counter n v)) s = .next (if n < s.th.cnt.toList.length then
        { s with th := { s.th with cnt := vecSet s.th.cnt n v } } else s)) ∧
      (∀ l k v, exec (.debugWriteImage p (.windowCopy l k v)) s = .next (if (s.th.ln.win.copies[l]?).any (fun c => k < c.length) then
        s.onLn fun x => { x with win := { x.win with copies := x.win.copies.modify l fun c => c.set k v } } else s)) ∧
      (∀ n k v, s.th.bind.bg = false → exec (.debugWriteImage p (.triangle n k v)) s = .next s) ∧
      (∀ n k v, s.th.bind.bg = true → n < 4 → k < 1024 → ∃ t, exec (.debugWriteImage p (.triangle n k v)) s = .next t ∧
        { t with th := { t.th with br := s.th.br } } = s ∧ ∀ z, let old := vecGet s.th.br.tri n z
          vecGet t.th.br.tri n z = { old with u := setField old.u (32 * k) 32 v.toNat }) ∧
      (∀ n k v b, s.th.bind.bg = true → n < 4 → k < 32 → ∃ t u, exec (.debugWriteImage p (.triColumn n k v)) s = .next t ∧
        exec (.debugWriteImage p (.triCount n k b)) s = .next u ∧ ∀ z, let old := vecGet s.th.br.tri n z
          vecGet t.th.br.tri n z = { old with c := setField old.c (32 * k) 32 v.toNat } ∧
          vecGet u.th.br.tri n z = { old with cnt := vecSet old.cnt k b.toNat }) ∧
      (∀ n k v, n < 8 → let x := streamOf s n
        exec (.debugWriteImage p (.streamByte n k v)) s = .next (if k < x.rx.length then withStream s n { x with rx := x.rx.set k v } else s)) ∧
      (∀ l v, exec (.debugWriteImage p (.lanePc l v)) s = .next (if v.toNat % 4 = 0 ∧ s.th.fr.lanes.any (fun x => l < x.pcs.length) = true then
        s.onFr fun f => { f with lanes := f.lanes.map fun x => { x with pcs := x.pcs.set l v } } else s)) ∧
      (∀ l b, exec (.debugWriteImage p (.laneJoined l b)) s = .next (if s.th.fr.lanes.any (fun x => l < x.joined.length) = true then
        s.onFr fun f => { f with lanes := f.lanes.map fun x => { x with joined := x.joined.set l b } } else s)) ∧
      (∀ n k, let mine := s.copies.filter fun c => c.owner = s.th.bind.place ∧ c.paused
        exec (.debugWriteImage p (.copyPos n k)) s = .next (match mine[n]? with
          | some c => if k ≤ c.total then { s with copies := s.copies.map fun x => if x.owner = c.owner ∧ x.seq = c.seq then { x with pos := k } else x }
            else s
          | none => s)) ∧
      (∀ n v, v &&& crReserved n ≠ 0 → exec (.debugWriteImage p (.control n v)) s = .next s) ∧
      (∀ v, v &&& crReserved 0x0A1 = 0 → exec (.debugWriteImage p (.control 0x0A1 v)) s = .next (s.onRegs fun r => { r with dline := v })) ∧
      (∀ k ∈ s.saved, ¬ (k.ctx = s.th.bind.ctx ∧ k.die = s.th.bind.die)) → ∃ t, exec (.debugResumeOne p) s = .next t ∧ t.th.life = .running ∧ t.th.oneWord = true ∧ t.th.fr.s = s.th.fr.s ∧ t.th.fr.spc = s.th.fr.spc ∧
        t.th.ln = s.th.ln ∧ t.mem = s.mem)) ∧
  (∀ (s : State), (s.hub.traceQ = [] → exec .traceRecordAppend s = .next s) ∧
    ∀ ctx launch flat ws q, s.hub.traceQ = (ctx, launch, flat, ws) :: q → let u := { s with hub := { s.hub with traceQ := q } }
      ((∀ c ∈ s.ctxs, c.id ≠ ctx) → exec .traceRecordAppend s = .next u) ∧
      ∀ c, ctxIs s ctx c →
        (c.ring = none → Alone s → s.th.life.inSlot = true → exec .traceRecordAppend s =
          .next (if s.th.bind.launch = launch ∧ s.th.bind.flat = flat then
            u.onRegs fun r => { r with lost := if r.lost = 65535 then 65535 else r.lost + 1 } else u)) ∧
        ∀ r, c.ring = some r → c.conf = false → r.truncated = false → ws ≠ [] → ws.length * 8 ≤ s.ringFree ctx r → ∃ t r', exec .traceRecordAppend s = .next t ∧
          t.ctxs = s.ctxs.map (fun x => if x.id = ctx then { x with ring := some r' } else x) ∧ r'.prod = r.prod + 8 * ws.length ∧
          r'.seq = (r.seq + 1) % 65536 ∧ r'.truncated = false ∧ r'.base = r.base ∧ t.th = s.th ∧ t.hub = u.hub ∧
          ∀ a, s.MemOk → Mapped u ctx r.base a (64 + 2 ^ r.log) →
            (∀ j < 8 * ws.length, 8 ≤ j → memGet t.mem (a + 64 + (r.prod + j) % 2 ^ r.log) = (ws.flatMap fun w => leBytes 8 w.toNat).getD j 0) ∧
            memBytes t.mem a 8 = leBytes 8 r'.prod) ∧
  (∀ (s : State) (ctx : Nat),
    ((∀ c, ctxIs s ctx c → c.ring = none ∨ c.conf = false ∨ c.tenant = []) → exec (.traceUnitSeal ctx) s = .next s) ∧
    ∀ c r, ctxIs s ctx c → c.ring = some r →
      (r.pending = [] ∨ s.ringFree ctx r < 4096 → exec (.traceUnitSeal ctx) s = .next s) ∧
      (c.conf = true → c.tenant ≠ [] → r.pending ≠ [] → 4096 ≤ s.ringFree ctx r → ∃ t r', exec (.traceUnitSeal ctx) s = .next t ∧
        t.ctxs = s.ctxs.map (fun x => if x.id = ctx then { x with ring := some r', unit := c.unit + 1 } else x) ∧ r'.prod = r.prod + 4096 ∧
        r'.pending = r.pending.drop 508 ∧ r'.seq = r.seq ∧ t.th = s.th ∧ t.hub = s.hub)) ∧
  ∀ (s : State),
    (∀ k, exec (.ucieRecalibration k) s = .next (if k < 10 then
      { s with tele := { s.tele with uciePhase := (s.tele.uciePhase.filter fun x => x ≠ k) ++ [k] } } else s)) ∧
    (∀ k, exec (.torusRecalibration k) s = .next (if k < 6 then
      { s with tele := { s.tele with torusPhase := (s.tele.torusPhase.filter fun x => x ≠ k) ++ [k] } } else s)) ∧
    (∀ mv, exec (.ageingGuardBand mv) s = .next (if mv ≤ 5 then { s with tele := { s.tele with ageing := s.tele.ageing + 1 } } else s)) ∧
    exec .telemetry s = .next { s with
      freeCount := s.freeCount + 6
      tele := { s.tele with sent := s.tele.sent + 1 }
      out := s.out ++ [.i3c 0 ((List.range 6).map (fun k => Config.freeChoice (s.freeCount + k)) ++ s.unc.forced.toList.map BitVec.toNat ++ s.unc.merges.toList.map BitVec.toNat ++
        [s.hub.doorErrors, s.tele.ageing, s.tele.corrected, s.tele.uncorrected])] }

/-- Words that the spec writes out, one or more of each family, decode to the instructions it names (03 R66, R69, R72, R75; 04 R82, R84, R87; 05 R109;
06 R152, R159; 07 R199; 08 R219; 09 R248; 10 R272, R294; 11 R320; 12 R356, R359). -/
def Obligations.SampleWords : Prop :=
  decode32 0x04287FFC = .ok (.addi 5 3 (-4)) ∧ decode32 0x02386201 = .ok (.mul 7 3 4) ∧ decode32 0x122891A3 = .ok (.lui 5 0x91A3) ∧
  decode32 0x20604006 = .ok (.ldN16 12 2 6) ∧ decode32 0x2A18A000 = .ok (.stI64 3 5 0) ∧ decode32 0x40412510 = .ok (.faddD 8 9 10 1) ∧
  decode32 0x64412003 = .ok (.bcEq 8 9 3) ∧ decode32 0x70002003 = .ok (.ret 1) ∧ decode32 0x7208C003 = .ok (.loop 1 6 3) ∧
  decode32 0x7005148C = .ok (.lsplit 40 41) ∧ decode32 0x7A280801 = .ok (.mfcM 5 0x801) ∧ decode32 0x7C00C802 = .ok (.mtcM 6 0x802) ∧
  decode32 0x7800A001 = .ok (.trap 5) ∧ decode32 0 = .error .unassigned ∧
  decode64 3 0x5400200080108007 = .ok (.vadd { plainWord with form := .vs, mask := 2, chain := true, ety := .i32, vd := 4, va := 8, vc := 7 }) ∧
  decode64 3 0x80001FFB80083000 = .ok (.vadd { plainWord with form := .vi, ety := .i16, fn := 0xFFB, vd := 2, va := 3 }) ∧
  decode64 3 0x0000A018B8081000 = .ok (.vcvt { plainWord with ety := .fp32, fn := 0x018, vd := 2, va := 1 }) ∧
  decode64 3 0x0000A000BD080040 = .ok (.vdiv { plainWord with ety := .fp32, vd := 2, vb := 1 }) ∧
  decode64 3 0x48002400C20C9007 = .ok (.vldx { plainWord with form := .vs, mask := 1, ety := .i32, fn := 0x400, vd := 3, va := 9, vc := 7 }) ∧
  decode64 3 0x0000A000D1004200 = .ok (.mouter { plainWord with ety := .fp32, va := 4, vb := 8 }) ∧
  decode64 3 0x0000A006DC141240 = .ok (.brot { plainWord with ety := .fp32, fn := 6, vd := 5, va := 1, vb := 9 }) ∧
  decode64 3 0x4000AC20E21020C9 = .ok (.vamoo { plainWord with form := .vs, ety := .fp32, fn := 0xC20, vd := 4, va := 2, vb := 3, vc := 9 }) ∧
  decode64 3 0x40000049E81461C0 = .ok (.awWait { plainWord with form := .vs, fn := 0x049, vd := 5, va := 6, vb := 7 }) ∧
  decode64 3 0x40000020F31461C0 = .ok (.stepAt { plainWord with form := .vs, fn := 0x020, vd := 5, va := 6, vb := 7 }) ∧
  decode64 3 0x40000002F8140006 = .ok (.setvl { plainWord with form := .vs, fn := 2, vd := 5, vc := 6 })
end

