-- ==== Sys2Proof/Laws/Front.lean ====
section
/-! SUPPORT. What the shared operations of the front do: register writes, the history buffer, the end-of-body updates, and going
on in sequence. -/

namespace Sys2Proof.Machine

section
set_option Elab.async false

/-- An entry of a file after it is written. -/
theorem vecGet_vecSet_same {α : Type} {n : Nat} (v : Vector α n) (i : Nat) (x d : α) (h : i < n) :
    vecGet (vecSet v i x) i d = x := by
  simp [vecGet, vecSet, h]

/-- Another entry of a file after a write. -/
theorem vecGet_vecSet_other {α : Type} {n : Nat} (v : Vector α n) {i j : Nat} (x d : α) (h : i ≠ j) :
    vecGet (vecSet v i x) j d = vecGet v j d := by
  simp only [vecGet, vecSet]
  by_cases hj : j < n
  · simp [hj, h]
  · simp [hj]

/-- What `unsafeOlder` rests on: the VIQ and the M-level registers. -/
theorem unsafeOlder_onFr (s : State) (f : Front → Front) (hm : (f s.th.fr).m = s.th.fr.m) (hv : (f s.th.fr).viq = s.th.fr.viq) :
    (s.onFr f).unsafeOlder = s.unsafeOlder := by
  simp [State.unsafeOlder, State.inLanes, State.onFr, hm, hv]

/-- A log adds entries to the history buffer only, and none where no older word can fault (03 R60). -/
theorem log_form (s : State) (r : FrontReg) (o : Word) :
    ∃ h, s.log r o = s.onFr (fun f => { f with hist := f.hist ++ h }) ∧ (s.unsafeOlder = false → h = []) := by
  unfold State.log
  split
  · exact ⟨_, rfl, by simp_all⟩
  · exact ⟨[], by simp [State.onFr], fun _ => rfl⟩

/-- A write of zcN (03 R60; 04 R88). -/
theorem setZc_form (s : State) (n : Bool) (x : Word) :
    ∃ h, s.setZc n x = (s.onFr (fun f =>
        { f with hist := f.hist ++ h, regs := { f.regs with zc := vecSet f.regs.zc (setIx n) x } })) ∧
      (s.unsafeOlder = false → h = []) := by
  obtain ⟨h, e, e2⟩ := log_form s (.zc n) (s.zc n)
  exact ⟨h, by simp [State.setZc, e, State.onFr, State.onRegs], e2⟩

/-- An end-of-body update changes zc and the history buffer only (04 R88). -/
theorem endOfBody_form (s : State) (n : Bool) (a : Word) :
    ∃ h z, (s.endOfBody n a).1 = (s.onFr (fun f => { f with hist := f.hist ++ h, regs := { f.regs with zc := z } })) ∧
      (s.unsafeOlder = false → h = []) := by
  unfold State.endOfBody
  simp only
  split <;> (obtain ⟨h, e, e2⟩ := setZc_form s n _; exact ⟨h, _, e, e2⟩)

/-- Arriving at an address changes zc and the history buffer only (04 R88). -/
theorem arrive_form (s : State) (a : Word) :
    ∃ h z, (s.arrive a).1 = (s.onFr (fun f => { f with hist := f.hist ++ h, regs := { f.regs with zc := z } })) ∧
      (s.unsafeOlder = false → h = []) := by
  have triv : ∃ h z, s = (s.onFr (fun f => { f with hist := f.hist ++ h, regs := { f.regs with zc := z } })) ∧
      (s.unsafeOlder = false → h = []) := ⟨[], s.th.fr.regs.zc, by simp [State.onFr], fun _ => rfl⟩
  unfold State.arrive
  simp only
  split
  · exact triv
  split
  · split
    · exact endOfBody_form _ _ _
    split
    · obtain ⟨h, z, e, e2⟩ := endOfBody_form s s.innerSet a
      obtain ⟨h', z', e', e2'⟩ := endOfBody_form (s.endOfBody s.innerSet a).1 (!s.innerSet) a
      refine ⟨h ++ h', z', by rw [e', e]; simp [State.onFr], fun hu => ?_⟩
      have hv : (s.endOfBody s.innerSet a).1.unsafeOlder = s.unsafeOlder := by rw [e]; exact unsafeOlder_onFr _ _ rfl rfl
      rw [e2 hu, e2' (hv.trans hu)]; rfl
    · exact endOfBody_form _ _ _
  split
  · exact endOfBody_form _ _ _
  · exact triv

/-- Where an end-of-body update goes and what it leaves in the loop sets rests on the front's registers only. -/
theorem endOfBody_congr (s t : State) (n : Bool) (a : Word) (h : s.th.fr.regs = t.th.fr.regs) :
    (s.endOfBody n a).2 = (t.endOfBody n a).2 ∧ (s.endOfBody n a).1.th.fr.regs = (t.endOfBody n a).1.th.fr.regs := by
  have hz : ∀ n, s.zc n = t.zc n := by simp [State.zc, h]
  have hs : ∀ n, s.zs n = t.zs n := by simp [State.zs, h]
  unfold State.endOfBody
  simp only [hz, hs]
  split
  all_goals
    refine ⟨rfl, ?_⟩
    simp only [State.setZc]
    simp only [State.onRegs]
    unfold State.log
    split <;> split <;> simp [State.onFr, h]

/-- Where the front arrives and what that leaves in the loop sets rests on the front's registers and level only. -/
theorem arrive_congr (s t : State) (a : Word) (h : s.th.fr.regs = t.th.fr.regs) (hm : s.th.fr.m = t.th.fr.m) :
    (s.arrive a).2 = (t.arrive a).2 ∧ (s.arrive a).1.th.fr.regs = (t.arrive a).1.th.fr.regs := by
  have hz : ∀ n, s.zc n = t.zc n := by simp [State.zc, h]
  have he : ∀ n, s.ze n = t.ze n := by simp [State.ze, h]
  have hE : ∀ n, s.endsAt n a = t.endsAt n a := by simp [State.endsAt, hz, he]
  have hi : s.innerSet = t.innerSet := by simp [State.innerSet, hz]
  have hb := fun n => endOfBody_congr s t n a h
  have h2 := (hb t.innerSet).2
  have hz2 : ∀ n, (s.endOfBody t.innerSet a).1.zc n = (t.endOfBody t.innerSet a).1.zc n := by simp [State.zc, h2]
  have hE2 : ∀ n, (s.endOfBody t.innerSet a).1.endsAt n a = (t.endOfBody t.innerSet a).1.endsAt n a := by
    intro n
    have hz3 : (s.endOfBody t.innerSet a).1.ze n = (t.endOfBody t.innerSet a).1.ze n := by simp [State.ze, h2]
    unfold State.endsAt
    rw [hz2, hz3]
  unfold State.arrive
  simp only [hm, hE, hi, hz2, hE2]
  split
  · exact ⟨rfl, h⟩
  split
  · split
    · exact hb _
    split
    · exact endOfBody_congr _ _ _ _ h2
    · exact hb _
  split
  · exact hb _
  · exact ⟨rfl, h⟩

/-- Going on in sequence: the front's position, its loop sets and its history change, nothing else (04 R88). -/
theorem seqNext_form (s : State) (n : Nat) :
    ∃ h z, s.seqNext n = s.onFr (fun f =>
        { f with hist := f.hist ++ h, regs := { f.regs with zc := z }, spc := (s.arrive (s.th.fr.spc + word n)).2 }) ∧
      (s.unsafeOlder = false → h = []) ∧ { s.th.fr.regs with zc := z } = (s.arrive (s.th.fr.spc + word n)).1.th.fr.regs := by
  obtain ⟨h, z, e, e2⟩ := arrive_form s (s.th.fr.spc + word n)
  exact ⟨h, z, by simp only [State.seqNext, e]; simp [State.onFr], e2, by rw [e]; rfl⟩

/-- A register write with flags at the front (03 R57, R60). -/
theorem wrFlags_form (s : State) (d : RegNo) (x : Word) (fl : Flags) (hc : s.th.fr.curLane = none) :
    ∃ h, s.wrFlags d x fl = (s.onFr (fun f =>
        { f with s := if d = 0 then s.th.fr.s else vecSet s.th.fr.s d.toNat x, hist := f.hist ++ h })).onLn
        (fun l => { l with flags := if s.unsafeOlder then l.flags else l.flags ||| fl }) ∧
      (s.unsafeOlder = false → h = []) := by
  unfold State.wrFlags State.wr State.raiseFlags State.log
  by_cases hu : s.unsafeOlder = true
  · by_cases hd : d = 0#6 <;> by_cases hf : fl = 0#6
    · exact ⟨[], by simp [hu, hd, hf, State.onFr, State.onLn], by simp⟩
    · exact ⟨[{ reg := .flagsOnly, old := 0, flags := fl, seq := s.th.fr.seq }],
        by simp [hu, hd, hf, hc, State.onFr, State.onLn], by simp [hu]⟩
    · exact ⟨[{ reg := .s d, old := vecGet s.th.fr.s d.toNat 0, flags := 0, seq := s.th.fr.seq }],
        by simp [hu, hd, hf, hc, State.onFr, State.onLn], by simp [hu]⟩
    · exact ⟨[{ reg := .s d, old := vecGet s.th.fr.s d.toNat 0, flags := fl, seq := s.th.fr.seq }],
        by simp [hu, hd, hf, hc, State.onFr, State.onLn], by simp [hu]⟩
  · have hl : ∀ g, (s.onLn g).unsafeOlder = s.unsafeOlder := fun _ => rfl
    refine ⟨[], ?_, fun _ => rfl⟩
    by_cases hd : d = 0#6 <;> by_cases hf : fl = 0#6 <;> simp [hu, hd, hf, hl] <;> simp [State.onFr, State.onLn, hc]
    all_goals (rw [← hc])

end

end Sys2Proof.Machine
end

