-- ==== Sys2Proof/Laws/Memory.lean ====
section
/-! SUPPORT. Memory: the canonical form, reading after writing, and that every operation keeps the form (log 2). -/

namespace Sys2Proof.Machine

section
set_option Elab.async false

/-- The canonical form, one cell at a time. -/
theorem Memory.wf_cons (k : Nat) (b : Byte) (m : Memory) :
    Memory.wf ((k, b) :: m) = true ↔ b ≠ blank ∧ (∀ c ∈ m, k < c.1) ∧ Memory.wf m = true := by
  induction m generalizing k b with
  | nil => simp [Memory.wf]
  | cons c m ih =>
    obtain ⟨j, d⟩ := c
    have h := ih j d
    constructor
    · intro hw
      simp only [Memory.wf, Bool.and_eq_true, bne_iff_ne, decide_eq_true_eq] at hw
      obtain ⟨⟨hb, hk⟩, hm⟩ := hw
      obtain ⟨_, hj, _⟩ := h.mp hm
      refine ⟨hb, ?_, hm⟩
      rintro c (_ | ⟨_, hc⟩)
      · exact hk
      · exact Nat.lt_trans hk (hj c hc)
    · rintro ⟨hb, hk, hm⟩
      simp only [Memory.wf, Bool.and_eq_true, bne_iff_ne, decide_eq_true_eq]
      exact ⟨⟨hb, hk (j, d) List.mem_cons_self⟩, hm⟩

/-- The cells of memory after a write are the written one and old ones. -/
theorem mem_memSet {m : Memory} {a : Nat} {b : Byte} {c : Host.Cell} (h : c ∈ memSet m a b) : c = (a, b) ∨ c ∈ m := by
  induction m with
  | nil => unfold memSet at h; split at h <;> simp_all
  | cons d m ih =>
    obtain ⟨k, x⟩ := d
    unfold memSet at h
    split at h
    · split at h <;> simp_all
    · split at h
      · split at h <;> simp_all; tauto
      · rcases List.mem_cons.mp h with rfl | h
        · exact .inr List.mem_cons_self
        · rcases ih h with h | h
          · exact .inl h
          · exact .inr (List.mem_cons_of_mem _ h)

/-- A write keeps the canonical form. -/
theorem memSet_wf {m : Memory} (a : Nat) (b : Byte) (h : Memory.wf m = true) : Memory.wf (memSet m a b) = true := by
  induction m with
  | nil =>
    unfold memSet
    split
    · rfl
    · simpa [Memory.wf] using ‹¬ b = blank›
  | cons d m ih =>
    obtain ⟨k, x⟩ := d
    have hw := (Memory.wf_cons k x m).mp h
    unfold memSet
    split
    · split
      · exact h
      · refine (Memory.wf_cons _ _ _).mpr ⟨‹_›, ?_, h⟩
        rintro c (_ | ⟨_, hc⟩)
        · assumption
        · exact Nat.lt_trans ‹a < k› (hw.2.1 c hc)
    · split
      · split
        · exact hw.2.2
        · exact (Memory.wf_cons _ _ _).mpr ⟨‹_›, by subst_vars; exact hw.2.1, hw.2.2⟩
      · refine (Memory.wf_cons _ _ _).mpr ⟨hw.1, ?_, ih hw.2.2⟩
        intro c hc
        rcases mem_memSet hc with rfl | hc
        · show k < a; omega
        · exact hw.2.1 c hc

/-- Consecutive writes keep the canonical form. -/
theorem memPut_wf {m : Memory} (a : Nat) (bs : List Byte) (h : Memory.wf m = true) : Memory.wf (memPut m a bs) = true := by
  induction bs generalizing m a with
  | nil => exact h
  | cons b bs ih => exact ih _ (memSet_wf a b h)

/-- Leaving cells out keeps the canonical form. -/
theorem filter_wf {m : Memory} (p : Host.Cell → Bool) (h : Memory.wf m = true) : Memory.wf (m.filter p) = true := by
  induction m with
  | nil => rfl
  | cons d m ih =>
    obtain ⟨k, x⟩ := d
    have hw := (Memory.wf_cons k x m).mp h
    rw [List.filter_cons]
    split
    · exact (Memory.wf_cons _ _ _).mpr ⟨hw.1, fun c hc => hw.2.1 c (List.mem_filter.mp hc).1, ih hw.2.2⟩
    · exact ih hw.2.2

/-- Below every cell memory reads as blank. -/
theorem memGet_below {m : Memory} {a : Nat} (h : ∀ c ∈ m, a < c.1) : memGet m a = blank := by
  cases m with
  | nil => rfl
  | cons d m =>
    have := h d List.mem_cons_self
    obtain ⟨k, x⟩ := d
    simp only at this
    unfold memGet
    rw [if_neg (by omega), if_pos this]

/-- A write is read back. -/
theorem memGet_memSet_same {m : Memory} (a : Nat) (b : Byte) (h : Memory.wf m = true) : memGet (memSet m a b) a = b := by
  induction m with
  | nil => unfold memSet; split <;> simp_all [memGet]
  | cons d m ih =>
    obtain ⟨k, x⟩ := d
    have hw := (Memory.wf_cons k x m).mp h
    unfold memSet
    split
    · split
      · subst_vars; exact memGet_below (by rintro c (_ | ⟨_, hc⟩); exacts [‹a < k›, Nat.lt_trans ‹a < k› (hw.2.1 c hc)])
      · simp [memGet]
    · split
      · split
        · subst_vars; exact memGet_below hw.2.1
        · simp [memGet]
      · unfold memGet; rw [if_neg ‹_›, if_neg ‹_›]; exact ih hw.2.2

/-- A write leaves every other byte alone. -/
theorem memGet_memSet_other {m : Memory} {a c : Nat} (b : Byte) (h : Memory.wf m = true) (hc : c ≠ a) :
    memGet (memSet m a b) c = memGet m c := by
  induction m with
  | nil => unfold memSet; split <;> simp [memGet, hc]
  | cons d m ih =>
    obtain ⟨k, x⟩ := d
    have hw := (Memory.wf_cons k x m).mp h
    have hb : c < k → memGet m c = blank := fun hk => memGet_below fun y hy => Nat.lt_trans hk (hw.2.1 y hy)
    unfold memSet
    split
    · split
      · rfl
      · simp only [memGet, hc, if_false]
        split
        · rw [if_neg (by omega), if_pos (by omega)]
        · rfl
    · split
      · subst_vars
        split
        · simp only [memGet, hc, if_false]
          split
          · exact hb ‹_›
          · rfl
        · simp only [memGet, hc, if_false]
      · simp only [memGet]
        rw [ih hw.2.2]

/-- Writing consecutive bytes leaves every byte outside them alone. -/
theorem memGet_memPut_other {m : Memory} {a c : Nat} (bs : List Byte) (h : Memory.wf m = true) (hc : c < a ∨ a + bs.length ≤ c) :
    memGet (memPut m a bs) c = memGet m c := by
  induction bs generalizing m a with
  | nil => rfl
  | cons b bs ih =>
    simp only [List.length_cons] at hc
    rw [memPut, ih (memSet_wf a b h) (by omega), memGet_memSet_other b h (by omega)]

/-- Consecutive bytes are read back. -/
theorem memGet_memPut {m : Memory} {a i : Nat} (bs : List Byte) (h : Memory.wf m = true) (hi : i < bs.length) :
    memGet (memPut m a bs) (a + i) = bs.getD i blank := by
  induction bs generalizing m a i with
  | nil => simp at hi
  | cons b bs ih =>
    rw [memPut]
    cases i with
    | zero => rw [memGet_memPut_other bs (memSet_wf a b h) (by omega)]; simp [memGet_memSet_same a b h]
    | succ i =>
      have := ih (m := memSet m a b) (a := a + 1) (i := i) (memSet_wf a b h) (by simpa using hi)
      simpa [Nat.add_assoc, Nat.add_comm 1] using this

/-- The n bytes just written. -/
theorem memBytes_memPut {m : Memory} (a : Nat) (bs : List Byte) (h : Memory.wf m = true) :
    memBytes (memPut m a bs) a bs.length = bs := by
  induction bs generalizing m a with
  | nil => rfl
  | cons b bs ih =>
    simp only [List.length_cons, memBytes, memPut]
    rw [ih (a + 1) (memSet_wf a b h), memGet_memPut_other bs (memSet_wf a b h) (by omega), memGet_memSet_same a b h]

/-- A store of one byte keeps the canonical form. -/
theorem State.putByte_wf (a : Nat) (b : Byte) {s : State} (h : Memory.wf s.mem = true) : Memory.wf (s.putByte a b).mem = true := by
  unfold State.putByte
  split
  · exact memSet_wf _ _ h
  · exact memSet_wf _ _ h
  · exact memPut_wf _ _ h
  · exact memSet_wf _ _ h

/-- A store of consecutive bytes keeps the canonical form. -/
theorem State.putBytes_wf (a : Nat) (bs : List Byte) {s : State} (h : Memory.wf s.mem = true) :
    Memory.wf (State.putBytes a bs s).mem = true := by
  induction bs generalizing a s with
  | nil => exact h
  | cons b bs ih => exact ih _ (s.putByte_wf a b h)

/-- Healing a granule changes no byte. -/
theorem State.healGranule_mem (lo n g : Nat) (s : State) : (s.healGranule lo n g).mem = s.mem := by
  unfold State.healGranule
  repeat' split
  all_goals rfl

/-- A counted loop keeps what each of its calls keeps. -/
theorem forUpTo_keeps {α : Type} {P : α → Prop} {f : Nat → α → α} (hf : ∀ i a, P a → P (f i a)) :
    ∀ n a, P a → P (forUpTo n f a)
  | 0, _, h => h
  | n + 1, a, h => hf n _ (forUpTo_keeps hf n a h)

/-- A fold keeps what each of its steps keeps. -/
theorem foldl_keeps {α β : Type} {P : α → Prop} {f : α → β → α} (hf : ∀ a b, P a → P (f a b)) :
    ∀ (l : List β) a, P a → P (l.foldl f a)
  | [], _, h => h
  | b :: l, a, h => foldl_keeps hf l (f a b) (hf a b h)

/-- Recording a bank changes no byte. -/
theorem State.setBank_mem (b : Bank) (s : State) : (s.setBank b).mem = s.mem := rfl

/-- An access of a bank changes no byte. -/
theorem State.hbmAccess_mem (pa : Nat) (s : State) : (s.hbmAccess pa).mem = s.mem := by
  simp only [State.hbmAccess, State.setBank_mem]
  split <;> rfl

/-- Filling a line changes no byte. -/
theorem State.l2Fill_mem (pa : Nat) (s : State) : (s.l2Fill pa).mem = s.mem := by
  simp only [State.l2Fill]
  split
  · rfl
  · split
    · exact s.hbmAccess_mem pa
    · simp only [State.onUnc]
      split
      · split
        · rw [State.hbmAccess_mem, State.hbmAccess_mem]
        · exact s.hbmAccess_mem pa
      · exact s.hbmAccess_mem pa

/-- Touching a line changes no byte. -/
theorem State.l2Touch_mem (stream : Bool) (a : Nat) (s : State) : (s.l2Touch stream a).mem = s.mem := by
  unfold State.l2Touch
  split
  · split
    · rfl
    · exact s.hbmAccess_mem a
  · exact s.l2Fill_mem a

/-- Touching the lines of an access changes no byte. -/
theorem State.l2Span_mem (stream : Bool) (a n : Nat) (s : State) : (s.l2Span stream a n).mem = s.mem :=
  forUpTo_keeps (P := fun u : State => u.mem = s.mem) (fun _ _ hu => by rw [State.l2Touch_mem]; exact hu) _ _ rfl

/-- A write through the L2 changes no byte before it is performed. -/
theorem State.l2Write_mem (stream : Bool) (a n : Nat) (s : State) : (s.l2Write stream a n).mem = s.mem :=
  s.l2Span_mem stream a n

/-- Healing changes no byte. -/
theorem State.heal_mem (a n : Nat) (s : State) : (s.heal a n).mem = s.mem := by
  unfold State.heal
  split
  · exact forUpTo_keeps (P := fun u : State => u.mem = s.mem) (fun _ _ hu => by rw [State.healGranule_mem]; exact hu) _ _ rfl
  · exact forUpTo_keeps (P := fun u : State => u.mem = s.mem) (fun _ _ hu => by rw [State.healGranule_mem]; exact hu) _ _ rfl
  · exact foldl_keeps (P := fun u : State => u.mem = s.mem) (fun _ _ hu => by rw [State.healGranule_mem]; exact hu) _ _ rfl

/-- Performing a store keeps the canonical form. -/
theorem State.performAs_wf (stream : Bool) (a : Nat) (bs : List Byte) {s : State} (h : Memory.wf s.mem = true) :
    Memory.wf (s.performAs stream a bs).mem = true := by
  unfold State.performAs
  split
  · exact h
  · exact State.putBytes_wf _ _ (by rw [State.heal_mem, State.l2Write_mem]; exact h)

/-- Performing a store keeps the canonical form. -/
theorem State.perform_wf (a : Nat) (bs : List Byte) {s : State} (h : Memory.wf s.mem = true) :
    Memory.wf (s.perform a bs).mem = true := s.performAs_wf false a bs h

/-- A line already seen under a key's pair changes nothing when it is seen under it again (14 R413). -/
theorem State.keyLine_same {s : State} {key line : Nat} (h : s.linePair line = s.pairAt key) : s.keyLine key line = s := if_pos (.inl h)

/-- A line of shared store is never encrypted (07 R167). -/
theorem State.keyLine_shared {s : State} {key line : Nat} (h : 2 ^ 32 ≤ line) : s.keyLine key line = s := if_pos (.inr h)

/-- Seeing a line under a key keeps the canonical form. -/
theorem State.keyLine_wf (key line : Nat) {s : State} (h : Memory.wf s.mem = true) : Memory.wf (s.keyLine key line).mem = true := by
  unfold State.keyLine
  split
  · exact h
  · exact memPut_wf _ _ h

/-- Seeing bytes under a key keeps the canonical form. -/
theorem State.keyed_wf (key a n : Nat) {s : State} (h : Memory.wf s.mem = true) : Memory.wf (s.keyed key a n).mem = true :=
  foldl_keeps (P := fun u : State => Memory.wf u.mem = true) (fun u _ hu => u.keyLine_wf key _ hu) _ _ h

/-- Where no line is encrypted, seeing bytes as plaintext changes nothing (14 R413). -/
theorem State.keyed_plain {s : State} (a n : Nat) (h : s.lineKeys = []) : s.keyed 0 a n = s :=
  foldl_keeps (P := fun u : State => u = s)
    (fun u k hu => by rw [hu]; exact State.keyLine_same (by simp [State.linePair, State.pairAt, h])) _ _ rfl

end

end Sys2Proof.Machine
end

