-- ==== Sys2Proof/Laws/PerInstr.lean ====
section
/-! SUPPORT. Encoding and decoding agree: the fields of packed words, and the round trip of every constructor
(spec/02_encoding_and_assembly.md R28, R31 to R34). -/

open Sys2Proof

section
-- One thread: each of the many small theorems below would otherwise be a task of its own.
set_option Elab.async false

/-! ### Bytes -/

/-- The little-endian bytes of a number that fits give it back. -/
theorem Sys2Proof.Laws.leNat_leBytes (n x : Nat) : leNat (leBytes n x) = x % 256 ^ n := by
  induction n generalizing x with
  | zero => simp [leBytes, leNat, Nat.mod_one]
  | succ n ih =>
    have h : 256 ^ (n + 1) = 256 * 256 ^ n := Nat.pow_succ'
    have h8 : (BitVec.ofNat 8 x).toNat = x % 256 := BitVec.toNat_ofNat x 8
    rw [leBytes, leNat, ih, h8, h, Nat.mod_mul]

/-- There are n little-endian bytes. -/
theorem Sys2Proof.Laws.length_leBytes (n x : Nat) : (leBytes n x).length = n := by
  induction n generalizing x with
  | zero => rfl
  | succ n ih => simp [leBytes, ih]

/-! ### Fields of packed words -/

/-- A field of a 32-bit word laid out with these widths. -/
theorem Sys2Proof.Laws.w32_1_6_25_at_0_13 (x1 : BitVec 1) (x2 : BitVec 6) (x3 : BitVec 25) :
    (x1 ++ x2 ++ x3 : BitVec 32).extractLsb' 0 13 = x3.extractLsb' 0 13 :=
  (BitVec.extractLsb'_append_eq_of_add_le (xhi := x1 ++ x2) (xlo := x3) (by decide)).trans <|
  rfl

/-- A field of a 32-bit word laid out with these widths. -/
theorem Sys2Proof.Laws.w32_1_6_25_at_0_25 (x1 : BitVec 1) (x2 : BitVec 6) (x3 : BitVec 25) :
    (x1 ++ x2 ++ x3 : BitVec 32).extractLsb' 0 25 = x3 :=
  (BitVec.extractLsb'_append_eq_of_add_le (xhi := x1 ++ x2) (xlo := x3) (by decide)).trans <|
  BitVec.extractLsb'_eq_self

/-- A field of a 32-bit word laid out with these widths. -/
theorem Sys2Proof.Laws.w32_1_6_25_at_0_7 (x1 : BitVec 1) (x2 : BitVec 6) (x3 : BitVec 25) :
    (x1 ++ x2 ++ x3 : BitVec 32).extractLsb' 0 7 = x3.extractLsb' 0 7 :=
  (BitVec.extractLsb'_append_eq_of_add_le (xhi := x1 ++ x2) (xlo := x3) (by decide)).trans <|
  rfl

/-- A field of a 32-bit word laid out with these widths. -/
theorem Sys2Proof.Laws.w32_1_6_25_at_13_12 (x1 : BitVec 1) (x2 : BitVec 6) (x3 : BitVec 25) :
    (x1 ++ x2 ++ x3 : BitVec 32).extractLsb' 13 12 = x3.extractLsb' 13 12 :=
  (BitVec.extractLsb'_append_eq_of_add_le (xhi := x1 ++ x2) (xlo := x3) (by decide)).trans <|
  rfl

/-- A field of a 32-bit word laid out with these widths. -/
theorem Sys2Proof.Laws.w32_1_6_25_at_25_6 (x1 : BitVec 1) (x2 : BitVec 6) (x3 : BitVec 25) :
    (x1 ++ x2 ++ x3 : BitVec 32).extractLsb' 25 6 = x2 :=
  (BitVec.extractLsb'_append_eq_of_le (xhi := x1 ++ x2) (xlo := x3) (by decide)).trans <|
  (BitVec.extractLsb'_append_eq_of_add_le (xhi := x1) (xlo := x2) (by decide)).trans <|
  BitVec.extractLsb'_eq_self

/-- A field of a 32-bit word laid out with these widths. -/
theorem Sys2Proof.Laws.w32_1_6_25_at_31_1 (x1 : BitVec 1) (x2 : BitVec 6) (x3 : BitVec 25) :
    (x1 ++ x2 ++ x3 : BitVec 32).extractLsb' 31 1 = x1 :=
  (BitVec.extractLsb'_append_eq_of_le (xhi := x1 ++ x2) (xlo := x3) (by decide)).trans <|
  (BitVec.extractLsb'_append_eq_of_le (xhi := x1) (xlo := x2) (by decide)).trans <|
  BitVec.extractLsb'_eq_self

/-- A field of a 32-bit word laid out with these widths. -/
theorem Sys2Proof.Laws.w32_1_6_25_at_7_18 (x1 : BitVec 1) (x2 : BitVec 6) (x3 : BitVec 25) :
    (x1 ++ x2 ++ x3 : BitVec 32).extractLsb' 7 18 = x3.extractLsb' 7 18 :=
  (BitVec.extractLsb'_append_eq_of_add_le (xhi := x1 ++ x2) (xlo := x3) (by decide)).trans <|
  rfl

/-- A field of a 32-bit word laid out with these widths. -/
theorem Sys2Proof.Laws.w32_1_6_5_1_19_at_0_7 (x1 : BitVec 1) (x2 : BitVec 6) (x3 : BitVec 5) (x4 : BitVec 1) (x5 : BitVec 19) :
    (x1 ++ x2 ++ x3 ++ x4 ++ x5 : BitVec 32).extractLsb' 0 7 = x5.extractLsb' 0 7 :=
  (BitVec.extractLsb'_append_eq_of_add_le (xhi := x1 ++ x2 ++ x3 ++ x4) (xlo := x5) (by decide)).trans <|
  rfl

/-- A field of a 32-bit word laid out with these widths. -/
theorem Sys2Proof.Laws.w32_1_6_5_1_19_at_19_1 (x1 : BitVec 1) (x2 : BitVec 6) (x3 : BitVec 5) (x4 : BitVec 1) (x5 : BitVec 19) :
    (x1 ++ x2 ++ x3 ++ x4 ++ x5 : BitVec 32).extractLsb' 19 1 = x4 :=
  (BitVec.extractLsb'_append_eq_of_le (xhi := x1 ++ x2 ++ x3 ++ x4) (xlo := x5) (by decide)).trans <|
  (BitVec.extractLsb'_append_eq_of_add_le (xhi := x1 ++ x2 ++ x3) (xlo := x4) (by decide)).trans <|
  BitVec.extractLsb'_eq_self

/-- A field of a 32-bit word laid out with these widths. -/
theorem Sys2Proof.Laws.w32_1_6_5_1_19_at_20_5 (x1 : BitVec 1) (x2 : BitVec 6) (x3 : BitVec 5) (x4 : BitVec 1) (x5 : BitVec 19) :
    (x1 ++ x2 ++ x3 ++ x4 ++ x5 : BitVec 32).extractLsb' 20 5 = x3 :=
  (BitVec.extractLsb'_append_eq_of_le (xhi := x1 ++ x2 ++ x3 ++ x4) (xlo := x5) (by decide)).trans <|
  (BitVec.extractLsb'_append_eq_of_le (xhi := x1 ++ x2 ++ x3) (xlo := x4) (by decide)).trans <|
  (BitVec.extractLsb'_append_eq_of_add_le (xhi := x1 ++ x2) (xlo := x3) (by decide)).trans <|
  BitVec.extractLsb'_eq_self

/-- A field of a 32-bit word laid out with these widths. -/
theorem Sys2Proof.Laws.w32_1_6_5_1_19_at_25_6 (x1 : BitVec 1) (x2 : BitVec 6) (x3 : BitVec 5) (x4 : BitVec 1) (x5 : BitVec 19) :
    (x1 ++ x2 ++ x3 ++ x4 ++ x5 : BitVec 32).extractLsb' 25 6 = x2 :=
  (BitVec.extractLsb'_append_eq_of_le (xhi := x1 ++ x2 ++ x3 ++ x4) (xlo := x5) (by decide)).trans <|
  (BitVec.extractLsb'_append_eq_of_le (xhi := x1 ++ x2 ++ x3) (xlo := x4) (by decide)).trans <|
  (BitVec.extractLsb'_append_eq_of_le (xhi := x1 ++ x2) (xlo := x3) (by decide)).trans <|
  (BitVec.extractLsb'_append_eq_of_add_le (xhi := x1) (xlo := x2) (by decide)).trans <|
  BitVec.extractLsb'_eq_self

/-- A field of a 32-bit word laid out with these widths. -/
theorem Sys2Proof.Laws.w32_1_6_5_1_19_at_31_1 (x1 : BitVec 1) (x2 : BitVec 6) (x3 : BitVec 5) (x4 : BitVec 1) (x5 : BitVec 19) :
    (x1 ++ x2 ++ x3 ++ x4 ++ x5 : BitVec 32).extractLsb' 31 1 = x1 :=
  (BitVec.extractLsb'_append_eq_of_le (xhi := x1 ++ x2 ++ x3 ++ x4) (xlo := x5) (by decide)).trans <|
  (BitVec.extractLsb'_append_eq_of_le (xhi := x1 ++ x2 ++ x3) (xlo := x4) (by decide)).trans <|
  (BitVec.extractLsb'_append_eq_of_le (xhi := x1 ++ x2) (xlo := x3) (by decide)).trans <|
  (BitVec.extractLsb'_append_eq_of_le (xhi := x1) (xlo := x2) (by decide)).trans <|
  BitVec.extractLsb'_eq_self

/-- A field of a 32-bit word laid out with these widths. -/
theorem Sys2Proof.Laws.w32_1_6_5_1_19_at_7_12 (x1 : BitVec 1) (x2 : BitVec 6) (x3 : BitVec 5) (x4 : BitVec 1) (x5 : BitVec 19) :
    (x1 ++ x2 ++ x3 ++ x4 ++ x5 : BitVec 32).extractLsb' 7 12 = x5.extractLsb' 7 12 :=
  (BitVec.extractLsb'_append_eq_of_add_le (xhi := x1 ++ x2 ++ x3 ++ x4) (xlo := x5) (by decide)).trans <|
  rfl

/-- A field of a 32-bit word laid out with these widths. -/
theorem Sys2Proof.Laws.w32_1_6_5_1_6_13_at_0_13 (x1 : BitVec 1) (x2 : BitVec 6) (x3 : BitVec 5) (x4 : BitVec 1) (x5 : BitVec 6) (x6 : BitVec 13) :
    (x1 ++ x2 ++ x3 ++ x4 ++ x5 ++ x6 : BitVec 32).extractLsb' 0 13 = x6 :=
  (BitVec.extractLsb'_append_eq_of_add_le (xhi := x1 ++ x2 ++ x3 ++ x4 ++ x5) (xlo := x6) (by decide)).trans <|
  BitVec.extractLsb'_eq_self

/-- A field of a 32-bit word laid out with these widths. -/
theorem Sys2Proof.Laws.w32_1_6_5_1_6_13_at_13_6 (x1 : BitVec 1) (x2 : BitVec 6) (x3 : BitVec 5) (x4 : BitVec 1) (x5 : BitVec 6) (x6 : BitVec 13) :
    (x1 ++ x2 ++ x3 ++ x4 ++ x5 ++ x6 : BitVec 32).extractLsb' 13 6 = x5 :=
  (BitVec.extractLsb'_append_eq_of_le (xhi := x1 ++ x2 ++ x3 ++ x4 ++ x5) (xlo := x6) (by decide)).trans <|
  (BitVec.extractLsb'_append_eq_of_add_le (xhi := x1 ++ x2 ++ x3 ++ x4) (xlo := x5) (by decide)).trans <|
  BitVec.extractLsb'_eq_self

/-- A field of a 32-bit word laid out with these widths. -/
theorem Sys2Proof.Laws.w32_1_6_5_1_6_13_at_19_1 (x1 : BitVec 1) (x2 : BitVec 6) (x3 : BitVec 5) (x4 : BitVec 1) (x5 : BitVec 6) (x6 : BitVec 13) :
    (x1 ++ x2 ++ x3 ++ x4 ++ x5 ++ x6 : BitVec 32).extractLsb' 19 1 = x4 :=
  (BitVec.extractLsb'_append_eq_of_le (xhi := x1 ++ x2 ++ x3 ++ x4 ++ x5) (xlo := x6) (by decide)).trans <|
  (BitVec.extractLsb'_append_eq_of_le (xhi := x1 ++ x2 ++ x3 ++ x4) (xlo := x5) (by decide)).trans <|
  (BitVec.extractLsb'_append_eq_of_add_le (xhi := x1 ++ x2 ++ x3) (xlo := x4) (by decide)).trans <|
  BitVec.extractLsb'_eq_self

/-- A field of a 32-bit word laid out with these widths. -/
theorem Sys2Proof.Laws.w32_1_6_5_1_6_13_at_20_5 (x1 : BitVec 1) (x2 : BitVec 6) (x3 : BitVec 5) (x4 : BitVec 1) (x5 : BitVec 6) (x6 : BitVec 13) :
    (x1 ++ x2 ++ x3 ++ x4 ++ x5 ++ x6 : BitVec 32).extractLsb' 20 5 = x3 :=
  (BitVec.extractLsb'_append_eq_of_le (xhi := x1 ++ x2 ++ x3 ++ x4 ++ x5) (xlo := x6) (by decide)).trans <|
  (BitVec.extractLsb'_append_eq_of_le (xhi := x1 ++ x2 ++ x3 ++ x4) (xlo := x5) (by decide)).trans <|
  (BitVec.extractLsb'_append_eq_of_le (xhi := x1 ++ x2 ++ x3) (xlo := x4) (by decide)).trans <|
  (BitVec.extractLsb'_append_eq_of_add_le (xhi := x1 ++ x2) (xlo := x3) (by decide)).trans <|
  BitVec.extractLsb'_eq_self

/-- A field of a 32-bit word laid out with these widths. -/
theorem Sys2Proof.Laws.w32_1_6_5_1_6_13_at_25_6 (x1 : BitVec 1) (x2 : BitVec 6) (x3 : BitVec 5) (x4 : BitVec 1) (x5 : BitVec 6) (x6 : BitVec 13) :
    (x1 ++ x2 ++ x3 ++ x4 ++ x5 ++ x6 : BitVec 32).extractLsb' 25 6 = x2 :=
  (BitVec.extractLsb'_append_eq_of_le (xhi := x1 ++ x2 ++ x3 ++ x4 ++ x5) (xlo := x6) (by decide)).trans <|
  (BitVec.extractLsb'_append_eq_of_le (xhi := x1 ++ x2 ++ x3 ++ x4) (xlo := x5) (by decide)).trans <|
  (BitVec.extractLsb'_append_eq_of_le (xhi := x1 ++ x2 ++ x3) (xlo := x4) (by decide)).trans <|
  (BitVec.extractLsb'_append_eq_of_le (xhi := x1 ++ x2) (xlo := x3) (by decide)).trans <|
  (BitVec.extractLsb'_append_eq_of_add_le (xhi := x1) (xlo := x2) (by decide)).trans <|
  BitVec.extractLsb'_eq_self

/-- A field of a 32-bit word laid out with these widths. -/
theorem Sys2Proof.Laws.w32_1_6_5_1_6_13_at_31_1 (x1 : BitVec 1) (x2 : BitVec 6) (x3 : BitVec 5) (x4 : BitVec 1) (x5 : BitVec 6) (x6 : BitVec 13) :
    (x1 ++ x2 ++ x3 ++ x4 ++ x5 ++ x6 : BitVec 32).extractLsb' 31 1 = x1 :=
  (BitVec.extractLsb'_append_eq_of_le (xhi := x1 ++ x2 ++ x3 ++ x4 ++ x5) (xlo := x6) (by decide)).trans <|
  (BitVec.extractLsb'_append_eq_of_le (xhi := x1 ++ x2 ++ x3 ++ x4) (xlo := x5) (by decide)).trans <|
  (BitVec.extractLsb'_append_eq_of_le (xhi := x1 ++ x2 ++ x3) (xlo := x4) (by decide)).trans <|
  (BitVec.extractLsb'_append_eq_of_le (xhi := x1 ++ x2) (xlo := x3) (by decide)).trans <|
  (BitVec.extractLsb'_append_eq_of_le (xhi := x1) (xlo := x2) (by decide)).trans <|
  BitVec.extractLsb'_eq_self

/-- A field of a 32-bit word laid out with these widths. -/
theorem Sys2Proof.Laws.w32_1_6_6_14_3_2_at_0_2 (x1 : BitVec 1) (x2 : BitVec 6) (x3 : BitVec 6) (x4 : BitVec 14) (x5 : BitVec 3) (x6 : BitVec 2) :
    (x1 ++ x2 ++ x3 ++ x4 ++ x5 ++ x6 : BitVec 32).extractLsb' 0 2 = x6 :=
  (BitVec.extractLsb'_append_eq_of_add_le (xhi := x1 ++ x2 ++ x3 ++ x4 ++ x5) (xlo := x6) (by decide)).trans <|
  BitVec.extractLsb'_eq_self

/-- A field of a 32-bit word laid out with these widths. -/
theorem Sys2Proof.Laws.w32_1_6_6_14_3_2_at_19_6 (x1 : BitVec 1) (x2 : BitVec 6) (x3 : BitVec 6) (x4 : BitVec 14) (x5 : BitVec 3) (x6 : BitVec 2) :
    (x1 ++ x2 ++ x3 ++ x4 ++ x5 ++ x6 : BitVec 32).extractLsb' 19 6 = x3 :=
  (BitVec.extractLsb'_append_eq_of_le (xhi := x1 ++ x2 ++ x3 ++ x4 ++ x5) (xlo := x6) (by decide)).trans <|
  (BitVec.extractLsb'_append_eq_of_le (xhi := x1 ++ x2 ++ x3 ++ x4) (xlo := x5) (by decide)).trans <|
  (BitVec.extractLsb'_append_eq_of_le (xhi := x1 ++ x2 ++ x3) (xlo := x4) (by decide)).trans <|
  (BitVec.extractLsb'_append_eq_of_add_le (xhi := x1 ++ x2) (xlo := x3) (by decide)).trans <|
  BitVec.extractLsb'_eq_self

/-- A field of a 32-bit word laid out with these widths. -/
theorem Sys2Proof.Laws.w32_1_6_6_14_3_2_at_25_6 (x1 : BitVec 1) (x2 : BitVec 6) (x3 : BitVec 6) (x4 : BitVec 14) (x5 : BitVec 3) (x6 : BitVec 2) :
    (x1 ++ x2 ++ x3 ++ x4 ++ x5 ++ x6 : BitVec 32).extractLsb' 25 6 = x2 :=
  (BitVec.extractLsb'_append_eq_of_le (xhi := x1 ++ x2 ++ x3 ++ x4 ++ x5) (xlo := x6) (by decide)).trans <|
  (BitVec.extractLsb'_append_eq_of_le (xhi := x1 ++ x2 ++ x3 ++ x4) (xlo := x5) (by decide)).trans <|
  (BitVec.extractLsb'_append_eq_of_le (xhi := x1 ++ x2 ++ x3) (xlo := x4) (by decide)).trans <|
  (BitVec.extractLsb'_append_eq_of_le (xhi := x1 ++ x2) (xlo := x3) (by decide)).trans <|
  (BitVec.extractLsb'_append_eq_of_add_le (xhi := x1) (xlo := x2) (by decide)).trans <|
  BitVec.extractLsb'_eq_self

/-- A field of a 32-bit word laid out with these widths. -/
theorem Sys2Proof.Laws.w32_1_6_6_14_3_2_at_2_3 (x1 : BitVec 1) (x2 : BitVec 6) (x3 : BitVec 6) (x4 : BitVec 14) (x5 : BitVec 3) (x6 : BitVec 2) :
    (x1 ++ x2 ++ x3 ++ x4 ++ x5 ++ x6 : BitVec 32).extractLsb' 2 3 = x5 :=
  (BitVec.extractLsb'_append_eq_of_le (xhi := x1 ++ x2 ++ x3 ++ x4 ++ x5) (xlo := x6) (by decide)).trans <|
  (BitVec.extractLsb'_append_eq_of_add_le (xhi := x1 ++ x2 ++ x3 ++ x4) (xlo := x5) (by decide)).trans <|
  BitVec.extractLsb'_eq_self

/-- A field of a 32-bit word laid out with these widths. -/
theorem Sys2Proof.Laws.w32_1_6_6_14_3_2_at_31_1 (x1 : BitVec 1) (x2 : BitVec 6) (x3 : BitVec 6) (x4 : BitVec 14) (x5 : BitVec 3) (x6 : BitVec 2) :
    (x1 ++ x2 ++ x3 ++ x4 ++ x5 ++ x6 : BitVec 32).extractLsb' 31 1 = x1 :=
  (BitVec.extractLsb'_append_eq_of_le (xhi := x1 ++ x2 ++ x3 ++ x4 ++ x5) (xlo := x6) (by decide)).trans <|
  (BitVec.extractLsb'_append_eq_of_le (xhi := x1 ++ x2 ++ x3 ++ x4) (xlo := x5) (by decide)).trans <|
  (BitVec.extractLsb'_append_eq_of_le (xhi := x1 ++ x2 ++ x3) (xlo := x4) (by decide)).trans <|
  (BitVec.extractLsb'_append_eq_of_le (xhi := x1 ++ x2) (xlo := x3) (by decide)).trans <|
  (BitVec.extractLsb'_append_eq_of_le (xhi := x1) (xlo := x2) (by decide)).trans <|
  BitVec.extractLsb'_eq_self

/-- A field of a 32-bit word laid out with these widths. -/
theorem Sys2Proof.Laws.w32_1_6_6_14_3_2_at_5_14 (x1 : BitVec 1) (x2 : BitVec 6) (x3 : BitVec 6) (x4 : BitVec 14) (x5 : BitVec 3) (x6 : BitVec 2) :
    (x1 ++ x2 ++ x3 ++ x4 ++ x5 ++ x6 : BitVec 32).extractLsb' 5 14 = x4 :=
  (BitVec.extractLsb'_append_eq_of_le (xhi := x1 ++ x2 ++ x3 ++ x4 ++ x5) (xlo := x6) (by decide)).trans <|
  (BitVec.extractLsb'_append_eq_of_le (xhi := x1 ++ x2 ++ x3 ++ x4) (xlo := x5) (by decide)).trans <|
  (BitVec.extractLsb'_append_eq_of_add_le (xhi := x1 ++ x2 ++ x3) (xlo := x4) (by decide)).trans <|
  BitVec.extractLsb'_eq_self

/-- A field of a 32-bit word laid out with these widths. -/
theorem Sys2Proof.Laws.w32_1_6_6_19_at_0_19 (x1 : BitVec 1) (x2 : BitVec 6) (x3 : BitVec 6) (x4 : BitVec 19) :
    (x1 ++ x2 ++ x3 ++ x4 : BitVec 32).extractLsb' 0 19 = x4 :=
  (BitVec.extractLsb'_append_eq_of_add_le (xhi := x1 ++ x2 ++ x3) (xlo := x4) (by decide)).trans <|
  BitVec.extractLsb'_eq_self

/-- A field of a 32-bit word laid out with these widths. -/
theorem Sys2Proof.Laws.w32_1_6_6_19_at_19_6 (x1 : BitVec 1) (x2 : BitVec 6) (x3 : BitVec 6) (x4 : BitVec 19) :
    (x1 ++ x2 ++ x3 ++ x4 : BitVec 32).extractLsb' 19 6 = x3 :=
  (BitVec.extractLsb'_append_eq_of_le (xhi := x1 ++ x2 ++ x3) (xlo := x4) (by decide)).trans <|
  (BitVec.extractLsb'_append_eq_of_add_le (xhi := x1 ++ x2) (xlo := x3) (by decide)).trans <|
  BitVec.extractLsb'_eq_self

/-- A field of a 32-bit word laid out with these widths. -/
theorem Sys2Proof.Laws.w32_1_6_6_19_at_25_6 (x1 : BitVec 1) (x2 : BitVec 6) (x3 : BitVec 6) (x4 : BitVec 19) :
    (x1 ++ x2 ++ x3 ++ x4 : BitVec 32).extractLsb' 25 6 = x2 :=
  (BitVec.extractLsb'_append_eq_of_le (xhi := x1 ++ x2 ++ x3) (xlo := x4) (by decide)).trans <|
  (BitVec.extractLsb'_append_eq_of_le (xhi := x1 ++ x2) (xlo := x3) (by decide)).trans <|
  (BitVec.extractLsb'_append_eq_of_add_le (xhi := x1) (xlo := x2) (by decide)).trans <|
  BitVec.extractLsb'_eq_self

/-- A field of a 32-bit word laid out with these widths. -/
theorem Sys2Proof.Laws.w32_1_6_6_19_at_31_1 (x1 : BitVec 1) (x2 : BitVec 6) (x3 : BitVec 6) (x4 : BitVec 19) :
    (x1 ++ x2 ++ x3 ++ x4 : BitVec 32).extractLsb' 31 1 = x1 :=
  (BitVec.extractLsb'_append_eq_of_le (xhi := x1 ++ x2 ++ x3) (xlo := x4) (by decide)).trans <|
  (BitVec.extractLsb'_append_eq_of_le (xhi := x1 ++ x2) (xlo := x3) (by decide)).trans <|
  (BitVec.extractLsb'_append_eq_of_le (xhi := x1) (xlo := x2) (by decide)).trans <|
  BitVec.extractLsb'_eq_self

/-- A field of a 32-bit word laid out with these widths. -/
theorem Sys2Proof.Laws.w32_1_6_6_6_13_at_0_13 (x1 : BitVec 1) (x2 : BitVec 6) (x3 : BitVec 6) (x4 : BitVec 6) (x5 : BitVec 13) :
    (x1 ++ x2 ++ x3 ++ x4 ++ x5 : BitVec 32).extractLsb' 0 13 = x5 :=
  (BitVec.extractLsb'_append_eq_of_add_le (xhi := x1 ++ x2 ++ x3 ++ x4) (xlo := x5) (by decide)).trans <|
  BitVec.extractLsb'_eq_self

/-- A field of a 32-bit word laid out with these widths. -/
theorem Sys2Proof.Laws.w32_1_6_6_6_13_at_0_4 (x1 : BitVec 1) (x2 : BitVec 6) (x3 : BitVec 6) (x4 : BitVec 6) (x5 : BitVec 13) :
    (x1 ++ x2 ++ x3 ++ x4 ++ x5 : BitVec 32).extractLsb' 0 4 = x5.extractLsb' 0 4 :=
  (BitVec.extractLsb'_append_eq_of_add_le (xhi := x1 ++ x2 ++ x3 ++ x4) (xlo := x5) (by decide)).trans <|
  rfl

/-- A field of a 32-bit word laid out with these widths. -/
theorem Sys2Proof.Laws.w32_1_6_6_6_13_at_0_7 (x1 : BitVec 1) (x2 : BitVec 6) (x3 : BitVec 6) (x4 : BitVec 6) (x5 : BitVec 13) :
    (x1 ++ x2 ++ x3 ++ x4 ++ x5 : BitVec 32).extractLsb' 0 7 = x5.extractLsb' 0 7 :=
  (BitVec.extractLsb'_append_eq_of_add_le (xhi := x1 ++ x2 ++ x3 ++ x4) (xlo := x5) (by decide)).trans <|
  rfl

/-- A field of a 32-bit word laid out with these widths. -/
theorem Sys2Proof.Laws.w32_1_6_6_6_13_at_13_6 (x1 : BitVec 1) (x2 : BitVec 6) (x3 : BitVec 6) (x4 : BitVec 6) (x5 : BitVec 13) :
    (x1 ++ x2 ++ x3 ++ x4 ++ x5 : BitVec 32).extractLsb' 13 6 = x4 :=
  (BitVec.extractLsb'_append_eq_of_le (xhi := x1 ++ x2 ++ x3 ++ x4) (xlo := x5) (by decide)).trans <|
  (BitVec.extractLsb'_append_eq_of_add_le (xhi := x1 ++ x2 ++ x3) (xlo := x4) (by decide)).trans <|
  BitVec.extractLsb'_eq_self

/-- A field of a 32-bit word laid out with these widths. -/
theorem Sys2Proof.Laws.w32_1_6_6_6_13_at_19_6 (x1 : BitVec 1) (x2 : BitVec 6) (x3 : BitVec 6) (x4 : BitVec 6) (x5 : BitVec 13) :
    (x1 ++ x2 ++ x3 ++ x4 ++ x5 : BitVec 32).extractLsb' 19 6 = x3 :=
  (BitVec.extractLsb'_append_eq_of_le (xhi := x1 ++ x2 ++ x3 ++ x4) (xlo := x5) (by decide)).trans <|
  (BitVec.extractLsb'_append_eq_of_le (xhi := x1 ++ x2 ++ x3) (xlo := x4) (by decide)).trans <|
  (BitVec.extractLsb'_append_eq_of_add_le (xhi := x1 ++ x2) (xlo := x3) (by decide)).trans <|
  BitVec.extractLsb'_eq_self

/-- A field of a 32-bit word laid out with these widths. -/
theorem Sys2Proof.Laws.w32_1_6_6_6_13_at_25_6 (x1 : BitVec 1) (x2 : BitVec 6) (x3 : BitVec 6) (x4 : BitVec 6) (x5 : BitVec 13) :
    (x1 ++ x2 ++ x3 ++ x4 ++ x5 : BitVec 32).extractLsb' 25 6 = x2 :=
  (BitVec.extractLsb'_append_eq_of_le (xhi := x1 ++ x2 ++ x3 ++ x4) (xlo := x5) (by decide)).trans <|
  (BitVec.extractLsb'_append_eq_of_le (xhi := x1 ++ x2 ++ x3) (xlo := x4) (by decide)).trans <|
  (BitVec.extractLsb'_append_eq_of_le (xhi := x1 ++ x2) (xlo := x3) (by decide)).trans <|
  (BitVec.extractLsb'_append_eq_of_add_le (xhi := x1) (xlo := x2) (by decide)).trans <|
  BitVec.extractLsb'_eq_self

/-- A field of a 32-bit word laid out with these widths. -/
theorem Sys2Proof.Laws.w32_1_6_6_6_13_at_31_1 (x1 : BitVec 1) (x2 : BitVec 6) (x3 : BitVec 6) (x4 : BitVec 6) (x5 : BitVec 13) :
    (x1 ++ x2 ++ x3 ++ x4 ++ x5 : BitVec 32).extractLsb' 31 1 = x1 :=
  (BitVec.extractLsb'_append_eq_of_le (xhi := x1 ++ x2 ++ x3 ++ x4) (xlo := x5) (by decide)).trans <|
  (BitVec.extractLsb'_append_eq_of_le (xhi := x1 ++ x2 ++ x3) (xlo := x4) (by decide)).trans <|
  (BitVec.extractLsb'_append_eq_of_le (xhi := x1 ++ x2) (xlo := x3) (by decide)).trans <|
  (BitVec.extractLsb'_append_eq_of_le (xhi := x1) (xlo := x2) (by decide)).trans <|
  BitVec.extractLsb'_eq_self

/-- A field of a 32-bit word laid out with these widths. -/
theorem Sys2Proof.Laws.w32_1_6_6_6_13_at_4_9 (x1 : BitVec 1) (x2 : BitVec 6) (x3 : BitVec 6) (x4 : BitVec 6) (x5 : BitVec 13) :
    (x1 ++ x2 ++ x3 ++ x4 ++ x5 : BitVec 32).extractLsb' 4 9 = x5.extractLsb' 4 9 :=
  (BitVec.extractLsb'_append_eq_of_add_le (xhi := x1 ++ x2 ++ x3 ++ x4) (xlo := x5) (by decide)).trans <|
  rfl

/-- A field of a 32-bit word laid out with these widths. -/
theorem Sys2Proof.Laws.w32_1_6_6_6_13_at_7_6 (x1 : BitVec 1) (x2 : BitVec 6) (x3 : BitVec 6) (x4 : BitVec 6) (x5 : BitVec 13) :
    (x1 ++ x2 ++ x3 ++ x4 ++ x5 : BitVec 32).extractLsb' 7 6 = x5.extractLsb' 7 6 :=
  (BitVec.extractLsb'_append_eq_of_add_le (xhi := x1 ++ x2 ++ x3 ++ x4) (xlo := x5) (by decide)).trans <|
  rfl

/-- A field of a 32-bit word laid out with these widths. -/
theorem Sys2Proof.Laws.w32_1_6_6_6_1_12_at_0_12 (x1 : BitVec 1) (x2 : BitVec 6) (x3 : BitVec 6) (x4 : BitVec 6) (x5 : BitVec 1) (x6 : BitVec 12) :
    (x1 ++ x2 ++ x3 ++ x4 ++ x5 ++ x6 : BitVec 32).extractLsb' 0 12 = x6 :=
  (BitVec.extractLsb'_append_eq_of_add_le (xhi := x1 ++ x2 ++ x3 ++ x4 ++ x5) (xlo := x6) (by decide)).trans <|
  BitVec.extractLsb'_eq_self

/-- A field of a 32-bit word laid out with these widths. -/
theorem Sys2Proof.Laws.w32_1_6_6_6_1_12_at_12_1 (x1 : BitVec 1) (x2 : BitVec 6) (x3 : BitVec 6) (x4 : BitVec 6) (x5 : BitVec 1) (x6 : BitVec 12) :
    (x1 ++ x2 ++ x3 ++ x4 ++ x5 ++ x6 : BitVec 32).extractLsb' 12 1 = x5 :=
  (BitVec.extractLsb'_append_eq_of_le (xhi := x1 ++ x2 ++ x3 ++ x4 ++ x5) (xlo := x6) (by decide)).trans <|
  (BitVec.extractLsb'_append_eq_of_add_le (xhi := x1 ++ x2 ++ x3 ++ x4) (xlo := x5) (by decide)).trans <|
  BitVec.extractLsb'_eq_self

/-- A field of a 32-bit word laid out with these widths. -/
theorem Sys2Proof.Laws.w32_1_6_6_6_1_12_at_13_6 (x1 : BitVec 1) (x2 : BitVec 6) (x3 : BitVec 6) (x4 : BitVec 6) (x5 : BitVec 1) (x6 : BitVec 12) :
    (x1 ++ x2 ++ x3 ++ x4 ++ x5 ++ x6 : BitVec 32).extractLsb' 13 6 = x4 :=
  (BitVec.extractLsb'_append_eq_of_le (xhi := x1 ++ x2 ++ x3 ++ x4 ++ x5) (xlo := x6) (by decide)).trans <|
  (BitVec.extractLsb'_append_eq_of_le (xhi := x1 ++ x2 ++ x3 ++ x4) (xlo := x5) (by decide)).trans <|
  (BitVec.extractLsb'_append_eq_of_add_le (xhi := x1 ++ x2 ++ x3) (xlo := x4) (by decide)).trans <|
  BitVec.extractLsb'_eq_self

/-- A field of a 32-bit word laid out with these widths. -/
theorem Sys2Proof.Laws.w32_1_6_6_6_1_12_at_19_6 (x1 : BitVec 1) (x2 : BitVec 6) (x3 : BitVec 6) (x4 : BitVec 6) (x5 : BitVec 1) (x6 : BitVec 12) :
    (x1 ++ x2 ++ x3 ++ x4 ++ x5 ++ x6 : BitVec 32).extractLsb' 19 6 = x3 :=
  (BitVec.extractLsb'_append_eq_of_le (xhi := x1 ++ x2 ++ x3 ++ x4 ++ x5) (xlo := x6) (by decide)).trans <|
  (BitVec.extractLsb'_append_eq_of_le (xhi := x1 ++ x2 ++ x3 ++ x4) (xlo := x5) (by decide)).trans <|
  (BitVec.extractLsb'_append_eq_of_le (xhi := x1 ++ x2 ++ x3) (xlo := x4) (by decide)).trans <|
  (BitVec.extractLsb'_append_eq_of_add_le (xhi := x1 ++ x2) (xlo := x3) (by decide)).trans <|
  BitVec.extractLsb'_eq_self

/-- A field of a 32-bit word laid out with these widths. -/
theorem Sys2Proof.Laws.w32_1_6_6_6_1_12_at_25_6 (x1 : BitVec 1) (x2 : BitVec 6) (x3 : BitVec 6) (x4 : BitVec 6) (x5 : BitVec 1) (x6 : BitVec 12) :
    (x1 ++ x2 ++ x3 ++ x4 ++ x5 ++ x6 : BitVec 32).extractLsb' 25 6 = x2 :=
  (BitVec.extractLsb'_append_eq_of_le (xhi := x1 ++ x2 ++ x3 ++ x4 ++ x5) (xlo := x6) (by decide)).trans <|
  (BitVec.extractLsb'_append_eq_of_le (xhi := x1 ++ x2 ++ x3 ++ x4) (xlo := x5) (by decide)).trans <|
  (BitVec.extractLsb'_append_eq_of_le (xhi := x1 ++ x2 ++ x3) (xlo := x4) (by decide)).trans <|
  (BitVec.extractLsb'_append_eq_of_le (xhi := x1 ++ x2) (xlo := x3) (by decide)).trans <|
  (BitVec.extractLsb'_append_eq_of_add_le (xhi := x1) (xlo := x2) (by decide)).trans <|
  BitVec.extractLsb'_eq_self

/-- A field of a 32-bit word laid out with these widths. -/
theorem Sys2Proof.Laws.w32_1_6_6_6_1_12_at_31_1 (x1 : BitVec 1) (x2 : BitVec 6) (x3 : BitVec 6) (x4 : BitVec 6) (x5 : BitVec 1) (x6 : BitVec 12) :
    (x1 ++ x2 ++ x3 ++ x4 ++ x5 ++ x6 : BitVec 32).extractLsb' 31 1 = x1 :=
  (BitVec.extractLsb'_append_eq_of_le (xhi := x1 ++ x2 ++ x3 ++ x4 ++ x5) (xlo := x6) (by decide)).trans <|
  (BitVec.extractLsb'_append_eq_of_le (xhi := x1 ++ x2 ++ x3 ++ x4) (xlo := x5) (by decide)).trans <|
  (BitVec.extractLsb'_append_eq_of_le (xhi := x1 ++ x2 ++ x3) (xlo := x4) (by decide)).trans <|
  (BitVec.extractLsb'_append_eq_of_le (xhi := x1 ++ x2) (xlo := x3) (by decide)).trans <|
  (BitVec.extractLsb'_append_eq_of_le (xhi := x1) (xlo := x2) (by decide)).trans <|
  BitVec.extractLsb'_eq_self

/-- A field of a 32-bit word laid out with these widths. -/
theorem Sys2Proof.Laws.w32_1_6_6_6_6_3_4_at_0_4 (x1 : BitVec 1) (x2 : BitVec 6) (x3 : BitVec 6) (x4 : BitVec 6) (x5 : BitVec 6) (x6 : BitVec 3) (x7 : BitVec 4) :
    (x1 ++ x2 ++ x3 ++ x4 ++ x5 ++ x6 ++ x7 : BitVec 32).extractLsb' 0 4 = x7 :=
  (BitVec.extractLsb'_append_eq_of_add_le (xhi := x1 ++ x2 ++ x3 ++ x4 ++ x5 ++ x6) (xlo := x7) (by decide)).trans <|
  BitVec.extractLsb'_eq_self

/-- A field of a 32-bit word laid out with these widths. -/
theorem Sys2Proof.Laws.w32_1_6_6_6_6_3_4_at_13_6 (x1 : BitVec 1) (x2 : BitVec 6) (x3 : BitVec 6) (x4 : BitVec 6) (x5 : BitVec 6) (x6 : BitVec 3) (x7 : BitVec 4) :
    (x1 ++ x2 ++ x3 ++ x4 ++ x5 ++ x6 ++ x7 : BitVec 32).extractLsb' 13 6 = x4 :=
  (BitVec.extractLsb'_append_eq_of_le (xhi := x1 ++ x2 ++ x3 ++ x4 ++ x5 ++ x6) (xlo := x7) (by decide)).trans <|
  (BitVec.extractLsb'_append_eq_of_le (xhi := x1 ++ x2 ++ x3 ++ x4 ++ x5) (xlo := x6) (by decide)).trans <|
  (BitVec.extractLsb'_append_eq_of_le (xhi := x1 ++ x2 ++ x3 ++ x4) (xlo := x5) (by decide)).trans <|
  (BitVec.extractLsb'_append_eq_of_add_le (xhi := x1 ++ x2 ++ x3) (xlo := x4) (by decide)).trans <|
  BitVec.extractLsb'_eq_self

/-- A field of a 32-bit word laid out with these widths. -/
theorem Sys2Proof.Laws.w32_1_6_6_6_6_3_4_at_19_6 (x1 : BitVec 1) (x2 : BitVec 6) (x3 : BitVec 6) (x4 : BitVec 6) (x5 : BitVec 6) (x6 : BitVec 3) (x7 : BitVec 4) :
    (x1 ++ x2 ++ x3 ++ x4 ++ x5 ++ x6 ++ x7 : BitVec 32).extractLsb' 19 6 = x3 :=
  (BitVec.extractLsb'_append_eq_of_le (xhi := x1 ++ x2 ++ x3 ++ x4 ++ x5 ++ x6) (xlo := x7) (by decide)).trans <|
  (BitVec.extractLsb'_append_eq_of_le (xhi := x1 ++ x2 ++ x3 ++ x4 ++ x5) (xlo := x6) (by decide)).trans <|
  (BitVec.extractLsb'_append_eq_of_le (xhi := x1 ++ x2 ++ x3 ++ x4) (xlo := x5) (by decide)).trans <|
  (BitVec.extractLsb'_append_eq_of_le (xhi := x1 ++ x2 ++ x3) (xlo := x4) (by decide)).trans <|
  (BitVec.extractLsb'_append_eq_of_add_le (xhi := x1 ++ x2) (xlo := x3) (by decide)).trans <|
  BitVec.extractLsb'_eq_self

/-- A field of a 32-bit word laid out with these widths. -/
theorem Sys2Proof.Laws.w32_1_6_6_6_6_3_4_at_25_6 (x1 : BitVec 1) (x2 : BitVec 6) (x3 : BitVec 6) (x4 : BitVec 6) (x5 : BitVec 6) (x6 : BitVec 3) (x7 : BitVec 4) :
    (x1 ++ x2 ++ x3 ++ x4 ++ x5 ++ x6 ++ x7 : BitVec 32).extractLsb' 25 6 = x2 :=
  (BitVec.extractLsb'_append_eq_of_le (xhi := x1 ++ x2 ++ x3 ++ x4 ++ x5 ++ x6) (xlo := x7) (by decide)).trans <|
  (BitVec.extractLsb'_append_eq_of_le (xhi := x1 ++ x2 ++ x3 ++ x4 ++ x5) (xlo := x6) (by decide)).trans <|
  (BitVec.extractLsb'_append_eq_of_le (xhi := x1 ++ x2 ++ x3 ++ x4) (xlo := x5) (by decide)).trans <|
  (BitVec.extractLsb'_append_eq_of_le (xhi := x1 ++ x2 ++ x3) (xlo := x4) (by decide)).trans <|
  (BitVec.extractLsb'_append_eq_of_le (xhi := x1 ++ x2) (xlo := x3) (by decide)).trans <|
  (BitVec.extractLsb'_append_eq_of_add_le (xhi := x1) (xlo := x2) (by decide)).trans <|
  BitVec.extractLsb'_eq_self

/-- A field of a 32-bit word laid out with these widths. -/
theorem Sys2Proof.Laws.w32_1_6_6_6_6_3_4_at_31_1 (x1 : BitVec 1) (x2 : BitVec 6) (x3 : BitVec 6) (x4 : BitVec 6) (x5 : BitVec 6) (x6 : BitVec 3) (x7 : BitVec 4) :
    (x1 ++ x2 ++ x3 ++ x4 ++ x5 ++ x6 ++ x7 : BitVec 32).extractLsb' 31 1 = x1 :=
  (BitVec.extractLsb'_append_eq_of_le (xhi := x1 ++ x2 ++ x3 ++ x4 ++ x5 ++ x6) (xlo := x7) (by decide)).trans <|
  (BitVec.extractLsb'_append_eq_of_le (xhi := x1 ++ x2 ++ x3 ++ x4 ++ x5) (xlo := x6) (by decide)).trans <|
  (BitVec.extractLsb'_append_eq_of_le (xhi := x1 ++ x2 ++ x3 ++ x4) (xlo := x5) (by decide)).trans <|
  (BitVec.extractLsb'_append_eq_of_le (xhi := x1 ++ x2 ++ x3) (xlo := x4) (by decide)).trans <|
  (BitVec.extractLsb'_append_eq_of_le (xhi := x1 ++ x2) (xlo := x3) (by decide)).trans <|
  (BitVec.extractLsb'_append_eq_of_le (xhi := x1) (xlo := x2) (by decide)).trans <|
  BitVec.extractLsb'_eq_self

/-- A field of a 32-bit word laid out with these widths. -/
theorem Sys2Proof.Laws.w32_1_6_6_6_6_3_4_at_4_3 (x1 : BitVec 1) (x2 : BitVec 6) (x3 : BitVec 6) (x4 : BitVec 6) (x5 : BitVec 6) (x6 : BitVec 3) (x7 : BitVec 4) :
    (x1 ++ x2 ++ x3 ++ x4 ++ x5 ++ x6 ++ x7 : BitVec 32).extractLsb' 4 3 = x6 :=
  (BitVec.extractLsb'_append_eq_of_le (xhi := x1 ++ x2 ++ x3 ++ x4 ++ x5 ++ x6) (xlo := x7) (by decide)).trans <|
  (BitVec.extractLsb'_append_eq_of_add_le (xhi := x1 ++ x2 ++ x3 ++ x4 ++ x5) (xlo := x6) (by decide)).trans <|
  BitVec.extractLsb'_eq_self

/-- A field of a 32-bit word laid out with these widths. -/
theorem Sys2Proof.Laws.w32_1_6_6_6_6_3_4_at_7_6 (x1 : BitVec 1) (x2 : BitVec 6) (x3 : BitVec 6) (x4 : BitVec 6) (x5 : BitVec 6) (x6 : BitVec 3) (x7 : BitVec 4) :
    (x1 ++ x2 ++ x3 ++ x4 ++ x5 ++ x6 ++ x7 : BitVec 32).extractLsb' 7 6 = x5 :=
  (BitVec.extractLsb'_append_eq_of_le (xhi := x1 ++ x2 ++ x3 ++ x4 ++ x5 ++ x6) (xlo := x7) (by decide)).trans <|
  (BitVec.extractLsb'_append_eq_of_le (xhi := x1 ++ x2 ++ x3 ++ x4 ++ x5) (xlo := x6) (by decide)).trans <|
  (BitVec.extractLsb'_append_eq_of_add_le (xhi := x1 ++ x2 ++ x3 ++ x4) (xlo := x5) (by decide)).trans <|
  BitVec.extractLsb'_eq_self

/-- A field of a 32-bit word laid out with these widths. -/
theorem Sys2Proof.Laws.w32_1_6_6_6_6_7_at_0_4 (x1 : BitVec 1) (x2 : BitVec 6) (x3 : BitVec 6) (x4 : BitVec 6) (x5 : BitVec 6) (x6 : BitVec 7) :
    (x1 ++ x2 ++ x3 ++ x4 ++ x5 ++ x6 : BitVec 32).extractLsb' 0 4 = x6.extractLsb' 0 4 :=
  (BitVec.extractLsb'_append_eq_of_add_le (xhi := x1 ++ x2 ++ x3 ++ x4 ++ x5) (xlo := x6) (by decide)).trans <|
  rfl

/-- A field of a 32-bit word laid out with these widths. -/
theorem Sys2Proof.Laws.w32_1_6_6_6_6_7_at_0_7 (x1 : BitVec 1) (x2 : BitVec 6) (x3 : BitVec 6) (x4 : BitVec 6) (x5 : BitVec 6) (x6 : BitVec 7) :
    (x1 ++ x2 ++ x3 ++ x4 ++ x5 ++ x6 : BitVec 32).extractLsb' 0 7 = x6 :=
  (BitVec.extractLsb'_append_eq_of_add_le (xhi := x1 ++ x2 ++ x3 ++ x4 ++ x5) (xlo := x6) (by decide)).trans <|
  BitVec.extractLsb'_eq_self

/-- A field of a 32-bit word laid out with these widths. -/
theorem Sys2Proof.Laws.w32_1_6_6_6_6_7_at_13_6 (x1 : BitVec 1) (x2 : BitVec 6) (x3 : BitVec 6) (x4 : BitVec 6) (x5 : BitVec 6) (x6 : BitVec 7) :
    (x1 ++ x2 ++ x3 ++ x4 ++ x5 ++ x6 : BitVec 32).extractLsb' 13 6 = x4 :=
  (BitVec.extractLsb'_append_eq_of_le (xhi := x1 ++ x2 ++ x3 ++ x4 ++ x5) (xlo := x6) (by decide)).trans <|
  (BitVec.extractLsb'_append_eq_of_le (xhi := x1 ++ x2 ++ x3 ++ x4) (xlo := x5) (by decide)).trans <|
  (BitVec.extractLsb'_append_eq_of_add_le (xhi := x1 ++ x2 ++ x3) (xlo := x4) (by decide)).trans <|
  BitVec.extractLsb'_eq_self

/-- A field of a 32-bit word laid out with these widths. -/
theorem Sys2Proof.Laws.w32_1_6_6_6_6_7_at_19_6 (x1 : BitVec 1) (x2 : BitVec 6) (x3 : BitVec 6) (x4 : BitVec 6) (x5 : BitVec 6) (x6 : BitVec 7) :
    (x1 ++ x2 ++ x3 ++ x4 ++ x5 ++ x6 : BitVec 32).extractLsb' 19 6 = x3 :=
  (BitVec.extractLsb'_append_eq_of_le (xhi := x1 ++ x2 ++ x3 ++ x4 ++ x5) (xlo := x6) (by decide)).trans <|
  (BitVec.extractLsb'_append_eq_of_le (xhi := x1 ++ x2 ++ x3 ++ x4) (xlo := x5) (by decide)).trans <|
  (BitVec.extractLsb'_append_eq_of_le (xhi := x1 ++ x2 ++ x3) (xlo := x4) (by decide)).trans <|
  (BitVec.extractLsb'_append_eq_of_add_le (xhi := x1 ++ x2) (xlo := x3) (by decide)).trans <|
  BitVec.extractLsb'_eq_self

/-- A field of a 32-bit word laid out with these widths. -/
theorem Sys2Proof.Laws.w32_1_6_6_6_6_7_at_25_6 (x1 : BitVec 1) (x2 : BitVec 6) (x3 : BitVec 6) (x4 : BitVec 6) (x5 : BitVec 6) (x6 : BitVec 7) :
    (x1 ++ x2 ++ x3 ++ x4 ++ x5 ++ x6 : BitVec 32).extractLsb' 25 6 = x2 :=
  (BitVec.extractLsb'_append_eq_of_le (xhi := x1 ++ x2 ++ x3 ++ x4 ++ x5) (xlo := x6) (by decide)).trans <|
  (BitVec.extractLsb'_append_eq_of_le (xhi := x1 ++ x2 ++ x3 ++ x4) (xlo := x5) (by decide)).trans <|
  (BitVec.extractLsb'_append_eq_of_le (xhi := x1 ++ x2 ++ x3) (xlo := x4) (by decide)).trans <|
  (BitVec.extractLsb'_append_eq_of_le (xhi := x1 ++ x2) (xlo := x3) (by decide)).trans <|
  (BitVec.extractLsb'_append_eq_of_add_le (xhi := x1) (xlo := x2) (by decide)).trans <|
  BitVec.extractLsb'_eq_self

/-- A field of a 32-bit word laid out with these widths. -/
theorem Sys2Proof.Laws.w32_1_6_6_6_6_7_at_31_1 (x1 : BitVec 1) (x2 : BitVec 6) (x3 : BitVec 6) (x4 : BitVec 6) (x5 : BitVec 6) (x6 : BitVec 7) :
    (x1 ++ x2 ++ x3 ++ x4 ++ x5 ++ x6 : BitVec 32).extractLsb' 31 1 = x1 :=
  (BitVec.extractLsb'_append_eq_of_le (xhi := x1 ++ x2 ++ x3 ++ x4 ++ x5) (xlo := x6) (by decide)).trans <|
  (BitVec.extractLsb'_append_eq_of_le (xhi := x1 ++ x2 ++ x3 ++ x4) (xlo := x5) (by decide)).trans <|
  (BitVec.extractLsb'_append_eq_of_le (xhi := x1 ++ x2 ++ x3) (xlo := x4) (by decide)).trans <|
  (BitVec.extractLsb'_append_eq_of_le (xhi := x1 ++ x2) (xlo := x3) (by decide)).trans <|
  (BitVec.extractLsb'_append_eq_of_le (xhi := x1) (xlo := x2) (by decide)).trans <|
  BitVec.extractLsb'_eq_self

/-- A field of a 32-bit word laid out with these widths. -/
theorem Sys2Proof.Laws.w32_1_6_6_6_6_7_at_4_3 (x1 : BitVec 1) (x2 : BitVec 6) (x3 : BitVec 6) (x4 : BitVec 6) (x5 : BitVec 6) (x6 : BitVec 7) :
    (x1 ++ x2 ++ x3 ++ x4 ++ x5 ++ x6 : BitVec 32).extractLsb' 4 3 = x6.extractLsb' 4 3 :=
  (BitVec.extractLsb'_append_eq_of_add_le (xhi := x1 ++ x2 ++ x3 ++ x4 ++ x5) (xlo := x6) (by decide)).trans <|
  rfl

/-- A field of a 32-bit word laid out with these widths. -/
theorem Sys2Proof.Laws.w32_1_6_6_6_6_7_at_7_6 (x1 : BitVec 1) (x2 : BitVec 6) (x3 : BitVec 6) (x4 : BitVec 6) (x5 : BitVec 6) (x6 : BitVec 7) :
    (x1 ++ x2 ++ x3 ++ x4 ++ x5 ++ x6 : BitVec 32).extractLsb' 7 6 = x5 :=
  (BitVec.extractLsb'_append_eq_of_le (xhi := x1 ++ x2 ++ x3 ++ x4 ++ x5) (xlo := x6) (by decide)).trans <|
  (BitVec.extractLsb'_append_eq_of_add_le (xhi := x1 ++ x2 ++ x3 ++ x4) (xlo := x5) (by decide)).trans <|
  BitVec.extractLsb'_eq_self

/-- A field of a 32-bit word laid out with these widths. -/
theorem Sys2Proof.Laws.w32_1_6_6_6_7_6_at_0_6 (x1 : BitVec 1) (x2 : BitVec 6) (x3 : BitVec 6) (x4 : BitVec 6) (x5 : BitVec 7) (x6 : BitVec 6) :
    (x1 ++ x2 ++ x3 ++ x4 ++ x5 ++ x6 : BitVec 32).extractLsb' 0 6 = x6 :=
  (BitVec.extractLsb'_append_eq_of_add_le (xhi := x1 ++ x2 ++ x3 ++ x4 ++ x5) (xlo := x6) (by decide)).trans <|
  BitVec.extractLsb'_eq_self

/-- A field of a 32-bit word laid out with these widths. -/
theorem Sys2Proof.Laws.w32_1_6_6_6_7_6_at_13_6 (x1 : BitVec 1) (x2 : BitVec 6) (x3 : BitVec 6) (x4 : BitVec 6) (x5 : BitVec 7) (x6 : BitVec 6) :
    (x1 ++ x2 ++ x3 ++ x4 ++ x5 ++ x6 : BitVec 32).extractLsb' 13 6 = x4 :=
  (BitVec.extractLsb'_append_eq_of_le (xhi := x1 ++ x2 ++ x3 ++ x4 ++ x5) (xlo := x6) (by decide)).trans <|
  (BitVec.extractLsb'_append_eq_of_le (xhi := x1 ++ x2 ++ x3 ++ x4) (xlo := x5) (by decide)).trans <|
  (BitVec.extractLsb'_append_eq_of_add_le (xhi := x1 ++ x2 ++ x3) (xlo := x4) (by decide)).trans <|
  BitVec.extractLsb'_eq_self

/-- A field of a 32-bit word laid out with these widths. -/
theorem Sys2Proof.Laws.w32_1_6_6_6_7_6_at_19_6 (x1 : BitVec 1) (x2 : BitVec 6) (x3 : BitVec 6) (x4 : BitVec 6) (x5 : BitVec 7) (x6 : BitVec 6) :
    (x1 ++ x2 ++ x3 ++ x4 ++ x5 ++ x6 : BitVec 32).extractLsb' 19 6 = x3 :=
  (BitVec.extractLsb'_append_eq_of_le (xhi := x1 ++ x2 ++ x3 ++ x4 ++ x5) (xlo := x6) (by decide)).trans <|
  (BitVec.extractLsb'_append_eq_of_le (xhi := x1 ++ x2 ++ x3 ++ x4) (xlo := x5) (by decide)).trans <|
  (BitVec.extractLsb'_append_eq_of_le (xhi := x1 ++ x2 ++ x3) (xlo := x4) (by decide)).trans <|
  (BitVec.extractLsb'_append_eq_of_add_le (xhi := x1 ++ x2) (xlo := x3) (by decide)).trans <|
  BitVec.extractLsb'_eq_self

/-- A field of a 32-bit word laid out with these widths. -/
theorem Sys2Proof.Laws.w32_1_6_6_6_7_6_at_25_6 (x1 : BitVec 1) (x2 : BitVec 6) (x3 : BitVec 6) (x4 : BitVec 6) (x5 : BitVec 7) (x6 : BitVec 6) :
    (x1 ++ x2 ++ x3 ++ x4 ++ x5 ++ x6 : BitVec 32).extractLsb' 25 6 = x2 :=
  (BitVec.extractLsb'_append_eq_of_le (xhi := x1 ++ x2 ++ x3 ++ x4 ++ x5) (xlo := x6) (by decide)).trans <|
  (BitVec.extractLsb'_append_eq_of_le (xhi := x1 ++ x2 ++ x3 ++ x4) (xlo := x5) (by decide)).trans <|
  (BitVec.extractLsb'_append_eq_of_le (xhi := x1 ++ x2 ++ x3) (xlo := x4) (by decide)).trans <|
  (BitVec.extractLsb'_append_eq_of_le (xhi := x1 ++ x2) (xlo := x3) (by decide)).trans <|
  (BitVec.extractLsb'_append_eq_of_add_le (xhi := x1) (xlo := x2) (by decide)).trans <|
  BitVec.extractLsb'_eq_self

/-- A field of a 32-bit word laid out with these widths. -/
theorem Sys2Proof.Laws.w32_1_6_6_6_7_6_at_31_1 (x1 : BitVec 1) (x2 : BitVec 6) (x3 : BitVec 6) (x4 : BitVec 6) (x5 : BitVec 7) (x6 : BitVec 6) :
    (x1 ++ x2 ++ x3 ++ x4 ++ x5 ++ x6 : BitVec 32).extractLsb' 31 1 = x1 :=
  (BitVec.extractLsb'_append_eq_of_le (xhi := x1 ++ x2 ++ x3 ++ x4 ++ x5) (xlo := x6) (by decide)).trans <|
  (BitVec.extractLsb'_append_eq_of_le (xhi := x1 ++ x2 ++ x3 ++ x4) (xlo := x5) (by decide)).trans <|
  (BitVec.extractLsb'_append_eq_of_le (xhi := x1 ++ x2 ++ x3) (xlo := x4) (by decide)).trans <|
  (BitVec.extractLsb'_append_eq_of_le (xhi := x1 ++ x2) (xlo := x3) (by decide)).trans <|
  (BitVec.extractLsb'_append_eq_of_le (xhi := x1) (xlo := x2) (by decide)).trans <|
  BitVec.extractLsb'_eq_self

/-- A field of a 32-bit word laid out with these widths. -/
theorem Sys2Proof.Laws.w32_1_6_6_6_7_6_at_6_7 (x1 : BitVec 1) (x2 : BitVec 6) (x3 : BitVec 6) (x4 : BitVec 6) (x5 : BitVec 7) (x6 : BitVec 6) :
    (x1 ++ x2 ++ x3 ++ x4 ++ x5 ++ x6 : BitVec 32).extractLsb' 6 7 = x5 :=
  (BitVec.extractLsb'_append_eq_of_le (xhi := x1 ++ x2 ++ x3 ++ x4 ++ x5) (xlo := x6) (by decide)).trans <|
  (BitVec.extractLsb'_append_eq_of_add_le (xhi := x1 ++ x2 ++ x3 ++ x4) (xlo := x5) (by decide)).trans <|
  BitVec.extractLsb'_eq_self

/-- A field of a 32-bit word laid out with these widths. -/
theorem Sys2Proof.Laws.w32_1_6_6_7_12_at_0_12 (x1 : BitVec 1) (x2 : BitVec 6) (x3 : BitVec 6) (x4 : BitVec 7) (x5 : BitVec 12) :
    (x1 ++ x2 ++ x3 ++ x4 ++ x5 : BitVec 32).extractLsb' 0 12 = x5 :=
  (BitVec.extractLsb'_append_eq_of_add_le (xhi := x1 ++ x2 ++ x3 ++ x4) (xlo := x5) (by decide)).trans <|
  BitVec.extractLsb'_eq_self

/-- A field of a 32-bit word laid out with these widths. -/
theorem Sys2Proof.Laws.w32_1_6_6_7_12_at_12_7 (x1 : BitVec 1) (x2 : BitVec 6) (x3 : BitVec 6) (x4 : BitVec 7) (x5 : BitVec 12) :
    (x1 ++ x2 ++ x3 ++ x4 ++ x5 : BitVec 32).extractLsb' 12 7 = x4 :=
  (BitVec.extractLsb'_append_eq_of_le (xhi := x1 ++ x2 ++ x3 ++ x4) (xlo := x5) (by decide)).trans <|
  (BitVec.extractLsb'_append_eq_of_add_le (xhi := x1 ++ x2 ++ x3) (xlo := x4) (by decide)).trans <|
  BitVec.extractLsb'_eq_self

/-- A field of a 32-bit word laid out with these widths. -/
theorem Sys2Proof.Laws.w32_1_6_6_7_12_at_19_6 (x1 : BitVec 1) (x2 : BitVec 6) (x3 : BitVec 6) (x4 : BitVec 7) (x5 : BitVec 12) :
    (x1 ++ x2 ++ x3 ++ x4 ++ x5 : BitVec 32).extractLsb' 19 6 = x3 :=
  (BitVec.extractLsb'_append_eq_of_le (xhi := x1 ++ x2 ++ x3 ++ x4) (xlo := x5) (by decide)).trans <|
  (BitVec.extractLsb'_append_eq_of_le (xhi := x1 ++ x2 ++ x3) (xlo := x4) (by decide)).trans <|
  (BitVec.extractLsb'_append_eq_of_add_le (xhi := x1 ++ x2) (xlo := x3) (by decide)).trans <|
  BitVec.extractLsb'_eq_self

/-- A field of a 32-bit word laid out with these widths. -/
theorem Sys2Proof.Laws.w32_1_6_6_7_12_at_25_6 (x1 : BitVec 1) (x2 : BitVec 6) (x3 : BitVec 6) (x4 : BitVec 7) (x5 : BitVec 12) :
    (x1 ++ x2 ++ x3 ++ x4 ++ x5 : BitVec 32).extractLsb' 25 6 = x2 :=
  (BitVec.extractLsb'_append_eq_of_le (xhi := x1 ++ x2 ++ x3 ++ x4) (xlo := x5) (by decide)).trans <|
  (BitVec.extractLsb'_append_eq_of_le (xhi := x1 ++ x2 ++ x3) (xlo := x4) (by decide)).trans <|
  (BitVec.extractLsb'_append_eq_of_le (xhi := x1 ++ x2) (xlo := x3) (by decide)).trans <|
  (BitVec.extractLsb'_append_eq_of_add_le (xhi := x1) (xlo := x2) (by decide)).trans <|
  BitVec.extractLsb'_eq_self

/-- A field of a 32-bit word laid out with these widths. -/
theorem Sys2Proof.Laws.w32_1_6_6_7_12_at_31_1 (x1 : BitVec 1) (x2 : BitVec 6) (x3 : BitVec 6) (x4 : BitVec 7) (x5 : BitVec 12) :
    (x1 ++ x2 ++ x3 ++ x4 ++ x5 : BitVec 32).extractLsb' 31 1 = x1 :=
  (BitVec.extractLsb'_append_eq_of_le (xhi := x1 ++ x2 ++ x3 ++ x4) (xlo := x5) (by decide)).trans <|
  (BitVec.extractLsb'_append_eq_of_le (xhi := x1 ++ x2 ++ x3) (xlo := x4) (by decide)).trans <|
  (BitVec.extractLsb'_append_eq_of_le (xhi := x1 ++ x2) (xlo := x3) (by decide)).trans <|
  (BitVec.extractLsb'_append_eq_of_le (xhi := x1) (xlo := x2) (by decide)).trans <|
  BitVec.extractLsb'_eq_self

/-- A field of a packed 64-bit word (02 Table 2.2). -/
theorem Sys2Proof.Laws.w64_form (x1 : BitVec 2) (x2 : BitVec 3) (x3 : BitVec 1) (x4 : BitVec 2) (x5 : BitVec 2) (x6 : BitVec 6) (x7 : BitVec 4) (x8 : BitVec 12) (x9 : BitVec 1) (x10 : BitVec 7) (x11 : BitVec 6) (x12 : BitVec 6) (x13 : BitVec 6) (x14 : BitVec 6) :
    (x1 ++ x2 ++ x3 ++ x4 ++ x5 ++ x6 ++ x7 ++ x8 ++ x9 ++ x10 ++ x11 ++ x12 ++ x13 ++ x14 : BitVec 64).extractLsb' 62 2 = x1 :=
  (BitVec.extractLsb'_append_eq_of_le (xhi := x1 ++ x2 ++ x3 ++ x4 ++ x5 ++ x6 ++ x7 ++ x8 ++ x9 ++ x10 ++ x11 ++ x12 ++ x13) (xlo := x14) (by decide)).trans <|
  (BitVec.extractLsb'_append_eq_of_le (xhi := x1 ++ x2 ++ x3 ++ x4 ++ x5 ++ x6 ++ x7 ++ x8 ++ x9 ++ x10 ++ x11 ++ x12) (xlo := x13) (by decide)).trans <|
  (BitVec.extractLsb'_append_eq_of_le (xhi := x1 ++ x2 ++ x3 ++ x4 ++ x5 ++ x6 ++ x7 ++ x8 ++ x9 ++ x10 ++ x11) (xlo := x12) (by decide)).trans <|
  (BitVec.extractLsb'_append_eq_of_le (xhi := x1 ++ x2 ++ x3 ++ x4 ++ x5 ++ x6 ++ x7 ++ x8 ++ x9 ++ x10) (xlo := x11) (by decide)).trans <|
  (BitVec.extractLsb'_append_eq_of_le (xhi := x1 ++ x2 ++ x3 ++ x4 ++ x5 ++ x6 ++ x7 ++ x8 ++ x9) (xlo := x10) (by decide)).trans <|
  (BitVec.extractLsb'_append_eq_of_le (xhi := x1 ++ x2 ++ x3 ++ x4 ++ x5 ++ x6 ++ x7 ++ x8) (xlo := x9) (by decide)).trans <|
  (BitVec.extractLsb'_append_eq_of_le (xhi := x1 ++ x2 ++ x3 ++ x4 ++ x5 ++ x6 ++ x7) (xlo := x8) (by decide)).trans <|
  (BitVec.extractLsb'_append_eq_of_le (xhi := x1 ++ x2 ++ x3 ++ x4 ++ x5 ++ x6) (xlo := x7) (by decide)).trans <|
  (BitVec.extractLsb'_append_eq_of_le (xhi := x1 ++ x2 ++ x3 ++ x4 ++ x5) (xlo := x6) (by decide)).trans <|
  (BitVec.extractLsb'_append_eq_of_le (xhi := x1 ++ x2 ++ x3 ++ x4) (xlo := x5) (by decide)).trans <|
  (BitVec.extractLsb'_append_eq_of_le (xhi := x1 ++ x2 ++ x3) (xlo := x4) (by decide)).trans <|
  (BitVec.extractLsb'_append_eq_of_le (xhi := x1 ++ x2) (xlo := x3) (by decide)).trans <|
  (BitVec.extractLsb'_append_eq_of_le (xhi := x1) (xlo := x2) (by decide)).trans <|
  BitVec.extractLsb'_eq_self

/-- A field of a packed 64-bit word (02 Table 2.2). -/
theorem Sys2Proof.Laws.w64_mask (x1 : BitVec 2) (x2 : BitVec 3) (x3 : BitVec 1) (x4 : BitVec 2) (x5 : BitVec 2) (x6 : BitVec 6) (x7 : BitVec 4) (x8 : BitVec 12) (x9 : BitVec 1) (x10 : BitVec 7) (x11 : BitVec 6) (x12 : BitVec 6) (x13 : BitVec 6) (x14 : BitVec 6) :
    (x1 ++ x2 ++ x3 ++ x4 ++ x5 ++ x6 ++ x7 ++ x8 ++ x9 ++ x10 ++ x11 ++ x12 ++ x13 ++ x14 : BitVec 64).extractLsb' 59 3 = x2 :=
  (BitVec.extractLsb'_append_eq_of_le (xhi := x1 ++ x2 ++ x3 ++ x4 ++ x5 ++ x6 ++ x7 ++ x8 ++ x9 ++ x10 ++ x11 ++ x12 ++ x13) (xlo := x14) (by decide)).trans <|
  (BitVec.extractLsb'_append_eq_of_le (xhi := x1 ++ x2 ++ x3 ++ x4 ++ x5 ++ x6 ++ x7 ++ x8 ++ x9 ++ x10 ++ x11 ++ x12) (xlo := x13) (by decide)).trans <|
  (BitVec.extractLsb'_append_eq_of_le (xhi := x1 ++ x2 ++ x3 ++ x4 ++ x5 ++ x6 ++ x7 ++ x8 ++ x9 ++ x10 ++ x11) (xlo := x12) (by decide)).trans <|
  (BitVec.extractLsb'_append_eq_of_le (xhi := x1 ++ x2 ++ x3 ++ x4 ++ x5 ++ x6 ++ x7 ++ x8 ++ x9 ++ x10) (xlo := x11) (by decide)).trans <|
  (BitVec.extractLsb'_append_eq_of_le (xhi := x1 ++ x2 ++ x3 ++ x4 ++ x5 ++ x6 ++ x7 ++ x8 ++ x9) (xlo := x10) (by decide)).trans <|
  (BitVec.extractLsb'_append_eq_of_le (xhi := x1 ++ x2 ++ x3 ++ x4 ++ x5 ++ x6 ++ x7 ++ x8) (xlo := x9) (by decide)).trans <|
  (BitVec.extractLsb'_append_eq_of_le (xhi := x1 ++ x2 ++ x3 ++ x4 ++ x5 ++ x6 ++ x7) (xlo := x8) (by decide)).trans <|
  (BitVec.extractLsb'_append_eq_of_le (xhi := x1 ++ x2 ++ x3 ++ x4 ++ x5 ++ x6) (xlo := x7) (by decide)).trans <|
  (BitVec.extractLsb'_append_eq_of_le (xhi := x1 ++ x2 ++ x3 ++ x4 ++ x5) (xlo := x6) (by decide)).trans <|
  (BitVec.extractLsb'_append_eq_of_le (xhi := x1 ++ x2 ++ x3 ++ x4) (xlo := x5) (by decide)).trans <|
  (BitVec.extractLsb'_append_eq_of_le (xhi := x1 ++ x2 ++ x3) (xlo := x4) (by decide)).trans <|
  (BitVec.extractLsb'_append_eq_of_le (xhi := x1 ++ x2) (xlo := x3) (by decide)).trans <|
  (BitVec.extractLsb'_append_eq_of_add_le (xhi := x1) (xlo := x2) (by decide)).trans <|
  BitVec.extractLsb'_eq_self

/-- A field of a packed 64-bit word (02 Table 2.2). -/
theorem Sys2Proof.Laws.w64_chain (x1 : BitVec 2) (x2 : BitVec 3) (x3 : BitVec 1) (x4 : BitVec 2) (x5 : BitVec 2) (x6 : BitVec 6) (x7 : BitVec 4) (x8 : BitVec 12) (x9 : BitVec 1) (x10 : BitVec 7) (x11 : BitVec 6) (x12 : BitVec 6) (x13 : BitVec 6) (x14 : BitVec 6) :
    (x1 ++ x2 ++ x3 ++ x4 ++ x5 ++ x6 ++ x7 ++ x8 ++ x9 ++ x10 ++ x11 ++ x12 ++ x13 ++ x14 : BitVec 64).extractLsb' 58 1 = x3 :=
  (BitVec.extractLsb'_append_eq_of_le (xhi := x1 ++ x2 ++ x3 ++ x4 ++ x5 ++ x6 ++ x7 ++ x8 ++ x9 ++ x10 ++ x11 ++ x12 ++ x13) (xlo := x14) (by decide)).trans <|
  (BitVec.extractLsb'_append_eq_of_le (xhi := x1 ++ x2 ++ x3 ++ x4 ++ x5 ++ x6 ++ x7 ++ x8 ++ x9 ++ x10 ++ x11 ++ x12) (xlo := x13) (by decide)).trans <|
  (BitVec.extractLsb'_append_eq_of_le (xhi := x1 ++ x2 ++ x3 ++ x4 ++ x5 ++ x6 ++ x7 ++ x8 ++ x9 ++ x10 ++ x11) (xlo := x12) (by decide)).trans <|
  (BitVec.extractLsb'_append_eq_of_le (xhi := x1 ++ x2 ++ x3 ++ x4 ++ x5 ++ x6 ++ x7 ++ x8 ++ x9 ++ x10) (xlo := x11) (by decide)).trans <|
  (BitVec.extractLsb'_append_eq_of_le (xhi := x1 ++ x2 ++ x3 ++ x4 ++ x5 ++ x6 ++ x7 ++ x8 ++ x9) (xlo := x10) (by decide)).trans <|
  (BitVec.extractLsb'_append_eq_of_le (xhi := x1 ++ x2 ++ x3 ++ x4 ++ x5 ++ x6 ++ x7 ++ x8) (xlo := x9) (by decide)).trans <|
  (BitVec.extractLsb'_append_eq_of_le (xhi := x1 ++ x2 ++ x3 ++ x4 ++ x5 ++ x6 ++ x7) (xlo := x8) (by decide)).trans <|
  (BitVec.extractLsb'_append_eq_of_le (xhi := x1 ++ x2 ++ x3 ++ x4 ++ x5 ++ x6) (xlo := x7) (by decide)).trans <|
  (BitVec.extractLsb'_append_eq_of_le (xhi := x1 ++ x2 ++ x3 ++ x4 ++ x5) (xlo := x6) (by decide)).trans <|
  (BitVec.extractLsb'_append_eq_of_le (xhi := x1 ++ x2 ++ x3 ++ x4) (xlo := x5) (by decide)).trans <|
  (BitVec.extractLsb'_append_eq_of_le (xhi := x1 ++ x2 ++ x3) (xlo := x4) (by decide)).trans <|
  (BitVec.extractLsb'_append_eq_of_add_le (xhi := x1 ++ x2) (xlo := x3) (by decide)).trans <|
  BitVec.extractLsb'_eq_self

/-- A field of a packed 64-bit word (02 Table 2.2). -/
theorem Sys2Proof.Laws.w64_rsel (x1 : BitVec 2) (x2 : BitVec 3) (x3 : BitVec 1) (x4 : BitVec 2) (x5 : BitVec 2) (x6 : BitVec 6) (x7 : BitVec 4) (x8 : BitVec 12) (x9 : BitVec 1) (x10 : BitVec 7) (x11 : BitVec 6) (x12 : BitVec 6) (x13 : BitVec 6) (x14 : BitVec 6) :
    (x1 ++ x2 ++ x3 ++ x4 ++ x5 ++ x6 ++ x7 ++ x8 ++ x9 ++ x10 ++ x11 ++ x12 ++ x13 ++ x14 : BitVec 64).extractLsb' 56 2 = x4 :=
  (BitVec.extractLsb'_append_eq_of_le (xhi := x1 ++ x2 ++ x3 ++ x4 ++ x5 ++ x6 ++ x7 ++ x8 ++ x9 ++ x10 ++ x11 ++ x12 ++ x13) (xlo := x14) (by decide)).trans <|
  (BitVec.extractLsb'_append_eq_of_le (xhi := x1 ++ x2 ++ x3 ++ x4 ++ x5 ++ x6 ++ x7 ++ x8 ++ x9 ++ x10 ++ x11 ++ x12) (xlo := x13) (by decide)).trans <|
  (BitVec.extractLsb'_append_eq_of_le (xhi := x1 ++ x2 ++ x3 ++ x4 ++ x5 ++ x6 ++ x7 ++ x8 ++ x9 ++ x10 ++ x11) (xlo := x12) (by decide)).trans <|
  (BitVec.extractLsb'_append_eq_of_le (xhi := x1 ++ x2 ++ x3 ++ x4 ++ x5 ++ x6 ++ x7 ++ x8 ++ x9 ++ x10) (xlo := x11) (by decide)).trans <|
  (BitVec.extractLsb'_append_eq_of_le (xhi := x1 ++ x2 ++ x3 ++ x4 ++ x5 ++ x6 ++ x7 ++ x8 ++ x9) (xlo := x10) (by decide)).trans <|
  (BitVec.extractLsb'_append_eq_of_le (xhi := x1 ++ x2 ++ x3 ++ x4 ++ x5 ++ x6 ++ x7 ++ x8) (xlo := x9) (by decide)).trans <|
  (BitVec.extractLsb'_append_eq_of_le (xhi := x1 ++ x2 ++ x3 ++ x4 ++ x5 ++ x6 ++ x7) (xlo := x8) (by decide)).trans <|
  (BitVec.extractLsb'_append_eq_of_le (xhi := x1 ++ x2 ++ x3 ++ x4 ++ x5 ++ x6) (xlo := x7) (by decide)).trans <|
  (BitVec.extractLsb'_append_eq_of_le (xhi := x1 ++ x2 ++ x3 ++ x4 ++ x5) (xlo := x6) (by decide)).trans <|
  (BitVec.extractLsb'_append_eq_of_le (xhi := x1 ++ x2 ++ x3 ++ x4) (xlo := x5) (by decide)).trans <|
  (BitVec.extractLsb'_append_eq_of_add_le (xhi := x1 ++ x2 ++ x3) (xlo := x4) (by decide)).trans <|
  BitVec.extractLsb'_eq_self

/-- A field of a packed 64-bit word (02 Table 2.2). -/
theorem Sys2Proof.Laws.w64_rsz (x1 : BitVec 2) (x2 : BitVec 3) (x3 : BitVec 1) (x4 : BitVec 2) (x5 : BitVec 2) (x6 : BitVec 6) (x7 : BitVec 4) (x8 : BitVec 12) (x9 : BitVec 1) (x10 : BitVec 7) (x11 : BitVec 6) (x12 : BitVec 6) (x13 : BitVec 6) (x14 : BitVec 6) :
    (x1 ++ x2 ++ x3 ++ x4 ++ x5 ++ x6 ++ x7 ++ x8 ++ x9 ++ x10 ++ x11 ++ x12 ++ x13 ++ x14 : BitVec 64).extractLsb' 54 2 = x5 :=
  (BitVec.extractLsb'_append_eq_of_le (xhi := x1 ++ x2 ++ x3 ++ x4 ++ x5 ++ x6 ++ x7 ++ x8 ++ x9 ++ x10 ++ x11 ++ x12 ++ x13) (xlo := x14) (by decide)).trans <|
  (BitVec.extractLsb'_append_eq_of_le (xhi := x1 ++ x2 ++ x3 ++ x4 ++ x5 ++ x6 ++ x7 ++ x8 ++ x9 ++ x10 ++ x11 ++ x12) (xlo := x13) (by decide)).trans <|
  (BitVec.extractLsb'_append_eq_of_le (xhi := x1 ++ x2 ++ x3 ++ x4 ++ x5 ++ x6 ++ x7 ++ x8 ++ x9 ++ x10 ++ x11) (xlo := x12) (by decide)).trans <|
  (BitVec.extractLsb'_append_eq_of_le (xhi := x1 ++ x2 ++ x3 ++ x4 ++ x5 ++ x6 ++ x7 ++ x8 ++ x9 ++ x10) (xlo := x11) (by decide)).trans <|
  (BitVec.extractLsb'_append_eq_of_le (xhi := x1 ++ x2 ++ x3 ++ x4 ++ x5 ++ x6 ++ x7 ++ x8 ++ x9) (xlo := x10) (by decide)).trans <|
  (BitVec.extractLsb'_append_eq_of_le (xhi := x1 ++ x2 ++ x3 ++ x4 ++ x5 ++ x6 ++ x7 ++ x8) (xlo := x9) (by decide)).trans <|
  (BitVec.extractLsb'_append_eq_of_le (xhi := x1 ++ x2 ++ x3 ++ x4 ++ x5 ++ x6 ++ x7) (xlo := x8) (by decide)).trans <|
  (BitVec.extractLsb'_append_eq_of_le (xhi := x1 ++ x2 ++ x3 ++ x4 ++ x5 ++ x6) (xlo := x7) (by decide)).trans <|
  (BitVec.extractLsb'_append_eq_of_le (xhi := x1 ++ x2 ++ x3 ++ x4 ++ x5) (xlo := x6) (by decide)).trans <|
  (BitVec.extractLsb'_append_eq_of_add_le (xhi := x1 ++ x2 ++ x3 ++ x4) (xlo := x5) (by decide)).trans <|
  BitVec.extractLsb'_eq_self

/-- A field of a packed 64-bit word (02 Table 2.2). -/
theorem Sys2Proof.Laws.w64_ridx (x1 : BitVec 2) (x2 : BitVec 3) (x3 : BitVec 1) (x4 : BitVec 2) (x5 : BitVec 2) (x6 : BitVec 6) (x7 : BitVec 4) (x8 : BitVec 12) (x9 : BitVec 1) (x10 : BitVec 7) (x11 : BitVec 6) (x12 : BitVec 6) (x13 : BitVec 6) (x14 : BitVec 6) :
    (x1 ++ x2 ++ x3 ++ x4 ++ x5 ++ x6 ++ x7 ++ x8 ++ x9 ++ x10 ++ x11 ++ x12 ++ x13 ++ x14 : BitVec 64).extractLsb' 48 6 = x6 :=
  (BitVec.extractLsb'_append_eq_of_le (xhi := x1 ++ x2 ++ x3 ++ x4 ++ x5 ++ x6 ++ x7 ++ x8 ++ x9 ++ x10 ++ x11 ++ x12 ++ x13) (xlo := x14) (by decide)).trans <|
  (BitVec.extractLsb'_append_eq_of_le (xhi := x1 ++ x2 ++ x3 ++ x4 ++ x5 ++ x6 ++ x7 ++ x8 ++ x9 ++ x10 ++ x11 ++ x12) (xlo := x13) (by decide)).trans <|
  (BitVec.extractLsb'_append_eq_of_le (xhi := x1 ++ x2 ++ x3 ++ x4 ++ x5 ++ x6 ++ x7 ++ x8 ++ x9 ++ x10 ++ x11) (xlo := x12) (by decide)).trans <|
  (BitVec.extractLsb'_append_eq_of_le (xhi := x1 ++ x2 ++ x3 ++ x4 ++ x5 ++ x6 ++ x7 ++ x8 ++ x9 ++ x10) (xlo := x11) (by decide)).trans <|
  (BitVec.extractLsb'_append_eq_of_le (xhi := x1 ++ x2 ++ x3 ++ x4 ++ x5 ++ x6 ++ x7 ++ x8 ++ x9) (xlo := x10) (by decide)).trans <|
  (BitVec.extractLsb'_append_eq_of_le (xhi := x1 ++ x2 ++ x3 ++ x4 ++ x5 ++ x6 ++ x7 ++ x8) (xlo := x9) (by decide)).trans <|
  (BitVec.extractLsb'_append_eq_of_le (xhi := x1 ++ x2 ++ x3 ++ x4 ++ x5 ++ x6 ++ x7) (xlo := x8) (by decide)).trans <|
  (BitVec.extractLsb'_append_eq_of_le (xhi := x1 ++ x2 ++ x3 ++ x4 ++ x5 ++ x6) (xlo := x7) (by decide)).trans <|
  (BitVec.extractLsb'_append_eq_of_add_le (xhi := x1 ++ x2 ++ x3 ++ x4 ++ x5) (xlo := x6) (by decide)).trans <|
  BitVec.extractLsb'_eq_self

/-- A field of a packed 64-bit word (02 Table 2.2). -/
theorem Sys2Proof.Laws.w64_ety (x1 : BitVec 2) (x2 : BitVec 3) (x3 : BitVec 1) (x4 : BitVec 2) (x5 : BitVec 2) (x6 : BitVec 6) (x7 : BitVec 4) (x8 : BitVec 12) (x9 : BitVec 1) (x10 : BitVec 7) (x11 : BitVec 6) (x12 : BitVec 6) (x13 : BitVec 6) (x14 : BitVec 6) :
    (x1 ++ x2 ++ x3 ++ x4 ++ x5 ++ x6 ++ x7 ++ x8 ++ x9 ++ x10 ++ x11 ++ x12 ++ x13 ++ x14 : BitVec 64).extractLsb' 44 4 = x7 :=
  (BitVec.extractLsb'_append_eq_of_le (xhi := x1 ++ x2 ++ x3 ++ x4 ++ x5 ++ x6 ++ x7 ++ x8 ++ x9 ++ x10 ++ x11 ++ x12 ++ x13) (xlo := x14) (by decide)).trans <|
  (BitVec.extractLsb'_append_eq_of_le (xhi := x1 ++ x2 ++ x3 ++ x4 ++ x5 ++ x6 ++ x7 ++ x8 ++ x9 ++ x10 ++ x11 ++ x12) (xlo := x13) (by decide)).trans <|
  (BitVec.extractLsb'_append_eq_of_le (xhi := x1 ++ x2 ++ x3 ++ x4 ++ x5 ++ x6 ++ x7 ++ x8 ++ x9 ++ x10 ++ x11) (xlo := x12) (by decide)).trans <|
  (BitVec.extractLsb'_append_eq_of_le (xhi := x1 ++ x2 ++ x3 ++ x4 ++ x5 ++ x6 ++ x7 ++ x8 ++ x9 ++ x10) (xlo := x11) (by decide)).trans <|
  (BitVec.extractLsb'_append_eq_of_le (xhi := x1 ++ x2 ++ x3 ++ x4 ++ x5 ++ x6 ++ x7 ++ x8 ++ x9) (xlo := x10) (by decide)).trans <|
  (BitVec.extractLsb'_append_eq_of_le (xhi := x1 ++ x2 ++ x3 ++ x4 ++ x5 ++ x6 ++ x7 ++ x8) (xlo := x9) (by decide)).trans <|
  (BitVec.extractLsb'_append_eq_of_le (xhi := x1 ++ x2 ++ x3 ++ x4 ++ x5 ++ x6 ++ x7) (xlo := x8) (by decide)).trans <|
  (BitVec.extractLsb'_append_eq_of_add_le (xhi := x1 ++ x2 ++ x3 ++ x4 ++ x5 ++ x6) (xlo := x7) (by decide)).trans <|
  BitVec.extractLsb'_eq_self

/-- A field of a packed 64-bit word (02 Table 2.2). -/
theorem Sys2Proof.Laws.w64_fn (x1 : BitVec 2) (x2 : BitVec 3) (x3 : BitVec 1) (x4 : BitVec 2) (x5 : BitVec 2) (x6 : BitVec 6) (x7 : BitVec 4) (x8 : BitVec 12) (x9 : BitVec 1) (x10 : BitVec 7) (x11 : BitVec 6) (x12 : BitVec 6) (x13 : BitVec 6) (x14 : BitVec 6) :
    (x1 ++ x2 ++ x3 ++ x4 ++ x5 ++ x6 ++ x7 ++ x8 ++ x9 ++ x10 ++ x11 ++ x12 ++ x13 ++ x14 : BitVec 64).extractLsb' 32 12 = x8 :=
  (BitVec.extractLsb'_append_eq_of_le (xhi := x1 ++ x2 ++ x3 ++ x4 ++ x5 ++ x6 ++ x7 ++ x8 ++ x9 ++ x10 ++ x11 ++ x12 ++ x13) (xlo := x14) (by decide)).trans <|
  (BitVec.extractLsb'_append_eq_of_le (xhi := x1 ++ x2 ++ x3 ++ x4 ++ x5 ++ x6 ++ x7 ++ x8 ++ x9 ++ x10 ++ x11 ++ x12) (xlo := x13) (by decide)).trans <|
  (BitVec.extractLsb'_append_eq_of_le (xhi := x1 ++ x2 ++ x3 ++ x4 ++ x5 ++ x6 ++ x7 ++ x8 ++ x9 ++ x10 ++ x11) (xlo := x12) (by decide)).trans <|
  (BitVec.extractLsb'_append_eq_of_le (xhi := x1 ++ x2 ++ x3 ++ x4 ++ x5 ++ x6 ++ x7 ++ x8 ++ x9 ++ x10) (xlo := x11) (by decide)).trans <|
  (BitVec.extractLsb'_append_eq_of_le (xhi := x1 ++ x2 ++ x3 ++ x4 ++ x5 ++ x6 ++ x7 ++ x8 ++ x9) (xlo := x10) (by decide)).trans <|
  (BitVec.extractLsb'_append_eq_of_le (xhi := x1 ++ x2 ++ x3 ++ x4 ++ x5 ++ x6 ++ x7 ++ x8) (xlo := x9) (by decide)).trans <|
  (BitVec.extractLsb'_append_eq_of_add_le (xhi := x1 ++ x2 ++ x3 ++ x4 ++ x5 ++ x6 ++ x7) (xlo := x8) (by decide)).trans <|
  BitVec.extractLsb'_eq_self

/-- A field of a packed 64-bit word (02 Table 2.2). -/
theorem Sys2Proof.Laws.w64_len (x1 : BitVec 2) (x2 : BitVec 3) (x3 : BitVec 1) (x4 : BitVec 2) (x5 : BitVec 2) (x6 : BitVec 6) (x7 : BitVec 4) (x8 : BitVec 12) (x9 : BitVec 1) (x10 : BitVec 7) (x11 : BitVec 6) (x12 : BitVec 6) (x13 : BitVec 6) (x14 : BitVec 6) :
    (x1 ++ x2 ++ x3 ++ x4 ++ x5 ++ x6 ++ x7 ++ x8 ++ x9 ++ x10 ++ x11 ++ x12 ++ x13 ++ x14 : BitVec 64).extractLsb' 31 1 = x9 :=
  (BitVec.extractLsb'_append_eq_of_le (xhi := x1 ++ x2 ++ x3 ++ x4 ++ x5 ++ x6 ++ x7 ++ x8 ++ x9 ++ x10 ++ x11 ++ x12 ++ x13) (xlo := x14) (by decide)).trans <|
  (BitVec.extractLsb'_append_eq_of_le (xhi := x1 ++ x2 ++ x3 ++ x4 ++ x5 ++ x6 ++ x7 ++ x8 ++ x9 ++ x10 ++ x11 ++ x12) (xlo := x13) (by decide)).trans <|
  (BitVec.extractLsb'_append_eq_of_le (xhi := x1 ++ x2 ++ x3 ++ x4 ++ x5 ++ x6 ++ x7 ++ x8 ++ x9 ++ x10 ++ x11) (xlo := x12) (by decide)).trans <|
  (BitVec.extractLsb'_append_eq_of_le (xhi := x1 ++ x2 ++ x3 ++ x4 ++ x5 ++ x6 ++ x7 ++ x8 ++ x9 ++ x10) (xlo := x11) (by decide)).trans <|
  (BitVec.extractLsb'_append_eq_of_le (xhi := x1 ++ x2 ++ x3 ++ x4 ++ x5 ++ x6 ++ x7 ++ x8 ++ x9) (xlo := x10) (by decide)).trans <|
  (BitVec.extractLsb'_append_eq_of_add_le (xhi := x1 ++ x2 ++ x3 ++ x4 ++ x5 ++ x6 ++ x7 ++ x8) (xlo := x9) (by decide)).trans <|
  BitVec.extractLsb'_eq_self

/-- A field of a packed 64-bit word (02 Table 2.2). -/
theorem Sys2Proof.Laws.w64_op (x1 : BitVec 2) (x2 : BitVec 3) (x3 : BitVec 1) (x4 : BitVec 2) (x5 : BitVec 2) (x6 : BitVec 6) (x7 : BitVec 4) (x8 : BitVec 12) (x9 : BitVec 1) (x10 : BitVec 7) (x11 : BitVec 6) (x12 : BitVec 6) (x13 : BitVec 6) (x14 : BitVec 6) :
    (x1 ++ x2 ++ x3 ++ x4 ++ x5 ++ x6 ++ x7 ++ x8 ++ x9 ++ x10 ++ x11 ++ x12 ++ x13 ++ x14 : BitVec 64).extractLsb' 24 7 = x10 :=
  (BitVec.extractLsb'_append_eq_of_le (xhi := x1 ++ x2 ++ x3 ++ x4 ++ x5 ++ x6 ++ x7 ++ x8 ++ x9 ++ x10 ++ x11 ++ x12 ++ x13) (xlo := x14) (by decide)).trans <|
  (BitVec.extractLsb'_append_eq_of_le (xhi := x1 ++ x2 ++ x3 ++ x4 ++ x5 ++ x6 ++ x7 ++ x8 ++ x9 ++ x10 ++ x11 ++ x12) (xlo := x13) (by decide)).trans <|
  (BitVec.extractLsb'_append_eq_of_le (xhi := x1 ++ x2 ++ x3 ++ x4 ++ x5 ++ x6 ++ x7 ++ x8 ++ x9 ++ x10 ++ x11) (xlo := x12) (by decide)).trans <|
  (BitVec.extractLsb'_append_eq_of_le (xhi := x1 ++ x2 ++ x3 ++ x4 ++ x5 ++ x6 ++ x7 ++ x8 ++ x9 ++ x10) (xlo := x11) (by decide)).trans <|
  (BitVec.extractLsb'_append_eq_of_add_le (xhi := x1 ++ x2 ++ x3 ++ x4 ++ x5 ++ x6 ++ x7 ++ x8 ++ x9) (xlo := x10) (by decide)).trans <|
  BitVec.extractLsb'_eq_self

/-- A field of a packed 64-bit word (02 Table 2.2). -/
theorem Sys2Proof.Laws.w64_vd (x1 : BitVec 2) (x2 : BitVec 3) (x3 : BitVec 1) (x4 : BitVec 2) (x5 : BitVec 2) (x6 : BitVec 6) (x7 : BitVec 4) (x8 : BitVec 12) (x9 : BitVec 1) (x10 : BitVec 7) (x11 : BitVec 6) (x12 : BitVec 6) (x13 : BitVec 6) (x14 : BitVec 6) :
    (x1 ++ x2 ++ x3 ++ x4 ++ x5 ++ x6 ++ x7 ++ x8 ++ x9 ++ x10 ++ x11 ++ x12 ++ x13 ++ x14 : BitVec 64).extractLsb' 18 6 = x11 :=
  (BitVec.extractLsb'_append_eq_of_le (xhi := x1 ++ x2 ++ x3 ++ x4 ++ x5 ++ x6 ++ x7 ++ x8 ++ x9 ++ x10 ++ x11 ++ x12 ++ x13) (xlo := x14) (by decide)).trans <|
  (BitVec.extractLsb'_append_eq_of_le (xhi := x1 ++ x2 ++ x3 ++ x4 ++ x5 ++ x6 ++ x7 ++ x8 ++ x9 ++ x10 ++ x11 ++ x12) (xlo := x13) (by decide)).trans <|
  (BitVec.extractLsb'_append_eq_of_le (xhi := x1 ++ x2 ++ x3 ++ x4 ++ x5 ++ x6 ++ x7 ++ x8 ++ x9 ++ x10 ++ x11) (xlo := x12) (by decide)).trans <|
  (BitVec.extractLsb'_append_eq_of_add_le (xhi := x1 ++ x2 ++ x3 ++ x4 ++ x5 ++ x6 ++ x7 ++ x8 ++ x9 ++ x10) (xlo := x11) (by decide)).trans <|
  BitVec.extractLsb'_eq_self

/-- A field of a packed 64-bit word (02 Table 2.2). -/
theorem Sys2Proof.Laws.w64_va (x1 : BitVec 2) (x2 : BitVec 3) (x3 : BitVec 1) (x4 : BitVec 2) (x5 : BitVec 2) (x6 : BitVec 6) (x7 : BitVec 4) (x8 : BitVec 12) (x9 : BitVec 1) (x10 : BitVec 7) (x11 : BitVec 6) (x12 : BitVec 6) (x13 : BitVec 6) (x14 : BitVec 6) :
    (x1 ++ x2 ++ x3 ++ x4 ++ x5 ++ x6 ++ x7 ++ x8 ++ x9 ++ x10 ++ x11 ++ x12 ++ x13 ++ x14 : BitVec 64).extractLsb' 12 6 = x12 :=
  (BitVec.extractLsb'_append_eq_of_le (xhi := x1 ++ x2 ++ x3 ++ x4 ++ x5 ++ x6 ++ x7 ++ x8 ++ x9 ++ x10 ++ x11 ++ x12 ++ x13) (xlo := x14) (by decide)).trans <|
  (BitVec.extractLsb'_append_eq_of_le (xhi := x1 ++ x2 ++ x3 ++ x4 ++ x5 ++ x6 ++ x7 ++ x8 ++ x9 ++ x10 ++ x11 ++ x12) (xlo := x13) (by decide)).trans <|
  (BitVec.extractLsb'_append_eq_of_add_le (xhi := x1 ++ x2 ++ x3 ++ x4 ++ x5 ++ x6 ++ x7 ++ x8 ++ x9 ++ x10 ++ x11) (xlo := x12) (by decide)).trans <|
  BitVec.extractLsb'_eq_self

/-- A field of a packed 64-bit word (02 Table 2.2). -/
theorem Sys2Proof.Laws.w64_vb (x1 : BitVec 2) (x2 : BitVec 3) (x3 : BitVec 1) (x4 : BitVec 2) (x5 : BitVec 2) (x6 : BitVec 6) (x7 : BitVec 4) (x8 : BitVec 12) (x9 : BitVec 1) (x10 : BitVec 7) (x11 : BitVec 6) (x12 : BitVec 6) (x13 : BitVec 6) (x14 : BitVec 6) :
    (x1 ++ x2 ++ x3 ++ x4 ++ x5 ++ x6 ++ x7 ++ x8 ++ x9 ++ x10 ++ x11 ++ x12 ++ x13 ++ x14 : BitVec 64).extractLsb' 6 6 = x13 :=
  (BitVec.extractLsb'_append_eq_of_le (xhi := x1 ++ x2 ++ x3 ++ x4 ++ x5 ++ x6 ++ x7 ++ x8 ++ x9 ++ x10 ++ x11 ++ x12 ++ x13) (xlo := x14) (by decide)).trans <|
  (BitVec.extractLsb'_append_eq_of_add_le (xhi := x1 ++ x2 ++ x3 ++ x4 ++ x5 ++ x6 ++ x7 ++ x8 ++ x9 ++ x10 ++ x11 ++ x12) (xlo := x13) (by decide)).trans <|
  BitVec.extractLsb'_eq_self

/-- A field of a packed 64-bit word (02 Table 2.2). -/
theorem Sys2Proof.Laws.w64_vc (x1 : BitVec 2) (x2 : BitVec 3) (x3 : BitVec 1) (x4 : BitVec 2) (x5 : BitVec 2) (x6 : BitVec 6) (x7 : BitVec 4) (x8 : BitVec 12) (x9 : BitVec 1) (x10 : BitVec 7) (x11 : BitVec 6) (x12 : BitVec 6) (x13 : BitVec 6) (x14 : BitVec 6) :
    (x1 ++ x2 ++ x3 ++ x4 ++ x5 ++ x6 ++ x7 ++ x8 ++ x9 ++ x10 ++ x11 ++ x12 ++ x13 ++ x14 : BitVec 64).extractLsb' 0 6 = x14 :=
  (BitVec.extractLsb'_append_eq_of_add_le (xhi := x1 ++ x2 ++ x3 ++ x4 ++ x5 ++ x6 ++ x7 ++ x8 ++ x9 ++ x10 ++ x11 ++ x12 ++ x13) (xlo := x14) (by decide)).trans <|
  BitVec.extractLsb'_eq_self

/-- A 64-bit word gives back the major and the fields it was packed from (02 Table 2.2). -/
theorem Sys2Proof.Laws.unpackWide_packWide (op : BitVec 7) (w : VWord) : unpackWide (packWide op w) = some (op, w) := by
  obtain ⟨form, mask, chain, rsel, rsz, ridx, ety, fn, vd, va, vb, vc⟩ := w
  simp only [unpackWide, packWide, Sys2Proof.Laws.w64_form, Sys2Proof.Laws.w64_ety, Sys2Proof.Laws.w64_op,
    Sys2Proof.Laws.w64_mask, Sys2Proof.Laws.w64_chain, Sys2Proof.Laws.w64_rsel, Sys2Proof.Laws.w64_rsz,
    Sys2Proof.Laws.w64_ridx, Sys2Proof.Laws.w64_fn, Sys2Proof.Laws.w64_vd, Sys2Proof.Laws.w64_va, Sys2Proof.Laws.w64_vb,
    Sys2Proof.Laws.w64_vc]
  cases form <;> cases ety <;> cases rsel <;> cases chain <;> rfl

/-- The length bit of a packed 64-bit word is set (02 R28). -/
theorem Sys2Proof.Laws.length_bit (op : BitVec 7) (w : VWord) : (packWide op w).extractLsb' 31 1 = 1#1 :=
  Sys2Proof.Laws.w64_len ..

/-! ### The round trip -/

/-- What the round trip says of an instruction: the decoder reads a well-formed instruction back from its bytes, whatever
follows them, with every operand (02 R28, R31, R33); an event has no word. -/
def Sys2Proof.Laws.RoundTrip.Statement (i : Sys2Proof.Instr) : Prop :=
  i.wellFormed = true → ∀ (e : Sys2Proof.Encoding) (rest : List Sys2Proof.Byte), Sys2Proof.encode i = some e →
    Sys2Proof.decode 3 (e.bytes ++ rest) = .instr i rest

/-- The round trip of a 32-bit word. -/
theorem Sys2Proof.Laws.RoundTrip.of32 {i : Instr} {w : BitVec 32} (he : encode i = some (.w32 w))
    (hb : w.extractLsb' 31 1 = 0#1) (hr : row32 w = some i) : Statement i := by
  intro hw e rest h
  obtain rfl : e = .w32 w := by rw [he] at h; exact (Option.some.inj h).symm
  have hl := Sys2Proof.Laws.length_leBytes 4 w.toNat
  have hn : leNat (leBytes 4 w.toNat) = w.toNat := by
    rw [Sys2Proof.Laws.leNat_leBytes]; exact Nat.mod_eq_of_lt w.isLt
  have hlt : w.toNat < 2 ^ 31 := by
    have h1 := congrArg BitVec.toNat hb
    simp only [BitVec.extractLsb'_toNat, Nat.shiftRight_eq_div_pow] at h1
    have h2 := w.isLt
    change _ = 0 at h1
    omega
  have hc : i.checks = true := by simp only [Instr.wellFormed, Bool.and_eq_true] at hw; exact hw.2
  have ht : (leBytes 4 w.toNat ++ rest).take 4 = leBytes 4 w.toNat := by rw [List.take_left' hl]
  have hd : (leBytes 4 w.toNat ++ rest).drop 4 = rest := by rw [List.drop_left' hl]
  simp only [decode, Encoding.bytes, ht, hd, hl, hn, if_pos hlt, decode32, BitVec.ofNat_toNat, BitVec.setWidth_eq, hr, checked, hc,
    if_true, Nat.lt_irrefl, if_false]

/-- The round trip of a 64-bit word. -/
theorem Sys2Proof.Laws.RoundTrip.of64 {i : Instr} {w : VWord} (op : BitVec 7) (he : encode i = some (.w64 (packWide op w)))
    (hr : i.named = true → row64 op.toNat w = some i) : Statement i := by
  intro hw e rest h
  obtain rfl : e = .w64 (packWide op w) := by rw [he] at h; exact (Option.some.inj h).symm
  simp only [Instr.wellFormed, Bool.and_eq_true] at hw
  generalize hp : packWide op w = p at *
  have hbit : p.extractLsb' 31 1 = 1#1 := hp ▸ Sys2Proof.Laws.length_bit op w
  have hl := Sys2Proof.Laws.length_leBytes 8 p.toNat
  have hn : leNat (leBytes 8 p.toNat) = p.toNat := by
    rw [Sys2Proof.Laws.leNat_leBytes]; exact Nat.mod_eq_of_lt p.isLt
  have h4 : (leBytes 8 p.toNat).take 4 = leBytes 4 p.toNat := by simp [leBytes]
  have hge : ¬ leNat (leBytes 4 p.toNat) < 2 ^ 31 := by
    rw [Sys2Proof.Laws.leNat_leBytes]
    have h1 := congrArg BitVec.toNat hbit
    simp only [BitVec.extractLsb'_toNat, Nat.shiftRight_eq_div_pow] at h1
    change _ = 1 at h1
    omega
  have ht : (leBytes 8 p.toNat ++ rest).take 8 = leBytes 8 p.toNat := by rw [List.take_left' hl]
  have ht4 : (leBytes 8 p.toNat ++ rest).take 4 = leBytes 4 p.toNat := by
    rw [List.take_append_of_le_length (by omega), h4]
  have hd : (leBytes 8 p.toNat ++ rest).drop 8 = rest := by rw [List.drop_left' hl]
  have hl4 := Sys2Proof.Laws.length_leBytes 4 p.toNat
  have hu : unpackWide p = some (op, w) := hp ▸ Sys2Proof.Laws.unpackWide_packWide op w
  simp only [decode, Encoding.bytes, ht, ht4, hd, hl, hl4, hn, if_neg hge, decode64, rewriteWide, BitVec.ofNat_toNat,
    BitVec.setWidth_eq, hu, hr hw.1, checked, hw.2, if_true, Nat.lt_irrefl, if_false]

/-- An event has no word. -/
theorem Sys2Proof.Laws.RoundTrip.ofEvent {i : Instr} (he : encode i = none) : Statement i := by
  intro _ e _ h
  rw [he] at h
  exact absurd h (by simp)

/-- The round trip of add. -/
theorem Sys2Proof.Laws.RoundTrip.add (d : BitVec 6) (a : BitVec 6) (b : BitVec 6) : Statement (.add d a b) :=
  of32 rfl (by simp only [w32_1_6_6_6_6_7_at_31_1])
    (by simp only [row32, decMajor00, w32_1_6_6_6_6_7_at_0_7, w32_1_6_6_6_6_7_at_13_6, w32_1_6_6_6_6_7_at_19_6, w32_1_6_6_6_6_7_at_25_6, w32_1_6_6_6_6_7_at_7_6, BitVec.reduceToNat])

/-- The round trip of sub. -/
theorem Sys2Proof.Laws.RoundTrip.sub (d : BitVec 6) (a : BitVec 6) (b : BitVec 6) : Statement (.sub d a b) :=
  of32 rfl (by simp only [w32_1_6_6_6_6_7_at_31_1])
    (by simp only [row32, decMajor00, w32_1_6_6_6_6_7_at_0_7, w32_1_6_6_6_6_7_at_13_6, w32_1_6_6_6_6_7_at_19_6, w32_1_6_6_6_6_7_at_25_6, w32_1_6_6_6_6_7_at_7_6, BitVec.reduceToNat])

/-- The round trip of and. -/
theorem Sys2Proof.Laws.RoundTrip.and (d : BitVec 6) (a : BitVec 6) (b : BitVec 6) : Statement (.and d a b) :=
  of32 rfl (by simp only [w32_1_6_6_6_6_7_at_31_1])
    (by simp only [row32, decMajor00, w32_1_6_6_6_6_7_at_0_7, w32_1_6_6_6_6_7_at_13_6, w32_1_6_6_6_6_7_at_19_6, w32_1_6_6_6_6_7_at_25_6, w32_1_6_6_6_6_7_at_7_6, BitVec.reduceToNat])

/-- The round trip of or. -/
theorem Sys2Proof.Laws.RoundTrip.or (d : BitVec 6) (a : BitVec 6) (b : BitVec 6) : Statement (.or d a b) :=
  of32 rfl (by simp only [w32_1_6_6_6_6_7_at_31_1])
    (by simp only [row32, decMajor00, w32_1_6_6_6_6_7_at_0_7, w32_1_6_6_6_6_7_at_13_6, w32_1_6_6_6_6_7_at_19_6, w32_1_6_6_6_6_7_at_25_6, w32_1_6_6_6_6_7_at_7_6, BitVec.reduceToNat])

/-- The round trip of xor. -/
theorem Sys2Proof.Laws.RoundTrip.xor (d : BitVec 6) (a : BitVec 6) (b : BitVec 6) : Statement (.xor d a b) :=
  of32 rfl (by simp only [w32_1_6_6_6_6_7_at_31_1])
    (by simp only [row32, decMajor00, w32_1_6_6_6_6_7_at_0_7, w32_1_6_6_6_6_7_at_13_6, w32_1_6_6_6_6_7_at_19_6, w32_1_6_6_6_6_7_at_25_6, w32_1_6_6_6_6_7_at_7_6, BitVec.reduceToNat])

/-- The round trip of andn. -/
theorem Sys2Proof.Laws.RoundTrip.andn (d : BitVec 6) (a : BitVec 6) (b : BitVec 6) : Statement (.andn d a b) :=
  of32 rfl (by simp only [w32_1_6_6_6_6_7_at_31_1])
    (by simp only [row32, decMajor00, w32_1_6_6_6_6_7_at_0_7, w32_1_6_6_6_6_7_at_13_6, w32_1_6_6_6_6_7_at_19_6, w32_1_6_6_6_6_7_at_25_6, w32_1_6_6_6_6_7_at_7_6, BitVec.reduceToNat])

/-- The round trip of sll. -/
theorem Sys2Proof.Laws.RoundTrip.sll (d : BitVec 6) (a : BitVec 6) (b : BitVec 6) : Statement (.sll d a b) :=
  of32 rfl (by simp only [w32_1_6_6_6_6_7_at_31_1])
    (by simp only [row32, decMajor00, w32_1_6_6_6_6_7_at_0_7, w32_1_6_6_6_6_7_at_13_6, w32_1_6_6_6_6_7_at_19_6, w32_1_6_6_6_6_7_at_25_6, w32_1_6_6_6_6_7_at_7_6, BitVec.reduceToNat])

/-- The round trip of srl. -/
theorem Sys2Proof.Laws.RoundTrip.srl (d : BitVec 6) (a : BitVec 6) (b : BitVec 6) : Statement (.srl d a b) :=
  of32 rfl (by simp only [w32_1_6_6_6_6_7_at_31_1])
    (by simp only [row32, decMajor00, w32_1_6_6_6_6_7_at_0_7, w32_1_6_6_6_6_7_at_13_6, w32_1_6_6_6_6_7_at_19_6, w32_1_6_6_6_6_7_at_25_6, w32_1_6_6_6_6_7_at_7_6, BitVec.reduceToNat])

/-- The round trip of sra. -/
theorem Sys2Proof.Laws.RoundTrip.sra (d : BitVec 6) (a : BitVec 6) (b : BitVec 6) : Statement (.sra d a b) :=
  of32 rfl (by simp only [w32_1_6_6_6_6_7_at_31_1])
    (by simp only [row32, decMajor00, w32_1_6_6_6_6_7_at_0_7, w32_1_6_6_6_6_7_at_13_6, w32_1_6_6_6_6_7_at_19_6, w32_1_6_6_6_6_7_at_25_6, w32_1_6_6_6_6_7_at_7_6, BitVec.reduceToNat])

/-- The round trip of ror. -/
theorem Sys2Proof.Laws.RoundTrip.ror (d : BitVec 6) (a : BitVec 6) (b : BitVec 6) : Statement (.ror d a b) :=
  of32 rfl (by simp only [w32_1_6_6_6_6_7_at_31_1])
    (by simp only [row32, decMajor00, w32_1_6_6_6_6_7_at_0_7, w32_1_6_6_6_6_7_at_13_6, w32_1_6_6_6_6_7_at_19_6, w32_1_6_6_6_6_7_at_25_6, w32_1_6_6_6_6_7_at_7_6, BitVec.reduceToNat])

/-- The round trip of slt. -/
theorem Sys2Proof.Laws.RoundTrip.slt (d : BitVec 6) (a : BitVec 6) (b : BitVec 6) : Statement (.slt d a b) :=
  of32 rfl (by simp only [w32_1_6_6_6_6_7_at_31_1])
    (by simp only [row32, decMajor00, w32_1_6_6_6_6_7_at_0_7, w32_1_6_6_6_6_7_at_13_6, w32_1_6_6_6_6_7_at_19_6, w32_1_6_6_6_6_7_at_25_6, w32_1_6_6_6_6_7_at_7_6, BitVec.reduceToNat])

/-- The round trip of sltn. -/
theorem Sys2Proof.Laws.RoundTrip.sltn (d : BitVec 6) (a : BitVec 6) (b : BitVec 6) : Statement (.sltn d a b) :=
  of32 rfl (by simp only [w32_1_6_6_6_6_7_at_31_1])
    (by simp only [row32, decMajor00, w32_1_6_6_6_6_7_at_0_7, w32_1_6_6_6_6_7_at_13_6, w32_1_6_6_6_6_7_at_19_6, w32_1_6_6_6_6_7_at_25_6, w32_1_6_6_6_6_7_at_7_6, BitVec.reduceToNat])

/-- The round trip of min. -/
theorem Sys2Proof.Laws.RoundTrip.min (d : BitVec 6) (a : BitVec 6) (b : BitVec 6) : Statement (.min d a b) :=
  of32 rfl (by simp only [w32_1_6_6_6_6_7_at_31_1])
    (by simp only [row32, decMajor00, w32_1_6_6_6_6_7_at_0_7, w32_1_6_6_6_6_7_at_13_6, w32_1_6_6_6_6_7_at_19_6, w32_1_6_6_6_6_7_at_25_6, w32_1_6_6_6_6_7_at_7_6, BitVec.reduceToNat])

/-- The round trip of max. -/
theorem Sys2Proof.Laws.RoundTrip.max (d : BitVec 6) (a : BitVec 6) (b : BitVec 6) : Statement (.max d a b) :=
  of32 rfl (by simp only [w32_1_6_6_6_6_7_at_31_1])
    (by simp only [row32, decMajor00, w32_1_6_6_6_6_7_at_0_7, w32_1_6_6_6_6_7_at_13_6, w32_1_6_6_6_6_7_at_19_6, w32_1_6_6_6_6_7_at_25_6, w32_1_6_6_6_6_7_at_7_6, BitVec.reduceToNat])

/-- The round trip of minn. -/
theorem Sys2Proof.Laws.RoundTrip.minn (d : BitVec 6) (a : BitVec 6) (b : BitVec 6) : Statement (.minn d a b) :=
  of32 rfl (by simp only [w32_1_6_6_6_6_7_at_31_1])
    (by simp only [row32, decMajor00, w32_1_6_6_6_6_7_at_0_7, w32_1_6_6_6_6_7_at_13_6, w32_1_6_6_6_6_7_at_19_6, w32_1_6_6_6_6_7_at_25_6, w32_1_6_6_6_6_7_at_7_6, BitVec.reduceToNat])

/-- The round trip of maxn. -/
theorem Sys2Proof.Laws.RoundTrip.maxn (d : BitVec 6) (a : BitVec 6) (b : BitVec 6) : Statement (.maxn d a b) :=
  of32 rfl (by simp only [w32_1_6_6_6_6_7_at_31_1])
    (by simp only [row32, decMajor00, w32_1_6_6_6_6_7_at_0_7, w32_1_6_6_6_6_7_at_13_6, w32_1_6_6_6_6_7_at_19_6, w32_1_6_6_6_6_7_at_25_6, w32_1_6_6_6_6_7_at_7_6, BitVec.reduceToNat])

/-- The round trip of clz. -/
theorem Sys2Proof.Laws.RoundTrip.clz (d : BitVec 6) (a : BitVec 6) : Statement (.clz d a) :=
  of32 rfl (by simp only [w32_1_6_6_6_13_at_31_1])
    (by simp only [row32, decMajor00, w32_1_6_6_6_13_at_0_7, w32_1_6_6_6_13_at_13_6, w32_1_6_6_6_13_at_19_6, w32_1_6_6_6_13_at_25_6, w32_1_6_6_6_13_at_7_6, (show (24#13).extractLsb' 0 7 = 24#7 from rfl), (show (24#13).extractLsb' 7 6 = 0#6 from rfl), BitVec.reduceToNat, reduceIte])

/-- The round trip of ctz. -/
theorem Sys2Proof.Laws.RoundTrip.ctz (d : BitVec 6) (a : BitVec 6) : Statement (.ctz d a) :=
  of32 rfl (by simp only [w32_1_6_6_6_13_at_31_1])
    (by simp only [row32, decMajor00, w32_1_6_6_6_13_at_0_7, w32_1_6_6_6_13_at_13_6, w32_1_6_6_6_13_at_19_6, w32_1_6_6_6_13_at_25_6, w32_1_6_6_6_13_at_7_6, (show (25#13).extractLsb' 0 7 = 25#7 from rfl), (show (25#13).extractLsb' 7 6 = 0#6 from rfl), BitVec.reduceToNat, reduceIte])

/-- The round trip of cpop. -/
theorem Sys2Proof.Laws.RoundTrip.cpop (d : BitVec 6) (a : BitVec 6) : Statement (.cpop d a) :=
  of32 rfl (by simp only [w32_1_6_6_6_13_at_31_1])
    (by simp only [row32, decMajor00, w32_1_6_6_6_13_at_0_7, w32_1_6_6_6_13_at_13_6, w32_1_6_6_6_13_at_19_6, w32_1_6_6_6_13_at_25_6, w32_1_6_6_6_13_at_7_6, (show (26#13).extractLsb' 0 7 = 26#7 from rfl), (show (26#13).extractLsb' 7 6 = 0#6 from rfl), BitVec.reduceToNat, reduceIte])

/-- The round trip of mul. -/
theorem Sys2Proof.Laws.RoundTrip.mul (d : BitVec 6) (a : BitVec 6) (b : BitVec 6) : Statement (.mul d a b) :=
  of32 rfl (by simp only [w32_1_6_6_6_6_7_at_31_1])
    (by simp only [row32, decMajor01, w32_1_6_6_6_6_7_at_0_7, w32_1_6_6_6_6_7_at_13_6, w32_1_6_6_6_6_7_at_19_6, w32_1_6_6_6_6_7_at_25_6, w32_1_6_6_6_6_7_at_7_6, BitVec.reduceToNat])

/-- The round trip of mulh. -/
theorem Sys2Proof.Laws.RoundTrip.mulh (d : BitVec 6) (a : BitVec 6) (b : BitVec 6) : Statement (.mulh d a b) :=
  of32 rfl (by simp only [w32_1_6_6_6_6_7_at_31_1])
    (by simp only [row32, decMajor01, w32_1_6_6_6_6_7_at_0_7, w32_1_6_6_6_6_7_at_13_6, w32_1_6_6_6_6_7_at_19_6, w32_1_6_6_6_6_7_at_25_6, w32_1_6_6_6_6_7_at_7_6, BitVec.reduceToNat])

/-- The round trip of mulhn. -/
theorem Sys2Proof.Laws.RoundTrip.mulhn (d : BitVec 6) (a : BitVec 6) (b : BitVec 6) : Statement (.mulhn d a b) :=
  of32 rfl (by simp only [w32_1_6_6_6_6_7_at_31_1])
    (by simp only [row32, decMajor01, w32_1_6_6_6_6_7_at_0_7, w32_1_6_6_6_6_7_at_13_6, w32_1_6_6_6_6_7_at_19_6, w32_1_6_6_6_6_7_at_25_6, w32_1_6_6_6_6_7_at_7_6, BitVec.reduceToNat])

/-- The round trip of div. -/
theorem Sys2Proof.Laws.RoundTrip.div (d : BitVec 6) (a : BitVec 6) (b : BitVec 6) : Statement (.div d a b) :=
  of32 rfl (by simp only [w32_1_6_6_6_6_7_at_31_1])
    (by simp only [row32, decMajor01, w32_1_6_6_6_6_7_at_0_7, w32_1_6_6_6_6_7_at_13_6, w32_1_6_6_6_6_7_at_19_6, w32_1_6_6_6_6_7_at_25_6, w32_1_6_6_6_6_7_at_7_6, BitVec.reduceToNat])

/-- The round trip of divn. -/
theorem Sys2Proof.Laws.RoundTrip.divn (d : BitVec 6) (a : BitVec 6) (b : BitVec 6) : Statement (.divn d a b) :=
  of32 rfl (by simp only [w32_1_6_6_6_6_7_at_31_1])
    (by simp only [row32, decMajor01, w32_1_6_6_6_6_7_at_0_7, w32_1_6_6_6_6_7_at_13_6, w32_1_6_6_6_6_7_at_19_6, w32_1_6_6_6_6_7_at_25_6, w32_1_6_6_6_6_7_at_7_6, BitVec.reduceToNat])

/-- The round trip of rem. -/
theorem Sys2Proof.Laws.RoundTrip.rem (d : BitVec 6) (a : BitVec 6) (b : BitVec 6) : Statement (.rem d a b) :=
  of32 rfl (by simp only [w32_1_6_6_6_6_7_at_31_1])
    (by simp only [row32, decMajor01, w32_1_6_6_6_6_7_at_0_7, w32_1_6_6_6_6_7_at_13_6, w32_1_6_6_6_6_7_at_19_6, w32_1_6_6_6_6_7_at_25_6, w32_1_6_6_6_6_7_at_7_6, BitVec.reduceToNat])

/-- The round trip of remn. -/
theorem Sys2Proof.Laws.RoundTrip.remn (d : BitVec 6) (a : BitVec 6) (b : BitVec 6) : Statement (.remn d a b) :=
  of32 rfl (by simp only [w32_1_6_6_6_6_7_at_31_1])
    (by simp only [row32, decMajor01, w32_1_6_6_6_6_7_at_0_7, w32_1_6_6_6_6_7_at_13_6, w32_1_6_6_6_6_7_at_19_6, w32_1_6_6_6_6_7_at_25_6, w32_1_6_6_6_6_7_at_7_6, BitVec.reduceToNat])

/-- The round trip of addi. -/
theorem Sys2Proof.Laws.RoundTrip.addi (d : BitVec 6) (a : BitVec 6) (i : BitVec 13) : Statement (.addi d a i) :=
  of32 rfl (by simp only [w32_1_6_6_6_13_at_31_1])
    (by simp only [row32, decMajor02, w32_1_6_6_6_13_at_0_13, w32_1_6_6_6_13_at_13_6, w32_1_6_6_6_13_at_19_6, w32_1_6_6_6_13_at_25_6, BitVec.reduceToNat])

/-- The round trip of andi. -/
theorem Sys2Proof.Laws.RoundTrip.andi (d : BitVec 6) (a : BitVec 6) (i : BitVec 13) : Statement (.andi d a i) :=
  of32 rfl (by simp only [w32_1_6_6_6_13_at_31_1])
    (by simp only [row32, decMajor03, w32_1_6_6_6_13_at_0_13, w32_1_6_6_6_13_at_13_6, w32_1_6_6_6_13_at_19_6, w32_1_6_6_6_13_at_25_6, BitVec.reduceToNat])

/-- The round trip of ori. -/
theorem Sys2Proof.Laws.RoundTrip.ori (d : BitVec 6) (a : BitVec 6) (i : BitVec 13) : Statement (.ori d a i) :=
  of32 rfl (by simp only [w32_1_6_6_6_13_at_31_1])
    (by simp only [row32, decMajor04, w32_1_6_6_6_13_at_0_13, w32_1_6_6_6_13_at_13_6, w32_1_6_6_6_13_at_19_6, w32_1_6_6_6_13_at_25_6, BitVec.reduceToNat])

/-- The round trip of xori. -/
theorem Sys2Proof.Laws.RoundTrip.xori (d : BitVec 6) (a : BitVec 6) (i : BitVec 13) : Statement (.xori d a i) :=
  of32 rfl (by simp only [w32_1_6_6_6_13_at_31_1])
    (by simp only [row32, decMajor05, w32_1_6_6_6_13_at_0_13, w32_1_6_6_6_13_at_13_6, w32_1_6_6_6_13_at_19_6, w32_1_6_6_6_13_at_25_6, BitVec.reduceToNat])

/-- The round trip of slli. -/
theorem Sys2Proof.Laws.RoundTrip.slli (d : BitVec 6) (a : BitVec 6) (h : BitVec 6) : Statement (.slli d a h) :=
  of32 rfl (by simp only [w32_1_6_6_6_7_6_at_31_1])
    (by simp only [row32, decMajor06, w32_1_6_6_6_7_6_at_0_6, w32_1_6_6_6_7_6_at_13_6, w32_1_6_6_6_7_6_at_19_6, w32_1_6_6_6_7_6_at_25_6, w32_1_6_6_6_7_6_at_6_7, BitVec.reduceToNat])

/-- The round trip of srli. -/
theorem Sys2Proof.Laws.RoundTrip.srli (d : BitVec 6) (a : BitVec 6) (h : BitVec 6) : Statement (.srli d a h) :=
  of32 rfl (by simp only [w32_1_6_6_6_7_6_at_31_1])
    (by simp only [row32, decMajor06, w32_1_6_6_6_7_6_at_0_6, w32_1_6_6_6_7_6_at_13_6, w32_1_6_6_6_7_6_at_19_6, w32_1_6_6_6_7_6_at_25_6, w32_1_6_6_6_7_6_at_6_7, BitVec.reduceToNat])

/-- The round trip of srai. -/
theorem Sys2Proof.Laws.RoundTrip.srai (d : BitVec 6) (a : BitVec 6) (h : BitVec 6) : Statement (.srai d a h) :=
  of32 rfl (by simp only [w32_1_6_6_6_7_6_at_31_1])
    (by simp only [row32, decMajor06, w32_1_6_6_6_7_6_at_0_6, w32_1_6_6_6_7_6_at_13_6, w32_1_6_6_6_7_6_at_19_6, w32_1_6_6_6_7_6_at_25_6, w32_1_6_6_6_7_6_at_6_7, BitVec.reduceToNat])

/-- The round trip of slti. -/
theorem Sys2Proof.Laws.RoundTrip.slti (d : BitVec 6) (a : BitVec 6) (i : BitVec 13) : Statement (.slti d a i) :=
  of32 rfl (by simp only [w32_1_6_6_6_13_at_31_1])
    (by simp only [row32, decMajor07, w32_1_6_6_6_13_at_0_13, w32_1_6_6_6_13_at_13_6, w32_1_6_6_6_13_at_19_6, w32_1_6_6_6_13_at_25_6, BitVec.reduceToNat])

/-- The round trip of sltin. -/
theorem Sys2Proof.Laws.RoundTrip.sltin (d : BitVec 6) (a : BitVec 6) (i : BitVec 13) : Statement (.sltin d a i) :=
  of32 rfl (by simp only [w32_1_6_6_6_13_at_31_1])
    (by simp only [row32, decMajor08, w32_1_6_6_6_13_at_0_13, w32_1_6_6_6_13_at_13_6, w32_1_6_6_6_13_at_19_6, w32_1_6_6_6_13_at_25_6, BitVec.reduceToNat])

/-- The round trip of lui. -/
theorem Sys2Proof.Laws.RoundTrip.lui (d : BitVec 6) (i : BitVec 19) : Statement (.lui d i) :=
  of32 rfl (by simp only [w32_1_6_6_19_at_31_1])
    (by simp only [row32, decMajor09, w32_1_6_6_19_at_0_19, w32_1_6_6_19_at_19_6, w32_1_6_6_19_at_25_6, BitVec.reduceToNat])

/-- The round trip of addpc. -/
theorem Sys2Proof.Laws.RoundTrip.addpc (d : BitVec 6) (i : BitVec 19) : Statement (.addpc d i) :=
  of32 rfl (by simp only [w32_1_6_6_19_at_31_1])
    (by simp only [row32, decMajor0A, w32_1_6_6_19_at_0_19, w32_1_6_6_19_at_19_6, w32_1_6_6_19_at_25_6, BitVec.reduceToNat])

/-- The round trip of ldI8. -/
theorem Sys2Proof.Laws.RoundTrip.ldI8 (d : BitVec 6) (a : BitVec 6) (i : BitVec 13) : Statement (.ldI8 d a i) :=
  of32 rfl (by simp only [w32_1_6_6_6_13_at_31_1])
    (by simp only [row32, decMajor0B, w32_1_6_6_6_13_at_0_13, w32_1_6_6_6_13_at_13_6, w32_1_6_6_6_13_at_19_6, w32_1_6_6_6_13_at_25_6, BitVec.reduceToNat])

/-- The round trip of ldI16. -/
theorem Sys2Proof.Laws.RoundTrip.ldI16 (d : BitVec 6) (a : BitVec 6) (i : BitVec 13) : Statement (.ldI16 d a i) :=
  of32 rfl (by simp only [w32_1_6_6_6_13_at_31_1])
    (by simp only [row32, decMajor0C, w32_1_6_6_6_13_at_0_13, w32_1_6_6_6_13_at_13_6, w32_1_6_6_6_13_at_19_6, w32_1_6_6_6_13_at_25_6, BitVec.reduceToNat])

/-- The round trip of ldI32. -/
theorem Sys2Proof.Laws.RoundTrip.ldI32 (d : BitVec 6) (a : BitVec 6) (i : BitVec 13) : Statement (.ldI32 d a i) :=
  of32 rfl (by simp only [w32_1_6_6_6_13_at_31_1])
    (by simp only [row32, decMajor0D, w32_1_6_6_6_13_at_0_13, w32_1_6_6_6_13_at_13_6, w32_1_6_6_6_13_at_19_6, w32_1_6_6_6_13_at_25_6, BitVec.reduceToNat])

/-- The round trip of ldI64. -/
theorem Sys2Proof.Laws.RoundTrip.ldI64 (d : BitVec 6) (a : BitVec 6) (i : BitVec 13) : Statement (.ldI64 d a i) :=
  of32 rfl (by simp only [w32_1_6_6_6_13_at_31_1])
    (by simp only [row32, decMajor0E, w32_1_6_6_6_13_at_0_13, w32_1_6_6_6_13_at_13_6, w32_1_6_6_6_13_at_19_6, w32_1_6_6_6_13_at_25_6, BitVec.reduceToNat])

/-- The round trip of ldN8. -/
theorem Sys2Proof.Laws.RoundTrip.ldN8 (d : BitVec 6) (a : BitVec 6) (i : BitVec 13) : Statement (.ldN8 d a i) :=
  of32 rfl (by simp only [w32_1_6_6_6_13_at_31_1])
    (by simp only [row32, decMajor0F, w32_1_6_6_6_13_at_0_13, w32_1_6_6_6_13_at_13_6, w32_1_6_6_6_13_at_19_6, w32_1_6_6_6_13_at_25_6, BitVec.reduceToNat])

/-- The round trip of ldN16. -/
theorem Sys2Proof.Laws.RoundTrip.ldN16 (d : BitVec 6) (a : BitVec 6) (i : BitVec 13) : Statement (.ldN16 d a i) :=
  of32 rfl (by simp only [w32_1_6_6_6_13_at_31_1])
    (by simp only [row32, decMajor10, w32_1_6_6_6_13_at_0_13, w32_1_6_6_6_13_at_13_6, w32_1_6_6_6_13_at_19_6, w32_1_6_6_6_13_at_25_6, BitVec.reduceToNat])

/-- The round trip of ldN32. -/
theorem Sys2Proof.Laws.RoundTrip.ldN32 (d : BitVec 6) (a : BitVec 6) (i : BitVec 13) : Statement (.ldN32 d a i) :=
  of32 rfl (by simp only [w32_1_6_6_6_13_at_31_1])
    (by simp only [row32, decMajor11, w32_1_6_6_6_13_at_0_13, w32_1_6_6_6_13_at_13_6, w32_1_6_6_6_13_at_19_6, w32_1_6_6_6_13_at_25_6, BitVec.reduceToNat])

/-- The round trip of stI8. -/
theorem Sys2Proof.Laws.RoundTrip.stI8 (a : BitVec 6) (b : BitVec 6) (i : BitVec 13) : Statement (.stI8 a b i) :=
  of32 rfl (by simp only [w32_1_6_6_6_13_at_31_1])
    (by simp only [row32, decMajor12, w32_1_6_6_6_13_at_0_13, w32_1_6_6_6_13_at_13_6, w32_1_6_6_6_13_at_19_6, w32_1_6_6_6_13_at_25_6, BitVec.reduceToNat])

/-- The round trip of stI16. -/
theorem Sys2Proof.Laws.RoundTrip.stI16 (a : BitVec 6) (b : BitVec 6) (i : BitVec 13) : Statement (.stI16 a b i) :=
  of32 rfl (by simp only [w32_1_6_6_6_13_at_31_1])
    (by simp only [row32, decMajor13, w32_1_6_6_6_13_at_0_13, w32_1_6_6_6_13_at_13_6, w32_1_6_6_6_13_at_19_6, w32_1_6_6_6_13_at_25_6, BitVec.reduceToNat])

/-- The round trip of stI32. -/
theorem Sys2Proof.Laws.RoundTrip.stI32 (a : BitVec 6) (b : BitVec 6) (i : BitVec 13) : Statement (.stI32 a b i) :=
  of32 rfl (by simp only [w32_1_6_6_6_13_at_31_1])
    (by simp only [row32, decMajor14, w32_1_6_6_6_13_at_0_13, w32_1_6_6_6_13_at_13_6, w32_1_6_6_6_13_at_19_6, w32_1_6_6_6_13_at_25_6, BitVec.reduceToNat])

/-- The round trip of stI64. -/
theorem Sys2Proof.Laws.RoundTrip.stI64 (a : BitVec 6) (b : BitVec 6) (i : BitVec 13) : Statement (.stI64 a b i) :=
  of32 rfl (by simp only [w32_1_6_6_6_13_at_31_1])
    (by simp only [row32, decMajor15, w32_1_6_6_6_13_at_0_13, w32_1_6_6_6_13_at_13_6, w32_1_6_6_6_13_at_19_6, w32_1_6_6_6_13_at_25_6, BitVec.reduceToNat])

/-- The round trip of mfc. -/
theorem Sys2Proof.Laws.RoundTrip.mfc (d : BitVec 6) (n : BitVec 12) : Statement (.mfc d n) :=
  of32 rfl (by simp only [w32_1_6_6_7_12_at_31_1])
    (by simp only [row32, decMajor16, w32_1_6_6_7_12_at_0_12, w32_1_6_6_7_12_at_12_7, w32_1_6_6_7_12_at_19_6, w32_1_6_6_7_12_at_25_6, BitVec.reduceToNat, reduceIte])

/-- The round trip of mtc. -/
theorem Sys2Proof.Laws.RoundTrip.mtc (a : BitVec 6) (n : BitVec 12) : Statement (.mtc a n) :=
  of32 rfl (by simp only [w32_1_6_6_6_1_12_at_31_1])
    (by simp only [row32, decMajor17, w32_1_6_6_6_1_12_at_0_12, w32_1_6_6_6_1_12_at_12_1, w32_1_6_6_6_1_12_at_13_6, w32_1_6_6_6_1_12_at_19_6, w32_1_6_6_6_1_12_at_25_6, BitVec.reduceToNat, reduceIte, and_self])

/-- The round trip of faddD. -/
theorem Sys2Proof.Laws.RoundTrip.faddD (d : BitVec 6) (a : BitVec 6) (b : BitVec 6) (m : BitVec 3) : Statement (.faddD d a b m) :=
  of32 rfl (by simp only [w32_1_6_6_6_6_3_4_at_31_1])
    (by simp only [row32, decMajor20, w32_1_6_6_6_6_3_4_at_0_4, w32_1_6_6_6_6_3_4_at_13_6, w32_1_6_6_6_6_3_4_at_19_6, w32_1_6_6_6_6_3_4_at_25_6, w32_1_6_6_6_6_3_4_at_4_3, w32_1_6_6_6_6_3_4_at_7_6, BitVec.reduceToNat])

/-- The round trip of fsubD. -/
theorem Sys2Proof.Laws.RoundTrip.fsubD (d : BitVec 6) (a : BitVec 6) (b : BitVec 6) (m : BitVec 3) : Statement (.fsubD d a b m) :=
  of32 rfl (by simp only [w32_1_6_6_6_6_3_4_at_31_1])
    (by simp only [row32, decMajor20, w32_1_6_6_6_6_3_4_at_0_4, w32_1_6_6_6_6_3_4_at_13_6, w32_1_6_6_6_6_3_4_at_19_6, w32_1_6_6_6_6_3_4_at_25_6, w32_1_6_6_6_6_3_4_at_4_3, w32_1_6_6_6_6_3_4_at_7_6, BitVec.reduceToNat])

/-- The round trip of fmulD. -/
theorem Sys2Proof.Laws.RoundTrip.fmulD (d : BitVec 6) (a : BitVec 6) (b : BitVec 6) (m : BitVec 3) : Statement (.fmulD d a b m) :=
  of32 rfl (by simp only [w32_1_6_6_6_6_3_4_at_31_1])
    (by simp only [row32, decMajor20, w32_1_6_6_6_6_3_4_at_0_4, w32_1_6_6_6_6_3_4_at_13_6, w32_1_6_6_6_6_3_4_at_19_6, w32_1_6_6_6_6_3_4_at_25_6, w32_1_6_6_6_6_3_4_at_4_3, w32_1_6_6_6_6_3_4_at_7_6, BitVec.reduceToNat])

/-- The round trip of fdivD. -/
theorem Sys2Proof.Laws.RoundTrip.fdivD (d : BitVec 6) (a : BitVec 6) (b : BitVec 6) (m : BitVec 3) : Statement (.fdivD d a b m) :=
  of32 rfl (by simp only [w32_1_6_6_6_6_3_4_at_31_1])
    (by simp only [row32, decMajor20, w32_1_6_6_6_6_3_4_at_0_4, w32_1_6_6_6_6_3_4_at_13_6, w32_1_6_6_6_6_3_4_at_19_6, w32_1_6_6_6_6_3_4_at_25_6, w32_1_6_6_6_6_3_4_at_4_3, w32_1_6_6_6_6_3_4_at_7_6, BitVec.reduceToNat])

/-- The round trip of fsqrtD. -/
theorem Sys2Proof.Laws.RoundTrip.fsqrtD (d : BitVec 6) (a : BitVec 6) (m : BitVec 3) : Statement (.fsqrtD d a m) :=
  of32 rfl (by simp only [w32_1_6_6_6_6_3_4_at_31_1])
    (by simp only [row32, decMajor20, w32_1_6_6_6_6_3_4_at_0_4, w32_1_6_6_6_6_3_4_at_13_6, w32_1_6_6_6_6_3_4_at_19_6, w32_1_6_6_6_6_3_4_at_25_6, w32_1_6_6_6_6_3_4_at_4_3, w32_1_6_6_6_6_3_4_at_7_6, BitVec.reduceToNat, reduceIte])

/-- The round trip of fminD. -/
theorem Sys2Proof.Laws.RoundTrip.fminD (d : BitVec 6) (a : BitVec 6) (b : BitVec 6) : Statement (.fminD d a b) :=
  of32 rfl (by simp only [w32_1_6_6_6_6_7_at_31_1])
    (by simp only [row32, decMajor20, w32_1_6_6_6_6_7_at_0_4, w32_1_6_6_6_6_7_at_13_6, w32_1_6_6_6_6_7_at_19_6, w32_1_6_6_6_6_7_at_25_6, w32_1_6_6_6_6_7_at_4_3, w32_1_6_6_6_6_7_at_7_6, (show (5#7).extractLsb' 0 4 = 5#4 from rfl), (show (5#7).extractLsb' 4 3 = 0#3 from rfl), BitVec.reduceToNat, reduceIte])

/-- The round trip of fmaxD. -/
theorem Sys2Proof.Laws.RoundTrip.fmaxD (d : BitVec 6) (a : BitVec 6) (b : BitVec 6) : Statement (.fmaxD d a b) :=
  of32 rfl (by simp only [w32_1_6_6_6_6_7_at_31_1])
    (by simp only [row32, decMajor20, w32_1_6_6_6_6_7_at_0_4, w32_1_6_6_6_6_7_at_13_6, w32_1_6_6_6_6_7_at_19_6, w32_1_6_6_6_6_7_at_25_6, w32_1_6_6_6_6_7_at_4_3, w32_1_6_6_6_6_7_at_7_6, (show (6#7).extractLsb' 0 4 = 6#4 from rfl), (show (6#7).extractLsb' 4 3 = 0#3 from rfl), BitVec.reduceToNat, reduceIte])

/-- The round trip of fsignCD. -/
theorem Sys2Proof.Laws.RoundTrip.fsignCD (d : BitVec 6) (a : BitVec 6) (b : BitVec 6) : Statement (.fsignCD d a b) :=
  of32 rfl (by simp only [w32_1_6_6_6_6_7_at_31_1])
    (by simp only [row32, decMajor20, w32_1_6_6_6_6_7_at_0_4, w32_1_6_6_6_6_7_at_13_6, w32_1_6_6_6_6_7_at_19_6, w32_1_6_6_6_6_7_at_25_6, w32_1_6_6_6_6_7_at_4_3, w32_1_6_6_6_6_7_at_7_6, (show (7#7).extractLsb' 0 4 = 7#4 from rfl), (show (7#7).extractLsb' 4 3 = 0#3 from rfl), BitVec.reduceToNat, reduceIte])

/-- The round trip of fsignND. -/
theorem Sys2Proof.Laws.RoundTrip.fsignND (d : BitVec 6) (a : BitVec 6) (b : BitVec 6) : Statement (.fsignND d a b) :=
  of32 rfl (by simp only [w32_1_6_6_6_6_7_at_31_1])
    (by simp only [row32, decMajor20, w32_1_6_6_6_6_7_at_0_4, w32_1_6_6_6_6_7_at_13_6, w32_1_6_6_6_6_7_at_19_6, w32_1_6_6_6_6_7_at_25_6, w32_1_6_6_6_6_7_at_4_3, w32_1_6_6_6_6_7_at_7_6, (show (8#7).extractLsb' 0 4 = 8#4 from rfl), (show (8#7).extractLsb' 4 3 = 0#3 from rfl), BitVec.reduceToNat, reduceIte])

/-- The round trip of fsignXD. -/
theorem Sys2Proof.Laws.RoundTrip.fsignXD (d : BitVec 6) (a : BitVec 6) (b : BitVec 6) : Statement (.fsignXD d a b) :=
  of32 rfl (by simp only [w32_1_6_6_6_6_7_at_31_1])
    (by simp only [row32, decMajor20, w32_1_6_6_6_6_7_at_0_4, w32_1_6_6_6_6_7_at_13_6, w32_1_6_6_6_6_7_at_19_6, w32_1_6_6_6_6_7_at_25_6, w32_1_6_6_6_6_7_at_4_3, w32_1_6_6_6_6_7_at_7_6, (show (9#7).extractLsb' 0 4 = 9#4 from rfl), (show (9#7).extractLsb' 4 3 = 0#3 from rfl), BitVec.reduceToNat, reduceIte])

/-- The round trip of faddS. -/
theorem Sys2Proof.Laws.RoundTrip.faddS (d : BitVec 6) (a : BitVec 6) (b : BitVec 6) (m : BitVec 3) : Statement (.faddS d a b m) :=
  of32 rfl (by simp only [w32_1_6_6_6_6_3_4_at_31_1])
    (by simp only [row32, decMajor21, w32_1_6_6_6_6_3_4_at_0_4, w32_1_6_6_6_6_3_4_at_13_6, w32_1_6_6_6_6_3_4_at_19_6, w32_1_6_6_6_6_3_4_at_25_6, w32_1_6_6_6_6_3_4_at_4_3, w32_1_6_6_6_6_3_4_at_7_6, BitVec.reduceToNat])

/-- The round trip of fsubS. -/
theorem Sys2Proof.Laws.RoundTrip.fsubS (d : BitVec 6) (a : BitVec 6) (b : BitVec 6) (m : BitVec 3) : Statement (.fsubS d a b m) :=
  of32 rfl (by simp only [w32_1_6_6_6_6_3_4_at_31_1])
    (by simp only [row32, decMajor21, w32_1_6_6_6_6_3_4_at_0_4, w32_1_6_6_6_6_3_4_at_13_6, w32_1_6_6_6_6_3_4_at_19_6, w32_1_6_6_6_6_3_4_at_25_6, w32_1_6_6_6_6_3_4_at_4_3, w32_1_6_6_6_6_3_4_at_7_6, BitVec.reduceToNat])

/-- The round trip of fmulS. -/
theorem Sys2Proof.Laws.RoundTrip.fmulS (d : BitVec 6) (a : BitVec 6) (b : BitVec 6) (m : BitVec 3) : Statement (.fmulS d a b m) :=
  of32 rfl (by simp only [w32_1_6_6_6_6_3_4_at_31_1])
    (by simp only [row32, decMajor21, w32_1_6_6_6_6_3_4_at_0_4, w32_1_6_6_6_6_3_4_at_13_6, w32_1_6_6_6_6_3_4_at_19_6, w32_1_6_6_6_6_3_4_at_25_6, w32_1_6_6_6_6_3_4_at_4_3, w32_1_6_6_6_6_3_4_at_7_6, BitVec.reduceToNat])

/-- The round trip of fdivS. -/
theorem Sys2Proof.Laws.RoundTrip.fdivS (d : BitVec 6) (a : BitVec 6) (b : BitVec 6) (m : BitVec 3) : Statement (.fdivS d a b m) :=
  of32 rfl (by simp only [w32_1_6_6_6_6_3_4_at_31_1])
    (by simp only [row32, decMajor21, w32_1_6_6_6_6_3_4_at_0_4, w32_1_6_6_6_6_3_4_at_13_6, w32_1_6_6_6_6_3_4_at_19_6, w32_1_6_6_6_6_3_4_at_25_6, w32_1_6_6_6_6_3_4_at_4_3, w32_1_6_6_6_6_3_4_at_7_6, BitVec.reduceToNat])

/-- The round trip of fsqrtS. -/
theorem Sys2Proof.Laws.RoundTrip.fsqrtS (d : BitVec 6) (a : BitVec 6) (m : BitVec 3) : Statement (.fsqrtS d a m) :=
  of32 rfl (by simp only [w32_1_6_6_6_6_3_4_at_31_1])
    (by simp only [row32, decMajor21, w32_1_6_6_6_6_3_4_at_0_4, w32_1_6_6_6_6_3_4_at_13_6, w32_1_6_6_6_6_3_4_at_19_6, w32_1_6_6_6_6_3_4_at_25_6, w32_1_6_6_6_6_3_4_at_4_3, w32_1_6_6_6_6_3_4_at_7_6, BitVec.reduceToNat, reduceIte])

/-- The round trip of fminS. -/
theorem Sys2Proof.Laws.RoundTrip.fminS (d : BitVec 6) (a : BitVec 6) (b : BitVec 6) : Statement (.fminS d a b) :=
  of32 rfl (by simp only [w32_1_6_6_6_6_7_at_31_1])
    (by simp only [row32, decMajor21, w32_1_6_6_6_6_7_at_0_4, w32_1_6_6_6_6_7_at_13_6, w32_1_6_6_6_6_7_at_19_6, w32_1_6_6_6_6_7_at_25_6, w32_1_6_6_6_6_7_at_4_3, w32_1_6_6_6_6_7_at_7_6, (show (5#7).extractLsb' 0 4 = 5#4 from rfl), (show (5#7).extractLsb' 4 3 = 0#3 from rfl), BitVec.reduceToNat, reduceIte])

/-- The round trip of fmaxS. -/
theorem Sys2Proof.Laws.RoundTrip.fmaxS (d : BitVec 6) (a : BitVec 6) (b : BitVec 6) : Statement (.fmaxS d a b) :=
  of32 rfl (by simp only [w32_1_6_6_6_6_7_at_31_1])
    (by simp only [row32, decMajor21, w32_1_6_6_6_6_7_at_0_4, w32_1_6_6_6_6_7_at_13_6, w32_1_6_6_6_6_7_at_19_6, w32_1_6_6_6_6_7_at_25_6, w32_1_6_6_6_6_7_at_4_3, w32_1_6_6_6_6_7_at_7_6, (show (6#7).extractLsb' 0 4 = 6#4 from rfl), (show (6#7).extractLsb' 4 3 = 0#3 from rfl), BitVec.reduceToNat, reduceIte])

/-- The round trip of fsignCS. -/
theorem Sys2Proof.Laws.RoundTrip.fsignCS (d : BitVec 6) (a : BitVec 6) (b : BitVec 6) : Statement (.fsignCS d a b) :=
  of32 rfl (by simp only [w32_1_6_6_6_6_7_at_31_1])
    (by simp only [row32, decMajor21, w32_1_6_6_6_6_7_at_0_4, w32_1_6_6_6_6_7_at_13_6, w32_1_6_6_6_6_7_at_19_6, w32_1_6_6_6_6_7_at_25_6, w32_1_6_6_6_6_7_at_4_3, w32_1_6_6_6_6_7_at_7_6, (show (7#7).extractLsb' 0 4 = 7#4 from rfl), (show (7#7).extractLsb' 4 3 = 0#3 from rfl), BitVec.reduceToNat, reduceIte])

/-- The round trip of fsignNS. -/
theorem Sys2Proof.Laws.RoundTrip.fsignNS (d : BitVec 6) (a : BitVec 6) (b : BitVec 6) : Statement (.fsignNS d a b) :=
  of32 rfl (by simp only [w32_1_6_6_6_6_7_at_31_1])
    (by simp only [row32, decMajor21, w32_1_6_6_6_6_7_at_0_4, w32_1_6_6_6_6_7_at_13_6, w32_1_6_6_6_6_7_at_19_6, w32_1_6_6_6_6_7_at_25_6, w32_1_6_6_6_6_7_at_4_3, w32_1_6_6_6_6_7_at_7_6, (show (8#7).extractLsb' 0 4 = 8#4 from rfl), (show (8#7).extractLsb' 4 3 = 0#3 from rfl), BitVec.reduceToNat, reduceIte])

/-- The round trip of fsignXS. -/
theorem Sys2Proof.Laws.RoundTrip.fsignXS (d : BitVec 6) (a : BitVec 6) (b : BitVec 6) : Statement (.fsignXS d a b) :=
  of32 rfl (by simp only [w32_1_6_6_6_6_7_at_31_1])
    (by simp only [row32, decMajor21, w32_1_6_6_6_6_7_at_0_4, w32_1_6_6_6_6_7_at_13_6, w32_1_6_6_6_6_7_at_19_6, w32_1_6_6_6_6_7_at_25_6, w32_1_6_6_6_6_7_at_4_3, w32_1_6_6_6_6_7_at_7_6, (show (9#7).extractLsb' 0 4 = 9#4 from rfl), (show (9#7).extractLsb' 4 3 = 0#3 from rfl), BitVec.reduceToNat, reduceIte])

/-- The round trip of fmaddD. -/
theorem Sys2Proof.Laws.RoundTrip.fmaddD (d : BitVec 6) (a : BitVec 6) (b : BitVec 6) (m : BitVec 3) : Statement (.fmaddD d a b m) :=
  of32 rfl (by simp only [w32_1_6_6_6_6_3_4_at_31_1])
    (by simp only [row32, decMajor22, w32_1_6_6_6_6_3_4_at_0_4, w32_1_6_6_6_6_3_4_at_13_6, w32_1_6_6_6_6_3_4_at_19_6, w32_1_6_6_6_6_3_4_at_25_6, w32_1_6_6_6_6_3_4_at_4_3, w32_1_6_6_6_6_3_4_at_7_6, BitVec.reduceToNat])

/-- The round trip of fmsubD. -/
theorem Sys2Proof.Laws.RoundTrip.fmsubD (d : BitVec 6) (a : BitVec 6) (b : BitVec 6) (m : BitVec 3) : Statement (.fmsubD d a b m) :=
  of32 rfl (by simp only [w32_1_6_6_6_6_3_4_at_31_1])
    (by simp only [row32, decMajor22, w32_1_6_6_6_6_3_4_at_0_4, w32_1_6_6_6_6_3_4_at_13_6, w32_1_6_6_6_6_3_4_at_19_6, w32_1_6_6_6_6_3_4_at_25_6, w32_1_6_6_6_6_3_4_at_4_3, w32_1_6_6_6_6_3_4_at_7_6, BitVec.reduceToNat])

/-- The round trip of fnmaddD. -/
theorem Sys2Proof.Laws.RoundTrip.fnmaddD (d : BitVec 6) (a : BitVec 6) (b : BitVec 6) (m : BitVec 3) : Statement (.fnmaddD d a b m) :=
  of32 rfl (by simp only [w32_1_6_6_6_6_3_4_at_31_1])
    (by simp only [row32, decMajor22, w32_1_6_6_6_6_3_4_at_0_4, w32_1_6_6_6_6_3_4_at_13_6, w32_1_6_6_6_6_3_4_at_19_6, w32_1_6_6_6_6_3_4_at_25_6, w32_1_6_6_6_6_3_4_at_4_3, w32_1_6_6_6_6_3_4_at_7_6, BitVec.reduceToNat])

/-- The round trip of fnmsubD. -/
theorem Sys2Proof.Laws.RoundTrip.fnmsubD (d : BitVec 6) (a : BitVec 6) (b : BitVec 6) (m : BitVec 3) : Statement (.fnmsubD d a b m) :=
  of32 rfl (by simp only [w32_1_6_6_6_6_3_4_at_31_1])
    (by simp only [row32, decMajor22, w32_1_6_6_6_6_3_4_at_0_4, w32_1_6_6_6_6_3_4_at_13_6, w32_1_6_6_6_6_3_4_at_19_6, w32_1_6_6_6_6_3_4_at_25_6, w32_1_6_6_6_6_3_4_at_4_3, w32_1_6_6_6_6_3_4_at_7_6, BitVec.reduceToNat])

/-- The round trip of fmaddS. -/
theorem Sys2Proof.Laws.RoundTrip.fmaddS (d : BitVec 6) (a : BitVec 6) (b : BitVec 6) (m : BitVec 3) : Statement (.fmaddS d a b m) :=
  of32 rfl (by simp only [w32_1_6_6_6_6_3_4_at_31_1])
    (by simp only [row32, decMajor22, w32_1_6_6_6_6_3_4_at_0_4, w32_1_6_6_6_6_3_4_at_13_6, w32_1_6_6_6_6_3_4_at_19_6, w32_1_6_6_6_6_3_4_at_25_6, w32_1_6_6_6_6_3_4_at_4_3, w32_1_6_6_6_6_3_4_at_7_6, BitVec.reduceToNat])

/-- The round trip of fmsubS. -/
theorem Sys2Proof.Laws.RoundTrip.fmsubS (d : BitVec 6) (a : BitVec 6) (b : BitVec 6) (m : BitVec 3) : Statement (.fmsubS d a b m) :=
  of32 rfl (by simp only [w32_1_6_6_6_6_3_4_at_31_1])
    (by simp only [row32, decMajor22, w32_1_6_6_6_6_3_4_at_0_4, w32_1_6_6_6_6_3_4_at_13_6, w32_1_6_6_6_6_3_4_at_19_6, w32_1_6_6_6_6_3_4_at_25_6, w32_1_6_6_6_6_3_4_at_4_3, w32_1_6_6_6_6_3_4_at_7_6, BitVec.reduceToNat])

/-- The round trip of fnmaddS. -/
theorem Sys2Proof.Laws.RoundTrip.fnmaddS (d : BitVec 6) (a : BitVec 6) (b : BitVec 6) (m : BitVec 3) : Statement (.fnmaddS d a b m) :=
  of32 rfl (by simp only [w32_1_6_6_6_6_3_4_at_31_1])
    (by simp only [row32, decMajor22, w32_1_6_6_6_6_3_4_at_0_4, w32_1_6_6_6_6_3_4_at_13_6, w32_1_6_6_6_6_3_4_at_19_6, w32_1_6_6_6_6_3_4_at_25_6, w32_1_6_6_6_6_3_4_at_4_3, w32_1_6_6_6_6_3_4_at_7_6, BitVec.reduceToNat])

/-- The round trip of fnmsubS. -/
theorem Sys2Proof.Laws.RoundTrip.fnmsubS (d : BitVec 6) (a : BitVec 6) (b : BitVec 6) (m : BitVec 3) : Statement (.fnmsubS d a b m) :=
  of32 rfl (by simp only [w32_1_6_6_6_6_3_4_at_31_1])
    (by simp only [row32, decMajor22, w32_1_6_6_6_6_3_4_at_0_4, w32_1_6_6_6_6_3_4_at_13_6, w32_1_6_6_6_6_3_4_at_19_6, w32_1_6_6_6_6_3_4_at_25_6, w32_1_6_6_6_6_3_4_at_4_3, w32_1_6_6_6_6_3_4_at_7_6, BitVec.reduceToNat])

/-- The round trip of cvtDS. -/
theorem Sys2Proof.Laws.RoundTrip.cvtDS (d : BitVec 6) (a : BitVec 6) : Statement (.cvtDS d a) :=
  of32 rfl (by simp only [w32_1_6_6_6_13_at_31_1])
    (by simp only [row32, decMajor23, w32_1_6_6_6_13_at_0_4, w32_1_6_6_6_13_at_13_6, w32_1_6_6_6_13_at_19_6, w32_1_6_6_6_13_at_25_6, w32_1_6_6_6_13_at_4_9, (show (0#13).extractLsb' 0 4 = 0#4 from rfl), (show (0#13).extractLsb' 4 9 = 0#9 from rfl), BitVec.reduceToNat, reduceIte])

/-- The round trip of cvtSD. -/
theorem Sys2Proof.Laws.RoundTrip.cvtSD (d : BitVec 6) (a : BitVec 6) (m : BitVec 3) : Statement (.cvtSD d a m) :=
  of32 rfl (by simp only [w32_1_6_6_6_6_3_4_at_31_1])
    (by simp only [row32, decMajor23, w32_1_6_6_6_6_3_4_at_0_4, w32_1_6_6_6_6_3_4_at_13_6, w32_1_6_6_6_6_3_4_at_19_6, w32_1_6_6_6_6_3_4_at_25_6, w32_1_6_6_6_6_3_4_at_4_3, w32_1_6_6_6_6_3_4_at_7_6, BitVec.reduceToNat, reduceIte])

/-- The round trip of cvtDI64. -/
theorem Sys2Proof.Laws.RoundTrip.cvtDI64 (d : BitVec 6) (a : BitVec 6) (m : BitVec 3) : Statement (.cvtDI64 d a m) :=
  of32 rfl (by simp only [w32_1_6_6_6_6_3_4_at_31_1])
    (by simp only [row32, decMajor23, w32_1_6_6_6_6_3_4_at_0_4, w32_1_6_6_6_6_3_4_at_13_6, w32_1_6_6_6_6_3_4_at_19_6, w32_1_6_6_6_6_3_4_at_25_6, w32_1_6_6_6_6_3_4_at_4_3, w32_1_6_6_6_6_3_4_at_7_6, BitVec.reduceToNat, reduceIte])

/-- The round trip of cvtDN64. -/
theorem Sys2Proof.Laws.RoundTrip.cvtDN64 (d : BitVec 6) (a : BitVec 6) (m : BitVec 3) : Statement (.cvtDN64 d a m) :=
  of32 rfl (by simp only [w32_1_6_6_6_6_3_4_at_31_1])
    (by simp only [row32, decMajor23, w32_1_6_6_6_6_3_4_at_0_4, w32_1_6_6_6_6_3_4_at_13_6, w32_1_6_6_6_6_3_4_at_19_6, w32_1_6_6_6_6_3_4_at_25_6, w32_1_6_6_6_6_3_4_at_4_3, w32_1_6_6_6_6_3_4_at_7_6, BitVec.reduceToNat, reduceIte])

/-- The round trip of cvtSI64. -/
theorem Sys2Proof.Laws.RoundTrip.cvtSI64 (d : BitVec 6) (a : BitVec 6) (m : BitVec 3) : Statement (.cvtSI64 d a m) :=
  of32 rfl (by simp only [w32_1_6_6_6_6_3_4_at_31_1])
    (by simp only [row32, decMajor23, w32_1_6_6_6_6_3_4_at_0_4, w32_1_6_6_6_6_3_4_at_13_6, w32_1_6_6_6_6_3_4_at_19_6, w32_1_6_6_6_6_3_4_at_25_6, w32_1_6_6_6_6_3_4_at_4_3, w32_1_6_6_6_6_3_4_at_7_6, BitVec.reduceToNat, reduceIte])

/-- The round trip of cvtSN64. -/
theorem Sys2Proof.Laws.RoundTrip.cvtSN64 (d : BitVec 6) (a : BitVec 6) (m : BitVec 3) : Statement (.cvtSN64 d a m) :=
  of32 rfl (by simp only [w32_1_6_6_6_6_3_4_at_31_1])
    (by simp only [row32, decMajor23, w32_1_6_6_6_6_3_4_at_0_4, w32_1_6_6_6_6_3_4_at_13_6, w32_1_6_6_6_6_3_4_at_19_6, w32_1_6_6_6_6_3_4_at_25_6, w32_1_6_6_6_6_3_4_at_4_3, w32_1_6_6_6_6_3_4_at_7_6, BitVec.reduceToNat, reduceIte])

/-- The round trip of cvtI64D. -/
theorem Sys2Proof.Laws.RoundTrip.cvtI64D (d : BitVec 6) (a : BitVec 6) (m : BitVec 3) : Statement (.cvtI64D d a m) :=
  of32 rfl (by simp only [w32_1_6_6_6_6_3_4_at_31_1])
    (by simp only [row32, decMajor23, w32_1_6_6_6_6_3_4_at_0_4, w32_1_6_6_6_6_3_4_at_13_6, w32_1_6_6_6_6_3_4_at_19_6, w32_1_6_6_6_6_3_4_at_25_6, w32_1_6_6_6_6_3_4_at_4_3, w32_1_6_6_6_6_3_4_at_7_6, BitVec.reduceToNat, reduceIte])

/-- The round trip of cvtN64D. -/
theorem Sys2Proof.Laws.RoundTrip.cvtN64D (d : BitVec 6) (a : BitVec 6) (m : BitVec 3) : Statement (.cvtN64D d a m) :=
  of32 rfl (by simp only [w32_1_6_6_6_6_3_4_at_31_1])
    (by simp only [row32, decMajor23, w32_1_6_6_6_6_3_4_at_0_4, w32_1_6_6_6_6_3_4_at_13_6, w32_1_6_6_6_6_3_4_at_19_6, w32_1_6_6_6_6_3_4_at_25_6, w32_1_6_6_6_6_3_4_at_4_3, w32_1_6_6_6_6_3_4_at_7_6, BitVec.reduceToNat, reduceIte])

/-- The round trip of cvtI64S. -/
theorem Sys2Proof.Laws.RoundTrip.cvtI64S (d : BitVec 6) (a : BitVec 6) (m : BitVec 3) : Statement (.cvtI64S d a m) :=
  of32 rfl (by simp only [w32_1_6_6_6_6_3_4_at_31_1])
    (by simp only [row32, decMajor23, w32_1_6_6_6_6_3_4_at_0_4, w32_1_6_6_6_6_3_4_at_13_6, w32_1_6_6_6_6_3_4_at_19_6, w32_1_6_6_6_6_3_4_at_25_6, w32_1_6_6_6_6_3_4_at_4_3, w32_1_6_6_6_6_3_4_at_7_6, BitVec.reduceToNat, reduceIte])

/-- The round trip of cvtN64S. -/
theorem Sys2Proof.Laws.RoundTrip.cvtN64S (d : BitVec 6) (a : BitVec 6) (m : BitVec 3) : Statement (.cvtN64S d a m) :=
  of32 rfl (by simp only [w32_1_6_6_6_6_3_4_at_31_1])
    (by simp only [row32, decMajor23, w32_1_6_6_6_6_3_4_at_0_4, w32_1_6_6_6_6_3_4_at_13_6, w32_1_6_6_6_6_3_4_at_19_6, w32_1_6_6_6_6_3_4_at_25_6, w32_1_6_6_6_6_3_4_at_4_3, w32_1_6_6_6_6_3_4_at_7_6, BitVec.reduceToNat, reduceIte])

/-- The round trip of fcmpEqD. -/
theorem Sys2Proof.Laws.RoundTrip.fcmpEqD (d : BitVec 6) (a : BitVec 6) (b : BitVec 6) : Statement (.fcmpEqD d a b) :=
  of32 rfl (by simp only [w32_1_6_6_6_6_7_at_31_1])
    (by simp only [row32, decMajor24, w32_1_6_6_6_6_7_at_0_7, w32_1_6_6_6_6_7_at_13_6, w32_1_6_6_6_6_7_at_19_6, w32_1_6_6_6_6_7_at_25_6, w32_1_6_6_6_6_7_at_7_6, BitVec.reduceToNat])

/-- The round trip of fcmpLtD. -/
theorem Sys2Proof.Laws.RoundTrip.fcmpLtD (d : BitVec 6) (a : BitVec 6) (b : BitVec 6) : Statement (.fcmpLtD d a b) :=
  of32 rfl (by simp only [w32_1_6_6_6_6_7_at_31_1])
    (by simp only [row32, decMajor24, w32_1_6_6_6_6_7_at_0_7, w32_1_6_6_6_6_7_at_13_6, w32_1_6_6_6_6_7_at_19_6, w32_1_6_6_6_6_7_at_25_6, w32_1_6_6_6_6_7_at_7_6, BitVec.reduceToNat])

/-- The round trip of fcmpLeD. -/
theorem Sys2Proof.Laws.RoundTrip.fcmpLeD (d : BitVec 6) (a : BitVec 6) (b : BitVec 6) : Statement (.fcmpLeD d a b) :=
  of32 rfl (by simp only [w32_1_6_6_6_6_7_at_31_1])
    (by simp only [row32, decMajor24, w32_1_6_6_6_6_7_at_0_7, w32_1_6_6_6_6_7_at_13_6, w32_1_6_6_6_6_7_at_19_6, w32_1_6_6_6_6_7_at_25_6, w32_1_6_6_6_6_7_at_7_6, BitVec.reduceToNat])

/-- The round trip of fkindD. -/
theorem Sys2Proof.Laws.RoundTrip.fkindD (d : BitVec 6) (a : BitVec 6) : Statement (.fkindD d a) :=
  of32 rfl (by simp only [w32_1_6_6_6_13_at_31_1])
    (by simp only [row32, decMajor24, w32_1_6_6_6_13_at_0_7, w32_1_6_6_6_13_at_13_6, w32_1_6_6_6_13_at_19_6, w32_1_6_6_6_13_at_25_6, w32_1_6_6_6_13_at_7_6, (show (3#13).extractLsb' 0 7 = 3#7 from rfl), (show (3#13).extractLsb' 7 6 = 0#6 from rfl), BitVec.reduceToNat, reduceIte])

/-- The round trip of fcmpEqS. -/
theorem Sys2Proof.Laws.RoundTrip.fcmpEqS (d : BitVec 6) (a : BitVec 6) (b : BitVec 6) : Statement (.fcmpEqS d a b) :=
  of32 rfl (by simp only [w32_1_6_6_6_6_7_at_31_1])
    (by simp only [row32, decMajor24, w32_1_6_6_6_6_7_at_0_7, w32_1_6_6_6_6_7_at_13_6, w32_1_6_6_6_6_7_at_19_6, w32_1_6_6_6_6_7_at_25_6, w32_1_6_6_6_6_7_at_7_6, BitVec.reduceToNat])

/-- The round trip of fcmpLtS. -/
theorem Sys2Proof.Laws.RoundTrip.fcmpLtS (d : BitVec 6) (a : BitVec 6) (b : BitVec 6) : Statement (.fcmpLtS d a b) :=
  of32 rfl (by simp only [w32_1_6_6_6_6_7_at_31_1])
    (by simp only [row32, decMajor24, w32_1_6_6_6_6_7_at_0_7, w32_1_6_6_6_6_7_at_13_6, w32_1_6_6_6_6_7_at_19_6, w32_1_6_6_6_6_7_at_25_6, w32_1_6_6_6_6_7_at_7_6, BitVec.reduceToNat])

/-- The round trip of fcmpLeS. -/
theorem Sys2Proof.Laws.RoundTrip.fcmpLeS (d : BitVec 6) (a : BitVec 6) (b : BitVec 6) : Statement (.fcmpLeS d a b) :=
  of32 rfl (by simp only [w32_1_6_6_6_6_7_at_31_1])
    (by simp only [row32, decMajor24, w32_1_6_6_6_6_7_at_0_7, w32_1_6_6_6_6_7_at_13_6, w32_1_6_6_6_6_7_at_19_6, w32_1_6_6_6_6_7_at_25_6, w32_1_6_6_6_6_7_at_7_6, BitVec.reduceToNat])

/-- The round trip of fkindS. -/
theorem Sys2Proof.Laws.RoundTrip.fkindS (d : BitVec 6) (a : BitVec 6) : Statement (.fkindS d a) :=
  of32 rfl (by simp only [w32_1_6_6_6_13_at_31_1])
    (by simp only [row32, decMajor24, w32_1_6_6_6_13_at_0_7, w32_1_6_6_6_13_at_13_6, w32_1_6_6_6_13_at_19_6, w32_1_6_6_6_13_at_25_6, w32_1_6_6_6_13_at_7_6, (show (11#13).extractLsb' 0 7 = 11#7 from rfl), (show (11#13).extractLsb' 7 6 = 0#6 from rfl), BitVec.reduceToNat, reduceIte])

/-- The round trip of b. -/
theorem Sys2Proof.Laws.RoundTrip.b (i : BitVec 25) : Statement (.b i) :=
  of32 rfl (by simp only [w32_1_6_25_at_31_1])
    (by simp only [row32, decMajor30, w32_1_6_25_at_0_25, w32_1_6_25_at_25_6, BitVec.reduceToNat])

/-- The round trip of call. -/
theorem Sys2Proof.Laws.RoundTrip.call (i : BitVec 25) : Statement (.call i) :=
  of32 rfl (by simp only [w32_1_6_25_at_31_1])
    (by simp only [row32, decMajor31, w32_1_6_25_at_0_25, w32_1_6_25_at_25_6, BitVec.reduceToNat])

/-- The round trip of bcEq. -/
theorem Sys2Proof.Laws.RoundTrip.bcEq (a : BitVec 6) (b : BitVec 6) (i : BitVec 13) : Statement (.bcEq a b i) :=
  of32 rfl (by simp only [w32_1_6_6_6_13_at_31_1])
    (by simp only [row32, decMajor32, w32_1_6_6_6_13_at_0_13, w32_1_6_6_6_13_at_13_6, w32_1_6_6_6_13_at_19_6, w32_1_6_6_6_13_at_25_6, BitVec.reduceToNat])

/-- The round trip of bcNe. -/
theorem Sys2Proof.Laws.RoundTrip.bcNe (a : BitVec 6) (b : BitVec 6) (i : BitVec 13) : Statement (.bcNe a b i) :=
  of32 rfl (by simp only [w32_1_6_6_6_13_at_31_1])
    (by simp only [row32, decMajor33, w32_1_6_6_6_13_at_0_13, w32_1_6_6_6_13_at_13_6, w32_1_6_6_6_13_at_19_6, w32_1_6_6_6_13_at_25_6, BitVec.reduceToNat])

/-- The round trip of bcLt. -/
theorem Sys2Proof.Laws.RoundTrip.bcLt (a : BitVec 6) (b : BitVec 6) (i : BitVec 13) : Statement (.bcLt a b i) :=
  of32 rfl (by simp only [w32_1_6_6_6_13_at_31_1])
    (by simp only [row32, decMajor34, w32_1_6_6_6_13_at_0_13, w32_1_6_6_6_13_at_13_6, w32_1_6_6_6_13_at_19_6, w32_1_6_6_6_13_at_25_6, BitVec.reduceToNat])

/-- The round trip of bcGe. -/
theorem Sys2Proof.Laws.RoundTrip.bcGe (a : BitVec 6) (b : BitVec 6) (i : BitVec 13) : Statement (.bcGe a b i) :=
  of32 rfl (by simp only [w32_1_6_6_6_13_at_31_1])
    (by simp only [row32, decMajor35, w32_1_6_6_6_13_at_0_13, w32_1_6_6_6_13_at_13_6, w32_1_6_6_6_13_at_19_6, w32_1_6_6_6_13_at_25_6, BitVec.reduceToNat])

/-- The round trip of bcLtn. -/
theorem Sys2Proof.Laws.RoundTrip.bcLtn (a : BitVec 6) (b : BitVec 6) (i : BitVec 13) : Statement (.bcLtn a b i) :=
  of32 rfl (by simp only [w32_1_6_6_6_13_at_31_1])
    (by simp only [row32, decMajor36, w32_1_6_6_6_13_at_0_13, w32_1_6_6_6_13_at_13_6, w32_1_6_6_6_13_at_19_6, w32_1_6_6_6_13_at_25_6, BitVec.reduceToNat])

/-- The round trip of bcGen. -/
theorem Sys2Proof.Laws.RoundTrip.bcGen (a : BitVec 6) (b : BitVec 6) (i : BitVec 13) : Statement (.bcGen a b i) :=
  of32 rfl (by simp only [w32_1_6_6_6_13_at_31_1])
    (by simp only [row32, decMajor37, w32_1_6_6_6_13_at_0_13, w32_1_6_6_6_13_at_13_6, w32_1_6_6_6_13_at_19_6, w32_1_6_6_6_13_at_25_6, BitVec.reduceToNat])

/-- The round trip of nop. -/
theorem Sys2Proof.Laws.RoundTrip.nop : Statement (.nop) :=
  of32 rfl (by simp only [w32_1_6_25_at_31_1])
    (by simp only [row32, decMajor38, w32_1_6_25_at_0_7, w32_1_6_25_at_25_6, w32_1_6_25_at_7_18, (show (0#25).extractLsb' 0 7 = 0#7 from rfl), (show (0#25).extractLsb' 7 18 = 0#18 from rfl), BitVec.reduceToNat, reduceIte])

/-- The round trip of calli. -/
theorem Sys2Proof.Laws.RoundTrip.calli (a : BitVec 6) : Statement (.calli a) :=
  of32 rfl (by simp only [w32_1_6_6_6_13_at_31_1])
    (by simp only [row32, decMajor38, w32_1_6_6_6_13_at_0_7, w32_1_6_6_6_13_at_13_6, w32_1_6_6_6_13_at_19_6, w32_1_6_6_6_13_at_25_6, w32_1_6_6_6_13_at_7_6, (show (1#13).extractLsb' 0 7 = 1#7 from rfl), (show (1#13).extractLsb' 7 6 = 0#6 from rfl), BitVec.reduceToNat, reduceIte, and_self])

/-- The round trip of jmpi. -/
theorem Sys2Proof.Laws.RoundTrip.jmpi (a : BitVec 6) : Statement (.jmpi a) :=
  of32 rfl (by simp only [w32_1_6_6_6_13_at_31_1])
    (by simp only [row32, decMajor38, w32_1_6_6_6_13_at_0_7, w32_1_6_6_6_13_at_13_6, w32_1_6_6_6_13_at_19_6, w32_1_6_6_6_13_at_25_6, w32_1_6_6_6_13_at_7_6, (show (2#13).extractLsb' 0 7 = 2#7 from rfl), (show (2#13).extractLsb' 7 6 = 0#6 from rfl), BitVec.reduceToNat, reduceIte, and_self])

/-- The round trip of ret. -/
theorem Sys2Proof.Laws.RoundTrip.ret (a : BitVec 6) : Statement (.ret a) :=
  of32 rfl (by simp only [w32_1_6_6_6_13_at_31_1])
    (by simp only [row32, decMajor38, w32_1_6_6_6_13_at_0_7, w32_1_6_6_6_13_at_13_6, w32_1_6_6_6_13_at_19_6, w32_1_6_6_6_13_at_25_6, w32_1_6_6_6_13_at_7_6, (show (3#13).extractLsb' 0 7 = 3#7 from rfl), (show (3#13).extractLsb' 7 6 = 0#6 from rfl), BitVec.reduceToNat, reduceIte, and_self])

/-- The round trip of lpadC. -/
theorem Sys2Proof.Laws.RoundTrip.lpadC : Statement (.lpadC) :=
  of32 rfl (by simp only [w32_1_6_25_at_31_1])
    (by simp only [row32, decMajor38, w32_1_6_25_at_0_7, w32_1_6_25_at_25_6, w32_1_6_25_at_7_18, (show (4#25).extractLsb' 0 7 = 4#7 from rfl), (show (4#25).extractLsb' 7 18 = 0#18 from rfl), BitVec.reduceToNat, reduceIte])

/-- The round trip of lpadJ. -/
theorem Sys2Proof.Laws.RoundTrip.lpadJ : Statement (.lpadJ) :=
  of32 rfl (by simp only [w32_1_6_25_at_31_1])
    (by simp only [row32, decMajor38, w32_1_6_25_at_0_7, w32_1_6_25_at_25_6, w32_1_6_25_at_7_18, (show (5#25).extractLsb' 0 7 = 5#7 from rfl), (show (5#25).extractLsb' 7 18 = 0#18 from rfl), BitVec.reduceToNat, reduceIte])

/-- The round trip of lpadR. -/
theorem Sys2Proof.Laws.RoundTrip.lpadR : Statement (.lpadR) :=
  of32 rfl (by simp only [w32_1_6_25_at_31_1])
    (by simp only [row32, decMajor38, w32_1_6_25_at_0_7, w32_1_6_25_at_25_6, w32_1_6_25_at_7_18, (show (6#25).extractLsb' 0 7 = 6#7 from rfl), (show (6#25).extractLsb' 7 18 = 0#18 from rfl), BitVec.reduceToNat, reduceIte])

/-- The round trip of lbrk. -/
theorem Sys2Proof.Laws.RoundTrip.lbrk (n : BitVec 1) : Statement (.lbrk n) :=
  of32 rfl (by simp only [w32_1_6_5_1_19_at_31_1])
    (by simp only [row32, decMajor38, w32_1_6_5_1_19_at_0_7, w32_1_6_5_1_19_at_19_1, w32_1_6_5_1_19_at_20_5, w32_1_6_5_1_19_at_25_6, w32_1_6_5_1_19_at_7_12, (show (8#19).extractLsb' 0 7 = 8#7 from rfl), (show (8#19).extractLsb' 7 12 = 0#12 from rfl), BitVec.reduceToNat, reduceIte, and_self])

/-- The round trip of endThread. -/
theorem Sys2Proof.Laws.RoundTrip.endThread : Statement (.endThread) :=
  of32 rfl (by simp only [w32_1_6_25_at_31_1])
    (by simp only [row32, decMajor38, w32_1_6_25_at_0_7, w32_1_6_25_at_25_6, w32_1_6_25_at_7_18, (show (9#25).extractLsb' 0 7 = 9#7 from rfl), (show (9#25).extractLsb' 7 18 = 0#18 from rfl), BitVec.reduceToNat, reduceIte])

/-- The round trip of waitT. -/
theorem Sys2Proof.Laws.RoundTrip.waitT (d : BitVec 6) (a : BitVec 6) : Statement (.waitT d a) :=
  of32 rfl (by simp only [w32_1_6_6_6_13_at_31_1])
    (by simp only [row32, decMajor38, w32_1_6_6_6_13_at_0_7, w32_1_6_6_6_13_at_13_6, w32_1_6_6_6_13_at_19_6, w32_1_6_6_6_13_at_25_6, w32_1_6_6_6_13_at_7_6, (show (10#13).extractLsb' 0 7 = 10#7 from rfl), (show (10#13).extractLsb' 7 6 = 0#6 from rfl), BitVec.reduceToNat, reduceIte])

/-- The round trip of dline. -/
theorem Sys2Proof.Laws.RoundTrip.dline (a : BitVec 6) : Statement (.dline a) :=
  of32 rfl (by simp only [w32_1_6_6_6_13_at_31_1])
    (by simp only [row32, decMajor38, w32_1_6_6_6_13_at_0_7, w32_1_6_6_6_13_at_13_6, w32_1_6_6_6_13_at_19_6, w32_1_6_6_6_13_at_25_6, w32_1_6_6_6_13_at_7_6, (show (11#13).extractLsb' 0 7 = 11#7 from rfl), (show (11#13).extractLsb' 7 6 = 0#6 from rfl), BitVec.reduceToNat, reduceIte, and_self])

/-- The round trip of lsplit. -/
theorem Sys2Proof.Laws.RoundTrip.lsplit (a : BitVec 6) (b : BitVec 6) : Statement (.lsplit a b) :=
  of32 rfl (by simp only [w32_1_6_6_6_6_7_at_31_1])
    (by simp only [row32, decMajor38, w32_1_6_6_6_6_7_at_0_7, w32_1_6_6_6_6_7_at_13_6, w32_1_6_6_6_6_7_at_19_6, w32_1_6_6_6_6_7_at_25_6, w32_1_6_6_6_6_7_at_7_6, BitVec.reduceToNat, reduceIte])

/-- The round trip of ljoin. -/
theorem Sys2Proof.Laws.RoundTrip.ljoin : Statement (.ljoin) :=
  of32 rfl (by simp only [w32_1_6_25_at_31_1])
    (by simp only [row32, decMajor38, w32_1_6_25_at_0_7, w32_1_6_25_at_25_6, w32_1_6_25_at_7_18, (show (13#25).extractLsb' 0 7 = 13#7 from rfl), (show (13#25).extractLsb' 7 18 = 0#18 from rfl), BitVec.reduceToNat, reduceIte])

/-- The round trip of loop. -/
theorem Sys2Proof.Laws.RoundTrip.loop (n : BitVec 1) (a : BitVec 6) (i : BitVec 13) : Statement (.loop n a i) :=
  of32 rfl (by simp only [w32_1_6_5_1_6_13_at_31_1])
    (by simp only [row32, decMajor39, w32_1_6_5_1_6_13_at_0_13, w32_1_6_5_1_6_13_at_13_6, w32_1_6_5_1_6_13_at_19_1, w32_1_6_5_1_6_13_at_20_5, w32_1_6_5_1_6_13_at_25_6, BitVec.reduceToNat, reduceIte])

/-- The round trip of smb. -/
theorem Sys2Proof.Laws.RoundTrip.smb (a : BitVec 6) (i : BitVec 13) : Statement (.smb a i) :=
  of32 rfl (by simp only [w32_1_6_6_6_13_at_31_1])
    (by simp only [row32, decMajor3A, w32_1_6_6_6_13_at_0_13, w32_1_6_6_6_13_at_13_6, w32_1_6_6_6_13_at_19_6, w32_1_6_6_6_13_at_25_6, BitVec.reduceToNat, reduceIte])

/-- The round trip of smbcfg. -/
theorem Sys2Proof.Laws.RoundTrip.smbcfg (d : BitVec 6) (z : BitVec 3) (j : BitVec 2) : Statement (.smbcfg d z j) :=
  of32 rfl (by simp only [w32_1_6_6_14_3_2_at_31_1])
    (by simp only [row32, decMajor3B, w32_1_6_6_14_3_2_at_0_2, w32_1_6_6_14_3_2_at_19_6, w32_1_6_6_14_3_2_at_25_6, w32_1_6_6_14_3_2_at_2_3, w32_1_6_6_14_3_2_at_5_14, BitVec.reduceToNat, reduceIte])

/-- The round trip of trap. -/
theorem Sys2Proof.Laws.RoundTrip.trap (a : BitVec 6) : Statement (.trap a) :=
  of32 rfl (by simp only [w32_1_6_6_6_13_at_31_1])
    (by simp only [row32, decMajor3C, w32_1_6_6_6_13_at_0_13, w32_1_6_6_6_13_at_13_6, w32_1_6_6_6_13_at_19_6, w32_1_6_6_6_13_at_25_6, BitVec.reduceToNat, reduceIte])

/-- The round trip of eret. -/
theorem Sys2Proof.Laws.RoundTrip.eret : Statement (.eret) :=
  of32 rfl (by simp only [w32_1_6_25_at_31_1])
    (by simp only [row32, decMajor3C, w32_1_6_25_at_0_13, w32_1_6_25_at_13_12, w32_1_6_25_at_25_6, (show (2#25).extractLsb' 0 13 = 2#13 from rfl), (show (2#25).extractLsb' 13 12 = 0#12 from rfl), BitVec.reduceToNat, reduceIte])

/-- The round trip of bkpt. -/
theorem Sys2Proof.Laws.RoundTrip.bkpt : Statement (.bkpt) :=
  of32 rfl (by simp only [w32_1_6_25_at_31_1])
    (by simp only [row32, decMajor3C, w32_1_6_25_at_0_13, w32_1_6_25_at_13_12, w32_1_6_25_at_25_6, (show (3#25).extractLsb' 0 13 = 3#13 from rfl), (show (3#25).extractLsb' 13 12 = 0#12 from rfl), BitVec.reduceToNat, reduceIte])

/-- The round trip of ifence. -/
theorem Sys2Proof.Laws.RoundTrip.ifence : Statement (.ifence) :=
  of32 rfl (by simp only [w32_1_6_25_at_31_1])
    (by simp only [row32, decMajor3C, w32_1_6_25_at_0_13, w32_1_6_25_at_13_12, w32_1_6_25_at_25_6, (show (4#25).extractLsb' 0 13 = 4#13 from rfl), (show (4#25).extractLsb' 13 12 = 0#12 from rfl), BitVec.reduceToNat, reduceIte])

/-- The round trip of tlbinv. -/
theorem Sys2Proof.Laws.RoundTrip.tlbinv (a : BitVec 6) : Statement (.tlbinv a) :=
  of32 rfl (by simp only [w32_1_6_6_6_13_at_31_1])
    (by simp only [row32, decMajor3C, w32_1_6_6_6_13_at_0_13, w32_1_6_6_6_13_at_13_6, w32_1_6_6_6_13_at_19_6, w32_1_6_6_6_13_at_25_6, BitVec.reduceToNat, reduceIte])

/-- The round trip of halt. -/
theorem Sys2Proof.Laws.RoundTrip.halt (a : BitVec 6) : Statement (.halt a) :=
  of32 rfl (by simp only [w32_1_6_6_6_13_at_31_1])
    (by simp only [row32, decMajor3C, w32_1_6_6_6_13_at_0_13, w32_1_6_6_6_13_at_13_6, w32_1_6_6_6_13_at_19_6, w32_1_6_6_6_13_at_25_6, BitVec.reduceToNat, reduceIte])

/-- The round trip of vqsave. -/
theorem Sys2Proof.Laws.RoundTrip.vqsave (a : BitVec 6) : Statement (.vqsave a) :=
  of32 rfl (by simp only [w32_1_6_6_6_13_at_31_1])
    (by simp only [row32, decMajor3C, w32_1_6_6_6_13_at_0_13, w32_1_6_6_6_13_at_13_6, w32_1_6_6_6_13_at_19_6, w32_1_6_6_6_13_at_25_6, BitVec.reduceToNat, reduceIte])

/-- The round trip of vqrestore. -/
theorem Sys2Proof.Laws.RoundTrip.vqrestore (a : BitVec 6) : Statement (.vqrestore a) :=
  of32 rfl (by simp only [w32_1_6_6_6_13_at_31_1])
    (by simp only [row32, decMajor3C, w32_1_6_6_6_13_at_0_13, w32_1_6_6_6_13_at_13_6, w32_1_6_6_6_13_at_19_6, w32_1_6_6_6_13_at_25_6, BitVec.reduceToNat, reduceIte])

/-- The round trip of smplCnt. -/
theorem Sys2Proof.Laws.RoundTrip.smplCnt (d : BitVec 6) (a : BitVec 6) : Statement (.smplCnt d a) :=
  of32 rfl (by simp only [w32_1_6_6_6_13_at_31_1])
    (by simp only [row32, decMajor3C, w32_1_6_6_6_13_at_0_13, w32_1_6_6_6_13_at_13_6, w32_1_6_6_6_13_at_19_6, w32_1_6_6_6_13_at_25_6, BitVec.reduceToNat])

/-- The round trip of smplMark. -/
theorem Sys2Proof.Laws.RoundTrip.smplMark : Statement (.smplMark) :=
  of32 rfl (by simp only [w32_1_6_25_at_31_1])
    (by simp only [row32, decMajor3C, w32_1_6_25_at_0_13, w32_1_6_25_at_13_12, w32_1_6_25_at_25_6, (show (10#25).extractLsb' 0 13 = 10#13 from rfl), (show (10#25).extractLsb' 13 12 = 0#12 from rfl), BitVec.reduceToNat, reduceIte])

/-- The round trip of trc. -/
theorem Sys2Proof.Laws.RoundTrip.trc (a : BitVec 6) : Statement (.trc a) :=
  of32 rfl (by simp only [w32_1_6_6_6_13_at_31_1])
    (by simp only [row32, decMajor3C, w32_1_6_6_6_13_at_0_13, w32_1_6_6_6_13_at_13_6, w32_1_6_6_6_13_at_19_6, w32_1_6_6_6_13_at_25_6, BitVec.reduceToNat, reduceIte])

/-- The round trip of tlbinvAll. -/
theorem Sys2Proof.Laws.RoundTrip.tlbinvAll : Statement (.tlbinvAll) :=
  of32 rfl (by simp only [w32_1_6_25_at_31_1])
    (by simp only [row32, decMajor3C, w32_1_6_25_at_0_13, w32_1_6_25_at_13_12, w32_1_6_25_at_25_6, (show (12#25).extractLsb' 0 13 = 12#13 from rfl), (show (12#25).extractLsb' 13 12 = 0#12 from rfl), BitVec.reduceToNat, reduceIte])

/-- The round trip of mfcM. -/
theorem Sys2Proof.Laws.RoundTrip.mfcM (d : BitVec 6) (n : BitVec 12) : Statement (.mfcM d n) :=
  of32 rfl (by simp only [w32_1_6_6_7_12_at_31_1])
    (by simp only [row32, decMajor3D, w32_1_6_6_7_12_at_0_12, w32_1_6_6_7_12_at_12_7, w32_1_6_6_7_12_at_19_6, w32_1_6_6_7_12_at_25_6, BitVec.reduceToNat, reduceIte])

/-- The round trip of mtcM. -/
theorem Sys2Proof.Laws.RoundTrip.mtcM (a : BitVec 6) (n : BitVec 12) : Statement (.mtcM a n) :=
  of32 rfl (by simp only [w32_1_6_6_6_1_12_at_31_1])
    (by simp only [row32, decMajor3E, w32_1_6_6_6_1_12_at_0_12, w32_1_6_6_6_1_12_at_12_1, w32_1_6_6_6_1_12_at_13_6, w32_1_6_6_6_1_12_at_19_6, w32_1_6_6_6_1_12_at_25_6, BitVec.reduceToNat, reduceIte, and_self])

/-- The round trip of vadd. -/
theorem Sys2Proof.Laws.RoundTrip.vadd (w : VWord) : Statement (.vadd w) :=
  of64 0x00#7 rfl fun h => by
    rw [show row64 _ w = wideMajor00 w from rfl, wideMajor00, eq_of_beq (show (w.key == 0) = true from h)]
    rfl

/-- The round trip of vsub. -/
theorem Sys2Proof.Laws.RoundTrip.vsub (w : VWord) : Statement (.vsub w) :=
  of64 0x00#7 rfl fun h => by
    rw [show row64 _ w = wideMajor00 w from rfl, wideMajor00, eq_of_beq (show (w.key == 1) = true from h)]
    rfl

/-- The round trip of vrsub. -/
theorem Sys2Proof.Laws.RoundTrip.vrsub (w : VWord) : Statement (.vrsub w) :=
  of64 0x00#7 rfl fun h => by
    rw [show row64 _ w = wideMajor00 w from rfl, wideMajor00, eq_of_beq (show (w.key == 2) = true from h)]
    rfl

/-- The round trip of vmul. -/
theorem Sys2Proof.Laws.RoundTrip.vmul (w : VWord) : Statement (.vmul w) :=
  of64 0x01#7 rfl fun h => by
    rw [show row64 _ w = wideMajor01 w from rfl, wideMajor01, eq_of_beq (show (w.key == 0) = true from h)]
    rfl

/-- The round trip of vmulh. -/
theorem Sys2Proof.Laws.RoundTrip.vmulh (w : VWord) : Statement (.vmulh w) :=
  of64 0x01#7 rfl fun h => by
    rw [show row64 _ w = wideMajor01 w from rfl, wideMajor01, eq_of_beq (show (w.key == 1) = true from h)]
    rfl

/-- The round trip of vmacc. -/
theorem Sys2Proof.Laws.RoundTrip.vmacc (w : VWord) : Statement (.vmacc w) :=
  of64 0x01#7 rfl fun h => by
    rw [show row64 _ w = wideMajor01 w from rfl, wideMajor01, eq_of_beq (show (w.key == 2) = true from h)]
    rfl

/-- The round trip of vsadd. -/
theorem Sys2Proof.Laws.RoundTrip.vsadd (w : VWord) : Statement (.vsadd w) :=
  of64 0x02#7 rfl fun h => by
    rw [show row64 _ w = wideMajor02 w from rfl, wideMajor02, eq_of_beq (show (w.key == 0) = true from h)]
    rfl

/-- The round trip of vssub. -/
theorem Sys2Proof.Laws.RoundTrip.vssub (w : VWord) : Statement (.vssub w) :=
  of64 0x02#7 rfl fun h => by
    rw [show row64 _ w = wideMajor02 w from rfl, wideMajor02, eq_of_beq (show (w.key == 1) = true from h)]
    rfl

/-- The round trip of vsmul. -/
theorem Sys2Proof.Laws.RoundTrip.vsmul (w : VWord) : Statement (.vsmul w) :=
  of64 0x02#7 rfl fun h => by
    rw [show row64 _ w = wideMajor02 w from rfl, wideMajor02, eq_of_beq (show (w.key == 2) = true from h)]
    rfl

/-- The round trip of vsll. -/
theorem Sys2Proof.Laws.RoundTrip.vsll (w : VWord) : Statement (.vsll w) :=
  of64 0x03#7 rfl fun h => by
    rw [show row64 _ w = wideMajor03 w from rfl, wideMajor03, eq_of_beq (show (w.key == 0) = true from h)]
    rfl

/-- The round trip of vsrl. -/
theorem Sys2Proof.Laws.RoundTrip.vsrl (w : VWord) : Statement (.vsrl w) :=
  of64 0x03#7 rfl fun h => by
    rw [show row64 _ w = wideMajor03 w from rfl, wideMajor03, eq_of_beq (show (w.key == 1) = true from h)]
    rfl

/-- The round trip of vsra. -/
theorem Sys2Proof.Laws.RoundTrip.vsra (w : VWord) : Statement (.vsra w) :=
  of64 0x03#7 rfl fun h => by
    rw [show row64 _ w = wideMajor03 w from rfl, wideMajor03, eq_of_beq (show (w.key == 2) = true from h)]
    rfl

/-- The round trip of vror. -/
theorem Sys2Proof.Laws.RoundTrip.vror (w : VWord) : Statement (.vror w) :=
  of64 0x03#7 rfl fun h => by
    rw [show row64 _ w = wideMajor03 w from rfl, wideMajor03, eq_of_beq (show (w.key == 3) = true from h)]
    rfl

/-- The round trip of vand. -/
theorem Sys2Proof.Laws.RoundTrip.vand (w : VWord) : Statement (.vand w) :=
  of64 0x04#7 rfl fun h => by
    rw [show row64 _ w = wideMajor04 w from rfl, wideMajor04, eq_of_beq (show (w.key == 0) = true from h)]
    rfl

/-- The round trip of vor. -/
theorem Sys2Proof.Laws.RoundTrip.vor (w : VWord) : Statement (.vor w) :=
  of64 0x04#7 rfl fun h => by
    rw [show row64 _ w = wideMajor04 w from rfl, wideMajor04, eq_of_beq (show (w.key == 1) = true from h)]
    rfl

/-- The round trip of vxor. -/
theorem Sys2Proof.Laws.RoundTrip.vxor (w : VWord) : Statement (.vxor w) :=
  of64 0x04#7 rfl fun h => by
    rw [show row64 _ w = wideMajor04 w from rfl, wideMajor04, eq_of_beq (show (w.key == 2) = true from h)]
    rfl

/-- The round trip of vandn. -/
theorem Sys2Proof.Laws.RoundTrip.vandn (w : VWord) : Statement (.vandn w) :=
  of64 0x04#7 rfl fun h => by
    rw [show row64 _ w = wideMajor04 w from rfl, wideMajor04, eq_of_beq (show (w.key == 3) = true from h)]
    rfl

/-- The round trip of vmin. -/
theorem Sys2Proof.Laws.RoundTrip.vmin (w : VWord) : Statement (.vmin w) :=
  of64 0x05#7 rfl fun h => by
    rw [show row64 _ w = wideMajor05 w from rfl, wideMajor05, eq_of_beq (show (w.key == 0) = true from h)]
    rfl

/-- The round trip of vmax. -/
theorem Sys2Proof.Laws.RoundTrip.vmax (w : VWord) : Statement (.vmax w) :=
  of64 0x05#7 rfl fun h => by
    rw [show row64 _ w = wideMajor05 w from rfl, wideMajor05, eq_of_beq (show (w.key == 1) = true from h)]
    rfl

/-- The round trip of vabs. -/
theorem Sys2Proof.Laws.RoundTrip.vabs (w : VWord) : Statement (.vabs w) :=
  of64 0x05#7 rfl fun h => by
    rw [show row64 _ w = wideMajor05 w from rfl, wideMajor05, eq_of_beq (show (w.key == 2) = true from h)]
    rfl

/-- The round trip of vcmpEq. -/
theorem Sys2Proof.Laws.RoundTrip.vcmpEq (w : VWord) : Statement (.vcmpEq w) :=
  of64 0x06#7 rfl fun h => by
    rw [show row64 _ w = wideMajor06 w from rfl, wideMajor06, eq_of_beq (show (w.key == 0) = true from h)]
    rfl

/-- The round trip of vcmpNe. -/
theorem Sys2Proof.Laws.RoundTrip.vcmpNe (w : VWord) : Statement (.vcmpNe w) :=
  of64 0x06#7 rfl fun h => by
    rw [show row64 _ w = wideMajor06 w from rfl, wideMajor06, eq_of_beq (show (w.key == 1) = true from h)]
    rfl

/-- The round trip of vcmpLt. -/
theorem Sys2Proof.Laws.RoundTrip.vcmpLt (w : VWord) : Statement (.vcmpLt w) :=
  of64 0x06#7 rfl fun h => by
    rw [show row64 _ w = wideMajor06 w from rfl, wideMajor06, eq_of_beq (show (w.key == 2) = true from h)]
    rfl

/-- The round trip of vcmpLe. -/
theorem Sys2Proof.Laws.RoundTrip.vcmpLe (w : VWord) : Statement (.vcmpLe w) :=
  of64 0x06#7 rfl fun h => by
    rw [show row64 _ w = wideMajor06 w from rfl, wideMajor06, eq_of_beq (show (w.key == 3) = true from h)]
    rfl

/-- The round trip of vcmpGt. -/
theorem Sys2Proof.Laws.RoundTrip.vcmpGt (w : VWord) : Statement (.vcmpGt w) :=
  of64 0x06#7 rfl fun h => by
    rw [show row64 _ w = wideMajor06 w from rfl, wideMajor06, eq_of_beq (show (w.key == 4) = true from h)]
    rfl

/-- The round trip of vcmpGe. -/
theorem Sys2Proof.Laws.RoundTrip.vcmpGe (w : VWord) : Statement (.vcmpGe w) :=
  of64 0x06#7 rfl fun h => by
    rw [show row64 _ w = wideMajor06 w from rfl, wideMajor06, eq_of_beq (show (w.key == 5) = true from h)]
    rfl

/-- The round trip of mand. -/
theorem Sys2Proof.Laws.RoundTrip.mand (w : VWord) : Statement (.mand w) :=
  of64 0x07#7 rfl fun h => by
    rw [show row64 _ w = wideMajor07 w from rfl, wideMajor07, eq_of_beq (show (w.key == 0) = true from h)]
    rfl

/-- The round trip of mor. -/
theorem Sys2Proof.Laws.RoundTrip.mor (w : VWord) : Statement (.mor w) :=
  of64 0x07#7 rfl fun h => by
    rw [show row64 _ w = wideMajor07 w from rfl, wideMajor07, eq_of_beq (show (w.key == 1) = true from h)]
    rfl

/-- The round trip of mxor. -/
theorem Sys2Proof.Laws.RoundTrip.mxor (w : VWord) : Statement (.mxor w) :=
  of64 0x07#7 rfl fun h => by
    rw [show row64 _ w = wideMajor07 w from rfl, wideMajor07, eq_of_beq (show (w.key == 2) = true from h)]
    rfl

/-- The round trip of mandn. -/
theorem Sys2Proof.Laws.RoundTrip.mandn (w : VWord) : Statement (.mandn w) :=
  of64 0x07#7 rfl fun h => by
    rw [show row64 _ w = wideMajor07 w from rfl, wideMajor07, eq_of_beq (show (w.key == 3) = true from h)]
    rfl

/-- The round trip of mnot. -/
theorem Sys2Proof.Laws.RoundTrip.mnot (w : VWord) : Statement (.mnot w) :=
  of64 0x07#7 rfl fun h => by
    rw [show row64 _ w = wideMajor07 w from rfl, wideMajor07, eq_of_beq (show (w.key == 4) = true from h)]
    rfl

/-- The round trip of mpop. -/
theorem Sys2Proof.Laws.RoundTrip.mpop (w : VWord) : Statement (.mpop w) :=
  of64 0x07#7 rfl fun h => by
    rw [show row64 _ w = wideMajor07 w from rfl, wideMajor07, eq_of_beq (show (w.key == 16) = true from h)]
    rfl

/-- The round trip of mfirst. -/
theorem Sys2Proof.Laws.RoundTrip.mfirst (w : VWord) : Statement (.mfirst w) :=
  of64 0x07#7 rfl fun h => by
    rw [show row64 _ w = wideMajor07 w from rfl, wideMajor07, eq_of_beq (show (w.key == 17) = true from h)]
    rfl

/-- The round trip of vsel. -/
theorem Sys2Proof.Laws.RoundTrip.vsel (w : VWord) : Statement (.vsel w) :=
  of64 0x08#7 rfl fun h => by
    rw [show row64 _ w = wideMajor08 w from rfl, wideMajor08, eq_of_beq (show (w.key == 0) = true from h)]
    rfl

/-- The round trip of vbcast. -/
theorem Sys2Proof.Laws.RoundTrip.vbcast (w : VWord) : Statement (.vbcast w) :=
  of64 0x09#7 rfl fun h => by
    rw [show row64 _ w = wideMajor09 w from rfl, wideMajor09, eq_of_beq (show (w.key == 0) = true from h)]
    rfl

/-- The round trip of vmv. -/
theorem Sys2Proof.Laws.RoundTrip.vmv (w : VWord) : Statement (.vmv w) :=
  of64 0x09#7 rfl fun h => by
    rw [show row64 _ w = wideMajor09 w from rfl, wideMajor09, eq_of_beq (show (w.key == 1) = true from h)]
    rfl

/-- The round trip of vmvsV. -/
theorem Sys2Proof.Laws.RoundTrip.vmvsV (w : VWord) : Statement (.vmvsV w) :=
  of64 0x09#7 rfl fun h => by
    rw [show row64 _ w = wideMajor09 w from rfl, wideMajor09, eq_of_beq (show (w.key == 2) = true from h)]
    rfl

/-- The round trip of vmvsX. -/
theorem Sys2Proof.Laws.RoundTrip.vmvsX (w : VWord) : Statement (.vmvsX w) :=
  of64 0x09#7 rfl fun h => by
    rw [show row64 _ w = wideMajor09 w from rfl, wideMajor09, eq_of_beq (show (w.key == 3) = true from h)]
    rfl

/-- The round trip of vfadd. -/
theorem Sys2Proof.Laws.RoundTrip.vfadd (w : VWord) : Statement (.vfadd w) :=
  of64 0x20#7 rfl fun h => by
    rw [show row64 _ w = wideMajor20 w from rfl, wideMajor20, eq_of_beq (show (w.key == 0) = true from h)]
    rfl

/-- The round trip of vfsub. -/
theorem Sys2Proof.Laws.RoundTrip.vfsub (w : VWord) : Statement (.vfsub w) :=
  of64 0x20#7 rfl fun h => by
    rw [show row64 _ w = wideMajor20 w from rfl, wideMajor20, eq_of_beq (show (w.key == 1) = true from h)]
    rfl

/-- The round trip of vfmul. -/
theorem Sys2Proof.Laws.RoundTrip.vfmul (w : VWord) : Statement (.vfmul w) :=
  of64 0x20#7 rfl fun h => by
    rw [show row64 _ w = wideMajor20 w from rfl, wideMajor20, eq_of_beq (show (w.key == 2) = true from h)]
    rfl

/-- The round trip of vfmadd. -/
theorem Sys2Proof.Laws.RoundTrip.vfmadd (w : VWord) : Statement (.vfmadd w) :=
  of64 0x21#7 rfl fun h => by
    rw [show row64 _ w = wideMajor21 w from rfl, wideMajor21, eq_of_beq (show (w.key == 0) = true from h)]
    rfl

/-- The round trip of vfmsub. -/
theorem Sys2Proof.Laws.RoundTrip.vfmsub (w : VWord) : Statement (.vfmsub w) :=
  of64 0x21#7 rfl fun h => by
    rw [show row64 _ w = wideMajor21 w from rfl, wideMajor21, eq_of_beq (show (w.key == 1) = true from h)]
    rfl

/-- The round trip of vfnmadd. -/
theorem Sys2Proof.Laws.RoundTrip.vfnmadd (w : VWord) : Statement (.vfnmadd w) :=
  of64 0x21#7 rfl fun h => by
    rw [show row64 _ w = wideMajor21 w from rfl, wideMajor21, eq_of_beq (show (w.key == 2) = true from h)]
    rfl

/-- The round trip of vfnmsub. -/
theorem Sys2Proof.Laws.RoundTrip.vfnmsub (w : VWord) : Statement (.vfnmsub w) :=
  of64 0x21#7 rfl fun h => by
    rw [show row64 _ w = wideMajor21 w from rfl, wideMajor21, eq_of_beq (show (w.key == 3) = true from h)]
    rfl

/-- The round trip of vfmacc. -/
theorem Sys2Proof.Laws.RoundTrip.vfmacc (w : VWord) : Statement (.vfmacc w) :=
  of64 0x21#7 rfl fun h => by
    rw [show row64 _ w = wideMajor21 w from rfl, wideMajor21, eq_of_beq (show (w.key == 4) = true from h)]
    rfl

/-- The round trip of vfmin. -/
theorem Sys2Proof.Laws.RoundTrip.vfmin (w : VWord) : Statement (.vfmin w) :=
  of64 0x22#7 rfl fun h => by
    rw [show row64 _ w = wideMajor22 w from rfl, wideMajor22, eq_of_beq (show (w.key == 0) = true from h)]
    rfl

/-- The round trip of vfmax. -/
theorem Sys2Proof.Laws.RoundTrip.vfmax (w : VWord) : Statement (.vfmax w) :=
  of64 0x22#7 rfl fun h => by
    rw [show row64 _ w = wideMajor22 w from rfl, wideMajor22, eq_of_beq (show (w.key == 1) = true from h)]
    rfl

/-- The round trip of vfabs. -/
theorem Sys2Proof.Laws.RoundTrip.vfabs (w : VWord) : Statement (.vfabs w) :=
  of64 0x22#7 rfl fun h => by
    rw [show row64 _ w = wideMajor22 w from rfl, wideMajor22, eq_of_beq (show (w.key == 2) = true from h)]
    rfl

/-- The round trip of vfneg. -/
theorem Sys2Proof.Laws.RoundTrip.vfneg (w : VWord) : Statement (.vfneg w) :=
  of64 0x22#7 rfl fun h => by
    rw [show row64 _ w = wideMajor22 w from rfl, wideMajor22, eq_of_beq (show (w.key == 3) = true from h)]
    rfl

/-- The round trip of vfsignC. -/
theorem Sys2Proof.Laws.RoundTrip.vfsignC (w : VWord) : Statement (.vfsignC w) :=
  of64 0x22#7 rfl fun h => by
    rw [show row64 _ w = wideMajor22 w from rfl, wideMajor22, eq_of_beq (show (w.key == 4) = true from h)]
    rfl

/-- The round trip of vfsignN. -/
theorem Sys2Proof.Laws.RoundTrip.vfsignN (w : VWord) : Statement (.vfsignN w) :=
  of64 0x22#7 rfl fun h => by
    rw [show row64 _ w = wideMajor22 w from rfl, wideMajor22, eq_of_beq (show (w.key == 5) = true from h)]
    rfl

/-- The round trip of vfsignX. -/
theorem Sys2Proof.Laws.RoundTrip.vfsignX (w : VWord) : Statement (.vfsignX w) :=
  of64 0x22#7 rfl fun h => by
    rw [show row64 _ w = wideMajor22 w from rfl, wideMajor22, eq_of_beq (show (w.key == 6) = true from h)]
    rfl

/-- The round trip of vfcmpEq. -/
theorem Sys2Proof.Laws.RoundTrip.vfcmpEq (w : VWord) : Statement (.vfcmpEq w) :=
  of64 0x23#7 rfl fun h => by
    rw [show row64 _ w = wideMajor23 w from rfl, wideMajor23, eq_of_beq (show (w.key == 0) = true from h)]
    rfl

/-- The round trip of vfcmpNe. -/
theorem Sys2Proof.Laws.RoundTrip.vfcmpNe (w : VWord) : Statement (.vfcmpNe w) :=
  of64 0x23#7 rfl fun h => by
    rw [show row64 _ w = wideMajor23 w from rfl, wideMajor23, eq_of_beq (show (w.key == 1) = true from h)]
    rfl

/-- The round trip of vfcmpLt. -/
theorem Sys2Proof.Laws.RoundTrip.vfcmpLt (w : VWord) : Statement (.vfcmpLt w) :=
  of64 0x23#7 rfl fun h => by
    rw [show row64 _ w = wideMajor23 w from rfl, wideMajor23, eq_of_beq (show (w.key == 2) = true from h)]
    rfl

/-- The round trip of vfcmpLe. -/
theorem Sys2Proof.Laws.RoundTrip.vfcmpLe (w : VWord) : Statement (.vfcmpLe w) :=
  of64 0x23#7 rfl fun h => by
    rw [show row64 _ w = wideMajor23 w from rfl, wideMajor23, eq_of_beq (show (w.key == 3) = true from h)]
    rfl

/-- The round trip of vfcmpGt. -/
theorem Sys2Proof.Laws.RoundTrip.vfcmpGt (w : VWord) : Statement (.vfcmpGt w) :=
  of64 0x23#7 rfl fun h => by
    rw [show row64 _ w = wideMajor23 w from rfl, wideMajor23, eq_of_beq (show (w.key == 4) = true from h)]
    rfl

/-- The round trip of vfcmpGe. -/
theorem Sys2Proof.Laws.RoundTrip.vfcmpGe (w : VWord) : Statement (.vfcmpGe w) :=
  of64 0x23#7 rfl fun h => by
    rw [show row64 _ w = wideMajor23 w from rfl, wideMajor23, eq_of_beq (show (w.key == 5) = true from h)]
    rfl

/-- The round trip of vfcmpUn. -/
theorem Sys2Proof.Laws.RoundTrip.vfcmpUn (w : VWord) : Statement (.vfcmpUn w) :=
  of64 0x23#7 rfl fun h => by
    rw [show row64 _ w = wideMajor23 w from rfl, wideMajor23, eq_of_beq (show (w.key == 6) = true from h)]
    rfl

/-- The round trip of vredoAdd. -/
theorem Sys2Proof.Laws.RoundTrip.vredoAdd (w : VWord) : Statement (.vredoAdd w) :=
  of64 0x30#7 rfl fun h => by
    rw [show row64 _ w = wideMajor30 w from rfl, wideMajor30, eq_of_beq (show (w.key == 0) = true from h)]
    rfl

/-- The round trip of vredoMin. -/
theorem Sys2Proof.Laws.RoundTrip.vredoMin (w : VWord) : Statement (.vredoMin w) :=
  of64 0x30#7 rfl fun h => by
    rw [show row64 _ w = wideMajor30 w from rfl, wideMajor30, eq_of_beq (show (w.key == 1) = true from h)]
    rfl

/-- The round trip of vredoMax. -/
theorem Sys2Proof.Laws.RoundTrip.vredoMax (w : VWord) : Statement (.vredoMax w) :=
  of64 0x30#7 rfl fun h => by
    rw [show row64 _ w = wideMajor30 w from rfl, wideMajor30, eq_of_beq (show (w.key == 2) = true from h)]
    rfl

/-- The round trip of vredtAdd. -/
theorem Sys2Proof.Laws.RoundTrip.vredtAdd (w : VWord) : Statement (.vredtAdd w) :=
  of64 0x31#7 rfl fun h => by
    rw [show row64 _ w = wideMajor31 w from rfl, wideMajor31, eq_of_beq (show (w.key == 0) = true from h)]
    rfl

/-- The round trip of vredtMin. -/
theorem Sys2Proof.Laws.RoundTrip.vredtMin (w : VWord) : Statement (.vredtMin w) :=
  of64 0x31#7 rfl fun h => by
    rw [show row64 _ w = wideMajor31 w from rfl, wideMajor31, eq_of_beq (show (w.key == 1) = true from h)]
    rfl

/-- The round trip of vredtMax. -/
theorem Sys2Proof.Laws.RoundTrip.vredtMax (w : VWord) : Statement (.vredtMax w) :=
  of64 0x31#7 rfl fun h => by
    rw [show row64 _ w = wideMajor31 w from rfl, wideMajor31, eq_of_beq (show (w.key == 2) = true from h)]
    rfl

/-- The round trip of vredtAnd. -/
theorem Sys2Proof.Laws.RoundTrip.vredtAnd (w : VWord) : Statement (.vredtAnd w) :=
  of64 0x31#7 rfl fun h => by
    rw [show row64 _ w = wideMajor31 w from rfl, wideMajor31, eq_of_beq (show (w.key == 3) = true from h)]
    rfl

/-- The round trip of vredtOr. -/
theorem Sys2Proof.Laws.RoundTrip.vredtOr (w : VWord) : Statement (.vredtOr w) :=
  of64 0x31#7 rfl fun h => by
    rw [show row64 _ w = wideMajor31 w from rfl, wideMajor31, eq_of_beq (show (w.key == 4) = true from h)]
    rfl

/-- The round trip of vredtXor. -/
theorem Sys2Proof.Laws.RoundTrip.vredtXor (w : VWord) : Statement (.vredtXor w) :=
  of64 0x31#7 rfl fun h => by
    rw [show row64 _ w = wideMajor31 w from rfl, wideMajor31, eq_of_beq (show (w.key == 5) = true from h)]
    rfl

/-- The round trip of vscanInAdd. -/
theorem Sys2Proof.Laws.RoundTrip.vscanInAdd (w : VWord) : Statement (.vscanInAdd w) :=
  of64 0x32#7 rfl fun h => by
    rw [show row64 _ w = wideMajor32 w from rfl, wideMajor32, eq_of_beq (show (w.key == 0) = true from h)]
    rfl

/-- The round trip of vscanInMin. -/
theorem Sys2Proof.Laws.RoundTrip.vscanInMin (w : VWord) : Statement (.vscanInMin w) :=
  of64 0x32#7 rfl fun h => by
    rw [show row64 _ w = wideMajor32 w from rfl, wideMajor32, eq_of_beq (show (w.key == 1) = true from h)]
    rfl

/-- The round trip of vscanInMax. -/
theorem Sys2Proof.Laws.RoundTrip.vscanInMax (w : VWord) : Statement (.vscanInMax w) :=
  of64 0x32#7 rfl fun h => by
    rw [show row64 _ w = wideMajor32 w from rfl, wideMajor32, eq_of_beq (show (w.key == 2) = true from h)]
    rfl

/-- The round trip of vscanExAdd. -/
theorem Sys2Proof.Laws.RoundTrip.vscanExAdd (w : VWord) : Statement (.vscanExAdd w) :=
  of64 0x32#7 rfl fun h => by
    rw [show row64 _ w = wideMajor32 w from rfl, wideMajor32, eq_of_beq (show (w.key == 8) = true from h)]
    rfl

/-- The round trip of vscanExMin. -/
theorem Sys2Proof.Laws.RoundTrip.vscanExMin (w : VWord) : Statement (.vscanExMin w) :=
  of64 0x32#7 rfl fun h => by
    rw [show row64 _ w = wideMajor32 w from rfl, wideMajor32, eq_of_beq (show (w.key == 9) = true from h)]
    rfl

/-- The round trip of vscanExMax. -/
theorem Sys2Proof.Laws.RoundTrip.vscanExMax (w : VWord) : Statement (.vscanExMax w) :=
  of64 0x32#7 rfl fun h => by
    rw [show row64 _ w = wideMajor32 w from rfl, wideMajor32, eq_of_beq (show (w.key == 10) = true from h)]
    rfl

/-- The round trip of vslipUp. -/
theorem Sys2Proof.Laws.RoundTrip.vslipUp (w : VWord) : Statement (.vslipUp w) :=
  of64 0x33#7 rfl fun h => by
    rw [show row64 _ w = wideMajor33 w from rfl, wideMajor33, eq_of_beq (show (w.key == 0) = true from h)]
    rfl

/-- The round trip of vslipDn. -/
theorem Sys2Proof.Laws.RoundTrip.vslipDn (w : VWord) : Statement (.vslipDn w) :=
  of64 0x33#7 rfl fun h => by
    rw [show row64 _ w = wideMajor33 w from rfl, wideMajor33, eq_of_beq (show (w.key == 1) = true from h)]
    rfl

/-- The round trip of vslipUpin. -/
theorem Sys2Proof.Laws.RoundTrip.vslipUpin (w : VWord) : Statement (.vslipUpin w) :=
  of64 0x33#7 rfl fun h => by
    rw [show row64 _ w = wideMajor33 w from rfl, wideMajor33, eq_of_beq (show (w.key == 2) = true from h)]
    rfl

/-- The round trip of vslipDnin. -/
theorem Sys2Proof.Laws.RoundTrip.vslipDnin (w : VWord) : Statement (.vslipDnin w) :=
  of64 0x33#7 rfl fun h => by
    rw [show row64 _ w = wideMajor33 w from rfl, wideMajor33, eq_of_beq (show (w.key == 3) = true from h)]
    rfl

/-- The round trip of vpick. -/
theorem Sys2Proof.Laws.RoundTrip.vpick (w : VWord) : Statement (.vpick w) :=
  of64 0x34#7 rfl fun h => by
    rw [show row64 _ w = wideMajor34 w from rfl, wideMajor34, eq_of_beq (show (w.key == 0) = true from h)]
    rfl

/-- The round trip of vcompress. -/
theorem Sys2Proof.Laws.RoundTrip.vcompress (w : VWord) : Statement (.vcompress w) :=
  of64 0x35#7 rfl fun h => by
    rw [show row64 _ w = wideMajor35 w from rfl, wideMajor35, eq_of_beq (show (w.key == 0) = true from h)]
    rfl

/-- The round trip of vexpand. -/
theorem Sys2Proof.Laws.RoundTrip.vexpand (w : VWord) : Statement (.vexpand w) :=
  of64 0x35#7 rfl fun h => by
    rw [show row64 _ w = wideMajor35 w from rfl, wideMajor35, eq_of_beq (show (w.key == 1) = true from h)]
    rfl

/-- The round trip of vcvt. -/
theorem Sys2Proof.Laws.RoundTrip.vcvt (w : VWord) : Statement (.vcvt w) :=
  of64 0x38#7 rfl (fun _ => rfl)

/-- The round trip of vcvtEf. -/
theorem Sys2Proof.Laws.RoundTrip.vcvtEf (w : VWord) : Statement (.vcvtEf w) :=
  of64 0x39#7 rfl (fun _ => rfl)

/-- The round trip of vpack. -/
theorem Sys2Proof.Laws.RoundTrip.vpack (w : VWord) : Statement (.vpack w) :=
  of64 0x3A#7 rfl fun h => by
    rw [show row64 _ w = wideMajor3A w from rfl]
    simp_all [Instr.named, wideMajor3A]

/-- The round trip of vunpack. -/
theorem Sys2Proof.Laws.RoundTrip.vunpack (w : VWord) : Statement (.vunpack w) :=
  of64 0x3A#7 rfl fun h => by
    rw [show row64 _ w = wideMajor3A w from rfl]
    simp_all [Instr.named, wideMajor3A]

/-- The round trip of vscaleMul. -/
theorem Sys2Proof.Laws.RoundTrip.vscaleMul (w : VWord) : Statement (.vscaleMul w) :=
  of64 0x3B#7 rfl fun h => by
    rw [show row64 _ w = wideMajor3B w from rfl]
    simp_all [Instr.named, wideMajor3B]

/-- The round trip of vscaleDiv. -/
theorem Sys2Proof.Laws.RoundTrip.vscaleDiv (w : VWord) : Statement (.vscaleDiv w) :=
  of64 0x3B#7 rfl fun h => by
    rw [show row64 _ w = wideMajor3B w from rfl]
    simp_all [Instr.named, wideMajor3B]

/-- The round trip of vfclass. -/
theorem Sys2Proof.Laws.RoundTrip.vfclass (w : VWord) : Statement (.vfclass w) :=
  of64 0x3C#7 rfl (fun _ => rfl)

/-- The round trip of vdiv. -/
theorem Sys2Proof.Laws.RoundTrip.vdiv (w : VWord) : Statement (.vdiv w) :=
  of64 0x3D#7 rfl fun h => by
    rw [show row64 _ w = wideMajor3D w from rfl, wideMajor3D, eq_of_beq (show (w.key == 0) = true from h)]
    rfl

/-- The round trip of vrdiv. -/
theorem Sys2Proof.Laws.RoundTrip.vrdiv (w : VWord) : Statement (.vrdiv w) :=
  of64 0x3D#7 rfl fun h => by
    rw [show row64 _ w = wideMajor3D w from rfl, wideMajor3D, eq_of_beq (show (w.key == 1) = true from h)]
    rfl

/-- The round trip of vsqrt. -/
theorem Sys2Proof.Laws.RoundTrip.vsqrt (w : VWord) : Statement (.vsqrt w) :=
  of64 0x3D#7 rfl fun h => by
    rw [show row64 _ w = wideMajor3D w from rfl, wideMajor3D, eq_of_beq (show (w.key == 2) = true from h)]
    rfl

/-- The round trip of vrsq. -/
theorem Sys2Proof.Laws.RoundTrip.vrsq (w : VWord) : Statement (.vrsq w) :=
  of64 0x3D#7 rfl fun h => by
    rw [show row64 _ w = wideMajor3D w from rfl, wideMajor3D, eq_of_beq (show (w.key == 3) = true from h)]
    rfl

/-- The round trip of vld. -/
theorem Sys2Proof.Laws.RoundTrip.vld (w : VWord) : Statement (.vld w) :=
  of64 0x40#7 rfl fun h => by
    rw [show row64 _ w = wideMajor40 w from rfl]
    simp_all [Instr.named, wideMajor40]

/-- The round trip of vldC. -/
theorem Sys2Proof.Laws.RoundTrip.vldC (w : VWord) : Statement (.vldC w) :=
  of64 0x40#7 rfl fun h => by
    rw [show row64 _ w = wideMajor40 w from rfl]
    simp_all [Instr.named, wideMajor40]

/-- The round trip of vldQ. -/
theorem Sys2Proof.Laws.RoundTrip.vldQ (w : VWord) : Statement (.vldQ w) :=
  of64 0x40#7 rfl fun h => by
    rw [show row64 _ w = wideMajor40 w from rfl]
    simp_all [Instr.named, wideMajor40]

/-- The round trip of vlds. -/
theorem Sys2Proof.Laws.RoundTrip.vlds (w : VWord) : Statement (.vlds w) :=
  of64 0x41#7 rfl (fun _ => rfl)

/-- The round trip of vldx. -/
theorem Sys2Proof.Laws.RoundTrip.vldx (w : VWord) : Statement (.vldx w) :=
  of64 0x42#7 rfl (fun _ => rfl)

/-- The round trip of vldg. -/
theorem Sys2Proof.Laws.RoundTrip.vldg (w : VWord) : Statement (.vldg w) :=
  of64 0x43#7 rfl (fun _ => rfl)

/-- The round trip of vst. -/
theorem Sys2Proof.Laws.RoundTrip.vst (w : VWord) : Statement (.vst w) :=
  of64 0x44#7 rfl fun h => by
    rw [show row64 _ w = wideMajor44 w from rfl]
    simp_all [Instr.named, wideMajor44]

/-- The round trip of vstC. -/
theorem Sys2Proof.Laws.RoundTrip.vstC (w : VWord) : Statement (.vstC w) :=
  of64 0x44#7 rfl fun h => by
    rw [show row64 _ w = wideMajor44 w from rfl]
    simp_all [Instr.named, wideMajor44]

/-- The round trip of vstQ. -/
theorem Sys2Proof.Laws.RoundTrip.vstQ (w : VWord) : Statement (.vstQ w) :=
  of64 0x44#7 rfl fun h => by
    rw [show row64 _ w = wideMajor44 w from rfl]
    simp_all [Instr.named, wideMajor44]

/-- The round trip of vsts. -/
theorem Sys2Proof.Laws.RoundTrip.vsts (w : VWord) : Statement (.vsts w) :=
  of64 0x45#7 rfl (fun _ => rfl)

/-- The round trip of vstx. -/
theorem Sys2Proof.Laws.RoundTrip.vstx (w : VWord) : Statement (.vstx w) :=
  of64 0x46#7 rfl (fun _ => rfl)

/-- The round trip of vstxo. -/
theorem Sys2Proof.Laws.RoundTrip.vstxo (w : VWord) : Statement (.vstxo w) :=
  of64 0x47#7 rfl (fun _ => rfl)

/-- The round trip of vstg. -/
theorem Sys2Proof.Laws.RoundTrip.vstg (w : VWord) : Statement (.vstg w) :=
  of64 0x48#7 rfl (fun _ => rfl)

/-- The round trip of vpref. -/
theorem Sys2Proof.Laws.RoundTrip.vpref (w : VWord) : Statement (.vpref w) :=
  of64 0x49#7 rfl (fun _ => rfl)

/-- The round trip of scommit. -/
theorem Sys2Proof.Laws.RoundTrip.scommit (w : VWord) : Statement (.scommit w) :=
  of64 0x4A#7 rfl (fun _ => rfl)

/-- The round trip of cutstep. -/
theorem Sys2Proof.Laws.RoundTrip.cutstep (w : VWord) : Statement (.cutstep w) :=
  of64 0x4B#7 rfl (fun _ => rfl)

/-- The round trip of mzero. -/
theorem Sys2Proof.Laws.RoundTrip.mzero (w : VWord) : Statement (.mzero w) :=
  of64 0x50#7 rfl (fun _ => rfl)

/-- The round trip of mouter. -/
theorem Sys2Proof.Laws.RoundTrip.mouter (w : VWord) : Statement (.mouter w) :=
  of64 0x51#7 rfl (fun _ => rfl)

/-- The round trip of mouteri. -/
theorem Sys2Proof.Laws.RoundTrip.mouteri (w : VWord) : Statement (.mouteri w) :=
  of64 0x52#7 rfl (fun _ => rfl)

/-- The round trip of mouterc. -/
theorem Sys2Proof.Laws.RoundTrip.mouterc (w : VWord) : Statement (.mouterc w) :=
  of64 0x53#7 rfl (fun _ => rfl)

/-- The round trip of mlacc. -/
theorem Sys2Proof.Laws.RoundTrip.mlacc (w : VWord) : Statement (.mlacc w) :=
  of64 0x54#7 rfl (fun _ => rfl)

/-- The round trip of mdrain. -/
theorem Sys2Proof.Laws.RoundTrip.mdrain (w : VWord) : Statement (.mdrain w) :=
  of64 0x55#7 rfl (fun _ => rfl)

/-- The round trip of mtov. -/
theorem Sys2Proof.Laws.RoundTrip.mtov (w : VWord) : Statement (.mtov w) :=
  of64 0x56#7 rfl (fun _ => rfl)

/-- The round trip of mscale. -/
theorem Sys2Proof.Laws.RoundTrip.mscale (w : VWord) : Statement (.mscale w) :=
  of64 0x57#7 rfl (fun _ => rfl)

/-- The round trip of bclr. -/
theorem Sys2Proof.Laws.RoundTrip.bclr (w : VWord) : Statement (.bclr w) :=
  of64 0x58#7 rfl fun h => by
    rw [show row64 _ w = wideMajor58 w from rfl]
    simp_all [Instr.named, wideMajor58]

/-- The round trip of btload. -/
theorem Sys2Proof.Laws.RoundTrip.btload (w : VWord) : Statement (.btload w) :=
  of64 0x58#7 rfl fun h => by
    rw [show row64 _ w = wideMajor58 w from rfl]
    simp_all [Instr.named, wideMajor58]

/-- The round trip of btdrain. -/
theorem Sys2Proof.Laws.RoundTrip.btdrain (w : VWord) : Statement (.btdrain w) :=
  of64 0x58#7 rfl fun h => by
    rw [show row64 _ w = wideMajor58 w from rfl]
    simp_all [Instr.named, wideMajor58]

/-- The round trip of bqr. -/
theorem Sys2Proof.Laws.RoundTrip.bqr (w : VWord) : Statement (.bqr w) :=
  of64 0x59#7 rfl fun h => by
    rw [show row64 _ w = wideMajor59 w from rfl, wideMajor59, eq_of_beq (show (w.key == 0) = true from h)]
    rfl

/-- The round trip of bqra. -/
theorem Sys2Proof.Laws.RoundTrip.bqra (w : VWord) : Statement (.bqra w) :=
  of64 0x59#7 rfl fun h => by
    rw [show row64 _ w = wideMajor59 w from rfl, wideMajor59, eq_of_beq (show (w.key == 1) = true from h)]
    rfl

/-- The round trip of bqrD. -/
theorem Sys2Proof.Laws.RoundTrip.bqrD (w : VWord) : Statement (.bqrD w) :=
  of64 0x59#7 rfl fun h => by
    rw [show row64 _ w = wideMajor59 w from rfl, wideMajor59, eq_of_beq (show (w.key == 2) = true from h)]
    rfl

/-- The round trip of bapply. -/
theorem Sys2Proof.Laws.RoundTrip.bapply (w : VWord) : Statement (.bapply w) :=
  of64 0x5A#7 rfl fun h => by
    rw [show row64 _ w = wideMajor5A w from rfl, wideMajor5A, eq_of_beq (show (w.key == 0) = true from h)]
    rfl

/-- The round trip of bapplyC0. -/
theorem Sys2Proof.Laws.RoundTrip.bapplyC0 (w : VWord) : Statement (.bapplyC0 w) :=
  of64 0x5A#7 rfl fun h => by
    rw [show row64 _ w = wideMajor5A w from rfl, wideMajor5A, eq_of_beq (show (w.key == 1) = true from h)]
    rfl

/-- The round trip of bvec. -/
theorem Sys2Proof.Laws.RoundTrip.bvec (w : VWord) : Statement (.bvec w) :=
  of64 0x5B#7 rfl fun h => by
    rw [show row64 _ w = wideMajor5B w from rfl, wideMajor5B, eq_of_beq (show (w.key == 0) = true from h)]
    rfl

/-- The round trip of bangleD. -/
theorem Sys2Proof.Laws.RoundTrip.bangleD (w : VWord) : Statement (.bangleD w) :=
  of64 0x5B#7 rfl fun h => by
    rw [show row64 _ w = wideMajor5B w from rfl, wideMajor5B, eq_of_beq (show (w.key == 1) = true from h)]
    rfl

/-- The round trip of bangleA. -/
theorem Sys2Proof.Laws.RoundTrip.bangleA (w : VWord) : Statement (.bangleA w) :=
  of64 0x5B#7 rfl fun h => by
    rw [show row64 _ w = wideMajor5B w from rfl, wideMajor5B, eq_of_beq (show (w.key == 2) = true from h)]
    rfl

/-- The round trip of brot. -/
theorem Sys2Proof.Laws.RoundTrip.brot (w : VWord) : Statement (.brot w) :=
  of64 0x5C#7 rfl fun h => by
    rw [show row64 _ w = wideMajor5C w from rfl]
    simp_all [Instr.named, wideMajor5C]

/-- The round trip of vrotate. -/
theorem Sys2Proof.Laws.RoundTrip.vrotate (w : VWord) : Statement (.vrotate w) :=
  of64 0x5C#7 rfl fun h => by
    rw [show row64 _ w = wideMajor5C w from rfl]
    simp_all [Instr.named, wideMajor5C]

/-- The round trip of bgain. -/
theorem Sys2Proof.Laws.RoundTrip.bgain (w : VWord) : Statement (.bgain w) :=
  of64 0x5D#7 rfl fun h => by
    rw [show row64 _ w = wideMajor5D w from rfl, wideMajor5D, eq_of_beq (show (w.key == 0) = true from h)]
    rfl

/-- The round trip of bsolve. -/
theorem Sys2Proof.Laws.RoundTrip.bsolve (w : VWord) : Statement (.bsolve w) :=
  of64 0x5E#7 rfl fun h => by
    rw [show row64 _ w = wideMajor5E w from rfl, wideMajor5E, eq_of_beq (show (w.key == 0) = true from h)]
    rfl

/-- The round trip of amoSwap. -/
theorem Sys2Proof.Laws.RoundTrip.amoSwap (w : VWord) : Statement (.amoSwap w) :=
  of64 0x60#7 rfl fun h => by
    rw [show row64 _ w = wideMajor60 w from rfl, wideMajor60, eq_of_beq (show (w.fnFN == 0) = true from h)]
    rfl

/-- The round trip of amoAdd. -/
theorem Sys2Proof.Laws.RoundTrip.amoAdd (w : VWord) : Statement (.amoAdd w) :=
  of64 0x60#7 rfl fun h => by
    rw [show row64 _ w = wideMajor60 w from rfl, wideMajor60, eq_of_beq (show (w.fnFN == 1) = true from h)]
    rfl

/-- The round trip of amoAnd. -/
theorem Sys2Proof.Laws.RoundTrip.amoAnd (w : VWord) : Statement (.amoAnd w) :=
  of64 0x60#7 rfl fun h => by
    rw [show row64 _ w = wideMajor60 w from rfl, wideMajor60, eq_of_beq (show (w.fnFN == 2) = true from h)]
    rfl

/-- The round trip of amoOr. -/
theorem Sys2Proof.Laws.RoundTrip.amoOr (w : VWord) : Statement (.amoOr w) :=
  of64 0x60#7 rfl fun h => by
    rw [show row64 _ w = wideMajor60 w from rfl, wideMajor60, eq_of_beq (show (w.fnFN == 3) = true from h)]
    rfl

/-- The round trip of amoXor. -/
theorem Sys2Proof.Laws.RoundTrip.amoXor (w : VWord) : Statement (.amoXor w) :=
  of64 0x60#7 rfl fun h => by
    rw [show row64 _ w = wideMajor60 w from rfl, wideMajor60, eq_of_beq (show (w.fnFN == 4) = true from h)]
    rfl

/-- The round trip of amoMin. -/
theorem Sys2Proof.Laws.RoundTrip.amoMin (w : VWord) : Statement (.amoMin w) :=
  of64 0x60#7 rfl fun h => by
    rw [show row64 _ w = wideMajor60 w from rfl, wideMajor60, eq_of_beq (show (w.fnFN == 5) = true from h)]
    rfl

/-- The round trip of amoMax. -/
theorem Sys2Proof.Laws.RoundTrip.amoMax (w : VWord) : Statement (.amoMax w) :=
  of64 0x60#7 rfl fun h => by
    rw [show row64 _ w = wideMajor60 w from rfl, wideMajor60, eq_of_beq (show (w.fnFN == 6) = true from h)]
    rfl

/-- The round trip of amocas. -/
theorem Sys2Proof.Laws.RoundTrip.amocas (w : VWord) : Statement (.amocas w) :=
  of64 0x61#7 rfl (fun _ => rfl)

/-- The round trip of vamo. -/
theorem Sys2Proof.Laws.RoundTrip.vamo (w : VWord) : Statement (.vamo w) :=
  of64 0x62#7 rfl fun h => by
    rw [show row64 _ w = wideMajor62 w from rfl]
    simp_all [Instr.named, wideMajor62]

/-- The round trip of vamoo. -/
theorem Sys2Proof.Laws.RoundTrip.vamoo (w : VWord) : Statement (.vamoo w) :=
  of64 0x62#7 rfl fun h => by
    rw [show row64 _ w = wideMajor62 w from rfl]
    simp_all [Instr.named, wideMajor62]

/-- The round trip of accw. -/
theorem Sys2Proof.Laws.RoundTrip.accw (w : VWord) : Statement (.accw w) :=
  of64 0x63#7 rfl fun h => by
    rw [show row64 _ w = wideMajor63 w from rfl, wideMajor63, eq_of_beq (show (w.fnFN == 0) = true from h)]
    rfl

/-- The round trip of vacc. -/
theorem Sys2Proof.Laws.RoundTrip.vacc (w : VWord) : Statement (.vacc w) :=
  of64 0x63#7 rfl fun h => by
    rw [show row64 _ w = wideMajor63 w from rfl, wideMajor63, eq_of_beq (show (w.fnFN == 1) = true from h)]
    rfl

/-- The round trip of amerge. -/
theorem Sys2Proof.Laws.RoundTrip.amerge (w : VWord) : Statement (.amerge w) :=
  of64 0x63#7 rfl fun h => by
    rw [show row64 _ w = wideMajor63 w from rfl, wideMajor63, eq_of_beq (show (w.fnFN == 2) = true from h)]
    rfl

/-- The round trip of accrel. -/
theorem Sys2Proof.Laws.RoundTrip.accrel (w : VWord) : Statement (.accrel w) :=
  of64 0x63#7 rfl fun h => by
    rw [show row64 _ w = wideMajor63 w from rfl, wideMajor63, eq_of_beq (show (w.fnFN == 3) = true from h)]
    rfl

/-- The round trip of syncRd. -/
theorem Sys2Proof.Laws.RoundTrip.syncRd (w : VWord) : Statement (.syncRd w) :=
  of64 0x64#7 rfl fun h => by
    rw [show row64 _ w = wideMajor64 w from rfl, wideMajor64, eq_of_beq (show (w.fnFN == 0) = true from h)]
    rfl

/-- The round trip of syncWr. -/
theorem Sys2Proof.Laws.RoundTrip.syncWr (w : VWord) : Statement (.syncWr w) :=
  of64 0x64#7 rfl fun h => by
    rw [show row64 _ w = wideMajor64 w from rfl, wideMajor64, eq_of_beq (show (w.fnFN == 1) = true from h)]
    rfl

/-- The round trip of syncTas. -/
theorem Sys2Proof.Laws.RoundTrip.syncTas (w : VWord) : Statement (.syncTas w) :=
  of64 0x64#7 rfl fun h => by
    rw [show row64 _ w = wideMajor64 w from rfl, wideMajor64, eq_of_beq (show (w.fnFN == 2) = true from h)]
    rfl

/-- The round trip of syncFadd. -/
theorem Sys2Proof.Laws.RoundTrip.syncFadd (w : VWord) : Statement (.syncFadd w) :=
  of64 0x64#7 rfl fun h => by
    rw [show row64 _ w = wideMajor64 w from rfl, wideMajor64, eq_of_beq (show (w.fnFN == 3) = true from h)]
    rfl

/-- The round trip of hudInit. -/
theorem Sys2Proof.Laws.RoundTrip.hudInit (w : VWord) : Statement (.hudInit w) :=
  of64 0x65#7 rfl fun h => by
    rw [show row64 _ w = wideMajor65 w from rfl, wideMajor65, eq_of_beq (show (w.fnFN == 0) = true from h)]
    rfl

/-- The round trip of hudArr. -/
theorem Sys2Proof.Laws.RoundTrip.hudArr (w : VWord) : Statement (.hudArr w) :=
  of64 0x65#7 rfl fun h => by
    rw [show row64 _ w = wideMajor65 w from rfl, wideMajor65, eq_of_beq (show (w.fnFN == 1) = true from h)]
    rfl

/-- The round trip of hudDrop. -/
theorem Sys2Proof.Laws.RoundTrip.hudDrop (w : VWord) : Statement (.hudDrop w) :=
  of64 0x65#7 rfl fun h => by
    rw [show row64 _ w = wideMajor65 w from rfl, wideMajor65, eq_of_beq (show (w.fnFN == 2) = true from h)]
    rfl

/-- The round trip of hudWait. -/
theorem Sys2Proof.Laws.RoundTrip.hudWait (w : VWord) : Statement (.hudWait w) :=
  of64 0x65#7 rfl fun h => by
    rw [show row64 _ w = wideMajor65 w from rfl, wideMajor65, eq_of_beq (show (w.fnFN == 3) = true from h)]
    rfl

/-- The round trip of post. -/
theorem Sys2Proof.Laws.RoundTrip.post (w : VWord) : Statement (.post w) :=
  of64 0x66#7 rfl fun h => by
    rw [show row64 _ w = wideMajor66 w from rfl, wideMajor66, eq_of_beq (show (w.fnFN == 0) = true from h)]
    rfl

/-- The round trip of postSet. -/
theorem Sys2Proof.Laws.RoundTrip.postSet (w : VWord) : Statement (.postSet w) :=
  of64 0x66#7 rfl fun h => by
    rw [show row64 _ w = wideMajor66 w from rfl, wideMajor66, eq_of_beq (show (w.fnFN == 1) = true from h)]
    rfl

/-- The round trip of waiti. -/
theorem Sys2Proof.Laws.RoundTrip.waiti (w : VWord) : Statement (.waiti w) :=
  of64 0x66#7 rfl fun h => by
    rw [show row64 _ w = wideMajor66 w from rfl, wideMajor66, eq_of_beq (show (w.fnFN == 2) = true from h)]
    rfl

/-- The round trip of fence. -/
theorem Sys2Proof.Laws.RoundTrip.fence (w : VWord) : Statement (.fence w) :=
  of64 0x67#7 rfl (fun _ => rfl)

/-- The round trip of awInit. -/
theorem Sys2Proof.Laws.RoundTrip.awInit (w : VWord) : Statement (.awInit w) :=
  of64 0x68#7 rfl fun h => by
    rw [show row64 _ w = wideMajor68 w from rfl, wideMajor68, eq_of_beq (show (w.fnFN == 0) = true from h)]
    rfl

/-- The round trip of awAdd. -/
theorem Sys2Proof.Laws.RoundTrip.awAdd (w : VWord) : Statement (.awAdd w) :=
  of64 0x68#7 rfl fun h => by
    rw [show row64 _ w = wideMajor68 w from rfl, wideMajor68, eq_of_beq (show (w.fnFN == 1) = true from h)]
    rfl

/-- The round trip of awWait. -/
theorem Sys2Proof.Laws.RoundTrip.awWait (w : VWord) : Statement (.awWait w) :=
  of64 0x68#7 rfl fun h => by
    rw [show row64 _ w = wideMajor68 w from rfl, wideMajor68, eq_of_beq (show (w.fnFN == 2) = true from h)]
    rfl

/-- The round trip of cp. -/
theorem Sys2Proof.Laws.RoundTrip.cp (w : VWord) : Statement (.cp w) :=
  of64 0x69#7 rfl fun h => by
    rw [show row64 _ w = wideMajor69 w from rfl, wideMajor69, eq_of_beq (show (w.fnFN == 0) = true from h)]
    rfl

/-- The round trip of cp2. -/
theorem Sys2Proof.Laws.RoundTrip.cp2 (w : VWord) : Statement (.cp2 w) :=
  of64 0x69#7 rfl fun h => by
    rw [show row64 _ w = wideMajor69 w from rfl, wideMajor69, eq_of_beq (show (w.fnFN == 1) = true from h)]
    rfl

/-- The round trip of cpx. -/
theorem Sys2Proof.Laws.RoundTrip.cpx (w : VWord) : Statement (.cpx w) :=
  of64 0x69#7 rfl fun h => by
    rw [show row64 _ w = wideMajor69 w from rfl, wideMajor69, eq_of_beq (show (w.fnFN == 2) = true from h)]
    rfl

/-- The round trip of cpq. -/
theorem Sys2Proof.Laws.RoundTrip.cpq (w : VWord) : Statement (.cpq w) :=
  of64 0x69#7 rfl fun h => by
    rw [show row64 _ w = wideMajor69 w from rfl, wideMajor69, eq_of_beq (show (w.fnFN == 3) = true from h)]
    rfl

/-- The round trip of cpw. -/
theorem Sys2Proof.Laws.RoundTrip.cpw (w : VWord) : Statement (.cpw w) :=
  of64 0x69#7 rfl fun h => by
    rw [show row64 _ w = wideMajor69 w from rfl, wideMajor69, eq_of_beq (show (w.fnFN == 4) = true from h)]
    rfl

/-- The round trip of wdecl. -/
theorem Sys2Proof.Laws.RoundTrip.wdecl (w : VWord) : Statement (.wdecl w) :=
  of64 0x70#7 rfl fun h => by
    rw [show row64 _ w = wideMajor70 w from rfl, wideMajor70, eq_of_beq (show (w.key == 0) = true from h)]
    rfl

/-- The round trip of wdeclRel. -/
theorem Sys2Proof.Laws.RoundTrip.wdeclRel (w : VWord) : Statement (.wdeclRel w) :=
  of64 0x70#7 rfl fun h => by
    rw [show row64 _ w = wideMajor70 w from rfl, wideMajor70, eq_of_beq (show (w.key == 32) = true from h)]
    rfl

/-- The round trip of vldr. -/
theorem Sys2Proof.Laws.RoundTrip.vldr (w : VWord) : Statement (.vldr w) :=
  of64 0x71#7 rfl (fun _ => rfl)

/-- The round trip of vstr. -/
theorem Sys2Proof.Laws.RoundTrip.vstr (w : VWord) : Statement (.vstr w) :=
  of64 0x72#7 rfl (fun _ => rfl)

/-- The round trip of step. -/
theorem Sys2Proof.Laws.RoundTrip.step (w : VWord) : Statement (.step w) :=
  of64 0x73#7 rfl fun h => by
    rw [show row64 _ w = wideMajor73 w from rfl, wideMajor73, eq_of_beq (show (w.key == 0) = true from h)]
    rfl

/-- The round trip of stepAt. -/
theorem Sys2Proof.Laws.RoundTrip.stepAt (w : VWord) : Statement (.stepAt w) :=
  of64 0x73#7 rfl fun h => by
    rw [show row64 _ w = wideMajor73 w from rfl, wideMajor73, eq_of_beq (show (w.key == 32) = true from h)]
    rfl

/-- The round trip of stepq. -/
theorem Sys2Proof.Laws.RoundTrip.stepq (w : VWord) : Statement (.stepq w) :=
  of64 0x73#7 rfl fun h => by
    rw [show row64 _ w = wideMajor73 w from rfl, wideMajor73, eq_of_beq (show (w.key == 64) = true from h)]
    rfl

/-- The round trip of fsbindRx. -/
theorem Sys2Proof.Laws.RoundTrip.fsbindRx (w : VWord) : Statement (.fsbindRx w) :=
  of64 0x74#7 rfl fun h => by
    rw [show row64 _ w = wideMajor74 w from rfl, wideMajor74, eq_of_beq (show (w.key == 0) = true from h)]
    rfl

/-- The round trip of fsbindTx. -/
theorem Sys2Proof.Laws.RoundTrip.fsbindTx (w : VWord) : Statement (.fsbindTx w) :=
  of64 0x74#7 rfl fun h => by
    rw [show row64 _ w = wideMajor74 w from rfl, wideMajor74, eq_of_beq (show (w.key == 1) = true from h)]
    rfl

/-- The round trip of fsbindU. -/
theorem Sys2Proof.Laws.RoundTrip.fsbindU (w : VWord) : Statement (.fsbindU w) :=
  of64 0x74#7 rfl fun h => by
    rw [show row64 _ w = wideMajor74 w from rfl, wideMajor74, eq_of_beq (show (w.key == 2) = true from h)]
    rfl

/-- The round trip of vcred. -/
theorem Sys2Proof.Laws.RoundTrip.vcred (w : VWord) : Statement (.vcred w) :=
  of64 0x75#7 rfl fun h => by
    rw [show row64 _ w = wideMajor75 w from rfl, wideMajor75, eq_of_beq (show (w.key == 0) = true from h)]
    rfl

/-- The round trip of setvl. -/
theorem Sys2Proof.Laws.RoundTrip.setvl (w : VWord) : Statement (.setvl w) :=
  of64 0x78#7 rfl fun h => by
    rw [show row64 _ w = wideMajor78 w from rfl]
    simp_all [Instr.named, wideMajor78]

/-- The round trip of setvt. -/
theorem Sys2Proof.Laws.RoundTrip.setvt (w : VWord) : Statement (.setvt w) :=
  of64 0x78#7 rfl fun h => by
    rw [show row64 _ w = wideMajor78 w from rfl]
    simp_all [Instr.named, wideMajor78]

/-- The round trip of setfmt. -/
theorem Sys2Proof.Laws.RoundTrip.setfmt (w : VWord) : Statement (.setfmt w) :=
  of64 0x79#7 rfl fun h => by
    rw [show row64 _ w = wideMajor79 w from rfl, wideMajor79, eq_of_beq (show (w.key == 0) = true from h)]
    rfl

/-- The round trip of mshape. -/
theorem Sys2Proof.Laws.RoundTrip.mshape (w : VWord) : Statement (.mshape w) :=
  of64 0x7A#7 rfl fun h => by
    rw [show row64 _ w = wideMajor7A w from rfl, wideMajor7A, eq_of_beq (show (w.key == 0) = true from h)]
    rfl

/-- The round trip of tshape. -/
theorem Sys2Proof.Laws.RoundTrip.tshape (w : VWord) : Statement (.tshape w) :=
  of64 0x7A#7 rfl fun h => by
    rw [show row64 _ w = wideMajor7A w from rfl, wideMajor7A, eq_of_beq (show (w.key == 16) = true from h)]
    rfl

/-- The round trip of mmode. -/
theorem Sys2Proof.Laws.RoundTrip.mmode (w : VWord) : Statement (.mmode w) :=
  of64 0x7B#7 rfl (fun _ => rfl)

/-- The round trip of convoyIssue. -/
theorem Sys2Proof.Laws.RoundTrip.convoyIssue (t : Nat) (g : Nat) : Statement (.convoyIssue t g) := ofEvent rfl

/-- The round trip of convoyRetire. -/
theorem Sys2Proof.Laws.RoundTrip.convoyRetire (t : Nat) : Statement (.convoyRetire t) := ofEvent rfl

/-- The round trip of historyEntryRetire. -/
theorem Sys2Proof.Laws.RoundTrip.historyEntryRetire (t : Nat) : Statement (.historyEntryRetire t) := ofEvent rfl

/-- The round trip of storeQueueLeave. -/
theorem Sys2Proof.Laws.RoundTrip.storeQueueLeave (t : Nat) : Statement (.storeQueueLeave t) := ofEvent rfl

/-- The round trip of mtcLaneEntry. -/
theorem Sys2Proof.Laws.RoundTrip.mtcLaneEntry (t : Nat) : Statement (.mtcLaneEntry t) := ofEvent rfl

/-- The round trip of commitEntry. -/
theorem Sys2Proof.Laws.RoundTrip.commitEntry (t : Nat) : Statement (.commitEntry t) := ofEvent rfl

/-- The round trip of stripEntryDrain. -/
theorem Sys2Proof.Laws.RoundTrip.stripEntryDrain (t : Nat) (k : Nat) : Statement (.stripEntryDrain t k) := ofEvent rfl

/-- The round trip of storeAcknowledgement. -/
theorem Sys2Proof.Laws.RoundTrip.storeAcknowledgement (t : Nat) (k : Nat) : Statement (.storeAcknowledgement t k) := ofEvent rfl

/-- The round trip of laneIssue. -/
theorem Sys2Proof.Laws.RoundTrip.laneIssue (t : Nat) (cl : Nat) : Statement (.laneIssue t cl) := ofEvent rfl

/-- The round trip of tlbWalk. -/
theorem Sys2Proof.Laws.RoundTrip.tlbWalk (t : Nat) (cl : Nat) (va : BitVec 64) (acc : Access) : Statement (.tlbWalk t cl va acc) := ofEvent rfl

/-- The round trip of l2Fill. -/
theorem Sys2Proof.Laws.RoundTrip.l2Fill (pa : Nat) : Statement (.l2Fill pa) := ofEvent rfl

/-- The round trip of refreshDue. -/
theorem Sys2Proof.Laws.RoundTrip.refreshDue (die : Nat) (stack : Nat) (bank : Nat) (idle : Bool) : Statement (.refreshDue die stack bank idle) := ofEvent rfl

/-- The round trip of owedRefresh. -/
theorem Sys2Proof.Laws.RoundTrip.owedRefresh (die : Nat) (stack : Nat) (bank : Nat) : Statement (.owedRefresh die stack bank) := ofEvent rfl

/-- The round trip of sliceAluRequest. -/
theorem Sys2Proof.Laws.RoundTrip.sliceAluRequest (r : AluRequest) : Statement (.sliceAluRequest r) := ofEvent rfl

/-- The round trip of vamoPerform. -/
theorem Sys2Proof.Laws.RoundTrip.vamoPerform (t : Nat) (g : Nat) : Statement (.vamoPerform t g) := ofEvent rfl

/-- The round trip of amergePerform. -/
theorem Sys2Proof.Laws.RoundTrip.amergePerform (t : Nat) (g : Nat) : Statement (.amergePerform t g) := ofEvent rfl

/-- The round trip of syncMirrorUpdate. -/
theorem Sys2Proof.Laws.RoundTrip.syncMirrorUpdate (die : Nat) (home : Nat) : Statement (.syncMirrorUpdate die home) := ofEvent rfl

/-- The round trip of postRingArrival. -/
theorem Sys2Proof.Laws.RoundTrip.postRingArrival (die : Nat) (src : Nat) (core : Nat) : Statement (.postRingArrival die src core) := ofEvent rfl

/-- The round trip of waitTReturn. -/
theorem Sys2Proof.Laws.RoundTrip.waitTReturn (t : Nat) : Statement (.waitTReturn t) := ofEvent rfl

/-- The round trip of hudWaitReturn. -/
theorem Sys2Proof.Laws.RoundTrip.hudWaitReturn (t : Nat) : Statement (.hudWaitReturn t) := ofEvent rfl

/-- The round trip of waitiReturn. -/
theorem Sys2Proof.Laws.RoundTrip.waitiReturn (t : Nat) : Statement (.waitiReturn t) := ofEvent rfl

/-- The round trip of awWaitReturn. -/
theorem Sys2Proof.Laws.RoundTrip.awWaitReturn (t : Nat) : Statement (.awWaitReturn t) := ofEvent rfl

/-- The round trip of cpwReturn. -/
theorem Sys2Proof.Laws.RoundTrip.cpwReturn (t : Nat) : Statement (.cpwReturn t) := ofEvent rfl

/-- The round trip of copyChunkDelivery. -/
theorem Sys2Proof.Laws.RoundTrip.copyChunkDelivery (core : Nat) (slot : Nat) : Statement (.copyChunkDelivery core slot) := ofEvent rfl

/-- The round trip of cpqDelivery. -/
theorem Sys2Proof.Laws.RoundTrip.cpqDelivery (core : Nat) (slot : Nat) : Statement (.cpqDelivery core slot) := ofEvent rfl

/-- The round trip of copyAbandon. -/
theorem Sys2Proof.Laws.RoundTrip.copyAbandon (core : Nat) (slot : Nat) : Statement (.copyAbandon core slot) := ofEvent rfl

/-- The round trip of copyPageMapped. -/
theorem Sys2Proof.Laws.RoundTrip.copyPageMapped (core : Nat) (slot : Nat) : Statement (.copyPageMapped core slot) := ofEvent rfl

/-- The round trip of deadline. -/
theorem Sys2Proof.Laws.RoundTrip.deadline (t : Nat) : Statement (.deadline t) := ofEvent rfl

/-- The round trip of trapDelivery. -/
theorem Sys2Proof.Laws.RoundTrip.trapDelivery (t : Nat) (c : ExcCause) (idx : BitVec 64) : Statement (.trapDelivery t c idx) := ofEvent rfl

/-- The round trip of suspendToEloaler. -/
theorem Sys2Proof.Laws.RoundTrip.suspendToEloaler (t : Nat) (c : ExcCause) (idx : BitVec 64) : Statement (.suspendToEloaler t c idx) := ofEvent rfl

/-- The round trip of eloalerResume. -/
theorem Sys2Proof.Laws.RoundTrip.eloalerResume (t : Nat) : Statement (.eloalerResume t) := ofEvent rfl

/-- The round trip of fatalEnd. -/
theorem Sys2Proof.Laws.RoundTrip.fatalEnd (t : Nat) : Statement (.fatalEnd t) := ofEvent rfl

/-- The round trip of preemption. -/
theorem Sys2Proof.Laws.RoundTrip.preemption (t : Nat) : Statement (.preemption t) := ofEvent rfl

/-- The round trip of gangSwitch. -/
theorem Sys2Proof.Laws.RoundTrip.gangSwitch (outgoing : Nat) (incoming : SwitchIn) :
    Statement (.gangSwitch outgoing incoming) := ofEvent rfl

/-- The round trip of switchResume. -/
theorem Sys2Proof.Laws.RoundTrip.switchResume (t : Nat) : Statement (.switchResume t) := ofEvent rfl

/-- The round trip of stepArrival. -/
theorem Sys2Proof.Laws.RoundTrip.stepArrival (t : Nat) : Statement (.stepArrival t) := ofEvent rfl

/-- The round trip of whistleArrivalCounted. -/
theorem Sys2Proof.Laws.RoundTrip.whistleArrivalCounted (ctx : Nat) (who : WhistleSource) :
    Statement (.whistleArrivalCounted ctx who) := ofEvent rfl

/-- The round trip of startNotice. -/
theorem Sys2Proof.Laws.RoundTrip.startNotice (ctx : Nat) (timeout : Nat) : Statement (.startNotice ctx timeout) := ofEvent rfl

/-- The round trip of whistleGo. -/
theorem Sys2Proof.Laws.RoundTrip.whistleGo (ctx : Nat) (m : WhistleMarks) : Statement (.whistleGo ctx m) := ofEvent rfl

/-- The round trip of whistleApply. -/
theorem Sys2Proof.Laws.RoundTrip.whistleApply (ctx : Nat) : Statement (.whistleApply ctx) := ofEvent rfl

/-- The round trip of whistleRelease. -/
theorem Sys2Proof.Laws.RoundTrip.whistleRelease (ctx : Nat) : Statement (.whistleRelease ctx) := ofEvent rfl

/-- The round trip of finalWhistle. -/
theorem Sys2Proof.Laws.RoundTrip.finalWhistle (ctx : Nat) : Statement (.finalWhistle ctx) := ofEvent rfl

/-- The round trip of skew. -/
theorem Sys2Proof.Laws.RoundTrip.skew (ctx : Nat) : Statement (.skew ctx) := ofEvent rfl

/-- The round trip of deferredWrite. -/
theorem Sys2Proof.Laws.RoundTrip.deferredWrite (f : RemoteWrite) : Statement (.deferredWrite f) := ofEvent rfl

/-- The round trip of writeAcknowledgement. -/
theorem Sys2Proof.Laws.RoundTrip.writeAcknowledgement (t : Nat) (k : Nat) (a : WriteAnswer) :
    Statement (.writeAcknowledgement t k a) := ofEvent rfl

/-- The round trip of readRequest. -/
theorem Sys2Proof.Laws.RoundTrip.readRequest (f : RemoteRead) : Statement (.readRequest f) := ofEvent rfl

/-- The round trip of readData. -/
theorem Sys2Proof.Laws.RoundTrip.readData (t : Nat) (k : Nat) (data : List Nat) : Statement (.readData t k data) := ofEvent rfl

/-- The round trip of translationRequest. -/
theorem Sys2Proof.Laws.RoundTrip.translationRequest (f : RemoteRead) : Statement (.translationRequest f) := ofEvent rfl

/-- The round trip of translationResponse. -/
theorem Sys2Proof.Laws.RoundTrip.translationResponse (die : Nat) (e : RemoteTrans) : Statement (.translationResponse die e) := ofEvent rfl

/-- The round trip of invalidation. -/
theorem Sys2Proof.Laws.RoundTrip.invalidation (ctx : Nat) (rank : Nat) (handle : Nat) : Statement (.invalidation ctx rank handle) := ofEvent rfl

/-- The round trip of invalidationAcknowledgement. -/
theorem Sys2Proof.Laws.RoundTrip.invalidationAcknowledgement (ctx : Nat) (a : HandleAck) :
    Statement (.invalidationAcknowledgement ctx a) := ofEvent rfl

/-- The round trip of reservationRequest. -/
theorem Sys2Proof.Laws.RoundTrip.reservationRequest (ctx : Nat) (h : StreamHead) (bytes : Nat) :
    Statement (.reservationRequest ctx h bytes) := ofEvent rfl

/-- The round trip of reservationGrant. -/
theorem Sys2Proof.Laws.RoundTrip.reservationGrant (ctx : Nat) (h : StreamHead) :
    Statement (.reservationGrant ctx h) := ofEvent rfl

/-- The round trip of streamChunkTransmit. -/
theorem Sys2Proof.Laws.RoundTrip.streamChunkTransmit (die : Nat) : Statement (.streamChunkTransmit die) := ofEvent rfl

/-- The round trip of streamData. -/
theorem Sys2Proof.Laws.RoundTrip.streamData (ctx : Nat) (h : StreamHead) (data : List Nat) :
    Statement (.streamData ctx h data) := ofEvent rfl

/-- The round trip of abort. -/
theorem Sys2Proof.Laws.RoundTrip.abort (ctx : Nat) (comm : Nat) : Statement (.abort ctx comm) := ofEvent rfl

/-- The round trip of torusPortDown. -/
theorem Sys2Proof.Laws.RoundTrip.torusPortDown (p : PodPort) :
    Statement (.torusPortDown p) := ofEvent rfl

/-- The round trip of timeLock. -/
theorem Sys2Proof.Laws.RoundTrip.timeLock (v : BitVec 64) : Statement (.timeLock v) := ofEvent rfl

/-- The round trip of timeLockLoss. -/
theorem Sys2Proof.Laws.RoundTrip.timeLockLoss : Statement (.timeLockLoss) := ofEvent rfl

/-- The round trip of powerGood. -/
theorem Sys2Proof.Laws.RoundTrip.powerGood : Statement (.powerGood) := ofEvent rfl

/-- The round trip of torusTraining. -/
theorem Sys2Proof.Laws.RoundTrip.torusTraining (port : Nat) (nb : PortExchange) : Statement (.torusTraining port nb) := ofEvent rfl

/-- The round trip of epochWrite. -/
theorem Sys2Proof.Laws.RoundTrip.epochWrite (v : BitVec 64) : Statement (.epochWrite v) := ofEvent rfl

/-- The round trip of rollbackFuseCommand. -/
theorem Sys2Proof.Laws.RoundTrip.rollbackFuseCommand : Statement (.rollbackFuseCommand) := ofEvent rfl

/-- The round trip of attestationRequest. -/
theorem Sys2Proof.Laws.RoundTrip.attestationRequest (ctx : Nat) (nonce : List Nat) (pub : List Nat) : Statement (.attestationRequest ctx nonce pub) := ofEvent rfl

/-- The round trip of keyWithdrawal. -/
theorem Sys2Proof.Laws.RoundTrip.keyWithdrawal (key : Nat) : Statement (.keyWithdrawal key) := ofEvent rfl

/-- The round trip of powerCap. -/
theorem Sys2Proof.Laws.RoundTrip.powerCap (watts : Nat) : Statement (.powerCap watts) := ofEvent rfl

/-- The round trip of junction105. -/
theorem Sys2Proof.Laws.RoundTrip.junction105 : Statement (.junction105) := ofEvent rfl

/-- The round trip of junction110. -/
theorem Sys2Proof.Laws.RoundTrip.junction110 : Statement (.junction110) := ofEvent rfl

/-- The round trip of rdmaConnect. -/
theorem Sys2Proof.Laws.RoundTrip.rdmaConnect (port : Nat) (qp : Nat) (credential : List Nat) : Statement (.rdmaConnect port qp credential) := ofEvent rfl

/-- The round trip of rdmaWrite. -/
theorem Sys2Proof.Laws.RoundTrip.rdmaWrite (p : HostPort) (qp : Nat) (rkey : Nat) (addr : Nat) (data : List Nat) : Statement (.rdmaWrite p qp rkey addr data) := ofEvent rfl

/-- The round trip of rdmaRead. -/
theorem Sys2Proof.Laws.RoundTrip.rdmaRead (p : HostPort) (qp : Nat) (rkey : Nat) (addr : Nat) (len : Nat) : Statement (.rdmaRead p qp rkey addr len) := ofEvent rfl

/-- The round trip of doorbellWrite. -/
theorem Sys2Proof.Laws.RoundTrip.doorbellWrite (v : BitVec 32) : Statement (.doorbellWrite v) := ofEvent rfl

/-- The round trip of entryTake. -/
theorem Sys2Proof.Laws.RoundTrip.entryTake : Statement (.entryTake) := ofEvent rfl

/-- The round trip of launch. -/
theorem Sys2Proof.Laws.RoundTrip.launch :
    Statement .launch := ofEvent rfl

/-- The round trip of create. -/
theorem Sys2Proof.Laws.RoundTrip.create :
    Statement .create := ofEvent rfl

/-- The round trip of load. -/
theorem Sys2Proof.Laws.RoundTrip.load (dest : LoadPlan) : Statement (.load dest) := ofEvent rfl

/-- The round trip of unload. -/
theorem Sys2Proof.Laws.RoundTrip.unload : Statement (.unload) := ofEvent rfl

/-- The round trip of unloadComplete. -/
theorem Sys2Proof.Laws.RoundTrip.unloadComplete (ctx : Nat) (handle : Nat) : Statement (.unloadComplete ctx handle) := ofEvent rfl

/-- The round trip of kill. -/
theorem Sys2Proof.Laws.RoundTrip.kill : Statement (.kill) := ofEvent rfl

/-- The round trip of launchAgeLimit. -/
theorem Sys2Proof.Laws.RoundTrip.launchAgeLimit (n : Nat) : Statement (.launchAgeLimit n) := ofEvent rfl

/-- The round trip of queuedLaunchDeadline. -/
theorem Sys2Proof.Laws.RoundTrip.queuedLaunchDeadline (n : Nat) : Statement (.queuedLaunchDeadline n) := ofEvent rfl

/-- The round trip of gangBind. -/
theorem Sys2Proof.Laws.RoundTrip.gangBind (n : Nat) (p : BindPlan) : Statement (.gangBind n p) := ofEvent rfl

/-- The round trip of bindRecordValid. -/
theorem Sys2Proof.Laws.RoundTrip.bindRecordValid (die : Nat) (entry : Nat) : Statement (.bindRecordValid die entry) := ofEvent rfl

/-- The round trip of threadStart. -/
theorem Sys2Proof.Laws.RoundTrip.threadStart (die : Nat) (entry : Nat) : Statement (.threadStart die entry) := ofEvent rfl

/-- The round trip of launchComplete. -/
theorem Sys2Proof.Laws.RoundTrip.launchComplete (n : LaunchEnd) :
    Statement (.launchComplete n) := ofEvent rfl

/-- The round trip of debugAttach. -/
theorem Sys2Proof.Laws.RoundTrip.debugAttach (ctx : Nat) : Statement (.debugAttach ctx) := ofEvent rfl

/-- The round trip of debugDetach. -/
theorem Sys2Proof.Laws.RoundTrip.debugDetach (ctx : Nat) : Statement (.debugDetach ctx) := ofEvent rfl

/-- The round trip of debugStop. -/
theorem Sys2Proof.Laws.RoundTrip.debugStop (ctx : Nat) (t : Option Nat) : Statement (.debugStop ctx t) := ofEvent rfl

/-- The round trip of debugReadImage. -/
theorem Sys2Proof.Laws.RoundTrip.debugReadImage (t : Nat) (pa : Nat) (len : Nat) : Statement (.debugReadImage t pa len) := ofEvent rfl

/-- The round trip of debugWriteImage. -/
theorem Sys2Proof.Laws.RoundTrip.debugWriteImage (t : Nat) (e : ImageEdit) : Statement (.debugWriteImage t e) := ofEvent rfl

/-- The round trip of debugPatch. -/
theorem Sys2Proof.Laws.RoundTrip.debugPatch (ctx : Nat) (va : BitVec 64) (data : List Nat) : Statement (.debugPatch ctx va data) := ofEvent rfl

/-- The round trip of debugResume. -/
theorem Sys2Proof.Laws.RoundTrip.debugResume (ctx : Nat) (t : Option Nat) : Statement (.debugResume ctx t) := ofEvent rfl

/-- The round trip of debugResumeOne. -/
theorem Sys2Proof.Laws.RoundTrip.debugResumeOne (t : Nat) : Statement (.debugResumeOne t) := ofEvent rfl

/-- The round trip of traceRecordAppend. -/
theorem Sys2Proof.Laws.RoundTrip.traceRecordAppend : Statement (.traceRecordAppend) := ofEvent rfl

/-- The round trip of traceUnitSeal. -/
theorem Sys2Proof.Laws.RoundTrip.traceUnitSeal (ctx : Nat) : Statement (.traceUnitSeal ctx) := ofEvent rfl

/-- The round trip of patrolScrub. -/
theorem Sys2Proof.Laws.RoundTrip.patrolScrub (die : Nat) (stack : Nat) (bad : Bool) : Statement (.patrolScrub die stack bad) := ofEvent rfl

/-- The round trip of sharedStoreScrub. -/
theorem Sys2Proof.Laws.RoundTrip.sharedStoreScrub (die : Nat) (slice : Nat) (bad : Bool) : Statement (.sharedStoreScrub die slice bad) := ofEvent rfl

/-- The round trip of registerFileScrub. -/
theorem Sys2Proof.Laws.RoundTrip.registerFileScrub (t : Nat) (reg : Nat) (byte : Nat) (bad : Bool) : Statement (.registerFileScrub t reg byte bad) := ofEvent rfl

/-- The round trip of ucieRecalibration. -/
theorem Sys2Proof.Laws.RoundTrip.ucieRecalibration (link : Nat) : Statement (.ucieRecalibration link) := ofEvent rfl

/-- The round trip of torusRecalibration. -/
theorem Sys2Proof.Laws.RoundTrip.torusRecalibration (port : Nat) : Statement (.torusRecalibration port) := ofEvent rfl

/-- The round trip of ageingGuardBand. -/
theorem Sys2Proof.Laws.RoundTrip.ageingGuardBand (mv : Nat) : Statement (.ageingGuardBand mv) := ofEvent rfl

/-- The round trip of telemetry. -/
theorem Sys2Proof.Laws.RoundTrip.telemetry : Statement (.telemetry) := ofEvent rfl

/-- The round trip of powerDown. -/
theorem Sys2Proof.Laws.RoundTrip.powerDown : Statement (.powerDown) := ofEvent rfl

/-- The round trip of loadResponse. -/
theorem Sys2Proof.Laws.RoundTrip.loadResponse (t : Nat) (pa : Nat) : Statement (.loadResponse t pa) := ofEvent rfl

end
end

