-- ==== Sys2Proof/Laws/State.lean ====
section
/-! SUPPORT. What each update of the current thread and of the machine leaves and changes, field by field. -/

namespace Sys2Proof.Machine

section
set_option Elab.async false

/-! ### State.onTh -/

@[simp] theorem State.onTh_others (f : Thread → Thread) (s : State) : (s.onTh f).others = s.others := rfl
@[simp] theorem State.onTh_images (f : Thread → Thread) (s : State) : (s.onTh f).images = s.images := rfl
@[simp] theorem State.onTh_mem (f : Thread → Thread) (s : State) : (s.onTh f).mem = s.mem := rfl
@[simp] theorem State.onTh_poison (f : Thread → Thread) (s : State) : (s.onTh f).poison = s.poison := rfl
@[simp] theorem State.onTh_lineKeys (f : Thread → Thread) (s : State) : (s.onTh f).lineKeys = s.lineKeys := rfl
@[simp] theorem State.onTh_unc (f : Thread → Thread) (s : State) : (s.onTh f).unc = s.unc := rfl
@[simp] theorem State.onTh_sync (f : Thread → Thread) (s : State) : (s.onTh f).sync = s.sync := rfl
@[simp] theorem State.onTh_copies (f : Thread → Thread) (s : State) : (s.onTh f).copies = s.copies := rfl
@[simp] theorem State.onTh_windows (f : Thread → Thread) (s : State) : (s.onTh f).windows = s.windows := rfl
@[simp] theorem State.onTh_whistles (f : Thread → Thread) (s : State) : (s.onTh f).whistles = s.whistles := rfl
@[simp] theorem State.onTh_ctxs (f : Thread → Thread) (s : State) : (s.onTh f).ctxs = s.ctxs := rfl
@[simp] theorem State.onTh_saved (f : Thread → Thread) (s : State) : (s.onTh f).saved = s.saved := rfl
@[simp] theorem State.onTh_hub (f : Thread → Thread) (s : State) : (s.onTh f).hub = s.hub := rfl
@[simp] theorem State.onTh_dev (f : Thread → Thread) (s : State) : (s.onTh f).dev = s.dev := rfl
@[simp] theorem State.onTh_tele (f : Thread → Thread) (s : State) : (s.onTh f).tele = s.tele := rfl
@[simp] theorem State.onTh_gtime (f : Thread → Thread) (s : State) : (s.onTh f).gtime = s.gtime := rfl
@[simp] theorem State.onTh_pace (f : Thread → Thread) (s : State) : (s.onTh f).pace = s.pace := rfl
@[simp] theorem State.onTh_prompt (f : Thread → Thread) (s : State) : (s.onTh f).prompt = s.prompt := rfl
@[simp] theorem State.onTh_freeCount (f : Thread → Thread) (s : State) : (s.onTh f).freeCount = s.freeCount := rfl
@[simp] theorem State.onTh_inputs (f : Thread → Thread) (s : State) : (s.onTh f).inputs = s.inputs := rfl
@[simp] theorem State.onTh_sched (f : Thread → Thread) (s : State) : (s.onTh f).sched = s.sched := rfl
@[simp] theorem State.onTh_out (f : Thread → Thread) (s : State) : (s.onTh f).out = s.out := rfl
@[simp] theorem State.onTh_th (f : Thread → Thread) (s : State) : (s.onTh f).th = f s.th := rfl

/-! ### State.onFr -/

@[simp] theorem State.onFr_others (f : Front → Front) (s : State) : (s.onFr f).others = s.others := rfl
@[simp] theorem State.onFr_images (f : Front → Front) (s : State) : (s.onFr f).images = s.images := rfl
@[simp] theorem State.onFr_mem (f : Front → Front) (s : State) : (s.onFr f).mem = s.mem := rfl
@[simp] theorem State.onFr_poison (f : Front → Front) (s : State) : (s.onFr f).poison = s.poison := rfl
@[simp] theorem State.onFr_lineKeys (f : Front → Front) (s : State) : (s.onFr f).lineKeys = s.lineKeys := rfl
@[simp] theorem State.onFr_unc (f : Front → Front) (s : State) : (s.onFr f).unc = s.unc := rfl
@[simp] theorem State.onFr_sync (f : Front → Front) (s : State) : (s.onFr f).sync = s.sync := rfl
@[simp] theorem State.onFr_copies (f : Front → Front) (s : State) : (s.onFr f).copies = s.copies := rfl
@[simp] theorem State.onFr_windows (f : Front → Front) (s : State) : (s.onFr f).windows = s.windows := rfl
@[simp] theorem State.onFr_whistles (f : Front → Front) (s : State) : (s.onFr f).whistles = s.whistles := rfl
@[simp] theorem State.onFr_ctxs (f : Front → Front) (s : State) : (s.onFr f).ctxs = s.ctxs := rfl
@[simp] theorem State.onFr_saved (f : Front → Front) (s : State) : (s.onFr f).saved = s.saved := rfl
@[simp] theorem State.onFr_hub (f : Front → Front) (s : State) : (s.onFr f).hub = s.hub := rfl
@[simp] theorem State.onFr_dev (f : Front → Front) (s : State) : (s.onFr f).dev = s.dev := rfl
@[simp] theorem State.onFr_tele (f : Front → Front) (s : State) : (s.onFr f).tele = s.tele := rfl
@[simp] theorem State.onFr_gtime (f : Front → Front) (s : State) : (s.onFr f).gtime = s.gtime := rfl
@[simp] theorem State.onFr_pace (f : Front → Front) (s : State) : (s.onFr f).pace = s.pace := rfl
@[simp] theorem State.onFr_prompt (f : Front → Front) (s : State) : (s.onFr f).prompt = s.prompt := rfl
@[simp] theorem State.onFr_freeCount (f : Front → Front) (s : State) : (s.onFr f).freeCount = s.freeCount := rfl
@[simp] theorem State.onFr_inputs (f : Front → Front) (s : State) : (s.onFr f).inputs = s.inputs := rfl
@[simp] theorem State.onFr_sched (f : Front → Front) (s : State) : (s.onFr f).sched = s.sched := rfl
@[simp] theorem State.onFr_out (f : Front → Front) (s : State) : (s.onFr f).out = s.out := rfl
@[simp] theorem State.onFr_th_bind (f : Front → Front) (s : State) : (s.onFr f).th.bind = s.th.bind := rfl
@[simp] theorem State.onFr_th_life (f : Front → Front) (s : State) : (s.onFr f).th.life = s.th.life := rfl
@[simp] theorem State.onFr_th_fr (f : Front → Front) (s : State) : (s.onFr f).th.fr = f s.th.fr := rfl
@[simp] theorem State.onFr_th_ln (f : Front → Front) (s : State) : (s.onFr f).th.ln = s.th.ln := rfl
@[simp] theorem State.onFr_th_st (f : Front → Front) (s : State) : (s.onFr f).th.st = s.th.st := rfl
@[simp] theorem State.onFr_th_tr (f : Front → Front) (s : State) : (s.onFr f).th.tr = s.th.tr := rfl
@[simp] theorem State.onFr_th_br (f : Front → Front) (s : State) : (s.onFr f).th.br = s.th.br := rfl
@[simp] theorem State.onFr_th_fab (f : Front → Front) (s : State) : (s.onFr f).th.fab = s.th.fab := rfl
@[simp] theorem State.onFr_th_cnt (f : Front → Front) (s : State) : (s.onFr f).th.cnt = s.th.cnt := rfl
@[simp] theorem State.onFr_th_oneWord (f : Front → Front) (s : State) : (s.onFr f).th.oneWord = s.th.oneWord := rfl

/-! ### State.onLn -/

@[simp] theorem State.onLn_others (f : Lanes → Lanes) (s : State) : (s.onLn f).others = s.others := rfl
@[simp] theorem State.onLn_images (f : Lanes → Lanes) (s : State) : (s.onLn f).images = s.images := rfl
@[simp] theorem State.onLn_mem (f : Lanes → Lanes) (s : State) : (s.onLn f).mem = s.mem := rfl
@[simp] theorem State.onLn_poison (f : Lanes → Lanes) (s : State) : (s.onLn f).poison = s.poison := rfl
@[simp] theorem State.onLn_lineKeys (f : Lanes → Lanes) (s : State) : (s.onLn f).lineKeys = s.lineKeys := rfl
@[simp] theorem State.onLn_unc (f : Lanes → Lanes) (s : State) : (s.onLn f).unc = s.unc := rfl
@[simp] theorem State.onLn_sync (f : Lanes → Lanes) (s : State) : (s.onLn f).sync = s.sync := rfl
@[simp] theorem State.onLn_copies (f : Lanes → Lanes) (s : State) : (s.onLn f).copies = s.copies := rfl
@[simp] theorem State.onLn_windows (f : Lanes → Lanes) (s : State) : (s.onLn f).windows = s.windows := rfl
@[simp] theorem State.onLn_whistles (f : Lanes → Lanes) (s : State) : (s.onLn f).whistles = s.whistles := rfl
@[simp] theorem State.onLn_ctxs (f : Lanes → Lanes) (s : State) : (s.onLn f).ctxs = s.ctxs := rfl
@[simp] theorem State.onLn_saved (f : Lanes → Lanes) (s : State) : (s.onLn f).saved = s.saved := rfl
@[simp] theorem State.onLn_hub (f : Lanes → Lanes) (s : State) : (s.onLn f).hub = s.hub := rfl
@[simp] theorem State.onLn_dev (f : Lanes → Lanes) (s : State) : (s.onLn f).dev = s.dev := rfl
@[simp] theorem State.onLn_tele (f : Lanes → Lanes) (s : State) : (s.onLn f).tele = s.tele := rfl
@[simp] theorem State.onLn_gtime (f : Lanes → Lanes) (s : State) : (s.onLn f).gtime = s.gtime := rfl
@[simp] theorem State.onLn_pace (f : Lanes → Lanes) (s : State) : (s.onLn f).pace = s.pace := rfl
@[simp] theorem State.onLn_prompt (f : Lanes → Lanes) (s : State) : (s.onLn f).prompt = s.prompt := rfl
@[simp] theorem State.onLn_freeCount (f : Lanes → Lanes) (s : State) : (s.onLn f).freeCount = s.freeCount := rfl
@[simp] theorem State.onLn_inputs (f : Lanes → Lanes) (s : State) : (s.onLn f).inputs = s.inputs := rfl
@[simp] theorem State.onLn_sched (f : Lanes → Lanes) (s : State) : (s.onLn f).sched = s.sched := rfl
@[simp] theorem State.onLn_out (f : Lanes → Lanes) (s : State) : (s.onLn f).out = s.out := rfl
@[simp] theorem State.onLn_th_bind (f : Lanes → Lanes) (s : State) : (s.onLn f).th.bind = s.th.bind := rfl
@[simp] theorem State.onLn_th_life (f : Lanes → Lanes) (s : State) : (s.onLn f).th.life = s.th.life := rfl
@[simp] theorem State.onLn_th_fr (f : Lanes → Lanes) (s : State) : (s.onLn f).th.fr = s.th.fr := rfl
@[simp] theorem State.onLn_th_ln (f : Lanes → Lanes) (s : State) : (s.onLn f).th.ln = f s.th.ln := rfl
@[simp] theorem State.onLn_th_st (f : Lanes → Lanes) (s : State) : (s.onLn f).th.st = s.th.st := rfl
@[simp] theorem State.onLn_th_tr (f : Lanes → Lanes) (s : State) : (s.onLn f).th.tr = s.th.tr := rfl
@[simp] theorem State.onLn_th_br (f : Lanes → Lanes) (s : State) : (s.onLn f).th.br = s.th.br := rfl
@[simp] theorem State.onLn_th_fab (f : Lanes → Lanes) (s : State) : (s.onLn f).th.fab = s.th.fab := rfl
@[simp] theorem State.onLn_th_cnt (f : Lanes → Lanes) (s : State) : (s.onLn f).th.cnt = s.th.cnt := rfl
@[simp] theorem State.onLn_th_oneWord (f : Lanes → Lanes) (s : State) : (s.onLn f).th.oneWord = s.th.oneWord := rfl

/-! ### State.onSt -/

@[simp] theorem State.onSt_others (f : Strip → Strip) (s : State) : (s.onSt f).others = s.others := rfl
@[simp] theorem State.onSt_images (f : Strip → Strip) (s : State) : (s.onSt f).images = s.images := rfl
@[simp] theorem State.onSt_mem (f : Strip → Strip) (s : State) : (s.onSt f).mem = s.mem := rfl
@[simp] theorem State.onSt_poison (f : Strip → Strip) (s : State) : (s.onSt f).poison = s.poison := rfl
@[simp] theorem State.onSt_lineKeys (f : Strip → Strip) (s : State) : (s.onSt f).lineKeys = s.lineKeys := rfl
@[simp] theorem State.onSt_unc (f : Strip → Strip) (s : State) : (s.onSt f).unc = s.unc := rfl
@[simp] theorem State.onSt_sync (f : Strip → Strip) (s : State) : (s.onSt f).sync = s.sync := rfl
@[simp] theorem State.onSt_copies (f : Strip → Strip) (s : State) : (s.onSt f).copies = s.copies := rfl
@[simp] theorem State.onSt_windows (f : Strip → Strip) (s : State) : (s.onSt f).windows = s.windows := rfl
@[simp] theorem State.onSt_whistles (f : Strip → Strip) (s : State) : (s.onSt f).whistles = s.whistles := rfl
@[simp] theorem State.onSt_ctxs (f : Strip → Strip) (s : State) : (s.onSt f).ctxs = s.ctxs := rfl
@[simp] theorem State.onSt_saved (f : Strip → Strip) (s : State) : (s.onSt f).saved = s.saved := rfl
@[simp] theorem State.onSt_hub (f : Strip → Strip) (s : State) : (s.onSt f).hub = s.hub := rfl
@[simp] theorem State.onSt_dev (f : Strip → Strip) (s : State) : (s.onSt f).dev = s.dev := rfl
@[simp] theorem State.onSt_tele (f : Strip → Strip) (s : State) : (s.onSt f).tele = s.tele := rfl
@[simp] theorem State.onSt_gtime (f : Strip → Strip) (s : State) : (s.onSt f).gtime = s.gtime := rfl
@[simp] theorem State.onSt_pace (f : Strip → Strip) (s : State) : (s.onSt f).pace = s.pace := rfl
@[simp] theorem State.onSt_prompt (f : Strip → Strip) (s : State) : (s.onSt f).prompt = s.prompt := rfl
@[simp] theorem State.onSt_freeCount (f : Strip → Strip) (s : State) : (s.onSt f).freeCount = s.freeCount := rfl
@[simp] theorem State.onSt_inputs (f : Strip → Strip) (s : State) : (s.onSt f).inputs = s.inputs := rfl
@[simp] theorem State.onSt_sched (f : Strip → Strip) (s : State) : (s.onSt f).sched = s.sched := rfl
@[simp] theorem State.onSt_out (f : Strip → Strip) (s : State) : (s.onSt f).out = s.out := rfl
@[simp] theorem State.onSt_th_bind (f : Strip → Strip) (s : State) : (s.onSt f).th.bind = s.th.bind := rfl
@[simp] theorem State.onSt_th_life (f : Strip → Strip) (s : State) : (s.onSt f).th.life = s.th.life := rfl
@[simp] theorem State.onSt_th_fr (f : Strip → Strip) (s : State) : (s.onSt f).th.fr = s.th.fr := rfl
@[simp] theorem State.onSt_th_ln (f : Strip → Strip) (s : State) : (s.onSt f).th.ln = s.th.ln := rfl
@[simp] theorem State.onSt_th_st (f : Strip → Strip) (s : State) : (s.onSt f).th.st = f s.th.st := rfl
@[simp] theorem State.onSt_th_tr (f : Strip → Strip) (s : State) : (s.onSt f).th.tr = s.th.tr := rfl
@[simp] theorem State.onSt_th_br (f : Strip → Strip) (s : State) : (s.onSt f).th.br = s.th.br := rfl
@[simp] theorem State.onSt_th_fab (f : Strip → Strip) (s : State) : (s.onSt f).th.fab = s.th.fab := rfl
@[simp] theorem State.onSt_th_cnt (f : Strip → Strip) (s : State) : (s.onSt f).th.cnt = s.th.cnt := rfl
@[simp] theorem State.onSt_th_oneWord (f : Strip → Strip) (s : State) : (s.onSt f).th.oneWord = s.th.oneWord := rfl

/-! ### State.onTr -/

@[simp] theorem State.onTr_others (f : Truss → Truss) (s : State) : (s.onTr f).others = s.others := rfl
@[simp] theorem State.onTr_images (f : Truss → Truss) (s : State) : (s.onTr f).images = s.images := rfl
@[simp] theorem State.onTr_mem (f : Truss → Truss) (s : State) : (s.onTr f).mem = s.mem := rfl
@[simp] theorem State.onTr_poison (f : Truss → Truss) (s : State) : (s.onTr f).poison = s.poison := rfl
@[simp] theorem State.onTr_lineKeys (f : Truss → Truss) (s : State) : (s.onTr f).lineKeys = s.lineKeys := rfl
@[simp] theorem State.onTr_unc (f : Truss → Truss) (s : State) : (s.onTr f).unc = s.unc := rfl
@[simp] theorem State.onTr_sync (f : Truss → Truss) (s : State) : (s.onTr f).sync = s.sync := rfl
@[simp] theorem State.onTr_copies (f : Truss → Truss) (s : State) : (s.onTr f).copies = s.copies := rfl
@[simp] theorem State.onTr_windows (f : Truss → Truss) (s : State) : (s.onTr f).windows = s.windows := rfl
@[simp] theorem State.onTr_whistles (f : Truss → Truss) (s : State) : (s.onTr f).whistles = s.whistles := rfl
@[simp] theorem State.onTr_ctxs (f : Truss → Truss) (s : State) : (s.onTr f).ctxs = s.ctxs := rfl
@[simp] theorem State.onTr_saved (f : Truss → Truss) (s : State) : (s.onTr f).saved = s.saved := rfl
@[simp] theorem State.onTr_hub (f : Truss → Truss) (s : State) : (s.onTr f).hub = s.hub := rfl
@[simp] theorem State.onTr_dev (f : Truss → Truss) (s : State) : (s.onTr f).dev = s.dev := rfl
@[simp] theorem State.onTr_tele (f : Truss → Truss) (s : State) : (s.onTr f).tele = s.tele := rfl
@[simp] theorem State.onTr_gtime (f : Truss → Truss) (s : State) : (s.onTr f).gtime = s.gtime := rfl
@[simp] theorem State.onTr_pace (f : Truss → Truss) (s : State) : (s.onTr f).pace = s.pace := rfl
@[simp] theorem State.onTr_prompt (f : Truss → Truss) (s : State) : (s.onTr f).prompt = s.prompt := rfl
@[simp] theorem State.onTr_freeCount (f : Truss → Truss) (s : State) : (s.onTr f).freeCount = s.freeCount := rfl
@[simp] theorem State.onTr_inputs (f : Truss → Truss) (s : State) : (s.onTr f).inputs = s.inputs := rfl
@[simp] theorem State.onTr_sched (f : Truss → Truss) (s : State) : (s.onTr f).sched = s.sched := rfl
@[simp] theorem State.onTr_out (f : Truss → Truss) (s : State) : (s.onTr f).out = s.out := rfl
@[simp] theorem State.onTr_th_bind (f : Truss → Truss) (s : State) : (s.onTr f).th.bind = s.th.bind := rfl
@[simp] theorem State.onTr_th_life (f : Truss → Truss) (s : State) : (s.onTr f).th.life = s.th.life := rfl
@[simp] theorem State.onTr_th_fr (f : Truss → Truss) (s : State) : (s.onTr f).th.fr = s.th.fr := rfl
@[simp] theorem State.onTr_th_ln (f : Truss → Truss) (s : State) : (s.onTr f).th.ln = s.th.ln := rfl
@[simp] theorem State.onTr_th_st (f : Truss → Truss) (s : State) : (s.onTr f).th.st = s.th.st := rfl
@[simp] theorem State.onTr_th_tr (f : Truss → Truss) (s : State) : (s.onTr f).th.tr = f s.th.tr := rfl
@[simp] theorem State.onTr_th_br (f : Truss → Truss) (s : State) : (s.onTr f).th.br = s.th.br := rfl
@[simp] theorem State.onTr_th_fab (f : Truss → Truss) (s : State) : (s.onTr f).th.fab = s.th.fab := rfl
@[simp] theorem State.onTr_th_cnt (f : Truss → Truss) (s : State) : (s.onTr f).th.cnt = s.th.cnt := rfl
@[simp] theorem State.onTr_th_oneWord (f : Truss → Truss) (s : State) : (s.onTr f).th.oneWord = s.th.oneWord := rfl

/-! ### State.onBr -/

@[simp] theorem State.onBr_others (f : Brace → Brace) (s : State) : (s.onBr f).others = s.others := rfl
@[simp] theorem State.onBr_images (f : Brace → Brace) (s : State) : (s.onBr f).images = s.images := rfl
@[simp] theorem State.onBr_mem (f : Brace → Brace) (s : State) : (s.onBr f).mem = s.mem := rfl
@[simp] theorem State.onBr_poison (f : Brace → Brace) (s : State) : (s.onBr f).poison = s.poison := rfl
@[simp] theorem State.onBr_lineKeys (f : Brace → Brace) (s : State) : (s.onBr f).lineKeys = s.lineKeys := rfl
@[simp] theorem State.onBr_unc (f : Brace → Brace) (s : State) : (s.onBr f).unc = s.unc := rfl
@[simp] theorem State.onBr_sync (f : Brace → Brace) (s : State) : (s.onBr f).sync = s.sync := rfl
@[simp] theorem State.onBr_copies (f : Brace → Brace) (s : State) : (s.onBr f).copies = s.copies := rfl
@[simp] theorem State.onBr_windows (f : Brace → Brace) (s : State) : (s.onBr f).windows = s.windows := rfl
@[simp] theorem State.onBr_whistles (f : Brace → Brace) (s : State) : (s.onBr f).whistles = s.whistles := rfl
@[simp] theorem State.onBr_ctxs (f : Brace → Brace) (s : State) : (s.onBr f).ctxs = s.ctxs := rfl
@[simp] theorem State.onBr_saved (f : Brace → Brace) (s : State) : (s.onBr f).saved = s.saved := rfl
@[simp] theorem State.onBr_hub (f : Brace → Brace) (s : State) : (s.onBr f).hub = s.hub := rfl
@[simp] theorem State.onBr_dev (f : Brace → Brace) (s : State) : (s.onBr f).dev = s.dev := rfl
@[simp] theorem State.onBr_tele (f : Brace → Brace) (s : State) : (s.onBr f).tele = s.tele := rfl
@[simp] theorem State.onBr_gtime (f : Brace → Brace) (s : State) : (s.onBr f).gtime = s.gtime := rfl
@[simp] theorem State.onBr_pace (f : Brace → Brace) (s : State) : (s.onBr f).pace = s.pace := rfl
@[simp] theorem State.onBr_prompt (f : Brace → Brace) (s : State) : (s.onBr f).prompt = s.prompt := rfl
@[simp] theorem State.onBr_freeCount (f : Brace → Brace) (s : State) : (s.onBr f).freeCount = s.freeCount := rfl
@[simp] theorem State.onBr_inputs (f : Brace → Brace) (s : State) : (s.onBr f).inputs = s.inputs := rfl
@[simp] theorem State.onBr_sched (f : Brace → Brace) (s : State) : (s.onBr f).sched = s.sched := rfl
@[simp] theorem State.onBr_out (f : Brace → Brace) (s : State) : (s.onBr f).out = s.out := rfl
@[simp] theorem State.onBr_th_bind (f : Brace → Brace) (s : State) : (s.onBr f).th.bind = s.th.bind := rfl
@[simp] theorem State.onBr_th_life (f : Brace → Brace) (s : State) : (s.onBr f).th.life = s.th.life := rfl
@[simp] theorem State.onBr_th_fr (f : Brace → Brace) (s : State) : (s.onBr f).th.fr = s.th.fr := rfl
@[simp] theorem State.onBr_th_ln (f : Brace → Brace) (s : State) : (s.onBr f).th.ln = s.th.ln := rfl
@[simp] theorem State.onBr_th_st (f : Brace → Brace) (s : State) : (s.onBr f).th.st = s.th.st := rfl
@[simp] theorem State.onBr_th_tr (f : Brace → Brace) (s : State) : (s.onBr f).th.tr = s.th.tr := rfl
@[simp] theorem State.onBr_th_br (f : Brace → Brace) (s : State) : (s.onBr f).th.br = f s.th.br := rfl
@[simp] theorem State.onBr_th_fab (f : Brace → Brace) (s : State) : (s.onBr f).th.fab = s.th.fab := rfl
@[simp] theorem State.onBr_th_cnt (f : Brace → Brace) (s : State) : (s.onBr f).th.cnt = s.th.cnt := rfl
@[simp] theorem State.onBr_th_oneWord (f : Brace → Brace) (s : State) : (s.onBr f).th.oneWord = s.th.oneWord := rfl

/-! ### State.onFab -/

@[simp] theorem State.onFab_others (f : Fabric → Fabric) (s : State) : (s.onFab f).others = s.others := rfl
@[simp] theorem State.onFab_images (f : Fabric → Fabric) (s : State) : (s.onFab f).images = s.images := rfl
@[simp] theorem State.onFab_mem (f : Fabric → Fabric) (s : State) : (s.onFab f).mem = s.mem := rfl
@[simp] theorem State.onFab_poison (f : Fabric → Fabric) (s : State) : (s.onFab f).poison = s.poison := rfl
@[simp] theorem State.onFab_lineKeys (f : Fabric → Fabric) (s : State) : (s.onFab f).lineKeys = s.lineKeys := rfl
@[simp] theorem State.onFab_unc (f : Fabric → Fabric) (s : State) : (s.onFab f).unc = s.unc := rfl
@[simp] theorem State.onFab_sync (f : Fabric → Fabric) (s : State) : (s.onFab f).sync = s.sync := rfl
@[simp] theorem State.onFab_copies (f : Fabric → Fabric) (s : State) : (s.onFab f).copies = s.copies := rfl
@[simp] theorem State.onFab_windows (f : Fabric → Fabric) (s : State) : (s.onFab f).windows = s.windows := rfl
@[simp] theorem State.onFab_whistles (f : Fabric → Fabric) (s : State) : (s.onFab f).whistles = s.whistles := rfl
@[simp] theorem State.onFab_ctxs (f : Fabric → Fabric) (s : State) : (s.onFab f).ctxs = s.ctxs := rfl
@[simp] theorem State.onFab_saved (f : Fabric → Fabric) (s : State) : (s.onFab f).saved = s.saved := rfl
@[simp] theorem State.onFab_hub (f : Fabric → Fabric) (s : State) : (s.onFab f).hub = s.hub := rfl
@[simp] theorem State.onFab_dev (f : Fabric → Fabric) (s : State) : (s.onFab f).dev = s.dev := rfl
@[simp] theorem State.onFab_tele (f : Fabric → Fabric) (s : State) : (s.onFab f).tele = s.tele := rfl
@[simp] theorem State.onFab_gtime (f : Fabric → Fabric) (s : State) : (s.onFab f).gtime = s.gtime := rfl
@[simp] theorem State.onFab_pace (f : Fabric → Fabric) (s : State) : (s.onFab f).pace = s.pace := rfl
@[simp] theorem State.onFab_prompt (f : Fabric → Fabric) (s : State) : (s.onFab f).prompt = s.prompt := rfl
@[simp] theorem State.onFab_freeCount (f : Fabric → Fabric) (s : State) : (s.onFab f).freeCount = s.freeCount := rfl
@[simp] theorem State.onFab_inputs (f : Fabric → Fabric) (s : State) : (s.onFab f).inputs = s.inputs := rfl
@[simp] theorem State.onFab_sched (f : Fabric → Fabric) (s : State) : (s.onFab f).sched = s.sched := rfl
@[simp] theorem State.onFab_out (f : Fabric → Fabric) (s : State) : (s.onFab f).out = s.out := rfl
@[simp] theorem State.onFab_th_bind (f : Fabric → Fabric) (s : State) : (s.onFab f).th.bind = s.th.bind := rfl
@[simp] theorem State.onFab_th_life (f : Fabric → Fabric) (s : State) : (s.onFab f).th.life = s.th.life := rfl
@[simp] theorem State.onFab_th_fr (f : Fabric → Fabric) (s : State) : (s.onFab f).th.fr = s.th.fr := rfl
@[simp] theorem State.onFab_th_ln (f : Fabric → Fabric) (s : State) : (s.onFab f).th.ln = s.th.ln := rfl
@[simp] theorem State.onFab_th_st (f : Fabric → Fabric) (s : State) : (s.onFab f).th.st = s.th.st := rfl
@[simp] theorem State.onFab_th_tr (f : Fabric → Fabric) (s : State) : (s.onFab f).th.tr = s.th.tr := rfl
@[simp] theorem State.onFab_th_br (f : Fabric → Fabric) (s : State) : (s.onFab f).th.br = s.th.br := rfl
@[simp] theorem State.onFab_th_fab (f : Fabric → Fabric) (s : State) : (s.onFab f).th.fab = f s.th.fab := rfl
@[simp] theorem State.onFab_th_cnt (f : Fabric → Fabric) (s : State) : (s.onFab f).th.cnt = s.th.cnt := rfl
@[simp] theorem State.onFab_th_oneWord (f : Fabric → Fabric) (s : State) : (s.onFab f).th.oneWord = s.th.oneWord := rfl

/-! ### State.onRegs -/

@[simp] theorem State.onRegs_others (f : FrontRegs → FrontRegs) (s : State) : (s.onRegs f).others = s.others := rfl
@[simp] theorem State.onRegs_images (f : FrontRegs → FrontRegs) (s : State) : (s.onRegs f).images = s.images := rfl
@[simp] theorem State.onRegs_mem (f : FrontRegs → FrontRegs) (s : State) : (s.onRegs f).mem = s.mem := rfl
@[simp] theorem State.onRegs_poison (f : FrontRegs → FrontRegs) (s : State) : (s.onRegs f).poison = s.poison := rfl
@[simp] theorem State.onRegs_lineKeys (f : FrontRegs → FrontRegs) (s : State) : (s.onRegs f).lineKeys = s.lineKeys := rfl
@[simp] theorem State.onRegs_unc (f : FrontRegs → FrontRegs) (s : State) : (s.onRegs f).unc = s.unc := rfl
@[simp] theorem State.onRegs_sync (f : FrontRegs → FrontRegs) (s : State) : (s.onRegs f).sync = s.sync := rfl
@[simp] theorem State.onRegs_copies (f : FrontRegs → FrontRegs) (s : State) : (s.onRegs f).copies = s.copies := rfl
@[simp] theorem State.onRegs_windows (f : FrontRegs → FrontRegs) (s : State) : (s.onRegs f).windows = s.windows := rfl
@[simp] theorem State.onRegs_whistles (f : FrontRegs → FrontRegs) (s : State) : (s.onRegs f).whistles = s.whistles := rfl
@[simp] theorem State.onRegs_ctxs (f : FrontRegs → FrontRegs) (s : State) : (s.onRegs f).ctxs = s.ctxs := rfl
@[simp] theorem State.onRegs_saved (f : FrontRegs → FrontRegs) (s : State) : (s.onRegs f).saved = s.saved := rfl
@[simp] theorem State.onRegs_hub (f : FrontRegs → FrontRegs) (s : State) : (s.onRegs f).hub = s.hub := rfl
@[simp] theorem State.onRegs_dev (f : FrontRegs → FrontRegs) (s : State) : (s.onRegs f).dev = s.dev := rfl
@[simp] theorem State.onRegs_tele (f : FrontRegs → FrontRegs) (s : State) : (s.onRegs f).tele = s.tele := rfl
@[simp] theorem State.onRegs_gtime (f : FrontRegs → FrontRegs) (s : State) : (s.onRegs f).gtime = s.gtime := rfl
@[simp] theorem State.onRegs_pace (f : FrontRegs → FrontRegs) (s : State) : (s.onRegs f).pace = s.pace := rfl
@[simp] theorem State.onRegs_prompt (f : FrontRegs → FrontRegs) (s : State) : (s.onRegs f).prompt = s.prompt := rfl
@[simp] theorem State.onRegs_freeCount (f : FrontRegs → FrontRegs) (s : State) : (s.onRegs f).freeCount = s.freeCount := rfl
@[simp] theorem State.onRegs_inputs (f : FrontRegs → FrontRegs) (s : State) : (s.onRegs f).inputs = s.inputs := rfl
@[simp] theorem State.onRegs_sched (f : FrontRegs → FrontRegs) (s : State) : (s.onRegs f).sched = s.sched := rfl
@[simp] theorem State.onRegs_out (f : FrontRegs → FrontRegs) (s : State) : (s.onRegs f).out = s.out := rfl
@[simp] theorem State.onRegs_th_bind (f : FrontRegs → FrontRegs) (s : State) : (s.onRegs f).th.bind = s.th.bind := rfl
@[simp] theorem State.onRegs_th_life (f : FrontRegs → FrontRegs) (s : State) : (s.onRegs f).th.life = s.th.life := rfl
@[simp] theorem State.onRegs_th_ln (f : FrontRegs → FrontRegs) (s : State) : (s.onRegs f).th.ln = s.th.ln := rfl
@[simp] theorem State.onRegs_th_st (f : FrontRegs → FrontRegs) (s : State) : (s.onRegs f).th.st = s.th.st := rfl
@[simp] theorem State.onRegs_th_tr (f : FrontRegs → FrontRegs) (s : State) : (s.onRegs f).th.tr = s.th.tr := rfl
@[simp] theorem State.onRegs_th_br (f : FrontRegs → FrontRegs) (s : State) : (s.onRegs f).th.br = s.th.br := rfl
@[simp] theorem State.onRegs_th_fab (f : FrontRegs → FrontRegs) (s : State) : (s.onRegs f).th.fab = s.th.fab := rfl
@[simp] theorem State.onRegs_th_cnt (f : FrontRegs → FrontRegs) (s : State) : (s.onRegs f).th.cnt = s.th.cnt := rfl
@[simp] theorem State.onRegs_th_oneWord (f : FrontRegs → FrontRegs) (s : State) : (s.onRegs f).th.oneWord = s.th.oneWord := rfl
@[simp] theorem State.onRegs_th_fr_s (f : FrontRegs → FrontRegs) (s : State) : (s.onRegs f).th.fr.s = s.th.fr.s := rfl
@[simp] theorem State.onRegs_th_fr_spc (f : FrontRegs → FrontRegs) (s : State) : (s.onRegs f).th.fr.spc = s.th.fr.spc := rfl
@[simp] theorem State.onRegs_regs (f : FrontRegs → FrontRegs) (s : State) : (s.onRegs f).th.fr.regs = f s.th.fr.regs := rfl
@[simp] theorem State.onRegs_th_fr_m (f : FrontRegs → FrontRegs) (s : State) : (s.onRegs f).th.fr.m = s.th.fr.m := rfl
@[simp] theorem State.onRegs_th_fr_copy (f : FrontRegs → FrontRegs) (s : State) : (s.onRegs f).th.fr.copy = s.th.fr.copy := rfl
@[simp] theorem State.onRegs_th_fr_hist (f : FrontRegs → FrontRegs) (s : State) : (s.onRegs f).th.fr.hist = s.th.fr.hist := rfl
@[simp] theorem State.onRegs_th_fr_storeQ (f : FrontRegs → FrontRegs) (s : State) : (s.onRegs f).th.fr.storeQ = s.th.fr.storeQ := rfl
@[simp] theorem State.onRegs_th_fr_viq (f : FrontRegs → FrontRegs) (s : State) : (s.onRegs f).th.fr.viq = s.th.fr.viq := rfl
@[simp] theorem State.onRegs_th_fr_seq (f : FrontRegs → FrontRegs) (s : State) : (s.onRegs f).th.fr.seq = s.th.fr.seq := rfl
@[simp] theorem State.onRegs_th_fr_wait (f : FrontRegs → FrontRegs) (s : State) : (s.onRegs f).th.fr.wait = s.th.fr.wait := rfl
@[simp] theorem State.onRegs_th_fr_lanes (f : FrontRegs → FrontRegs) (s : State) : (s.onRegs f).th.fr.lanes = s.th.fr.lanes := rfl
@[simp] theorem State.onRegs_th_fr_parkedLanes (f : FrontRegs → FrontRegs) (s : State) : (s.onRegs f).th.fr.parkedLanes = s.th.fr.parkedLanes := rfl
@[simp] theorem State.onRegs_th_fr_curLane (f : FrontRegs → FrontRegs) (s : State) : (s.onRegs f).th.fr.curLane = s.th.fr.curLane := rfl
@[simp] theorem State.onRegs_th_fr_fbuf (f : FrontRegs → FrontRegs) (s : State) : (s.onRegs f).th.fr.fbuf = s.th.fr.fbuf := rfl
@[simp] theorem State.onRegs_th_fr_chainOpen (f : FrontRegs → FrontRegs) (s : State) : (s.onRegs f).th.fr.chainOpen = s.th.fr.chainOpen := rfl

/-! ### State.onM -/

@[simp] theorem State.onM_others (f : MRegs → MRegs) (s : State) : (s.onM f).others = s.others := rfl
@[simp] theorem State.onM_images (f : MRegs → MRegs) (s : State) : (s.onM f).images = s.images := rfl
@[simp] theorem State.onM_mem (f : MRegs → MRegs) (s : State) : (s.onM f).mem = s.mem := rfl
@[simp] theorem State.onM_poison (f : MRegs → MRegs) (s : State) : (s.onM f).poison = s.poison := rfl
@[simp] theorem State.onM_lineKeys (f : MRegs → MRegs) (s : State) : (s.onM f).lineKeys = s.lineKeys := rfl
@[simp] theorem State.onM_unc (f : MRegs → MRegs) (s : State) : (s.onM f).unc = s.unc := rfl
@[simp] theorem State.onM_sync (f : MRegs → MRegs) (s : State) : (s.onM f).sync = s.sync := rfl
@[simp] theorem State.onM_copies (f : MRegs → MRegs) (s : State) : (s.onM f).copies = s.copies := rfl
@[simp] theorem State.onM_windows (f : MRegs → MRegs) (s : State) : (s.onM f).windows = s.windows := rfl
@[simp] theorem State.onM_whistles (f : MRegs → MRegs) (s : State) : (s.onM f).whistles = s.whistles := rfl
@[simp] theorem State.onM_ctxs (f : MRegs → MRegs) (s : State) : (s.onM f).ctxs = s.ctxs := rfl
@[simp] theorem State.onM_saved (f : MRegs → MRegs) (s : State) : (s.onM f).saved = s.saved := rfl
@[simp] theorem State.onM_hub (f : MRegs → MRegs) (s : State) : (s.onM f).hub = s.hub := rfl
@[simp] theorem State.onM_dev (f : MRegs → MRegs) (s : State) : (s.onM f).dev = s.dev := rfl
@[simp] theorem State.onM_tele (f : MRegs → MRegs) (s : State) : (s.onM f).tele = s.tele := rfl
@[simp] theorem State.onM_gtime (f : MRegs → MRegs) (s : State) : (s.onM f).gtime = s.gtime := rfl
@[simp] theorem State.onM_pace (f : MRegs → MRegs) (s : State) : (s.onM f).pace = s.pace := rfl
@[simp] theorem State.onM_prompt (f : MRegs → MRegs) (s : State) : (s.onM f).prompt = s.prompt := rfl
@[simp] theorem State.onM_freeCount (f : MRegs → MRegs) (s : State) : (s.onM f).freeCount = s.freeCount := rfl
@[simp] theorem State.onM_inputs (f : MRegs → MRegs) (s : State) : (s.onM f).inputs = s.inputs := rfl
@[simp] theorem State.onM_sched (f : MRegs → MRegs) (s : State) : (s.onM f).sched = s.sched := rfl
@[simp] theorem State.onM_out (f : MRegs → MRegs) (s : State) : (s.onM f).out = s.out := rfl
@[simp] theorem State.onM_th_bind (f : MRegs → MRegs) (s : State) : (s.onM f).th.bind = s.th.bind := rfl
@[simp] theorem State.onM_th_life (f : MRegs → MRegs) (s : State) : (s.onM f).th.life = s.th.life := rfl
@[simp] theorem State.onM_th_ln (f : MRegs → MRegs) (s : State) : (s.onM f).th.ln = s.th.ln := rfl
@[simp] theorem State.onM_th_st (f : MRegs → MRegs) (s : State) : (s.onM f).th.st = s.th.st := rfl
@[simp] theorem State.onM_th_tr (f : MRegs → MRegs) (s : State) : (s.onM f).th.tr = s.th.tr := rfl
@[simp] theorem State.onM_th_br (f : MRegs → MRegs) (s : State) : (s.onM f).th.br = s.th.br := rfl
@[simp] theorem State.onM_th_fab (f : MRegs → MRegs) (s : State) : (s.onM f).th.fab = s.th.fab := rfl
@[simp] theorem State.onM_th_cnt (f : MRegs → MRegs) (s : State) : (s.onM f).th.cnt = s.th.cnt := rfl
@[simp] theorem State.onM_th_oneWord (f : MRegs → MRegs) (s : State) : (s.onM f).th.oneWord = s.th.oneWord := rfl
@[simp] theorem State.onM_th_fr_s (f : MRegs → MRegs) (s : State) : (s.onM f).th.fr.s = s.th.fr.s := rfl
@[simp] theorem State.onM_th_fr_spc (f : MRegs → MRegs) (s : State) : (s.onM f).th.fr.spc = s.th.fr.spc := rfl
@[simp] theorem State.onM_th_fr_regs (f : MRegs → MRegs) (s : State) : (s.onM f).th.fr.regs = s.th.fr.regs := rfl
@[simp] theorem State.onM_m (f : MRegs → MRegs) (s : State) : (s.onM f).th.fr.m = f s.th.fr.m := rfl
@[simp] theorem State.onM_th_fr_copy (f : MRegs → MRegs) (s : State) : (s.onM f).th.fr.copy = s.th.fr.copy := rfl
@[simp] theorem State.onM_th_fr_hist (f : MRegs → MRegs) (s : State) : (s.onM f).th.fr.hist = s.th.fr.hist := rfl
@[simp] theorem State.onM_th_fr_storeQ (f : MRegs → MRegs) (s : State) : (s.onM f).th.fr.storeQ = s.th.fr.storeQ := rfl
@[simp] theorem State.onM_th_fr_viq (f : MRegs → MRegs) (s : State) : (s.onM f).th.fr.viq = s.th.fr.viq := rfl
@[simp] theorem State.onM_th_fr_seq (f : MRegs → MRegs) (s : State) : (s.onM f).th.fr.seq = s.th.fr.seq := rfl
@[simp] theorem State.onM_th_fr_wait (f : MRegs → MRegs) (s : State) : (s.onM f).th.fr.wait = s.th.fr.wait := rfl
@[simp] theorem State.onM_th_fr_lanes (f : MRegs → MRegs) (s : State) : (s.onM f).th.fr.lanes = s.th.fr.lanes := rfl
@[simp] theorem State.onM_th_fr_parkedLanes (f : MRegs → MRegs) (s : State) : (s.onM f).th.fr.parkedLanes = s.th.fr.parkedLanes := rfl
@[simp] theorem State.onM_th_fr_curLane (f : MRegs → MRegs) (s : State) : (s.onM f).th.fr.curLane = s.th.fr.curLane := rfl
@[simp] theorem State.onM_th_fr_fbuf (f : MRegs → MRegs) (s : State) : (s.onM f).th.fr.fbuf = s.th.fr.fbuf := rfl
@[simp] theorem State.onM_th_fr_chainOpen (f : MRegs → MRegs) (s : State) : (s.onM f).th.fr.chainOpen = s.th.fr.chainOpen := rfl

/-! ### State.onCopy -/

@[simp] theorem State.onCopy_others (f : Copies → Copies) (s : State) : (s.onCopy f).others = s.others := rfl
@[simp] theorem State.onCopy_images (f : Copies → Copies) (s : State) : (s.onCopy f).images = s.images := rfl
@[simp] theorem State.onCopy_mem (f : Copies → Copies) (s : State) : (s.onCopy f).mem = s.mem := rfl
@[simp] theorem State.onCopy_poison (f : Copies → Copies) (s : State) : (s.onCopy f).poison = s.poison := rfl
@[simp] theorem State.onCopy_lineKeys (f : Copies → Copies) (s : State) : (s.onCopy f).lineKeys = s.lineKeys := rfl
@[simp] theorem State.onCopy_unc (f : Copies → Copies) (s : State) : (s.onCopy f).unc = s.unc := rfl
@[simp] theorem State.onCopy_sync (f : Copies → Copies) (s : State) : (s.onCopy f).sync = s.sync := rfl
@[simp] theorem State.onCopy_copies (f : Copies → Copies) (s : State) : (s.onCopy f).copies = s.copies := rfl
@[simp] theorem State.onCopy_windows (f : Copies → Copies) (s : State) : (s.onCopy f).windows = s.windows := rfl
@[simp] theorem State.onCopy_whistles (f : Copies → Copies) (s : State) : (s.onCopy f).whistles = s.whistles := rfl
@[simp] theorem State.onCopy_ctxs (f : Copies → Copies) (s : State) : (s.onCopy f).ctxs = s.ctxs := rfl
@[simp] theorem State.onCopy_saved (f : Copies → Copies) (s : State) : (s.onCopy f).saved = s.saved := rfl
@[simp] theorem State.onCopy_hub (f : Copies → Copies) (s : State) : (s.onCopy f).hub = s.hub := rfl
@[simp] theorem State.onCopy_dev (f : Copies → Copies) (s : State) : (s.onCopy f).dev = s.dev := rfl
@[simp] theorem State.onCopy_tele (f : Copies → Copies) (s : State) : (s.onCopy f).tele = s.tele := rfl
@[simp] theorem State.onCopy_gtime (f : Copies → Copies) (s : State) : (s.onCopy f).gtime = s.gtime := rfl
@[simp] theorem State.onCopy_pace (f : Copies → Copies) (s : State) : (s.onCopy f).pace = s.pace := rfl
@[simp] theorem State.onCopy_prompt (f : Copies → Copies) (s : State) : (s.onCopy f).prompt = s.prompt := rfl
@[simp] theorem State.onCopy_freeCount (f : Copies → Copies) (s : State) : (s.onCopy f).freeCount = s.freeCount := rfl
@[simp] theorem State.onCopy_inputs (f : Copies → Copies) (s : State) : (s.onCopy f).inputs = s.inputs := rfl
@[simp] theorem State.onCopy_sched (f : Copies → Copies) (s : State) : (s.onCopy f).sched = s.sched := rfl
@[simp] theorem State.onCopy_out (f : Copies → Copies) (s : State) : (s.onCopy f).out = s.out := rfl
@[simp] theorem State.onCopy_th_bind (f : Copies → Copies) (s : State) : (s.onCopy f).th.bind = s.th.bind := rfl
@[simp] theorem State.onCopy_th_life (f : Copies → Copies) (s : State) : (s.onCopy f).th.life = s.th.life := rfl
@[simp] theorem State.onCopy_th_ln (f : Copies → Copies) (s : State) : (s.onCopy f).th.ln = s.th.ln := rfl
@[simp] theorem State.onCopy_th_st (f : Copies → Copies) (s : State) : (s.onCopy f).th.st = s.th.st := rfl
@[simp] theorem State.onCopy_th_tr (f : Copies → Copies) (s : State) : (s.onCopy f).th.tr = s.th.tr := rfl
@[simp] theorem State.onCopy_th_br (f : Copies → Copies) (s : State) : (s.onCopy f).th.br = s.th.br := rfl
@[simp] theorem State.onCopy_th_fab (f : Copies → Copies) (s : State) : (s.onCopy f).th.fab = s.th.fab := rfl
@[simp] theorem State.onCopy_th_cnt (f : Copies → Copies) (s : State) : (s.onCopy f).th.cnt = s.th.cnt := rfl
@[simp] theorem State.onCopy_th_oneWord (f : Copies → Copies) (s : State) : (s.onCopy f).th.oneWord = s.th.oneWord := rfl
@[simp] theorem State.onCopy_th_fr_s (f : Copies → Copies) (s : State) : (s.onCopy f).th.fr.s = s.th.fr.s := rfl
@[simp] theorem State.onCopy_th_fr_spc (f : Copies → Copies) (s : State) : (s.onCopy f).th.fr.spc = s.th.fr.spc := rfl
@[simp] theorem State.onCopy_th_fr_regs (f : Copies → Copies) (s : State) : (s.onCopy f).th.fr.regs = s.th.fr.regs := rfl
@[simp] theorem State.onCopy_th_fr_m (f : Copies → Copies) (s : State) : (s.onCopy f).th.fr.m = s.th.fr.m := rfl
@[simp] theorem State.onCopy_copy (f : Copies → Copies) (s : State) : (s.onCopy f).th.fr.copy = f s.th.fr.copy := rfl
@[simp] theorem State.onCopy_th_fr_hist (f : Copies → Copies) (s : State) : (s.onCopy f).th.fr.hist = s.th.fr.hist := rfl
@[simp] theorem State.onCopy_th_fr_storeQ (f : Copies → Copies) (s : State) : (s.onCopy f).th.fr.storeQ = s.th.fr.storeQ := rfl
@[simp] theorem State.onCopy_th_fr_viq (f : Copies → Copies) (s : State) : (s.onCopy f).th.fr.viq = s.th.fr.viq := rfl
@[simp] theorem State.onCopy_th_fr_seq (f : Copies → Copies) (s : State) : (s.onCopy f).th.fr.seq = s.th.fr.seq := rfl
@[simp] theorem State.onCopy_th_fr_wait (f : Copies → Copies) (s : State) : (s.onCopy f).th.fr.wait = s.th.fr.wait := rfl
@[simp] theorem State.onCopy_th_fr_lanes (f : Copies → Copies) (s : State) : (s.onCopy f).th.fr.lanes = s.th.fr.lanes := rfl
@[simp] theorem State.onCopy_th_fr_parkedLanes (f : Copies → Copies) (s : State) : (s.onCopy f).th.fr.parkedLanes = s.th.fr.parkedLanes := rfl
@[simp] theorem State.onCopy_th_fr_curLane (f : Copies → Copies) (s : State) : (s.onCopy f).th.fr.curLane = s.th.fr.curLane := rfl
@[simp] theorem State.onCopy_th_fr_fbuf (f : Copies → Copies) (s : State) : (s.onCopy f).th.fr.fbuf = s.th.fr.fbuf := rfl
@[simp] theorem State.onCopy_th_fr_chainOpen (f : Copies → Copies) (s : State) : (s.onCopy f).th.fr.chainOpen = s.th.fr.chainOpen := rfl

/-! ### State.onUnc -/

@[simp] theorem State.onUnc_th (f : Uncore → Uncore) (s : State) : (s.onUnc f).th = s.th := rfl
@[simp] theorem State.onUnc_others (f : Uncore → Uncore) (s : State) : (s.onUnc f).others = s.others := rfl
@[simp] theorem State.onUnc_images (f : Uncore → Uncore) (s : State) : (s.onUnc f).images = s.images := rfl
@[simp] theorem State.onUnc_mem (f : Uncore → Uncore) (s : State) : (s.onUnc f).mem = s.mem := rfl
@[simp] theorem State.onUnc_poison (f : Uncore → Uncore) (s : State) : (s.onUnc f).poison = s.poison := rfl
@[simp] theorem State.onUnc_lineKeys (f : Uncore → Uncore) (s : State) : (s.onUnc f).lineKeys = s.lineKeys := rfl
@[simp] theorem State.onUnc_unc (f : Uncore → Uncore) (s : State) : (s.onUnc f).unc = f s.unc := rfl
@[simp] theorem State.onUnc_sync (f : Uncore → Uncore) (s : State) : (s.onUnc f).sync = s.sync := rfl
@[simp] theorem State.onUnc_copies (f : Uncore → Uncore) (s : State) : (s.onUnc f).copies = s.copies := rfl
@[simp] theorem State.onUnc_windows (f : Uncore → Uncore) (s : State) : (s.onUnc f).windows = s.windows := rfl
@[simp] theorem State.onUnc_whistles (f : Uncore → Uncore) (s : State) : (s.onUnc f).whistles = s.whistles := rfl
@[simp] theorem State.onUnc_ctxs (f : Uncore → Uncore) (s : State) : (s.onUnc f).ctxs = s.ctxs := rfl
@[simp] theorem State.onUnc_saved (f : Uncore → Uncore) (s : State) : (s.onUnc f).saved = s.saved := rfl
@[simp] theorem State.onUnc_hub (f : Uncore → Uncore) (s : State) : (s.onUnc f).hub = s.hub := rfl
@[simp] theorem State.onUnc_dev (f : Uncore → Uncore) (s : State) : (s.onUnc f).dev = s.dev := rfl
@[simp] theorem State.onUnc_tele (f : Uncore → Uncore) (s : State) : (s.onUnc f).tele = s.tele := rfl
@[simp] theorem State.onUnc_gtime (f : Uncore → Uncore) (s : State) : (s.onUnc f).gtime = s.gtime := rfl
@[simp] theorem State.onUnc_pace (f : Uncore → Uncore) (s : State) : (s.onUnc f).pace = s.pace := rfl
@[simp] theorem State.onUnc_prompt (f : Uncore → Uncore) (s : State) : (s.onUnc f).prompt = s.prompt := rfl
@[simp] theorem State.onUnc_freeCount (f : Uncore → Uncore) (s : State) : (s.onUnc f).freeCount = s.freeCount := rfl
@[simp] theorem State.onUnc_inputs (f : Uncore → Uncore) (s : State) : (s.onUnc f).inputs = s.inputs := rfl
@[simp] theorem State.onUnc_sched (f : Uncore → Uncore) (s : State) : (s.onUnc f).sched = s.sched := rfl
@[simp] theorem State.onUnc_out (f : Uncore → Uncore) (s : State) : (s.onUnc f).out = s.out := rfl

/-! ### State.emit -/

@[simp] theorem State.emit_th (m : OutMsg) (s : State) : (s.emit m).th = s.th := rfl
@[simp] theorem State.emit_others (m : OutMsg) (s : State) : (s.emit m).others = s.others := rfl
@[simp] theorem State.emit_images (m : OutMsg) (s : State) : (s.emit m).images = s.images := rfl
@[simp] theorem State.emit_mem (m : OutMsg) (s : State) : (s.emit m).mem = s.mem := rfl
@[simp] theorem State.emit_poison (m : OutMsg) (s : State) : (s.emit m).poison = s.poison := rfl
@[simp] theorem State.emit_lineKeys (m : OutMsg) (s : State) : (s.emit m).lineKeys = s.lineKeys := rfl
@[simp] theorem State.emit_unc (m : OutMsg) (s : State) : (s.emit m).unc = s.unc := rfl
@[simp] theorem State.emit_sync (m : OutMsg) (s : State) : (s.emit m).sync = s.sync := rfl
@[simp] theorem State.emit_copies (m : OutMsg) (s : State) : (s.emit m).copies = s.copies := rfl
@[simp] theorem State.emit_windows (m : OutMsg) (s : State) : (s.emit m).windows = s.windows := rfl
@[simp] theorem State.emit_whistles (m : OutMsg) (s : State) : (s.emit m).whistles = s.whistles := rfl
@[simp] theorem State.emit_ctxs (m : OutMsg) (s : State) : (s.emit m).ctxs = s.ctxs := rfl
@[simp] theorem State.emit_saved (m : OutMsg) (s : State) : (s.emit m).saved = s.saved := rfl
@[simp] theorem State.emit_hub (m : OutMsg) (s : State) : (s.emit m).hub = s.hub := rfl
@[simp] theorem State.emit_dev (m : OutMsg) (s : State) : (s.emit m).dev = s.dev := rfl
@[simp] theorem State.emit_tele (m : OutMsg) (s : State) : (s.emit m).tele = s.tele := rfl
@[simp] theorem State.emit_gtime (m : OutMsg) (s : State) : (s.emit m).gtime = s.gtime := rfl
@[simp] theorem State.emit_pace (m : OutMsg) (s : State) : (s.emit m).pace = s.pace := rfl
@[simp] theorem State.emit_prompt (m : OutMsg) (s : State) : (s.emit m).prompt = s.prompt := rfl
@[simp] theorem State.emit_freeCount (m : OutMsg) (s : State) : (s.emit m).freeCount = s.freeCount := rfl
@[simp] theorem State.emit_inputs (m : OutMsg) (s : State) : (s.emit m).inputs = s.inputs := rfl
@[simp] theorem State.emit_sched (m : OutMsg) (s : State) : (s.emit m).sched = s.sched := rfl
@[simp] theorem State.emit_out (m : OutMsg) (s : State) : (s.emit m).out = s.out ++ [m] := rfl

/-! ### State.count -/

@[simp] theorem State.count_others (n : Nat) (s : State) : (s.count n).others = s.others := rfl
@[simp] theorem State.count_images (n : Nat) (s : State) : (s.count n).images = s.images := rfl
@[simp] theorem State.count_mem (n : Nat) (s : State) : (s.count n).mem = s.mem := rfl
@[simp] theorem State.count_poison (n : Nat) (s : State) : (s.count n).poison = s.poison := rfl
@[simp] theorem State.count_lineKeys (n : Nat) (s : State) : (s.count n).lineKeys = s.lineKeys := rfl
@[simp] theorem State.count_unc (n : Nat) (s : State) : (s.count n).unc = s.unc := rfl
@[simp] theorem State.count_sync (n : Nat) (s : State) : (s.count n).sync = s.sync := rfl
@[simp] theorem State.count_copies (n : Nat) (s : State) : (s.count n).copies = s.copies := rfl
@[simp] theorem State.count_windows (n : Nat) (s : State) : (s.count n).windows = s.windows := rfl
@[simp] theorem State.count_whistles (n : Nat) (s : State) : (s.count n).whistles = s.whistles := rfl
@[simp] theorem State.count_ctxs (n : Nat) (s : State) : (s.count n).ctxs = s.ctxs := rfl
@[simp] theorem State.count_saved (n : Nat) (s : State) : (s.count n).saved = s.saved := rfl
@[simp] theorem State.count_hub (n : Nat) (s : State) : (s.count n).hub = s.hub := rfl
@[simp] theorem State.count_dev (n : Nat) (s : State) : (s.count n).dev = s.dev := rfl
@[simp] theorem State.count_tele (n : Nat) (s : State) : (s.count n).tele = s.tele := rfl
@[simp] theorem State.count_gtime (n : Nat) (s : State) : (s.count n).gtime = s.gtime := rfl
@[simp] theorem State.count_pace (n : Nat) (s : State) : (s.count n).pace = s.pace := rfl
@[simp] theorem State.count_prompt (n : Nat) (s : State) : (s.count n).prompt = s.prompt := rfl
@[simp] theorem State.count_freeCount (n : Nat) (s : State) : (s.count n).freeCount = s.freeCount := rfl
@[simp] theorem State.count_inputs (n : Nat) (s : State) : (s.count n).inputs = s.inputs := rfl
@[simp] theorem State.count_sched (n : Nat) (s : State) : (s.count n).sched = s.sched := rfl
@[simp] theorem State.count_out (n : Nat) (s : State) : (s.count n).out = s.out := rfl
@[simp] theorem State.count_th_bind (n : Nat) (s : State) : (s.count n).th.bind = s.th.bind := rfl
@[simp] theorem State.count_th_life (n : Nat) (s : State) : (s.count n).th.life = s.th.life := rfl
@[simp] theorem State.count_th_fr (n : Nat) (s : State) : (s.count n).th.fr = s.th.fr := rfl
@[simp] theorem State.count_th_ln (n : Nat) (s : State) : (s.count n).th.ln = s.th.ln := rfl
@[simp] theorem State.count_th_st (n : Nat) (s : State) : (s.count n).th.st = s.th.st := rfl
@[simp] theorem State.count_th_tr (n : Nat) (s : State) : (s.count n).th.tr = s.th.tr := rfl
@[simp] theorem State.count_th_br (n : Nat) (s : State) : (s.count n).th.br = s.th.br := rfl
@[simp] theorem State.count_th_fab (n : Nat) (s : State) : (s.count n).th.fab = s.th.fab := rfl
@[simp] theorem State.count_th_cnt (n : Nat) (s : State) : (s.count n).th.cnt = vecSet s.th.cnt n (vecGet s.th.cnt n 0 + 1) := rfl
@[simp] theorem State.count_th_oneWord (n : Nat) (s : State) : (s.count n).th.oneWord = s.th.oneWord := rfl

/-! ### State.setV -/

@[simp] theorem State.setV_others (r : Nat) (x : VReg) (p : Nat) (w : Bool) (s : State) : (s.setV r x p w).others = s.others := rfl
@[simp] theorem State.setV_images (r : Nat) (x : VReg) (p : Nat) (w : Bool) (s : State) : (s.setV r x p w).images = s.images := rfl
@[simp] theorem State.setV_mem (r : Nat) (x : VReg) (p : Nat) (w : Bool) (s : State) : (s.setV r x p w).mem = s.mem := rfl
@[simp] theorem State.setV_poison (r : Nat) (x : VReg) (p : Nat) (w : Bool) (s : State) : (s.setV r x p w).poison = s.poison := rfl
@[simp] theorem State.setV_lineKeys (r : Nat) (x : VReg) (p : Nat) (w : Bool) (s : State) : (s.setV r x p w).lineKeys = s.lineKeys := rfl
@[simp] theorem State.setV_unc (r : Nat) (x : VReg) (p : Nat) (w : Bool) (s : State) : (s.setV r x p w).unc = s.unc := rfl
@[simp] theorem State.setV_sync (r : Nat) (x : VReg) (p : Nat) (w : Bool) (s : State) : (s.setV r x p w).sync = s.sync := rfl
@[simp] theorem State.setV_copies (r : Nat) (x : VReg) (p : Nat) (w : Bool) (s : State) : (s.setV r x p w).copies = s.copies := rfl
@[simp] theorem State.setV_windows (r : Nat) (x : VReg) (p : Nat) (w : Bool) (s : State) : (s.setV r x p w).windows = s.windows := rfl
@[simp] theorem State.setV_whistles (r : Nat) (x : VReg) (p : Nat) (w : Bool) (s : State) : (s.setV r x p w).whistles = s.whistles := rfl
@[simp] theorem State.setV_ctxs (r : Nat) (x : VReg) (p : Nat) (w : Bool) (s : State) : (s.setV r x p w).ctxs = s.ctxs := rfl
@[simp] theorem State.setV_saved (r : Nat) (x : VReg) (p : Nat) (w : Bool) (s : State) : (s.setV r x p w).saved = s.saved := rfl
@[simp] theorem State.setV_hub (r : Nat) (x : VReg) (p : Nat) (w : Bool) (s : State) : (s.setV r x p w).hub = s.hub := rfl
@[simp] theorem State.setV_dev (r : Nat) (x : VReg) (p : Nat) (w : Bool) (s : State) : (s.setV r x p w).dev = s.dev := rfl
@[simp] theorem State.setV_tele (r : Nat) (x : VReg) (p : Nat) (w : Bool) (s : State) : (s.setV r x p w).tele = s.tele := rfl
@[simp] theorem State.setV_gtime (r : Nat) (x : VReg) (p : Nat) (w : Bool) (s : State) : (s.setV r x p w).gtime = s.gtime := rfl
@[simp] theorem State.setV_pace (r : Nat) (x : VReg) (p : Nat) (w : Bool) (s : State) : (s.setV r x p w).pace = s.pace := rfl
@[simp] theorem State.setV_prompt (r : Nat) (x : VReg) (p : Nat) (w : Bool) (s : State) : (s.setV r x p w).prompt = s.prompt := rfl
@[simp] theorem State.setV_freeCount (r : Nat) (x : VReg) (p : Nat) (w : Bool) (s : State) : (s.setV r x p w).freeCount = s.freeCount := rfl
@[simp] theorem State.setV_inputs (r : Nat) (x : VReg) (p : Nat) (w : Bool) (s : State) : (s.setV r x p w).inputs = s.inputs := rfl
@[simp] theorem State.setV_sched (r : Nat) (x : VReg) (p : Nat) (w : Bool) (s : State) : (s.setV r x p w).sched = s.sched := rfl
@[simp] theorem State.setV_out (r : Nat) (x : VReg) (p : Nat) (w : Bool) (s : State) : (s.setV r x p w).out = s.out := rfl
@[simp] theorem State.setV_th_bind (r : Nat) (x : VReg) (p : Nat) (w : Bool) (s : State) : (s.setV r x p w).th.bind = s.th.bind := rfl
@[simp] theorem State.setV_th_life (r : Nat) (x : VReg) (p : Nat) (w : Bool) (s : State) : (s.setV r x p w).th.life = s.th.life := rfl
@[simp] theorem State.setV_th_fr (r : Nat) (x : VReg) (p : Nat) (w : Bool) (s : State) : (s.setV r x p w).th.fr = s.th.fr := rfl
@[simp] theorem State.setV_th_st (r : Nat) (x : VReg) (p : Nat) (w : Bool) (s : State) : (s.setV r x p w).th.st = s.th.st := rfl
@[simp] theorem State.setV_th_tr (r : Nat) (x : VReg) (p : Nat) (w : Bool) (s : State) : (s.setV r x p w).th.tr = s.th.tr := rfl
@[simp] theorem State.setV_th_br (r : Nat) (x : VReg) (p : Nat) (w : Bool) (s : State) : (s.setV r x p w).th.br = s.th.br := rfl
@[simp] theorem State.setV_th_fab (r : Nat) (x : VReg) (p : Nat) (w : Bool) (s : State) : (s.setV r x p w).th.fab = s.th.fab := rfl
@[simp] theorem State.setV_th_cnt (r : Nat) (x : VReg) (p : Nat) (w : Bool) (s : State) : (s.setV r x p w).th.cnt = s.th.cnt := rfl
@[simp] theorem State.setV_th_oneWord (r : Nat) (x : VReg) (p : Nat) (w : Bool) (s : State) : (s.setV r x p w).th.oneWord = s.th.oneWord := rfl
@[simp] theorem State.setV_ln_v (r : Nat) (x : VReg) (p : Nat) (w : Bool) (s : State) : (s.setV r x p w).th.ln.v = vecSet s.th.ln.v r x := rfl
@[simp] theorem State.setV_ln_m (r : Nat) (x : VReg) (p : Nat) (w : Bool) (s : State) : (s.setV r x p w).th.ln.m = s.th.ln.m := rfl
@[simp] theorem State.setV_ln_vprog (r : Nat) (x : VReg) (p : Nat) (w : Bool) (s : State) : (s.setV r x p w).th.ln.vprog = vecSet s.th.ln.vprog r p := rfl
@[simp] theorem State.setV_ln_mprog (r : Nat) (x : VReg) (p : Nat) (w : Bool) (s : State) : (s.setV r x p w).th.ln.mprog = s.th.ln.mprog := rfl
@[simp] theorem State.setV_ln_vl (r : Nat) (x : VReg) (p : Nat) (w : Bool) (s : State) : (s.setV r x p w).th.ln.vl = s.th.ln.vl := rfl
@[simp] theorem State.setV_ln_vtype (r : Nat) (x : VReg) (p : Nat) (w : Bool) (s : State) : (s.setV r x p w).th.ln.vtype = s.th.ln.vtype := rfl
@[simp] theorem State.setV_ln_shape (r : Nat) (x : VReg) (p : Nat) (w : Bool) (s : State) : (s.setV r x p w).th.ln.shape = s.th.ln.shape := rfl
@[simp] theorem State.setV_ln_fmt (r : Nat) (x : VReg) (p : Nat) (w : Bool) (s : State) : (s.setV r x p w).th.ln.fmt = s.th.ln.fmt := rfl
@[simp] theorem State.setV_ln_flags (r : Nat) (x : VReg) (p : Nat) (w : Bool) (s : State) : (s.setV r x p w).th.ln.flags = s.th.ln.flags := rfl
@[simp] theorem State.setV_ln_traps (r : Nat) (x : VReg) (p : Nat) (w : Bool) (s : State) : (s.setV r x p w).th.ln.traps = s.th.ln.traps := rfl
@[simp] theorem State.setV_ln_efc (r : Nat) (x : VReg) (p : Nat) (w : Bool) (s : State) : (s.setV r x p w).th.ln.efc = s.th.ln.efc := rfl
@[simp] theorem State.setV_ln_win (r : Nat) (x : VReg) (p : Nat) (w : Bool) (s : State) : (s.setV r x p w).th.ln.win = s.th.ln.win := rfl
@[simp] theorem State.setV_ln_cpErr (r : Nat) (x : VReg) (p : Nat) (w : Bool) (s : State) : (s.setV r x p w).th.ln.cpErr = s.th.ln.cpErr := rfl
@[simp] theorem State.setV_ln_bad (r : Nat) (x : VReg) (p : Nat) (w : Bool) (s : State) : (s.setV r x p w).th.ln.bad = if w then s.th.ln.bad.filter fun m => m.1 ≠ r else s.th.ln.bad := rfl

/-! ### State.setM -/

@[simp] theorem State.setM_others (r : Nat) (x : MReg) (p : Nat) (s : State) : (s.setM r x p).others = s.others := rfl
@[simp] theorem State.setM_images (r : Nat) (x : MReg) (p : Nat) (s : State) : (s.setM r x p).images = s.images := rfl
@[simp] theorem State.setM_mem (r : Nat) (x : MReg) (p : Nat) (s : State) : (s.setM r x p).mem = s.mem := rfl
@[simp] theorem State.setM_poison (r : Nat) (x : MReg) (p : Nat) (s : State) : (s.setM r x p).poison = s.poison := rfl
@[simp] theorem State.setM_lineKeys (r : Nat) (x : MReg) (p : Nat) (s : State) : (s.setM r x p).lineKeys = s.lineKeys := rfl
@[simp] theorem State.setM_unc (r : Nat) (x : MReg) (p : Nat) (s : State) : (s.setM r x p).unc = s.unc := rfl
@[simp] theorem State.setM_sync (r : Nat) (x : MReg) (p : Nat) (s : State) : (s.setM r x p).sync = s.sync := rfl
@[simp] theorem State.setM_copies (r : Nat) (x : MReg) (p : Nat) (s : State) : (s.setM r x p).copies = s.copies := rfl
@[simp] theorem State.setM_windows (r : Nat) (x : MReg) (p : Nat) (s : State) : (s.setM r x p).windows = s.windows := rfl
@[simp] theorem State.setM_whistles (r : Nat) (x : MReg) (p : Nat) (s : State) : (s.setM r x p).whistles = s.whistles := rfl
@[simp] theorem State.setM_ctxs (r : Nat) (x : MReg) (p : Nat) (s : State) : (s.setM r x p).ctxs = s.ctxs := rfl
@[simp] theorem State.setM_saved (r : Nat) (x : MReg) (p : Nat) (s : State) : (s.setM r x p).saved = s.saved := rfl
@[simp] theorem State.setM_hub (r : Nat) (x : MReg) (p : Nat) (s : State) : (s.setM r x p).hub = s.hub := rfl
@[simp] theorem State.setM_dev (r : Nat) (x : MReg) (p : Nat) (s : State) : (s.setM r x p).dev = s.dev := rfl
@[simp] theorem State.setM_tele (r : Nat) (x : MReg) (p : Nat) (s : State) : (s.setM r x p).tele = s.tele := rfl
@[simp] theorem State.setM_gtime (r : Nat) (x : MReg) (p : Nat) (s : State) : (s.setM r x p).gtime = s.gtime := rfl
@[simp] theorem State.setM_pace (r : Nat) (x : MReg) (p : Nat) (s : State) : (s.setM r x p).pace = s.pace := rfl
@[simp] theorem State.setM_prompt (r : Nat) (x : MReg) (p : Nat) (s : State) : (s.setM r x p).prompt = s.prompt := rfl
@[simp] theorem State.setM_freeCount (r : Nat) (x : MReg) (p : Nat) (s : State) : (s.setM r x p).freeCount = s.freeCount := rfl
@[simp] theorem State.setM_inputs (r : Nat) (x : MReg) (p : Nat) (s : State) : (s.setM r x p).inputs = s.inputs := rfl
@[simp] theorem State.setM_sched (r : Nat) (x : MReg) (p : Nat) (s : State) : (s.setM r x p).sched = s.sched := rfl
@[simp] theorem State.setM_out (r : Nat) (x : MReg) (p : Nat) (s : State) : (s.setM r x p).out = s.out := rfl
@[simp] theorem State.setM_th_bind (r : Nat) (x : MReg) (p : Nat) (s : State) : (s.setM r x p).th.bind = s.th.bind := rfl
@[simp] theorem State.setM_th_life (r : Nat) (x : MReg) (p : Nat) (s : State) : (s.setM r x p).th.life = s.th.life := rfl
@[simp] theorem State.setM_th_fr (r : Nat) (x : MReg) (p : Nat) (s : State) : (s.setM r x p).th.fr = s.th.fr := rfl
@[simp] theorem State.setM_th_st (r : Nat) (x : MReg) (p : Nat) (s : State) : (s.setM r x p).th.st = s.th.st := rfl
@[simp] theorem State.setM_th_tr (r : Nat) (x : MReg) (p : Nat) (s : State) : (s.setM r x p).th.tr = s.th.tr := rfl
@[simp] theorem State.setM_th_br (r : Nat) (x : MReg) (p : Nat) (s : State) : (s.setM r x p).th.br = s.th.br := rfl
@[simp] theorem State.setM_th_fab (r : Nat) (x : MReg) (p : Nat) (s : State) : (s.setM r x p).th.fab = s.th.fab := rfl
@[simp] theorem State.setM_th_cnt (r : Nat) (x : MReg) (p : Nat) (s : State) : (s.setM r x p).th.cnt = s.th.cnt := rfl
@[simp] theorem State.setM_th_oneWord (r : Nat) (x : MReg) (p : Nat) (s : State) : (s.setM r x p).th.oneWord = s.th.oneWord := rfl
@[simp] theorem State.setM_ln_v (r : Nat) (x : MReg) (p : Nat) (s : State) : (s.setM r x p).th.ln.v = s.th.ln.v := rfl
@[simp] theorem State.setM_ln_m (r : Nat) (x : MReg) (p : Nat) (s : State) : (s.setM r x p).th.ln.m = vecSet s.th.ln.m r x := rfl
@[simp] theorem State.setM_ln_vprog (r : Nat) (x : MReg) (p : Nat) (s : State) : (s.setM r x p).th.ln.vprog = s.th.ln.vprog := rfl
@[simp] theorem State.setM_ln_mprog (r : Nat) (x : MReg) (p : Nat) (s : State) : (s.setM r x p).th.ln.mprog = vecSet s.th.ln.mprog r p := rfl
@[simp] theorem State.setM_ln_vl (r : Nat) (x : MReg) (p : Nat) (s : State) : (s.setM r x p).th.ln.vl = s.th.ln.vl := rfl
@[simp] theorem State.setM_ln_vtype (r : Nat) (x : MReg) (p : Nat) (s : State) : (s.setM r x p).th.ln.vtype = s.th.ln.vtype := rfl
@[simp] theorem State.setM_ln_shape (r : Nat) (x : MReg) (p : Nat) (s : State) : (s.setM r x p).th.ln.shape = s.th.ln.shape := rfl
@[simp] theorem State.setM_ln_fmt (r : Nat) (x : MReg) (p : Nat) (s : State) : (s.setM r x p).th.ln.fmt = s.th.ln.fmt := rfl
@[simp] theorem State.setM_ln_flags (r : Nat) (x : MReg) (p : Nat) (s : State) : (s.setM r x p).th.ln.flags = s.th.ln.flags := rfl
@[simp] theorem State.setM_ln_traps (r : Nat) (x : MReg) (p : Nat) (s : State) : (s.setM r x p).th.ln.traps = s.th.ln.traps := rfl
@[simp] theorem State.setM_ln_efc (r : Nat) (x : MReg) (p : Nat) (s : State) : (s.setM r x p).th.ln.efc = s.th.ln.efc := rfl
@[simp] theorem State.setM_ln_win (r : Nat) (x : MReg) (p : Nat) (s : State) : (s.setM r x p).th.ln.win = s.th.ln.win := rfl
@[simp] theorem State.setM_ln_cpErr (r : Nat) (x : MReg) (p : Nat) (s : State) : (s.setM r x p).th.ln.cpErr = s.th.ln.cpErr := rfl
@[simp] theorem State.setM_ln_bad (r : Nat) (x : MReg) (p : Nat) (s : State) : (s.setM r x p).th.ln.bad = s.th.ln.bad := rfl

/-! ### State.orLaneFlags -/

@[simp] theorem State.orLaneFlags_others (fl : Flags) (s : State) : (s.orLaneFlags fl).others = s.others := rfl
@[simp] theorem State.orLaneFlags_images (fl : Flags) (s : State) : (s.orLaneFlags fl).images = s.images := rfl
@[simp] theorem State.orLaneFlags_mem (fl : Flags) (s : State) : (s.orLaneFlags fl).mem = s.mem := rfl
@[simp] theorem State.orLaneFlags_poison (fl : Flags) (s : State) : (s.orLaneFlags fl).poison = s.poison := rfl
@[simp] theorem State.orLaneFlags_lineKeys (fl : Flags) (s : State) : (s.orLaneFlags fl).lineKeys = s.lineKeys := rfl
@[simp] theorem State.orLaneFlags_unc (fl : Flags) (s : State) : (s.orLaneFlags fl).unc = s.unc := rfl
@[simp] theorem State.orLaneFlags_sync (fl : Flags) (s : State) : (s.orLaneFlags fl).sync = s.sync := rfl
@[simp] theorem State.orLaneFlags_copies (fl : Flags) (s : State) : (s.orLaneFlags fl).copies = s.copies := rfl
@[simp] theorem State.orLaneFlags_windows (fl : Flags) (s : State) : (s.orLaneFlags fl).windows = s.windows := rfl
@[simp] theorem State.orLaneFlags_whistles (fl : Flags) (s : State) : (s.orLaneFlags fl).whistles = s.whistles := rfl
@[simp] theorem State.orLaneFlags_ctxs (fl : Flags) (s : State) : (s.orLaneFlags fl).ctxs = s.ctxs := rfl
@[simp] theorem State.orLaneFlags_saved (fl : Flags) (s : State) : (s.orLaneFlags fl).saved = s.saved := rfl
@[simp] theorem State.orLaneFlags_hub (fl : Flags) (s : State) : (s.orLaneFlags fl).hub = s.hub := rfl
@[simp] theorem State.orLaneFlags_dev (fl : Flags) (s : State) : (s.orLaneFlags fl).dev = s.dev := rfl
@[simp] theorem State.orLaneFlags_tele (fl : Flags) (s : State) : (s.orLaneFlags fl).tele = s.tele := rfl
@[simp] theorem State.orLaneFlags_gtime (fl : Flags) (s : State) : (s.orLaneFlags fl).gtime = s.gtime := rfl
@[simp] theorem State.orLaneFlags_pace (fl : Flags) (s : State) : (s.orLaneFlags fl).pace = s.pace := rfl
@[simp] theorem State.orLaneFlags_prompt (fl : Flags) (s : State) : (s.orLaneFlags fl).prompt = s.prompt := rfl
@[simp] theorem State.orLaneFlags_freeCount (fl : Flags) (s : State) : (s.orLaneFlags fl).freeCount = s.freeCount := rfl
@[simp] theorem State.orLaneFlags_inputs (fl : Flags) (s : State) : (s.orLaneFlags fl).inputs = s.inputs := rfl
@[simp] theorem State.orLaneFlags_sched (fl : Flags) (s : State) : (s.orLaneFlags fl).sched = s.sched := rfl
@[simp] theorem State.orLaneFlags_out (fl : Flags) (s : State) : (s.orLaneFlags fl).out = s.out := rfl
@[simp] theorem State.orLaneFlags_th_bind (fl : Flags) (s : State) : (s.orLaneFlags fl).th.bind = s.th.bind := rfl
@[simp] theorem State.orLaneFlags_th_life (fl : Flags) (s : State) : (s.orLaneFlags fl).th.life = s.th.life := rfl
@[simp] theorem State.orLaneFlags_th_fr (fl : Flags) (s : State) : (s.orLaneFlags fl).th.fr = s.th.fr := rfl
@[simp] theorem State.orLaneFlags_th_st (fl : Flags) (s : State) : (s.orLaneFlags fl).th.st = s.th.st := rfl
@[simp] theorem State.orLaneFlags_th_tr (fl : Flags) (s : State) : (s.orLaneFlags fl).th.tr = s.th.tr := rfl
@[simp] theorem State.orLaneFlags_th_br (fl : Flags) (s : State) : (s.orLaneFlags fl).th.br = s.th.br := rfl
@[simp] theorem State.orLaneFlags_th_fab (fl : Flags) (s : State) : (s.orLaneFlags fl).th.fab = s.th.fab := rfl
@[simp] theorem State.orLaneFlags_th_cnt (fl : Flags) (s : State) : (s.orLaneFlags fl).th.cnt = s.th.cnt := rfl
@[simp] theorem State.orLaneFlags_th_oneWord (fl : Flags) (s : State) : (s.orLaneFlags fl).th.oneWord = s.th.oneWord := rfl
@[simp] theorem State.orLaneFlags_ln_v (fl : Flags) (s : State) : (s.orLaneFlags fl).th.ln.v = s.th.ln.v := rfl
@[simp] theorem State.orLaneFlags_ln_m (fl : Flags) (s : State) : (s.orLaneFlags fl).th.ln.m = s.th.ln.m := rfl
@[simp] theorem State.orLaneFlags_ln_vprog (fl : Flags) (s : State) : (s.orLaneFlags fl).th.ln.vprog = s.th.ln.vprog := rfl
@[simp] theorem State.orLaneFlags_ln_mprog (fl : Flags) (s : State) : (s.orLaneFlags fl).th.ln.mprog = s.th.ln.mprog := rfl
@[simp] theorem State.orLaneFlags_ln_vl (fl : Flags) (s : State) : (s.orLaneFlags fl).th.ln.vl = s.th.ln.vl := rfl
@[simp] theorem State.orLaneFlags_ln_vtype (fl : Flags) (s : State) : (s.orLaneFlags fl).th.ln.vtype = s.th.ln.vtype := rfl
@[simp] theorem State.orLaneFlags_ln_shape (fl : Flags) (s : State) : (s.orLaneFlags fl).th.ln.shape = s.th.ln.shape := rfl
@[simp] theorem State.orLaneFlags_ln_fmt (fl : Flags) (s : State) : (s.orLaneFlags fl).th.ln.fmt = s.th.ln.fmt := rfl
@[simp] theorem State.orLaneFlags_ln_flags (fl : Flags) (s : State) : (s.orLaneFlags fl).th.ln.flags = s.th.ln.flags ||| fl := rfl
@[simp] theorem State.orLaneFlags_ln_traps (fl : Flags) (s : State) : (s.orLaneFlags fl).th.ln.traps = s.th.ln.traps := rfl
@[simp] theorem State.orLaneFlags_ln_efc (fl : Flags) (s : State) : (s.orLaneFlags fl).th.ln.efc = s.th.ln.efc := rfl
@[simp] theorem State.orLaneFlags_ln_win (fl : Flags) (s : State) : (s.orLaneFlags fl).th.ln.win = s.th.ln.win := rfl
@[simp] theorem State.orLaneFlags_ln_cpErr (fl : Flags) (s : State) : (s.orLaneFlags fl).th.ln.cpErr = s.th.ln.cpErr := rfl
@[simp] theorem State.orLaneFlags_ln_bad (fl : Flags) (s : State) : (s.orLaneFlags fl).th.ln.bad = s.th.ln.bad := rfl

end

end Sys2Proof.Machine
end

