-- ==== Sys2Proof/Tests/Slice0.lean ====
section
/-! SUPPORT. Tests: words written out from the encodings of 02 and of each entry and what they decode to; ill-formed terms that WellFormed refuses;
a launch run from its queue entry to its completion record; and, for every statement, states and operands that meet its hypotheses. -/

section
set_option Elab.async false
open Sys2Proof Sys2Proof.Machine Sys2Proof.Claims
namespace Sys2Proof.Tests

/-- 32-bit words put together from the fields of their rows (02 R31, R32; 03 and 04 tables), part 1. -/
theorem test_decode_words_1 :
    ∀ p ∈ ([
    (0x016B6701, .add 45 27 14),
    (0x016B6702, .sub 45 27 14),
    (0x016B6703, .and 45 27 14),
    (0x016B6704, .or 45 27 14),
    (0x016B6705, .xor 45 27 14),
    (0x016B6706, .andn 45 27 14),
    (0x016B6708, .sll 45 27 14),
    (0x016B6709, .srl 45 27 14),
    (0x016B670A, .sra 45 27 14),
    (0x016B670B, .ror 45 27 14),
    (0x016B6710, .slt 45 27 14),
    (0x016B6711, .sltn 45 27 14),
    (0x016B6712, .min 45 27 14),
    (0x016B6713, .max 45 27 14),
    (0x016B6714, .minn 45 27 14),
    (0x016B6715, .maxn 45 27 14),
    (0x016B6018, .clz 45 27),
    (0x016B6019, .ctz 45 27),
    (0x016B601A, .cpop 45 27),
    (0x036B6701, .mul 45 27 14),
    (0x036B6702, .mulh 45 27 14),
    (0x036B6703, .mulhn 45 27 14),
    (0x036B6704, .div 45 27 14),
    (0x036B6705, .divn 45 27 14),
    (0x036B6706, .rem 45 27 14),
    (0x036B6707, .remn 45 27 14),
    (0x056B7C93, .addi 45 27 7315)] : List (Nat × Instr)), decode32 (BitVec.ofNat 32 p.1) = .ok p.2 := by
  decide +kernel

/-- 32-bit words put together from the fields of their rows (02 R31, R32; 03 and 04 tables), part 2. -/
theorem test_decode_words_2 :
    ∀ p ∈ ([
    (0x076B7C93, .andi 45 27 7315),
    (0x096B7C93, .ori 45 27 7315),
    (0x0B6B7C93, .xori 45 27 7315),
    (0x0D6B6029, .slli 45 27 41),
    (0x0D6B6069, .srli 45 27 41),
    (0x0D6B60A9, .srai 45 27 41),
    (0x0F6B7C93, .slti 45 27 7315),
    (0x116B7C93, .sltin 45 27 7315),
    (0x136A5C93, .lui 45 154771),
    (0x156A5C93, .addpc 45 154771),
    (0x176B7C93, .ldI8 45 27 7315),
    (0x196B7C93, .ldI16 45 27 7315),
    (0x1B6B7C93, .ldI32 45 27 7315),
    (0x1D6B7C93, .ldI64 45 27 7315),
    (0x1F6B7C93, .ldN8 45 27 7315),
    (0x216B7C93, .ldN16 45 27 7315),
    (0x236B7C93, .ldN32 45 27 7315),
    (0x24D9DC93, .stI8 27 14 7315),
    (0x26D9DC93, .stI16 27 14 7315),
    (0x28D9DC93, .stI32 27 14 7315),
    (0x2AD9DC93, .stI64 27 14 7315),
    (0x2D680A53, .mfc 45 2643),
    (0x2E036A53, .mtc 27 2643),
    (0x416B6730, .faddD 45 27 14 3),
    (0x416B6731, .fsubD 45 27 14 3),
    (0x416B6732, .fmulD 45 27 14 3),
    (0x416B6733, .fdivD 45 27 14 3)] : List (Nat × Instr)), decode32 (BitVec.ofNat 32 p.1) = .ok p.2 := by
  decide +kernel

/-- 32-bit words put together from the fields of their rows (02 R31, R32; 03 and 04 tables), part 3. -/
theorem test_decode_words_3 :
    ∀ p ∈ ([
    (0x416B6034, .fsqrtD 45 27 3),
    (0x416B6705, .fminD 45 27 14),
    (0x416B6706, .fmaxD 45 27 14),
    (0x416B6707, .fsignCD 45 27 14),
    (0x416B6708, .fsignND 45 27 14),
    (0x416B6709, .fsignXD 45 27 14),
    (0x436B6730, .faddS 45 27 14 3),
    (0x436B6731, .fsubS 45 27 14 3),
    (0x436B6732, .fmulS 45 27 14 3),
    (0x436B6733, .fdivS 45 27 14 3),
    (0x436B6034, .fsqrtS 45 27 3),
    (0x436B6705, .fminS 45 27 14),
    (0x436B6706, .fmaxS 45 27 14),
    (0x436B6707, .fsignCS 45 27 14),
    (0x436B6708, .fsignNS 45 27 14),
    (0x436B6709, .fsignXS 45 27 14),
    (0x456B6730, .fmaddD 45 27 14 3),
    (0x456B6731, .fmsubD 45 27 14 3),
    (0x456B6732, .fnmaddD 45 27 14 3),
    (0x456B6733, .fnmsubD 45 27 14 3),
    (0x456B6738, .fmaddS 45 27 14 3),
    (0x456B6739, .fmsubS 45 27 14 3),
    (0x456B673A, .fnmaddS 45 27 14 3),
    (0x456B673B, .fnmsubS 45 27 14 3),
    (0x476B6000, .cvtDS 45 27),
    (0x476B6031, .cvtSD 45 27 3),
    (0x476B6032, .cvtDI64 45 27 3)] : List (Nat × Instr)), decode32 (BitVec.ofNat 32 p.1) = .ok p.2 := by
  decide +kernel

/-- 32-bit words put together from the fields of their rows (02 R31, R32; 03 and 04 tables), part 4. -/
theorem test_decode_words_4 :
    ∀ p ∈ ([
    (0x476B6033, .cvtDN64 45 27 3),
    (0x476B6034, .cvtSI64 45 27 3),
    (0x476B6035, .cvtSN64 45 27 3),
    (0x476B6036, .cvtI64D 45 27 3),
    (0x476B6037, .cvtN64D 45 27 3),
    (0x476B6038, .cvtI64S 45 27 3),
    (0x476B6039, .cvtN64S 45 27 3),
    (0x496B6700, .fcmpEqD 45 27 14),
    (0x496B6701, .fcmpLtD 45 27 14),
    (0x496B6702, .fcmpLeD 45 27 14),
    (0x496B6003, .fkindD 45 27),
    (0x496B6708, .fcmpEqS 45 27 14),
    (0x496B6709, .fcmpLtS 45 27 14),
    (0x496B670A, .fcmpLeS 45 27 14),
    (0x496B600B, .fkindS 45 27),
    (0x601A5C93, .b 1727635),
    (0x621A5C93, .call 1727635),
    (0x64D9DC93, .bcEq 27 14 7315),
    (0x66D9DC93, .bcNe 27 14 7315),
    (0x68D9DC93, .bcLt 27 14 7315),
    (0x6AD9DC93, .bcGe 27 14 7315),
    (0x6CD9DC93, .bcLtn 27 14 7315),
    (0x6ED9DC93, .bcGen 27 14 7315),
    (0x70000000, .nop),
    (0x70036001, .calli 27),
    (0x70036002, .jmpi 27),
    (0x70036003, .ret 27)] : List (Nat × Instr)), decode32 (BitVec.ofNat 32 p.1) = .ok p.2 := by
  decide +kernel

/-- 32-bit words put together from the fields of their rows (02 R31, R32; 03 and 04 tables), part 5. -/
theorem test_decode_words_5 :
    ∀ p ∈ ([
    (0x70000004, .lpadC),
    (0x70000005, .lpadJ),
    (0x70000006, .lpadR),
    (0x70080008, .lbrk 1),
    (0x70000009, .endThread),
    (0x716B600A, .waitT 45 27),
    (0x7003600B, .dline 27),
    (0x7003670C, .lsplit 27 14),
    (0x7000000D, .ljoin),
    (0x720B7C93, .loop 1 27 7315),
    (0x74D81C93, .smb 27 7315),
    (0x77680009, .smbcfg 45 2 1),
    (0x78036001, .trap 27),
    (0x78000002, .eret),
    (0x78000003, .bkpt),
    (0x78000004, .ifence),
    (0x78036005, .tlbinv 27),
    (0x78036006, .halt 27),
    (0x78036007, .vqsave 27),
    (0x78036008, .vqrestore 27),
    (0x796B6009, .smplCnt 45 27),
    (0x7800000A, .smplMark),
    (0x7803600B, .trc 27),
    (0x7800000C, .tlbinvAll),
    (0x7B680A53, .mfcM 45 2643),
    (0x7C036A53, .mtcM 27 2643)] : List (Nat × Instr)), decode32 (BitVec.ofNat 32 p.1) = .ok p.2 := by
  decide +kernel

/-- 64-bit words put together from the fields of Table 2.3 and the rows' own tables (02 R33, R35; 05 to 12), part 1. -/
theorem test_decode_wide_1 :
    ∀ p ∈ ([
    (0x0000200080204300, .vadd { plainWord with ety := .i32, vd := 8, va := 4, vb := 12 }),
    (0x0000200180204300, .vsub { plainWord with ety := .i32, fn := 1, vd := 8, va := 4, vb := 12 }),
    (0x0000200280204300, .vrsub { plainWord with ety := .i32, fn := 2, vd := 8, va := 4, vb := 12 }),
    (0x0000200081204300, .vmul { plainWord with ety := .i32, vd := 8, va := 4, vb := 12 }),
    (0x0000200181204300, .vmulh { plainWord with ety := .i32, fn := 1, vd := 8, va := 4, vb := 12 }),
    (0x0000200281204300, .vmacc { plainWord with ety := .i32, fn := 2, vd := 8, va := 4, vb := 12 }),
    (0x0000200082204300, .vsadd { plainWord with ety := .i32, vd := 8, va := 4, vb := 12 }),
    (0x0000200182204300, .vssub { plainWord with ety := .i32, fn := 1, vd := 8, va := 4, vb := 12 }),
    (0x0000200282204300, .vsmul { plainWord with ety := .i32, fn := 2, vd := 8, va := 4, vb := 12 }),
    (0x0000200083204300, .vsll { plainWord with ety := .i32, vd := 8, va := 4, vb := 12 }),
    (0x0000200183204300, .vsrl { plainWord with ety := .i32, fn := 1, vd := 8, va := 4, vb := 12 }),
    (0x0000200283204300, .vsra { plainWord with ety := .i32, fn := 2, vd := 8, va := 4, vb := 12 }),
    (0x0000200383204300, .vror { plainWord with ety := .i32, fn := 3, vd := 8, va := 4, vb := 12 }),
    (0x0000200084204300, .vand { plainWord with ety := .i32, vd := 8, va := 4, vb := 12 }),
    (0x0000200184204300, .vor { plainWord with ety := .i32, fn := 1, vd := 8, va := 4, vb := 12 }),
    (0x0000200284204300, .vxor { plainWord with ety := .i32, fn := 2, vd := 8, va := 4, vb := 12 }),
    (0x0000200384204300, .vandn { plainWord with ety := .i32, fn := 3, vd := 8, va := 4, vb := 12 }),
    (0x0000200085204300, .vmin { plainWord with ety := .i32, vd := 8, va := 4, vb := 12 }),
    (0x0000200185204300, .vmax { plainWord with ety := .i32, fn := 1, vd := 8, va := 4, vb := 12 }),
    (0x0000200285204000, .vabs { plainWord with ety := .i32, fn := 2, vd := 8, va := 4 }),
    (0x0000200086044300, .vcmpEq { plainWord with ety := .i32, vd := 1, va := 4, vb := 12 }),
    (0x0000200186044300, .vcmpNe { plainWord with ety := .i32, fn := 1, vd := 1, va := 4, vb := 12 }),
    (0x0000200286044300, .vcmpLt { plainWord with ety := .i32, fn := 2, vd := 1, va := 4, vb := 12 }),
    (0x0000200386044300, .vcmpLe { plainWord with ety := .i32, fn := 3, vd := 1, va := 4, vb := 12 }),
    (0x0000200486044300, .vcmpGt { plainWord with ety := .i32, fn := 4, vd := 1, va := 4, vb := 12 }),
    (0x0000200586044300, .vcmpGe { plainWord with ety := .i32, fn := 5, vd := 1, va := 4, vb := 12 }),
    (0x0000000087044080, .mand { plainWord with vd := 1, va := 4, vb := 2 }),
    (0x0000000187044080, .mor { plainWord with fn := 1, vd := 1, va := 4, vb := 2 }),
    (0x0000000287044080, .mxor { plainWord with fn := 2, vd := 1, va := 4, vb := 2 }),
    (0x0000000387044080, .mandn { plainWord with fn := 3, vd := 1, va := 4, vb := 2 }),
    (0x0000000487044000, .mnot { plainWord with fn := 4, vd := 1, va := 4 })] : List (Nat × Instr)), decode64 3 (BitVec.ofNat 64 p.1) = .ok p.2 := by
  decide +kernel

/-- 64-bit words put together from the fields of Table 2.3 and the rows' own tables (02 R33, R35; 05 to 12), part 2. -/
theorem test_decode_wide_2 :
    ∀ p ∈ ([
    (0x0000001087204000, .mpop { plainWord with fn := 16, vd := 8, va := 4 }),
    (0x0000001187204000, .mfirst { plainWord with fn := 17, vd := 8, va := 4 }),
    (0x0800200088204300, .vsel { plainWord with mask := 1, ety := .i32, vd := 8, va := 4, vb := 12 }),
    (0x4000200089200010, .vbcast { plainWord with form := .vs, ety := .i32, vd := 8, vc := 16 }),
    (0x0000200189204000, .vmv { plainWord with ety := .i32, fn := 1, vd := 8, va := 4 }),
    (0x4000200289200010, .vmvsV { plainWord with form := .vs, ety := .i32, fn := 2, vd := 8, vc := 16 }),
    (0x0000200389204000, .vmvsX { plainWord with ety := .i32, fn := 3, vd := 8, va := 4 }),
    (0x0000A000A0204300, .vfadd { plainWord with ety := .fp32, vd := 8, va := 4, vb := 12 }),
    (0x0000A001A0204300, .vfsub { plainWord with ety := .fp32, fn := 1, vd := 8, va := 4, vb := 12 }),
    (0x0000A002A0204300, .vfmul { plainWord with ety := .fp32, fn := 2, vd := 8, va := 4, vb := 12 }),
    (0x0000A000A1204310, .vfmadd { plainWord with ety := .fp32, vd := 8, va := 4, vb := 12, vc := 16 }),
    (0x0000A001A1204310, .vfmsub { plainWord with ety := .fp32, fn := 1, vd := 8, va := 4, vb := 12, vc := 16 }),
    (0x0000A002A1204310, .vfnmadd { plainWord with ety := .fp32, fn := 2, vd := 8, va := 4, vb := 12, vc := 16 }),
    (0x0000A003A1204310, .vfnmsub { plainWord with ety := .fp32, fn := 3, vd := 8, va := 4, vb := 12, vc := 16 }),
    (0x0000A004A1204300, .vfmacc { plainWord with ety := .fp32, fn := 4, vd := 8, va := 4, vb := 12 }),
    (0x0000A000A2204300, .vfmin { plainWord with ety := .fp32, vd := 8, va := 4, vb := 12 }),
    (0x0000A001A2204300, .vfmax { plainWord with ety := .fp32, fn := 1, vd := 8, va := 4, vb := 12 }),
    (0x0000A002A2204000, .vfabs { plainWord with ety := .fp32, fn := 2, vd := 8, va := 4 }),
    (0x0000A003A2204000, .vfneg { plainWord with ety := .fp32, fn := 3, vd := 8, va := 4 }),
    (0x0000A004A2204300, .vfsignC { plainWord with ety := .fp32, fn := 4, vd := 8, va := 4, vb := 12 }),
    (0x0000A005A2204300, .vfsignN { plainWord with ety := .fp32, fn := 5, vd := 8, va := 4, vb := 12 }),
    (0x0000A006A2204300, .vfsignX { plainWord with ety := .fp32, fn := 6, vd := 8, va := 4, vb := 12 }),
    (0x0000A000A3044300, .vfcmpEq { plainWord with ety := .fp32, vd := 1, va := 4, vb := 12 }),
    (0x0000A001A3044300, .vfcmpNe { plainWord with ety := .fp32, fn := 1, vd := 1, va := 4, vb := 12 }),
    (0x0000A002A3044300, .vfcmpLt { plainWord with ety := .fp32, fn := 2, vd := 1, va := 4, vb := 12 }),
    (0x0000A003A3044300, .vfcmpLe { plainWord with ety := .fp32, fn := 3, vd := 1, va := 4, vb := 12 }),
    (0x0000A004A3044300, .vfcmpGt { plainWord with ety := .fp32, fn := 4, vd := 1, va := 4, vb := 12 }),
    (0x0000A005A3044300, .vfcmpGe { plainWord with ety := .fp32, fn := 5, vd := 1, va := 4, vb := 12 }),
    (0x0000A006A3044300, .vfcmpUn { plainWord with ety := .fp32, fn := 6, vd := 1, va := 4, vb := 12 }),
    (0x00002000B0204300, .vredoAdd { plainWord with ety := .i32, vd := 8, va := 4, vb := 12 }),
    (0x00002001B0204300, .vredoMin { plainWord with ety := .i32, fn := 1, vd := 8, va := 4, vb := 12 })] : List (Nat × Instr)), decode64 3 (BitVec.ofNat 64 p.1) = .ok p.2 := by
  decide +kernel

/-- 64-bit words put together from the fields of Table 2.3 and the rows' own tables (02 R33, R35; 05 to 12), part 3. -/
theorem test_decode_wide_3 :
    ∀ p ∈ ([
    (0x00002002B0204300, .vredoMax { plainWord with ety := .i32, fn := 2, vd := 8, va := 4, vb := 12 }),
    (0x00002000B1204300, .vredtAdd { plainWord with ety := .i32, vd := 8, va := 4, vb := 12 }),
    (0x00002001B1204300, .vredtMin { plainWord with ety := .i32, fn := 1, vd := 8, va := 4, vb := 12 }),
    (0x00002002B1204300, .vredtMax { plainWord with ety := .i32, fn := 2, vd := 8, va := 4, vb := 12 }),
    (0x00002003B1204300, .vredtAnd { plainWord with ety := .i32, fn := 3, vd := 8, va := 4, vb := 12 }),
    (0x00002004B1204300, .vredtOr { plainWord with ety := .i32, fn := 4, vd := 8, va := 4, vb := 12 }),
    (0x00002005B1204300, .vredtXor { plainWord with ety := .i32, fn := 5, vd := 8, va := 4, vb := 12 }),
    (0x00002000B2204300, .vscanInAdd { plainWord with ety := .i32, vd := 8, va := 4, vb := 12 }),
    (0x00002001B2204300, .vscanInMin { plainWord with ety := .i32, fn := 1, vd := 8, va := 4, vb := 12 }),
    (0x00002002B2204300, .vscanInMax { plainWord with ety := .i32, fn := 2, vd := 8, va := 4, vb := 12 }),
    (0x00002008B2204300, .vscanExAdd { plainWord with ety := .i32, fn := 8, vd := 8, va := 4, vb := 12 }),
    (0x00002009B2204300, .vscanExMin { plainWord with ety := .i32, fn := 9, vd := 8, va := 4, vb := 12 }),
    (0x0000200AB2204300, .vscanExMax { plainWord with ety := .i32, fn := 10, vd := 8, va := 4, vb := 12 }),
    (0x40002000B3204010, .vslipUp { plainWord with form := .vs, ety := .i32, vd := 8, va := 4, vc := 16 }),
    (0x40002001B3204010, .vslipDn { plainWord with form := .vs, ety := .i32, fn := 1, vd := 8, va := 4, vc := 16 }),
    (0x40002002B3204010, .vslipUpin { plainWord with form := .vs, ety := .i32, fn := 2, vd := 8, va := 4, vc := 16 }),
    (0x40002003B3204010, .vslipDnin { plainWord with form := .vs, ety := .i32, fn := 3, vd := 8, va := 4, vc := 16 }),
    (0x00002000B4204300, .vpick { plainWord with ety := .i32, vd := 8, va := 4, vb := 12 }),
    (0x00002000B5204000, .vcompress { plainWord with ety := .i32, vd := 8, va := 4 }),
    (0x00002001B5204000, .vexpand { plainWord with ety := .i32, fn := 1, vd := 8, va := 4 }),
    (0x00002000B8204000, .vcvt { plainWord with ety := .i32, vd := 8, va := 4 }),
    (0x0000A008B9204000, .vcvtEf { plainWord with ety := .fp32, fn := 8, vd := 8, va := 4 }),
    (0x00000002BA204000, .vpack { plainWord with fn := 2, vd := 8, va := 4 }),
    (0x00000022BA204000, .vunpack { plainWord with fn := 34, vd := 8, va := 4 }),
    (0x0000A000BB204300, .vscaleMul { plainWord with ety := .fp32, vd := 8, va := 4, vb := 12 }),
    (0x0000A001BB204300, .vscaleDiv { plainWord with ety := .fp32, fn := 1, vd := 8, va := 4, vb := 12 }),
    (0x0000A000BC044000, .vfclass { plainWord with ety := .fp32, vd := 1, va := 4 }),
    (0x0000A000BD204300, .vdiv { plainWord with ety := .fp32, vd := 8, va := 4, vb := 12 }),
    (0x0000A001BD204300, .vrdiv { plainWord with ety := .fp32, fn := 1, vd := 8, va := 4, vb := 12 }),
    (0x0000A002BD204000, .vsqrt { plainWord with ety := .fp32, fn := 2, vd := 8, va := 4 }),
    (0x0000A003BD204000, .vrsq { plainWord with ety := .fp32, fn := 3, vd := 8, va := 4 })] : List (Nat × Instr)), decode64 3 (BitVec.ofNat 64 p.1) = .ok p.2 := by
  decide +kernel

/-- 64-bit words put together from the fields of Table 2.3 and the rows' own tables (02 R33, R35; 05 to 12), part 4. -/
theorem test_decode_wide_4 :
    ∀ p ∈ ([
    (0x40002000C0204010, .vld { plainWord with form := .vs, ety := .i32, vd := 8, va := 4, vc := 16 }),
    (0x40002020C0200010, .vldC { plainWord with form := .vs, ety := .i32, fn := 32, vd := 8, vc := 16 }),
    (0x40002800C0204310, .vldQ { plainWord with form := .vs, ety := .i32, fn := 2048, vd := 8, va := 4, vb := 12, vc := 16 }),
    (0x40002000C1204310, .vlds { plainWord with form := .vs, ety := .i32, vd := 8, va := 4, vb := 12, vc := 16 }),
    (0x40002000C2204010, .vldx { plainWord with form := .vs, ety := .i32, vd := 8, va := 4, vc := 16 }),
    (0x40002000C3204010, .vldg { plainWord with form := .vs, ety := .i32, vd := 8, va := 4, vc := 16 }),
    (0x40002000C4204010, .vst { plainWord with form := .vs, ety := .i32, vd := 8, va := 4, vc := 16 }),
    (0x40002020C4200010, .vstC { plainWord with form := .vs, ety := .i32, fn := 32, vd := 8, vc := 16 }),
    (0x40002800C4204310, .vstQ { plainWord with form := .vs, ety := .i32, fn := 2048, vd := 8, va := 4, vb := 12, vc := 16 }),
    (0x40002000C5204310, .vsts { plainWord with form := .vs, ety := .i32, vd := 8, va := 4, vb := 12, vc := 16 }),
    (0x40002000C6204010, .vstx { plainWord with form := .vs, ety := .i32, vd := 8, va := 4, vc := 16 }),
    (0x40002000C7204010, .vstxo { plainWord with form := .vs, ety := .i32, vd := 8, va := 4, vc := 16 }),
    (0x40002000C8204010, .vstg { plainWord with form := .vs, ety := .i32, vd := 8, va := 4, vc := 16 }),
    (0x40002000C9004010, .vpref { plainWord with form := .vs, ety := .i32, va := 4, vc := 16 }),
    (0x40000000CA000000, .scommit { plainWord with form := .vs }),
    (0x40000000CB000010, .cutstep { plainWord with form := .vs, vc := 16 }),
    (0x00002000D0040000, .mzero { plainWord with ety := .i32, vd := 1 }),
    (0x0000A000D1044310, .mouter { plainWord with ety := .fp32, vd := 1, va := 4, vb := 12, vc := 16 }),
    (0x00002000D2044310, .mouteri { plainWord with ety := .i32, vd := 1, va := 4, vb := 12, vc := 16 }),
    (0x00002000D3044310, .mouterc { plainWord with ety := .i32, vd := 1, va := 4, vb := 12, vc := 16 }),
    (0x00002000D4044000, .mlacc { plainWord with ety := .i32, vd := 1, va := 4 }),
    (0x40002000D5044310, .mdrain { plainWord with form := .vs, ety := .i32, vd := 1, va := 4, vb := 12, vc := 16 }),
    (0x00002000D6201000, .mtov { plainWord with ety := .i32, vd := 8, va := 1 }),
    (0x0000A000D7044300, .mscale { plainWord with ety := .fp32, vd := 1, va := 4, vb := 12 }),
    (0x0000A000D8000003, .bclr { plainWord with ety := .fp32, vc := 3 }),
    (0x4000A400D8044310, .btload { plainWord with form := .vs, ety := .fp32, fn := 1024, vd := 1, va := 4, vb := 12, vc := 16 }),
    (0x4000A800D8044310, .btdrain { plainWord with form := .vs, ety := .fp32, fn := 2048, vd := 1, va := 4, vb := 12, vc := 16 }),
    (0x0000A000D9004003, .bqr { plainWord with ety := .fp32, va := 4, vc := 3 }),
    (0x0000A001D9204303, .bqra { plainWord with ety := .fp32, fn := 1, vd := 8, va := 4, vb := 12, vc := 3 }),
    (0x0000A002D9204003, .bqrD { plainWord with ety := .fp32, fn := 2, vd := 8, va := 4, vc := 3 }),
    (0x0000A000DA204303, .bapply { plainWord with ety := .fp32, vd := 8, va := 4, vb := 12, vc := 3 })] : List (Nat × Instr)), decode64 3 (BitVec.ofNat 64 p.1) = .ok p.2 := by
  decide +kernel

/-- 64-bit words put together from the fields of Table 2.3 and the rows' own tables (02 R33, R35; 05 to 12), part 5. -/
theorem test_decode_wide_5 :
    ∀ p ∈ ([
    (0x0000A001DA204303, .bapplyC0 { plainWord with ety := .fp32, fn := 1, vd := 8, va := 4, vb := 12, vc := 3 }),
    (0x0000A000DB204300, .bvec { plainWord with ety := .fp32, vd := 8, va := 4, vb := 12 }),
    (0x00006001DB204000, .bangleD { plainWord with ety := .n32, fn := 1, vd := 8, va := 4 }),
    (0x00006002DB204000, .bangleA { plainWord with ety := .n32, fn := 2, vd := 8, va := 4 }),
    (0x0000A000DC204300, .brot { plainWord with ety := .fp32, vd := 8, va := 4, vb := 12 }),
    (0x0000A040DC204310, .vrotate { plainWord with ety := .fp32, fn := 64, vd := 8, va := 4, vb := 12, vc := 16 }),
    (0x80000000DD000000, .bgain { plainWord with form := .vi }),
    (0x0000A000DE200003, .bsolve { plainWord with ety := .fp32, vd := 8, vc := 3 }),
    (0x40002000E0204300, .amoSwap { plainWord with form := .vs, ety := .i32, vd := 8, va := 4, vb := 12 }),
    (0x40002020E0204300, .amoAdd { plainWord with form := .vs, ety := .i32, fn := 32, vd := 8, va := 4, vb := 12 }),
    (0x40002040E0204300, .amoAnd { plainWord with form := .vs, ety := .i32, fn := 64, vd := 8, va := 4, vb := 12 }),
    (0x40002060E0204300, .amoOr { plainWord with form := .vs, ety := .i32, fn := 96, vd := 8, va := 4, vb := 12 }),
    (0x40002080E0204300, .amoXor { plainWord with form := .vs, ety := .i32, fn := 128, vd := 8, va := 4, vb := 12 }),
    (0x400020A9E0204300, .amoMin { plainWord with form := .vs, ety := .i32, fn := 169, vd := 8, va := 4, vb := 12 }),
    (0x400020C0E0204300, .amoMax { plainWord with form := .vs, ety := .i32, fn := 192, vd := 8, va := 4, vb := 12 }),
    (0x40002000E1204310, .amocas { plainWord with form := .vs, ety := .i32, vd := 8, va := 4, vb := 12, vc := 16 }),
    (0x40002000E2204310, .vamo { plainWord with form := .vs, ety := .i32, vd := 8, va := 4, vb := 12, vc := 16 }),
    (0x40002800E2204310, .vamoo { plainWord with form := .vs, ety := .i32, fn := 2048, vd := 8, va := 4, vb := 12, vc := 16 }),
    (0x40002000E3000010, .accw { plainWord with form := .vs, ety := .i32, vc := 16 }),
    (0x00002020E3004300, .vacc { plainWord with ety := .i32, fn := 32, va := 4, vb := 12 }),
    (0x40002040E3000010, .amerge { plainWord with form := .vs, ety := .i32, fn := 64, vc := 16 }),
    (0x00000060E3000000, .accrel { plainWord with fn := 96 }),
    (0x40000000E4204000, .syncRd { plainWord with form := .vs, vd := 8, va := 4 }),
    (0x40000020E4004300, .syncWr { plainWord with form := .vs, fn := 32, va := 4, vb := 12 }),
    (0x40000040E4204000, .syncTas { plainWord with form := .vs, fn := 64, vd := 8, va := 4 }),
    (0x40000060E4204300, .syncFadd { plainWord with form := .vs, fn := 96, vd := 8, va := 4, vb := 12 }),
    (0x40000000E5204300, .hudInit { plainWord with form := .vs, vd := 8, va := 4, vb := 12 }),
    (0x40000020E5204000, .hudArr { plainWord with form := .vs, fn := 32, vd := 8, va := 4 }),
    (0x40000040E5204000, .hudDrop { plainWord with form := .vs, fn := 64, vd := 8, va := 4 }),
    (0x40000060E5004300, .hudWait { plainWord with form := .vs, fn := 96, va := 4, vb := 12 }),
    (0x40000000E6004000, .post { plainWord with form := .vs, va := 4 })] : List (Nat × Instr)), decode64 3 (BitVec.ofNat 64 p.1) = .ok p.2 := by
  decide +kernel

/-- 64-bit words put together from the fields of Table 2.3 and the rows' own tables (02 R33, R35; 05 to 12), part 6. -/
theorem test_decode_wide_6 :
    ∀ p ∈ ([
    (0x40000020E6004000, .postSet { plainWord with form := .vs, fn := 32, va := 4 }),
    (0x40000040E6004000, .waiti { plainWord with form := .vs, fn := 64, va := 4 }),
    (0x4000060CE7140000, .fence { plainWord with form := .vs, fn := 1548, vd := 5 }),
    (0x40000000E8004300, .awInit { plainWord with form := .vs, va := 4, vb := 12 }),
    (0x40000020E8004300, .awAdd { plainWord with form := .vs, fn := 32, va := 4, vb := 12 }),
    (0x40000040E8204300, .awWait { plainWord with form := .vs, fn := 64, vd := 8, va := 4, vb := 12 }),
    (0x40000000E9204310, .cp { plainWord with form := .vs, vd := 8, va := 4, vb := 12, vc := 16 }),
    (0x40000020E9204310, .cp2 { plainWord with form := .vs, fn := 32, vd := 8, va := 4, vb := 12, vc := 16 }),
    (0x40000040E9204310, .cpx { plainWord with form := .vs, fn := 64, vd := 8, va := 4, vb := 12, vc := 16 }),
    (0x40000060E9000310, .cpq { plainWord with form := .vs, fn := 96, vb := 12, vc := 16 }),
    (0x40000080E9004000, .cpw { plainWord with form := .vs, fn := 128, va := 4 }),
    (0x40000000F0204310, .wdecl { plainWord with form := .vs, vd := 8, va := 4, vb := 12, vc := 16 }),
    (0x40000020F0004000, .wdeclRel { plainWord with form := .vs, fn := 32, va := 4 }),
    (0x40002000F1200310, .vldr { plainWord with form := .vs, ety := .i32, vd := 8, vb := 12, vc := 16 }),
    (0x40002000F2200310, .vstr { plainWord with form := .vs, ety := .i32, vd := 8, vb := 12, vc := 16 }),
    (0x40000000F3204000, .step { plainWord with form := .vs, vd := 8, va := 4 }),
    (0x40000020F3204300, .stepAt { plainWord with form := .vs, fn := 32, vd := 8, va := 4, vb := 12 }),
    (0x40000040F3204000, .stepq { plainWord with form := .vs, fn := 64, vd := 8, va := 4 }),
    (0x40000000F4040010, .fsbindRx { plainWord with form := .vs, vd := 1, vc := 16 }),
    (0x40000001F4040010, .fsbindTx { plainWord with form := .vs, fn := 1, vd := 1, vc := 16 }),
    (0x40000002F4040000, .fsbindU { plainWord with form := .vs, fn := 2, vd := 1 }),
    (0x00002000F5204300, .vcred { plainWord with ety := .i32, vd := 8, va := 4, vb := 12 }),
    (0x40000000F8200010, .setvl { plainWord with form := .vs, vd := 8, vc := 16 }),
    (0x40000010F8000010, .setvt { plainWord with form := .vs, fn := 16, vc := 16 }),
    (0x40000000F9040010, .setfmt { plainWord with form := .vs, vd := 1, vc := 16 }),
    (0x40002000FA200010, .mshape { plainWord with form := .vs, ety := .i32, vd := 8, vc := 16 }),
    (0x40000010FA200010, .tshape { plainWord with form := .vs, fn := 16, vd := 8, vc := 16 }),
    (0x80000000FB000000, .mmode { plainWord with form := .vi })] : List (Nat × Instr)), decode64 3 (BitVec.ofNat 64 p.1) = .ok p.2 := by
  decide +kernel

/-- Words that fail a decode check of their row: a field that must be zero, a form, a mask, a type or a mode that the row does not allow (02 R43), part 1. -/
theorem test_ill_formed_1 : ∀ i ∈ ([
    .vadd { plainWord with ety := .i32, vd := 8, va := 4, vb := 12, ridx := 1 },
    .vsub { plainWord with ety := .fmt, fn := 1, vd := 8, va := 4, vb := 12 },
    .vrsub { plainWord with ety := .fp32, fn := 2, vd := 8, va := 4, vb := 12 },
    .vmul { plainWord with ety := .i32, vd := 8, va := 4, vb := 12, vc := 1 },
    .vmulh { plainWord with form := .vs, ety := .i32, fn := 1, vd := 8, va := 4, vb := 12 },
    .vmacc { plainWord with form := .vi, ety := .i32, fn := 2, vd := 8, va := 4, vb := 12 },
    .vsadd { plainWord with ety := .i32, vd := 8, va := 4, vb := 12, ridx := 1 },
    .vssub { plainWord with ety := .fmt, fn := 1, vd := 8, va := 4, vb := 12 },
    .vsmul { plainWord with ety := .fp32, fn := 2, vd := 8, va := 4, vb := 12 },
    .vsll { plainWord with ety := .i32, vd := 8, va := 4, vb := 12, vc := 1 },
    .vsrl { plainWord with form := .vs, ety := .i32, fn := 1, vd := 8, va := 4, vb := 12 },
    .vsra { plainWord with form := .vi, ety := .i32, fn := 2, vd := 8, va := 4, vb := 12 },
    .vror { plainWord with ety := .i32, fn := 3, vd := 8, va := 4, vb := 12, ridx := 1 },
    .vand { plainWord with ety := .fmt, vd := 8, va := 4, vb := 12 },
    .vor { plainWord with ety := .fp32, fn := 1, vd := 8, va := 4, vb := 12 },
    .vxor { plainWord with ety := .i32, fn := 2, vd := 8, va := 4, vb := 12, vc := 1 },
    .vandn { plainWord with form := .vs, ety := .i32, fn := 3, vd := 8, va := 4, vb := 12 },
    .vmin { plainWord with form := .vi, ety := .i32, vd := 8, va := 4, vb := 12 },
    .vmax { plainWord with ety := .i32, fn := 1, vd := 8, va := 4, vb := 12, ridx := 1 },
    .vabs { plainWord with form := .vs, ety := .i32, fn := 2, vd := 8, va := 4 },
    .vcmpEq { plainWord with ety := .fp32, vd := 1, va := 4, vb := 12 },
    .vcmpNe { plainWord with ety := .i32, fn := 1, vd := 1, va := 4, vb := 12, vc := 1 },
    .vcmpLt { plainWord with form := .vs, ety := .i32, fn := 2, vd := 1, va := 4, vb := 12 },
    .vcmpLe { plainWord with form := .vi, ety := .i32, fn := 3, vd := 1, va := 4, vb := 12 },
    .vcmpGt { plainWord with ety := .i32, fn := 4, vd := 1, va := 4, vb := 12, ridx := 1 },
    .vcmpGe { plainWord with ety := .fmt, fn := 5, vd := 1, va := 4, vb := 12 },
    .mand { plainWord with vd := 1, va := 4, vb := 2, rsel := .a },
    .mor { plainWord with fn := 1, vd := 1, va := 4, vb := 2, ridx := 1 },
    .mxor { plainWord with mask := 7, fn := 2, vd := 1, va := 4, vb := 2 },
    .mandn { plainWord with ety := .fmt, fn := 3, vd := 1, va := 4, vb := 2 },
    .mnot { plainWord with fn := 4, vd := 1, va := 4, ridx := 1 },
    .mpop { plainWord with mask := 7, fn := 16, vd := 8, va := 4 }] : List Instr), i.wellFormed = false := by
  decide +kernel

/-- Words that fail a decode check of their row: a field that must be zero, a form, a mask, a type or a mode that the row does not allow (02 R43), part 2. -/
theorem test_ill_formed_2 : ∀ i ∈ ([
    .mfirst { plainWord with ety := .fmt, fn := 17, vd := 8, va := 4 },
    .vsel { plainWord with form := .vs, mask := 1, ety := .i32, vd := 8, va := 4, vb := 12 },
    .vbcast { plainWord with form := .vi, ety := .i32, vd := 8, vc := 16 },
    .vmv { plainWord with ety := .i32, fn := 1, vd := 8, va := 4, ridx := 1 },
    .vmvsV { plainWord with form := .vs, mask := 7, ety := .i32, fn := 2, vd := 8, vc := 16 },
    .vmvsX { plainWord with mask := 7, ety := .i32, fn := 3, vd := 8, va := 4 },
    .vfadd { plainWord with vd := 8, va := 4, vb := 12 },
    .vfsub { plainWord with ety := .fp32, fn := 1, vd := 8, va := 4, vb := 12, vc := 1 },
    .vfmul { plainWord with form := .vs, ety := .fp32, fn := 2, vd := 8, va := 4, vb := 12 },
    .vfmadd { plainWord with ety := .i32, vd := 8, va := 4, vb := 12, vc := 16 },
    .vfmsub { plainWord with fn := 1, vd := 8, va := 4, vb := 12, vc := 16 },
    .vfnmadd { plainWord with form := .vi, ety := .fp32, fn := 2, vd := 8, va := 4, vb := 12, vc := 16 },
    .vfnmsub { plainWord with ety := .fp32, fn := 3, vd := 8, va := 4, vb := 12, vc := 16, ridx := 1 },
    .vfmacc { plainWord with ety := .fp32, fn := 4, vd := 8, va := 4, vb := 12, vc := 1 },
    .vfmin { plainWord with form := .vs, ety := .fp32, vd := 8, va := 4, vb := 12 },
    .vfmax { plainWord with form := .vi, ety := .fp32, fn := 1, vd := 8, va := 4, vb := 12 },
    .vfabs { plainWord with form := .vi, ety := .fp32, fn := 2, vd := 8, va := 4 },
    .vfneg { plainWord with ety := .fp32, fn := 3, vd := 8, va := 4, ridx := 1 },
    .vfsignC { plainWord with fn := 4, vd := 8, va := 4, vb := 12 },
    .vfsignN { plainWord with ety := .fp32, fn := 5, vd := 8, va := 4, vb := 12, vc := 1 },
    .vfsignX { plainWord with form := .vs, ety := .fp32, fn := 6, vd := 8, va := 4, vb := 12 },
    .vfcmpEq { plainWord with form := .vi, ety := .fp32, vd := 1, va := 4, vb := 12 },
    .vfcmpNe { plainWord with ety := .fp32, fn := 1, vd := 1, va := 4, vb := 12, ridx := 1 },
    .vfcmpLt { plainWord with ety := .i32, fn := 2, vd := 1, va := 4, vb := 12 },
    .vfcmpLe { plainWord with fn := 3, vd := 1, va := 4, vb := 12 },
    .vfcmpGt { plainWord with ety := .fp32, fn := 4, vd := 1, va := 4, vb := 12, vc := 1 },
    .vfcmpGe { plainWord with form := .vs, ety := .fp32, fn := 5, vd := 1, va := 4, vb := 12 },
    .vfcmpUn { plainWord with form := .vi, ety := .fp32, fn := 6, vd := 1, va := 4, vb := 12 },
    .vredoAdd { plainWord with ety := .i32, vd := 8, va := 4, vb := 12, ridx := 1 },
    .vredoMin { plainWord with ety := .i32, fn := 1, vd := 8, va := 4, vb := 12, vc := 1 },
    .vredoMax { plainWord with form := .vs, ety := .i32, fn := 2, vd := 8, va := 4, vb := 12 },
    .vredtAdd { plainWord with form := .vi, ety := .i32, vd := 8, va := 4, vb := 12 }] : List Instr), i.wellFormed = false := by
  decide +kernel

/-- Words that fail a decode check of their row: a field that must be zero, a form, a mask, a type or a mode that the row does not allow (02 R43), part 3. -/
theorem test_ill_formed_3 : ∀ i ∈ ([
    .vredtMin { plainWord with ety := .i32, fn := 1, vd := 8, va := 4, vb := 12, ridx := 1 },
    .vredtMax { plainWord with ety := .i32, fn := 2, vd := 8, va := 4, vb := 12, vc := 1 },
    .vredtAnd { plainWord with ety := .i32, fn := 3, vd := 8, va := 4, vb := 12, ridx := 1 },
    .vredtOr { plainWord with ety := .fmt, fn := 4, vd := 8, va := 4, vb := 12 },
    .vredtXor { plainWord with ety := .fp32, fn := 5, vd := 8, va := 4, vb := 12 },
    .vscanInAdd { plainWord with ety := .i32, vd := 8, va := 4, vb := 12, rsel := .a },
    .vscanInMin { plainWord with ety := .i32, fn := 1, vd := 8, va := 4, vb := 12, ridx := 1 },
    .vscanInMax { plainWord with ety := .i32, fn := 2, vd := 8, va := 4, vb := 12, vc := 1 },
    .vscanExAdd { plainWord with form := .vs, ety := .i32, fn := 8, vd := 8, va := 4, vb := 12 },
    .vscanExMin { plainWord with form := .vi, ety := .i32, fn := 9, vd := 8, va := 4, vb := 12 },
    .vscanExMax { plainWord with ety := .i32, fn := 10, vd := 8, va := 4, vb := 12, rsel := .a },
    .vslipUp { plainWord with form := .vs, ety := .i32, vd := 8, va := 4, vc := 16, ridx := 1 },
    .vslipDn { plainWord with form := .vs, ety := .i32, fn := 1, vd := 8, va := 4, vb := 1, vc := 16 },
    .vslipUpin { plainWord with ety := .i32, fn := 2, vd := 8, va := 4, vc := 16 },
    .vslipDnin { plainWord with form := .vi, ety := .i32, fn := 3, vd := 8, va := 4, vc := 16 },
    .vpick { plainWord with ety := .i32, vd := 8, va := 4, vb := 12, rsel := .a },
    .vcompress { plainWord with ety := .i32, vd := 8, va := 4, vb := 1 },
    .vexpand { plainWord with form := .vs, ety := .i32, fn := 1, vd := 8, va := 4 },
    .vcvt { plainWord with form := .vs, ety := .i32, vd := 8, va := 4 },
    .vcvtEf { plainWord with fn := 8, vd := 8, va := 4 },
    .vpack { plainWord with fn := 2, vd := 8, va := 4, vc := 1 },
    .vunpack { plainWord with fn := 34, vd := 8, va := 4, vb := 1 },
    .vscaleMul { plainWord with vd := 8, va := 4, vb := 12 },
    .vscaleDiv { plainWord with ety := .fp32, fn := 1, vd := 8, va := 4, vb := 12, vc := 1 },
    .vfclass { plainWord with ety := .fp32, vd := 1, va := 4, vb := 1 },
    .vdiv { plainWord with form := .vs, ety := .fp32, vd := 8, va := 4, vb := 12 },
    .vrdiv { plainWord with form := .vi, ety := .fp32, fn := 1, vd := 8, va := 4, vb := 12 },
    .vsqrt { plainWord with fn := 2, vd := 8, va := 4 },
    .vrsq { plainWord with ety := .fp32, fn := 3, vd := 8, va := 4, vc := 1 },
    .vld { plainWord with form := .vi, ety := .i32, vd := 8, va := 4, vc := 16 },
    .vldC { plainWord with form := .vi, ety := .i32, fn := 32, vd := 8, vc := 16 },
    .vldQ { plainWord with form := .vs, ety := .i32, fn := 2048, vd := 8, va := 4, vb := 12, vc := 16, rsel := .a }] : List Instr), i.wellFormed = false := by
  decide +kernel

/-- Words that fail a decode check of their row: a field that must be zero, a form, a mask, a type or a mode that the row does not allow (02 R43), part 4. -/
theorem test_ill_formed_4 : ∀ i ∈ ([
    .vlds { plainWord with form := .vs, ety := .i32, vd := 8, va := 4, vb := 12, vc := 16, ridx := 1 },
    .vldx { plainWord with ety := .i32, vd := 8, va := 4, vc := 16 },
    .vldg { plainWord with form := .vi, ety := .i32, vd := 8, va := 4, vc := 16 },
    .vst { plainWord with form := .vs, ety := .i32, vd := 8, va := 4, vc := 16, rsel := .a },
    .vstC { plainWord with form := .vi, ety := .i32, fn := 32, vd := 8, vc := 16 },
    .vstQ { plainWord with form := .vs, ety := .i32, fn := 2048, vd := 8, va := 4, vb := 12, vc := 16, rsel := .a },
    .vsts { plainWord with form := .vi, ety := .i32, vd := 8, va := 4, vb := 12, vc := 16 },
    .vstx { plainWord with form := .vi, ety := .i32, vd := 8, va := 4, vc := 16 },
    .vstxo { plainWord with form := .vs, ety := .i32, vd := 8, va := 4, vc := 16, rsel := .a },
    .vstg { plainWord with form := .vs, ety := .i32, vd := 8, va := 4, vc := 16, ridx := 1 },
    .vpref { plainWord with form := .vi, ety := .i32, va := 4, vc := 16 },
    .scommit { plainWord with form := .vs, ety := .fp32 },
    .cutstep { plainWord with form := .vs, vc := 16, ridx := 1 },
    .mzero { plainWord with ety := .i32, vd := 1, rsel := .a },
    .mouter { plainWord with ety := .fp32, vd := 1, va := 4, vb := 12, vc := 16, ridx := 1 },
    .mouteri { plainWord with mask := 7, ety := .i32, vd := 1, va := 4, vb := 12, vc := 16 },
    .mouterc { plainWord with ety := .fmt, vd := 1, va := 4, vb := 12, vc := 16 },
    .mlacc { plainWord with vd := 1, va := 4 },
    .mdrain { plainWord with form := .vs, ety := .i32, vd := 1, va := 4, vb := 12, vc := 16, ridx := 1 },
    .mtov { plainWord with ety := .i32, vd := 8, va := 1, vb := 1 },
    .mscale { plainWord with ety := .fp32, vd := 1, va := 4, vb := 12, rsel := .a },
    .bclr { plainWord with ety := .fp32, vd := 1, vc := 3 },
    .btload { plainWord with form := .vi, ety := .fp32, fn := 1024, vd := 1, va := 4, vb := 12, vc := 16 },
    .btdrain { plainWord with form := .vs, ety := .fp32, fn := 2048, vd := 1, va := 4, vb := 12, vc := 16, rsel := .a },
    .bqr { plainWord with ety := .fp32, va := 4, vc := 3, rsel := .a },
    .bqra { plainWord with fn := 1, vd := 8, va := 4, vb := 12, vc := 3 },
    .bqrD { plainWord with mask := 7, ety := .fp32, fn := 2, vd := 8, va := 4, vc := 3 },
    .bapply { plainWord with form := .vs, ety := .fp32, vd := 8, va := 4, vb := 12, vc := 3 },
    .bapplyC0 { plainWord with form := .vi, ety := .fp32, fn := 1, vd := 8, va := 4, vb := 12, vc := 3 },
    .bvec { plainWord with form := .vs, ety := .fp32, vd := 8, va := 4, vb := 12 },
    .bangleD { plainWord with ety := .n32, fn := 1, vd := 8, va := 4, vb := 1 },
    .bangleA { plainWord with form := .vs, ety := .n32, fn := 2, vd := 8, va := 4 }] : List Instr), i.wellFormed = false := by
  decide +kernel

/-- Words that fail a decode check of their row: a field that must be zero, a form, a mask, a type or a mode that the row does not allow (02 R43), part 5. -/
theorem test_ill_formed_5 : ∀ i ∈ ([
    .brot { plainWord with ety := .fmt, vd := 8, va := 4, vb := 12 },
    .vrotate { plainWord with ety := .fmt, fn := 64, vd := 8, va := 4, vb := 12, vc := 16 },
    .bgain { plainWord with form := .vs },
    .bsolve { plainWord with mask := 7, ety := .fp32, vd := 8, vc := 3 },
    .amoSwap { plainWord with form := .vi, ety := .i32, vd := 8, va := 4, vb := 12 },
    .amoAdd { plainWord with form := .vs, ety := .i32, fn := 32, vd := 8, va := 4, vb := 12, chain := true },
    .amoAnd { plainWord with form := .vs, fn := 64, vd := 8, va := 4, vb := 12 },
    .amoOr { plainWord with form := .vs, ety := .i32, fn := 96, vd := 8, va := 4, vb := 12, vc := 1 },
    .amoXor { plainWord with ety := .i32, fn := 128, vd := 8, va := 4, vb := 12 },
    .amoMin { plainWord with form := .vs, ety := .fmt, fn := 169, vd := 8, va := 4, vb := 12 },
    .amoMax { plainWord with form := .vs, fn := 192, vd := 8, va := 4, vb := 12 },
    .amocas { plainWord with form := .vs, vd := 8, va := 4, vb := 12, vc := 16 },
    .vamo { plainWord with form := .vs, vd := 8, va := 4, vb := 12, vc := 16 },
    .vamoo { plainWord with ety := .i32, fn := 2048, vd := 8, va := 4, vb := 12, vc := 16 },
    .accw { plainWord with form := .vs, ety := .fmt, vc := 16 },
    .vacc { plainWord with ety := .i32, fn := 32, va := 4, vb := 12, rsel := .a },
    .amerge { plainWord with form := .vs, ety := .i32, fn := 64, vb := 1, vc := 16 },
    .accrel { plainWord with mask := 7, fn := 96 },
    .syncRd { plainWord with form := .vs, ety := .fp32, vd := 8, va := 4 },
    .syncWr { plainWord with form := .vs, ety := .i32, fn := 32, va := 4, vb := 12 },
    .syncTas { plainWord with form := .vs, fn := 64, vd := 8, va := 4, vc := 1 },
    .syncFadd { plainWord with form := .vs, fn := 96, vd := 8, va := 4, vb := 12, rsel := .a },
    .hudInit { plainWord with form := .vs, vd := 8, va := 4, vb := 12, ridx := 1 },
    .hudArr { plainWord with form := .vi, fn := 32, vd := 8, va := 4 },
    .hudDrop { plainWord with form := .vs, fn := 64, vd := 8, va := 4, chain := true },
    .hudWait { plainWord with form := .vs, fn := 96, va := 4, vb := 12, rsel := .a },
    .post { plainWord with form := .vs, va := 4, chain := true },
    .postSet { plainWord with form := .vs, fn := 32, va := 4, rsel := .a },
    .waiti { plainWord with form := .vs, fn := 64, va := 4, ridx := 1 },
    .fence { plainWord with form := .vs, mask := 7, fn := 1548, vd := 5 },
    .awInit { plainWord with form := .vs, ety := .i32, va := 4, vb := 12 },
    .awAdd { plainWord with form := .vs, fn := 32, va := 4, vb := 12, vc := 1 }] : List Instr), i.wellFormed = false := by
  decide +kernel

/-- Words that fail a decode check of their row: a field that must be zero, a form, a mask, a type or a mode that the row does not allow (02 R43), part 6. -/
theorem test_ill_formed_6 : ∀ i ∈ ([
    .awWait { plainWord with form := .vs, fn := 64, vd := 8, va := 4, vb := 12, ridx := 1 },
    .cp { plainWord with form := .vs, mask := 7, vd := 8, va := 4, vb := 12, vc := 16 },
    .cp2 { plainWord with form := .vs, ety := .fmt, fn := 32, vd := 8, va := 4, vb := 12, vc := 16 },
    .cpx { plainWord with form := .vs, ety := .fp32, fn := 64, vd := 8, va := 4, vb := 12, vc := 16 },
    .cpq { plainWord with form := .vs, ety := .i32, fn := 96, vb := 12, vc := 16 },
    .cpw { plainWord with form := .vs, fn := 128, va := 4, ridx := 1 },
    .wdecl { plainWord with form := .vi, vd := 8, va := 4, vb := 12, vc := 16 },
    .wdeclRel { plainWord with form := .vs, ety := .fmt, fn := 32, va := 4 },
    .vldr { plainWord with form := .vi, ety := .i32, vd := 8, vb := 12, vc := 16 },
    .vstr { plainWord with form := .vs, ety := .i32, vd := 8, vb := 12, vc := 16, rsel := .a },
    .step { plainWord with form := .vs, vd := 8, va := 4, ridx := 1 },
    .stepAt { plainWord with form := .vs, fn := 32, vd := 8, va := 4, vb := 12, ridx := 1 },
    .stepq { plainWord with form := .vs, ety := .fmt, fn := 64, vd := 8, va := 4 },
    .fsbindRx { plainWord with form := .vs, ety := .fp32, vd := 1, vc := 16 },
    .fsbindTx { plainWord with form := .vs, ety := .i32, fn := 1, vd := 1, vc := 16 },
    .fsbindU { plainWord with form := .vs, fn := 2, vd := 1, rsel := .a },
    .vcred { plainWord with ety := .i32, vd := 8, va := 4, vb := 12, vc := 1 },
    .setvl { plainWord with form := .vs, mask := 7, vd := 8, vc := 16 },
    .setvt { plainWord with form := .vs, fn := 16, vc := 16, chain := true },
    .setfmt { plainWord with form := .vs, ety := .fp32, vd := 1, vc := 16 },
    .mshape { plainWord with form := .vs, ety := .i32, vd := 8, vc := 16, ridx := 1 },
    .tshape { plainWord with form := .vs, fn := 16, vd := 8, vb := 1, vc := 16 },
    .mmode { plainWord with form := .vi, ridx := 1 },
    .faddD 1 2 3 5,
    .cvtSD 1 2 7,
    .fmaddS 1 2 3 6,
    .smbcfg 0 1 0,
    .smbcfg 5 6 0] : List Instr), i.wellFormed = false := by
  decide +kernel

/-! ### States of the witnesses -/

/-- A thread of width 4 with Truss and Brace that runs at U, vl = 1, its tile registers shaped 32 × 32 N32. -/
def rich : State :=
  let b := { Bind.reset with wc := 2, tg := true, bg := true, slots := 24, stripA := 64 }
  let fr := { Front.reset with spc := 0x1000, copy := { Copies.reset with vl := 1 } }
  let ln := { Lanes.reset with vl := 1, shape := Vector.replicate 16 (word (6 + 32 * 2 ^ 4 + 32 * 2 ^ 20)) }
  { State.reset with th := { Thread.reset with bind := b, life := .running, fr := fr, ln := ln } }

/-- The TLB entry that maps page 0 of 64 KiB to itself for a cluster, readable, writable and executable, of a KIND. -/
def pageZero (kind cluster : Nat) : TlbEntry :=
  { core := 0, cluster := cluster, big := false, set := 0, way := 0, ctx := 0, vpn := 0, pa := 0, kind := kind, key := 0, r := true, w := true,
    x := true, d := true }

/-- The state with page 0 mapped for every cluster and for the copy engine. -/
def mapped (kind : Nat) : State := { rich with unc := { rich.unc with tlb := (List.range 5).map (pageZero kind) } }

/-- The state with a value in a scalar register. -/
def withReg (s : State) (r : Nat) (v : Nat) : State := s.onFr fun f => { f with s := vecSet f.s r (word v) }

/-- A check that answers b, and the state it leaves. -/
theorem of_ok {α ε : Type} {p : State × Except ε α} {b : α} (P : State → Prop) (h : p.2.toOption = some b ∧ P p.1) :
    ∃ u, p = (u, .ok b) ∧ P u := by
  obtain ⟨s, x⟩ := p
  cases x with
  | error e => simp [Except.toOption] at h
  | ok y => simp [Except.toOption] at h; exact ⟨s, by rw [h.1], h.2⟩

/-- A one-word VIQ entry of vadd that can still fault. -/
def olderWord (s : State) : VEntry := entry s 0x40 { plainWord with form := .vs, ety := .i32, vd := 1, va := 2 }

/-- The state behind a word that can still fault. -/
def behind (s : State) : State := s.onFr fun f => { f with viq := [olderWord s], seq := 5 }

/-! ### Witnesses: states and operands that meet the hypotheses of each statement -/

theorem witness_DecodeOfEncode : (Instr.addi 1 0 5).wellFormed = true ∧ (encode (.addi 1 0 5)).isSome = true ∧
    (Instr.vadd plainWord).wellFormed = true ∧ (encode (.vadd plainWord)).isSome = true := by decide +kernel

theorem witness_EncodeOfDecode : decode 3 [5, 0, 8, 4] = .instr (.addi 1 0 5) [] := by decide +kernel

/-- The state whose next word is `addi s1, s0, 5`, and one whose next word is the 64-bit `vadd`. -/
def narrow : State := { mapped 0 with mem := [(0x1000, 5), (0x1002, 8), (0x1003, 4)] }
/-- The 64-bit word `vadd v2, v0, v0` of i32. -/
def wideWord : Nat := 0x0000200080080000
/-- The state whose next word it is. -/
def wide : State := { mapped 0 with mem := [(0x1002, 8), (0x1003, 0x80), (0x1005, 0x20)] }

/-- Whether a fetch gives bytes of a value. -/
def fetches (s : State) (n v : Nat) : Bool := match (s.fetch s.th.fr.spc n).2 with | .ok bs => leNat bs == v | .error _ => false

theorem witness_StepRunsDecoded_before : narrow.beforeWord = (narrow, true) ∧ wide.beforeWord = (wide, true) := ⟨rfl, rfl⟩

theorem witness_StepRunsDecoded : narrow.inputs = [] ∧ narrow.sched = [] ∧ narrow.th.life = .running ∧     fetches narrow 4 0x04080005 = true ∧ decode32 0x04080005 = .ok (.addi 1 0 5) ∧
    fetches wide 4 (wideWord % 2 ^ 32) = true ∧ 2 ^ 31 ≤ wideWord % 2 ^ 32 ∧ wide.splitsEnd wide.th.fr.spc = false ∧
    fetches wide 8 wideWord = true := by decide +kernel

theorem witness_EveryStepAnswers : State.reset.InputsOk ∧ State.reset.MemOk :=
  ⟨by simp [State.InputsOk, State.reset], by simp [State.MemOk, State.reset]; decide⟩

theorem witness_StepKeepsMemory : State.reset.MemOk ∧ step State.reset = .next State.reset.turn.tick :=
  ⟨by simp [State.MemOk, State.reset]; decide, rfl⟩

theorem witness_ScalarWords : intResult rich (.add 1 2 3) = some (1, 0, 0) ∧ rich.th.fr.curLane = none ∧ rich.th.fr.copy.traps = 0 ∧
    intResult rich (.div 1 2 3) = some (1, BitVec.allOnes 64, fDZ) ∧ (fpResult rich (.faddD 1 2 3 0)).isSome = true := by decide +kernel

theorem witness_ScalarFaults : (mapped 0).scalarCheck 0x101 8 .read = (mapped 0, .error .misaligned) ∧
    (loadForm (.ldI64 5 0 0x101)).isSome = true ∧ (storeForm (.stI64 0 5 0x101)).isSome = true ∧ (mapped 0).older = [] ∧
    (∃ c, rich.xlate 0 0x100 .read = .error c) ∧ fDZ &&& (rich.onFr fun f => { f with copy := { f.copy with traps := 63 } }).th.fr.copy.traps ≠ 0 :=
  ⟨rfl, rfl, rfl, rfl, ⟨_, rfl⟩, by decide⟩

theorem witness_ScalarLoads : (∃ ext, loadForm (.ldI64 5 0 0x100) = some (8, ext, 5, 0, 0x100)) ∧
    (mapped 0).scalarCheck 0x100 8 .read = (mapped 0, .ok (0x100, 0)) ∧ (mapped 0).loadWaits 0 0x100 8 = false ∧
    (mapped 0).loadPoison 0x100 0 8 = false ∧ PlainHbm (mapped 0) 0x100 8 ∧ NoBuffers (mapped 0) :=
  ⟨⟨_, rfl⟩, rfl, rfl, rfl, ⟨by decide, by decide, rfl⟩, ⟨rfl, rfl, rfl, rfl⟩⟩

theorem witness_ScalarStores : storeForm (.stI64 0 5 0xFFF) = some (8, 0, 5, 0xFFF) ∧
    (mapped 0).scalarCheck 0xFF8 8 .write = (mapped 0, .ok (0xFF8, 0)) ∧ (mapped 0).unsafeOlder = false ∧ (mapped 0).MemOk ∧
    (behind (mapped 0)).scalarCheck 0xFF8 8 .write = (behind (mapped 0), .ok (0xFF8, 0)) ∧
    (∃ v ∈ (behind (mapped 0)).older, v.safe = false ∧ v.seq ≤ (behind (mapped 0)).th.fr.seq) :=
  ⟨rfl, rfl, rfl, rfl, rfl, ⟨olderWord (mapped 0), .head _, rfl, by decide⟩⟩

/-- A lane section of code at 0x2000, some of its lanes joined. -/
def section_ (joined : List Bool) : LaneSection :=
  { origin := 0x1000, start := 0x2000, len := 8, code := [], pcs := joined.map fun _ => 0x2000, joined := joined, last := [7] }

/-- The front in a lane of a section. -/
def inLane (j : Nat) (joined : List Bool) : State := rich.onFr fun f => { f with curLane := some j, lanes := some (section_ joined) }

theorem witness_LaneWords : (∃ x, intResult (inLane 3 (List.replicate 8 false)) (.add 1 2 3) = some (1, x, 0)) ∧
    (inLane 3 (List.replicate 8 false)).th.fr.curLane = some 3 := ⟨⟨_, rfl⟩, rfl⟩

theorem witness_HistoryRestores : intResult (behind rich) (.addi 1 0 5) = some (1, 5, 0) ∧ (behind rich).unsafeOlder = true ∧
    (∀ h ∈ (behind rich).th.fr.hist, h.seq < 5) ∧ 5 ≤ (behind rich).th.fr.seq := by decide +kernel

theorem witness_RoundOfDecode : (fp64.decode (2 ^ 64 - 1)).isNan = true ∧ (fp64.decode (0x7FF * 2 ^ 52)).isNan = false ∧
    (e5m2.decode 0x7C).isNan = false ∧ (e4m3.decode 0x7E).isNan = false := by decide +kernel

theorem witness_StoresReadBack : (mapped 0).MemOk ∧ (mapped 0).unc.fmtWins = [] := ⟨rfl, rfl⟩

theorem witness_DirectBranches : branchForm rich (.b 2) = some (true, 0x1008, false) ∧ branchForm rich (.call 2) = some (true, 0x1008, true) ∧
    branchForm rich (.bcNe 1 2 2) = some (false, 0x1008, false) ∧ rich.th.fr.curLane = none ∧
    (inLane 31 []).th.fr.curLane = some 31 := by decide +kernel

/-- A call target at 0x2000 with a landing pad of `calli`. -/
def padded : State := withReg { mapped 0 with mem := [(0x2000, 4), (0x2003, 0x70)] } 5 0x2000

theorem witness_IndirectBranches : indirectForm (.calli 5) = some (5, 0x70000004, true) ∧ indirectForm (.ret 5) = some (5, 0x70000006, false) ∧
    (∃ u, padded.fetchFresh (padded.rd 5) 4 = (u, .ok [4, 0, 0, 0x70]) ∧ u.th.fr.curLane = none) ∧ (padded.rd 5).toNat % 4 = 0 ∧
    ((withReg rich 5 0x2002).rd 5).toNat % 4 ≠ 0 ∧ rich.older = [] := by
  refine ⟨rfl, rfl, of_ok (·.th.fr.curLane = none) (by decide +kernel), ?_, ?_, rfl⟩ <;> decide +kernel

theorem witness_WaitingWords : rich.th.fr.curLane = none ∧ rich.th.fr.wait = .none ∧ rich.rd 5 ≤ rich.gtime ∧
    rich.gtime < (withReg rich 5 7).rd 5 := by decide +kernel

/-- The state with loop sets: set 0 over [0x1004, b), set 1 over [0x1004, 0x1008) and inner to it. -/
def looping (b : Word) (count : Nat) : State := rich.onFr fun f => { f with
  spc := 0x1004
  regs := { f.regs with zs := #v[0x1004, 0x1004], ze := #v[b, 0x1008], zc := #v[word (2 ^ 48 + count), word (2 ^ 48 + 2 ^ 49 + count)] } }

theorem witness_LoopBounds : (looping 0x1010 2).endsAt true 0x1008 = true ∧ (looping 0x1010 2).endsAt false 0x1008 = false ∧
    (looping 0x1008 1).endsAt false 0x1008 = true ∧ (looping 0x1008 1).innerSet = true ∧ rich.endsAt true 0x1008 = false ∧
    zcCount ((looping 0x1010 2).zc true) = 2 ∧ zcCount ((looping 0x1010 1).zc true) = 1 := by decide +kernel

/-- What R87 forbids of a loop word with an offset. -/
def loopBad (s : State) (n : Bool) (a : RegNo) (k : BitVec 13) : Bool :=
  s.th.fr.m.lvl || decide (k.toInt < 2) || decide (2 ^ 48 ≤ (s.rd a).toNat) || zcA (s.zc n) ||
    (zcA (s.zc (!n)) && !(decide (s.zs (!n) ≤ s.th.fr.spc + 4) && decide (s.th.fr.spc + (k.signExtend 64 <<< 2) ≤ s.ze (!n))))

theorem witness_LoopWords : loopBad rich false 5 1 = true ∧ loopBad rich false 5 2 = false ∧ loopBad (withReg rich 5 3) false 5 2 = false ∧
    loopBad (withReg rich 5 (2 ^ 48)) false 5 2 = true ∧ loopBad (withReg rich 5 (2 ^ 48 - 1)) false 5 2 = false ∧
    loopBad (looping 0x1010 2) true 5 2 = true := by decide +kernel

theorem witness_StripWords : Idle rich ∧ rich.th.fr.m.lvl = false ∧ rich.th.st.entries = [] ∧
    (∀ j < 4, smbSize rich.th.fr.regs.smbc j ≠ 0 → smbReg rich.th.fr.regs.smbc j ≠ 5) ∧
    0 < ((withReg rich 5 9).rd 5).toInt - (rich.th.fr.copy.vl : Int) ∧ ((withReg rich 5 1).rd 5).toInt - (rich.th.fr.copy.vl : Int) = 0 :=
  ⟨⟨rfl, rfl, rfl, rfl, rfl, rfl, rfl⟩, rfl, rfl, by decide +kernel, by decide +kernel, by decide +kernel⟩

theorem witness_LaneSections : (∃ u, fetchCode 0x1000 (8 / 4) (mapped 0) = (u, .ok [0, 0, 0, 0, 0, 0, 0, 0]) ∧ u.th.fr.curLane = none) ∧
    ((withReg rich 6 8192).rd 6).toNat ≤ 8192 ∧ 8192 < ((withReg rich 6 8196).rd 6).toNat ∧ (rich.rd 6).toNat < 4 ∧
    (inLane 3 (List.replicate 32 false)).th.fr.curLane = some 3 ∧
    (((List.replicate 32 false).set 3 true).all id = false) ∧ ((((List.replicate 32 true).set 3 false).set 3 true).all id = true) :=
  ⟨of_ok (·.th.fr.curLane = none) (by decide +kernel), by decide +kernel⟩

theorem witness_EndOfThread : (rich.th.fr.m.lvl = false ∧ rich.MemOk ∧ rich.th.fr.viq = [] ∧ rich.th.fr.storeQ = [] ∧
    rich.th.st.isOpen = false ∧ rich.th.st.unc = false ∧ rich.storesDone = true ∧ rich.pending = false ∧ rich.copies = []) ∧
    (∀ k < 8, (vecGet rich.th.fab.fs k .reset).stage = []) ∧ (rich.onM fun m => { m with lvl := true }).th.fr.m.lvl = true :=
  ⟨⟨rfl, rfl, rfl, rfl, rfl, rfl, rfl, rfl, rfl⟩, by decide +kernel, rfl⟩

/-- What `Idle` asks, as a test. -/
def idleB (s : State) : Bool :=
  let f := s.th.fr
  decide (s.prompt = true ∧ f.viq = [] ∧ f.stepq = none) && decide (f.hist = [] ∧ f.storeQ = [] ∧ f.chainOpen = false ∧ f.curLane = none)

theorem idle_of {s : State} (h : idleB s = true) : Idle s := by
  have ⟨before, behind⟩ := (Bool.and_eq_true _ _).mp h
  have ⟨prompt, viq, stepq⟩ := of_decide_eq_true before
  have ⟨hist, storeQ, chain, lane⟩ := of_decide_eq_true behind
  exact { prompt, viq, stepq, hist, storeQ, chain, lane }

/-- What `Ready` asks, as a test: of the thread, of the word, and of its streams. -/
def readyB (s : State) (op : Nat) (w : VWord) : Bool :=
  idleB s && decide (s.th.fr.m.lvl = false ∧ s.th.bind.wc ≤ 2 ∧ s.th.ln.bad = []) &&
    decide (w.chain = false ∧ s.threadOk op w = true ∧ s.issueOk (entry s op w) = true) &&
    decide (s.th.fr.copy.vl ≤ s.width * 8192 ∧ s.th.fr.regs.smplcfg.getLsbD 0 = false ∧ s.th.fr.regs.mark = false) &&
    s.th.fab.fs.all fun x => !x.bound

theorem unbound_of {s : State} (h : (s.th.fab.fs.all fun x => !x.bound) = true) (n : Nat) : (vecGet s.th.fab.fs n .reset).bound = false := by
  rw [Vector.all_eq_true] at h
  by_cases hn : n < 8
  · simpa [vecGet, hn] using h n hn
  · simp [vecGet, hn]; rfl

theorem ready_of {s : State} {op : Nat} {w : VWord} (h : readyB s op w = true) : Ready s op w := by
  unfold readyB at h
  rw [Bool.and_eq_true, Bool.and_eq_true, Bool.and_eq_true, Bool.and_eq_true] at h
  have ⟨⟨⟨⟨idle, thread⟩, word⟩, size⟩, free⟩ := h
  have ⟨atU, width, marks⟩ := of_decide_eq_true thread
  have ⟨alone, sent, issues⟩ := of_decide_eq_true word
  have ⟨vl, samples⟩ := of_decide_eq_true size
  exact { idle := idle_of idle, atU, width, alone, sent, issues, vl, marks, samples, streams := unbound_of free }

/-- A word of the VIQ that is well-formed and ready. -/
def ready (s : State) (i : Instr) : Bool :=
  match viqWord i with | some (op, w, _) => i.wellFormed && readyB s op w | none => false

/-- The form of an element word is there, with its checks, and no element raises a flag. -/
def element (s : State) (F : State → Instr → Option EltForm) (i : Instr) : Bool :=
  match F s i with
  | some f => i.wellFormed && readyB s f.op f.w && f.checks && (List.range f.n).all fun k => !f.act k || (f.at_ k).2 &&& s.th.ln.traps == 0
  | none => false

/-- The same of a mask word. -/
def maskElement (s : State) (i : Instr) : Bool :=
  match maskForm s i with
  | some f => i.wellFormed && readyB s f.op f.w && (List.range s.th.fr.copy.vl).all fun k => !f.act k || (f.at_ k).2 &&& s.th.ln.traps == 0
  | none => false

/-! Words of the VIQ that are ready on `rich`: what the statements of each family ask. -/

theorem witness_IntegerElements : ([
    .vadd { plainWord with ety := .i32, vd := 8, va := 4, vb := 12 },
    .vsub { plainWord with ety := .i32, fn := 1, vd := 8, va := 4, vb := 12 },
    .vrsub { plainWord with ety := .i32, fn := 2, vd := 8, va := 4, vb := 12 },
    .vmul { plainWord with ety := .i32, vd := 8, va := 4, vb := 12 },
    .vmulh { plainWord with ety := .i32, fn := 1, vd := 8, va := 4, vb := 12 },
    .vmacc { plainWord with ety := .i32, fn := 2, vd := 8, va := 4, vb := 12 },
    .vsadd { plainWord with ety := .i32, vd := 8, va := 4, vb := 12 },
    .vssub { plainWord with ety := .i32, fn := 1, vd := 8, va := 4, vb := 12 },
    .vsmul { plainWord with ety := .i32, fn := 2, vd := 8, va := 4, vb := 12 },
    .vsll { plainWord with ety := .i32, vd := 8, va := 4, vb := 12 },
    .vsrl { plainWord with ety := .i32, fn := 1, vd := 8, va := 4, vb := 12 },
    .vsra { plainWord with ety := .i32, fn := 2, vd := 8, va := 4, vb := 12 },
    .vror { plainWord with ety := .i32, fn := 3, vd := 8, va := 4, vb := 12 },
    .vand { plainWord with ety := .i32, vd := 8, va := 4, vb := 12 },
    .vor { plainWord with ety := .i32, fn := 1, vd := 8, va := 4, vb := 12 },
    .vxor { plainWord with ety := .i32, fn := 2, vd := 8, va := 4, vb := 12 },
    .vandn { plainWord with ety := .i32, fn := 3, vd := 8, va := 4, vb := 12 },
    .vmin { plainWord with ety := .i32, vd := 8, va := 4, vb := 12 },
    .vmax { plainWord with ety := .i32, fn := 1, vd := 8, va := 4, vb := 12 },
    .vabs { plainWord with ety := .i32, fn := 2, vd := 8, va := 4 },
    .vsel { plainWord with mask := 1, ety := .i32, vd := 8, va := 4, vb := 12 },
    .vbcast { plainWord with form := .vs, ety := .i32, vd := 8, vc := 16 }, .vmv { plainWord with ety := .i32, fn := 1, vd := 8, va := 4 },
    .vmvsV { plainWord with form := .vs, ety := .i32, fn := 2, vd := 8, vc := 16 }] : List Instr).all (element rich integerForm) = true := by
  decide +kernel

theorem witness_FloatElements : ([
    .vfadd { plainWord with ety := .fp32, vd := 8, va := 4, vb := 12 },
    .vfsub { plainWord with ety := .fp32, fn := 1, vd := 8, va := 4, vb := 12 },
    .vfmul { plainWord with ety := .fp32, fn := 2, vd := 8, va := 4, vb := 12 },
    .vfmadd { plainWord with ety := .fp32, vd := 8, va := 4, vb := 12, vc := 16 },
    .vfmsub { plainWord with ety := .fp32, fn := 1, vd := 8, va := 4, vb := 12, vc := 16 },
    .vfnmadd { plainWord with ety := .fp32, fn := 2, vd := 8, va := 4, vb := 12, vc := 16 },
    .vfnmsub { plainWord with ety := .fp32, fn := 3, vd := 8, va := 4, vb := 12, vc := 16 },
    .vfmacc { plainWord with ety := .fp32, fn := 4, vd := 8, va := 4, vb := 12 },
    .vfmin { plainWord with ety := .fp32, vd := 8, va := 4, vb := 12 },
    .vfmax { plainWord with ety := .fp32, fn := 1, vd := 8, va := 4, vb := 12 },
    .vfabs { plainWord with ety := .fp32, fn := 2, vd := 8, va := 4 }, .vfneg { plainWord with ety := .fp32, fn := 3, vd := 8, va := 4 },
    .vfsignC { plainWord with ety := .fp32, fn := 4, vd := 8, va := 4, vb := 12 },
    .vfsignN { plainWord with ety := .fp32, fn := 5, vd := 8, va := 4, vb := 12 },
    .vfsignX { plainWord with ety := .fp32, fn := 6, vd := 8, va := 4, vb := 12 },
    .vdiv { plainWord with ety := .fp32, vd := 8, va := 4, vb := 12 },
    .vrdiv { plainWord with ety := .fp32, fn := 1, vd := 8, va := 4, vb := 12 },
    .vsqrt { plainWord with ety := .fp32, fn := 2, vd := 8, va := 4 }, .vrsq { plainWord with ety := .fp32, fn := 3, vd := 8, va := 4 },
    .vscaleMul { plainWord with ety := .fp32, vd := 8, va := 4, vb := 12 },
    .vscaleDiv { plainWord with ety := .fp32, fn := 1, vd := 8, va := 4, vb := 12 }] : List Instr).all (element rich floatForm) = true := by
  decide +kernel

theorem witness_Conversions : ([
    .vcvt { plainWord with ety := .i32, vd := 8, va := 4 }, .vcvtEf { plainWord with ety := .fp32, fn := 8, vd := 8, va := 4 },
    .vpack { plainWord with fn := 2, vd := 8, va := 4 }, .vunpack { plainWord with fn := 34, vd := 8, va := 4 }] : List Instr).all (element rich convertForm) = true := by
  decide +kernel

theorem witness_FoldsAndPermutes_folds : ([
    .vredoAdd { plainWord with ety := .i32, vd := 8, va := 4, vb := 12 },
    .vredoMin { plainWord with ety := .i32, fn := 1, vd := 8, va := 4, vb := 12 },
    .vredoMax { plainWord with ety := .i32, fn := 2, vd := 8, va := 4, vb := 12 },
    .vredtAdd { plainWord with ety := .i32, vd := 8, va := 4, vb := 12 },
    .vredtMin { plainWord with ety := .i32, fn := 1, vd := 8, va := 4, vb := 12 },
    .vredtMax { plainWord with ety := .i32, fn := 2, vd := 8, va := 4, vb := 12 },
    .vredtAnd { plainWord with ety := .i32, fn := 3, vd := 8, va := 4, vb := 12 },
    .vredtOr { plainWord with ety := .i32, fn := 4, vd := 8, va := 4, vb := 12 },
    .vredtXor { plainWord with ety := .i32, fn := 5, vd := 8, va := 4, vb := 12 },
    .vscanInAdd { plainWord with ety := .i32, vd := 8, va := 4, vb := 12 },
    .vscanInMin { plainWord with ety := .i32, fn := 1, vd := 8, va := 4, vb := 12 },
    .vscanInMax { plainWord with ety := .i32, fn := 2, vd := 8, va := 4, vb := 12 },
    .vscanExAdd { plainWord with ety := .i32, fn := 8, vd := 8, va := 4, vb := 12 },
    .vscanExMin { plainWord with ety := .i32, fn := 9, vd := 8, va := 4, vb := 12 },
    .vscanExMax { plainWord with ety := .i32, fn := 10, vd := 8, va := 4, vb := 12 }] : List Instr).all (element rich foldForm) = true := by
  decide +kernel

theorem witness_FoldsAndPermutes_permutes : ([
    .vslipUp { plainWord with form := .vs, ety := .i32, vd := 8, va := 4, vc := 16 },
    .vslipDn { plainWord with form := .vs, ety := .i32, fn := 1, vd := 8, va := 4, vc := 16 },
    .vslipUpin { plainWord with form := .vs, ety := .i32, fn := 2, vd := 8, va := 4, vc := 16 },
    .vslipDnin { plainWord with form := .vs, ety := .i32, fn := 3, vd := 8, va := 4, vc := 16 },
    .vpick { plainWord with ety := .i32, vd := 8, va := 4, vb := 12 }, .vcompress { plainWord with ety := .i32, vd := 8, va := 4 },
    .vexpand { plainWord with ety := .i32, fn := 1, vd := 8, va := 4 }] : List Instr).all (element rich permuteForm) = true := by
  decide +kernel

theorem witness_MaskAndScalarResults_masks : ([
    .vcmpEq { plainWord with ety := .i32, vd := 1, va := 4, vb := 12 },
    .vcmpNe { plainWord with ety := .i32, fn := 1, vd := 1, va := 4, vb := 12 },
    .vcmpLt { plainWord with ety := .i32, fn := 2, vd := 1, va := 4, vb := 12 },
    .vcmpLe { plainWord with ety := .i32, fn := 3, vd := 1, va := 4, vb := 12 },
    .vcmpGt { plainWord with ety := .i32, fn := 4, vd := 1, va := 4, vb := 12 },
    .vcmpGe { plainWord with ety := .i32, fn := 5, vd := 1, va := 4, vb := 12 },
    .vfcmpEq { plainWord with ety := .fp32, vd := 1, va := 4, vb := 12 },
    .vfcmpNe { plainWord with ety := .fp32, fn := 1, vd := 1, va := 4, vb := 12 },
    .vfcmpLt { plainWord with ety := .fp32, fn := 2, vd := 1, va := 4, vb := 12 },
    .vfcmpLe { plainWord with ety := .fp32, fn := 3, vd := 1, va := 4, vb := 12 },
    .vfcmpGt { plainWord with ety := .fp32, fn := 4, vd := 1, va := 4, vb := 12 },
    .vfcmpGe { plainWord with ety := .fp32, fn := 5, vd := 1, va := 4, vb := 12 },
    .vfcmpUn { plainWord with ety := .fp32, fn := 6, vd := 1, va := 4, vb := 12 }, .mand { plainWord with vd := 1, va := 4, vb := 2 },
    .mor { plainWord with fn := 1, vd := 1, va := 4, vb := 2 }, .mxor { plainWord with fn := 2, vd := 1, va := 4, vb := 2 },
    .mandn { plainWord with fn := 3, vd := 1, va := 4, vb := 2 }, .mnot { plainWord with fn := 4, vd := 1, va := 4 },
    .vfclass { plainWord with ety := .fp32, vd := 1, va := 4 }] : List Instr).all (maskElement rich) = true := by
  decide +kernel

theorem witness_MaskAndScalarResults_scalars : ([
    .mpop { plainWord with fn := 16, vd := 8, va := 4 }, .mfirst { plainWord with fn := 17, vd := 8, va := 4 },
    .vmvsX { plainWord with ety := .i32, fn := 3, vd := 8, va := 4 }] : List Instr).all (fun i => (scalarForm rich i).isSome && ready rich i) = true := by
  decide +kernel

/-- The same for words of memory, the Truss, the Brace, atomics, copies, the fabric and configuration. -/
theorem witness_ready_words : ([
    .vld { plainWord with form := .vs, ety := .i32, vd := 8, va := 4, vc := 16 },
    .vldC { plainWord with form := .vs, ety := .i32, fn := 32, vd := 8, vc := 16 },
    .vldQ { plainWord with form := .vs, ety := .i32, fn := 2048, vd := 8, va := 4, vb := 12, vc := 16 },
    .vlds { plainWord with form := .vs, ety := .i32, vd := 8, va := 4, vb := 12, vc := 16 },
    .vldx { plainWord with form := .vs, ety := .i32, vd := 8, va := 4, vc := 16 },
    .vldg { plainWord with form := .vs, ety := .i32, vd := 8, va := 4, vc := 16 },
    .vst { plainWord with form := .vs, ety := .i32, vd := 8, va := 4, vc := 16 },
    .vstC { plainWord with form := .vs, ety := .i32, fn := 32, vd := 8, vc := 16 },
    .vstQ { plainWord with form := .vs, ety := .i32, fn := 2048, vd := 8, va := 4, vb := 12, vc := 16 },
    .vsts { plainWord with form := .vs, ety := .i32, vd := 8, va := 4, vb := 12, vc := 16 },
    .vstx { plainWord with form := .vs, ety := .i32, vd := 8, va := 4, vc := 16 },
    .vstxo { plainWord with form := .vs, ety := .i32, vd := 8, va := 4, vc := 16 },
    .vstg { plainWord with form := .vs, ety := .i32, vd := 8, va := 4, vc := 16 },
    .vpref { plainWord with form := .vs, ety := .i32, va := 4, vc := 16 }, .scommit { plainWord with form := .vs },
    .cutstep { plainWord with form := .vs, vc := 16 }, .mzero { plainWord with ety := .i32, vd := 1 },
    .mouter { plainWord with ety := .fp32, vd := 1, va := 4, vb := 12, vc := 16 },
    .mouteri { plainWord with ety := .i32, vd := 1, va := 4, vb := 12, vc := 16 },
    .mouterc { plainWord with ety := .i32, vd := 1, va := 4, vb := 12, vc := 16 }, .mlacc { plainWord with ety := .i32, vd := 1, va := 4 },
    .mdrain { plainWord with form := .vs, ety := .i32, vd := 1, va := 4, vb := 12, vc := 16 },
    .mtov { plainWord with ety := .i32, vd := 8, va := 1 }, .mscale { plainWord with ety := .fp32, vd := 1, va := 4, vb := 12 },
    .bclr { plainWord with ety := .fp32, vc := 3 },
    .btload { plainWord with form := .vs, ety := .fp32, fn := 1024, vd := 1, va := 4, vb := 12, vc := 16 },
    .btdrain { plainWord with form := .vs, ety := .fp32, fn := 2048, vd := 1, va := 4, vb := 12, vc := 16 },
    .bqr { plainWord with ety := .fp32, va := 4, vc := 3 },
    .bqra { plainWord with ety := .fp32, fn := 1, vd := 8, va := 4, vb := 12, vc := 3 },
    .bqrD { plainWord with ety := .fp32, fn := 2, vd := 8, va := 4, vc := 3 },
    .bapply { plainWord with ety := .fp32, vd := 8, va := 4, vb := 12, vc := 3 },
    .bapplyC0 { plainWord with ety := .fp32, fn := 1, vd := 8, va := 4, vb := 12, vc := 3 },
    .bvec { plainWord with ety := .fp32, vd := 8, va := 4, vb := 12 }, .bangleD { plainWord with ety := .n32, fn := 1, vd := 8, va := 4 },
    .bangleA { plainWord with ety := .n32, fn := 2, vd := 8, va := 4 }, .brot { plainWord with ety := .fp32, vd := 8, va := 4, vb := 12 },
    .vrotate { plainWord with ety := .fp32, fn := 64, vd := 8, va := 4, vb := 12, vc := 16 }, .bgain { plainWord with form := .vi },
    .bsolve { plainWord with ety := .fp32, vd := 8, vc := 3 },
    .vamo { plainWord with form := .vs, ety := .i32, vd := 8, va := 4, vb := 12, vc := 16 },
    .vamoo { plainWord with form := .vs, ety := .i32, fn := 2048, vd := 8, va := 4, vb := 12, vc := 16 },
    .accw { plainWord with form := .vs, ety := .i32, vc := 16 }, .vacc { plainWord with ety := .i32, fn := 32, va := 4, vb := 12 },
    .amerge { plainWord with form := .vs, ety := .i32, fn := 64, vc := 16 }, .accrel { plainWord with fn := 96 },
    .cp { plainWord with form := .vs, vd := 8, va := 4, vb := 12, vc := 16 },
    .cp2 { plainWord with form := .vs, fn := 32, vd := 8, va := 4, vb := 12, vc := 16 },
    .cpx { plainWord with form := .vs, fn := 64, vd := 8, va := 4, vb := 12, vc := 16 },
    .cpq { plainWord with form := .vs, fn := 96, vb := 12, vc := 16 }, .cpw { plainWord with form := .vs, fn := 128, va := 4 },
    .wdecl { plainWord with form := .vs, vd := 8, va := 4, vb := 12, vc := 16 },
    .wdeclRel { plainWord with form := .vs, fn := 32, va := 4 },
    .vldr { plainWord with form := .vs, ety := .i32, vd := 8, vb := 12, vc := 16 },
    .vstr { plainWord with form := .vs, ety := .i32, vd := 8, vb := 12, vc := 16 }, .step { plainWord with form := .vs, vd := 8, va := 4 },
    .stepAt { plainWord with form := .vs, fn := 32, vd := 8, va := 4, vb := 12 },
    .stepq { plainWord with form := .vs, fn := 64, vd := 8, va := 4 }, .fsbindRx { plainWord with form := .vs, vd := 1, vc := 16 },
    .fsbindTx { plainWord with form := .vs, fn := 1, vd := 1, vc := 16 }, .fsbindU { plainWord with form := .vs, fn := 2, vd := 1 },
    .vcred { plainWord with ety := .i32, vd := 8, va := 4, vb := 12 }, .setvl { plainWord with form := .vs, vd := 8, vc := 16 },
    .setvt { plainWord with form := .vs, fn := 16, vc := 16 }, .setfmt { plainWord with form := .vs, vd := 1, vc := 16 },
    .mshape { plainWord with form := .vs, ety := .i32, vd := 8, vc := 16 },
    .tshape { plainWord with form := .vs, fn := 16, vd := 8, vc := 16 }, .mmode { plainWord with form := .vi }] : List Instr).all (ready rich) = true := by
  decide +kernel

/-! Control registers and system words. -/

/-- The state at M. -/
def atM (s : State) : State := s.onM fun m => { m with lvl := true }

/-- The state with a trap handler at 0x4000. -/
def handled (s : State) : State := s.onTh fun t => { t with bind := { t.bind with handler := 0x4000 } }

/-- A launch that the thread belongs to. -/
def ownLaunch : Launch :=
  { number := 0, entry := [], slot := 0, ctx := 0, takenAt := 0, aged := false, threads := 1, boundTo := 1, homes := [], binding := none,
    aux := { cuts := [], wins := [], comms := [], ring := none }, ended := 0, status := 0, code := 0, unc := false, flags := 0,
    firstFatal := none, report := [], killed := false }

/-- The state with it. -/
def launched (s : State) : State := { s with hub := { s.hub with launches := [ownLaunch] } }

theorem witness_ReadControl : (0x0A0, rich.gtime) ∈ frontTable rich ∧ (0x010, 1) ∈ laneTable rich ∧ rich.older = [] ∧
    (0x800, 1) ∈ mTable (atM rich) ∧ crClass 0xFFF = none ∧ crClass 0x7FF = none ∧ (atM rich).th.fr.m.lvl = true := by
  refine ⟨?_, ?_, rfl, ?_, ?_, ?_, rfl⟩ <;> decide +kernel

theorem witness_WriteControl : (0x042, 0xFFFC000000000000) ∈ frontWrites ∧ (rich.rd 5) &&& 0xFFFC000000000000 = 0 ∧ zcA (rich.zc false) = false ∧
    zcA ((looping 0x1010 2).zc true) = true ∧ 0x010 ∈ ignored ∧ (0x014, 0xFFFFFFFF00000000) ∈ laneWrites ∧
    (withReg rich 5 (2 ^ 32 - 1)).rd 5 &&& 0xFFFFFFFF00000000 = 0 ∧ (withReg rich 5 (2 ^ 32)).rd 5 &&& 0xFFFFFFFF00000000 ≠ 0 ∧
    (withReg rich 5 0x3F3F).rd 5 &&& 0xFFFFFFFFFFFFC0C0 = 0 := by decide +kernel

theorem witness_WriteControlM : Idle (atM rich) ∧ (atM rich).mtcmOk 0x010 8192 = true ∧ (atM rich).mtcmOk 0x051 128 = true ∧
    (atM rich).mtcmOk 0x051 129 = false ∧ (atM rich).older = [] ∧ (atM rich).th.fr.m.pk = false ∧ (atM rich).th.bind.tg = true :=
  ⟨⟨rfl, rfl, rfl, rfl, rfl, rfl, rfl⟩, by decide +kernel⟩

theorem witness_ExceptionEntry : toHandler .illegal = true ∧ (handled rich).th.fr.m.lvl = false ∧ 4 ≤ (handled rich).th.bind.handler.toNat := by
  decide +kernel

theorem witness_ExceptionRoutes : toHandler .pageFault = false ∧ Alone (launched rich) ∧ rich.th.bind.handler.toNat < 4 ∧
    (atM rich).th.fr.m.lvl = true ∧ ownLaunch ∈ (launched rich).hub.launches ∧ ownLaunch.number = rich.th.bind.launch ∧
    ownLaunch.firstFatal = none := ⟨rfl, ⟨rfl, rfl⟩, by decide +kernel, rfl, .head _, rfl, rfl⟩

/-- The state with a debugger attached, and with a stop that waits at M. -/
def debugged (s : State) : State := s.onM fun m => { m with dbg := true, preq := some .debug }

theorem witness_TrapWords : rich.th.fr.m.lvl = false ∧ rich.th.fr.m.dbg = false ∧ rich.older = [] ∧ (debugged rich).th.fr.m.dbg = true ∧
    (atM rich).th.fr.m.preq = none ∧ (atM rich).th.fr.m.lane = false ∧ (debugged (atM rich)).th.fr.m.preq = some .debug ∧
    (atM rich).endQuiet = true ∧ (atM rich).older = [] ∧ (atM rich).th.fr.storeQ = [] :=
  ⟨rfl, rfl, rfl, rfl, rfl, rfl, rfl, rfl, rfl, rfl⟩

theorem witness_MaintenanceWords : rich.older = [] ∧ rich.th.fr.storeQ = [] ∧ rich.storesDone = true ∧ (atM rich).th.fr.m.lvl = true ∧
    (atM rich).storesDone = true := ⟨rfl, rfl, rfl, rfl, rfl⟩

theorem witness_CounterWords : rich.older = [] ∧ ([9, 40, 41, 0x100, 0x107, 0x108, 0x110, 0x113, 0x114].all fun n =>
    ((withReg rich 5 n).rd 5).toNat == n) = true ∧ rich.th.fr.regs.trccfg.getLsbD 3 = false ∧
    (rich.onRegs fun r => { r with trccfg := 8 }).th.fr.regs.trccfg.getLsbD 3 = true ∧ rich.hub.traceQ.length < 64 := by decide +kernel

/-- A convoy of one word parked at M, and the state whose memory at 0x3000 holds its image. -/
def parked : State := (behind (mapped 0)).onM fun m => { m with lvl := true, pk := true }
/-- The image. -/
def saved : State := { atM (mapped 0) with mem := memPut [] 0x3000 (parked.th.viqImage parked.th.fr.viq 0x2000 0x2000) }

theorem witness_ConvoyImages : parked.th.fr.m.pk = true ∧ (imageCells .write 0x3000 3 parked).2.isSome = true ∧
    saved.th.fr.m.pk = false ∧ saved.older = [] ∧ (imageCells .read 0x3000 2 saved).2 = some [0x3000, 0x3040] ∧
    bytesNat (saved.bytesAt 0x3000 64) 0 2 = 1 ∧ (imageCells .read 0x3080 1 saved).2 = some [0x3080] ∧
    (saved.readImage (saved.bytesAt 0x3000 192)).isSome = true := by decide +kernel

/-! Words of the VIQ and of memory. -/

/-- The front of a lagging model that holds one word of a convoy that is open. -/
def lagged : State := { (behind rich).onFr fun f => { f with chainOpen := true } with prompt := false }

theorem witness_WordsAreSent : lagged.prompt = false ∧ lagged.th.fr.curLane = none ∧ lagged.viqUsed < 64 ∧
    viqWord (.vmul { plainWord with ety := .i32 }) = some (0x01, { plainWord with ety := .i32 }, 0) ∧
    lagged.threadOk 0x01 { plainWord with ety := .i32 } = true ∧
    (lagged.th.fr.chainOpen && mayJoin lagged.th.fr.viq (entry lagged 0x01 { plainWord with ety := .i32 })) = true ∧
    (lagged.th.fr.chainOpen && mayJoin lagged.th.fr.viq (entry lagged 0x40 { plainWord with form := .vs, ety := .i32, vd := 5 })) = false := by
  decide +kernel

/-- The traps of the lanes enabled. -/
def trapping (s : State) : State := s.onLn fun l => { l with traps := 63 }
/-- `vdiv v1, v2, v3` of FP32: 0 / 0 on zero registers. -/
def zeroDiv : VWord := { plainWord with ety := .fp32, vd := 1, va := 2, vb := 3 }

/-- One element more than an i64 register holds. -/
def tooLong : State := rich.onCopy fun c => { c with vl := 2049 }

theorem witness_VectorFaults : (Instr.vadd { plainWord with ety := .i64 }).wellFormed = true ∧
    tooLong.issueOk (entry tooLong 0 { plainWord with ety := .i64 }) = false ∧ tooLong.threadOk 0 { plainWord with ety := .i64 } = true ∧
    (rich.onCopy fun c => { c with vl := 2048 }).issueOk (entry (rich.onCopy fun c => { c with vl := 2048 }) 0 { plainWord with ety := .i64 }) = true ∧
    readyB (trapping rich) 0x3D zeroDiv = true ∧
    (∃ f, floatForm (trapping rich) (.vdiv zeroDiv) = some f ∧ f.op = 0x3D ∧ f.w = zeroDiv ∧ f.checks = true ∧ 0 < f.n ∧ f.act 0 = true ∧
      (f.at_ 0).2 &&& (trapping rich).th.ln.traps ≠ 0) := by
  refine ⟨by decide +kernel, by decide +kernel, by decide +kernel, by decide +kernel, by decide +kernel, _, rfl, rfl, rfl, ?_⟩
  decide +kernel

theorem resident_zero (acc : Access) (slice : Bool) : Resident (mapped 0) slice 0 0 4 acc 0 :=
  ⟨by decide, ⟨by decide, by decide, rfl⟩, fun _ _ => List.not_mem_nil, fun _ => by decide, 0, by decide, by cases acc <;> rfl, nofun⟩

theorem resident_sixteen (acc : Access) (slice : Bool) : Resident (mapped 0) slice 0 16 4 acc 16 :=
  ⟨by decide, ⟨by decide, by decide, rfl⟩, fun _ _ => List.not_mem_nil, fun _ => by decide, 0, by decide, by cases acc <;> rfl, nofun⟩

/-- A page of kind SO: a slice access is shut out there. -/
theorem resident_ordered : Resident (mapped 1) false 0 16 4 .read 16 :=
  ⟨by decide, ⟨by decide, by decide, rfl⟩, fun _ _ => List.not_mem_nil, nofun, 1, by decide, rfl, by decide⟩

/-- A memory word is ready where its one element lies at one of the two places above, in cluster 0. -/
def memReady (F : State → Instr → Option MemForm) (i : Instr) : Bool :=
  match F (mapped 0) i with
  | some f => i.wellFormed && readyB (mapped 0) f.op f.w && f.checks && (f.addr 0 == 0 || f.addr 0 == 16) && clusterAt (mapped 0) f.w 0 == 0 &&
      msize (eb (mapped 0) f.w) == 4
  | none => false

theorem hasRoom_one (pa : Nat → Nat) (h : pa 0 = 16 ∨ pa 0 = 0) : HasRoom (mapped 0) 1 4 (fun _ => true) (fun _ => 0) pa := by
  refine ⟨rfl, fun c hc => ?_⟩
  rcases h with h | h <;> interval_cases c <;> (show _ ≤ 64; simp [blocksIn, h]) <;> decide

theorem witness_VectorLoads : ([.vld { plainWord with form := .vs, ety := .i32, vd := 8, va := 4, vc := 16 },
    .vldC { plainWord with form := .vs, ety := .i32, fn := 32, vd := 8, vc := 16 },
    .vlds { plainWord with form := .vs, ety := .i32, vd := 8, va := 4, vb := 12, vc := 16 },
    .vldx { plainWord with form := .vs, ety := .i32, vd := 8, va := 4, vc := 16 },
    .vldg { plainWord with form := .vs, ety := .i32, vd := 8, va := 4, vc := 16 }] : List Instr).all
      (memReady loadWordForm) = true ∧ ready (mapped 0) (.vpref { plainWord with form := .vs, ety := .i32, va := 4, vc := 16 }) = true ∧
    (mapped 0).th.st.entries = [] ∧ (mapped 0).th.st.parked = [] := by decide +kernel

theorem witness_VectorStores : ([.vst { plainWord with form := .vs, ety := .i32, vd := 8, va := 4, vc := 16 },
    .vstC { plainWord with form := .vs, ety := .i32, fn := 32, vd := 8, vc := 16 },
    .vsts { plainWord with form := .vs, ety := .i32, vd := 8, va := 4, vb := 12, vc := 16 },
    .vstx { plainWord with form := .vs, ety := .i32, vd := 8, va := 4, vc := 16 },
    .vstxo { plainWord with form := .vs, ety := .i32, vd := 8, va := 4, vc := 16 },
    .vstg { plainWord with form := .vs, ety := .i32, vd := 8, va := 4, vc := 16 }] : List Instr).all
      (memReady fun s i => (storeWordForm s i).map (·.1)) = true ∧ (mapped 0).th.st.entries = [] := by decide +kernel

theorem witness_TileAccesses : tileFits ((mapped 0).onLn fun l => { l with shape := Vector.replicate 16 (word (2 + 1 * 2 ^ 4 + 1 * 2 ^ 20)) })
      { plainWord with form := .vs, ety := .i32, fn := 2048, vd := 8, va := 4, vb := 12, vc := 16 } ∧
    readyB ((mapped 0).onLn fun l => { l with shape := Vector.replicate 16 (word (2 + 1 * 2 ^ 4 + 1 * 2 ^ 20)) }) 0x40
      { plainWord with form := .vs, ety := .i32, fn := 2048, vd := 8, va := 4, vb := 12, vc := 16 } = true :=
  ⟨⟨by decide +kernel, by decide +kernel, nofun, nofun, by decide +kernel⟩, by decide +kernel⟩

theorem witness_ConfigurationWords : ([.setvl { plainWord with form := .vs, vd := 8, vc := 16 },
    .setvt { plainWord with form := .vs, fn := 16, vc := 16 },
    .setfmt { plainWord with form := .vs, vd := 1, vc := 16 },
    .mshape { plainWord with form := .vs, ety := .i32, vd := 8, vc := 16 },
    .tshape { plainWord with form := .vs, fn := 16, vd := 8, vc := 16 },
    .mmode { plainWord with form := .vi },
    .scommit { plainWord with form := .vs },
    .cutstep { plainWord with form := .vs, vc := 16 }] : List Instr).all
      (ready rich) = true ∧ rich.th.st.entries = [] ∧ (withReg rich 16 0x3F8).rd 16 = 0x3F8 ∧ fmtValid (rich.rd 16) = false ∧
    ((withReg rich 16 0xFFFF).rd 16).toNat < 2 ^ 16 ∧ 2 ^ 16 ≤ ((withReg rich 16 0x10000).rd 16).toNat := by decide +kernel

/-! The Truss and the Brace. -/

/-- A shape entry of a type. -/
def shaped (code rows cols : Nat) : Word := word (code + cols * 2 ^ 4 + rows * 2 ^ 20)

/-- The state with tiles of types a and b at v4 and v8 and of type c at v16, a configuration and extents of the Truss, and integer tags. -/
def outer (a b c cfg tk : Nat) (int : Bool) : State :=
  (rich.onLn fun l => { l with shape := vecSet (vecSet (vecSet l.shape 1 (shaped a 96 16)) 2 (shaped b 96 16)) 4 (shaped c 96 16) }).onTr
    fun t => { t with mcfg := BitVec.ofNat 7 cfg, tm := 16, tn := 1, tk := tk, tagInt := Vector.replicate 2 int }

/-- An outer product whose checks hold. -/
def outerReady (s : State) (i : Instr) : Bool :=
  match outerForm s i with | some f => i.wellFormed && readyB s f.op f.w && f.checks && decide (0 < f.steps) | none => false

theorem witness_OuterProducts :
    outerReady (outer 8 9 0 0 5 false) (.mouter { plainWord with ety := .fp32, vd := 1, va := 4, vb := 8 }) = true ∧
    outerReady (outer 12 13 4 (1 + 16) 64 false) (.mouter { plainWord with ety := .fp32, vd := 1, va := 4, vb := 8, vc := 16 }) = true ∧
    outerReady (outer 0 4 0 1 7 true) (.mouteri { plainWord with ety := .i32, vd := 1, va := 4, vb := 8 }) = true ∧
    outerReady (outer 0 4 4 5 48 true) (.mouterc { plainWord with ety := .i32, vd := 1, va := 4, vb := 8, vc := 16 }) = true ∧
    outerReady (outer 12 13 4 5 48 false) (.mouterc { plainWord with ety := .fp32, vd := 1, va := 4, vb := 8, vc := 16 }) = true := by
  decide +kernel

/-- The state whose Truss holds integer tiles. -/
def integers : State := rich.onTr fun t => { t with tagInt := Vector.replicate 2 true, tm := 1 }

theorem witness_AccumulatorWords : ready rich (.mzero { plainWord with ety := .i32, vd := 1 }) = true ∧
    (rich.tile 1).isSome = true ∧ ready (outer 10 0 0 0 1 false) (.mlacc { plainWord with ety := .fp32, vd := 1, va := 4 }) = true ∧
    ((outer 10 0 0 0 1 false).tile 1).any (fun t => t.ety == .fp32 && t.rows == 96 && t.cols == 16) = true ∧
    ready integers (.mtov { plainWord with ety := .i32, vd := 8, va := 1 }) = true ∧ 16384 * 32 ≤ integers.width * 131072 ∧
    ready integers (.mdrain { plainWord with form := .vs, ety := .i32, vd := 1, va := 4, vb := 12, vc := 16 }) = true ∧
    vecGet integers.th.tr.tagInt 1 false = true ∧ integers.th.fr.copy.vl ≤ 128 ∧
    ready rich (.mscale { plainWord with ety := .fp32, vd := 1, va := 4, vb := 12 }) = true := by decide +kernel

theorem witness_RotatorElements : [Instr.bvec { plainWord with ety := .fp32, vd := 8, va := 4, vb := 12 },
      .bangleD { plainWord with ety := .n32, fn := 1, vd := 8, va := 4 }, .bangleA { plainWord with ety := .n32, fn := 2, vd := 8, va := 4 }].all
      (element rich braceForm) = true ∧
    element (rich.onCopy fun c => { c with vl := 4 }) braceForm (.brot { plainWord with ety := .fp32, fn := 2, vd := 8, va := 4, vb := 12 }) = true ∧
    ready rich (.vrotate { plainWord with ety := .fp32, fn := 64, vd := 8, va := 4, vb := 12, vc := 16 }) = true := by decide +kernel

theorem witness_RowWords : ((outer 10 0 0 0 1 false).tile 1).any (fun a => a.ety == .fp32 && a.cols == 16 && a.rows == 96) = true ∧
    [Instr.bqr { plainWord with ety := .fp32, va := 4, vc := 3 }, .bqra { plainWord with ety := .fp32, fn := 1, vd := 8, va := 4, vb := 12, vc := 3 },
      .bqrD { plainWord with ety := .fp32, fn := 2, vd := 8, va := 4, vc := 3 }].all (ready (outer 10 0 0 0 1 false)) = true ∧
    (rich.tile 1).any (fun a => a.ety == .n32 && a.cols == 32 && a.rows == 32) = true ∧ deferred rich = false ∧
    [Instr.bapply { plainWord with ety := .fp32, vd := 8, va := 4, vb := 12, vc := 3 },
      .bapplyC0 { plainWord with ety := .fp32, fn := 1, vd := 8, va := 4, vb := 12, vc := 3 }].all (ready rich) = true := by decide +kernel

theorem witness_TriangleWords : [Instr.bclr { plainWord with ety := .fp32, vc := 3 }, .bgain { plainWord with form := .vi },
      .btload { plainWord with form := .vs, ety := .fp32, fn := 1024, vd := 1, va := 4, vb := 12, vc := 16 },
      .btdrain { plainWord with form := .vs, ety := .fp32, fn := 2048, vd := 1, va := 4, vb := 12, vc := 16 },
      .bsolve { plainWord with ety := .fp32, vd := 8, vc := 3 }].all (ready (mapped 0)) = true ∧
    (List.range 1056).all (fun x => decide ((triAddr (mapped 0) { plainWord with form := .vs, va := 4, vb := 0, vc := 16 } x).toNat < 65532)) = true ∧
    1 ≤ rich.th.fr.copy.vl ∧ rich.th.fr.copy.vl ≤ 32 := by decide +kernel

/-! Atomics, copies and the fabric. -/

theorem witness_VectorAtomics : [Instr.vamo { plainWord with form := .vs, ety := .i32, vd := 8, va := 4, vb := 12, vc := 16 },
      .vamoo { plainWord with form := .vs, ety := .i32, fn := 2048, vd := 8, va := 4, vb := 12, vc := 16 },
      .vamo { plainWord with form := .vs, ety := .i32, fn := 3 + 4, vd := 8, va := 4, vb := 12, vc := 16 }].all (ready (mapped 0)) = true ∧
    (mapped 0).MemOk ∧ (mapped 0).th.st.entries = [] ∧ (mapped 0).th.fr.copy.vl ≤ vlmax (mapped 0).width 32 ∧
    Resident (mapped 0) true (clusterAt (mapped 0) { plainWord with ety := .i32 } 0) 0 4 .write 0 :=
  ⟨by decide +kernel, rfl, rfl, by decide +kernel, resident_zero .write true⟩

/-- The state with an i32 window of five elements. -/
def windowed : State := (mapped 0).onLn fun l =>
  { l with win := { cfg := word (1 * 2 ^ 20 + 5 * 2 ^ 8 + 2 * 2 ^ 3 + 1), copies := List.replicate 32 (List.replicate 5 0) } }

theorem witness_AccumulationWindows : [Instr.accw { plainWord with form := .vs, ety := .i32, vc := 16 }, .vacc { plainWord with ety := .i32, fn := 32, va := 4, vb := 12 },
      .amerge { plainWord with form := .vs, ety := .i32, fn := 64, vc := 16 }, .accrel { plainWord with fn := 96 }].all (ready windowed) = true ∧
    WindowOk windowed ∧ bitsOf windowed.th.ln.win.cfg 6 3 = EType.i32.code ∧ bitsOf (mapped 0).th.ln.win.cfg 0 0 = 0 ∧
    (1024 * 4 + 2047) / 2048 + 16 ≤ rich.th.bind.slots ∧ rich.th.bind.slots < (1024 * 8 + 2047) / 2048 + 21 ∧
    Resident windowed true 0 16 4 .write 16 :=
  ⟨by decide +kernel, ⟨by decide +kernel, by decide +kernel, by decide +kernel, by decide +kernel⟩, by decide +kernel, by decide +kernel, by decide +kernel, by decide +kernel,
    ⟨by decide, ⟨by decide, by decide, rfl⟩, fun _ _ => List.not_mem_nil, fun _ => by decide, 0, by decide, rfl, nofun⟩⟩

/-- A copy command in a slot of core 0. -/
def command (slot : Nat) : CopyCmd :=
  { core := 0, slot := slot, owner := 0, ctx := 0, fn := 0, stream := false, dst := 0x100, src := 0x40, b0 := 8, b1 := 0, aw := none, pos := 0,
    olds := [], seq := 0, held := false, paused := false, stopping := false }

theorem witness_CopyWords : copyForm rich (.cp2 { plainWord with form := .vs, fn := 32, vd := 8, va := 4, vb := 12, vc := 16 }) =
      some ({ plainWord with form := .vs, fn := 32, vd := 8, va := 4, vb := 12, vc := 16 }, 1, 0, 0, 0, 0) ∧
    (let f := copyFits { plainWord with vc := 12 }; ¬ f 1 0 0 ∧ f 1 (2 ^ 32 + 1) 0 ∧ f 2 (8 * 2 ^ 32) 4 ∧ ¬ f 2 (9 * 2 ^ 32) 4 ∧ ¬ f 2 0 2 ∧
    f 0 (2 ^ 40 - 1) 0 ∧ ¬ f 0 (2 ^ 40) 0 ∧ f 3 0 0) ∧ ¬ copyFits plainWord 3 0 0 ∧ (withReg rich 16 16).rd 16 ≠ 1 ∧ (withReg rich 16 8).rd 16 = 8 ∧
    (∃ c ∈ [command 0], c.core = 0 ∧ c.paused = false ∧ c.slot = 0) ∧ (∀ c ∈ [command 0], c.core = 0 → c.paused = false → c.slot ≠ 1) := by
  refine ⟨rfl, ?_, ?_, ?_, ?_, ?_, ?_⟩ <;> first | decide +kernel | simp [copyFits, plainWord]

/-- A window over two pages. -/
def window : Window :=
  { ctx := 0, handle := 3, base := 0, len := 131072, die := 0, pages := [0x100000, 0x120000], cap := 16, rule := 0, ety := 2, bufAt := 0, entries := [],
    overflowed := false, conflicted := false, releasing := false, freeing := none }

/-- The state with that window, whose page table maps its pages as DS. -/
def remote : State :=
  { withReg rich 12 (3 * 2 ^ 16) with
    windows := [window], mem := [(0x4000000, 1), (0x4000002, 1), (0x4000003, 4), (0x4010000, 0xF7), (0x4010001, 1)]
    th := { (withReg rich 12 (3 * 2 ^ 16)).th with bind := { rich.th.bind with ptroot := 0x4000000 } } }

/-- A result that is there and has a property. -/
theorem ok_of {α ε : Type} {e : Except ε α} (P : α → Prop) [DecidablePred P] (h : (e.toOption.any fun x => decide (P x)) = true) :
    ∃ x, e = .ok x ∧ P x := by
  cases e with
  | error e => simp [Except.toOption] at h
  | ok y => exact ⟨y, rfl, by simpa [Except.toOption] using h⟩

theorem inWindow_zero (acc : Access) (hx : acc ≠ .exec) : InWindow remote window 0 4 acc 0x100000 := by
  refine ⟨?_, by decide, by decide, ⟨0x100000, by decide +kernel⟩, rfl, fun _ _ => List.not_mem_nil, State.keyed_plain _ _ rfl⟩
  obtain ⟨x, h, h1, h2, h3⟩ := ok_of (e := remote.walk remote.walker 0)
    (fun x => x.kind = 3 ∧ remote.leafOk remote.walker x acc = true ∧
      memPut remote.mem x.pte (leBytes 8 (leNat (memBytes remote.mem x.pte 8) ||| 2 ^ 7 ||| if acc = .write then 2 ^ 8 else 0)) = remote.mem)
    (by cases acc with | exec => exact absurd rfl hx | _ => decide +kernel)
  exact ⟨x, h, h1, h2, by unfold State.markPte; simp only [h3]⟩

theorem witness_WindowAndRemoteWords :
    [Instr.vldr { plainWord with form := .vs, ety := .i32, vd := 8, vb := 12, vc := 16 }, .vstr { plainWord with form := .vs, ety := .i32, vd := 8, vb := 12, vc := 16 },
      .wdecl { plainWord with form := .vs, vd := 8, va := 4, vb := 12, vc := 16 }, .wdeclRel { plainWord with form := .vs, fn := 32, va := 4 }].all (ready remote) = true ∧
    OwnTarget remote { plainWord with form := .vs, ety := .i32, vd := 8, vb := 12, vc := 16 } window ∧ InWindow remote window 0 4 .read 0x100000 ∧
    InWindow remote window 0 4 .write 0x100000 ∧ window.elemBytes = 4 ∧ windowConfig 0x12D ∧ ¬ windowConfig 0x10000000 ∧
    windowConfig 0xFFFFF6D ∧ ¬ windowConfig 0x17D ∧ ¬ windowConfig 0x10E ∧
    (mapped 3).xlate 0 0 .read = .ok { st := mapped 3, pa := 0, kind := 3 } :=
  ⟨by decide +kernel, ⟨by decide +kernel, by decide +kernel, by decide, by decide +kernel, nofun, by decide +kernel, by decide +kernel, rfl⟩,
    inWindow_zero .read nofun, inWindow_zero .write nofun, by decide +kernel, by unfold windowConfig; decide, by unfold windowConfig; decide, by unfold windowConfig; decide,
    by unfold windowConfig; decide, by unfold windowConfig; decide, rfl⟩

/-- A communicator of one member, and the context that holds it. -/
def pair_ : Comm := { number := 0, first := 0, members := 1, prio := 0, stride := 1, join := 0, aborted := false }
/-- A context. -/
def context : Ctx :=
  { id := 0, key := 0, conf := false, ptroot := 0, res := 0, swmax := 0, syncLo := 0, syncN := 16, posts := [0, 1], handler := 0, stack := 0, stacksz := 0,
    quota := 2 ^ 30, used := [0, 0, 0, 0], cores := BitVec.allOnes 224, level := 3, objs := [], comms := [pair_], ring := none, mc := 0, tenant := [], unit := 0, dbg := false, runs := [],
    images := [], sched := [] }
/-- The state with it. -/
def owned (s : State) : State := { s with ctxs := [context] }

theorem witness_StepAndStreamWords : [Instr.step { plainWord with form := .vs, vd := 8, va := 4 }, .stepAt { plainWord with form := .vs, fn := 32, vd := 8, va := 4, vb := 12 },
      .stepq { plainWord with form := .vs, fn := 64, vd := 8, va := 4 }, .fsbindRx { plainWord with form := .vs, vd := 1, vc := 16 },
      .fsbindTx { plainWord with form := .vs, fn := 1, vd := 1, vc := 16 }, .fsbindU { plainWord with form := .vs, fn := 2, vd := 1 },
      .vcred { plainWord with ety := .i32, vd := 8, va := 4, vb := 12 }].all (ready (owned rich)) = true ∧
    MayArrive (owned rich) { plainWord with form := .vs, vd := 8, va := 4 } ∧ (owned rich).th.fab.queued = false ∧ (owned rich).unc.asks = [] ∧
    (owned rich).comm 0 = some pair_ ∧ (owned rich).memberIndex 0 = some 0 ∧ (owned rich).comm 1 = none ∧
    ((withReg rich 16 8388607).rd 16).toInt = 8388607 ∧ ((withReg rich 16 (2 ^ 64 - 8388609)).rd 16).toInt < -8388608 ∧
    (credForm (owned rich) { plainWord with ety := .i32, vd := 8, va := 4, vb := 12 } 0).checks = true :=
  ⟨by decide +kernel, ⟨by decide +kernel, by decide +kernel, by decide +kernel, by decide +kernel, ⟨rfl, rfl⟩⟩, by decide +kernel⟩

/-! Words of the front that act outside the thread. -/

theorem witness_AtomicWords : [Instr.amoSwap { plainWord with form := .vs, ety := .i32, vd := 8, va := 4, vb := 12 },
      .amocas { plainWord with form := .vs, ety := .i32, vd := 8, va := 4, vb := 12, vc := 16 }, .fence { plainWord with form := .vs, fn := 0x60C, vd := 5 },
      .awInit { plainWord with form := .vs, va := 4, vb := 12 }, .awAdd { plainWord with form := .vs, fn := 32, va := 4, vb := 12 },
      .awWait { plainWord with form := .vs, fn := 64, vd := 8, va := 4, vb := 12 }].all Instr.wellFormed = true ∧
    FrontQuiet (mapped 0) ∧ (mapped 0).MemOk ∧ Resident (mapped 0) true 0 0 4 .write 0 ∧
    Resident (mapped 0) true 0 0x100 16 .write 0x100 ∧ (mapped 0).th.fr.wait = .none ∧
    amoForm (.amoMax { plainWord with form := .vs, fn := 192 }) = some (6, { plainWord with form := .vs, fn := 192 }) ∧
    (1 ≤ ((withReg rich 12 1).rd 12).toNat ∧ ((withReg rich 12 (2 ^ 40 - 1)).rd 12).toNat < 2 ^ 40 ∧
      2 ^ 40 ≤ ((withReg rich 12 (2 ^ 40)).rd 12).toNat) :=
  ⟨by decide +kernel, ⟨rfl, rfl, rfl, rfl, rfl⟩, rfl, resident_zero .write true,
    ⟨by decide, ⟨by decide, by decide, rfl⟩, fun _ _ => List.not_mem_nil, fun _ => by decide, 0, by decide, rfl, nofun⟩, rfl, rfl, by decide +kernel⟩

theorem witness_SyncWords : FrontQuiet (owned rich) ∧ Named (owned rich) (word 15) ∧ ¬ Named (owned rich) (word 16) ∧ HoldsTag (owned rich) ∧
    ¬ HoldsTag rich ∧ (withReg rich 4 (2 ^ 11)).rd 4 = word (2 ^ 11) ∧ hudArr (homeValue (owned rich) 0) = 0 ∧
    hudExp (homeValue (owned rich) 0) ≤ hudArr (homeValue (owned rich) 0) ∧
    hudArr (homeValue { owned rich with sync := { rich.sync with home := [(0, 0x1000)] } } 0) <
      hudExp (homeValue { owned rich with sync := { rich.sync with home := [(0, 0x1000)] } } 0) ∧
    (owned rich).th.fr.wait = .none ∧ ((owned rich).postGet 0 0).toNat < 1 :=
  ⟨⟨rfl, rfl, rfl, rfl, rfl⟩, by unfold Named; decide +kernel, by unfold Named; decide +kernel, ⟨context, by decide +kernel, by decide +kernel⟩,
    by rintro ⟨c, h, -⟩; exact (nomatch (show (none : Option Ctx) = some c from h)), by decide +kernel⟩

/-! Events. -/

/-- The front waits for something. -/
def waiting (w : Wait) : State := (owned (mapped 0)).onFr fun f => { f with wait := w }

/-- An older word that is done with its checks, and a history entry behind it. -/
def logged (safe : Bool) : State := rich.onFr fun f =>
  { f with viq := [{ olderWord rich with safe := safe }], hist := [{ reg := .s 3, old := 7, flags := 1, seq := 1 }] }

/-- One entry of one slot in the VIQ. -/
def oneSlot (x : Machine.Slot) : VEntry := { entry rich 0 plainWord with slot := x, issued := false }

/-- The state that holds it. -/
def slotted (x : Machine.Slot) : State := { (rich.onFr fun f => { f with viq := [oneSlot x] }) with prompt := false }

/-- A lane section of four clusters whose code is `addi s1, s0, 5` and `ljoin`. -/
def laneCode : LaneSection :=
  { origin := 0x1000, start := 0x2000, len := 8, code := leBytes 4 0x04080005 ++ leBytes 4 0x70000000, pcs := List.replicate 32 0x2000, joined := List.replicate 32 false,
    last := [7, 7, 7, 7] }

/-- The state in it. -/
def inSection : State := rich.onFr fun f => { f with lanes := some laneCode }

/-- The current thread in another stage of its life. -/
def withLife (s : State) (l : Life) : State := s.onTh fun t => { t with life := l }

/-- The state whose deadline has passed. -/
def tooLate : State := { (rich.onRegs fun r => { r with dline := 4 }) with gtime := 5 }

theorem witness_ThreadEvents_place : eventPlace (.deadline 0) = some 0 ∧ (State.reset.threads.all fun t => !t.isAt 0) = true ∧
    ({ State.reset with others := [rich.th] }).th.isAt 0 = false ∧
    ({ State.reset with others := [rich.th] }).others.findIdx? (Thread.isAt 0) = some 0 ∧
    (∃ t, exec (.waitTReturn 0) (({ State.reset with others := [rich.th] }).swapWith 0) = .next t) ∧ rich.th.isAt 0 = true ∧
    rich.th.life = .running := ⟨rfl, by decide +kernel, by decide +kernel, by decide +kernel, ⟨_, rfl⟩, by decide +kernel, by decide +kernel⟩

theorem witness_ThreadEvents_words : laneToScalar 0 plainWord = false ∧ readyB (mapped 0) 0x00 { plainWord with ety := .i32 } = true ∧
    (mapped 0).th.st.entries = [] ∧ (mapped 0).th.st.unacked = [] ∧ OneEntry (slotted (.mtc 0x014)) (oneSlot (.mtc 0x014)) ∧
    OneEntry (slotted (.commit (some 3))) (oneSlot (.commit (some 3))) ∧ (0x014, 0xFFFFFFFF00000000) ∈ laneWrites ∧
    (oneSlot (.mtc 0x014)).sc &&& 0xFFFFFFFF00000000 = 0 ∧ (slotted (.commit (some 3))).prompt = false ∧
    (logged true).th.fr.hist ≠ [] ∧ (∀ e ∈ (logged true).th.fr.viq, e.safe = true) ∧ (∃ e ∈ (logged false).th.fr.viq, e.safe = false ∧ e.seq ≤ 1) :=
  ⟨by decide +kernel, by decide +kernel, rfl, rfl, by unfold OneEntry; decide +kernel, by unfold OneEntry; decide +kernel,
    by decide, by decide +kernel, rfl, nofun, by decide +kernel, by decide +kernel⟩

theorem witness_ThreadEvents_lanes : inSection.th.fr.lanes = some laneCode ∧ inSection.th.fr.curLane = none ∧ inSection.th.fr.wait = .none ∧
    TurnOf laneCode 0 0 ∧ codeWord laneCode 0 = 0x04080005 ∧ decode32 0x04080005 = .ok (.addi 1 0 5) ∧ (intResult inSection (.addi 1 0 5)).isSome = true ∧
    (∃ u, exec (.addi 1 0 5) (inSection.onFr fun f => { f with curLane := some 0, spc := 0x2000 }) = .next u ∧ u.th.fr.lanes = some laneCode ∧
      u.th.fr.curLane = some 0) :=
  ⟨rfl, rfl, rfl, ⟨0, by decide, by decide, by decide, by decide⟩, by decide +kernel, by decide +kernel, by decide +kernel, ⟨_, rfl, rfl, rfl⟩⟩

theorem witness_ThreadEvents_waits : (waiting (.time 1 1)).gtime < 1 ∧ (1 : Word) ≤ ({ waiting (.time 1 1) with gtime := 1 }).gtime ∧
    hudGen ((waiting (.huddle 0 0)).syncSeen 0 0 0) = 0 ∧ hudGen ((waiting (.huddle 0 1)).syncSeen 0 0 0) ≠ 1 ∧
    ((waiting (.ring 1)).postGet 0 (ptagTag (waiting (.ring 1)))).toNat < 1 ∧ 0 ≤ ((waiting (.ring 0)).postGet 0 0).toNat ∧
    FrontQuiet (waiting (.arrival 1 0x100 0 1 1)) ∧ leNat (memBytes (waiting (.arrival 1 0x100 0 1 1)).mem 0x108 8) / 2 ^ 40 % 2 ^ 20 = 0 ∧
    Resident (waiting (.arrival 1 0x100 0 1 1)) true 0 0x100 16 .read 0x100 ∧ (waiting (.copies 0)).th.fr.viq = [] ∧
    ({ waiting (.copies 0) with copies := [command 0] }).copies.length = 1 :=
  ⟨by decide +kernel, by decide +kernel, by decide +kernel, by decide +kernel, by decide +kernel, by decide +kernel, ⟨rfl, rfl, rfl, rfl, rfl⟩, by decide +kernel,
    ⟨by decide, ⟨by decide, by decide, rfl⟩, fun _ _ => List.not_mem_nil, fun _ => by decide, 0, by decide, rfl, nofun⟩, rfl, rfl⟩

theorem witness_ThreadEvents_stops : tooLate.th.fr.regs.dline < tooLate.gtime ∧ tooLate.older = [] ∧ rich.gtime ≤ rich.th.fr.regs.dline ∧
    (∀ e ∈ rich.older, e.issued = false) ∧ Alone rich ∧ rich.saved = [] ∧ rich.th.bind.ctx ≠ 1 ∧ rich.gtime < 1 ∧
    (withLife rich .swapped).th.life = .swapped ∧ (withLife rich (.swappedBound true)).th.life = .swappedBound true ∧
    (withLife (launched rich) (.suspended .pageFault 0 0 0)).th.life = .suspended .pageFault 0 0 0 ∧
    (∀ k ∈ rich.saved, ¬ (k.ctx = rich.th.bind.ctx ∧ k.die = rich.th.bind.die)) ∧
    (rich.hub.switches.find? fun w => w.incoming = rich.th.bind.ctx) = none ∧
    (let s := { rich with hub := { rich.hub with switches := [{ outgoing := 1, incoming := 0, resume := some 1 }] } }
     (s.hub.switches.find? fun w => w.incoming = s.th.bind.ctx).any (fun w => w.resume == some 1) = true ∧ s.gtime < 1) :=
  ⟨by decide +kernel, rfl, by decide +kernel, by decide +kernel, ⟨rfl, rfl⟩, rfl, by decide +kernel, by decide +kernel, rfl, rfl, rfl, by decide +kernel, rfl,
    by decide +kernel⟩

/-- A store of four bytes that waits in the queue. -/
def queued : State := (mapped 0).onFr fun f => { f with storeQ := [{ pa := 0x100, bytes := [1, 2, 3, 4], kind := 0, seq := 4, order := 0, atM := false }] }

/-- A committed entry of the strip that writes bytes 0 and 1 of a block. -/
def committed (block : Nat) : StripEntry :=
  { cluster := 0, block := block, marks := 15, data := 0x1234, strip := 0, kind := 0, remote := none, stream := false, order := 0 }

/-- The state whose strip holds two of them and has a third open. -/
def draining : State := (mapped 0).onSt fun x => { x with entries := [committed 4, committed 5], open_ := 1, unacked := [(committed 3).slot] }

theorem witness_MemoryEvents_thread : queued.th.life = .running ∧ queued.th.st.entries = [] ∧ queued.MemOk ∧ (∀ v ∈ queued.older, v.safe = true ∨ 4 < v.seq) ∧
    PlainHbm queued 0x100 4 ∧ (∃ v ∈ (queued.onFr fun f => { f with viq := [{ olderWord rich with seq := 4 }] }).older, v.safe = false ∧ v.seq ≤ 4) ∧
    (draining.th.st.entries.filter fun x => x.strip ≠ draining.th.st.open_)[1]? = some (committed 5) ∧ draining.th.st.entries.Nodup ∧
    (∀ x ∈ (draining.th.st.entries.filter fun x => x.strip ≠ draining.th.st.open_).take 1, x.block ≠ 5 ∨ x.remote ≠ none) ∧ PlainHbm draining (5 * 64) 64 ∧
    (∃ c, rich.xlate 0 0 .read = .error c) ∧ (∃ x, (mapped 0).xlate 0 0 .read = .ok x) ∧ (0, 0) ∉ rich.th.ln.bad :=
  ⟨rfl, rfl, rfl, by decide +kernel, ⟨by decide, by decide, rfl⟩, ⟨{ olderWord rich with seq := 4 }, .head _, rfl, by decide⟩, by decide +kernel, by decide +kernel,
    by decide +kernel, ⟨by decide, by decide, rfl⟩, ⟨_, rfl⟩, ⟨_, rfl⟩, nofun⟩

/-- An L2 line of set 0 of slice 0 in a way. -/
def l2Line (way line : Nat) : L2Line := { die := 0, slice := 0, set := 0, way := way, line := line, dirty := false }
/-- A set that is full, its lines 56 × 384 apart. -/
def fullSet : State := { rich with unc := { rich.unc with l2 := (List.range 16).map fun k => l2Line k (56 * 384 * (k + 1)) } }

theorem witness_MemoryEvents_l2 : (∀ x ∈ fullSet.unc.l2, x.line ≠ 0) ∧ fullSet.l2Ways 0 ≠ [] ∧
    (∀ w ∈ fullSet.l2Ways 0, ∃ x ∈ fullSet.unc.l2, (x.die = 0 ∧ x.slice = 0 ∧ x.set = 0) ∧ x.way = w) ∧
    (fullSet.unc.cuts.map fun c => (c.die, c.index)).Nodup ∧ (fullSet.unc.l2.map fun x => (x.die, x.slice, x.set, x.way)).Nodup ∧
    ClassIs fullSet 0 (56 * 384) 0 ∧ (∃ w ∈ rich.l2Ways 0, ∀ x ∈ rich.unc.l2, x.way ≠ w) ∧ (∃ x ∈ fullSet.unc.l2, x.line = 56 * 384 * 256 / 256) ∧
    (let c : CutEntry := { die := 0, index := 0, bits := BitVec.ofNat 128 (7 * 2 ^ 36 + 5 * 2 ^ 117 + 2 ^ 120 + 2 ^ 101) }
     CutHolds { rich with unc := { rich.unc with cuts := [c] } } 0 7 c) := by
  refine ⟨by decide +kernel, by decide +kernel, by decide +kernel, by decide +kernel, by decide +kernel, .inl ⟨fun c h => (nomatch h.1), rfl⟩, ⟨0, by decide +kernel⟩,
    ⟨l2Line 0 (56 * 384), by decide +kernel⟩, ?_⟩
  exact ⟨.head _, by decide +kernel⟩

/-- A request at the slice ALU. -/
def request : AluRequest := { pa := 0x100, bytes := 4, op := 6, ety := .i32, operand := 7 }

theorem witness_MemoryEvents_home : (rich.bankAt 0 0 0).owed = 0 ∧
    0 < ({ rich with unc := { rich.unc with banks := [{ die := 3, stack := 1, bank := 1023, owed := 1, row := none }] } }.bankAt 3 1 1023).owed ∧
    request.bytes = request.ety.fixedBits / 8 ∧ request.pa % request.bytes = 0 ∧ PlainHbm rich request.pa 4 ∧
    request.pa / 32 ∈ { rich with poison := [8] }.poison ∧ (∀ k < request.bytes, (request.pa + k) / 32 ∉ rich.poison) ∧
    (let s := { rich with sync := { rich.sync with flying := [(1, 0, 3, 9), (2, 0, 3, 9)] } }
     s.sync.flying = [(1, 0, 3, 9)] ++ (2, 0, 3, 9) :: [] ∧ ∀ e ∈ s.sync.flying, ¬ (e.1 = 3 ∧ e.2.1 = 0)) ∧
    (let q : RingPost := { die := 0, src := 1, tag := 2, value := 3, set := true, left := [55] }
     let s := { rich with sync := { rich.sync with ring := [q] } }
     s.sync.ring = [] ++ q :: [] ∧ 55 ∈ q.left ∧ s.sync.ring.Nodup) :=
  ⟨rfl, by decide +kernel, rfl, rfl, ⟨by decide, by decide, rfl⟩, by decide +kernel, by decide +kernel, ⟨rfl, by decide +kernel⟩, rfl, by decide, by decide +kernel⟩

/-- The state whose engine runs one command, held or not. -/
def copying (c : CopyCmd) : State := { mapped 0 with copies := [c] }

theorem engineSees_word (va : Word) (acc : Access) (h : va = 0x40 ∨ va = 0x100) : EngineSees (copying (command 0)) 0 0 va 8 acc va.toNat := by
  rcases h with rfl | rfl <;> refine ⟨⟨by decide, by decide, rfl⟩, fun _ _ => List.not_mem_nil, fun k hk => ?_⟩ <;>
    (interval_cases k <;> cases acc <;> rfl)

theorem witness_MemoryEvents_copies : InSlot (copying (command 0)) 0 0 (command 0) ∧ (command 0).dst.toNat % 4096 + (command 0).b0.toNat ≤ 4096 ∧
    (command 0).src.toNat + (command 0).b0.toNat ≤ (command 0).dst.toNat ∧ EngineSees (copying (command 0)) 0 0 0x40 8 .read 0x40 ∧
    EngineSees (copying (command 0)) 0 0 0x100 8 .write 0x100 ∧ (copying (command 0)).MemOk ∧
    InSlot (copying { command 15 with held := true }) 0 15 { command 15 with held := true } ∧ (command 0).owner = rich.th.bind.place ∧
    rich.th.life.inSlot = true ∧
    (let c := { command 0 with fn := 3, aw := some 0x200 }
     InSlot (copying c) 0 0 c ∧ (∀ x ∈ (copying c).copies, ¬ (x.owner = c.owner ∧ x.seq < c.seq))) :=
  ⟨⟨by decide +kernel, by decide +kernel⟩, by decide, by decide, engineSees_word 0x40 .read (.inl rfl), engineSees_word 0x100 .write (.inr rfl), rfl,
    ⟨by decide +kernel, by decide +kernel⟩, by decide +kernel, rfl, ⟨by decide +kernel, by decide +kernel⟩, by decide +kernel⟩

theorem witness_MemoryEvents_scrubs : (rich.bankAt 0 0 0).owed = 0 ∧ rich.dev.patrol.getD 7 0 = 0 ∧
    0 < ({ rich with unc := { rich.unc with banks := [{ die := 0, stack := 0, bank := 0, owed := 1, row := none }] } }.bankAt 0 0 0).owed := by decide +kernel

/-- A pod of four packages on one ring, this one at rank r. -/
def inPod (s : State) (r : Nat) : State := { s with dev := { s.dev with dims := (4, 1, 1), coords := (r, 0, 0) } }

/-- The thread has arrived at the whistle of its context. -/
def arrived (s : State) : State := s.onFab fun f => { f with arrived := true, stepTimeout := 5 }

/-- A state with a record of the whistle of context 0. -/
def whistled (s : State) (f : Whistle → Whistle) : State := { s with whistles := [f (.fresh 0)] }

/-- Two writes of two sources to one element of the window, and the state of a launch or of none. -/
def write (k launch : Nat) : DefEntry := { elem := 3, data := 7, source := (0, k), launch := launch, order := k }
/-- The window with them. -/
def twice (launch : Nat) : State :=
  { mapped 0 with windows := [{ window with rule := 2, entries := [write 0 launch, write 1 launch] }] }

theorem twoWrites (launch : Nat) (h : launch = 0 ∨ launch = 7) : TwoWrites (twice launch) 0 { window with rule := 2, entries := [write 0 launch, write 1 launch] } .i32 (write 0 launch) (write 1 launch) 0x10000C := by
  rcases h with rfl | rfl <;> exact ⟨rfl, ⟨rfl, rfl, nofun⟩, ⟨by decide, rfl, rfl⟩, ⟨rfl, rfl⟩, .inr ⟨rfl, by decide⟩, by decide +kernel,
    ⟨⟨by decide, by decide, rfl⟩, fun _ _ => List.not_mem_nil, State.keyed_plain _ _ rfl⟩⟩

/-- Every arrival of the package and of its child has come. -/
def complete (s : State) : State := whistled (arrived s) fun w => { w with counted := [0], children := [1, 3], firstAt := some 0, timeout := 9 }

theorem witness_FabricEvents_arrivals : readyB rich 0x73 { plainWord with form := .vs, vd := 8, va := 4 } = true ∧ MayArrive rich { plainWord with form := .vs, vd := 8, va := 4 } ∧
    rich.th.st.unacked = [] ∧ (∃ t, exec (.step { plainWord with form := .vs, vd := 8, va := 4 }) rich = .next t) ∧
    ((arrived rich).membersOf 0).find? (fun t => decide (t.bind.place = 0) && waits t) = some (arrived rich).th ∧
    (rich.membersOf 0).find? (fun t => decide (t.bind.place = 0) && waits t) = none ∧ (rich.whistleOf 0).counted = [] ∧
    ((complete rich).whistleOf 0).counted = [0] ∧ 1 ∉ (rich.whistleOf 0).children ∧ 1 ∈ ((complete rich).whistleOf 0).children ∧
    (inPod rich 0).dev.parent = none ∧ (inPod rich 1).dev.parent = some 0 ∧ AllIn (complete (inPod rich 0)) 0 ∧ AllIn (complete (inPod rich 2)) 0 ∧
    ¬ AllIn rich 0 ∧ Lowest [(1, 2), (0, 9)] (0, 9) :=
  ⟨by decide +kernel, ⟨rfl, by decide +kernel, by decide +kernel, by decide +kernel, ⟨rfl, rfl⟩⟩, rfl, ⟨_, rfl⟩, by decide +kernel, by decide +kernel, rfl, rfl, nofun, by decide +kernel,
    by decide +kernel, by decide +kernel, by decide +kernel, by decide +kernel, by decide +kernel, .inr ⟨by decide, by decide⟩⟩

theorem witness_FabricEvents_apply : (twice 0).MemOk ∧ TwoWrites (twice 0) 0 { window with rule := 2, entries := [write 0 0, write 1 0] } .i32 (write 0 0) (write 1 0) 0x10000C ∧
    TwoWrites (twice 7) 0 { window with rule := 2, entries := [write 0 7, write 1 7] } .i32 (write 0 7) (write 1 7) 0x10000C ∧
    ((whistled (twice 0) fun w => { w with go := true }).whistleOf 0).go = true ∧ ((whistled (twice 0) fun w => { w with go := true }).whistleOf 0).applied = false ∧
    ((whistled (arrived rich) fun w => { w with go := true, applied := true }).whistleOf 0).applied = true ∧ Alone rich ∧ rich.th.fr.regs.trccfg.getLsbD 1 = false ∧
    waits (arrived rich).th = true ∧ (∀ e ∈ [write 0 7, write 1 7], ∀ t ∈ (twice 7).th :: (twice 7).others ++ (twice 7).images, t.life.inSlot = true → t.bind.launch ≠ e.launch) ∧
    (twice 0).membersOf 0 ≠ [] ∧ (∀ x ∈ (twice 0).windows, x.entries ≠ [] ∧ ∀ e ∈ x.entries, ∃ t ∈ (twice 0).th :: (twice 0).others ++ (twice 0).images,
      t.life.inSlot = true ∧ t.bind.launch = e.launch) :=
  ⟨rfl, twoWrites 0 (.inl rfl), twoWrites 7 (.inr rfl), rfl, rfl, rfl, ⟨rfl, rfl⟩, rfl, rfl, by decide +kernel, by decide +kernel, by decide +kernel⟩

theorem witness_FabricEvents_skew : (rich.whistleOf 0).firstAt = none ∧
    (let s := whistled (arrived rich) fun w => { w with firstAt := some 0, timeout := 1 }
     s.gtime.toNat < 0 + (s.whistleOf 0).timeout ∧ ({ s with gtime := 1 }).dev.parent = none ∧ ¬ AllIn { s with gtime := 1 } 0 ∧
       0 + (s.whistleOf 0).timeout ≤ ({ s with gtime := 1 }).gtime.toNat ∧ s.th.fr.viq = [] ∧ waits s.th = true ∧ s.th.life = .running) ∧
    (∀ t ∈ (whistled rich fun w => { w with firstAt := some 0 }).membersOf 0, waits t = false) := by decide +kernel

/-- A deferred write of another package, and a read. -/
def farWrite : RemoteWrite := { ctx := 0, handle := 3, elem := 32767, bytes := 4, data := 9, rank := 1, place := 0, launch := 0, order := 0 }
/-- A read of the last bytes of the window. -/
def farRead : RemoteRead := { ctx := 0, handle := 3, offset := 131068, bytes := 4, rank := 1, store := true }
/-- The state with the window in a pod. -/
def exported : State := inPod remote 0

theorem witness_FabricEvents_remote : (exported.windows.filter fun x => decide (x.ctx = 0) && x.freeing.isNone).find? (fun x => x.handle = farWrite.handle) = some window ∧
    window.elemBytes = farWrite.bytes ∧ farWrite.elem * farWrite.bytes < window.len ∧ window.len ≤ (farWrite.elem + 1) * farWrite.bytes ∧
    (∀ x ∈ rich.windows, x.handle ≠ 3) ∧ (∀ x ∈ exported.whistles, x.ctx = window.ctx → x.skewed = false) ∧
    (∃ x ∈ (whistled exported fun w => { w with skewed := true }).whistles, x.ctx = window.ctx ∧ x.skewed = true) ∧
    window.pages[farRead.offset / 65536]? = some 0x120000 ∧ farRead.offset + farRead.bytes ≤ window.len ∧ window.len < farRead.offset + 1 + farRead.bytes ∧
    0x12FFFC / 32 ∈ { exported with poison := [0x97FF] }.poison ∧ farRead.offset < window.len ∧
    (∃ p, exported.walk (exported.walkerOf 0) (window.base + word (farRead.offset / 65536 * 65536)) = .ok p ∧ p.kind = 3 ∧ exported.leafOk (exported.walkerOf 0) p .write = true) ∧
    (∃ t ∈ exported.th :: exported.others ++ exported.images, t.bind.ctx = 0 ∧ t.life.inSlot = true) ∧
    (∀ t ∈ State.reset.th :: State.reset.others ++ State.reset.images, ¬ (t.bind.ctx = 0 ∧ t.life.inSlot = true)) :=
  ⟨by decide +kernel, rfl, by decide, by decide, nofun, nofun, ⟨{ Whistle.fresh 0 with skewed := true }, .head _, rfl, rfl⟩, rfl, by decide, by decide, by decide,
    by decide, ok_of (fun p => p.kind = 3 ∧ exported.leafOk (exported.walkerOf 0) p .write = true) (by decide +kernel), by decide +kernel, by decide +kernel⟩

theorem witness_FabricEvents_answers : ((rich.onFab fun f => { f with sent := [(1, farWrite, false)] }).th.fab.sent[0]? = some (1, farWrite, false)) ∧
    (2 ^ 40, []) ∈ (rich.onFab fun f => { f with remoteData := [(2 ^ 40, [])] }).th.fab.remoteData ∧ (2 ^ 40, []) ∉ rich.th.fab.remoteData ∧
    (∀ t ∈ rich.th :: rich.others ++ rich.images, ∀ x ∈ t.fab.sent, x.2.2 = false) ∧ (∀ k < 256, ∃ x ∈ (List.range 256).map (fun k => (0, k)), x.1 = 0 ∧ x.2 = k) ∧
    (rich.onFab fun f => { f with sent := [(1, farWrite, true)] }).th.fab.sent = [(1, farWrite, true)] ∧ farWrite.elem * farWrite.bytes / 65536 = 1 := by
  refine ⟨rfl, by decide +kernel, by decide +kernel, by decide +kernel, fun k hk => ⟨(0, k), by simp [hk], rfl, rfl⟩, rfl, rfl⟩

/-- A context with a communicator of two members, the second at rank 1, and stream register 0 bound to it. -/
def streaming (send : Bool) (stage : List Chunk) : State :=
  let c : Ctx := { context with comms := [{ pair_ with members := 2 }] }
  let s := { launched rich with ctxs := [c], hub := { rich.hub with launches := [{ ownLaunch with homes := [(0, 0, 0), (8, 0, 0)] }] } }
  (inPod s 0).onFab fun f => { f with fs := vecSet f.fs 0 { bound := true, send := send, lost := false, comm := 0, offset := 1, rx := [], granted := 8, stage := stage } }

/-- Data from member 1, with the SEQ of its flit. -/
def message (seq : Nat) : StreamMsg := ({ src := 1, seq := seq, comm := 0, sender := 1, receiver := 0 } : StreamHead).msg 0 0 [1, 2, 3, 4]

theorem witness_FabricEvents_streams : gateIs (streaming false []) 1 0 0 [] ∧ gateIs (streaming false []) 1 0 ((message 0).seq % 65536) [] ∧ (message 1).seq % 65536 ≠ 0 ∧
    Receives (streaming false []) (message 0) 0 ∧ (message 0).data.length + (message 1).data.length ≤ (streamOf (streaming false []) 0).granted ∧
    16376 ≤ 16384 - (streamOf (streaming false []) 0).rx.length - (streamOf (streaming false []) 0).granted ∧
    16384 - (streamOf (streaming false []) 0).rx.length - (streamOf (streaming false []) 0).granted < 16377 ∧
    (streaming false []).memberHome 0 0 1 = some (8, 0, 0) ∧ (∀ t ∈ rich.th :: rich.others ++ rich.images, rich.isMember 0 0 0 t = false) ∧
    (let s := streaming true [{ size := 1, admitted := true, bytes := [5] }]
     let x := streamOf s 0
     x.bound = true ∧ x.send = true ∧ x.lost = false ∧ s.peerOf x = some 1 ∧ s.memberIndex 0 = some 0 ∧ s.memberHere 0 0 1 = false ∧ s.isMember 0 0 0 s.th = true ∧
       s.unc.asks = [] ∧ Alone s) := by
  refine ⟨rfl, rfl, by decide, ⟨by decide +kernel, by decide, by decide +kernel⟩, ?_, ?_, ?_, ?_, ?_, ?_⟩
  case refine_6 =>
    refine ⟨?_, ?_, ?_, ?_, ?_, ?_, ?_, rfl, ⟨rfl, rfl⟩⟩
    all_goals decide +kernel
  all_goals decide +kernel

theorem witness_FabricEvents_ends : (let x := { window with freeing := some [1, 2] }
     ({ rich with windows := [x] }).windows = [] ++ x :: [] ∧ x.freeing = some [1, 2] ∧ ∀ y ∈ rich.windows, ¬ (y.ctx = 0 ∧ y.handle = 3)) ∧
    (streaming false []).sameComm 0 0 0 = true ∧ (streaming false []).sameComm 0 0 1 = false ∧ (5 < 6 ∧ 3 < (inPod rich 0).dev.packages ∧ ¬ 4 < (inPod rich 0).dev.packages) ∧
    (3, 5) ∉ (inPod rich 0).dev.portsDown ∧ (inPod rich 0).ctxs = [] :=
  ⟨⟨rfl, rfl, nofun⟩, by decide +kernel, by decide +kernel, by decide +kernel, nofun, rfl⟩

/-! A launch from the queue to its completion record, step by step: CREATE, LOAD, LAUNCH, binding, dispatch, start, two words, end. -/

/-- What an instruction or event answers, where it answers a next state. -/
def next (o : Host.Outcome State Fault Refusal) : State := match o with | .next t => t | _ => State.reset
/-- Bytes with some fields (offset, bytes, value) in place of zeros. -/
def fields (n : Nat) (xs : List (Nat × Nat × Nat)) : List Byte :=
  xs.foldl (fun e x => e.take x.1 ++ leBytes x.2.1 x.2.2 ++ e.drop (x.1 + x.2.1)) (List.replicate n 0)
/-- A code object of one page of TEXT that holds `addi s1, s0, 5` and `end` (13 Tables 13.9, 13.10). -/
def objectFields : List (Nat × Nat × Nat) := [(0, 4, 0x004F434E), (4, 2, 1), (6, 1, 3), (8, 2, 1), (16, 8, 64), (24, 8, 96), (32, 8, 104),
  (64, 2, 1), (66, 2, 26), (72, 8, 96), (80, 8, 8), (96, 4, 0x04080005), (100, 4, 0x70000009)]
/-- Its bytes. -/
def objectFile : List Byte := fields 104 objectFields
/-- CREATE, LOAD and LAUNCH entries of context 1 (13 Tables 13.3, 13.4). -/
def createFields : List (Nat × Nat × Nat) := [(0, 1, 2), (2, 1, 2), (14, 2, 1), (18, 2, 4), (20, 2, 2), (24, 8, 0x1000000), (40, 8, 0x30000000),
  (48, 8, 4096), (56, 8, 0x20000100), (72, 8, 0x1000000), (80, 7, 3), (200, 8, 77)]
/-- Its bytes. -/
def createBytes : List Byte := fields 256 createFields
/-- LOAD. -/
def loadFields : List (Nat × Nat × Nat) := [(0, 1, 3), (14, 2, 1), (24, 8, 0x20001000), (32, 8, 104), (40, 8, 0x10000), (56, 8, 0x20000120), (200, 8, 78)]
/-- Its bytes. -/
def loadBytes : List Byte := fields 256 loadFields
/-- LAUNCH. -/
def launchFields : List (Nat × Nat × Nat) := [(0, 1, 1), (1, 1, 1), (3, 1, 3), (5, 1, 1), (7, 1, 16), (10, 2, 64), (14, 2, 1), (32, 8, 0x10000),
  (56, 8, 0x20000140), (64, 8, 1), (128, 8, 5), (200, 8, 79)]
/-- Its bytes. -/
def launchBytes : List Byte := fields 256 launchFields
/-- Memory with the entries, the file and the context's page tables. -/
def hosted : State := { State.reset with mem := [(0x1000000, [(0, 8, 0x1010001)]), (0x1010000, [(0, 8, 0x1020001), (8, 8, 0x20000017)]),
  (0x20001000, objectFields), (0xF0000000000, createFields), (0xF0000000100, loadFields), (0xF0000000200, launchFields)].foldl (fun m p =>
    p.2.foldl (fun m x => memPut m (p.1 + x.1) (leBytes x.2.1 x.2.2)) m) [] }

/-- The pages of the LOAD, and the gang's place. -/
def pages : LoadPlan := { die := 0, pages := [0x2000000], ptes := [(0x1020008, 0x200001B)] }
/-- The gang. -/
def gang : BindPlan := { first := 0, places := [(0, 0, 0)], images := [0x40000000], runs := [], elsewhere := [], start := 0, refused := none }
/-- The image areas of the context on the four dies. -/
def areas : List (Nat × Nat) := (List.range 4).map fun d => (d * 2 ^ 38 + 0x40000000, 0x100000)

/-- The states between. -/
def rung : State := next (execDoorbellWrite 3 hosted)
/-- CREATE taken. -/
def taken1 : State := next (execEntryTake rung)
/-- The context is created; Eloaler's choice of its image areas, a free value, is these. -/
def created : State :=
  let s := next (execCreate taken1)
  { s with ctxs := s.ctxs.map fun c => { c with images := areas, used := areas.map (·.2) } }
/-- LOAD taken. -/
def taken2 : State := next (execEntryTake created)
/-- LAUNCH taken. -/
def taken3 : State := next (execEntryTake (next (execLoad pages taken2)))
/-- The launch is queued. -/
def queuedUp : State := next (execLaunch taken3)
/-- Its gang's record is written. -/
def recorded : State := next (execGangBind 0 gang queuedUp)
/-- Dispatch has accepted it. -/
def accepted : State := next (execBindRecordValid 0 0 recorded)
/-- GO is set, and the time has come. -/
def going : State := { next (execGangBind 0 gang accepted) with gtime := 2000 }
/-- The thread runs. -/
def running : State := next (execThreadStart 0 0 going)
/-- Its two words have run. -/
noncomputable def finished : State := next (step (next (step running)))
/-- What other packages add: nothing. -/
def nothingElse : LaunchShare := { ended := 0, flags := 0, firstFatal := none, status := 0, code := 0, unc := false, report := [] }
/-- Four doubles of memory. -/
def doubles4 (s : State) (a : Nat) : List Nat := (List.range 4).map fun k => leNat (memBytes s.mem (a + 8 * k) 8)

/-- 13 R381, R382, R384, R401: the context and the object are there, and their records say OK. -/
theorem test_create_and_load : (taken2.ctxs.map fun c => (c.id, c.syncN)) = [(1, 4)] ∧ doubles4 taken2 0x20000100 = [1, 77, 0, 0] ∧
    (taken3.ctxs.map fun c => c.objs.length) = [1] ∧ doubles4 taken3 0x20000120 = [1, 78, 0, 0] ∧ taken3.byteAt 0x2000000 = 5 := by decide +kernel

/-- 13 R395, R399, R402; 03 R69; 04 R103; 13 R397: the thread starts at ENTRY, runs its words and ends, and the launch completes with OK and one
thread ended. -/
theorem test_launch_runs : running.th.life = .running ∧ running.th.fr.spc = 0x10000 ∧ (next (step running)).rd 1 = 5 ∧ finished.th.life = .ended ∧
    doubles4 (next (exec (.launchComplete ⟨0, nothingElse⟩) finished)) 0x20000140 = [2 ^ 24 + 1, 79, finished.gtime.toNat, 2 ^ 64 - 1] := by decide +kernel

/-- A launch of the state, where there is one. -/
def theLaunch (s : State) : Launch := (s.hub.launches.find? fun l => l.number = 0).getD ownLaunch

/-- 13 R393, Table 13.12: on cores 8 to 15 of die 1, with cluster 0 of core 8 taken, the six threads of width 2 go to cores 9, 10 and 11. -/
theorem test_placement :
    let entry := fields 256 [(0, 1, 1), (1, 1, 2), (2, 1, 1), (4, 1, 0x10), (6, 1, 2), (7, 1, 16), (8, 2, 1500), (14, 2, 5), (64, 8, 0x1100000002), (72, 8, 0x2300000003)]
    let s : State := { State.reset with
      ctxs := [{ context with id := 5, cores := BitVec.ofNat 224 (255 * 2 ^ 64) }], mem := memPut [] (0xF0000210000 + 64 * 32) (leBytes 8 0x801) }
    s.defaultPlaces [] { ownLaunch with entry := entry, ctx := 5, threads := 6, boundTo := 0, homes := [] } =
      some [(1, 9, 0), (1, 9, 2), (1, 10, 0), (1, 10, 2), (1, 11, 0), (1, 11, 2)] := by decide +kernel

theorem witness_LaunchEvents_entries : (hosted.hub.avail - hosted.hub.taken).toNat ≤ ((3 : BitVec 32) - hosted.hub.taken).toNat ∧
    4096 < ((4097 : BitVec 32) - hosted.hub.taken).toNat ∧ rung.hub.avail ≠ rung.hub.taken ∧ 7 ≤ rung.dev.step ∧
    (memGet rung.mem (queueAt (rung.hub.taken.toNat % 4096))).toNat = 2 ∧ taken1.hub.entries = [(0, createBytes)] ∧ taken2.hub.entries = [(1, loadBytes)] ∧
    taken3.hub.entries = [(2, launchBytes)] ∧ taken1.createCodes createBytes = [] ∧ taken1.ctxs = [] ∧
    (∀ c ∈ taken2.ctxs, loadCode c pages.die objectFile = 0) ∧ taken3.dev.locked = true ∧ (∀ c ∈ taken3.ctxs, taken3.launchCodes c launchBytes = []) ∧
    (memGet hosted.mem (queueAt 3)).toNat ∉ [1, 2, 3, 4, 5] := by decide +kernel

theorem witness_LaunchEvents_binding : queuedUp.planOk (theLaunch queuedUp) gang = true ∧ (theLaunch queuedUp).binding = none ∧
    (queuedUp.bindAllWays 1 0 gang).isSome = true ∧ (theLaunch recorded).binding = some gang ∧ statusWord recorded 0 0 % 4 = 0 ∧ slotWord recorded 0 0 0 % 2 = 1 ∧
    (recorded.bindingAt 0 0).isSome = true ∧ recorded.dispatchCode 0 0 = 0 ∧ statusWord accepted 0 0 % 4 = 1 ∧ recorded.joined (theLaunch recorded) = [] ∧
    going.th.isAt 0 = true ∧ going.th.life = .bound ∧ slotWord going 0 0 0 / 2 ^ 58 % 2 = 1 ∧ slotWord going 0 0 6 ≤ going.gtime.toNat ∧
    going.gtime ≤ going.th.bind.deadline ∧ going.saved = [] ∧ finished.launchOver (theLaunch finished) = true := by decide +kernel

theorem witness_LaunchEvents_ends : (taken3.ctxs.map fun c => c.objs.map fun o => (o.handle, o.retiring)) = [[(0, false)]] ∧
    (∀ c ∈ taken3.ctxs, c.comms = [] ∧ c.runs = [] ∧ ∀ o ∈ c.objs, o.complete = none) ∧ (∀ t ∈ taken3.th :: taken3.others, t.bind.ctx ≠ 1) ∧ taken3.images = [] ∧
    taken3.hub.launches = [] ∧ taken3.copies = [] ∧ (theLaunch queuedUp).boundTo = 0 ∧ (theLaunch queuedUp).report = [] ∧
    (∀ c ∈ queuedUp.ctxs, c.runs = []) ∧ queuedUp.saved = [] ∧
    (let s := next (exec .unload { taken3 with hub := { taken3.hub with entries := [(9, fields 256 [(0, 1, 4), (14, 2, 1)])] } })
     ∀ c ∈ s.ctxs, ∀ o ∈ c.objs, o.retiring = true ∧ s.objInUse c.id o = false) := by decide +kernel

/-! ### A context's address that stays mapped whatever its bytes hold -/

/-- A context whose page table maps the 512 MiB at 0x20000000 to themselves. -/
def paged : State := { rich with mem := [(0x1000000, 1), (0x1000002, 1), (0x1000003, 1), (0x1010008, 0x17), (0x101000B, 0x20)]
                                 ctxs := [{ context with ptroot := 0x1000000 }] }

theorem memBytes_apart {m n : Memory} {a c len : Nat} (h : ∀ b, b < c ∨ c + len ≤ b → memGet m b = memGet n b) (k : Nat) (ha : a + k ≤ c ∨ c + len ≤ a) :
    memBytes m a k = memBytes n a k := by
  induction k generalizing a with
  | zero => rfl
  | succ k ih => simp only [memBytes]; rw [h a (by omega), ih (by omega)]

theorem target_plain {u : State} {pa ctx : Nat} (hf : u.unc.fmtWins = []) (h : pa < 2 ^ 38) (hb : pa % 2 ^ 38 < 2 ^ 37) : u.target ctx pa = .cell pa := by
  unfold State.target
  rw [if_pos (by omega), if_pos ⟨hb, by rw [hf]; simp [viewHit]⟩]

theorem readPte_plain {u : State} {node idx : Nat} (hf : u.unc.fmtWins = []) (hp : u.poison = []) (h : node + 8 * idx < 2 ^ 37) :
    u.readPte node idx = .ok (word (leNat (memBytes u.mem (node + 8 * idx) 8))) := by
  simp [State.readPte, target_plain hf (show node + 8 * idx < 2 ^ 38 by omega) (by omega), State.poisoned, hp]

/-- A walk that ends at level 1. -/
theorem walk_large {u : State} {k : Walker} {va e2 e1 : Word} (hc : canonical va = true) (h2 : u.readPte k.ptroot (bitsOf va 54 42) = .ok e2)
    (o2 : pteOk e2 = true ∧ bitsOf e2 4 4 ≠ 1) (h1 : u.readPte (bitsOf e2 43 16 * 65536) (bitsOf va 41 29) = .ok e1)
    (o1 : pteOk e1 = true ∧ bitsOf e1 4 4 = 1 ∧ bitsOf e1 28 16 = 0) :
    u.walk k va = .ok (pageOf e1 29 (bitsOf e2 43 16 * 65536 + 8 * bitsOf va 41 29)) := by
  simp [State.walk, hc, h2, o2, h1, o1, bind, Except.bind, pure, Except.pure]

theorem bits_of_mapped (k : Nat) (hk : k < 32) : let va := 0x20000100 + word k
    canonical va = true ∧ bitsOf va 54 42 = 0 ∧ bitsOf va 41 29 = 1 ∧ va.toNat % 2 ^ 29 = 0x100 + k := by
  have : ∀ j : Fin 32, let va := 0x20000100 + word j
    canonical va = true ∧ bitsOf va 54 42 = 0 ∧ bitsOf va 41 29 = 1 ∧ va.toNat % 2 ^ 29 = 0x100 + j := by decide
  exact this ⟨k, hk⟩

theorem entries_of_taken : memBytes paged.mem 0x1000000 8 = leBytes 8 0x1010001 ∧ memBytes paged.mem 0x1010008 8 = leBytes 8 0x20000017 ∧
    paged.unc.fmtWins = [] ∧ paged.poison = [] ∧ (paged.walkerOf 0).ptroot = 0x1000000 ∧ (paged.ctxs.find? fun c => c.id = 0).isSome = true := by
  decide +kernel

theorem witness_LaunchEvents_mapped : Mapped paged 0 0x20000100 0x20000100 32 := by
  obtain ⟨e2, e1, hf, hp, hr, hc⟩ := entries_of_taken
  refine ⟨⟨by decide, by decide, hf⟩, fun u hu huf hup hm k hk => ?_⟩
  have hup' : u.poison = [] := List.eq_nil_iff_forall_not_mem.2 fun g hg => by have := hup g hg; rw [hp] at this; cases this
  have hctx : u.ctxs = paged.ctxs := by have := congrArg State.ctxs hu; exact this
  have hth : u.th = paged.th := by have := congrArg State.th hu; exact this
  have hw : u.walkerOf 0 = paged.walkerOf 0 := by unfold State.walkerOf State.walker; rw [hctx, hth]
  have hm' : ∀ b, b < 0x20000100 ∨ 0x20000100 + 32 ≤ b → memGet u.mem b = memGet paged.mem b := hm
  have f2 : memBytes u.mem 0x1000000 8 = leBytes 8 0x1010001 := by rw [memBytes_apart hm' 8 (by decide), e2]
  have f1 : memBytes u.mem 0x1010008 8 = leBytes 8 0x20000017 := by rw [memBytes_apart hm' 8 (by decide), e1]
  obtain ⟨hca, h2, h1, h0⟩ := bits_of_mapped k hk
  obtain ⟨c, hc'⟩ := Option.isSome_iff_exists.1 hc
  have r2 : u.readPte (u.walkerOf 0).ptroot (bitsOf (0x20000100 + word k) 54 42) = .ok (word (leNat (leBytes 8 0x1010001))) := by
    rw [hw, hr, h2, readPte_plain huf hup' (by decide)]; exact congrArg (fun x => Except.ok (word (leNat x))) f2
  have r1 : u.readPte (bitsOf (word (leNat (leBytes 8 0x1010001))) 43 16 * 65536) (bitsOf (0x20000100 + word k) 41 29) =
      .ok (word (leNat (leBytes 8 0x20000017))) := by
    rw [h1, show bitsOf (word (leNat (leBytes 8 0x1010001))) 43 16 * 65536 = 0x1010000 by decide, readPte_plain huf hup' (by decide)]
    exact congrArg (fun x => Except.ok (word (leNat x))) f1
  have hwalk := walk_large hca r2 (by decide) r1 (by decide)
  have hk' : u.lineKeys = [] := by have := congrArg State.lineKeys hu; exact this
  obtain ⟨p, hpage, pb, pl, pk⟩ : ∃ p, u.ctxPage 0 (0x20000100 + word k) = some p ∧ p.base = 0x20000000 ∧ p.log = 29 ∧ p.key = 0 :=
    ⟨_, by unfold State.ctxPage; rw [hctx, hc', hwalk], rfl, rfl, rfl⟩
  constructor
  · simp only [State.ctxCell, State.ctxPhys, hpage, Option.map_some, Option.bind_some, pb, pl, h0]
    rw [target_plain huf (by omega) (by omega), ← Nat.add_assoc]
  · intro m _
    simp only [State.ctxKeyed, hpage, pk]
    exact State.keyed_plain _ _ hk'

theorem witness_LaunchEvents_memory : hosted.MemOk ∧ recorded.MemOk := by unfold State.MemOk; decide +kernel

/-! ### The device -/

/-- The page table's context with some changes. -/
def withContext (f : Ctx → Ctx) : State := { paged with ctxs := paged.ctxs.map f }
/-- A package of two on the X ring, booted, with one queue pair and the source of time's lock gone. -/
def booted : State := { paged with dev := { paged.dev with power := true, step := 7, dims := (2, 1, 1), qps := [{ port := 1, qp := 5, error := false }] } }
/-- The same with a change of the device. -/
def withDev (f : Device → Device) : State := { booted with dev := f booted.dev }
/-- A trace ring of 64 KiB. -/
def emptyRing : Ring := { base := 0x20000000, log := 16, prod := 0, seq := 0, truncated := false, pending := [] }

theorem witness_DeviceEvents_links : Live booted 1 5 ∧ ¬ Live booted 1 6 ∧ booted.MemOk ∧
    (booted.dev.qps.filter fun q => q.port = 0).length < 256 ∧ (∀ q ∈ booted.dev.qps, ¬ (q.port = 0 ∧ q.qp = 5)) ∧
    (booted.dev.credential.map BitVec.toNat).map (BitVec.ofNat 8) = booted.dev.credential ∧ 0x10000 ≤ 0x10000 ∧
    booted.hostRange 0 .write 0x200000FE 4 = true ∧ booted.hostRange 0 .read 0x200000FE 4 = true ∧ booted.hostRange 0 .write 0x1FFFFFFE 4 = false ∧
    booted.hostRange 0 .read 0x1FFFFFFE 4 = false ∧ (∃ t, exec (.doorbellWrite (BitVec.ofNat 32 (leNat [1, 0, 0, 0]))) booted = .next t) ∧ booted.poison = [] :=
  ⟨⟨_, .head _, rfl, rfl, rfl⟩, (by rintro ⟨q, h, h1, h2, -⟩; simp [booted] at h; subst h; cases h2), rfl, by decide +kernel, by decide +kernel, by decide +kernel,
    by decide, by decide +kernel, by decide +kernel, by decide +kernel, by decide +kernel, ⟨_, rfl⟩, rfl⟩

/-- A flash image of a header alone, whose key is 32 zeros, and the device that holds it and the key's digest. -/
def headerOnly : List Byte := leBytes 4 0x4C4F4C45 ++ List.replicate 252 0
/-- That device, without power. -/
def flashed : Device :=
  { State.reset.dev with power := false, rollback := 0, flash := [headerOnly], revoked := [false], digests := [sha512 (List.replicate 32 0)] }

/-- A flash image is accepted whose signature verifies: 64 zeros under the key of 32 zeros, a point of order 4 (14 R410; RFC 8032). -/
theorem witness_DeviceEvents_boot : flashed.power = false ∧ (flashed.flash.find? fun x => flashed.acceptsImage x) = some headerOnly := by decide +kernel

theorem witness_DeviceEvents_device : (∀ img ∈ (withDev fun d => { d with flash := [[]] }).dev.flash, (withDev fun d => { d with flash := [[]] }).dev.acceptsImage img = false) ∧
    (let d := (withDev fun d => { d with step := 5, failed := none }).dev
     Next d 0 { dx := 2, dy := 1, dz := 1, x := 1, y := 0, z := 0 } ∧ ¬ Next d 0 { dx := 2, dy := 1, dz := 1, x := 0, y := 0, z := 0 } ∧ portsOf d = [0, 1]) ∧
    (withDev fun d => { d with locked := false }).dev.locked = false ∧ (withDev fun d => { d with locked := true }).dev.locked = true ∧
    (∃ c, ctxIs (withContext fun c => { c with conf := true }) 0 c ∧ c.conf = true) ∧ (∀ c, ctxIs paged 0 c → c.conf = false) ∧
    (∀ c ∈ paged.ctxs, paged.hasThread c = true) ∧ (∀ c ∈ (withContext fun c => { c with id := 9 }).ctxs, paged.hasThread c = false) ∧
    (∃ c ∈ (withContext fun c => { c with key := 5 }).ctxs, c.key = 5) ∧ (∀ c ∈ paged.ctxs, c.key ≠ 5) := by
  refine ⟨by decide +kernel, by unfold Next; decide +kernel, by decide +kernel, by decide +kernel, ⟨_, by unfold ctxIs; rfl, rfl⟩, ?_, by decide +kernel, by decide +kernel,
    ⟨_, .head _, rfl⟩, by decide +kernel⟩
  intro c h; unfold ctxIs at h; cases h; rfl

theorem witness_DeviceEvents_debug : Open paged 0 ∧ ¬ Open (withContext fun c => { c with conf := true }) 0 ∧ (∃ c ∈ paged.ctxs, c.id = 0) ∧ (∀ c ∈ paged.ctxs, c.id ≠ 1) ∧
    Alone paged ∧ paged.th.life = .running ∧ (withLife paged .stopped).th.life = .stopped ∧ paged.gtime ≤ paged.th.fr.regs.dline ∧ (∀ e ∈ paged.older, e.issued = false) ∧
    paged.saved = [] ∧ paged.th.isAt 0 = true ∧ Open (withLife paged .stopped) 0 ∧ (logged true).th.fr.viq.length = 1 ∧ fmtAccept 0 = true ∧ fmtAccept 3 = false ∧ crReserved 0x0A1 = 0 ∧
    paged.th.bind.tg = true ∧ (1 : Word) &&& crReserved 0 = 0 := by
  refine ⟨⟨_, .head _, rfl, rfl⟩, ?_, ⟨_, .head _, rfl⟩, by decide +kernel, ⟨rfl, rfl⟩, rfl, rfl, by decide +kernel, by decide +kernel, rfl, by decide +kernel,
    ⟨_, .head _, rfl, rfl⟩, rfl, ?_, ?_, ?_, rfl, ?_⟩
  · rintro ⟨c, h, -, h2⟩; simp [withContext, paged] at h; subst h; cases h2
  all_goals decide +kernel

theorem witness_DeviceEvents_trace : (let s := withContext fun c => { c with ring := some emptyRing }
     ∃ c, ctxIs s 0 c ∧ c.ring = some emptyRing ∧ c.conf = false ∧ emptyRing.truncated = false ∧ [1, 2].length * 8 ≤ s.ringFree 0 emptyRing) ∧
    (let r := { emptyRing with pending := [1] }
     let s := withContext fun c => { c with conf := true, tenant := [1], ring := some r }
     ∃ c, ctxIs s 0 c ∧ c.ring = some r ∧ c.conf = true ∧ c.tenant ≠ [] ∧ r.pending ≠ [] ∧ 4096 ≤ s.ringFree 0 r) ∧
    (∃ c, ctxIs paged 0 c ∧ c.ring = none) ∧ paged.th.life.inSlot = true := by
  refine ⟨⟨_, by unfold ctxIs; rfl, rfl, rfl, rfl, ?_⟩, ⟨_, by unfold ctxIs; rfl, rfl, rfl, by simp, by simp, ?_⟩, ⟨_, by unfold ctxIs; rfl, rfl⟩, rfl⟩ <;> decide +kernel

/-- The n bytes of a number, the highest first. -/
def bytesOf (n v : Nat) : List Byte := (leBytes n v).reverse

/-- FIPS 180-4: the digest of "abc". -/
theorem test_sha512 : sha512Bytes [0x61, 0x62, 0x63] = bytesOf 64 (0xddaf35a193617abacc417349ae20413112e6fa4e89a97ea20a9eeee64b55d39a * 2 ^ 256 +
    0x2192992a274fc1a836ba3c23a3feebbd454d4423643ce80e2a9ac94fa54ca49f) := by decide +kernel

/-- RFC 8032, 7.1, TEST 1: the signature of the empty message verifies, and of another message it does not. -/
theorem test_ed25519 : let key := bytesOf 32 0xd75a980182b10ab7d54bfed3c964073a0ee172f3daa62325af021a68f707511a
    let sig := ed25519Sign (bytesOf 32 0x9d61b19deffd5a60ba844af492ec2cc44449c5697b326919703bac031cae7f60) []
    sig = bytesOf 64 (0xe5564300c360ac729086e2cc806e828a84877f1eb8e5d974d873e06522490155 * 2 ^ 256 +
      0x5fb8821590a33bacc61e39701cf9b46bd25bf5f0595bbe24655141438e7a100b) ∧ ed25519Verify key [] sig = true ∧ ed25519Verify key [1] sig = false := by decide +kernel

/-- RFC 7748, 5.2: the first vector. -/
theorem test_x25519 : x25519 (bytesOf 32 0xa546e36bf0527c9d3b16154b82465edd62144c0ac1fc5a18506a2244ba449ac4)
    (bytesOf 32 0xe6db6867583030db3594c1a424b15f7c726624ec26b3353b10a903a6d0ab1c4c) =
    bytesOf 32 0xc3da55379de9c6908e94ea4df28d084f32eccf03491c71f754b4075577a28552 := by decide +kernel

/-- The 256-bit test case 14 of the specification of GCM. -/
theorem test_gcm : gcmSeal (List.replicate 32 0) (List.replicate 12 0) [] (List.replicate 16 0) =
    (bytesOf 16 0xcea7403d4d606b6e074ec5d3baf39d18, bytesOf 16 0xd0d1c8a799996bf0265b98b5d48ab919) := by decide +kernel


/-- A published known answer of AES-256-XTS: unit 255 of the bytes 0, 1, 2, …, and back (00 R3). -/
theorem test_xts : let key := BitVec.ofNat 512 (leNat (bytesOf 32 0x2718281828459045235360287471352662497757247093699959574966967627
      ++ bytesOf 32 0x3141592653589793238462643383279502884197169399375105820974944592))
    let plain := (List.range 32).map (BitVec.ofNat 8)
    xtsUnit true key 255 plain = bytesOf 32 0x1c3b3a102f770386e4836c99e370cf9bea00803f5e482357a4ae12d414a3e63b ∧
      xtsUnit false key 255 (xtsUnit true key 255 plain) = plain := by decide +kernel

/-! Witnesses of clauses on lane words, stores outside memory, lanes and steps that issue by their events, and what ends a launch. -/

/-- Lane 0 of a section whose code is in the mapped page, before memory or behind an open entry. -/
def laneIn (k : Nat) : State := (mapped k).onFr fun f => { f with curLane := some 0, lanes := some laneCode, spc := 0x2000 }

/-- What a lane's store of eight bytes at 0x100 enters. -/
def laneWrite : ElemWrite :=
  { index := 0, cluster := 0, bytes := (List.range 8).map fun x => (0x100 + x, 0), value := leBytes 8 0, mark := 3, order := (laneIn 0).scalarOrder }

theorem witness_LaneWords_memory : (∃ ext, loadForm (.ldI64 5 0 0x100) = some (8, ext, 5, 0, 0x100)) ∧ storeForm (.stI64 0 5 0x100) = some (8, 0, 5, 0x100) ∧
    (laneIn 0).th.fr.curLane = some 0 ∧ (laneIn 0).scalarCheck 0x100 8 .read = (laneIn 0, .ok (0x100, 0)) ∧
    (laneIn 0).scalarCheck 0x100 8 .write = (laneIn 0, .ok (0x100, 0)) ∧ (laneIn 0).loadPoison 0x100 0 8 = false ∧ PlainHbm (laneIn 0) 0x100 8 ∧
    (laneIn 0).th.st.entries = [] ∧ (laneIn 0).overAllowance none [laneWrite] = false ∧ (laneIn 0).lacksEntries none [laneWrite] = false :=
  ⟨⟨_, rfl⟩, rfl, rfl, rfl, rfl, rfl, ⟨by decide, by decide, rfl⟩, rfl, by decide +kernel, by decide +kernel⟩

theorem witness_LaneWords_branches : indirectForm (.ret 5) = some (5, 0x70000006, false) ∧ laneCode.wordAt 0x2000 = some 0x04080005 ∧
    { laneCode with code := leBytes 4 0x70000006 ++ leBytes 4 0 }.wordAt 0x2000 = some 0x70000006 ∧ ((withReg (laneIn 0) 5 0x2000).rd 5).toNat % 4 = 0 ∧
    laneCode.wordAt 0x2008 = none ∧ (∃ i, decode32 0x70000009 = .ok i ∧ laneLegal (laneIn 0) i = false) ∧ (∃ x, decode32 0 = .error x) :=
  ⟨rfl, by decide +kernel, by decide +kernel, by decide +kernel, by decide +kernel, ⟨.endThread, by decide +kernel, by decide +kernel⟩, ⟨_, rfl⟩⟩

/-- The state whose page 0 stands for a physical page of a KIND. -/
def placed (kind pa : Nat) : State :=
  { rich with ctxs := [context], unc := { rich.unc with tlb := (List.range 5).map fun c => { pageZero kind c with pa := pa } } }
/-- The sync window of die 0. -/
def syncPage : State := placed 1 (2 ^ 40 + 0x08000000)
/-- A page of a window of eight-byte elements. -/
def dsPage : State := { placed 3 0x100000 with windows := [{ window with ety := 3 }] }

theorem witness_ScalarStores_places : syncPage.scalarCheck 8 8 .write = (syncPage, .ok (2 ^ 40 + 0x08000008, 1)) ∧
    syncPage.target syncPage.th.bind.ctx (2 ^ 40 + 0x08000008) = .sync 0 1 0 ∧ syncPage.unsafeOlder = false ∧
    dsPage.scalarCheck 8 8 .write = (dsPage, .ok (0x100008, 3)) ∧ (dsPage.windowAt 0 0x100008).isSome = true ∧ dsPage.skewed = false ∧
    dsPage.unsafeOlder = false ∧ Cells dsPage 0x100008 8 0x100008 ∧ Cells (mapped 0) 0x100 8 0x100 := by
  refine ⟨rfl, by decide +kernel, rfl, rfl, by decide +kernel, rfl, rfl, ⟨rfl, ?_⟩, rfl, ?_⟩ <;> decide +kernel

theorem witness_ScalarFaults_windows : dsPage.pending = false ∧ dsPage.skewed = false ∧ dsPage.pageSeen dsPage.scalarCluster 8 = some (0x100008, 3) ∧
    (∃ w, dsPage.windowAt 0 0x100008 = some w ∧ 4 ≠ w.elemBytes) ∧ rich.dsFirst 0 0x100 8 false .read = none := by
  refine ⟨rfl, rfl, by decide +kernel, ⟨{ window with ety := 3 }, by decide +kernel, by decide +kernel⟩, by decide +kernel⟩

theorem witness_LoopBounds_both : (looping 0x1008 1).endsAt true 0x1008 = true ∧ (looping 0x1008 1).endsAt false 0x1008 = true ∧
    zcN ((looping 0x1008 1).zc true) = false ∧ zcN ((looping 0x1008 1).zc false) = false ∨
    (∃ k, (looping 0x1008 1).endsAt k 0x1008 = true ∧ (looping 0x1008 1).endsAt (!k) 0x1008 = true ∧
      zcN ((looping 0x1008 1).zc k) = true ∧ zcN ((looping 0x1008 1).zc (!k)) = false) := by decide +kernel

theorem witness_AtomicWords_fences : (Instr.fence { plainWord with form := .vs, fn := 0x60C, vd := 6 }).wellFormed = true ∧
    (mapped 0).th.fr.curLane = none ∧ (mapped 0).older = [] ∧ (mapped 0).th.fr.storeQ = [] ∧ fNV &&& ((mapped 0).onFr fun f =>
      { f with copy := { f.copy with traps := 63 } }).th.fr.copy.traps ≠ 0 := by decide +kernel

theorem witness_CopyWords_limits : ¬ copyFits plainWord 3 5 0 ∧ (Instr.cpq { plainWord with form := .vs, fn := 96, vb := 12 }).wellFormed = true := by
  refine ⟨?_, by decide +kernel⟩
  simp [copyFits, plainWord]

theorem witness_ThreadEvents_laneAt : LaneAt inSection laneCode 0 0 (.addi 1 0 5) ∧ intResult (asLane inSection laneCode 0) (.addi 1 0 5) = some (1, 5, 0) ∧
    0 &&& inSection.th.fr.copy.traps = 0 ∧ LogRoom rich ∧ (behind rich).unsafeOlder = true ∧
    64 ≤ ((behind rich).onFr fun f => { f with hist := List.replicate 64 { reg := .s 3, old := 7, flags := 1, seq := 1 } }).th.fr.hist.length := by
  refine ⟨⟨⟨rfl, rfl, rfl, nofun⟩, by decide +kernel, ⟨0, by decide, by decide, by decide, by decide⟩, by decide, rfl, by decide +kernel, ?_⟩,
    by decide +kernel, by decide, .inl rfl, by decide +kernel, by decide +kernel⟩
  exact ⟨0x04080005, by decide +kernel, by decide, by decide +kernel⟩

/-- The entry of a step word that has not issued. -/
def stepEntry (fn : Nat) : VEntry :=
  { entry rich 0x73 { plainWord with form := .vs, fn := BitVec.ofNat 12 fn, vd := 8, va := 4 } with issued := false }
/-- The state that holds it. -/
def stepping (fn : Nat) : State := { (rich.onFr fun f => { f with viq := [stepEntry fn], chainOpen := false }) with prompt := false }

theorem witness_FabricEvents_step : OneEntry (stepping 0) (stepEntry 0) ∧ StepReady (stepping 0) (stepEntry 0) ∧
    OneEntry (stepping 64) (stepEntry 64) ∧ StepReady (stepping 64) (stepEntry 64) ∧ (stepEntry 0).w.key = 0 ∧ (stepEntry 64).w.key = 64 := by
  refine ⟨by unfold OneEntry; decide +kernel, ?_, by unfold OneEntry; decide +kernel, ?_, by decide +kernel, by decide +kernel⟩ <;>
    exact ⟨by decide +kernel, by decide +kernel, by decide +kernel, by decide +kernel, by decide +kernel, by decide +kernel,
      rfl, unbound_of (by decide +kernel)⟩

theorem witness_FabricEvents_stepq : let s := (arrived (inPod rich 1)).onFr fun f => { f with stepq := some { stepEntry 64 with issued := true } }
    s.dev.parent ≠ none ∧ (s.whistleOf 0).go = false ∧ (s.whistleOf 0).skewed = false ∧ (s.whistleOf 0).launch = none ∧ waits s.th = true ∧
      s.th.fr.viq = [] ∧ s.th.fr.storeQ = [] ∧ s.th.fr.stepq ≠ none ∧ Alone s := by
  refine ⟨by decide +kernel, rfl, rfl, rfl, rfl, rfl, rfl, nofun, rfl, rfl⟩

theorem witness_FabricEvents_tree : (inPod rich 0).dev.treeNeighbours.erase ((inPod rich 0).dev.treeHop 1) ≠ [] ∧
    (rich.dev.treeNeighbours.erase (rich.dev.treeHop 0)) = [] ∧
    exported.keyed (exported.windowKey (exported.walkerOf 0) 3 0) 0x100000 4 = exported := by
  refine ⟨by decide +kernel, by decide +kernel, State.keyed_plain _ _ rfl⟩

/-- What another package reports: its thread, of flat index 1, ended fatally. -/
def farEnd : LaunchShare := { ended := 1, flags := 0, firstFatal := some 1, status := 2, code := 6, unc := false, report := List.replicate 8 0 }
/-- A launch with a thread here and one on another package. -/
def twoHomes : Launch := { ownLaunch with ctx := 1, homes := [(0, 0, 0), (8, 0, 0)], threads := 2, boundTo := 2 }
/-- A plan with the differing entry of another package. -/
def differing : BindPlan := { gang with entries := [(1, fields 256 [(14, 2, 1), (200, 8, 79)])] }
/-- The queued launch in a pod of two packages on which its context exists. -/
def shared : State :=
  { queuedUp with dev := { queuedUp.dev with dims := (2, 1, 1) }, ctxs := queuedUp.ctxs.map fun c => { c with far := [(1, BitVec.allOnes 224)] } }

theorem witness_LaunchEvents_pods : twoHomes.shareOk farEnd = true ∧ farEnd.status ≠ 0 ∧ twoHomes.status = 0 ∧ twoHomes.shareWhole farEnd = true ∧
    twoHomes.shareWhole nothingElse = false ∧ (theLaunch finished).shareWhole nothingElse = true ∧
    (∀ c ∈ shared.ctxs, shared.peersDiffer c (theLaunch shared) differing = true ∧ shared.peersDiffer c (theLaunch shared) gang = false) ∧
    shared.planOk (theLaunch shared) gang = false := by decide +kernel

theorem witness_LaunchEvents_late : (theLaunch queuedUp).boundTo < (theLaunch queuedUp).threads ∧
    launchDeadline (theLaunch queuedUp).entry < 2 ^ 64 ∧ queuedUp.gtime.toNat ≤ launchDeadline (theLaunch queuedUp).entry ∧
    (let late := { theLaunch queuedUp with entry := fields 256 [(0, 1, 1), (1, 1, 1), (4, 1, 2), (14, 2, 1), (48, 8, 5)] }
     launchDeadline late.entry < 6 ∧ late.boundTo = 0 ∧ 0 < late.threads ∧ late.status = 0 ∧ late.killed = false ∧ late.report = []) ∧
    queuedUp.auxReady (theLaunch queuedUp) = true ∧
    queuedUp.auxReady { theLaunch queuedUp with
      entry := fields 256 [(14, 2, 1), (192, 8, 64)], aux := { (theLaunch queuedUp).aux with cuts := List.replicate 257 (0, 0) } } = false ∧
    (1 ∈ { going with hub := { going.hub with away := [1] } }.hub.away) ∧ going.th.bind.ctx ∉ going.hub.away := by decide +kernel

end Sys2Proof.Tests
end
end

section

/-! ## The memory seen with no format window enabled

Without format windows (07 R178) the byte accessors of the state are those of its memory list. -/

namespace Sys2Proof.Machine

theorem State.putByte_plain {s : State} (hw : s.unc.fmtWins = []) (a : Nat) (b : Byte) :
    s.putByte a b = { s with mem := memSet s.mem a b } := by
  simp [State.putByte, viewHit, hw]

theorem State.byteAt_plain {s : State} (hw : s.unc.fmtWins = []) (a : Nat) : s.byteAt a = memGet s.mem a := by
  simp [State.byteAt, viewHit, hw]

theorem State.putBytes_plain {s : State} (hw : s.unc.fmtWins = []) (a : Nat) (bs : List Byte) :
    State.putBytes a bs s = { s with mem := memPut s.mem a bs } := by
  induction bs generalizing a s with
  | nil => rfl
  | cons b bs ih => rw [State.putBytes, State.putByte_plain hw, ih (by exact hw)]; rfl

theorem State.bytesAt_plain {s : State} (hw : s.unc.fmtWins = []) (a n : Nat) : s.bytesAt a n = memBytes s.mem a n := by
  induction n generalizing a with
  | zero => rfl
  | succ n ih => rw [State.bytesAt, memBytes, State.byteAt_plain hw, ih]

end Sys2Proof.Machine

namespace Sys2Proof.Claims

open Sys2Proof.Machine

/-- Settles O7: with no format window a store is a write of the memory list, whose own read-back laws apply. -/
theorem storesReadBack : Obligations.StoresReadBack := by
  intro s a bs h hw
  rw [State.putBytes_plain hw]
  refine ⟨memPut_wf a bs h, ?_, fun c hc => ?_, rfl⟩
  · rw [State.bytesAt_plain (by exact hw)]
    exact memBytes_memPut a bs h
  · rw [State.byteAt_plain (by exact hw), State.byteAt_plain hw]
    exact memGet_memPut_other bs h hc

end Sys2Proof.Claims

end

section

/-! ## Every operation keeps the canonical form of memory

The model writes its memory list by `memSet`, `memPut` and `filter` alone, which keep its canonical form (Laws/Memory). One lemma `f_memOk`
for each operation `f` carries this up the call graph, in the order of the model's own files: from `s.MemOk` to the same of the state that
`f` answers. An operation that leaves the memory list alone is settled by `h` itself, a composition by the lemmas of its parts, and a case
distinction by those of its branches. -/

namespace Sys2Proof.Machine

variable {s t u : State}

/-! ### Ways in which operations are put together -/

theorem fst_memOk {α : Type} {p : State × α} {x : α} (e : p = (t, x)) (h : p.1.MemOk) : t.MemOk := by
  rwa [e] at h

theorem State.ite_memOk {c : Prop} [Decidable c] (ht : t.MemOk) (hu : u.MemOk) : (if c then t else u).MemOk := by
  split <;> assumption

theorem State.foldl_memOk {β : Type} {f : State → β → State} {l : List β} (hf : ∀ u b, u.MemOk → (f u b).MemOk) (h : s.MemOk) :
    (l.foldl f s).MemOk :=
  foldl_keeps (P := State.MemOk) hf l s h

theorem State.forUpTo_memOk {n : Nat} {f : Nat → State → State} (hf : ∀ i u, u.MemOk → (f i u).MemOk) (h : s.MemOk) :
    (forUpTo n f s).MemOk :=
  forUpTo_keeps (P := State.MemOk) hf n s h

theorem foldl_wf {β : Type} {f : Memory → β → Memory} {l : List β} {m : Memory}
    (hf : ∀ m b, Memory.wf m = true → Memory.wf (f m b) = true) (h : Memory.wf m = true) : Memory.wf (l.foldl f m) = true :=
  foldl_keeps (P := fun m => Memory.wf m = true) hf l m h

theorem getD_memOk {o : Option State} (ho : ∀ t, o = some t → t.MemOk) (h : s.MemOk) : (o.getD s).MemOk := by
  cases o with
  | none => exact h
  | some t => exact ho t rfl

theorem ite_some_memOk {c : Prop} [Decidable c] (e : (if c then some u else none) = some t) (h : u.MemOk) : t.MemOk := by
  split at e
  · exact Option.some.inj e ▸ h
  · contradiction

theorem ite_none_memOk {c : Prop} [Decidable c] (e : (if c then none else some u) = some t) (h : u.MemOk) : t.MemOk := by
  split at e
  · contradiction
  · exact Option.some.inj e ▸ h

theorem State.memOk_withMem {m : Memory} (hm : Memory.wf m = true) : ({ s with mem := m } : State).MemOk :=
  hm

theorem foldl_fst_memOk {β γ : Type} {f : State × γ → β → State × γ} {l : List β} {a : State × γ}
    (hf : ∀ a b, a.1.MemOk → (f a b).1.MemOk) (h : a.1.MemOk) : (l.foldl f a).1.MemOk :=
  foldl_keeps (P := fun a => a.1.MemOk) hf l a h

theorem foldl_snd_memOk {β γ : Type} {f : γ × State → β → γ × State} {l : List β} {a : γ × State}
    (hf : ∀ a b, a.2.MemOk → (f a b).2.MemOk) (h : a.2.MemOk) : (l.foldl f a).2.MemOk :=
  foldl_keeps (P := fun a => a.2.MemOk) hf l a h

/-- A next state that an outcome names has its memory in canonical form. -/
def NextMemOk (o : Host.Outcome State Fault Refusal) : Prop := ∀ t, o = .next t → t.MemOk

theorem nextMemOk_next (h : s.MemOk) : NextMemOk (.next s) := by
  intro t e
  cases e
  exact h

theorem State.withInputs_memOk {is : List Instr} (h : s.MemOk) : ({ s with inputs := is } : State).MemOk :=
  h

theorem laneDone_memOk (h : s.MemOk) : (laneDone s).st.MemOk :=
  h

theorem laneStop_memOk {c : ExcCause} {j lo : Nat} (h : s.MemOk) : (laneStop s c j lo).st.MemOk :=
  h

theorem State.withOthers_memOk {ts us : List Thread} (h : s.MemOk) : ({ s with others := ts, images := us } : State).MemOk :=
  h

theorem State.withHub_memOk {x : Hub} (h : s.MemOk) : ({ s with hub := x } : State).MemOk :=
  h

/-! ### Operations of the state -/

theorem State.reset_memOk : State.reset.MemOk :=
  rfl

theorem State.onTh_memOk {f : Thread → Thread} (h : s.MemOk) : (s.onTh f).MemOk :=
  h

theorem State.onFr_memOk {f : Front → Front} (h : s.MemOk) : (s.onFr f).MemOk :=
  h

theorem State.onRegs_memOk {f : FrontRegs → FrontRegs} (h : s.MemOk) : (s.onRegs f).MemOk :=
  h

theorem State.onM_memOk {f : MRegs → MRegs} (h : s.MemOk) : (s.onM f).MemOk :=
  h

theorem State.onCopy_memOk {f : Copies → Copies} (h : s.MemOk) : (s.onCopy f).MemOk :=
  h

theorem State.onLn_memOk {f : Lanes → Lanes} (h : s.MemOk) : (s.onLn f).MemOk :=
  h

theorem State.onSt_memOk {f : Strip → Strip} (h : s.MemOk) : (s.onSt f).MemOk :=
  h

theorem State.onTr_memOk {f : Truss → Truss} (h : s.MemOk) : (s.onTr f).MemOk :=
  h

theorem State.onBr_memOk {f : Brace → Brace} (h : s.MemOk) : (s.onBr f).MemOk :=
  h

theorem State.onFab_memOk {f : Fabric → Fabric} (h : s.MemOk) : (s.onFab f).MemOk :=
  h

theorem State.onUnc_memOk {f : Uncore → Uncore} (h : s.MemOk) : (s.onUnc f).MemOk :=
  h

theorem State.count_memOk {n : Nat} (h : s.MemOk) : (s.count n).MemOk :=
  h

theorem State.emit_memOk {m : OutMsg} (h : s.MemOk) : (s.emit m).MemOk :=
  h

theorem State.sendFlit_memOk {type dst vc : Nat} {bs : List Byte} (h : s.MemOk) : (s.sendFlit type dst vc bs).MemOk :=
  h

theorem State.sendFlits_memOk {type dst vc : Nat} {bs : List Byte} (h : s.MemOk) : (s.sendFlits type dst vc bs).MemOk :=
  ite_memOk h (foldl_memOk (fun _ _ hu => sendFlit_memOk hu) h)

theorem State.draw_memOk (h : s.MemOk) : s.draw.2.MemOk :=
  h

theorem State.log_memOk {reg : FrontReg} {old : Word} (h : s.MemOk) : (s.log reg old).MemOk :=
  ite_memOk (onFr_memOk h) h

theorem State.wr_memOk {r : RegNo} {x : Word} (h : s.MemOk) : (s.wr r x).MemOk := by
  unfold State.wr
  split
  · exact h
  · split
    · exact onLn_memOk h
    · exact onFr_memOk (log_memOk h)

theorem State.wrWord_memOk {q : Nat} {r : RegNo} {x : Word} (h : s.MemOk) : (s.wrWord q r x).MemOk :=
  ite_memOk h (onFr_memOk h)

theorem State.raiseFlags_memOk {fl : BitVec 6} (h : s.MemOk) : (s.raiseFlags fl).MemOk :=
  ite_memOk h (ite_memOk (onFr_memOk h) (onLn_memOk h))

theorem State.putByte_memOk {a : Nat} {b : Byte} (h : s.MemOk) : (s.putByte a b).MemOk :=
  State.putByte_wf a b h

theorem State.keyed_memOk {key a n : Nat} (h : s.MemOk) : (s.keyed key a n).MemOk :=
  State.keyed_wf key a n h

theorem State.pageUnder_memOk {key base : Nat} (h : s.MemOk) : (s.pageUnder key base).MemOk :=
  h

theorem State.setBank_memOk {b : Bank} (h : s.MemOk) : (s.setBank b).MemOk :=
  h

theorem State.hbmAccess_memOk {pa : Nat} (h : s.MemOk) : (s.hbmAccess pa).MemOk := by
  rwa [State.MemOk, State.hbmAccess_mem]

theorem State.l2Fill_memOk {pa : Nat} (h : s.MemOk) : (s.l2Fill pa).MemOk := by
  rwa [State.MemOk, State.l2Fill_mem]

theorem State.l2Touch_memOk {stream : Bool} {a : Nat} (h : s.MemOk) : (s.l2Touch stream a).MemOk := by
  rwa [State.MemOk, State.l2Touch_mem]

theorem State.l2Span_memOk {stream : Bool} {a n : Nat} (h : s.MemOk) : (s.l2Span stream a n).MemOk := by
  rwa [State.MemOk, State.l2Span_mem]

theorem State.l2Read_memOk {stream : Bool} {a n : Nat} (h : s.MemOk) : (s.l2Read stream a n).MemOk :=
  ite_memOk h (l2Span_memOk h)

theorem State.l2Write_memOk {stream : Bool} {a n : Nat} (h : s.MemOk) : (s.l2Write stream a n).MemOk := by
  rwa [State.MemOk, State.l2Write_mem]

theorem State.performAs_memOk {stream : Bool} {a : Nat} {bs : List Byte} (h : s.MemOk) : (s.performAs stream a bs).MemOk :=
  State.performAs_wf stream a bs h

theorem State.perform_memOk {a : Nat} {bs : List Byte} (h : s.MemOk) : (s.perform a bs).MemOk :=
  performAs_memOk h

theorem State.dcacheStore_memOk {core a : Nat} {bs : List Byte} (h : s.MemOk) : (s.dcacheStore core a bs).MemOk :=
  h

theorem State.clearDcache_memOk (h : s.MemOk) : s.clearDcache.MemOk :=
  h

theorem State.acquire_memOk {scope : Nat} (h : s.MemOk) : (s.acquire scope).MemOk :=
  ite_memOk (clearDcache_memOk h) h

theorem State.walkReads_memOk {k : Walker} {va : Word} (h : s.MemOk) : (s.walkReads k va).MemOk :=
  ite_memOk (l2Read_memOk (l2Read_memOk h)) (l2Read_memOk (l2Read_memOk (l2Read_memOk h)))

theorem State.markPte_memOk {p : Page} {acc : Access} (h : s.MemOk) : (s.markPte p acc).MemOk :=
  memPut_wf _ _ h

theorem State.tlbFill_memOk {core cluster : Nat} {k : Walker} {va : Word} {p : Page} {d : Bool} (h : s.MemOk) :
    (s.tlbFill core cluster k va p d).MemOk :=
  h

theorem State.walkFill_memOk {core cluster : Nat} {k : Walker} {va : Word} {acc : Access} (h : s.MemOk) {y : Page}
    (e : s.walkFill core cluster k va acc = .ok (t, y)) : t.MemOk := by
  unfold State.walkFill at e
  split at e
  · contradiction
  · split at e
    · cases e
      exact tlbFill_memOk (markPte_memOk (walkReads_memOk h))
    · contradiction

theorem State.reach_memOk {key pa : Nat} (h : s.MemOk) : (s.reach key pa).MemOk :=
  keyed_memOk h

theorem State.translate_memOk {core cluster : Nat} {k : Walker} {va : Word} {acc : Access} (h : s.MemOk) {y : Xlate}
    (e : s.translate core cluster k va acc = .ok y) : y.st.MemOk := by
  unfold State.translate at e
  split at e
  · contradiction
  · split at e
    · dsimp only at e
      split_ifs at e <;> cases e <;> exact reach_memOk h
    · split at e
      · contradiction
      · next e' =>
        cases e
        exact reach_memOk (walkFill_memOk h e')

theorem State.xlate_memOk {cluster : Nat} {va : Word} {acc : Access} (h : s.MemOk) {y : Xlate} (e : s.xlate cluster va acc = .ok y) :
    y.st.MemOk :=
  translate_memOk h e

theorem State.enterWrite_memOk {w : Window} {e : DefEntry} (h : s.MemOk) : (s.enterWrite w e).1.MemOk := by
  unfold State.enterWrite
  split <;> exact h

theorem State.dsWrite_memOk {order pa : Nat} {bs : List Byte} (h : s.MemOk) : (s.dsWrite order pa bs).MemOk := by
  unfold State.dsWrite
  split
  · exact h
  · exact onFab_memOk (enterWrite_memOk h)

theorem State.countDs_memOk {kind : Nat} (h : s.MemOk) : (s.countDs kind).MemOk :=
  ite_memOk (onFab_memOk h) h

theorem State.syncPut_memOk {die n : Nat} {v : Word} (h : s.MemOk) : (s.syncPut die n v).MemOk :=
  h

theorem State.mirrorApply_memOk {at_ home : Nat} (h : s.MemOk) : (s.mirrorApply at_ home).MemOk := by
  unfold State.mirrorApply
  split <;> exact h

theorem State.mirrorAll_memOk (h : s.MemOk) : s.mirrorAll.MemOk :=
  foldl_memOk (fun _ _ hu => mirrorApply_memOk hu) h

theorem State.performMarked_memOk {stream : Bool} {block : Nat} {ms : List (Nat × Nat × Byte)} (h : s.MemOk) :
    (s.performMarked stream block ms).MemOk :=
  ite_memOk (performAs_memOk h) (foldl_memOk (fun _ _ hu => ite_memOk (ite_memOk (performAs_memOk hu) hu) (performAs_memOk hu)) h)

theorem State.sendWrite_memOk {rank : Nat} {w : RemoteWrite} (h : s.MemOk) : (s.sendWrite rank w).MemOk :=
  sendFlits_memOk h

theorem State.drainEntry_memOk {e : StripEntry} (h : s.MemOk) : (s.drainEntry e).MemOk := by
  grind [State.drainEntry, dsWrite_memOk, sendWrite_memOk, onFab_memOk, syncPut_memOk, performMarked_memOk, dcacheStore_memOk,
      foldl_memOk]

theorem State.drainAll_memOk (h : s.MemOk) : s.drainAll.MemOk :=
  onSt_memOk (foldl_memOk (fun _ _ hu => drainEntry_memOk hu) h)

theorem State.drainWhere_memOk {p : StripEntry → Bool} (h : s.MemOk) : (s.drainWhere p).MemOk :=
  onSt_memOk (foldl_memOk (fun _ _ hu => drainEntry_memOk hu) h)

theorem State.closeStrip_memOk (h : s.MemOk) : s.closeStrip.MemOk :=
  ite_memOk (drainAll_memOk (onSt_memOk h)) (onSt_memOk h)

theorem State.commit_memOk (h : s.MemOk) : s.commit.MemOk :=
  onSt_memOk (closeStrip_memOk h)

theorem State.earlyCommit_memOk (h : s.MemOk) : s.earlyCommit.MemOk :=
  onSt_memOk (closeStrip_memOk h)

theorem State.soGate_memOk {kind : Nat} (h : s.MemOk) : (s.soGate kind).MemOk :=
  ite_memOk (earlyCommit_memOk h) h

theorem State.atomicGate_memOk {pa n : Nat} (h : s.MemOk) : (s.atomicGate pa n).MemOk :=
  ite_memOk (drainAll_memOk (earlyCommit_memOk h)) (ite_memOk (drainAll_memOk h) h)

theorem State.leaveStore_memOk {e : StoreEntry} (h : s.MemOk) : (s.leaveStore e).MemOk := by
  unfold State.leaveStore
  dsimp only
  split
  · exact onSt_memOk h
  · split
    · exact syncPut_memOk h
    · exact ite_memOk (dsWrite_memOk h) (perform_memOk (dcacheStore_memOk h))

theorem State.leaveHead_memOk (h : s.MemOk) : s.leaveHead.MemOk := by
  unfold State.leaveHead
  split
  · exact h
  · exact ite_memOk (ite_memOk h (soGate_memOk h)) (onFr_memOk (leaveStore_memOk (ite_memOk h (soGate_memOk h))))

theorem State.leaveStores_memOk (h : s.MemOk) : s.leaveStores.MemOk :=
  foldl_memOk (fun _ _ hu => ite_memOk (leaveHead_memOk hu) hu) h

/-! ### Ends of threads -/

theorem State.swapWith_memOk {i : Nat} (h : s.MemOk) : (s.swapWith i).MemOk := by
  unfold State.swapWith
  split <;> exact h

theorem State.focus_memOk {p : Nat} (h : s.MemOk) : (s.focus p).MemOk := by
  unfold State.focus
  split
  · exact h
  · split
    · exact h
    · exact swapWith_memOk h

theorem State.at_memOk {p : Nat} {f : State → State} (hf : ∀ u, u.MemOk → (f u).MemOk) (h : s.MemOk) : (s.at p f).MemOk := by
  unfold State.at
  split
  · exact hf _ h
  · split
    · exact h
    · exact swapWith_memOk (hf _ (swapWith_memOk h))

theorem State.onThreads_memOk {f : Thread → Thread} (h : s.MemOk) : (s.onThreads f).MemOk :=
  h

theorem State.onCtx_memOk {id : Nat} {f : Ctx → Ctx} (h : s.MemOk) : (s.onCtx id f).MemOk :=
  h

theorem State.onLaunch_memOk {n : Nat} {f : Launch → Launch} (h : s.MemOk) : (s.onLaunch n f).MemOk :=
  h

theorem State.traceSend_memOk {ws : List Word} (h : s.MemOk) : (s.traceSend ws).MemOk :=
  ite_memOk h (onRegs_memOk h)

theorem State.traceEvent_memOk {enable event cause : Nat} {idx spc vcp : Word} (h : s.MemOk) :
    (s.traceEvent enable event cause idx spc vcp).MemOk :=
  ite_memOk (traceSend_memOk h) h

theorem State.retireHistory_memOk (h : s.MemOk) : s.retireHistory.MemOk :=
  h

theorem State.unwind_memOk {k : Nat} {keep : List VEntry} (h : s.MemOk) : (s.unwind k keep).MemOk :=
  h

theorem State.abortHere_memOk {ctx n join : Nat} (h : s.MemOk) : (s.abortHere ctx n join).MemOk :=
  h

theorem State.abortComm_memOk {ctx n : Nat} (h : s.MemOk) : (s.abortComm ctx n).MemOk :=
  foldl_memOk (fun _ _ hu => sendFlits_memOk hu) (abortHere_memOk h)

theorem State.freeSlot_memOk (h : s.MemOk) : s.freeSlot.MemOk :=
  memOk_withMem (memPut_wf _ _ (memPut_wf _ _ h))

theorem State.onCopyCmd_memOk {c : CopyCmd} {f : CopyCmd → CopyCmd} (h : s.MemOk) : (s.onCopyCmd c f).MemOk :=
  h

theorem State.readmitCopies_memOk (h : s.MemOk) : s.readmitCopies.MemOk := by
  refine foldl_memOk (fun _ _ hu => ?_) h
  split
  · split
    · exact onCopyCmd_memOk hu
    · exact hu
  · exact hu

theorem State.disownCopies_memOk {p : Nat} {stop : Bool} (h : s.MemOk) : (s.disownCopies p stop).MemOk :=
  h

theorem State.dropWork_memOk {owner : Nat} (h : s.MemOk) : (s.dropWork owner).MemOk :=
  onLaunch_memOk (foldl_memOk (fun _ _ hu => abortComm_memOk hu) (disownCopies_memOk (drainAll_memOk (onSt_memOk h))))

theorem State.discardThread_memOk (h : s.MemOk) : s.discardThread.MemOk :=
  onTh_memOk (freeSlot_memOk (dropWork_memOk h))

theorem State.withImage_memOk {t₀ : Thread} {f : State → State} (hf : ∀ u, u.MemOk → (f u).MemOk) (h : s.MemOk) :
    (s.withImage t₀ f).MemOk := by
  have hu := hf { s with th := t₀, others := s.th :: s.others, images := s.images.erase t₀ } h
  unfold State.withImage
  dsimp only
  split <;> exact hu

theorem State.endImages_memOk {n : Nat} (h : s.MemOk) : (s.endImages n).MemOk :=
  foldl_memOk (fun _ _ hu => withImage_memOk (fun _ hv => dropWork_memOk hv) hu) h

theorem State.setSlotStatus_memOk {die index v : Nat} (h : s.MemOk) : (s.setSlotStatus die index v).MemOk :=
  memPut_wf _ _ h

theorem State.clearGang_memOk {p : BindPlan} (h : s.MemOk) : (s.clearGang p).MemOk :=
  onThreads_memOk (foldl_memOk (fun _ _ hu => setSlotStatus_memOk (memPut_wf _ _ hu)) h)

theorem State.dropBinding_memOk {n : Nat} (h : s.MemOk) : (s.dropBinding n).MemOk := by
  refine foldl_memOk (fun _ _ hu => ?_) h
  split
  · exact hu
  · exact onLaunch_memOk (clearGang_memOk hu)

theorem State.endLaunch_memOk {n : Nat} {s0 : State} (hs0 : s0.MemOk) : (s0.endLaunch n).MemOk :=
  endImages_memOk (foldl_memOk (fun _ _ hu => at_memOk (fun _ hv => discardThread_memOk hv) hu) (dropBinding_memOk hs0))

theorem State.fatalEnd_memOk {c : ExcCause} {idx spc vcp handlerCode : Word} {halt : Bool} (h : s.MemOk) :
    (s.fatalEnd c idx spc vcp handlerCode halt).MemOk :=
  endLaunch_memOk (discardThread_memOk (onLaunch_memOk h))

theorem State.pauseCopies_memOk (h : s.MemOk) : s.pauseCopies.MemOk :=
  readmitCopies_memOk h

theorem State.stopFront_memOk (h : s.MemOk) : s.stopFront.MemOk :=
  h

theorem State.suspend_memOk {c : ExcCause} {idx spc vcp : Word} (h : s.MemOk) : (s.suspend c idx spc vcp).MemOk :=
  onTh_memOk (onM_memOk (pauseCopies_memOk (stopFront_memOk (traceEvent_memOk (onFr_memOk h)))))

theorem State.stopAs_memOk {l : Life} {c : ExcCause} (h : s.MemOk) : (s.stopAs l c).MemOk :=
  onTh_memOk (onM_memOk (pauseCopies_memOk (stopFront_memOk (traceEvent_memOk h))))

theorem State.enterHandler_memOk {c : ExcCause} {idx spc vcp : Word} {flg : Flags} {lane : Bool} (h : s.MemOk) :
    (s.enterHandler c idx spc vcp flg lane).MemOk :=
  onFr_memOk (onM_memOk (onFab_memOk (traceEvent_memOk h)))

theorem State.takeException_memOk {c : ExcCause} {idx spc vcp : Word} {flg : Flags} {lane : Bool} (h : s.MemOk) :
    (s.takeException c idx spc vcp flg lane).MemOk :=
  ite_memOk (suspend_memOk h) (ite_memOk (fatalEnd_memOk h) (ite_memOk (fatalEnd_memOk h) (enterHandler_memOk h)))

theorem State.takeStop_memOk (h : s.MemOk) : s.takeStop.MemOk := by
  unfold State.takeStop
  split
  · exact stopAs_memOk h
  · exact h

theorem State.exceptionReturn_memOk (h : s.MemOk) : s.exceptionReturn.MemOk :=
  takeStop_memOk (onFr_memOk (onM_memOk (traceEvent_memOk h)))

/-! ### Faults and control flow -/

theorem State.setZc_memOk {n : Bool} {x : Word} (h : s.MemOk) : (s.setZc n x).MemOk :=
  onRegs_memOk (log_memOk h)

theorem State.endOfBody_memOk {n : Bool} {a : Word} (h : s.MemOk) : (s.endOfBody n a).1.MemOk := by
  unfold State.endOfBody
  dsimp only
  split <;> exact setZc_memOk h

theorem State.arrive_memOk {a : Word} (h : s.MemOk) : (s.arrive a).1.MemOk := by
  unfold State.arrive
  split
  · exact h
  · dsimp only
    split
    · split
      · exact endOfBody_memOk h
      · split
        · exact endOfBody_memOk (endOfBody_memOk h)
        · exact endOfBody_memOk h
    · split
      · exact endOfBody_memOk h
      · exact h

theorem State.seqNext_memOk {n : Nat} (h : s.MemOk) : (s.seqNext n).MemOk :=
  onFr_memOk (arrive_memOk h)

theorem State.dropSet_memOk {n : Bool} (h : s.MemOk) : (s.dropSet n).MemOk :=
  ite_memOk (setZc_memOk h) h

theorem State.leaveSets_memOk {t₀ : Word} (h : s.MemOk) : (s.leaveSets t₀).MemOk :=
  ite_memOk h (ite_memOk (dropSet_memOk (ite_memOk (dropSet_memOk h) h)) (ite_memOk (dropSet_memOk h) h))

theorem State.branchTo_memOk {t₀ : Word} (h : s.MemOk) : (s.branchTo t₀).MemOk :=
  onFr_memOk (leaveSets_memOk h)

/-! ### Operands of lane words -/

theorem issueFail_memOk {lo : Nat} (h : s.MemOk) : (issueFail s lo).st.MemOk :=
  h

theorem State.setV_memOk {r : Nat} {x : VReg} {prog : Nat} {whole : Bool} (h : s.MemOk) : (s.setV r x prog whole).MemOk :=
  h

theorem State.orLaneFlags_memOk {fl : Flags} (h : s.MemOk) : (s.orLaneFlags fl).MemOk :=
  h

theorem State.eltWord_memOk {e : VEntry} {v : View} {F : Nat → Elt} {lo hi : Nat} (h : s.MemOk) : (s.eltWord e v F lo hi).st.MemOk :=
  h

theorem State.signWord_memOk {e : VEntry} {lo hi : Nat} {F : Fmt → Nat → Nat → Nat} (h : s.MemOk) : (s.signWord e lo hi F).st.MemOk := by
  unfold State.signWord
  dsimp only
  split
  · exact eltWord_memOk h
  · exact issueFail_memOk h

/-! ### Vector loads and stores -/

theorem State.elemCheck_memOk {rule : ElemRule} {cluster : Nat} {va : Word} {n : Nat} {part : Bool} {acc : Access} (h : s.MemOk) :
    (s.elemCheck rule cluster va n part acc).1.MemOk := by
  grind [State.elemCheck, xlate_memOk]

theorem State.readLines_memOk {stream : Bool} {bs : List (Nat × Nat)} (h : s.MemOk) : (s.readLines stream bs).MemOk := by
  unfold State.readLines
  split
  · exact h
  · exact foldl_memOk (fun _ _ hu => l2Touch_memOk hu) h

theorem loadElems_memOk {α : Type} {m : MemShape} {put : Nat → Nat → α → α} {i0 n : Nat} {a : MemAcc α} (h : a.st.MemOk) :
    (loadElems m put i0 n a).st.MemOk := by
  induction n with
  | zero => exact h
  | succ n ih => grind [loadElems, State.elemCheck_memOk, State.soGate_memOk, State.readLines_memOk]

theorem loadGroups_memOk {α : Type} {m : MemShape} {put : Nat → Nat → α → α} {idle : Nat → α → α} {lo n : Nat} {a : MemAcc α}
    (h : a.st.MemOk) : (loadGroups m put idle lo n a).st.MemOk := by
  induction n with
  | zero => exact h
  | succ n ih => grind [loadGroups, loadElems_memOk]

theorem State.loadRun_memOk {α : Type} {m : MemShape} {put : Nat → Nat → α → α} {idle : Nat → α → α} {lo hi : Nat} {d : α}
    (h : s.MemOk) : (s.loadRun m put idle lo hi d).1.st.MemOk :=
  loadGroups_memOk h

theorem storeElems_memOk {m : MemShape} {val mark : Nat → Nat} {i0 n : Nat} {a : MemAcc (List ElemWrite)} (h : a.st.MemOk) :
    (storeElems m val mark i0 n a).st.MemOk := by
  induction n with
  | zero => exact h
  | succ n ih => grind [storeElems, State.elemCheck_memOk]

theorem State.enterGroup_memOk {ws : List ElemWrite} {release stream : Bool} {remote : Option (Nat × Nat × Nat)} (h : s.MemOk) :
    (s.enterGroup ws release stream remote).1.MemOk := by
  unfold State.enterGroup
  split
  · dsimp only
    split
    · exact earlyCommit_memOk h
    · exact foldl_memOk (fun _ _ hu => onSt_memOk hu) (earlyCommit_memOk h)
  · dsimp only
    split
    · exact h
    · exact foldl_memOk (fun _ _ hu => onSt_memOk hu) h

theorem winBytes_memOk {lower : List (List Nat)} {m : MemShape} {w : ElemWrite} (h : s.MemOk) : (winBytes lower m w s).1.MemOk := by
  unfold winBytes
  split
  · dsimp only
    split
    · exact h
    · exact State.draw_memOk h
  · dsimp only
    split
    · exact h
    · exact State.draw_memOk h

theorem winAll_memOk {places : List (List Nat)} {m : MemShape} {ws : List ElemWrite} (h : s.MemOk) : (winAll places m ws s).1.MemOk := by
  induction ws generalizing s with
  | nil => exact h
  | cons w ws ih => exact ih (winBytes_memOk h)

theorem storeGroups_memOk {m : MemShape} {val mark : Nat → Nat} {winner : Winner} {release : Bool} {lo n : Nat}
    {a : MemAcc (Nat × Bool)} (h : a.st.MemOk) : (storeGroups m val mark winner release lo n a).st.MemOk := by
  induction n with
  | zero => exact h
  | succ n ih => grind [storeGroups, storeElems_memOk, State.soGate_memOk, winAll_memOk, State.enterGroup_memOk]

theorem State.storeRun_memOk {m : MemShape} {val mark : Nat → Nat} {winner : Winner} {release : Bool} {lo hi : Nat} (h : s.MemOk) :
    (s.storeRun m val mark winner release lo hi).st.MemOk :=
  storeGroups_memOk h

theorem State.loadWord_memOk {e : VEntry} {rule : ElemRule} {addr : Nat → Nat → Word} {lo hi : Nat} (h : s.MemOk) :
    (s.loadWord e rule addr lo hi).st.MemOk :=
  ite_memOk (acquire_memOk (setV_memOk (loadRun_memOk h))) (setV_memOk (loadRun_memOk h))

theorem State.storeWord_memOk {e : VEntry} {rule : ElemRule} {winner : Winner} {addr : Nat → Nat → Word} {lo hi : Nat} (h : s.MemOk) :
    (s.storeWord e rule winner addr lo hi).st.MemOk :=
  storeRun_memOk h

theorem State.takeChunk_memOk {e : VEntry} (h : s.MemOk) : (s.takeChunk e).MemOk :=
  h

theorem laneVlds_memOk {e : VEntry} {lo hi : Nat} (h : s.MemOk) : (laneVlds e lo hi s).st.MemOk := by
  unfold laneVlds
  split
  · exact issueFail_memOk h
  · exact State.loadWord_memOk h

theorem laneVldx_memOk {e : VEntry} {lo hi : Nat} (h : s.MemOk) : (laneVldx e lo hi s).st.MemOk := by
  unfold laneVldx
  split
  · exact State.loadWord_memOk h
  · exact issueFail_memOk h

theorem laneVldg_memOk {e : VEntry} {lo hi : Nat} (h : s.MemOk) : (laneVldg e lo hi s).st.MemOk := by
  unfold laneVldg
  split
  · exact State.loadWord_memOk h
  · exact issueFail_memOk h

theorem laneVsts_memOk {e : VEntry} {lo hi : Nat} (h : s.MemOk) : (laneVsts e lo hi s).st.MemOk := by
  unfold laneVsts
  split
  · exact issueFail_memOk h
  · exact State.storeWord_memOk h

theorem laneVstx_memOk {e : VEntry} {lo hi : Nat} (h : s.MemOk) : (laneVstx e lo hi s).st.MemOk := by
  unfold laneVstx
  split
  · exact State.storeWord_memOk h
  · exact issueFail_memOk h

theorem laneVstxo_memOk {e : VEntry} {lo hi : Nat} (h : s.MemOk) : (laneVstxo e lo hi s).st.MemOk := by
  unfold laneVstxo
  split
  · exact State.storeWord_memOk h
  · exact issueFail_memOk h

theorem laneVstg_memOk {e : VEntry} {lo hi : Nat} (h : s.MemOk) : (laneVstg e lo hi s).st.MemOk := by
  unfold laneVstg
  split
  · exact State.storeWord_memOk h
  · exact issueFail_memOk h

theorem State.setGroup_memOk {q : Nat} {g : List VReg} {prog : Nat → Nat} (h : s.MemOk) : (s.setGroup q g prog).MemOk :=
  foldl_memOk (fun _ _ hu => setV_memOk hu) h

theorem State.freshSlot_memOk {q lo n m : Nat} {new : List VReg} (h : s.MemOk) : (s.freshSlot q lo n m new).1.MemOk := by
  unfold State.freshSlot
  split
  · exact h
  · split <;> exact h

theorem laneVldQ_memOk {e : VEntry} {lo hi : Nat} (h : s.MemOk) : (laneVldQ e lo hi s).st.MemOk := by
  unfold laneVldQ
  split
  · exact issueFail_memOk h
  · exact State.ite_memOk (State.acquire_memOk (State.setGroup_memOk (State.freshSlot_memOk (State.loadRun_memOk h))))
        (State.setGroup_memOk (State.freshSlot_memOk (State.loadRun_memOk h)))

theorem laneVstQ_memOk {e : VEntry} {lo hi : Nat} (h : s.MemOk) : (laneVstQ e lo hi s).st.MemOk := by
  unfold laneVstQ
  split
  · exact issueFail_memOk h
  · exact State.storeRun_memOk h

theorem prefElems_memOk {m : MemShape} {i0 n : Nat} (h : s.MemOk) : (prefElems m i0 n s).MemOk := by
  induction n with
  | zero => exact h
  | succ n ih => grind [prefElems, State.elemCheck_memOk, State.foldl_memOk, State.l2Fill_memOk]

theorem laneCutstep_memOk {e : VEntry} {lo x : Nat} (h : s.MemOk) : (laneCutstep e lo x s).st.MemOk := by
  unfold laneCutstep
  split
  · exact issueFail_memOk h
  · exact laneDone_memOk (State.onCtx_memOk h)

/-! ### Truss words -/

theorem State.outerRun_memOk {e : VEntry} {o : Outer} {lo hi : Nat} (h : s.MemOk) : (s.outerRun e o lo hi).st.MemOk :=
  h

theorem outerNone_memOk (h : s.MemOk) : (outerNone s).st.MemOk :=
  h

theorem laneMouter_memOk {e : VEntry} {lo hi : Nat} (h : s.MemOk) : (laneMouter e lo hi s).st.MemOk := by
  unfold laneMouter
  dsimp only
  split
  · split
    · exact issueFail_memOk h
    · split
      · exact outerNone_memOk h
      · exact State.outerRun_memOk h
  · exact issueFail_memOk h

theorem laneMouteri_memOk {e : VEntry} {lo hi : Nat} (h : s.MemOk) : (laneMouteri e lo hi s).st.MemOk := by
  unfold laneMouteri
  split
  · dsimp only
    split
    · exact issueFail_memOk h
    · split
      · exact outerNone_memOk h
      · exact State.outerRun_memOk h
  · exact issueFail_memOk h

theorem laneMouterc_memOk {e : VEntry} {lo hi : Nat} (h : s.MemOk) : (laneMouterc e lo hi s).st.MemOk := by
  unfold laneMouterc
  dsimp only
  split
  · split
    · exact issueFail_memOk h
    · split
      · exact outerNone_memOk h
      · exact State.outerRun_memOk h
  · exact issueFail_memOk h

theorem laneMlacc_memOk {e : VEntry} {lo x : Nat} (h : s.MemOk) : (laneMlacc e lo x s).st.MemOk := by
  unfold laneMlacc
  split
  · exact issueFail_memOk h
  · split
    · exact issueFail_memOk h
    · exact laneDone_memOk (State.onTr_memOk h)

theorem laneMtov_memOk {e : VEntry} {lo hi : Nat} (h : s.MemOk) : (laneMtov e lo hi s).st.MemOk := by
  unfold laneMtov
  split
  · dsimp only
    split
    · exact issueFail_memOk h
    · exact State.onLn_memOk (State.orLaneFlags_memOk (State.setGroup_memOk (State.freshSlot_memOk h)))
  · dsimp only
    split
    · exact issueFail_memOk h
    · exact State.orLaneFlags_memOk (State.setGroup_memOk (State.freshSlot_memOk h))

theorem laneMdrain_memOk {e : VEntry} {lo hi : Nat} (h : s.MemOk) : (laneMdrain e lo hi s).st.MemOk := by
  unfold laneMdrain
  split
  · dsimp only
    split
    · exact issueFail_memOk h
    · exact h
  · dsimp only
    split
    · exact issueFail_memOk h
    · exact State.orLaneFlags_memOk (State.storeRun_memOk h)

/-! ### Brace words -/

theorem State.rowDone_memOk {n m reached : Nat} {a : RowsAcc} (h : s.MemOk) : (s.rowDone n m reached a).st.MemOk :=
  h

theorem laneBqr_memOk {e : VEntry} {lo hi : Nat} (h : s.MemOk) : (laneBqr e lo hi s).st.MemOk := by
  unfold laneBqr
  split
  · exact issueFail_memOk h
  · exact State.rowDone_memOk h

theorem laneBqra_memOk {e : VEntry} {lo hi : Nat} (h : s.MemOk) : (laneBqra e lo hi s).st.MemOk := by
  unfold laneBqra
  split
  · exact issueFail_memOk h
  · exact State.rowDone_memOk (State.setV_memOk h)

theorem laneBqrD_memOk {e : VEntry} {lo hi : Nat} (h : s.MemOk) : (laneBqrD e lo hi s).st.MemOk := by
  grind [laneBqrD, issueFail_memOk, State.freshSlot_memOk, State.setGroup_memOk, State.onLn_memOk, State.rowDone_memOk]

theorem State.bapply_memOk {e : VEntry} {clear : Bool} {lo hi : Nat} (h : s.MemOk) : (s.bapply e clear lo hi).st.MemOk := by
  unfold State.bapply
  split
  · exact issueFail_memOk h
  · split
    · exact issueFail_memOk h
    · exact rowDone_memOk (setV_memOk h)

theorem laneBtload_memOk {e : VEntry} {x hi : Nat} (h : s.MemOk) : (laneBtload e x hi s).st.MemOk := by
  unfold laneBtload
  split
  · exact h
  · split
    · dsimp only
      split
      · exact State.loadRun_memOk h
      · exact State.acquire_memOk (State.onBr_memOk (State.loadRun_memOk h))
    · dsimp only
      split
      · exact State.loadRun_memOk h
      · exact State.onBr_memOk (State.loadRun_memOk h)

theorem laneBsolve_memOk {e : VEntry} {lo x : Nat} (h : s.MemOk) : (laneBsolve e lo x s).st.MemOk := by
  unfold laneBsolve
  split
  · exact issueFail_memOk h
  · exact laneDone_memOk (State.setV_memOk h)

theorem laneBrot_memOk {e : VEntry} {lo hi : Nat} (h : s.MemOk) : (laneBrot e lo hi s).st.MemOk := by
  unfold laneBrot
  dsimp only
  split
  · exact issueFail_memOk h
  · split
    · exact h
    · exact State.setV_memOk h

/-! ### Atomic vector words -/

theorem State.atomicCheck_memOk {cluster : Nat} {va : Word} {sz : Nat} (h : s.MemOk) : (s.atomicCheck cluster va sz).1.MemOk := by
  unfold State.atomicCheck
  split
  · exact h
  · split
    · exact h
    · next e =>
      have hx := xlate_memOk h e
      split
      · exact hx
      · split <;> exact hx

theorem State.homePut_memOk {pa sz v : Nat} (h : s.MemOk) : (s.homePut pa sz v).MemOk :=
  perform_memOk (dcacheStore_memOk h)

theorem State.pushStores_memOk {k : Nat} (h : s.MemOk) : (s.pushStores k).MemOk :=
  foldl_memOk (fun _ _ hu => ite_memOk (leaveHead_memOk hu) hu) h

theorem State.release_memOk {ord : Nat} (h : s.MemOk) : (s.release ord).MemOk :=
  ite_memOk (drainAll_memOk h) h

theorem checkPhase_memOk {p : Phases} {i0 n : Nat} {a : MemAcc (List Checked)} (h : a.st.MemOk) : (checkPhase p i0 n a).st.MemOk := by
  induction n with
  | zero => exact h
  | succ n ih => grind [checkPhase, State.atomicCheck_memOk]

theorem performOrder_memOk {ordered : Bool} {n : Nat} {xs : List Checked} (h : s.MemOk) : (performOrder ordered n xs s).2.MemOk := by
  induction n generalizing xs s with
  | zero => exact h
  | succ n ih => grind [performOrder, State.draw_memOk]

theorem performAll_memOk {α : Type} {sz : Nat} {op : Nat → Nat → α → Nat × Flags × α} {skip : Nat → α → α} {xs : List Checked}
    {a : PerfAcc α} (h : a.st.MemOk) : (performAll sz op skip xs a).st.MemOk := by
  induction xs generalizing a with
  | nil => exact h
  | cons x xs ih => grind [performAll, State.homePut_memOk]

theorem State.phases_memOk {α : Type} {e : VEntry} {p : Phases} {lo hi : Nat} {op : Nat → Nat → α → Nat × Flags × α}
    {skip : Nat → α → α} {d : α} (h : s.MemOk) : (s.phases e p lo hi op skip d).1.st.MemOk := by
  grind [State.phases, checkPhase_memOk, pushStores_memOk, soGate_memOk, release_memOk, atomicGate_memOk, performOrder_memOk,
      performAll_memOk, acquire_memOk, foldl_memOk]

theorem State.vamoRun_memOk {e : VEntry} {ordered : Bool} {lo hi : Nat} (h : s.MemOk) : (s.vamoRun e ordered lo hi).st.MemOk := by
  unfold State.vamoRun
  dsimp only
  split
  · exact issueFail_memOk h
  · split
    · exact phases_memOk h
    · exact orLaneFlags_memOk (ite_memOk (phases_memOk h) (setV_memOk (phases_memOk h)))

theorem laneAccw_memOk {e : VEntry} {lo x : Nat} (h : s.MemOk) : (laneAccw e lo x s).st.MemOk := by
  unfold laneAccw
  dsimp only
  split
  · exact issueFail_memOk h
  · exact laneDone_memOk (State.onLn_memOk h)

theorem laneVacc_memOk {e : VEntry} {lo hi : Nat} (h : s.MemOk) : (laneVacc e lo hi s).st.MemOk := by
  unfold laneVacc
  dsimp only
  split
  · exact issueFail_memOk h
  · exact State.orLaneFlags_memOk (State.onLn_memOk h)

theorem laneAmerge_memOk {e : VEntry} {lo hi : Nat} (h : s.MemOk) : (laneAmerge e lo hi s).st.MemOk := by
  unfold laneAmerge
  dsimp only
  split
  · exact issueFail_memOk h
  · split
    · exact State.phases_memOk h
    · exact State.onLn_memOk (State.phases_memOk h)

/-! ### Fabric words -/

theorem pagesFrom_memOk {base : Word} {n : Nat} (h : s.MemOk) : (pagesFrom base n s).1.MemOk := by
  induction n with
  | zero => exact h
  | succ n ih => grind [pagesFrom, State.xlate_memOk]

theorem laneWdecl_memOk {e : VEntry} {lo x : Nat} (h : s.MemOk) : (laneWdecl e lo x s).st.MemOk := by
  grind [laneWdecl, issueFail_memOk, pagesFrom_memOk, laneStop_memOk, laneDone_memOk, State.wrWord_memOk, State.MemOk]

theorem laneWdeclRel_memOk {e : VEntry} {lo x : Nat} (h : s.MemOk) : (laneWdeclRel e lo x s).st.MemOk := by
  unfold laneWdeclRel
  dsimp only
  split
  · exact h
  · split
    · exact issueFail_memOk h
    · exact laneDone_memOk h

theorem State.markWindow_memOk {handle : Nat} {pages : List Nat} {store : Bool} (h : s.MemOk) :
    (s.markWindow handle pages store).MemOk := by
  unfold State.markWindow
  split
  · exact h
  · refine foldl_memOk (fun _ _ hu => ?_) h
    split
    · exact markPte_memOk hu
    · exact hu

theorem State.askPage_memOk {rank handle page : Nat} {store : Bool} (h : s.MemOk) : (s.askPage rank handle page store).MemOk :=
  sendFlits_memOk h

theorem askPages_memOk {rank handle : Nat} {store : Bool} {ps : List Nat} (h : s.MemOk) : (askPages rank handle store ps s).MemOk := by
  induction ps generalizing s with
  | nil => exact h
  | cons p ps ih => grind [askPages, State.askPage_memOk, State.onFab_memOk, State.count_memOk]

theorem State.askReads_memOk {e : VEntry} {v : View} {rank handle lo : Nat} (h : s.MemOk) : (s.askReads e v rank handle lo).MemOk :=
  ite_memOk h (ite_memOk (askPages_memOk h) (sendFlits_memOk (onFab_memOk (askPages_memOk h))))

theorem State.dropRefusals_memOk (h : s.MemOk) : s.dropRefusals.MemOk :=
  h

theorem remoteOut_memOk {st : State} {reached : Nat} {stop : Option LStop} (hst : st.MemOk) : (remoteOut st reached stop).st.MemOk :=
  State.ite_memOk (State.dropRefusals_memOk hst) hst

theorem skewStop_memOk {lo : Nat} (h : s.MemOk) : (skewStop s lo).st.MemOk :=
  h

theorem State.readWindow_memOk {e : VEntry} {v : View} {handle lo hi : Nat} (h : s.MemOk) : (s.readWindow e v handle lo hi).MemOk := by
  refine forUpTo_memOk (fun _ _ hu => ?_) h
  split
  · exact hu
  · split
    · exact l2Read_memOk hu
    · exact hu

theorem laneVldr_memOk {e : VEntry} {lo hi : Nat} (h : s.MemOk) : (laneVldr e lo hi s).st.MemOk := by
  unfold laneVldr
  split
  · exact issueFail_memOk h
  · split
    · exact skewStop_memOk h
    · split
      · exact h
      · exact remoteOut_memOk (State.ite_memOk (State.onFab_memOk (State.setV_memOk (State.ite_memOk (State.readWindow_memOk
            (State.ite_memOk (State.markWindow_memOk h) (State.askReads_memOk h))) (State.ite_memOk (State.markWindow_memOk h)
            (State.askReads_memOk h))))) (State.setV_memOk (State.ite_memOk (State.readWindow_memOk (State.ite_memOk
            (State.markWindow_memOk h) (State.askReads_memOk h))) (State.ite_memOk (State.markWindow_memOk h) (State.askReads_memOk h)))))

theorem remoteStores_memOk {e : VEntry} {v : View} {rank handle lo n : Nat} {a : State × Nat × Option (Nat × ExcCause)}
    (h : a.1.MemOk) : (remoteStores e v rank handle lo n a).1.MemOk := by
  induction n with
  | zero => exact h
  | succ n ih => grind [remoteStores, State.enterGroup_memOk]

theorem laneVstr_memOk {e : VEntry} {lo hi : Nat} (h : s.MemOk) : (laneVstr e lo hi s).st.MemOk := by
  unfold laneVstr
  split
  · exact issueFail_memOk h
  · split
    · exact skewStop_memOk h
    · split
      · exact h
      · exact remoteOut_memOk (State.ite_memOk (State.onFab_memOk (remoteStores_memOk (State.ite_memOk (State.markWindow_memOk h)
            (State.ite_memOk h (askPages_memOk h))))) (remoteStores_memOk (State.ite_memOk (State.markWindow_memOk h) (State.ite_memOk
            h (askPages_memOk h)))))

theorem State.stepArrive_memOk {e : VEntry} {queued : Bool} {at_ : Nat} (h : s.MemOk) : (s.stepArrive e queued at_).MemOk :=
  h

theorem State.stepWord_memOk {e : VEntry} {lo : Nat} {queued : Bool} {at_ : Nat} (h : s.MemOk) :
    (s.stepWord e lo queued at_).st.MemOk := by
  grind [State.stepWord, laneDone_memOk, wrWord_memOk, acquire_memOk, onFab_memOk, issueFail_memOk, skewStop_memOk, pushStores_memOk,
      commit_memOk, stepArrive_memOk]

theorem State.onStream_memOk {n : Nat} {f : Stream → Stream} (h : s.MemOk) : (s.onStream n f).MemOk :=
  h

theorem State.asImage_memOk {x : Thread} {f : State → State} (hf : ∀ u, u.MemOk → (f u).MemOk) (h : s.MemOk) : (s.asImage x f).MemOk := by
  have hu := hf { s with th := x, others := s.th :: s.others, images := s.images.erase x } h
  unfold State.asImage
  dsimp only
  split <;> exact hu

theorem State.atMember_memOk {ctx n q : Nat} {f : State → State} (hf : ∀ u, u.MemOk → (f u).MemOk) (h : s.MemOk) :
    (s.atMember ctx n q f).MemOk := by
  unfold State.atMember
  split
  · exact at_memOk hf h
  · split
    · exact asImage_memOk hf h
    · exact h

theorem State.sendToMember_memOk {type n q vc : Nat} {bs : List Byte} (h : s.MemOk) : (s.sendToMember type n q vc bs).MemOk := by
  unfold State.sendToMember
  split
  · exact sendFlits_memOk h
  · exact h

theorem State.grantTo_memOk {n p size : Nat} (h : s.MemOk) : (s.grantTo n p size).MemOk := by
  unfold State.grantTo
  split
  · exact h
  · exact onStream_memOk h

theorem State.grantAsks_memOk (h : s.MemOk) : s.grantAsks.MemOk :=
  foldl_memOk (fun _ _ hu => ite_memOk (atMember_memOk (fun _ hv => sendToMember_memOk (grantTo_memOk hv)) hu) hu) h

theorem State.fsbind_memOk {e : VEntry} {lo : Nat} {send : Bool} (h : s.MemOk) : (s.fsbind e lo send).st.MemOk := by
  unfold State.fsbind
  dsimp only
  split
  · exact issueFail_memOk h
  · split
    · split
      · exact issueFail_memOk h
      · exact laneDone_memOk (grantAsks_memOk (onFab_memOk h))
    · exact issueFail_memOk h

theorem laneFsbindU_memOk {e : VEntry} {lo x : Nat} (h : s.MemOk) : (laneFsbindU e lo x s).st.MemOk := by
  unfold laneFsbindU
  dsimp only
  split
  · exact laneDone_memOk (State.onFab_memOk h)
  · split
    · split
      · exact laneDone_memOk (State.onFab_memOk h)
      · exact h
    · split
      · exact issueFail_memOk h
      · exact laneDone_memOk (State.onFab_memOk h)

theorem laneVcred_memOk {e : VEntry} {lo hi : Nat} (h : s.MemOk) : (laneVcred e lo hi s).st.MemOk := by
  unfold laneVcred
  dsimp only
  split
  · exact issueFail_memOk h
  · exact State.eltWord_memOk (State.ite_memOk (State.draw_memOk h) h)

/-! ### Copy words -/

theorem State.awUpdate_memOk {a : Nat} {f : Word → Word → Word × Word} (h : s.MemOk) : (s.awUpdate a f).MemOk :=
  perform_memOk h

theorem State.engineXlate_memOk {core ctx : Nat} {va : Word} {acc : Access} (h : s.MemOk) : (s.engineXlate core ctx va acc).1.MemOk := by
  grind [State.engineXlate, translate_memOk]

theorem chunkMoves_memOk {c : CopyCmd} {pos n : Nat} {a : State × List Move × Option EngineAcc} (h : a.1.MemOk) :
    (chunkMoves c pos n a).1.MemOk := by
  induction n with
  | zero => exact h
  | succ n ih => grind [chunkMoves, State.engineXlate_memOk, State.l2Read_memOk]

theorem moveBytes_memOk {ms : List Move} (h : s.MemOk) : (moveBytes ms s).MemOk := by
  induction ms generalizing s with
  | nil => exact h
  | cons m ms ih => exact ih (State.putByte_memOk h)

theorem moveMixed_memOk {n : Nat} {ms : List Move} {olds : List Host.Cell} (h : s.MemOk) : (moveMixed n ms olds s).1.MemOk := by
  induction n generalizing ms olds s with
  | zero => exact h
  | succ n ih => grind [moveMixed, State.draw_memOk, State.putByte_memOk]

theorem State.touchChunk_memOk {c : CopyCmd} {ms : List Move} (h : s.MemOk) : (s.touchChunk c ms).MemOk :=
  foldl_memOk (fun _ _ hu => l2Write_memOk hu) (foldl_memOk (fun _ _ hu => l2Touch_memOk hu) h)

theorem State.moveChunk_memOk {c : CopyCmd} {ms : List Move} {s0 : State} (hs0 : s0.MemOk) : (s0.moveChunk c ms).1.MemOk := by
  unfold State.moveChunk
  split
  · exact moveMixed_memOk (touchChunk_memOk hs0)
  · exact moveBytes_memOk (touchChunk_memOk hs0)

theorem movePoison_memOk {old : List Nat} {ms : List Move} (h : s.MemOk) : (movePoison old ms s).MemOk :=
  State.foldl_memOk (fun _ _ hu => State.ite_memOk (State.ite_memOk hu hu) (State.ite_memOk hu (State.ite_memOk (State.onUnc_memOk hu)
      hu))) h

theorem State.dropCopy_memOk {c : CopyCmd} (h : s.MemOk) : (s.dropCopy c).MemOk :=
  h

theorem State.abandonCopy_memOk {c : CopyCmd} (h : s.MemOk) : (s.abandonCopy c).MemOk := by
  unfold State.abandonCopy
  split
  · exact dropCopy_memOk (at_memOk (fun _ hu => onTh_memOk hu) h)
  · dsimp only
    split
    · next e' => exact dropCopy_memOk (awUpdate_memOk (fst_memOk e' (engineXlate_memOk (at_memOk (fun _ hu => onTh_memOk hu) h))))
    · next e' => exact dropCopy_memOk (fst_memOk e' (engineXlate_memOk (at_memOk (fun _ hu => onTh_memOk hu) h)))

theorem State.deliverCopy_memOk {c : CopyCmd} {n : Nat} {next : State → State} (hnext : ∀ u, u.MemOk → (next u).MemOk) (h : s.MemOk) :
    (s.deliverCopy c n next).MemOk := by
  unfold State.deliverCopy
  split
  · exact hnext _ h
  · split
    · next e => exact hnext _ (awUpdate_memOk (fst_memOk e (engineXlate_memOk h)))
    · next e => exact onCopyCmd_memOk (fst_memOk e (engineXlate_memOk h))
    · next e => exact abandonCopy_memOk (fst_memOk e (engineXlate_memOk h))

theorem State.copyChunk_memOk {c : CopyCmd} (h : s.MemOk) : (s.copyChunk c).MemOk := by
  unfold State.copyChunk
  obtain ⟨n, hn⟩ : ∃ n, chunkLen c c.pos 4096 = n := ⟨_, rfl⟩
  rw [hn]
  have hr : (chunkMoves c c.pos n (s, [], none)).1.MemOk := chunkMoves_memOk h
  split
  · exact abandonCopy_memOk h
  · split
    · exact h
    · split
      · exact ite_memOk h (deliverCopy_memOk (fun _ hu => dropCopy_memOk hu) h)
      · dsimp only
        split
        · exact onCopyCmd_memOk hr
        · exact abandonCopy_memOk (movePoison_memOk (moveChunk_memOk (foldl_snd_memOk (fun _ _ ha => draw_memOk ha) hr)))
        · exact deliverCopy_memOk (fun _ hu => ite_memOk (dropCopy_memOk hu) (onCopyCmd_memOk hu))
            (movePoison_memOk (moveChunk_memOk hr))

theorem State.copyWord_memOk {e : VEntry} {lo fn : Nat} {ok : Bool} {dst src b0 b1 : Word} (h : s.MemOk) :
    (s.copyWord e lo fn ok dst src b0 b1).st.MemOk := by
  have h1 : ((s.pushStores e.seq).drainAll).MemOk := drainAll_memOk (pushStores_memOk h)
  unfold State.copyWord
  split
  · exact issueFail_memOk h
  · split
    · exact laneStop_memOk h
    · dsimp only
      split
      · exact h1
      · split_ifs <;> exact h1

/-! ### Conversions -/

theorem laneVcvt_memOk {e : VEntry} {lo hi : Nat} (h : s.MemOk) : (laneVcvt e lo hi s).st.MemOk := by
  unfold laneVcvt
  split
  · exact issueFail_memOk h
  · dsimp only
    split
    · exact issueFail_memOk h
    · exact State.eltWord_memOk h

theorem laneVcvtEf_memOk {e : VEntry} {lo hi : Nat} (h : s.MemOk) : (laneVcvtEf e lo hi s).st.MemOk := by
  unfold laneVcvtEf
  split
  · exact issueFail_memOk h
  · dsimp only
    split
    · exact issueFail_memOk h
    · split <;> exact State.onLn_memOk (State.orLaneFlags_memOk (State.setV_memOk h))

theorem laneVpack_memOk {e : VEntry} {lo hi : Nat} (h : s.MemOk) : (laneVpack e lo hi s).st.MemOk := by
  unfold laneVpack
  dsimp only
  split
  · exact issueFail_memOk h
  · exact State.orLaneFlags_memOk (State.setV_memOk h)

theorem laneVunpack_memOk {e : VEntry} {lo hi : Nat} (h : s.MemOk) : (laneVunpack e lo hi s).st.MemOk := by
  unfold laneVunpack
  dsimp only
  split
  · exact issueFail_memOk h
  · exact State.eltWord_memOk h

theorem laneSetvt_memOk {e : VEntry} {lo x : Nat} (h : s.MemOk) : (laneSetvt e lo x s).st.MemOk := by
  unfold laneSetvt
  split
  · dsimp only
    split
    · exact issueFail_memOk h
    · exact laneDone_memOk (State.onLn_memOk h)
  · dsimp only
    split
    · exact issueFail_memOk h
    · exact laneDone_memOk (State.onLn_memOk h)

theorem laneSetfmt_memOk {e : VEntry} {lo x : Nat} (h : s.MemOk) : (laneSetfmt e lo x s).st.MemOk := by
  unfold laneSetfmt
  split
  · exact laneDone_memOk (State.onLn_memOk h)
  · exact issueFail_memOk h

theorem laneMshape_memOk {e : VEntry} {lo x : Nat} (h : s.MemOk) : (laneMshape e lo x s).st.MemOk := by
  unfold laneMshape
  dsimp only
  split
  · exact issueFail_memOk h
  · exact laneDone_memOk (State.onLn_memOk h)

/-! ### Reductions and permutations -/

theorem xpHold_memOk (h : s.MemOk) : (xpHold s).st.MemOk :=
  h

theorem State.redWrite_memOk {e : VEntry} {v : View} {hi : Nat} {r : Elt} (h : s.MemOk) : (s.redWrite e v hi r).st.MemOk := by
  unfold State.redWrite
  split
  · exact xpHold_memOk h
  · split
    · exact h
    · exact orLaneFlags_memOk (setV_memOk h)

theorem State.redo_memOk {e : VEntry} {op : RedOp} {hi : Nat} (h : s.MemOk) : (s.redo e op hi).st.MemOk :=
  redWrite_memOk h

theorem State.redt_memOk {e : VEntry} {op : RedOp} {hi : Nat} (h : s.MemOk) : (s.redt e op hi).st.MemOk :=
  redWrite_memOk h

theorem State.scan_memOk {e : VEntry} {op : RedOp} {excl : Bool} {hi : Nat} (h : s.MemOk) : (s.scan e op excl hi).st.MemOk := by
  unfold State.scan
  dsimp only
  split
  · exact xpHold_memOk h
  · split
    · exact h
    · exact orLaneFlags_memOk (setV_memOk h)

theorem State.permWord_memOk {e : VEntry} {hi : Nat} {F : View → Nat → Option Nat} (h : s.MemOk) : (s.permWord e hi F).st.MemOk := by
  unfold State.permWord
  dsimp only
  split
  · exact xpHold_memOk h
  · exact setV_memOk h

theorem laneVcompress_memOk {e : VEntry} {x hi : Nat} (h : s.MemOk) : (laneVcompress e x hi s).st.MemOk := by
  unfold laneVcompress
  dsimp only
  split
  · exact xpHold_memOk h
  · exact State.setV_memOk h

theorem laneVexpand_memOk {e : VEntry} {x hi : Nat} (h : s.MemOk) : (laneVexpand e x hi s).st.MemOk := by
  unfold laneVexpand
  dsimp only
  split
  · exact xpHold_memOk h
  · exact State.setV_memOk h

/-! ### The lanes -/

theorem laneOf_memOk {e : VEntry} {lo hi : Nat} (h : s.MemOk) : (laneOf e lo hi s).st.MemOk := by
  unfold laneOf
  split
  case h_1 | h_2 | h_3 | h_4 | h_5 | h_6 | h_7 | h_11 | h_12 | h_14 | h_24 | h_26 | h_50 => split_ifs <;> exact h
  case h_9 | h_25 | h_39 | h_46 | h_52 | h_66 => exact h
  case h_15 => split_ifs <;> exact State.redo_memOk h
  case h_16 => split_ifs <;> exact State.redt_memOk h
  case h_17 => split_ifs <;> exact State.scan_memOk h
  case h_18 => split_ifs <;> exact State.permWord_memOk h
  case h_19 => exact State.permWord_memOk h
  case h_21 => exact laneVcvt_memOk h
  case h_22 => exact laneVcvtEf_memOk h
  case h_28 => exact laneVlds_memOk h
  case h_29 => exact laneVldx_memOk h
  case h_30 => exact laneVldg_memOk h
  case h_32 => exact laneVsts_memOk h
  case h_33 => exact laneVstx_memOk h
  case h_34 => exact laneVstxo_memOk h
  case h_35 => exact laneVstg_memOk h
  case h_36 => exact prefElems_memOk h
  case h_37 => exact laneDone_memOk (State.commit_memOk h)
  case h_38 => exact laneCutstep_memOk h
  case h_40 => exact laneMouter_memOk h
  case h_41 => exact laneMouteri_memOk h
  case h_42 => exact laneMouterc_memOk h
  case h_43 => exact laneMlacc_memOk h
  case h_44 => exact laneMdrain_memOk h
  case h_45 => exact laneMtov_memOk h
  case h_49 => split_ifs <;> exact State.bapply_memOk h
  case h_53 => exact laneBsolve_memOk h
  case h_54 => split_ifs <;> exact State.vamoRun_memOk h
  case h_58 => exact laneVldr_memOk h
  case h_59 => exact laneVstr_memOk h
  case h_60 => split_ifs <;> exact State.stepWord_memOk h
  case h_62 => exact laneVcred_memOk h
  case h_64 => exact laneSetfmt_memOk h
  case h_67 => exact issueFail_memOk h
  case h_8 =>
    split_ifs
    exacts [h, h, h, h, h, laneDone_memOk (State.wrWord_memOk h), laneDone_memOk (State.wrWord_memOk h)]
  case h_10 =>
    split_ifs
    exacts [h, h, h, laneDone_memOk (State.wrWord_memOk h)]
  case h_13 =>
    split_ifs
    exacts [h, h, State.signWord_memOk h, State.signWord_memOk h, State.signWord_memOk h, State.signWord_memOk h, State.signWord_memOk h]
  case h_20 =>
    split_ifs
    exacts [laneVcompress_memOk h, laneVexpand_memOk h]
  case h_23 =>
    split_ifs
    exacts [laneVpack_memOk h, laneVunpack_memOk h]
  case h_27 =>
    split_ifs
    exacts [State.loadWord_memOk h, State.loadWord_memOk (State.takeChunk_memOk h), laneVldQ_memOk h]
  case h_31 =>
    split_ifs
    exacts [State.storeWord_memOk h, State.storeWord_memOk (State.takeChunk_memOk h), laneVstQ_memOk h]
  case h_47 =>
    split_ifs
    exacts [h, laneBtload_memOk h, State.storeRun_memOk h]
  case h_48 =>
    split_ifs
    exacts [laneBqr_memOk h, laneBqra_memOk h, laneBqrD_memOk h]
  case h_51 =>
    split_ifs
    exacts [laneBrot_memOk h, h]
  case h_55 =>
    split_ifs
    exacts [laneAccw_memOk h, laneVacc_memOk h, laneAmerge_memOk h, laneDone_memOk (State.ite_memOk (State.onLn_memOk h) h)]
  case h_56 =>
    split_ifs
    exacts [State.copyWord_memOk h, State.copyWord_memOk h, State.copyWord_memOk h, State.copyWord_memOk h, h]
  case h_57 =>
    split_ifs
    exacts [laneWdecl_memOk h, laneWdeclRel_memOk h]
  case h_61 =>
    split_ifs
    exacts [State.fsbind_memOk h, State.fsbind_memOk h, laneFsbindU_memOk h]
  case h_63 =>
    split_ifs
    exacts [h, laneSetvt_memOk h]
  case h_65 =>
    split_ifs
    exacts [laneMshape_memOk h, h]

theorem State.reserve_memOk {n : Nat} (h : s.MemOk) : (s.reserve n).MemOk := by
  unfold State.reserve
  dsimp only
  split
  · exact ite_memOk (onStream_memOk (atMember_memOk (fun _ hu => grantTo_memOk hu) h)) h
  · exact h

theorem State.askRoom_memOk {n size : Nat} (h : s.MemOk) : (s.askRoom n size).MemOk := by
  unfold State.askRoom
  dsimp only
  split
  · exact ite_memOk h (sendToMember_memOk h)
  · exact h

theorem State.showStream_memOk {e : VEntry} {lo r : Nat} (h : s.MemOk) : (s.showStream e lo r).MemOk := by
  unfold State.showStream
  split
  · exact h
  · exact onLn_memOk h

theorem State.popStream_memOk {e : VEntry} {lo top r : Nat} (h : s.MemOk) : (s.popStream e lo top r).MemOk :=
  grantAsks_memOk (onStream_memOk h)

theorem State.pushStream_memOk {e : VEntry} {lo top r : Nat} {x : VReg} (h : s.MemOk) : (s.pushStream e lo top r x).MemOk :=
  h

theorem State.openChunk_memOk {e : VEntry} {r : Nat} (h : s.MemOk) : (s.openChunk e r).1.MemOk := by
  unfold State.openChunk
  dsimp only
  split
  · exact h
  · exact ite_memOk (reserve_memOk (ite_memOk (askRoom_memOk (onStream_memOk h)) h)) (ite_memOk (askRoom_memOk (onStream_memOk h)) h)

theorem State.dropLost_memOk {rs : List Nat} (h : s.MemOk) : (s.dropLost rs).MemOk :=
  foldl_memOk (fun _ _ hu => onStream_memOk hu) h

theorem streamRun_memOk {e : VEntry} {lo hi : Nat} (h : s.MemOk) : (streamRun e lo hi s).st.MemOk := by
  have hopen := fun rs : List Nat => foldl_keeps (P := fun a : State × Bool => a.1.MemOk)
    (f := fun a r => ((a.1.openChunk e r).1, a.2 && (a.1.openChunk e r).2)) (fun _ _ ha => State.openChunk_memOk ha) rs (s, true) h
  have hmove : ∀ (u : State) (f : Lanes → Lanes) (rd wr : List Nat) (n : Nat) (x : VReg), u.MemOk →
      (wr.foldl (fun t r => t.pushStream e lo n r x) (rd.foldl (fun t r => t.popStream e lo n r) (u.onLn f))).MemOk :=
    fun _ _ _ _ _ _ hu => State.foldl_memOk (fun _ _ hv => State.pushStream_memOk hv)
      (State.foldl_memOk (fun _ _ hv => State.popStream_memOk hv) (State.onLn_memOk hu))
  have hshow := fun rs rd (f : Lanes → Lanes) => State.onLn_memOk (f := f)
    (State.foldl_memOk (f := fun t r => t.showStream e lo r) (l := rd) (fun _ _ hu => State.showStream_memOk hu) (hopen rs))
  unfold streamRun
  dsimp only
  split
  · exact h
  · split
    · exact hopen _
    · split
      · exact State.dropLost_memOk (hmove _ _ _ _ _ _ (laneOf_memOk (hshow _ _ _)))
      · exact hmove _ _ _ _ _ _ (laneOf_memOk (hshow _ _ _))

theorem State.ownStrip_memOk {run : State → LaneOut} {lo groups : Nat} (hrun : ∀ u, u.MemOk → (run u).st.MemOk) (h : s.MemOk) :
    (s.ownStrip run lo groups).st.MemOk := by
  grind [State.ownStrip, onSt_memOk, closeStrip_memOk]

theorem lanePlain_memOk {e : VEntry} {lo hi : Nat} (h : s.MemOk) : (lanePlain e lo hi s).st.MemOk := by
  unfold lanePlain
  split
  · exact streamRun_memOk h
  · exact laneOf_memOk h

theorem laneParts_memOk {e : VEntry} {lo hi : Nat} (h : s.MemOk) : (laneParts e lo hi s).st.MemOk := by
  grind [laneParts, lanePlain_memOk]

theorem laneRun_memOk {e : VEntry} {lo hi : Nat} (h : s.MemOk) : (laneRun e lo hi s).st.MemOk := by
  unfold laneRun
  split
  · exact issueFail_memOk h
  · split
    · exact State.ownStrip_memOk (fun _ hu => laneParts_memOk hu) h
    · exact laneParts_memOk h

/-! ### The VIQ -/

theorem State.closeChain_memOk (h : s.MemOk) : s.closeChain.MemOk :=
  ite_memOk (onFr_memOk (count_memOk h)) h

theorem State.mtcLane_memOk {n : Nat} {x : Word} (h : s.MemOk) : (s.mtcLane n x).MemOk := by
  unfold State.mtcLane
  split <;> exact h

theorem slotRun_memOk {e : VEntry} {lo hi : Nat} (h : s.MemOk) : (slotRun e lo hi s).st.MemOk := by
  unfold slotRun
  split
  · exact laneRun_memOk h
  · exact laneDone_memOk (State.mtcLane_memOk (State.retireHistory_memOk h))
  · split
    · exact laneDone_memOk (State.commit_memOk h)
    · exact laneDone_memOk (State.onLn_memOk (State.commit_memOk h))

theorem State.sampleIssue_memOk {e : VEntry} (h : s.MemOk) : (s.sampleIssue e).1.MemOk := by
  unfold State.sampleIssue
  split
  · exact h
  · exact onRegs_memOk h

theorem State.sampleRecord_memOk {e : VEntry} (h : s.MemOk) : (s.sampleRecord e).MemOk :=
  traceSend_memOk (draw_memOk h)

theorem State.firstIssue_memOk {e : VEntry} {vcp : Word} (h : s.MemOk) : (s.firstIssue e vcp).1.MemOk := by
  unfold State.firstIssue
  split
  · exact h
  · exact sampleIssue_memOk h

theorem State.zeroIndex_memOk {e : VEntry} (h : s.MemOk) : (s.zeroIndex e).MemOk :=
  h

theorem VEntry.finish_memOk {e : VEntry} (h : s.MemOk) : (VEntry.finish e s).1.MemOk := by
  unfold VEntry.finish
  split
  · exact State.orLaneFlags_memOk h
  · exact h

theorem slotIssued_memOk {e : VEntry} (h : s.MemOk) : (slotIssued e s).st.MemOk := by
  unfold slotIssued
  split
  · exact slotRun_memOk h
  · exact h

theorem ConvoyRun.member_memOk {lim : Limit} {cut : Nat → Bool} {vcp : Word} {j : Nat} {e0 : VEntry} {a : ConvoyRun} (h : a.st.MemOk)
    : (ConvoyRun.member lim cut vcp j e0 a).st.MemOk := by
  grind [ConvoyRun.member, State.firstIssue_memOk, slotIssued_memOk, slotRun_memOk, State.zeroIndex_memOk, VEntry.finish_memOk]

theorem oldSlots_memOk {es : List VEntry} (h : s.MemOk) : (oldSlots es s).MemOk := by
  grind [oldSlots, State.onLn_memOk, State.foldl_memOk]

theorem newSlots_memOk {es : List VEntry} {before after : State} (hafter : after.MemOk) : (newSlots es before after).1.MemOk := by
  refine List.foldrRecOn (motive := fun r : State × List VEntry => r.1.MemOk) es _ hafter fun r hr e _ => ?_
  split
  · split
    · exact hr
    · exact State.onLn_memOk hr
  · exact hr

theorem ConvoyRun.memberOn_memOk {lim : Limit} {cut : Nat → Bool} {vcp : Word} {j : Nat} {e : VEntry} {es : List VEntry}
    {a : ConvoyRun} (h : a.st.MemOk) : (ConvoyRun.memberOn lim cut vcp j e es a).1.st.MemOk := by
  grind [ConvoyRun.memberOn, ConvoyRun.member_memOk, oldSlots_memOk, newSlots_memOk]

theorem runMembers_memOk {lim : Limit} {cut : Nat → Bool} {vcp : Word} {n j : Nat} {es : List VEntry} {a : ConvoyRun} (h : a.st.MemOk)
    : (runMembers lim cut vcp n j es a).st.MemOk := by
  induction n generalizing j es a with
  | zero => exact h
  | succ n ih =>
    cases es with
    | nil => exact h
    | cons e es => exact ih (ConvoyRun.memberOn_memOk h)

theorem ConvoyRun.start_memOk (h : s.MemOk) : (ConvoyRun.start s).st.MemOk :=
  h

theorem State.retireConvoy_memOk {ms rest : List VEntry} (h : s.MemOk) : (s.retireConvoy ms rest).MemOk :=
  leaveStores_memOk (retireHistory_memOk (onFr_memOk (foldl_memOk (fun _ _ hu => ite_memOk (onFr_memOk hu) (ite_memOk
      (sampleRecord_memOk (ite_memOk (count_memOk hu) hu)) (ite_memOk (count_memOk hu) hu))) h)))

theorem State.beforeStep_memOk {e : VEntry} (h : s.MemOk) : (s.beforeStep e).MemOk :=
  h

theorem State.convoyFault_memOk {ms : List VEntry} {k : Nat} {x : LStop} (h : s.MemOk) : (s.convoyFault ms k x).MemOk := by
  unfold State.convoyFault
  split
  · exact takeException_memOk (leaveStores_memOk (retireHistory_memOk (ite_memOk (beforeStep_memOk (unwind_memOk h)) (unwind_memOk h))))
  · exact h

theorem State.storesBefore_memOk (h : s.MemOk) : s.storesBefore.MemOk := by
  unfold State.storesBefore
  split
  · exact h
  · exact foldl_memOk (fun _ _ hu => ite_memOk (leaveHead_memOk hu) hu) h

theorem State.issueConvoy_memOk {lim : Limit} {s0 : State} (hs0 : s0.MemOk) : (s0.issueConvoy lim).1.MemOk := by
  unfold State.issueConvoy
  dsimp only
  split
  · exact storesBefore_memOk hs0
  · split
    · exact onFr_memOk (runMembers_memOk (ConvoyRun.start_memOk (storesBefore_memOk hs0)))
    · exact convoyFault_memOk (runMembers_memOk (ConvoyRun.start_memOk (storesBefore_memOk hs0)))

theorem State.retireFront_memOk (h : s.MemOk) : s.retireFront.MemOk :=
  ite_memOk (retireConvoy_memOk h) h

theorem State.runClosed_memOk {n : Nat} (h : s.MemOk) : (State.runClosed n s).1.MemOk := by
  induction n generalizing s with
  | zero => exact h
  | succ n ih => grind [State.runClosed, State.issueConvoy_memOk, State.retireFront_memOk]

theorem State.settle_memOk (h : s.MemOk) : s.settle.1.MemOk := by
  unfold State.settle
  split
  · exact h
  · dsimp only
    split
    · split <;> exact runClosed_memOk (closeChain_memOk h)
    · split <;> exact closeChain_memOk h

theorem State.frontStop_memOk {c : ExcCause} {idx : Word} {flg : Flags} (h : s.MemOk) : (s.frontStop c idx flg).MemOk := by
  unfold State.frontStop
  split
  · next e => exact takeException_memOk (fst_memOk e (settle_memOk h))
  · next e => exact fst_memOk e (settle_memOk h)

theorem State.frontFault_memOk {c : ExcCause} (h : s.MemOk) : (s.frontFault c).MemOk :=
  frontStop_memOk h

theorem State.orWait_memOk {t₀ : State} (h : s.MemOk) (ht₀ : t₀.MemOk) : (s.orWait t₀).MemOk :=
  ite_memOk h ht₀

theorem State.append_memOk {e : VEntry} {joined chain : Bool} {next : State → State} (hnext : ∀ u, u.MemOk → (next u).MemOk)
    (h : s.MemOk) : (s.append e joined chain next).MemOk := by
  grind [State.append, count_memOk, onFr_memOk]

theorem State.runAhead_memOk (h : s.MemOk) : s.runAhead.MemOk :=
  ite_memOk (runClosed_memOk h) h

theorem State.sendEntry_memOk {op : Nat} {w : VWord} {front : State → VEntry → State × VEntry}
    (hfront : ∀ u j, u.MemOk → (front u j).1.MemOk) (h : s.MemOk) : (s.sendEntry op w front).MemOk := by
  grind [State.sendEntry, closeChain_memOk, runClosed_memOk, append_memOk, seqNext_memOk, onFr_memOk, runAhead_memOk]

theorem State.sendWith_memOk {op : Nat} {w : VWord} {front : State → VEntry → State × VEntry}
    (hfront : ∀ u j, u.MemOk → (front u j).1.MemOk) (h : s.MemOk) : (s.sendWith op w front).MemOk :=
  ite_memOk (frontFault_memOk h) (ite_memOk (frontFault_memOk h) (sendEntry_memOk hfront h))

theorem State.send_memOk {op : Nat} {w : VWord} (h : s.MemOk) : (s.send op w).MemOk :=
  sendWith_memOk (fun _ _ hu => hu) h

theorem State.sendSlot_memOk {slot : Slot} {half : Nat} {x : Word} {next front : State → State}
    (hnext : ∀ u, u.MemOk → (next u).MemOk) (hfront : ∀ u, u.MemOk → (front u).MemOk) (h : s.MemOk) :
    (s.sendSlot slot half x next front).MemOk := by
  unfold State.sendSlot
  split
  · exact frontFault_memOk h
  · dsimp only
    generalize hr : (if s.closeChain.prompt then _ else _ : State × Settled) = r
    have hr1 : r.1.MemOk := by
      rw [← hr]
      split
      · exact runClosed_memOk (closeChain_memOk h)
      · exact closeChain_memOk h
    split
    · exact hr1
    · exact runAhead_memOk (append_memOk hnext (hfront _ hr1))

/-! ### Control registers -/

theorem State.mtcFront_memOk {n : Nat} {x : Word} (h : s.MemOk) : (s.mtcFront n x).MemOk := by
  unfold State.mtcFront
  split
  · exact onRegs_memOk (log_memOk h)
  · exact onRegs_memOk (log_memOk h)
  · exact onRegs_memOk (log_memOk h)
  · exact onRegs_memOk (log_memOk h)
  · exact onRegs_memOk (log_memOk h)
  · exact onRegs_memOk (log_memOk h)
  · exact onRegs_memOk (log_memOk h)
  · exact onRegs_memOk (log_memOk (log_memOk h))
  · exact onRegs_memOk (log_memOk h)
  · exact h

theorem State.mtcFrontNext_memOk {n : Nat} {x : Word} (h : s.MemOk) : (s.mtcFrontNext n x).MemOk :=
  ite_memOk (mtcFront_memOk (seqNext_memOk h)) (seqNext_memOk (mtcFront_memOk h))

theorem State.mtcCopies_memOk {n : Nat} {x : Word} (h : s.MemOk) : (s.mtcCopies n x).MemOk := by
  unfold State.mtcCopies
  split
  · exact onCopy_memOk (log_memOk h)
  · exact onCopy_memOk (log_memOk h)
  · exact onCopy_memOk (log_memOk h)
  · exact h

theorem State.readCr_memOk {d : RegNo} {n : Nat} (h : s.MemOk) : (s.readCr d n).MemOk := by
  unfold State.readCr
  split
  · exact frontFault_memOk h
  · split
    · next e' => exact ite_memOk (fst_memOk e' (settle_memOk h)) (seqNext_memOk (wr_memOk (fst_memOk e' (settle_memOk h))))
    · next e' => exact fst_memOk e' (settle_memOk h)
  · exact seqNext_memOk (wr_memOk h)

theorem State.writeCr_memOk {half : Nat} {x : Word} {n : Nat} (h : s.MemOk) : (s.writeCr half x n).MemOk := by
  unfold State.writeCr
  split
  · exact frontFault_memOk h
  · exact ite_memOk (seqNext_memOk h) (ite_memOk (frontFault_memOk h) (sendSlot_memOk (fun _ hu => seqNext_memOk hu) (fun _ hu =>
        mtcCopies_memOk hu) h))
  · exact ite_memOk (ite_memOk (frontFault_memOk h) (seqNext_memOk (onM_memOk h))) (seqNext_memOk h)
  · exact ite_memOk (frontFault_memOk h) (mtcFrontNext_memOk h)

theorem State.mtcmCopies_memOk {n : Nat} {x : Word} (h : s.MemOk) : (s.mtcmCopies n x).MemOk := by
  unfold State.mtcmCopies
  split
  · exact onCopy_memOk (log_memOk h)
  · exact onCopy_memOk (log_memOk h)
  · exact onCopy_memOk (log_memOk h)
  · exact onCopy_memOk (log_memOk h)
  · exact h

theorem State.writeCrM_memOk {half : Nat} {x : Word} {n : Nat} (h : s.MemOk) : (s.writeCrM half x n).MemOk := by
  unfold State.writeCrM
  split
  · exact frontFault_memOk h
  · split
    · exact sendSlot_memOk (fun _ hu => seqNext_memOk hu) (fun _ hu => mtcmCopies_memOk hu) h
    · split
      · exact seqNext_memOk (onRegs_memOk (log_memOk h))
      · exact seqNext_memOk (onRegs_memOk (log_memOk h))
      · exact seqNext_memOk (onRegs_memOk (log_memOk h))
      · exact writeCr_memOk h

/-! ### Scalar words -/

theorem State.advance_memOk {n : Nat} (h : s.MemOk) : (s.advance n).MemOk := by
  unfold State.advance
  split
  · exact onFr_memOk h
  · exact seqNext_memOk h

theorem State.scalarFault_memOk {c : ExcCause} {idx : Word} {flg : Flags} (h : s.MemOk) : (s.scalarFault c idx flg).MemOk := by
  unfold State.scalarFault
  split
  · exact takeException_memOk h
  · exact frontStop_memOk h

theorem State.wrFlags_memOk {d : RegNo} {x : Word} {fl : Flags} (h : s.MemOk) : (s.wrFlags d x fl).MemOk :=
  ite_memOk (wr_memOk h) (ite_memOk (onFr_memOk h) (wr_memOk (raiseFlags_memOk h)))

theorem State.result_memOk {d : RegNo} {x : Word} (h : s.MemOk) : (s.result d x).MemOk :=
  advance_memOk (wr_memOk h)

theorem State.resultFlags_memOk {d : RegNo} {x : Word} {fl : Flags} (h : s.MemOk) : (s.resultFlags d x fl).MemOk :=
  ite_memOk (scalarFault_memOk h) (advance_memOk (wrFlags_memOk h))

theorem State.alu2_memOk {f : Word → Word → Word} {d a b : RegNo} (h : s.MemOk) : (s.alu2 f d a b).MemOk :=
  result_memOk h

theorem State.alu1_memOk {f : Word → Word} {d a : RegNo} (h : s.MemOk) : (s.alu1 f d a).MemOk :=
  result_memOk h

theorem State.aluK_memOk {f : Word → Word → Word} {d a : RegNo} {i : BitVec 13} (h : s.MemOk) : (s.aluK f d a i).MemOk :=
  result_memOk h

theorem State.divide_memOk {f : Word → Word → Word} {d a b : RegNo} (h : s.MemOk) : (s.divide f d a b).MemOk :=
  resultFlags_memOk h

theorem State.scalarCheck_memOk {va : Word} {n : Nat} {acc : Access} (h : s.MemOk) : (s.scalarCheck va n acc).1.MemOk := by
  unfold State.scalarCheck
  split
  · exact h
  · split
    · exact h
    · next e =>
      have hx := xlate_memOk h e
      split
      · exact hx
      · split <;> exact hx

theorem State.dcacheTouch_memOk {pa kind : Nat} (h : s.MemOk) : (s.dcacheTouch pa kind).MemOk := by
  unfold State.dcacheTouch
  split
  · split
    · exact h
    · exact onUnc_memOk (l2Read_memOk h)
  · exact l2Read_memOk h

theorem State.load_memOk {n : Nat} {ext : Nat → Word} {d a : RegNo} {i : BitVec 13} (h : s.MemOk) : (s.load n ext d a i).MemOk := by
  unfold State.load
  split
  · next e => exact fst_memOk e (scalarCheck_memOk h)
  · next e => exact scalarFault_memOk (fst_memOk e (scalarCheck_memOk h))
  · next e =>
    have ht := fst_memOk e (scalarCheck_memOk h)
    split
    · split
      · next e' => exact leaveStores_memOk (fst_memOk e' (settle_memOk ht))
      · next e' => exact fst_memOk e' (settle_memOk ht)
    · have hu := fun kind : Nat => ite_memOk (c := kind = 1) (soGate_memOk (kind := 1) ht) ht
      exact ite_memOk (hu _) (ite_memOk (scalarFault_memOk (hu _))
        (advance_memOk (wr_memOk (ite_memOk (l2Read_memOk (hu _)) (dcacheTouch_memOk (hu _))))))

theorem State.enqueue_memOk {pa kind : Nat} {bs : List Byte} (h : s.MemOk) : (s.enqueue pa kind bs).MemOk :=
  leaveStores_memOk (onFr_memOk (countDs_memOk h))

theorem State.laneStore_memOk {pa kind : Nat} {bs : List Byte} (h : s.MemOk) : (s.laneStore pa kind bs).MemOk :=
  ite_memOk (advance_memOk (countDs_memOk (enterGroup_memOk (ite_memOk (soGate_memOk h) h)))) (enterGroup_memOk (ite_memOk
      (soGate_memOk h) h))

theorem State.store_memOk {n : Nat} {a b : RegNo} {i : BitVec 13} (h : s.MemOk) : (s.store n a b i).MemOk := by
  unfold State.store
  split
  · next e => exact fst_memOk e (scalarCheck_memOk h)
  · next e => exact scalarFault_memOk (fst_memOk e (scalarCheck_memOk h))
  · next e => exact ite_memOk (laneStore_memOk (fst_memOk e (scalarCheck_memOk h))) (advance_memOk (enqueue_memOk (fst_memOk e
        (scalarCheck_memOk h))))

theorem State.fpResult_memOk {d : RegNo} {r : Elt} (h : s.MemOk) : (s.fpResult d r).MemOk :=
  resultFlags_memOk h

theorem State.fp2_memOk {f : Fmt} {op : Nat → Nat → Elt} {d a b : RegNo} (h : s.MemOk) : (s.fp2 f op d a b).MemOk :=
  fpResult_memOk h

theorem State.fpFma_memOk {f : Fmt} {np nc : Bool} {m : BitVec 3} {d a b : RegNo} (h : s.MemOk) : (s.fpFma f np nc m d a b).MemOk :=
  fpResult_memOk h

theorem State.cvtToInt_memOk {f : Fmt} {signed : Bool} {m : BitVec 3} {d a : RegNo} (h : s.MemOk) : (s.cvtToInt f signed m d a).MemOk :=
  fpResult_memOk h

theorem State.cvtOfInt_memOk {f : Fmt} {signed : Bool} {m : BitVec 3} {d a : RegNo} (h : s.MemOk) : (s.cvtOfInt f signed m d a).MemOk :=
  fpResult_memOk h

/-! ### Control flow words -/

theorem State.icacheTouch_memOk {line : Nat} (h : s.MemOk) : (s.icacheTouch line).1.MemOk := by
  unfold State.icacheTouch
  split
  · exact h
  · exact onUnc_memOk (l2Read_memOk h)

theorem State.fetchFresh_memOk {va : Word} {n : Nat} (h : s.MemOk) : (s.fetchFresh va n).1.MemOk := by
  unfold State.fetchFresh
  split
  · exact h
  · next e =>
    have hx := xlate_memOk h e
    split
    · split
      · exact hx
      · exact onFr_memOk (icacheTouch_memOk hx)
    · exact hx

theorem State.fetch_memOk {va : Word} {n : Nat} (h : s.MemOk) : (s.fetch va n).1.MemOk := by
  unfold State.fetch
  split
  · split
    · exact h
    · exact fetchFresh_memOk h
  · exact fetchFresh_memOk h

theorem State.goTo_memOk {t₀ : Word} (h : s.MemOk) : (s.goTo t₀).MemOk := by
  unfold State.goTo
  split
  · exact onFr_memOk h
  · exact branchTo_memOk h

theorem State.branchIf_memOk {R : Word → Word → Bool} {a b : RegNo} {i : BitVec 13} (h : s.MemOk) : (s.branchIf R a b i).MemOk :=
  ite_memOk (goTo_memOk h) (advance_memOk h)

theorem State.link_memOk (h : s.MemOk) : s.link.MemOk :=
  wr_memOk h

theorem State.targetWord_memOk {t₀ : Word} (h : s.MemOk) : (s.targetWord t₀).1.MemOk := by
  unfold State.targetWord
  split
  · exact h
  · split
    · next e' => exact fst_memOk e' (fetchFresh_memOk h)
    · next e' => exact fst_memOk e' (fetchFresh_memOk h)

theorem State.indirect_memOk {pad : BitVec 32} {withLink : Bool} {a : RegNo} (h : s.MemOk) : (s.indirect pad withLink a).MemOk :=
  ite_memOk (scalarFault_memOk h) (ite_memOk (scalarFault_memOk (targetWord_memOk h)) (goTo_memOk (ite_memOk (link_memOk
      (targetWord_memOk h)) (targetWord_memOk h))))

theorem State.breakLoop_memOk {n : Bool} (h : s.MemOk) : (s.breakLoop n).MemOk :=
  ite_memOk (ite_memOk (dropSet_memOk (dropSet_memOk h)) (dropSet_memOk h)) h

theorem State.startLoop_memOk {n : Bool} {c e : Word} (h : s.MemOk) : (s.startLoop n c e).MemOk :=
  setZc_memOk (onRegs_memOk (log_memOk (onRegs_memOk (log_memOk h))))

theorem State.loopWord_memOk {n : Bool} {a : RegNo} {i : BitVec 13} (h : s.MemOk) : (s.loopWord n a i).MemOk :=
  ite_memOk (frontFault_memOk h) (ite_memOk (onFr_memOk (arrive_memOk h)) (seqNext_memOk (startLoop_memOk h)))

theorem State.smbAdvance_memOk {vl j : Nat} (h : s.MemOk) : (s.smbAdvance vl j).MemOk :=
  ite_memOk h (wr_memOk h)

theorem State.smbScalar_memOk {a : RegNo} {n : Int} {vl : Nat} (h : s.MemOk) : (s.smbScalar a n vl).MemOk :=
  onRegs_memOk (log_memOk (forUpTo_memOk (fun _ _ hu => smbAdvance_memOk hu) (wr_memOk h)))

theorem State.grantVl_memOk {n : Nat} (h : s.MemOk) : (s.grantVl n).MemOk :=
  onCopy_memOk (log_memOk h)

theorem State.smbWord_memOk {a : RegNo} {i : BitVec 13} (h : s.MemOk) : (s.smbWord a i).MemOk :=
  ite_memOk (frontFault_memOk h) (ite_memOk (frontFault_memOk h) (sendSlot_memOk (fun _ hu => ite_memOk (branchTo_memOk hu)
      (seqNext_memOk hu)) (fun _ hu => ite_memOk (grantVl_memOk (smbScalar_memOk hu)) (smbScalar_memOk hu)) h))

theorem fetchCode_memOk {va : Word} {n : Nat} (h : s.MemOk) : (fetchCode va n s).1.MemOk := by
  induction n generalizing va s with
  | zero => exact h
  | succ n ih =>
    unfold fetchCode
    split
    · next e => exact fst_memOk e (State.fetchFresh_memOk h)
    · next e =>
      have ht := fst_memOk e (State.fetchFresh_memOk h)
      split
      · next e' => exact fst_memOk e' (ih ht)
      · exact ih ht

theorem State.lsplitWord_memOk {a b : RegNo} (h : s.MemOk) : (s.lsplitWord a b).MemOk := by
  unfold State.lsplitWord
  split
  · exact frontFault_memOk h
  · dsimp only
    split
    · exact frontFault_memOk h
    · split
      · next e =>
        have ht := fst_memOk e (settle_memOk h)
        split
        · next e' => exact onFr_memOk (takeException_memOk (fst_memOk e' (fetchCode_memOk ht)))
        · next e' => exact onFr_memOk (fst_memOk e' (fetchCode_memOk ht))
      · next e => exact fst_memOk e (settle_memOk h)

theorem State.ljoinWord_memOk (h : s.MemOk) : s.ljoinWord.MemOk := by
  unfold State.ljoinWord
  split
  · exact ite_memOk (seqNext_memOk (onFr_memOk h)) (onFr_memOk h)
  · exact frontFault_memOk h

theorem State.timeReturn_memOk {d : RegNo} {t₀ : Word} (h : s.MemOk) : (s.timeReturn d t₀).MemOk :=
  ite_memOk (seqNext_memOk (wr_memOk (onFr_memOk h))) (onFr_memOk h)

theorem State.finishThread_memOk (h : s.MemOk) : s.finishThread.MemOk :=
  onTh_memOk (freeSlot_memOk (onLaunch_memOk (disownCopies_memOk h)))

theorem State.endWord_memOk (h : s.MemOk) : s.endWord.MemOk := by
  unfold State.endWord
  split
  · exact frontFault_memOk h
  · split
    · next e' => exact ite_memOk (finishThread_memOk (ite_memOk (sendSlot_memOk (fun _ hu => hu) (fun _ hu => hu) (leaveStores_memOk
          (fst_memOk e' (settle_memOk h)))) (leaveStores_memOk (fst_memOk e' (settle_memOk h))))) (ite_memOk (sendSlot_memOk (fun _ hu
          => hu) (fun _ hu => hu) (leaveStores_memOk (fst_memOk e' (settle_memOk h)))) (leaveStores_memOk (fst_memOk e' (settle_memOk
          h))))
    · next e' => exact fst_memOk e' (settle_memOk h)

/-! ### Images of threads -/

theorem State.placeImage_memOk {r : List VEntry × Vector Nat 64 × Vector Nat 8} (h : s.MemOk) : (s.placeImage r).MemOk :=
  h

theorem imageCells_memOk {acc : Access} {va : Word} {n : Nat} (h : s.MemOk) : (imageCells acc va n s).1.MemOk := by
  induction n generalizing va s with
  | zero => exact h
  | succ n ih => grind [imageCells, State.xlate_memOk]

theorem writeBlocks_memOk {as : List Nat} {bs : List Byte} (h : s.MemOk) : (writeBlocks as bs s).MemOk := by
  induction as generalizing bs s with
  | nil => exact h
  | cons a as ih => exact ih (State.perform_memOk (State.dcacheStore_memOk h))

theorem State.vqsaveWord_memOk {a : RegNo} (h : s.MemOk) : (s.vqsaveWord a).MemOk := by
  unfold State.vqsaveWord
  dsimp only
  split
  · exact frontFault_memOk (leaveStores_memOk h)
  · split
    · exact frontFault_memOk (leaveStores_memOk h)
    · split
      · next e => exact frontFault_memOk (fst_memOk e (imageCells_memOk (leaveStores_memOk h)))
      · next e => exact seqNext_memOk (onFr_memOk (onM_memOk (writeBlocks_memOk (fst_memOk e (imageCells_memOk (leaveStores_memOk h))))))

theorem State.vqrestoreWord_memOk {a : RegNo} {s0 : State} (hs0 : s0.MemOk) : (s0.vqrestoreWord a).MemOk := by
  unfold State.vqrestoreWord
  split
  · exact frontFault_memOk hs0
  · split
    · next e =>
      have h1 := leaveStores_memOk (fst_memOk e (settle_memOk hs0))
      dsimp only
      split
      · exact frontFault_memOk h1
      · split
        · next e => exact frontFault_memOk (fst_memOk e (imageCells_memOk h1))
        · next e =>
          have h2 := fst_memOk e (imageCells_memOk h1)
          split
          · exact frontFault_memOk h2
          · split
            · next e => exact frontFault_memOk (fst_memOk e (imageCells_memOk h2))
            · next e =>
              have h3 := fst_memOk e (imageCells_memOk h2)
              split
              · exact frontFault_memOk h3
              · exact seqNext_memOk (onM_memOk (placeImage_memOk h3))
    · next e => exact fst_memOk e (settle_memOk hs0)

theorem State.setCr_memOk {n : Nat} {x : Word} (h : s.MemOk) (e : s.setCr n x = some t) : t.MemOk := by
  unfold State.setCr at e
  split at e
  · contradiction
  · split at e
    case h_8 => exact ite_none_memOk e h
    case h_13 =>
      split at e
      · exact Option.some.inj e ▸ onFr_memOk (mtcFront_memOk h)
      · exact ite_some_memOk e (mtcLane_memOk h)
      · contradiction
    all_goals exact Option.some.inj e ▸ h

/-! ### System words -/

theorem State.trapNext_memOk {c : ExcCause} {idx : Word} (h : s.MemOk) : (s.trapNext c idx).MemOk :=
  takeException_memOk (seqNext_memOk h)

theorem State.trapWord_memOk {a : RegNo} (h : s.MemOk) : (s.trapWord a).MemOk := by
  unfold State.trapWord
  split
  · exact frontFault_memOk h
  · split
    · next e' => exact trapNext_memOk (fst_memOk e' (settle_memOk h))
    · next e' => exact fst_memOk e' (settle_memOk h)

theorem State.afterStores_memOk {k : State → State} (hk : ∀ u, u.MemOk → (k u).MemOk) (h : s.MemOk) : (s.afterStores k).MemOk := by
  unfold State.afterStores
  split
  · next e =>
    have hu := leaveStores_memOk (fst_memOk e (settle_memOk h))
    exact ite_memOk (hk _ hu) hu
  · next e => exact fst_memOk e (settle_memOk h)

theorem State.haltWord_memOk {a : RegNo} (h : s.MemOk) : (s.haltWord a).MemOk := by
  unfold State.haltWord
  split
  · next e => exact ite_memOk (fatalEnd_memOk (leaveStores_memOk (fst_memOk e (settle_memOk h)))) (leaveStores_memOk (fst_memOk e
        (settle_memOk h)))
  · next e => exact fst_memOk e (settle_memOk h)

theorem State.counter_memOk {n : Nat} (h : s.MemOk) {y : Word} (e : s.counter n = some (t, y)) : t.MemOk := by
  grind [State.counter, draw_memOk, onTh_memOk]

theorem State.trcRecord_memOk {x : Word} (h : s.MemOk) : (s.trcRecord x).MemOk :=
  ite_memOk (traceSend_memOk h) h

/-! ### VIQ words at the front -/

theorem setvlFront_memOk {w : VWord} {e : VEntry} (h : s.MemOk) : (setvlFront w s e).1.MemOk :=
  State.wr_memOk (State.grantVl_memOk h)

theorem tshapeFront_memOk {w : VWord} {e : VEntry} (h : s.MemOk) : (tshapeFront w s e).1.MemOk :=
  State.wr_memOk (State.onCopy_memOk (State.log_memOk h))

theorem mmodeFront_memOk {w : VWord} {e : VEntry} (h : s.MemOk) : (mmodeFront w s e).1.MemOk :=
  State.onCopy_memOk (State.log_memOk (State.log_memOk h))

theorem chunkFront_memOk {x : VWord} {e : VEntry} (h : s.MemOk) : (chunkFront x s e).1.MemOk :=
  State.onCopy_memOk (State.log_memOk h)

theorem scommitFront_memOk {e : VEntry} (h : s.MemOk) : (scommitFront s e).1.MemOk :=
  State.onRegs_memOk (State.log_memOk h)

theorem State.sendU_memOk {op : Nat} {w : VWord} {front : State → VEntry → State × VEntry}
    (hfront : ∀ u j, u.MemOk → (front u j).1.MemOk) (h : s.MemOk) : (s.sendU op w front).MemOk :=
  ite_memOk (frontFault_memOk h) (sendWith_memOk hfront h)

theorem State.sendCpw_memOk {w : VWord} (h : s.MemOk) : (s.sendCpw w).MemOk :=
  ite_memOk (onFr_memOk (send_memOk h)) (send_memOk h)

/-! ### Fabric and atomic words of the front -/

theorem State.frontOrder_memOk {ord : Nat} {k : State → State} (hk : ∀ u, u.MemOk → (k u).MemOk) (h : s.MemOk) :
    (s.frontOrder ord k).MemOk := by
  unfold State.frontOrder
  split
  · next e =>
    have hu := leaveStores_memOk (fst_memOk e (settle_memOk h))
    exact ite_memOk (hk _ (release_memOk hu)) hu
  · next e => exact fst_memOk e (settle_memOk h)

theorem State.frontAcquire_memOk {ord scope : Nat} (h : s.MemOk) : (s.frontAcquire ord scope).MemOk :=
  ite_memOk (acquire_memOk h) h

theorem State.atHome_memOk {va : Word} {sz : Nat} {k : Nat → State → State} (hk : ∀ i u, u.MemOk → (k i u).MemOk) (h : s.MemOk) :
    (s.atHome va sz k).MemOk := by
  unfold State.atHome
  split
  · next e => exact frontFault_memOk (fst_memOk e (atomicCheck_memOk h))
  · next pa kind e =>
    have hg : (State.atomicGate pa sz (State.soGate kind _)).MemOk :=
      atomicGate_memOk (soGate_memOk (fst_memOk e (atomicCheck_memOk h)))
    exact ite_memOk hg (ite_memOk (frontFault_memOk hg) (hk _ _ (l2Read_memOk hg)))

theorem State.amoDone_memOk {d : RegNo} {x : Word} {fl : Flags} (h : s.MemOk) : (s.amoDone d x fl).MemOk :=
  ite_memOk (takeException_memOk (ite_memOk (wr_memOk h) (seqNext_memOk (wr_memOk h)))) (seqNext_memOk (wrFlags_memOk h))

theorem State.amoWord_memOk {op : Nat} {w : VWord} (h : s.MemOk) : (s.amoWord op w).MemOk :=
  frontOrder_memOk (fun _ hu => atHome_memOk (fun _ _ hv => amoDone_memOk (frontAcquire_memOk (homePut_memOk hv))) hu) h

theorem State.withSync_memOk {x : Word} {k : Nat → Nat → State → State} (hk : ∀ i j u, u.MemOk → (k i j u).MemOk) (h : s.MemOk) :
    (s.withSync x k).MemOk :=
  ite_memOk (frontFault_memOk h) (ite_memOk (frontFault_memOk h) (hk _ _ _ h))

theorem State.syncHome_memOk {w : VWord} {returns : Bool} {f : Word → Word → Word} (h : s.MemOk) : (s.syncHome w returns f).MemOk :=
  withSync_memOk (fun _ _ _ hu => frontOrder_memOk (fun _ hv => seqNext_memOk (ite_memOk (wr_memOk (frontAcquire_memOk (syncPut_memOk
      hv))) (frontAcquire_memOk (syncPut_memOk hv)))) hu) h

theorem State.notePhase_memOk {reg : Nat} (h : s.MemOk) : (s.notePhase reg).MemOk :=
  h

theorem State.huddleWord_memOk {w : VWord} {drop : Bool} (h : s.MemOk) : (s.huddleWord w drop).MemOk := by
  refine withSync_memOk (fun _ _ _ hu => frontOrder_memOk (fun _ ht => ?_) hu) h
  dsimp only
  split
  · exact seqNext_memOk (wr_memOk ht)
  · split
    · exact seqNext_memOk (wr_memOk ht)
    · exact seqNext_memOk (wr_memOk (ite_memOk (syncPut_memOk ht) (notePhase_memOk (syncPut_memOk ht))))

theorem State.huddleReturn_memOk {reg gen : Nat} (h : s.MemOk) : (s.huddleReturn reg gen).MemOk :=
  ite_memOk (onFr_memOk h) (seqNext_memOk (acquire_memOk (onFr_memOk h)))

theorem State.postPut_memOk {core tag : Nat} {v : BitVec 48} (h : s.MemOk) : (s.postPut core tag v).MemOk :=
  h

theorem State.setLast_memOk {v : BitVec 48} (h : s.MemOk) : (s.setLast v).MemOk :=
  onRegs_memOk (log_memOk h)

theorem State.withPost_memOk {x : Word} {k : BitVec 48 → State → State} (hk : ∀ i u, u.MemOk → (k i u).MemOk) (h : s.MemOk) :
    (s.withPost x k).MemOk :=
  ite_memOk (frontFault_memOk h) (ite_memOk (frontFault_memOk h) (hk _ _ h))

theorem State.postWord_memOk {w : VWord} {set : Bool} (h : s.MemOk) : (s.postWord w set).MemOk := by
  grind [State.postWord, withPost_memOk, frontOrder_memOk, postPut_memOk, seqNext_memOk, setLast_memOk, State.MemOk]

theorem State.ringReturn_memOk {v : Nat} (h : s.MemOk) : (s.ringReturn v).MemOk :=
  ite_memOk (onFr_memOk h) (seqNext_memOk (acquire_memOk (setLast_memOk (onFr_memOk h))))

theorem State.awWrite_memOk {pa : Nat} {f : Word → Word → Word × Word} (h : s.MemOk) : (s.awWrite pa f).MemOk :=
  dcacheStore_memOk (awUpdate_memOk h)

theorem State.awWord_memOk {w : VWord} {bad : Nat → Bool} {f : Nat → Word → Word → Word × Word} (h : s.MemOk) :
    (s.awWord w bad f).MemOk :=
  ite_memOk (frontFault_memOk h) (frontOrder_memOk (fun _ hu => atHome_memOk (fun _ _ hv => seqNext_memOk (awWrite_memOk hv)) hu) h)

theorem State.arrivalReturn_memOk {d : RegNo} {va : Word} {gen ord scope : Nat} (h : s.MemOk) :
    (s.arrivalReturn d va gen ord scope).MemOk :=
  atHome_memOk (fun _ _ hu => ite_memOk (onFr_memOk hu) (seqNext_memOk (wr_memOk (frontAcquire_memOk (onFr_memOk hu))))) h

/-! ### Words in a lane -/

theorem laneExec_memOk {i : Instr} (h : s.MemOk) : NextMemOk (laneExec i s) := by
  cases i
  case add | sub | and | or | xor | andn | sll | srl | sra | ror | slt | sltn | min | max | minn | maxn | mul | mulh | mulhn
      =>
    exact nextMemOk_next (State.alu2_memOk h)
  case clz | ctz | cpop | slli | srli | srai =>
    exact nextMemOk_next (State.alu1_memOk h)
  case div | divn | rem | remn =>
    exact nextMemOk_next (State.divide_memOk h)
  case addi | andi | ori | xori | slti | sltin =>
    exact nextMemOk_next (State.aluK_memOk h)
  case lui | addpc | fkindD | fkindS =>
    exact nextMemOk_next (State.result_memOk h)
  case ldI8 | ldI16 | ldI32 | ldI64 | ldN8 | ldN16 | ldN32 =>
    exact nextMemOk_next (State.load_memOk h)
  case stI8 | stI16 | stI32 | stI64 =>
    exact nextMemOk_next (State.store_memOk h)
  case faddD | fsubD | fmulD | fdivD | fminD | fmaxD | fsignCD | fsignND | fsignXD | faddS | fsubS | fmulS | fdivS | fminS |
      fmaxS | fsignCS | fsignNS | fsignXS | fcmpEqD | fcmpLtD | fcmpLeD | fcmpEqS | fcmpLtS | fcmpLeS =>
    exact nextMemOk_next (State.fp2_memOk h)
  case fsqrtD | fsqrtS | cvtDS | cvtSD =>
    exact nextMemOk_next (State.fpResult_memOk h)
  case fmaddD | fmsubD | fnmaddD | fnmsubD | fmaddS | fmsubS | fnmaddS | fnmsubS =>
    exact nextMemOk_next (State.fpFma_memOk h)
  case cvtDI64 | cvtDN64 | cvtSI64 | cvtSN64 =>
    exact nextMemOk_next (State.cvtOfInt_memOk h)
  case cvtI64D | cvtN64D | cvtI64S | cvtN64S =>
    exact nextMemOk_next (State.cvtToInt_memOk h)
  case b =>
    exact nextMemOk_next (State.goTo_memOk h)
  case call =>
    exact nextMemOk_next (State.goTo_memOk (State.link_memOk h))
  case bcEq | bcNe | bcLt | bcGe | bcLtn | bcGen =>
    exact nextMemOk_next (State.branchIf_memOk h)
  case nop | lpadC | lpadJ | lpadR =>
    exact nextMemOk_next (State.advance_memOk h)
  case calli | jmpi | ret =>
    exact nextMemOk_next (State.indirect_memOk h)
  case ljoin =>
    exact nextMemOk_next (State.ljoinWord_memOk h)
  all_goals exact nextMemOk_next (State.scalarFault_memOk h)

theorem State.laneWord_memOk {l : LaneSection} {pc : Word} (h : s.MemOk) : (s.laneWord l pc).MemOk := by
  have hf := fun c => scalarFault_memOk (c := c) (idx := noIndex) (flg := 0) h
  unfold State.laneWord
  split
  · exact hf _
  · split
    · exact hf _
    · split
      · exact hf _
      · split
        · exact hf _
        · split
          · next e => exact laneExec_memOk h _ e
          · exact h

theorem State.laneBack_memOk {j : Nat} (h : s.MemOk) : (s.laneBack j).MemOk := by
  unfold State.laneBack
  split
  · exact h
  · exact onFr_memOk h

theorem State.laneIssue_memOk {cl : Nat} (h : s.MemOk) : (s.laneIssue cl).MemOk := by
  unfold State.laneIssue
  split
  · exact h
  · split
    · exact h
    · exact laneBack_memOk (laneWord_memOk (onFr_memOk h))

theorem State.refillLanes_memOk (h : s.MemOk) : s.refillLanes.1.MemOk := by
  unfold State.refillLanes
  split
  · exact h
  · next e =>
    split
    · exact h
    · split
      · next e => exact takeException_memOk (fst_memOk e (fetchCode_memOk h))
      · next e => exact onFr_memOk (fst_memOk e (fetchCode_memOk h))

theorem State.lanesIssue_memOk (h : s.MemOk) : s.lanesIssue.MemOk :=
  ite_memOk (forUpTo_memOk (fun _ _ hu => ite_memOk (laneIssue_memOk hu) hu) (refillLanes_memOk h)) (refillLanes_memOk h)

/-! ### Events of a core -/

theorem State.whenRunning_memOk {p : Nat} {f : State → State} (hf : ∀ u, u.MemOk → (f u).MemOk) (h : s.MemOk) :
    (s.whenRunning p f).MemOk :=
  at_memOk (fun _ hu => ite_memOk (hf _ hu) hu) h

theorem State.issueWhere_memOk {p : VEntry → Bool} {g : Nat} (h : s.MemOk) : (s.issueWhere p g).MemOk :=
  ite_memOk (issueConvoy_memOk h) h

theorem State.retireOneHistory_memOk (h : s.MemOk) : s.retireOneHistory.MemOk := by
  unfold State.retireOneHistory
  split
  · exact h
  · exact ite_memOk (onLn_memOk (onFr_memOk h)) h

theorem State.leaveOneStore_memOk (h : s.MemOk) : s.leaveOneStore.MemOk := by
  unfold State.leaveOneStore
  split
  · exact h
  · exact ite_memOk (leaveHead_memOk h) h

theorem State.slotEvent_memOk {p : VEntry → Bool} (h : s.MemOk) : (s.slotEvent p).MemOk := by
  unfold State.slotEvent
  split
  · split
    · next e' => exact retireFront_memOk (fst_memOk e' (issueConvoy_memOk h))
    · next e' => exact fst_memOk e' (issueConvoy_memOk h)
  · exact h

theorem State.postArrive_memOk {die src core : Nat} (h : s.MemOk) : (s.postArrive die src core).MemOk := by
  grind [State.postArrive, postPut_memOk, State.MemOk]

theorem State.copiesReturn_memOk {limit : Word} (h : s.MemOk) : (s.copiesReturn limit).MemOk :=
  ite_memOk (acquire_memOk (onFr_memOk h)) h

theorem State.waitReturn_memOk (h : s.MemOk) : s.waitReturn.MemOk := by
  unfold State.waitReturn
  split
  · exact orWait_memOk h h
  · exact orWait_memOk h h
  · exact orWait_memOk h (timeReturn_memOk h)
  · exact orWait_memOk h (huddleReturn_memOk h)
  · exact orWait_memOk h (ringReturn_memOk h)
  · exact orWait_memOk h (arrivalReturn_memOk h)
  · exact orWait_memOk h (copiesReturn_memOk h)

theorem State.onSlot_memOk {core slot : Nat} {p : CopyCmd → Bool} {f : CopyCmd → State → State} (hf : ∀ i u, u.MemOk → (f i u).MemOk)
    (h : s.MemOk) : (s.onSlot core slot p f).MemOk := by
  unfold State.onSlot
  split
  · exact readmitCopies_memOk (hf _ _ h)
  · exact h

theorem State.mapEntry_memOk {k : Walker} {va : Word} (h : s.MemOk) : (s.mapEntry k va).MemOk := by
  unfold State.mapEntry
  split
  · exact h
  · exact perform_memOk (draw_memOk h)

theorem State.mapPage_memOk {k : Walker} (h : s.MemOk) : (s.mapPage k).MemOk :=
  forUpTo_memOk (fun _ _ hu => mapEntry_memOk hu) (draw_memOk h)

theorem State.rewriteGranule_memOk (h : s.MemOk) : s.rewriteGranule.MemOk := by
  unfold State.rewriteGranule
  dsimp only
  split
  · exact draw_memOk h
  · exact forUpTo_memOk (fun _ _ hu => perform_memOk (draw_memOk hu)) (draw_memOk h)

theorem State.takeDeadline_memOk (h : s.MemOk) : s.takeDeadline.MemOk := by
  unfold State.takeDeadline
  split
  · split
    · next e' => exact fatalEnd_memOk (retireFront_memOk (fst_memOk e' (issueConvoy_memOk h)))
    · next e' => exact fatalEnd_memOk (fst_memOk e' (issueConvoy_memOk h))
    · next e' => exact fst_memOk e' (issueConvoy_memOk h)
  · exact fatalEnd_memOk h

theorem State.faultNow_memOk {c : ExcCause} {idx : Word} (h : s.MemOk) : (s.faultNow c idx).MemOk :=
  ite_memOk (takeException_memOk h) (convoyFault_memOk h)

theorem State.requestStop_memOk {k : StopKind} (h : s.MemOk) : (s.requestStop k).MemOk := by
  unfold State.requestStop
  split
  · exact ite_memOk (ite_memOk (onM_memOk (issueConvoy_memOk h)) (issueConvoy_memOk h)) (ite_memOk (takeDeadline_memOk h) (stopAs_memOk
        h))
  · exact ite_memOk (ite_memOk (onM_memOk h) h) (ite_memOk (takeDeadline_memOk h) (stopAs_memOk h))

theorem State.clearWays_memOk {die first ways : Nat} (h : s.MemOk) : (s.clearWays die first ways).MemOk :=
  filter_wf _ h

theorem State.saveWays_memOk {ctx die first ways : Nat} (h : s.MemOk) : (s.saveWays ctx die first ways).MemOk := by
  grind [State.saveWays, onCtx_memOk, clearWays_memOk, State.MemOk]

theorem State.giveWays_memOk {ctx die first ways : Nat} (h : s.MemOk) : (s.giveWays ctx die first ways).MemOk := by
  unfold State.giveWays
  dsimp only
  generalize hs : State.onCtx _ _ _ = s2
  have h2 : s2.MemOk :=
    hs ▸ onCtx_memOk (clearWays_memOk (onUnc_memOk (foldl_memOk (fun _ _ hu => ite_memOk (hbmAccess_memOk hu) hu) h)))
  split
  · exact h2
  · exact foldl_wf (fun _ _ hm => memSet_wf _ _ hm) h2

theorem State.takeWays_memOk {ctx die ways : Nat} (h : s.MemOk) : (s.takeWays ctx die ways).MemOk := by
  grind [State.takeWays, saveWays_memOk, giveWays_memOk, foldl_memOk]

theorem State.regainWays_memOk {ctx die : Nat} (h : s.MemOk) (e : s.regainWays ctx die = some t) : t.MemOk := by
  unfold State.regainWays at e
  split at e
  · cases e
    exact h
  · exact ite_none_memOk e (takeWays_memOk h)

theorem State.newFirmware_memOk (h : s.MemOk) : s.newFirmware.MemOk :=
  ite_memOk (onRegs_memOk (draw_memOk h)) (draw_memOk h)

theorem State.resume_memOk (h : s.MemOk) : s.resume.MemOk := by
  unfold State.resume
  split
  · exact h
  · next e => exact readmitCopies_memOk (traceEvent_memOk (onTh_memOk (regainWays_memOk h e)))

theorem State.mend_memOk {c : ExcCause} (h : s.MemOk) : (s.mend c).MemOk := by
  unfold State.mend
  split
  · exact mapPage_memOk h
  · exact mapPage_memOk (rewriteGranule_memOk h)
  · exact mapPage_memOk (rewriteGranule_memOk h)
  · exact h

theorem State.putSlot_memOk {b : Bind} {go : Bool} {status : Nat} (h : s.MemOk) : (s.putSlot b go status).MemOk :=
  memOk_withMem (memPut_wf (slotStatus b.die (4 * b.core + b.slot)) (leBytes 8 status) (memPut_wf _ _ h))

theorem State.renameOwner_memOk {old new : Nat} (h : s.MemOk) : (s.renameOwner old new).MemOk :=
  h

theorem State.switchStop_memOk (h : s.MemOk) : s.switchStop.MemOk := by
  unfold State.switchStop
  split
  · exact ite_memOk (requestStop_memOk h) (ite_memOk (takeDeadline_memOk (requestStop_memOk h)) (takeStop_memOk (requestStop_memOk h)))
  · exact onTh_memOk h
  · exact h

theorem State.switchOut_memOk {ctx : Nat} (h : s.MemOk) : (s.switchOut ctx).MemOk :=
  foldl_memOk (fun _ _ hu => renameOwner_memOk (freeSlot_memOk hu)) (foldl_memOk (fun _ _ hu => at_memOk (fun _ hv => switchStop_memOk
      hv) hu) h)

theorem State.imageBack_memOk {x : Thread} (h : s.MemOk) : (s.imageBack x).MemOk := by
  unfold State.imageBack
  split
  · exact withOthers_memOk (renameOwner_memOk (putSlot_memOk h))
  · exact h

theorem State.switchIn_memOk {ctx : Nat} (h : s.MemOk) : (s.switchIn ctx).MemOk :=
  foldl_memOk (fun _ _ hu => imageBack_memOk hu) (foldl_memOk (fun _ _ hu => takeWays_memOk hu) h)

/-! ### Events of the fabric -/

theorem State.setWhistle_memOk {w : Whistle} (h : s.MemOk) : (s.setWhistle w).MemOk :=
  h

theorem State.sendUp_memOk {data : List Nat} (h : s.MemOk) : (s.sendUp data).MemOk := by
  unfold State.sendUp
  split
  · exact h
  · exact sendFlits_memOk h

theorem State.sendDown_memOk {data : List Nat} (h : s.MemOk) : (s.sendDown data).MemOk :=
  foldl_memOk (fun _ _ hu => sendFlits_memOk hu) h

theorem State.notice_memOk {own : Bool} {ctx timeout : Nat} (h : s.MemOk) : (s.notice own ctx timeout).MemOk :=
  ite_memOk (sendUp_memOk (setWhistle_memOk h)) (ite_memOk (sendUp_memOk (setWhistle_memOk h)) (setWhistle_memOk h))

theorem State.takeSkew_memOk (h : s.MemOk) : s.takeSkew.MemOk := by
  unfold State.takeSkew
  split
  · exact takeException_memOk (leaveStores_memOk (beforeStep_memOk (onFr_memOk (unwind_memOk (onFab_memOk h)))))
  · exact ite_memOk (convoyFault_memOk (onFab_memOk h)) (takeException_memOk (leaveStores_memOk (unwind_memOk (onFab_memOk h))))
  · exact takeException_memOk (leaveStores_memOk (onFab_memOk h))

theorem State.arriveUp_memOk {ctx : Nat} (h : s.MemOk) : (s.arriveUp ctx).MemOk :=
  ite_memOk h (sendUp_memOk (setWhistle_memOk h))

theorem State.countArrival_memOk {ctx p : Nat} (h : s.MemOk) : (s.countArrival ctx p).MemOk := by
  unfold State.countArrival
  split
  · exact arriveUp_memOk h
  · exact ite_memOk (whenRunning_memOk (fun _ hu => takeSkew_memOk hu) h) (ite_memOk h (arriveUp_memOk (ite_memOk (notice_memOk
        (setWhistle_memOk h)) (setWhistle_memOk h))))

theorem State.countChild_memOk {ctx rank timeout : Nat} {overflow conflict : List (Nat × Nat)} {at_ : Nat} (h : s.MemOk) :
    (s.countChild ctx rank timeout overflow conflict at_).MemOk :=
  ite_memOk h (arriveUp_memOk (setWhistle_memOk h))

theorem State.whistleGo_memOk {ctx : Nat} {m : WhistleMarks} (h : s.MemOk) : (s.whistleGo ctx m).MemOk :=
  ite_memOk h (sendDown_memOk (setWhistle_memOk h))

theorem State.serveWrite_memOk {f : RemoteWrite} (h : s.MemOk) : (s.serveWrite f).MemOk := by
  unfold State.serveWrite
  split
  · exact sendFlits_memOk h
  · exact ite_memOk (sendFlits_memOk h) (sendFlits_memOk (enterWrite_memOk h))

theorem State.serveRead_memOk {f : RemoteRead} (h : s.MemOk) : (s.serveRead f).MemOk := by
  unfold State.serveRead
  split
  · exact sendFlits_memOk (l2Read_memOk (keyed_memOk h))
  · exact sendFlits_memOk h

theorem State.serveAccess_memOk {a : RemoteAccess} (h : s.MemOk) : (s.serveAccess a).MemOk := by
  unfold State.serveAccess
  split
  · exact serveWrite_memOk h
  · exact serveRead_memOk h

theorem State.applyElem_memOk {w : Window} {elem : Nat} {s0 : State} (hs0 : s0.MemOk) : (s0.applyElem w elem).1.MemOk :=
  perform_memOk (keyed_memOk hs0)

theorem State.applyWindow_memOk {p : DefEntry → Bool} {w : Window} (h : s.MemOk) : (s.applyWindow p w).1.MemOk := by
  unfold State.applyWindow
  split
  · exact h
  · exact foldl_fst_memOk (fun _ _ ha => applyElem_memOk ha) h

theorem State.invalidate_memOk {ctx target handle : Nat} {ranks : List Nat} (h : s.MemOk) :
    (s.invalidate ctx target handle ranks).MemOk :=
  foldl_memOk (fun _ _ hu => sendFlits_memOk hu) h

theorem State.applyWindows_memOk {ctx : Nat} {p : DefEntry → Bool} (h : s.MemOk) : (s.applyWindows ctx p).1.MemOk :=
  foldl_memOk (fun _ _ hu => invalidate_memOk hu) (foldl_fst_memOk (fun _ _ ha => applyWindow_memOk ha) h)

theorem State.whistleApply_memOk {ctx : Nat} (h : s.MemOk) : (s.whistleApply ctx).MemOk :=
  ite_memOk (foldl_memOk (fun _ _ hu => serveAccess_memOk hu) (setWhistle_memOk (applyWindows_memOk h))) h

theorem State.whistleRelease_memOk {ctx : Nat} (h : s.MemOk) : (s.whistleRelease ctx).MemOk :=
  ite_memOk (setWhistle_memOk (onThreads_memOk (foldl_memOk (fun _ _ hu => at_memOk (fun _ hv => newFirmware_memOk (ite_memOk
      (traceEvent_memOk hv) hv)) hu) h))) h

theorem State.finalWhistle_memOk {ctx : Nat} (h : s.MemOk) : (s.finalWhistle ctx).MemOk :=
  ite_memOk (applyWindows_memOk h) (setWhistle_memOk (applyWindows_memOk h))

theorem State.skewNow_memOk {ctx : Nat} (h : s.MemOk) : (s.skewNow ctx).MemOk :=
  ite_memOk h (foldl_memOk (fun _ _ hu => whenRunning_memOk (fun _ hv => takeSkew_memOk hv) hu) (sendDown_memOk (setWhistle_memOk h)))

theorem State.gateAccess_memOk {ctx : Nat} {a : RemoteAccess} (h : s.MemOk) : (s.gateAccess ctx a).MemOk :=
  ite_memOk (setWhistle_memOk h) (serveAccess_memOk h)

theorem State.atWriter_memOk {t₀ k : Nat} {f : State → State} (hf : ∀ u, u.MemOk → (f u).MemOk) (h : s.MemOk) :
    (s.atWriter t₀ k f).MemOk := by
  unfold State.atWriter
  dsimp only
  split
  · exact at_memOk hf h
  · split
    · exact asImage_memOk hf h
    · exact h

theorem State.dropTrans_memOk {rank handle page : Nat} (h : s.MemOk) : (s.dropTrans rank handle page).MemOk :=
  h

theorem State.markReceived_memOk {ctx : Nat} {win : Nat × Nat} {overflow conflict : Bool} (h : s.MemOk) :
    (s.markReceived ctx win overflow conflict).MemOk :=
  ite_memOk (setWhistle_memOk h) h

theorem State.writeAck_memOk {k : Nat} {overflow conflict refused : Bool} (h : s.MemOk) :
    (s.writeAck k overflow conflict refused).MemOk := by
  unfold State.writeAck
  split
  · exact h
  · exact ite_memOk (askPage_memOk (dropTrans_memOk (onFab_memOk (count_memOk (count_memOk h))))) (onFab_memOk (markReceived_memOk h))

theorem State.readRefused_memOk {k : Nat} (h : s.MemOk) : (s.readRefused k).MemOk := by
  unfold State.readRefused
  split
  · exact onFab_memOk (dropTrans_memOk (count_memOk h))
  · exact h

theorem State.hubWalk_memOk {f : RemoteRead} (h : s.MemOk) : (s.hubWalk f).1.MemOk := by
  unfold State.hubWalk
  split
  · exact h
  · split
    · exact h
    · dsimp only
      split
      · exact h
      · exact h
      · exact markPte_memOk h

theorem State.rtransFill_memOk {die : Nat} {e : RemoteTrans} (h : s.MemOk) : (s.rtransFill die e).MemOk :=
  h

theorem State.resend_memOk {e : RemoteTrans} (h : s.MemOk) : (s.resend e).MemOk :=
  ite_memOk h (ite_memOk (ite_memOk (faultNow_memOk h) h) (foldl_memOk (fun _ _ hu => sendWrite_memOk hu) (onFab_memOk h)))

theorem State.acknowledge_memOk {ctx target handle : Nat} (h : s.MemOk) : (s.acknowledge ctx target handle).MemOk :=
  sendFlits_memOk h

theorem State.relayAck_memOk {ctx : Nat} {a : HandleAck} (h : s.MemOk) : (s.relayAck ctx a).MemOk := by
  unfold State.relayAck
  dsimp only
  split
  · exact h
  · exact ite_memOk (acknowledge_memOk (onUnc_memOk h)) (onUnc_memOk h)

theorem State.takeData_memOk {n p : Nat} {bs : List Byte} (h : s.MemOk) : (s.takeData n p bs).MemOk := by
  unfold State.takeData
  split
  · exact h
  · exact ite_memOk (onStream_memOk h) h

theorem State.gateIn_memOk {m : StreamMsg} {data : Bool} (h : s.MemOk) : (s.gateIn m data).MemOk :=
  foldl_memOk (fun _ _ hu => atMember_memOk (fun _ hv => takeData_memOk hv) hu) (onUnc_memOk h)

theorem State.sendChunk_memOk {die : Nat} (h : s.MemOk) : (s.sendChunk die).MemOk := by
  unfold State.sendChunk
  split
  · exact h
  · split
    · exact h
    · dsimp only
      split
      · exact onUnc_memOk (ite_memOk (atMember_memOk (fun _ hu => takeData_memOk hu) (at_memOk (fun _ hu => ite_memOk (onStream_memOk
            hu) (sendToMember_memOk (onStream_memOk hu))) h)) (at_memOk (fun _ hu => ite_memOk (onStream_memOk hu) (sendToMember_memOk
            (onStream_memOk hu))) h))
      · exact h

/-! ### Events of the host -/

theorem State.ctxKeyed_memOk {ctx : Nat} {va : Word} {a n : Nat} (h : s.MemOk) : (s.ctxKeyed ctx va a n).MemOk := by
  unfold State.ctxKeyed
  split
  · exact h
  · exact keyed_memOk h

theorem State.ctxWrite_memOk {ctx : Nat} {va : Word} {bs : List Byte} (h : s.MemOk) : (s.ctxWrite ctx va bs).MemOk := by
  unfold State.ctxWrite
  split
  · exact h
  · split
    · exact perform_memOk (ctxKeyed_memOk h)
    · dsimp only
      split
      · exact perform_memOk (ctxKeyed_memOk h)
      · exact perform_memOk (ctxKeyed_memOk (perform_memOk (ctxKeyed_memOk h)))

theorem State.writeRecord_memOk {ctx slot : Nat} {complete d0 d1 d3 : Word} {report : List Word} (h : s.MemOk) :
    (s.writeRecord ctx slot complete d0 d1 d3 report).MemOk := by
  unfold State.writeRecord
  dsimp only
  split
  · exact ctxWrite_memOk (ctxWrite_memOk (ctxWrite_memOk h))
  · exact memOk_withMem (memSet_wf (queueSlot slot) 0 (memPut_wf _ _ h))

theorem State.completeEntry_memOk {slot : Nat} {e : List Byte} {code : Nat} {result : Word} (h : s.MemOk) :
    (s.completeEntry slot e code result).MemOk :=
  writeRecord_memOk h

theorem State.ringDoorbell_memOk {v : BitVec 32} (h : s.MemOk) : (s.ringDoorbell v).MemOk :=
  ite_memOk h h

theorem State.handle_memOk {kind : Nat} {f : Nat → List Byte → State → State} (hf : ∀ i j u, u.MemOk → (f i j u).MemOk) (h : s.MemOk)
    : (s.handle kind f).MemOk := by
  unfold State.handle
  split
  · split
    · exact hf _ _ _ h
    · exact h
  · exact h

theorem State.pickCode_memOk {cs : List Nat} (h : s.MemOk) : (s.pickCode cs).2.MemOk := by
  unfold State.pickCode
  split
  · exact h
  · exact h
  · exact draw_memOk h

theorem State.imageAreas_memOk {quota : Nat} (h : s.MemOk) : (s.imageAreas quota).2.MemOk :=
  h

theorem State.farPackages_memOk (h : s.MemOk) : s.farPackages.2.MemOk :=
  ite_memOk h h

theorem State.newPair_memOk (h : s.MemOk) : s.newPair.2.MemOk :=
  h

theorem State.installKey_memOk {key : Nat} (h : s.MemOk) : (s.installKey key).MemOk :=
  ite_memOk h (newPair_memOk h)

theorem State.createEntry_memOk {slot : Nat} {e : List Byte} (h : s.MemOk) : (s.createEntry slot e).MemOk :=
  ite_memOk (completeEntry_memOk (pickCode_memOk h)) (completeEntry_memOk (installKey_memOk (farPackages_memOk (imageAreas_memOk h))))

theorem State.placeSection_memOk {f : List Byte} {x : Section} {pages : List Nat} (h : s.MemOk) : (s.placeSection f x pages).MemOk :=
  foldl_memOk (fun _ _ hu => memPut_wf _ _ (filter_wf _ hu)) h

theorem State.putPtes_memOk {ptes : List (Nat × Nat)} (h : s.MemOk) : (s.putPtes ptes).MemOk :=
  foldl_wf (fun _ _ hm => memPut_wf _ _ hm) h

theorem State.loadEntry_memOk {plan : LoadPlan} {slot : Nat} {e : List Byte} (h : s.MemOk) : (s.loadEntry plan slot e).MemOk := by
  unfold State.loadEntry
  split
  · exact completeEntry_memOk h
  · split
    · dsimp only
      split
      · exact completeEntry_memOk h
      · exact ite_memOk (completeEntry_memOk h) (ite_memOk (completeEntry_memOk (onCtx_memOk (putPtes_memOk (foldl_memOk (fun _ _ hu =>
            pageUnder_memOk hu) (foldl_memOk (fun _ _ hu => placeSection_memOk hu) h))))) h)
    · dsimp only
      split
      · exact completeEntry_memOk h
      · exact ite_memOk (completeEntry_memOk h) (ite_memOk (completeEntry_memOk (onCtx_memOk (putPtes_memOk (foldl_memOk (fun _ _ hu =>
            pageUnder_memOk hu) (foldl_memOk (fun _ _ hu => placeSection_memOk hu) h))))) h)

theorem State.unloadEntry_memOk {slot : Nat} {e : List Byte} (h : s.MemOk) : (s.unloadEntry slot e).MemOk := by
  unfold State.unloadEntry
  split
  · exact completeEntry_memOk h
  · exact ite_memOk (onCtx_memOk h) (completeEntry_memOk h)

theorem State.dropTlb_memOk {ctx : Nat} (h : s.MemOk) : (s.dropTlb ctx).MemOk :=
  h

/-! ### Events of launches -/

theorem State.launchEntry_memOk {slot : Nat} {e : List Byte} (h : s.MemOk) : (s.launchEntry slot e).MemOk := by
  unfold State.launchEntry
  split
  · exact completeEntry_memOk (pickCode_memOk h)
  · exact ite_memOk (completeEntry_memOk (pickCode_memOk h)) h

theorem State.returnWays_memOk {ctx : Nat} (h : s.MemOk) : (s.returnWays ctx).MemOk := by
  grind [State.returnWays, clearWays_memOk, onCtx_memOk, foldl_memOk, State.MemOk]

theorem State.launchReport_memOk {l : Launch} (h : s.MemOk) : (s.launchReport l).2.MemOk := by
  unfold State.launchReport
  split
  · split <;> exact h
  · exact h

theorem State.closeLaunch_memOk {l : Launch} (h : s.MemOk) : (s.closeLaunch l).MemOk :=
  returnWays_memOk (writeRecord_memOk (launchReport_memOk h))

theorem State.bindWays_memOk {ctx ways : Nat} {runs : List (Nat × Nat)} {die : Nat} (h : s.MemOk)
    (e : s.bindWays ctx ways runs die = some t) : t.MemOk := by
  grind [State.bindWays, takeWays_memOk, giveWays_memOk]

theorem State.bindAllWays_memOk {ctx ways : Nat} {p : BindPlan} (h : s.MemOk) (e : s.bindAllWays ctx ways p = some t) : t.MemOk := by
  refine foldl_keeps (P := fun a : Option State => ∀ t, a = some t → t.MemOk) (fun a d ha t ht => ?_) _ _ (fun t ht => ?_) t e
  · obtain ⟨u, hu, e⟩ := Option.bind_eq_some_iff.mp ht
    exact bindWays_memOk (ha u hu) e
  · exact Option.some.inj ht ▸ h

theorem State.writeGang_memOk {c : Ctx} {l : Launch} {p : BindPlan} (h : s.MemOk) : (s.writeGang c l p).MemOk :=
  foldl_memOk (fun _ _ hu => memOk_withMem (memPut_wf _ _ (memPut_wf _ _ (ctxWrite_memOk hu)))) h

theorem State.startBinding_memOk {l : Launch} {p : BindPlan} (h : s.MemOk) : (s.startBinding l p).MemOk := by
  unfold State.startBinding
  split
  · exact h
  · split
    · exact closeLaunch_memOk h
    · split
      · split
        · exact h
        · next e' => exact onLaunch_memOk (writeGang_memOk (bindAllWays_memOk h e'))
      · exact h

theorem State.refuseGang_memOk {l : Launch} {p : BindPlan} {code : Nat} (h : s.MemOk) : (s.refuseGang l p code).MemOk :=
  ite_memOk (closeLaunch_memOk (onLaunch_memOk (foldl_memOk (fun _ _ hu => dropBinding_memOk hu) (clearGang_memOk h)))) (onLaunch_memOk
      (foldl_memOk (fun _ _ hu => dropBinding_memOk hu) (clearGang_memOk h)))

theorem State.applyAux_memOk {l : Launch} (h : s.MemOk) : (s.applyAux l).MemOk :=
  ite_memOk h (onCtx_memOk (foldl_memOk (fun _ _ hu => onUnc_memOk hu) (onUnc_memOk h)))

theorem State.goGang_memOk {start : Nat} {l : Launch} (h : s.MemOk) : (s.goGang start l).MemOk := by
  unfold State.goGang
  split
  · exact h
  · exact onLaunch_memOk (foldl_memOk (fun _ _ hu => memOk_withMem (memPut_wf _ _ (memPut_wf _ _ hu))) (ite_memOk (applyAux_memOk h) h))

theorem State.goAll_memOk {start : Nat} {ls : List Launch} (h : s.MemOk) (e : State.goAll start ls s = some t) : t.MemOk := by
  induction ls generalizing s with
  | nil => cases e; exact h
  | cons l ls ih => grind [State.goAll, State.goGang_memOk]

theorem State.finishBinding_memOk {l : Launch} {p q : BindPlan} (h : s.MemOk) : (s.finishBinding l p q).MemOk := by
  unfold State.finishBinding
  split
  · exact refuseGang_memOk h
  · split
    · exact refuseGang_memOk h
    · exact ite_memOk (getD_memOk (fun _ e => goAll_memOk h e) h) h

theorem State.install_memOk {t₀ : Thread} (h : s.MemOk) : (s.install t₀).MemOk :=
  ite_memOk h h

theorem State.neverStart_memOk (h : s.MemOk) : s.neverStart.MemOk :=
  onTh_memOk (freeSlot_memOk (onLaunch_memOk (dropBinding_memOk h)))

theorem State.clearKey_memOk {key : Nat} (h : s.MemOk) : (s.clearKey key).MemOk := by
  unfold State.clearKey
  split <;> exact h

theorem State.removeCtx_memOk {c : Ctx} {s0 : State} (hs0 : s0.MemOk) : (s0.removeCtx c).MemOk := by
  grind [State.removeCtx, invalidate_memOk, clearWays_memOk, onUnc_memOk, clearKey_memOk, foldl_memOk, State.MemOk]

theorem State.killShare_memOk {l : Launch} (h : s.MemOk) : (s.killShare l).2.MemOk := by
  unfold State.killShare
  split <;> exact h

theorem State.killLaunches_memOk {id : Nat} (h : s.MemOk) : (s.killLaunches id).MemOk := by
  refine foldl_memOk (fun _ _ hu => ?_) h
  dsimp only
  split
  · exact endLaunch_memOk (onLaunch_memOk hu)
  · exact closeLaunch_memOk (killShare_memOk (endLaunch_memOk (onLaunch_memOk hu)))

theorem State.killCtx_memOk {id : Nat} (h : s.MemOk) : (s.killCtx id).MemOk := by
  unfold State.killCtx
  split
  · exact h
  · exact readmitCopies_memOk (removeCtx_memOk (foldl_memOk (fun _ _ hu => completeEntry_memOk hu) (foldl_memOk (fun _ _ hu =>
        abandonCopy_memOk hu) (killLaunches_memOk (foldl_memOk (fun _ _ hu => abortComm_memOk hu) h)))))

theorem State.killWhere_memOk {p : Ctx → Bool} (h : s.MemOk) : (s.killWhere p).MemOk :=
  foldl_memOk (fun _ _ hu => killCtx_memOk hu) h

theorem State.killEntry_memOk {slot : Nat} {e : List Byte} (h : s.MemOk) : (s.killEntry slot e).MemOk :=
  ite_memOk (completeEntry_memOk (killCtx_memOk h)) (completeEntry_memOk h)

/-! ### Events of the device -/

theorem State.nak_memOk {port qp : Nat} (h : s.MemOk) : (s.nak port qp).MemOk :=
  h

theorem State.hostWrite_memOk {ctx va : Nat} {bs : List Byte} (h : s.MemOk) : (s.hostWrite ctx va bs).MemOk :=
  foldl_memOk (fun _ _ hu => ctxWrite_memOk hu) h

theorem State.arriveRdma_memOk {p : HostPort} {qp : Nat} (h : s.MemOk) : (s.arriveRdma p qp).MemOk :=
  ite_memOk (emit_memOk h) h

theorem State.respond_memOk {port qp : Nat} {bs : List Byte} (h : s.MemOk) : (s.respond port qp bs).MemOk :=
  h

theorem State.rdmaWrite_memOk {port qp rkey addr : Nat} {bs : List Byte} (h : s.MemOk) : (s.rdmaWrite port qp rkey addr bs).MemOk := by
  unfold State.rdmaWrite
  split
  · exact emit_memOk (memPut_wf _ _ h)
  · grind [emit_memOk, ringDoorbell_memOk, hostWrite_memOk, nak_memOk]

theorem State.hostRead_memOk {ctx va n : Nat} (h : s.MemOk) : (s.hostRead ctx va n).MemOk := by
  refine foldl_memOk (fun _ _ hu => ?_) h
  split
  · exact l2Read_memOk hu
  · exact hu

theorem State.rdmaRead_memOk {port qp rkey addr len : Nat} (h : s.MemOk) : (s.rdmaRead port qp rkey addr len).MemOk := by
  unfold State.rdmaRead
  split
  · exact respond_memOk h
  · split
    · exact ite_memOk (respond_memOk (hostRead_memOk h)) (nak_memOk h)
    · exact nak_memOk h

theorem State.report_memOk {code : Nat} {data : List Nat} (h : s.MemOk) : (s.report code data).MemOk :=
  h

theorem State.joinPod_memOk (h : s.MemOk) : s.joinPod.MemOk :=
  ite_memOk h h

theorem State.boot_memOk (h : s.MemOk) : s.boot.MemOk := by
  have hz : Memory.wf [] = true := rfl
  unfold State.boot
  dsimp only
  split
  · exact report_memOk h
  · split
    · exact report_memOk (draw_memOk h)
    · exact report_memOk hz
    · exact joinPod_memOk (ite_memOk hz (report_memOk hz))

theorem State.setDbg_memOk {ctx : Nat} {b : Bool} (h : s.MemOk) : (s.setDbg ctx b).MemOk :=
  h

theorem State.putImageEntry_memOk {n : Nat} {e : VEntry} (h : s.MemOk) : (s.putImageEntry n e).MemOk :=
  h

theorem State.editImage_memOk {x : ImageEdit} (h : s.MemOk) (e : s.editImage x = some t) : t.MemOk := by
  cases x
  case viqWord n w =>
    dsimp only [State.editImage] at e
    split at e
    · contradiction
    · obtain ⟨y, -, rfl⟩ := Option.map_eq_some_iff.mp e
      exact putImageEntry_memOk h
  case progress n k =>
    dsimp only [State.editImage] at e
    split at e
    · contradiction
    · exact ite_some_memOk e (putImageEntry_memOk h)
  case viqSection =>
    obtain ⟨y, -, rfl⟩ := Option.map_eq_some_iff.mp e
    exact placeImage_memOk h
  case copyPos =>
    dsimp only [State.editImage] at e
    split at e
    · exact ite_some_memOk e (onCopyCmd_memOk h)
    · contradiction
  case control => exact setCr_memOk h e
  all_goals exact ite_some_memOk e h

theorem State.lostRecord_memOk {launch flat : Nat} (h : s.MemOk) : (s.lostRecord launch flat).MemOk :=
  h

theorem State.ringPut_memOk {ctx : Nat} {r : Ring} {o : Nat} {bs : List Byte} (h : s.MemOk) : (s.ringPut ctx r o bs).MemOk :=
  foldl_memOk (fun _ _ hu => ctxWrite_memOk hu) h

theorem State.ringWrite_memOk {ctx : Nat} {r : Ring} {bs : List Byte} (h : s.MemOk) : (s.ringWrite ctx r bs).1.MemOk :=
  ctxWrite_memOk (ringPut_memOk (ringPut_memOk h))

theorem State.sealUnit_memOk {c : Ctx} {r : Ring} (h : s.MemOk) : (s.sealUnit c r).1.MemOk :=
  onCtx_memOk (ringWrite_memOk h)

theorem State.sealFull_memOk {c : Ctx} {n : Nat} {x : State × Ring} (h : x.1.MemOk) : (State.sealFull c n x).1.MemOk := by
  induction n generalizing c x with
  | zero => exact h
  | succ n ih => grind [State.sealFull, State.sealUnit_memOk]

theorem State.appendRecord_memOk {launch flat : Nat} {c : Ctx} {r : Ring} {ws : List Word} (h : s.MemOk) :
    (s.appendRecord launch flat c r ws).MemOk := by
  unfold State.appendRecord
  split
  · exact ite_memOk (lostRecord_memOk h) (ite_memOk (lostRecord_memOk (onCtx_memOk (sealFull_memOk h))) (onCtx_memOk (sealFull_memOk h)))
  · exact ite_memOk (lostRecord_memOk h) (ite_memOk (lostRecord_memOk (onCtx_memOk (ringWrite_memOk h))) (onCtx_memOk (ringWrite_memOk
        h)))

theorem State.scrubbed_memOk {bad : Bool} (h : s.MemOk) : (s.scrubbed bad).MemOk :=
  ite_memOk h (draw_memOk h)

theorem State.poisonGranule_memOk {g : Nat} (h : s.MemOk) : (s.poisonGranule g).MemOk :=
  ite_memOk h h

/-! ### Instructions and events -/

theorem execSmplCnt_memOk {d a : RegNo} (h : s.MemOk) : NextMemOk (execSmplCnt d a s) := by
  refine nextMemOk_next ?_
  split
  · next e =>
    have ht := fst_memOk e (State.settle_memOk h)
    split
    · exact State.frontFault_memOk ht
    · next e => exact State.seqNext_memOk (State.wr_memOk (State.counter_memOk ht e))
  · next e => exact fst_memOk e (State.settle_memOk h)

theorem execFence_memOk {w : VWord} (h : s.MemOk) : NextMemOk (execFence w s) := by
  refine nextMemOk_next ?_
  split
  · next e =>
    have ht := State.leaveStores_memOk (fst_memOk e (State.settle_memOk h))
    dsimp only
    split
    · exact ht
    · exact State.seqNext_memOk (State.frontAcquire_memOk (State.ite_memOk (State.drainWhere_memOk ht) ht))
  · next e => exact fst_memOk e (State.settle_memOk h)

theorem execStripEntryDrain_memOk {n k : Nat} (h : s.MemOk) : NextMemOk (execStripEntryDrain n k s) := by
  refine nextMemOk_next (State.at_memOk (fun u hu => ?_) h)
  dsimp only
  split
  · exact hu
  · exact State.ite_memOk (State.onSt_memOk (State.drainEntry_memOk hu)) hu

theorem execTlbWalk_memOk {n cl : Nat} {va : BitVec 64} {acc : Access} (h : s.MemOk) : NextMemOk (execTlbWalk n cl va acc s) := by
  refine nextMemOk_next (State.whenRunning_memOk (fun u hu => ?_) h)
  split
  · split
    · next e => exact State.xlate_memOk hu e
    · exact hu
  · exact hu

theorem execSliceAluRequest_memOk {r : AluRequest} (h : s.MemOk) : NextMemOk (execSliceAluRequest r s) := by
  refine nextMemOk_next ?_
  split
  · split
    · exact State.ite_memOk h (State.perform_memOk h)
    · exact h
  · exact h

theorem execFatalEnd_memOk {n : Nat} (h : s.MemOk) : NextMemOk (execFatalEnd n s) := by
  refine nextMemOk_next (State.at_memOk (fun u hu => ?_) h)
  split
  · exact State.fatalEnd_memOk hu
  · exact hu

theorem execEloalerResume_memOk {n : Nat} (h : s.MemOk) : NextMemOk (execEloalerResume n s) := by
  refine nextMemOk_next (State.at_memOk (fun u hu => ?_) h)
  split
  · exact State.ite_memOk (State.fatalEnd_memOk hu) (State.resume_memOk (State.newFirmware_memOk (State.mend_memOk hu)))
  · exact hu

theorem execSwitchResume_memOk {n : Nat} (h : s.MemOk) : NextMemOk (execSwitchResume n s) := by
  refine nextMemOk_next (State.at_memOk (fun u hu => ?_) h)
  split
  · split
    · exact State.resume_memOk (State.newFirmware_memOk hu)
    · exact State.onTh_memOk hu
    · exact hu
  · exact hu

theorem execWhistleArrivalCounted_memOk {ctx : Nat} {who : WhistleSource} (h : s.MemOk) :
    NextMemOk (execWhistleArrivalCounted ctx who s) := by
  cases who with
  | member => exact nextMemOk_next (State.countArrival_memOk h)
  | child => exact nextMemOk_next (State.countChild_memOk h)

theorem execInvalidation_memOk {ctx rank handle : Nat} (h : s.MemOk) : NextMemOk (execInvalidation ctx rank handle s) := by
  refine nextMemOk_next ?_
  dsimp only
  split
  · exact State.acknowledge_memOk (State.onUnc_memOk h)
  · exact State.invalidate_memOk (State.onUnc_memOk (State.onUnc_memOk h))

theorem execReservationRequest_memOk {ctx : Nat} {x : StreamHead} {bytes : Nat} (h : s.MemOk) :
    NextMemOk (execReservationRequest ctx x bytes s) :=
  nextMemOk_next (State.grantAsks_memOk (State.onUnc_memOk (State.gateIn_memOk h)))

theorem execReservationGrant_memOk {ctx : Nat} {x : StreamHead} (h : s.MemOk) : NextMemOk (execReservationGrant ctx x s) := by
  refine nextMemOk_next (State.atMember_memOk (fun u hu => ?_) h)
  split
  · exact hu
  · exact State.ite_memOk (State.reserve_memOk hu) (State.onStream_memOk hu)

theorem execUnloadComplete_memOk {ctx handle : Nat} (h : s.MemOk) : NextMemOk (execUnloadComplete ctx handle s) := by
  refine nextMemOk_next ?_
  split
  · exact h
  · split
    · exact h
    · dsimp only
      split
      · exact State.onCtx_memOk (State.dropTlb_memOk (State.putPtes_memOk h))
      · exact State.completeEntry_memOk (State.onCtx_memOk (State.dropTlb_memOk (State.putPtes_memOk h)))

theorem execLaunchComplete_memOk {n : LaunchEnd} (h : s.MemOk) : NextMemOk (execLaunchComplete n s) := by
  refine nextMemOk_next ?_
  split
  · exact h
  · exact State.ite_memOk (State.ite_memOk (State.closeLaunch_memOk h) h)
      (State.ite_memOk (State.endLaunch_memOk (State.onLaunch_memOk h)) h)

theorem execQueuedLaunchDeadline_memOk {n : Nat} (h : s.MemOk) : NextMemOk (execQueuedLaunchDeadline n s) := by
  refine nextMemOk_next ?_
  split
  · exact h
  · have hu := State.dropBinding_memOk (n := n) h
    exact State.ite_memOk h (State.ite_memOk (State.closeLaunch_memOk (State.onLaunch_memOk hu)) (State.onLaunch_memOk hu))

theorem execGangBind_memOk {n : Nat} {p : BindPlan} (h : s.MemOk) : NextMemOk (execGangBind n p s) := by
  refine nextMemOk_next ?_
  split
  · exact h
  · split
    · exact State.startBinding_memOk h
    · exact State.finishBinding_memOk h

theorem execBindRecordValid_memOk {die entry : Nat} (h : s.MemOk) : NextMemOk (execBindRecordValid die entry s) := by
  refine nextMemOk_next ?_
  split
  · exact h
  · split
    · exact h
    · dsimp only
      split
      · exact State.setSlotStatus_memOk h
      · split
        · exact h
        · exact State.install_memOk (State.setSlotStatus_memOk h)

theorem execThreadStart_memOk {die entry : Nat} (h : s.MemOk) : NextMemOk (execThreadStart die entry s) := by
  refine nextMemOk_next (State.at_memOk (fun u hu => ?_) h)
  refine State.ite_memOk hu (State.ite_memOk (State.neverStart_memOk hu) (State.ite_memOk hu ?_))
  split
  · exact hu
  · next e => exact State.onTh_memOk (State.setSlotStatus_memOk (State.regainWays_memOk hu e))

theorem execAttestationRequest_memOk {ctx : Nat} {nonce pub : List Nat} (h : s.MemOk) :
    NextMemOk (execAttestationRequest ctx nonce pub s) := by
  refine nextMemOk_next ?_
  split
  · exact h
  · exact State.ite_memOk h (State.emit_memOk (State.onCtx_memOk (State.draw_memOk h)))

theorem execDebugWriteImage_memOk {n : Nat} {x : ImageEdit} (h : s.MemOk) : NextMemOk (execDebugWriteImage n x s) :=
  nextMemOk_next (State.at_memOk (fun _ hu => State.ite_memOk (getD_memOk (fun _ e => State.editImage_memOk hu e) hu) hu) h)

theorem execTraceRecordAppend_memOk (h : s.MemOk) : NextMemOk (execTraceRecordAppend s) := by
  refine nextMemOk_next ?_
  split
  · exact h
  · next q _ =>
    have hu : ({ s with hub := { s.hub with traceQ := q } } : State).MemOk := h
    dsimp only
    split
    · exact hu
    · split
      · exact State.lostRecord_memOk hu
      · exact State.appendRecord_memOk hu

theorem execTraceUnitSeal_memOk {ctx : Nat} (h : s.MemOk) : NextMemOk (execTraceUnitSeal ctx s) := by
  refine nextMemOk_next ?_
  split
  · exact h
  · split
    · exact h
    · exact State.ite_memOk (State.onCtx_memOk (State.sealUnit_memOk h)) h

theorem execSharedStoreScrub_memOk {die slice : Nat} {bad : Bool} (h : s.MemOk) : NextMemOk (execSharedStoreScrub die slice bad s) := by
  refine nextMemOk_next (State.ite_memOk h ?_)
  have hu : ({ s with dev := { s.dev with scrub := s.dev.scrub.modify (56 * die + slice) fun k => (k + 1) % 49152 } } : State).MemOk := h
  dsimp only
  split
  · exact State.ite_memOk (State.poisonGranule_memOk (State.scrubbed_memOk hu)) (State.scrubbed_memOk hu)
  · exact State.scrubbed_memOk hu

theorem execGangSwitch_memOk {n : Nat} {x : SwitchIn} (h : s.MemOk) : NextMemOk (execGangSwitch n x s) :=
  nextMemOk_next (State.ite_memOk h (State.withHub_memOk (State.switchIn_memOk (State.switchOut_memOk h))))

theorem exec_memOk {i : Instr} (h : s.MemOk) : NextMemOk (exec i s) := by
  have hlane := laneExec_memOk (i := i) h
  cases i
  case mfc | mfcM =>
    exact nextMemOk_next (State.ite_memOk (State.readCr_memOk h) (State.frontFault_memOk h))
  case mtc =>
    exact nextMemOk_next (State.ite_memOk (State.writeCr_memOk h) (State.frontFault_memOk h))
  case lbrk =>
    exact nextMemOk_next (State.seqNext_memOk (State.breakLoop_memOk h))
  case endThread =>
    exact nextMemOk_next (State.endWord_memOk h)
  case waitT =>
    exact nextMemOk_next (State.timeReturn_memOk h)
  case dline | smbcfg =>
    exact nextMemOk_next (State.seqNext_memOk (State.onRegs_memOk (State.log_memOk h)))
  case lsplit =>
    exact nextMemOk_next (State.lsplitWord_memOk h)
  case loop =>
    exact nextMemOk_next (State.loopWord_memOk h)
  case smb =>
    exact nextMemOk_next (State.smbWord_memOk h)
  case trap =>
    exact nextMemOk_next (State.trapWord_memOk h)
  case eret =>
    exact nextMemOk_next (State.ite_memOk (State.exceptionReturn_memOk h) (State.frontFault_memOk h))
  case bkpt =>
    exact nextMemOk_next (State.ite_memOk (State.frontFault_memOk h) (State.ite_memOk (State.stopAs_memOk h) (State.frontFault_memOk h)))
  case ifence =>
    exact nextMemOk_next (State.afterStores_memOk (fun _ hu => State.seqNext_memOk (State.onFr_memOk (State.onUnc_memOk hu))) h)
  case tlbinv | tlbinvAll =>
    exact nextMemOk_next (State.ite_memOk (State.afterStores_memOk (fun _ hu => State.seqNext_memOk (State.onUnc_memOk hu)) h)
        (State.frontFault_memOk h))
  case halt =>
    exact nextMemOk_next (State.ite_memOk (State.haltWord_memOk h) (State.frontFault_memOk h))
  case vqsave =>
    exact nextMemOk_next (State.vqsaveWord_memOk h)
  case vqrestore =>
    exact nextMemOk_next (State.vqrestoreWord_memOk h)
  case smplCnt =>
    exact execSmplCnt_memOk h
  case smplMark =>
    exact nextMemOk_next (State.seqNext_memOk (State.onRegs_memOk h))
  case trc =>
    exact nextMemOk_next (State.seqNext_memOk (State.trcRecord_memOk h))
  case mtcM =>
    exact nextMemOk_next (State.ite_memOk (State.writeCrM_memOk h) (State.frontFault_memOk h))
  case vadd | vsub | vrsub | vmul | vmulh | vmacc | vsadd | vssub | vsmul | vsll | vsrl | vsra | vror | vand | vor | vxor |
      vandn | vmin | vmax | vabs | vcmpEq | vcmpNe | vcmpLt | vcmpLe | vcmpGt | vcmpGe | mand | mor | mxor | mandn | mnot |
      mpop | mfirst | vsel | vbcast | vmv | vmvsV | vmvsX | vfadd | vfsub | vfmul | vfmadd | vfmsub | vfnmadd | vfnmsub |
      vfmacc | vfmin | vfmax | vfabs | vfneg | vfsignC | vfsignN | vfsignX | vfcmpEq | vfcmpNe | vfcmpLt | vfcmpLe | vfcmpGt
      | vfcmpGe | vfcmpUn | vredoAdd | vredoMin | vredoMax | vredtAdd | vredtMin | vredtMax | vredtAnd | vredtOr | vredtXor |
      vscanInAdd | vscanInMin | vscanInMax | vscanExAdd | vscanExMin | vscanExMax | vslipUp | vslipDn | vslipUpin | vslipDnin
      | vpick | vcompress | vexpand | vcvt | vcvtEf | vpack | vunpack | vscaleMul | vscaleDiv | vfclass | vdiv | vrdiv |
      vsqrt | vrsq | vld | vldQ | vlds | vldx | vldg | vst | vstQ | vsts | vstx | vstxo | vstg | vpref | cutstep | mzero |
      mouter | mouteri | mouterc | mlacc | mdrain | mtov | mscale | bclr | btload | btdrain | bqr | bqra | bqrD | bapply |
      bapplyC0 | bvec | bangleD | bangleA | brot | vrotate | bgain | bsolve | vamo | vamoo | accw | vacc | amerge | accrel |
      cp | cp2 | cpx | cpq | wdecl | wdeclRel | vldr | vstr | fsbindRx | fsbindTx | fsbindU | vcred | setvt | setfmt | mshape
      =>
    exact nextMemOk_next (State.send_memOk h)
  case vldC | vstC =>
    exact nextMemOk_next (State.sendWith_memOk (fun _ _ hu => chunkFront_memOk hu) h)
  case scommit =>
    exact nextMemOk_next (State.sendU_memOk (fun _ _ hu => scommitFront_memOk hu) h)
  case amoSwap | amoAdd | amoAnd | amoOr | amoXor | amoMin | amoMax =>
    exact nextMemOk_next (State.amoWord_memOk h)
  case amocas =>
    exact nextMemOk_next (State.frontOrder_memOk (fun _ hu => State.atHome_memOk (fun _ _ hv => State.seqNext_memOk (State.wr_memOk
        (State.frontAcquire_memOk (State.ite_memOk (State.homePut_memOk hv) hv)))) hu) h)
  case syncRd =>
    exact nextMemOk_next (State.withSync_memOk (fun _ _ _ hu => State.seqNext_memOk (State.wr_memOk (State.frontAcquire_memOk hu))) h)
  case syncWr | syncTas | syncFadd =>
    exact nextMemOk_next (State.syncHome_memOk h)
  case hudInit =>
    exact nextMemOk_next (State.ite_memOk (State.frontFault_memOk h) (State.withSync_memOk (fun _ _ _ hu => State.frontOrder_memOk (fun
        _ hv => State.ite_memOk (State.seqNext_memOk (State.wr_memOk (State.syncPut_memOk hv))) (State.seqNext_memOk (State.wr_memOk
        hv))) hu) h))
  case hudArr | hudDrop =>
    exact nextMemOk_next (State.huddleWord_memOk h)
  case hudWait =>
    exact nextMemOk_next (State.withSync_memOk (fun _ _ _ hu => State.huddleReturn_memOk hu) h)
  case post | postSet =>
    exact nextMemOk_next (State.postWord_memOk h)
  case waiti =>
    exact nextMemOk_next (State.withPost_memOk (fun _ _ hu => State.ringReturn_memOk hu) h)
  case fence =>
    exact execFence_memOk h
  case awInit | awAdd =>
    exact nextMemOk_next (State.awWord_memOk h)
  case awWait =>
    exact nextMemOk_next (State.arrivalReturn_memOk h)
  case cpw =>
    exact nextMemOk_next (State.sendCpw_memOk h)
  case step | stepAt | stepq =>
    exact nextMemOk_next (State.sendU_memOk (fun _ _ hu => hu) h)
  case setvl =>
    exact nextMemOk_next (State.sendWith_memOk (fun _ _ hu => setvlFront_memOk hu) h)
  case tshape =>
    exact nextMemOk_next (State.sendWith_memOk (fun _ _ hu => tshapeFront_memOk hu) h)
  case mmode =>
    exact nextMemOk_next (State.sendWith_memOk (fun _ _ hu => mmodeFront_memOk hu) h)
  case convoyIssue | vamoPerform | amergePerform =>
    exact nextMemOk_next (State.whenRunning_memOk (fun _ hu => State.issueWhere_memOk hu) h)
  case convoyRetire =>
    exact nextMemOk_next (State.whenRunning_memOk (fun _ hu => State.ite_memOk (State.retireFront_memOk hu) hu) h)
  case historyEntryRetire =>
    exact nextMemOk_next (State.whenRunning_memOk (fun _ hu => State.retireOneHistory_memOk hu) h)
  case storeQueueLeave =>
    exact nextMemOk_next (State.whenRunning_memOk (fun _ hu => State.leaveOneStore_memOk hu) h)
  case mtcLaneEntry | commitEntry | stepArrival =>
    exact nextMemOk_next (State.whenRunning_memOk (fun _ hu => State.slotEvent_memOk hu) h)
  case stripEntryDrain =>
    exact execStripEntryDrain_memOk h
  case storeAcknowledgement =>
    exact nextMemOk_next (State.at_memOk (fun _ hu => State.onSt_memOk hu) h)
  case laneIssue =>
    exact nextMemOk_next (State.whenRunning_memOk (fun _ hu => State.ite_memOk (State.ite_memOk (State.laneIssue_memOk
        (State.refillLanes_memOk hu)) (State.refillLanes_memOk hu)) hu) h)
  case tlbWalk =>
    exact execTlbWalk_memOk h
  case l2Fill =>
    exact nextMemOk_next (State.l2Fill_memOk h)
  case refreshDue | owedRefresh =>
    exact nextMemOk_next (State.ite_memOk (State.setBank_memOk h) h)
  case sliceAluRequest =>
    exact execSliceAluRequest_memOk h
  case syncMirrorUpdate =>
    exact nextMemOk_next (State.mirrorApply_memOk h)
  case postRingArrival =>
    exact nextMemOk_next (State.postArrive_memOk h)
  case waitTReturn | hudWaitReturn | waitiReturn | awWaitReturn | cpwReturn =>
    refine nextMemOk_next (State.whenRunning_memOk (fun u hu => ?_) h)
    split
    · exact State.waitReturn_memOk hu
    · exact hu
  case copyChunkDelivery | cpqDelivery =>
    exact nextMemOk_next (State.onSlot_memOk (fun _ _ hu => State.copyChunk_memOk hu) h)
  case copyAbandon =>
    exact nextMemOk_next (State.onSlot_memOk (fun _ _ hu => State.abandonCopy_memOk hu) h)
  case copyPageMapped =>
    exact nextMemOk_next (State.onSlot_memOk (fun _ _ hu => State.onCopyCmd_memOk (State.mapPage_memOk hu)) h)
  case deadline =>
    exact nextMemOk_next (State.whenRunning_memOk (fun _ hu => State.ite_memOk (State.takeDeadline_memOk hu) hu) h)
  case trapDelivery | suspendToEloaler =>
    exact nextMemOk_next (State.whenRunning_memOk (fun _ hu => State.ite_memOk (State.faultNow_memOk hu) hu) h)
  case eloalerResume =>
    exact execEloalerResume_memOk h
  case fatalEnd =>
    exact execFatalEnd_memOk h
  case preemption =>
    exact nextMemOk_next (State.whenRunning_memOk (fun _ hu => State.requestStop_memOk hu) h)
  case gangSwitch =>
    exact execGangSwitch_memOk h
  case switchResume =>
    exact execSwitchResume_memOk h
  case whistleArrivalCounted =>
    exact execWhistleArrivalCounted_memOk h
  case startNotice =>
    exact nextMemOk_next (State.notice_memOk h)
  case whistleGo =>
    exact nextMemOk_next (State.whistleGo_memOk h)
  case whistleApply =>
    exact nextMemOk_next (State.whistleApply_memOk h)
  case whistleRelease =>
    exact nextMemOk_next (State.whistleRelease_memOk h)
  case finalWhistle =>
    exact nextMemOk_next (State.finalWhistle_memOk h)
  case skew =>
    exact nextMemOk_next (State.skewNow_memOk h)
  case deferredWrite | readRequest =>
    exact nextMemOk_next (State.gateAccess_memOk h)
  case writeAcknowledgement =>
    exact nextMemOk_next (State.atWriter_memOk (fun _ hu => State.writeAck_memOk hu) h)
  case readData =>
    exact nextMemOk_next (State.at_memOk (fun _ hu => State.ite_memOk hu (State.ite_memOk (State.ite_memOk (State.readRefused_memOk hu)
        (State.count_memOk hu)) (State.ite_memOk hu (State.onFab_memOk hu)))) h)
  case translationRequest =>
    exact nextMemOk_next (State.sendFlits_memOk (State.hubWalk_memOk h))
  case translationResponse =>
    exact nextMemOk_next (State.foldl_memOk (fun _ _ hu => State.asImage_memOk (fun _ hv => State.resend_memOk hv) hu)
        (State.foldl_memOk (fun _ _ hu => State.at_memOk (fun _ hv => State.resend_memOk hv) hu) (State.onThreads_memOk
        (State.rtransFill_memOk h))))
  case invalidation =>
    exact execInvalidation_memOk h
  case invalidationAcknowledgement =>
    exact nextMemOk_next (State.ite_memOk h (State.relayAck_memOk h))
  case reservationRequest =>
    exact execReservationRequest_memOk h
  case reservationGrant =>
    exact execReservationGrant_memOk h
  case streamChunkTransmit =>
    exact nextMemOk_next (State.sendChunk_memOk h)
  case streamData =>
    exact nextMemOk_next (State.gateIn_memOk h)
  case abort =>
    exact nextMemOk_next (State.abortHere_memOk h)
  case torusPortDown =>
    exact nextMemOk_next (State.ite_memOk h (State.foldl_memOk (fun _ _ hu => State.killCtx_memOk hu) (State.foldl_memOk (fun _ _ hu =>
        State.report_memOk hu) h)))
  case timeLock =>
    exact nextMemOk_next (State.ite_memOk h (State.joinPod_memOk h))
  case timeLockLoss =>
    exact nextMemOk_next (State.ite_memOk (State.killWhere_memOk h) h)
  case powerGood =>
    exact nextMemOk_next (State.ite_memOk h (State.boot_memOk h))
  case torusTraining =>
    exact nextMemOk_next (State.ite_memOk h (State.ite_memOk (State.joinPod_memOk h) (State.report_memOk h)))
  case epochWrite | ucieRecalibration | torusRecalibration | ageingGuardBand =>
    exact nextMemOk_next (State.ite_memOk h h)
  case rollbackFuseCommand | powerCap | loadResponse =>
    exact nextMemOk_next h
  case attestationRequest =>
    exact execAttestationRequest_memOk h
  case keyWithdrawal =>
    exact nextMemOk_next (State.ite_memOk h (State.clearKey_memOk (State.killWhere_memOk h)))
  case junction105 =>
    exact nextMemOk_next (State.killWhere_memOk h)
  case junction110 | telemetry =>
    exact nextMemOk_next (State.report_memOk h)
  case rdmaConnect =>
    exact nextMemOk_next (State.ite_memOk (State.emit_memOk h) (State.emit_memOk h))
  case rdmaWrite =>
    exact nextMemOk_next (State.ite_memOk (State.rdmaWrite_memOk (State.arriveRdma_memOk h)) h)
  case rdmaRead =>
    exact nextMemOk_next (State.ite_memOk (State.rdmaRead_memOk (State.arriveRdma_memOk h)) h)
  case doorbellWrite =>
    exact nextMemOk_next (State.ringDoorbell_memOk h)
  case entryTake =>
    exact nextMemOk_next (State.ite_memOk h (State.ite_memOk h (State.completeEntry_memOk h)))
  case launch =>
    exact nextMemOk_next (State.ite_memOk (State.handle_memOk (fun _ _ _ hu => State.launchEntry_memOk hu) h) h)
  case create =>
    exact nextMemOk_next (State.handle_memOk (fun _ _ _ hu => State.createEntry_memOk hu) h)
  case load =>
    exact nextMemOk_next (State.handle_memOk (fun _ _ _ hu => State.loadEntry_memOk hu) h)
  case unload =>
    exact nextMemOk_next (State.handle_memOk (fun _ _ _ hu => State.unloadEntry_memOk hu) h)
  case unloadComplete =>
    exact execUnloadComplete_memOk h
  case kill =>
    exact nextMemOk_next (State.handle_memOk (fun _ _ _ hu => State.killEntry_memOk hu) h)
  case launchAgeLimit =>
    exact nextMemOk_next (State.onLaunch_memOk h)
  case queuedLaunchDeadline =>
    exact execQueuedLaunchDeadline_memOk h
  case gangBind =>
    exact execGangBind_memOk h
  case bindRecordValid =>
    exact execBindRecordValid_memOk h
  case threadStart =>
    exact execThreadStart_memOk h
  case launchComplete =>
    exact execLaunchComplete_memOk h
  case debugAttach | debugDetach =>
    exact nextMemOk_next (State.ite_memOk (State.setDbg_memOk h) h)
  case debugStop =>
    exact nextMemOk_next (State.foldl_memOk (fun _ _ hu => State.at_memOk (fun _ hv => State.requestStop_memOk hv) hu) h)
  case debugReadImage =>
    exact nextMemOk_next (State.at_memOk (fun _ hu => State.ite_memOk (State.emit_memOk hu) hu) h)
  case debugWriteImage =>
    exact execDebugWriteImage_memOk h
  case debugPatch =>
    exact nextMemOk_next (State.ite_memOk (State.emit_memOk (State.onUnc_memOk (State.hostWrite_memOk h))) h)
  case debugResume =>
    exact nextMemOk_next (State.foldl_memOk (fun _ _ hu => State.at_memOk (fun _ hv => State.resume_memOk hv) hu) h)
  case debugResumeOne =>
    exact nextMemOk_next (State.at_memOk (fun _ hu => State.ite_memOk (State.resume_memOk (State.onTh_memOk hu)) hu) h)
  case traceRecordAppend =>
    exact execTraceRecordAppend_memOk h
  case traceUnitSeal =>
    exact execTraceUnitSeal_memOk h
  case patrolScrub =>
    exact nextMemOk_next (State.ite_memOk h (State.ite_memOk h (State.ite_memOk (State.poisonGranule_memOk (State.draw_memOk
        (State.scrubbed_memOk h))) (State.scrubbed_memOk h))))
  case sharedStoreScrub =>
    exact execSharedStoreScrub_memOk h
  case registerFileScrub =>
    exact nextMemOk_next (State.at_memOk (fun _ hu => State.ite_memOk (State.ite_memOk (State.onLn_memOk (State.scrubbed_memOk hu))
        (State.scrubbed_memOk hu)) hu) h)
  case powerDown =>
    exact nextMemOk_next State.reset_memOk
  -- the words that a lane may issue as well (04 R96)
  all_goals exact hlane

/-! ### The next word of a thread -/

theorem illegalWord_memOk (h : s.MemOk) : NextMemOk (illegalWord s) :=
  nextMemOk_next (State.frontFault_memOk h)

theorem runWord_memOk {level : Nat} {w : BitVec 64} (h : s.MemOk) : NextMemOk (runWord level w s) := by
  unfold runWord
  split
  · exact exec_memOk h
  · exact illegalWord_memOk h

theorem runHalf_memOk {w : BitVec 32} (h : s.MemOk) : NextMemOk (runHalf w s) := by
  unfold runHalf
  split
  · exact exec_memOk h
  · exact illegalWord_memOk h

theorem State.postsArrive_memOk (h : s.MemOk) : s.postsArrive.MemOk :=
  foldl_memOk (fun _ _ hu => foldl_memOk (fun _ _ hv => postArrive_memOk hv) hu) h

theorem State.copiesGo_memOk (h : s.MemOk) : s.copiesGo.MemOk := by
  refine foldl_memOk (fun _ _ hu => ?_) h
  split
  · exact copyChunk_memOk hu
  · exact hu

theorem State.streamsGo_memOk (h : s.MemOk) : s.streamsGo.MemOk :=
  forUpTo_memOk (fun _ _ hu => sendChunk_memOk hu) (foldl_memOk (fun _ _ hu => at_memOk (fun _ hv => forUpTo_memOk (fun _ _ hw =>
      ite_memOk (reserve_memOk hw) hw) hv) hu) h)

theorem State.whistleGoes_memOk {ctx : Nat} (h : s.MemOk) : (s.whistleGoes ctx).MemOk :=
  ite_memOk (foldl_memOk (fun _ _ hu => countArrival_memOk hu) h) (skewNow_memOk (whistleRelease_memOk (whistleApply_memOk
      (whistleGo_memOk (foldl_memOk (fun _ _ hu => countArrival_memOk hu) h)))))

theorem State.background_memOk (h : s.MemOk) : s.background.MemOk :=
  ite_memOk (foldl_memOk (fun _ _ hu => whistleGoes_memOk hu) (streamsGo_memOk (readmitCopies_memOk (copiesGo_memOk (postsArrive_memOk
      (mirrorAll_memOk h)))))) h

theorem State.fetchWord_memOk (h : s.MemOk) : s.fetchWord.1.MemOk := by
  unfold State.fetchWord
  dsimp only
  split
  · next e => exact fst_memOk e (fetch_memOk h)
  · next e =>
    have ht := fst_memOk e (fetch_memOk h)
    split
    · exact ht
    · split
      · exact ht
      · split
        · next e' => exact fst_memOk e' (fetch_memOk ht)
        · next e' => exact fst_memOk e' (fetch_memOk ht)

theorem State.waitOn_memOk (h : s.MemOk) : s.waitOn.MemOk := by
  unfold State.waitOn
  split
  · exact h
  · exact ite_memOk (ite_memOk (closeChain_memOk h) h) (onFr_memOk h)
  · exact waitReturn_memOk h

theorem State.beforeFrontWord_memOk (h : s.MemOk) : s.beforeFrontWord.MemOk :=
  closeChain_memOk h

theorem onNext_memOk {f : State → State} {a : Host.Outcome State Fault Refusal} (hf : ∀ u, u.MemOk → (f u).MemOk) (ha : NextMemOk a) :
    NextMemOk (onNext f a) := by
  cases a with
  | next u => exact nextMemOk_next (hf u (ha u rfl))
  | fault | refused => exact ha

theorem State.afterWord_memOk {pc : Word} {n : Nat} (h : s.MemOk) : (s.afterWord pc n).MemOk :=
  ite_memOk (stopAs_memOk (onTh_memOk (ite_memOk h (onFr_memOk h)))) (ite_memOk h (onFr_memOk h))

theorem State.runFetched_memOk {a : Fetched} (h : s.MemOk) : NextMemOk (s.runFetched a) := by
  have hrun : ∀ {pc n v r}, v.MemOk → NextMemOk r → NextMemOk (onNext (State.afterWord pc n) (onNext (State.orWait v) r)) :=
    fun hv hr => onNext_memOk (fun _ => afterWord_memOk) (onNext_memOk (fun _ => orWait_memOk hv) hr)
  cases a with
  | half w => exact hrun (beforeFrontWord_memOk h) (runHalf_memOk (beforeFrontWord_memOk h))
  | wide w =>
    have hs := ite_memOk (c := frontMajor (w.extractLsb' 24 7).toNat = true) (beforeFrontWord_memOk h) h
    exact hrun hs (runWord_memOk hs)
  | bad => exact illegalWord_memOk h
  | stop c => exact nextMemOk_next (frontStop_memOk h)

theorem State.beforeWord_memOk (h : s.MemOk) : s.beforeWord.1.MemOk := by
  unfold State.beforeWord
  split
  · exact takeSkew_memOk h
  · split
    · exact takeDeadline_memOk h
    · split
      · exact takeStop_memOk h
      · dsimp only
        generalize he : (if s.prompt && !s.th.fr.chainOpen then s.settle else (s, Settled.done)) = r
        have hr : r.1.MemOk := by
          rw [← he]
          split
          · exact settle_memOk h
          · exact h
        split
        · exact hr
        · split
          · exact waitOn_memOk hr
          · split
            · exact lanesIssue_memOk hr
            · exact hr

theorem State.threadStep_memOk (h : s.MemOk) : NextMemOk s.threadStep := by
  have hb := beforeWord_memOk h
  unfold State.threadStep
  dsimp only
  split
  · exact runFetched_memOk (fetchWord_memOk hb)
  · exact nextMemOk_next hb

theorem State.tick_memOk (h : s.MemOk) : s.tick.MemOk :=
  background_memOk h

theorem State.turn_memOk (h : s.MemOk) : s.turn.MemOk := by
  grind [State.turn, focus_memOk, State.MemOk]

/-! ### The step -/

theorem step_memOk (h : s.MemOk) : NextMemOk (step s) := by
  unfold step
  split
  · split
    · exact exec_memOk (State.withInputs_memOk h)
    · exact fun _ e => nomatch e
  · have ht := State.turn_memOk h
    dsimp only
    split
    · exact onNext_memOk (fun _ => State.tick_memOk) (State.threadStep_memOk ht)
    · exact nextMemOk_next (State.tick_memOk ht)

end Sys2Proof.Machine

namespace Sys2Proof.Claims

open Sys2Proof.Machine

/-- Settles O5: an event, a word and time going by are operations of the state, each of which keeps the canonical form. -/
theorem stepKeepsMemory : Obligations.StepKeepsMemory :=
  fun _ t h e => step_memOk h t e

end Sys2Proof.Claims

end

section

/-! ## mtc

An mtc of a front register writes it at once; one of a lane register is a one-slot entry of the VIQ, which a thread with nothing in flight
sends, runs and retires in the same step (03 R74). -/

namespace Sys2Proof.Machine

variable {s : State} {e : VEntry} {n : Nat}

/-! ### Nothing in flight -/

theorem unsafeOlder_of_viq_nil (h : s.th.fr.viq = []) : s.unsafeOlder = false := by
  simp [State.unsafeOlder, State.inLanes, h]

theorem log_of_viq_nil (h : s.th.fr.viq = []) (reg : FrontReg) (old : Word) : s.log reg old = s := by
  simp [State.log, unsafeOlder_of_viq_nil h]

theorem State.retireHistory_of_nil (h : s.th.fr.hist = []) : s.retireHistory = s := by
  have hr : retireHist s.th.fr.viq s.th.fr.hist = (0, s.th.fr.hist) := by rw [h]; rfl
  simp [State.retireHistory, hr]

theorem State.leaveStores_of_nil (h : s.th.fr.storeQ = []) : s.leaveStores = s := by
  simp [State.leaveStores, h]

theorem State.storesBefore_of_nil (h : s.th.fr.storeQ = []) : s.storesBefore = s := by
  unfold State.storesBefore
  split <;> simp [h]

theorem State.storesLeft_of_nil (h : s.th.fr.storeQ = []) : s.storesLeft = false := by
  unfold State.storesLeft
  split <;> simp [h]

theorem State.runClosed_of_nil (h : s.th.fr.viq = []) (k : Nat) : State.runClosed (k + 1) s = (s, .done) := by
  simp [State.runClosed, h, splitConvoy]

/-! ### The lanes run the entry of an mtc -/

/-- The entry of an mtc that has not issued (03 R74). -/
structure FreshMtc (e : VEntry) (n : Nat) : Prop where
  slot : e.slot = .mtc n
  op : e.op = 0
  joined : e.joined = false
  issued : e.issued = false
  complete : e.complete = false
  prog : e.prog = 0

/-- The entry of an mtc once it has run: its retirement counts and samples nothing. -/
structure RanMtc (e : VEntry) (n : Nat) : Prop where
  slot : e.slot = .mtc n
  joined : e.joined = false
  complete : e.complete = true
  sampled : e.sampled = false

@[simp] theorem State.mtcLane_fr (x : Word) : (s.mtcLane n x).th.fr = s.th.fr := by
  unfold State.mtcLane
  split <;> rfl

@[simp] theorem State.mtcLane_mem (x : Word) : (s.mtcLane n x).mem = s.mem := by
  unfold State.mtcLane
  split <;> rfl

theorem State.mtcLane_onFr (f : Front → Front) (x : Word) : (s.onFr f).mtcLane n x = (s.mtcLane n x).onFr f := by
  unfold State.mtcLane
  split <;> rfl

theorem member_of_freshMtc (h : FreshMtc e n) (vcp : Word) (cut : Nat → Bool) :
    ∃ a, (ConvoyRun.start s).member noLimit cut vcp 0 e = a ∧ a.st = s.retireHistory.mtcLane n e.sc ∧ a.full = true ∧ a.stops = [] ∧
      ∃ x, RanMtc x n ∧ a.ran = [x] := by
  obtain ⟨hslot, hop, hjoin, hiss, hcomp, hprog⟩ := h
  refine ⟨_, rfl, ?_⟩
  unfold ConvoyRun.member
  simp [ConvoyRun.start, hcomp, hiss, hprog, hslot, hop, State.slotGroups, noLimit, ConvoyRun.fits, State.waitsSafe, ConvoyRun.slotWaits,
    State.logFull, State.firstIssue, State.sampleIssue, samples, VEntry.groupOf, slotRun, laneDone, VEntry.touch, VEntry.ran,
    VEntry.finish, VEntry.pending]
  exact ⟨rfl, hjoin, rfl, rfl⟩

theorem State.issueConvoy_of_freshMtc (h : FreshMtc e n) (hv : s.th.fr.viq = [e]) (hh : s.th.fr.hist = []) (hq : s.th.fr.storeQ = []) :
    ∃ x, RanMtc x n ∧ s.issueConvoy noLimit = ((s.mtcLane n e.sc).onFr fun f => { f with viq := [x] }, .done) := by
  obtain ⟨a, ha, hst, hfull, hstops, x, hx, hran⟩ := member_of_freshMtc (s := s) h s.vcp (fun _ => false)
  rw [retireHistory_of_nil hh] at hst
  refine ⟨x, hx, ?_⟩
  unfold State.issueConvoy
  simp [storesBefore_of_nil hq, hv, splitConvoy, storesLeft_of_nil hq, runMembers, ConvoyRun.memberOn, ha, hstops, faultPoint, hfull,
    hran, hst]

theorem State.retireFront_of_ranMtc {x : VEntry} (hx : RanMtc x n) (hv : s.th.fr.viq = [x]) (hh : s.th.fr.hist = [])
    (hq : s.th.fr.storeQ = []) : s.retireFront = s.onFr fun f => { f with viq := [] } := by
  obtain ⟨hslot, hjoin, hcomp, hsamp⟩ := hx
  have h1 := retireHistory_of_nil (s := s.onFr fun f => { f with viq := [] }) hh
  have h2 := leaveStores_of_nil (s := s.onFr fun f => { f with viq := [] }) hq
  simp [State.retireFront, hv, splitConvoy, hcomp, State.retireConvoy, State.awaits, hslot, hsamp, h1, h2]

theorem State.runClosed_of_freshMtc (h : FreshMtc e n) (hv : s.th.fr.viq = [e]) (hh : s.th.fr.hist = []) (hq : s.th.fr.storeQ = [])
    (hc : s.th.fr.chainOpen = false) (k : Nat) :
    State.runClosed (k + 2) s = ((s.mtcLane n e.sc).onFr fun f => { f with viq := [] }, .done) := by
  obtain ⟨x, hx, hissue⟩ := issueConvoy_of_freshMtc h hv hh hq
  have hr := retireFront_of_ranMtc (s := (s.mtcLane n e.sc).onFr fun f => { f with viq := [x] }) hx rfl (by simpa using hh)
    (by simpa using hq)
  rw [State.runClosed]
  simp only [hv, splitConvoy, hc, hissue, hr]
  simp [runClosed_of_nil, State.onFr]

theorem append_of_freshMtc {next : State → State} (h : FreshMtc e n) :
    ∃ x, FreshMtc x n ∧ x.sc = e.sc ∧
      s.append e false false next = (next s).onFr fun f => { f with viq := f.viq ++ [x], seq := e.seq, chainOpen := false } := by
  refine ⟨({ e with after := (next s).th.fr.spc, joined := false, zcs := if e.op = 0x73 then some s.th.fr.regs.zc else none }).ranged
    s.th.fr.copy.tm, ⟨h.slot, h.op, rfl, h.issued, h.complete, h.prog⟩, rfl, ?_⟩
  simp [State.append]

/-! ### What the front writes -/

@[simp] theorem log_regs (reg : FrontReg) (old : Word) : (s.log reg old).th.fr.regs = s.th.fr.regs := by
  obtain ⟨h, e, -⟩ := log_form s reg old
  rw [e]
  rfl

@[simp] theorem onRegs_log_regs (reg : FrontReg) (old : Word) (g : FrontRegs → FrontRegs) :
    ((s.log reg old).onRegs g).th.fr.regs = g s.th.fr.regs := by
  obtain ⟨h, e, -⟩ := log_form s reg old
  rw [e]
  rfl

/-- A write of a front register touches the registers and the history buffer only (03 R60, R74). -/
theorem mtcFront_form (k : Nat) (x : Word) : ∃ h r, s.mtcFront k x = s.onFr fun f => { f with hist := f.hist ++ h, regs := r } := by
  have key : ∀ (reg : FrontReg) (old : Word) (g : FrontRegs → FrontRegs),
      ∃ h r, (s.log reg old).onRegs g = s.onFr fun f => { f with hist := f.hist ++ h, regs := r } := fun reg old g => by
    obtain ⟨h, e, -⟩ := log_form s reg old
    exact ⟨h, g s.th.fr.regs, by rw [e]; rfl⟩
  unfold State.mtcFront
  dsimp only
  split
  -- smplcfg logs the sample counter as well (12 R374)
  case h_8 =>
    obtain ⟨h, e, -⟩ := log_form s .smplcfg s.th.fr.regs.smplcfg
    obtain ⟨h', e', -⟩ := log_form (s.log .smplcfg s.th.fr.regs.smplcfg) .next (s.th.fr.regs.next.setWidth 64)
    exact ⟨h ++ h', _, by rw [e', e]; simp [State.onFr, State.onRegs]; rfl⟩
  case h_10 => exact ⟨[], s.th.fr.regs, by simp [State.onFr]⟩
  all_goals exact key _ _ _

theorem mtcFront_frame (k : Nat) (x : Word) :
    (s.mtcFront k x).onFr (fun f => { f with hist := s.th.fr.hist, regs := s.th.fr.regs }) = s := by
  obtain ⟨h, r, e⟩ := mtcFront_form (s := s) k x
  rw [e]
  rfl

theorem mtcFront_ptag (x : Word) :
    s.mtcFront 0x072 x = (s.log .ptag s.th.fr.regs.ptag).onRegs fun r =>
      { r with ptag := word (r.ptag.toNat / 16 * 16 + x.toNat % 16) } := by
  have h : ∀ y : Word, putBits y 0 4 x.toNat = word (y.toNat / 16 * 16 + x.toNat % 16) := fun y => by
    simp only [putBits, word]
    congr 1
    omega
  simp [State.mtcFront, h]

theorem mtcCopies_form (h : s.th.fr.viq = []) (k : Nat) (x : Word) : ∃ c, s.mtcCopies k x = s.onFr fun f => { f with copy := c } := by
  unfold State.mtcCopies
  split
  case h_4 => exact ⟨s.th.fr.copy, rfl⟩
  all_goals
    rw [log_of_viq_nil h]
    exact ⟨_, rfl⟩

/-! ### How mtc meets a register -/

theorem exec_mtc (a : RegNo) (k : BitVec 12) (h : k.toNat < 0x800) :
    exec (.mtc a k) s = .next (s.writeCr (halfOf (.mtc a k)) (s.rd a) k.toNat) := by
  rw [← if_pos (c := k.toNat < 0x800) (t := s.writeCr (halfOf (.mtc a k)) (s.rd a) k.toNat) (e := s.frontFault .illegal) h]
  rfl

theorem writeCr_front {half k : Nat} {x : Word} (hc : crClass k = some .front) (hx : x &&& crReserved k = 0) :
    s.writeCr half x k = s.mtcFrontNext k x := by
  simp [State.writeCr, hc, hx]

theorem writeCr_lane {half k : Nat} {x : Word} (hc : crClass k = some .lane) (hm : mtcSends k = true) (hx : x &&& crReserved k = 0) :
    s.writeCr half x k = s.sendSlot (.mtc k) half x (fun t => t.seqNext 4) fun t => t.mtcCopies k x := by
  simp [State.writeCr, hc, hm, hx]

theorem writeCr_reserved {half k : Nat} {x : Word} (hx : x &&& crReserved k ≠ 0)
    (hc : crClass k = some .front ∨ crClass k = some .lane ∧ mtcSends k = true) : s.writeCr half x k = s.frontFault .illegal := by
  rcases hc with hc | ⟨hc, hm⟩ <;> simp_all [State.writeCr]

/-- efc holds the low 32 bits of a value whose reserved bits are clear (06 Table 6.9). -/
theorem setWidth_setWidth_of_and {x : Word} (h : x &&& 0xFFFFFFFF00000000#64 = 0) : (x.setWidth 32).setWidth 64 = x := by
  ext i hi
  by_cases h32 : i < 32
  · simp [h32, BitVec.getLsbD_eq_getElem hi]
  · have hm : (0xFFFFFFFF00000000#64).getLsbD i = true := by
      rw [show 0xFFFFFFFF00000000#64 = BitVec.allOnes 64 <<< 32 from rfl, BitVec.getLsbD_shiftLeft, BitVec.getLsbD_allOnes]
      simp only [Bool.and_eq_true, decide_eq_true_eq, Bool.not_eq_true', decide_eq_false_iff_not]
      omega
    have hx := congrArg (·.getLsbD i) h
    simp only [BitVec.getLsbD_and, hm, Bool.and_true] at hx
    simp [h32, ← BitVec.getLsbD_eq_getElem hi, hx]

end Sys2Proof.Machine

namespace Sys2Proof.Claims

open Sys2Proof.Machine

variable {s : State}

theorem frontFault_of_older_nil (h : s.older = []) (c : ExcCause) : s.frontFault c = faultsHere s c := by
  obtain ⟨hstepq, hlanes⟩ : s.th.fr.stepq = none ∧ s.inLanes = [] := by simpa [State.older] using h
  simp [State.frontFault, State.frontStop, State.settle, hlanes, hstepq, faultsHere]

/-! ### The tables of registers -/

theorem frontWrites_class {k : Nat} {rs : Word} (h : (k, rs) ∈ frontWrites) :
    k < 0x800 ∧ crClass k = some .front ∧ crReserved k = rs :=
  (by decide : ∀ p ∈ frontWrites, p.1 < 0x800 ∧ crClass p.1 = some .front ∧ crReserved p.1 = p.2) _ h

theorem laneWrites_class {k : Nat} {rs : Word} (h : (k, rs) ∈ laneWrites) :
    k < 0x800 ∧ crClass k = some .lane ∧ mtcSends k = true ∧ crReserved k = rs :=
  (by decide : ∀ p ∈ laneWrites, p.1 < 0x800 ∧ crClass p.1 = some .lane ∧ mtcSends p.1 = true ∧ crReserved p.1 = p.2) _ h

theorem ignored_class {k : Nat} (h : k ∈ ignored) : k < 0x800 ∧ (crClass k = some .lane ∧ mtcSends k = false ∨
    (crClass k = some .front ∨ crClass k = some .immediate) ∧ crReserved k = 0 ∧ k ≠ 0x042 ∧ k ≠ 0x045) :=
  (by decide : ∀ k ∈ ignored, k < 0x800 ∧ (crClass k = some .lane ∧ mtcSends k = false ∨
    (crClass k = some .front ∨ crClass k = some .immediate) ∧ crReserved k = 0 ∧ k ≠ 0x042 ∧ k ≠ 0x045)) _ h

theorem mtcFront_crValue (x : Word) : ∀ p ∈ frontWrites, (s.mtcFront p.1 x).crValue p.1 = x := by
  simp [frontWrites, State.mtcFront, State.crValue, vecGet_vecSet_same]

theorem mtcFront_ignored (x : Word) : ∀ k ∈ ignored, s.mtcFront k x = s := by
  simp [ignored, State.mtcFront]

theorem mtcLane_crValue (f : Front → Front) (x : Word) :
    ∀ p ∈ laneWrites, x &&& p.2 = 0 → ((s.mtcLane p.1 x).onFr f).crValue p.1 = x := by
  simpa [laneWrites, State.mtcLane, State.crValue] using setWidth_setWidth_of_and

theorem writeCr_ignored {half k : Nat} {x : Word} (h : k ∈ ignored) : s.writeCr half x k = s.seqNext 4 := by
  rcases (ignored_class h).2 with ⟨hc, hm⟩ | ⟨hc | hc, hr, h0, h1⟩
  · simp [State.writeCr, hc, hm]
  all_goals simp [State.writeCr, hc, hr, State.mtcFrontNext, h0, h1, mtcFront_ignored x k h]

/-! ### An mtc that an idle thread sends to its lanes -/

theorem idle_mtcCopies (hi : Idle s) (k : Nat) (x : Word) : Idle (s.mtcCopies k x) := by
  obtain ⟨c, e⟩ := mtcCopies_form hi.viq k x
  rw [e]
  exact ⟨hi.prompt, hi.viq, hi.stepq, hi.hist, hi.storeQ, hi.chain, hi.lane⟩

theorem idle_seqNext (hi : Idle s) (n : Nat) : Idle (s.seqNext n) := by
  obtain ⟨h, z, e, hh, -⟩ := seqNext_form s n
  rw [e, hh (unsafeOlder_of_viq_nil hi.viq)]
  exact ⟨hi.prompt, hi.viq, hi.stepq, by simpa using hi.hist, hi.storeQ, hi.chain, hi.lane⟩

theorem runAhead_append_mtc {e : VEntry} {n : Nat} {next : State → State} (h : FreshMtc e n) (hi : Idle (next s)) :
    (s.append e false false next).runAhead = ((next s).mtcLane n e.sc).onFr fun f => { f with seq := e.seq } := by
  obtain ⟨hprompt, hviq, -, hhist, hstoreQ, hchain, -⟩ := hi
  obtain ⟨x, hx, hsc, happ⟩ := append_of_freshMtc (s := s) (next := next) h
  have hv : (s.append e false false next).th.fr.viq = [x] := by simp [happ, hviq]
  have hrun := State.runClosed_of_freshMtc hx hv (by simp [happ, hhist]) (by simp [happ, hstoreQ]) (by simp [happ]) 0
  rw [State.runAhead, if_pos (by simp [happ, hprompt]), hv]
  change (State.runClosed (0 + 2) _).1 = _
  rw [hrun, happ, hsc, State.mtcLane_onFr]
  simp [State.onFr, hviq, hchain]

/-- At U with nothing in flight, the entry of an mtc is sent, runs and retires in its own step (03 R74). -/
theorem sendSlot_mtc_of_idle {half n : Nat} {x : Word} {next front : State → State} (hi : Idle s) (hu : s.th.fr.m.lvl = false)
    (hn : Idle (next (front s))) :
    s.sendSlot (.mtc n) half x next front =
      ((next (front s)).mtcLane n x).onFr fun f => { f with seq := (front s).th.fr.seq + 1 } := by
  have hclose : s.closeChain = s := by simp [State.closeChain, hi.chain]
  have hused : s.viqUsed = 0 := by simp [State.viqUsed, hi.viq, hi.stepq]
  unfold State.sendSlot
  rw [if_neg (by simp [hu])]
  simp only [hclose, hi.prompt, State.runClosed_of_nil hi.viq, if_true]
  rw [if_neg (by simp [hused])]
  exact runAhead_append_mtc (n := n) ⟨rfl, rfl, rfl, rfl, rfl, rfl⟩ hn

theorem seqNext_mtcCopies (hi : Idle s) (k : Nat) (x : Word) :
    ∃ c z, (s.mtcCopies k x).seqNext 4 = s.onFr (fun f =>
        { f with copy := c, regs := { f.regs with zc := z }, spc := (s.arrive (s.th.fr.spc + 4)).2 }) ∧
      (s.mtcCopies k x).th.fr.copy = c := by
  obtain ⟨c, ec⟩ := mtcCopies_form hi.viq k x
  obtain ⟨h, z, e, hh, -⟩ := seqNext_form (s.mtcCopies k x) 4
  have hpc : ((s.mtcCopies k x).arrive ((s.mtcCopies k x).th.fr.spc + word 4)).2 = (s.arrive (s.th.fr.spc + 4)).2 := by
    rw [(arrive_congr _ s _ (by rw [ec]; rfl) (by rw [ec]; rfl)).1, ec]
    rfl
  refine ⟨c, z, ?_, by rw [ec]; rfl⟩
  rw [e, hpc, hh (unsafeOlder_of_viq_nil (idle_mtcCopies hi k x).viq), ec]
  simp [State.onFr]

/-- What an mtc of a lane register leaves where nothing is in flight: the front goes on in sequence, and the lanes take the value. -/
theorem writeCr_lane_of_idle {half k : Nat} {x : Word} (hi : Idle s) (hu : s.th.fr.m.lvl = false) (hc : crClass k = some .lane)
    (hm : mtcSends k = true) (hx : x &&& crReserved k = 0) :
    ∃ c z q, s.writeCr half x k = ((s.mtcLane k x).onFr fun f =>
        { f with copy := c, regs := { f.regs with zc := z }, spc := (s.arrive (s.th.fr.spc + 4)).2, seq := q }) ∧
      (s.mtcCopies k x).th.fr.copy = c := by
  obtain ⟨c, z, e, hcopy⟩ := seqNext_mtcCopies hi k x
  refine ⟨c, z, (s.mtcCopies k x).th.fr.seq + 1, ?_, hcopy⟩
  rw [writeCr_lane hc hm hx, sendSlot_mtc_of_idle hi hu (idle_seqNext (idle_mtcCopies hi k x) 4), e, State.mtcLane_onFr]
  rfl

/-! ### The clauses of mtc -/

section

variable (s) (a : RegNo) (n : BitVec 12)

/-- The word activates a loop set (04 R86). -/
def startsLoop : Prop := (n = 0x042 ∧ zcA (s.zc false) = false) ∨ (n = 0x045 ∧ zcA (s.zc true) = false)

theorem startsLoop_iff :
    startsLoop s n ↔ (n.toNat = 0x042 ∧ !zcA (s.zc false)) ∨ (n.toNat = 0x045 ∧ !zcA (s.zc true)) := by
  have h : ∀ k : BitVec 12, n = k ↔ n.toNat = k.toNat := fun _ => BitVec.toNat_inj.symm
  simp [startsLoop, h]

theorem mtc_frontWrites {rs : Word} (hn : (n.toNat, rs) ∈ frontWrites) (hx : s.rd a &&& rs = 0) :
    (¬ startsLoop s n → ∃ u : State, exec (.mtc a n) s = .next (u.seqNext 4) ∧ u.crValue n.toNat = s.rd a ∧
      u.onFr (fun f => { f with hist := s.th.fr.hist, regs := s.th.fr.regs }) = s) ∧
    (startsLoop s n → ∃ u : State, exec (.mtc a n) s = .next u ∧ u.crValue n.toNat = s.rd a ∧
      u.onFr (fun f => { f with hist := (s.seqNext 4).th.fr.hist, regs := (s.seqNext 4).th.fr.regs }) = s.seqNext 4) := by
  obtain ⟨hlt, hc, rfl⟩ := frontWrites_class hn
  rw [exec_mtc a n hlt, writeCr_front hc hx, State.mtcFrontNext, startsLoop_iff]
  constructor <;> intro hs
  · exact ⟨_, by rw [if_neg hs], mtcFront_crValue _ _ hn, mtcFront_frame _ _⟩
  · exact ⟨_, by rw [if_pos hs], mtcFront_crValue _ _ hn, mtcFront_frame _ _⟩

theorem mtc_ptag (hn : n = 0x072) (hx : s.rd a &&& 0xFFF0 = 0) : ∃ u : State, exec (.mtc a n) s = .next (u.seqNext 4) ∧
    u.th.fr.regs.ptag = word (s.th.fr.regs.ptag.toNat / 16 * 16 + (s.rd a).toNat % 16) ∧
    u.onFr (fun f => { f with hist := s.th.fr.hist, regs := { f.regs with ptag := s.th.fr.regs.ptag } }) = s := by
  subst hn
  obtain ⟨h, e, -⟩ := log_form s .ptag s.th.fr.regs.ptag
  refine ⟨s.mtcFront 0x072 (s.rd a), ?_, ?_, ?_⟩
  · rw [exec_mtc a _ (by decide), writeCr_front (by decide) hx]
    rfl
  · rw [mtcFront_ptag, onRegs_log_regs]
  · rw [mtcFront_ptag, e]
    rfl

theorem mtc_ignored (hn : n.toNat ∈ ignored) : exec (.mtc a n) s = .next (s.seqNext 4) := by
  rw [exec_mtc a n (ignored_class hn).1, writeCr_ignored hn]

theorem mtc_reserved {rs : Word} (hn : (n.toNat, rs) ∈ frontWrites ∨ (n.toNat, rs) ∈ laneWrites) (hx : s.rd a &&& rs ≠ 0)
    (ho : s.older = []) : exec (.mtc a n) s = .next (faultsHere s .illegal) := by
  rcases hn with hn | hn
  · obtain ⟨hlt, hc, rfl⟩ := frontWrites_class hn
    rw [exec_mtc a n hlt, writeCr_reserved hx (.inl hc), frontFault_of_older_nil ho]
  · obtain ⟨hlt, hc, hm, rfl⟩ := laneWrites_class hn
    rw [exec_mtc a n hlt, writeCr_reserved hx (.inr ⟨hc, hm⟩), frontFault_of_older_nil ho]

variable (hi : Idle s) (hu : s.th.fr.m.lvl = false)
include hi hu

theorem mtc_laneWrites {rs : Word} (hn : (n.toNat, rs) ∈ laneWrites) (hx : s.rd a &&& rs = 0) :
    ∃ t, exec (.mtc a n) s = .next t ∧ t.crValue n.toNat = s.rd a ∧ t.th.fr.spc = (s.arrive (s.th.fr.spc + 4)).2 ∧ t.mem = s.mem ∧
      t.th.fr.s = s.th.fr.s := by
  obtain ⟨hlt, hc, hm, rfl⟩ := laneWrites_class hn
  obtain ⟨c, z, q, e, -⟩ := writeCr_lane_of_idle (half := halfOf (.mtc a n)) hi hu hc hm hx
  refine ⟨_, exec_mtc a n hlt, ?_⟩
  rw [e]
  exact ⟨mtcLane_crValue _ _ _ hn hx, rfl, by simp, by simp⟩

theorem mtc_vxflags (hn : n = 0x016) (hx : s.rd a &&& 0xFFFFFFFFFFFFC0C0 = 0) : ∃ t, exec (.mtc a n) s = .next t ∧
    t.th.ln.flags = s.th.ln.flags &&& ~~~((s.rd a).setWidth 6) ∧ t.th.ln.traps = ((s.rd a) >>> 8).setWidth 6 ∧
    t.th.fr.copy.traps = ((s.rd a) >>> 8).setWidth 6 := by
  subst hn
  obtain ⟨c, z, q, e, hcopy⟩ := writeCr_lane_of_idle (half := halfOf (.mtc a 0x016)) (k := 0x016) hi hu (by decide) (by decide) hx
  refine ⟨_, exec_mtc a _ (by decide), ?_⟩
  rw [show (0x016 : BitVec 12).toNat = 0x016 from rfl, e]
  refine ⟨rfl, rfl, ?_⟩
  rw [← hcopy]
  rfl

theorem mtc_sstat (hn : n = 0x013) (hx : s.rd a &&& 0xFFFF0000F800FFF8 = 0) : ∃ t, exec (.mtc a n) s = .next t ∧
    t.th.st = { s.th.st with uncs := s.th.st.uncs && !(s.rd a).getLsbD 2 } := by
  subst hn
  obtain ⟨c, z, q, e, -⟩ := writeCr_lane_of_idle (half := halfOf (.mtc a 0x013)) (k := 0x013) hi hu (by decide) (by decide) hx
  refine ⟨_, exec_mtc a _ (by decide), ?_⟩
  rw [show (0x013 : BitVec 12).toNat = 0x013 from rfl, e]
  rfl

end

/-- Settles O24: the clauses of mtc, each by the class of the register that it writes. -/
theorem writeControl : Obligations.WriteControl := fun s a n _ =>
  ⟨fun _ hn hx => mtc_frontWrites s a n hn hx, mtc_ptag s a n, mtc_ignored s a n, fun _ hn hx ho => mtc_reserved s a n hn hx ho,
    fun hi hu => ⟨fun _ hn hx => mtc_laneWrites s a n hi hu hn hx, mtc_vxflags s a n hi hu, mtc_sstat s a n hi hu⟩⟩

end Sys2Proof.Claims

end

section

/-! ## Encoding and decoding

The round trip of every constructor (Laws/PerInstr) gives the one direction. For the other, what a row of the tables gives is looked
up once for each length of word: its instruction is named by the function field, and the word of its encoding is the one that was
decoded, field by field. -/

namespace Sys2Proof

/-! ### Fields of a word -/

/-- The bits of a word from bit s on are those of a field. -/
def HasField {k n : Nat} (w : BitVec k) (s : Nat) (x : BitVec n) : Prop := w.extractLsb' s n = x

section

variable {k m n s : Nat} {w : BitVec k}

theorem hasField_extractLsb' : HasField w s (w.extractLsb' s n) := rfl

theorem hasField_append (x : BitVec m) (y : BitVec n) : HasField w s (x ++ y) ↔ HasField w (s + n) x ∧ HasField w s y := by
  have h := BitVec.extractLsb'_append_extractLsb'_eq_extractLsb' (x := w) (start₂ := s + n) (start₁ := s) (len₁ := n) (len₂ := m) rfl
  refine ⟨fun e => ?_, fun ⟨hx, hy⟩ => ?_⟩
  · rw [HasField, ← h] at e
    have hx := congrArg (·.extractLsb' n m) e
    have hy := congrArg (·.extractLsb' 0 n) e
    simp only [BitVec.extractLsb'_append_eq_of_le (Nat.le_refl n), Nat.sub_self, BitVec.extractLsb'_eq_self] at hx
    simp only [BitVec.extractLsb'_append_eq_of_add_le (Nat.le_of_eq (Nat.zero_add n)), BitVec.extractLsb'_eq_self] at hy
    exact ⟨hx, hy⟩
  · rw [HasField, ← h, hx, hy]

theorem hasField_ofNat (v : Nat) : HasField w s (BitVec.ofNat n v) ↔ w.toNat / 2 ^ s % 2 ^ n = v % 2 ^ n := by
  rw [HasField, ← BitVec.toNat_inj, BitVec.extractLsb'_toNat, Nat.shiftRight_eq_div_pow, BitVec.toNat_ofNat]

/-- A word is its one field from bit 0 on. -/
theorem eq_of_hasField {x : BitVec k} (h : HasField w 0 x) : x = w := by
  rw [← h, BitVec.extractLsb'_eq_self]

end

/-! ### What a row of the tables gives -/

/-- A 32-bit word is that of the instruction its row gives: every field that carries no operand is the one the encoding writes. -/
theorem encode_of_row32 {i : Instr} {w : BitVec 32} (hw : w.toNat < 2 ^ 31) (h : row32 w = some i) :
    encode i = some (.w32 w) ∧ i.named = true := by
  have hlen : w.toNat / 2 ^ 31 % 2 ^ 1 = 0 := by omega
  unfold row32 at h
  split at h
  all_goals simp only [decMajor00, decMajor01, decMajor02, decMajor03, decMajor04, decMajor05, decMajor06, decMajor07, decMajor08,
      decMajor09, decMajor0A, decMajor0B, decMajor0C, decMajor0D, decMajor0E, decMajor0F, decMajor10, decMajor11, decMajor12,
      decMajor13, decMajor14, decMajor15, decMajor16, decMajor17, decMajor20, decMajor21, decMajor22, decMajor23, decMajor24,
      decMajor30, decMajor31, decMajor32, decMajor33, decMajor34, decMajor35, decMajor36, decMajor37, decMajor38, decMajor39,
      decMajor3A, decMajor3B, decMajor3C, decMajor3D, decMajor3E, reduceCtorEq] at h
  all_goals repeat' split at h
  all_goals cases h
  all_goals refine ⟨congrArg some (congrArg Encoding.w32 (eq_of_hasField ?_)), rfl⟩
  all_goals simp only [hasField_append, hasField_ofNat, hasField_extractLsb', and_true]
  -- every field that is left is a number in its place
  all_goals simp only [BitVec.extractLsb'_toNat, ← BitVec.toNat_inj, Nat.shiftRight_eq_div_pow, BitVec.toNat_ofNat, Nat.reducePow,
    Nat.reduceMod, Nat.reduceAdd] at *
  all_goals simp only [*, and_self, true_and]
  -- zero bits above a function code, which the encoding writes as one number
  all_goals omega

/-- The fields of a 64-bit word are those of the instruction its row gives, and its function field names it. -/
theorem encode_of_row64 {i : Instr} {op : Nat} {w : VWord} (h : row64 op w = some i) :
    encode i = some (.w64 (packWide (BitVec.ofNat 7 op) w)) ∧ i.named = true := by
  unfold row64 at h
  split at h
  all_goals simp only [wideMajor00, wideMajor01, wideMajor02, wideMajor03, wideMajor04, wideMajor05, wideMajor06, wideMajor07,
      wideMajor08, wideMajor09, wideMajor20, wideMajor21, wideMajor22, wideMajor23, wideMajor30, wideMajor31, wideMajor32, wideMajor33,
      wideMajor34, wideMajor35, wideMajor38, wideMajor39, wideMajor3A, wideMajor3B, wideMajor3C, wideMajor3D, wideMajor40, wideMajor41,
      wideMajor42, wideMajor43, wideMajor44, wideMajor45, wideMajor46, wideMajor47, wideMajor48, wideMajor49, wideMajor4A, wideMajor4B,
      wideMajor50, wideMajor51, wideMajor52, wideMajor53, wideMajor54, wideMajor55, wideMajor56, wideMajor57, wideMajor58, wideMajor59,
      wideMajor5A, wideMajor5B, wideMajor5C, wideMajor5D, wideMajor5E, wideMajor60, wideMajor61, wideMajor62, wideMajor63, wideMajor64,
      wideMajor65, wideMajor66, wideMajor67, wideMajor68, wideMajor69, wideMajor70, wideMajor71, wideMajor72, wideMajor73, wideMajor74,
      wideMajor75, wideMajor78, wideMajor79, wideMajor7A, wideMajor7B, reduceCtorEq] at h
  all_goals repeat' split at h
  all_goals cases h
  all_goals exact ⟨rfl, by simp [Instr.named, *]⟩

/-! ### The fields of a 64-bit word -/

theorem Form.code_of_ofCode {n : Nat} {f : Form} (h : Form.ofCode n = some f) : f.code = n := by
  unfold Form.ofCode at h
  split at h <;> cases h <;> rfl

theorem EType.code_of_ofCode {n : Nat} {e : EType} (h : EType.ofCode n = some e) : e.code = n := by
  unfold EType.ofCode at h
  split at h <;> cases h <;> rfl

theorem RSel.code_ofCode {n : Nat} (h : n < 4) : (RSel.ofCode n).code = n := by
  interval_cases n <;> rfl

/-- The fields of a word whose length bit is set make that word (02 Table 2.2). -/
theorem packWide_of_unpackWide {p : BitVec 64} {op : BitVec 7} {w : VWord} (hp : p.extractLsb' 31 1 = 1#1)
    (h : unpackWide p = some (op, w)) : packWide op w = p := by
  unfold unpackWide at h
  split at h
  case h_2 => cases h
  case h_1 f e hf he =>
    cases h
    apply eq_of_hasField
    have hc : BitVec.ofBool (p.extractLsb' 58 1 == 1#1) = p.extractLsb' 58 1 := by
      generalize p.extractLsb' 58 1 = c
      revert c
      decide
    simp only [packWide, hasField_append, hasField_extractLsb', Form.code_of_ofCode hf, EType.code_of_ofCode he,
      RSel.code_ofCode (p.extractLsb' 56 2).isLt, BitVec.ofNat_toNat, BitVec.setWidth_eq, hc, and_true, true_and]
    exact hp

/-! ### Bytes -/

theorem leNat_lt (bs : List Byte) : leNat bs < 256 ^ bs.length := by
  induction bs with
  | nil => decide
  | cons b bs ih =>
    have hb := b.isLt
    rw [leNat, List.length_cons, Nat.pow_succ]
    omega

theorem leBytes_leNat (bs : List Byte) : leBytes bs.length (leNat bs) = bs := by
  induction bs with
  | nil => rfl
  | cons b bs ih =>
    have hb := b.isLt
    rw [List.length_cons, leNat, leBytes, show (b.toNat + 256 * leNat bs) / 256 = leNat bs by omega, ih]
    congr 1
    apply BitVec.eq_of_toNat_eq
    rw [BitVec.toNat_ofNat]
    omega

/-- n bytes are those of the word of their number. -/
theorem leBytes_ofNat_leNat {n k : Nat} {bs : List Byte} (hl : bs.length = n) (hk : 256 ^ n = 2 ^ k) :
    leBytes n (BitVec.ofNat k (leNat bs)).toNat = bs := by
  have hlt := leNat_lt bs
  rw [hl, hk] at hlt
  rw [BitVec.toNat_ofNat, Nat.mod_eq_of_lt hlt, ← hl, leBytes_leNat]

/-- The length bit of a 64-bit word is bit 31 of its first four bytes (02 R28). -/
theorem leNat_take_four {bs : List Byte} (hl : 4 ≤ bs.length) : leNat bs % 2 ^ 32 = leNat (bs.take 4) := by
  obtain ⟨a, b, c, d, cs, rfl⟩ : ∃ a b c d cs, bs = a :: b :: c :: d :: cs := by
    match bs, hl with
    | a :: b :: c :: d :: cs, _ => exact ⟨a, b, c, d, cs, rfl⟩
  have ha := a.isLt
  have hb := b.isLt
  have hc := c.isLt
  have hd := d.isLt
  simp only [leNat, List.take]
  omega

/-! ### The decoder -/

/-- An instruction that passes the checks of R43 comes from its row. -/
theorem checked_eq_ok {o : Option Instr} {i : Instr} (h : checked o = .ok i) : o = some i ∧ i.checks = true := by
  unfold checked at h
  split at h
  · cases h
  · split at h <;> cases h
    exact ⟨rfl, by assumption⟩

/-- What a 32-bit word decodes to is well-formed and has that word (02 R43). -/
theorem encode_of_decode32 {i : Instr} {w : BitVec 32} (hw : w.toNat < 2 ^ 31) (h : decode32 w = .ok i) :
    i.wellFormed = true ∧ encode i = some (.w32 w) := by
  obtain ⟨hrow, hchecks⟩ := checked_eq_ok h
  obtain ⟨henc, hnamed⟩ := encode_of_row32 hw hrow
  exact ⟨by simp [Instr.wellFormed, hnamed, hchecks], henc⟩

/-- What a 64-bit word of level 3 decodes to is well-formed and has that word (02 R43). -/
theorem encode_of_decode64 {i : Instr} {w : BitVec 64} (hw : w.extractLsb' 31 1 = 1#1) (h : decode64 3 w = .ok i) :
    i.wellFormed = true ∧ encode i = some (.w64 w) := by
  unfold decode64 at h
  simp only [rewriteWide] at h
  split at h
  case h_1 => cases h
  case h_2 op f hu =>
    obtain ⟨hrow, hchecks⟩ := checked_eq_ok h
    obtain ⟨henc, hnamed⟩ := encode_of_row64 hrow
    rw [BitVec.ofNat_toNat, BitVec.setWidth_eq, packWide_of_unpackWide hw hu] at henc
    exact ⟨by simp [Instr.wellFormed, hnamed, hchecks], henc⟩

end Sys2Proof

namespace Sys2Proof.Laws

/-- The round trip of every instruction. -/
theorem RoundTrip.statement (i : Instr) : RoundTrip.Statement i := by
  cases i with
  | add d a b => exact RoundTrip.add d a b
  | sub d a b => exact RoundTrip.sub d a b
  | and d a b => exact RoundTrip.and d a b
  | or d a b => exact RoundTrip.or d a b
  | xor d a b => exact RoundTrip.xor d a b
  | andn d a b => exact RoundTrip.andn d a b
  | sll d a b => exact RoundTrip.sll d a b
  | srl d a b => exact RoundTrip.srl d a b
  | sra d a b => exact RoundTrip.sra d a b
  | ror d a b => exact RoundTrip.ror d a b
  | slt d a b => exact RoundTrip.slt d a b
  | sltn d a b => exact RoundTrip.sltn d a b
  | min d a b => exact RoundTrip.min d a b
  | max d a b => exact RoundTrip.max d a b
  | minn d a b => exact RoundTrip.minn d a b
  | maxn d a b => exact RoundTrip.maxn d a b
  | clz d a => exact RoundTrip.clz d a
  | ctz d a => exact RoundTrip.ctz d a
  | cpop d a => exact RoundTrip.cpop d a
  | mul d a b => exact RoundTrip.mul d a b
  | mulh d a b => exact RoundTrip.mulh d a b
  | mulhn d a b => exact RoundTrip.mulhn d a b
  | div d a b => exact RoundTrip.div d a b
  | divn d a b => exact RoundTrip.divn d a b
  | rem d a b => exact RoundTrip.rem d a b
  | remn d a b => exact RoundTrip.remn d a b
  | addi d a i => exact RoundTrip.addi d a i
  | andi d a i => exact RoundTrip.andi d a i
  | ori d a i => exact RoundTrip.ori d a i
  | xori d a i => exact RoundTrip.xori d a i
  | slli d a h => exact RoundTrip.slli d a h
  | srli d a h => exact RoundTrip.srli d a h
  | srai d a h => exact RoundTrip.srai d a h
  | slti d a i => exact RoundTrip.slti d a i
  | sltin d a i => exact RoundTrip.sltin d a i
  | lui d i => exact RoundTrip.lui d i
  | addpc d i => exact RoundTrip.addpc d i
  | ldI8 d a i => exact RoundTrip.ldI8 d a i
  | ldI16 d a i => exact RoundTrip.ldI16 d a i
  | ldI32 d a i => exact RoundTrip.ldI32 d a i
  | ldI64 d a i => exact RoundTrip.ldI64 d a i
  | ldN8 d a i => exact RoundTrip.ldN8 d a i
  | ldN16 d a i => exact RoundTrip.ldN16 d a i
  | ldN32 d a i => exact RoundTrip.ldN32 d a i
  | stI8 a b i => exact RoundTrip.stI8 a b i
  | stI16 a b i => exact RoundTrip.stI16 a b i
  | stI32 a b i => exact RoundTrip.stI32 a b i
  | stI64 a b i => exact RoundTrip.stI64 a b i
  | mfc d n => exact RoundTrip.mfc d n
  | mtc a n => exact RoundTrip.mtc a n
  | faddD d a b m => exact RoundTrip.faddD d a b m
  | fsubD d a b m => exact RoundTrip.fsubD d a b m
  | fmulD d a b m => exact RoundTrip.fmulD d a b m
  | fdivD d a b m => exact RoundTrip.fdivD d a b m
  | fsqrtD d a m => exact RoundTrip.fsqrtD d a m
  | fminD d a b => exact RoundTrip.fminD d a b
  | fmaxD d a b => exact RoundTrip.fmaxD d a b
  | fsignCD d a b => exact RoundTrip.fsignCD d a b
  | fsignND d a b => exact RoundTrip.fsignND d a b
  | fsignXD d a b => exact RoundTrip.fsignXD d a b
  | faddS d a b m => exact RoundTrip.faddS d a b m
  | fsubS d a b m => exact RoundTrip.fsubS d a b m
  | fmulS d a b m => exact RoundTrip.fmulS d a b m
  | fdivS d a b m => exact RoundTrip.fdivS d a b m
  | fsqrtS d a m => exact RoundTrip.fsqrtS d a m
  | fminS d a b => exact RoundTrip.fminS d a b
  | fmaxS d a b => exact RoundTrip.fmaxS d a b
  | fsignCS d a b => exact RoundTrip.fsignCS d a b
  | fsignNS d a b => exact RoundTrip.fsignNS d a b
  | fsignXS d a b => exact RoundTrip.fsignXS d a b
  | fmaddD d a b m => exact RoundTrip.fmaddD d a b m
  | fmsubD d a b m => exact RoundTrip.fmsubD d a b m
  | fnmaddD d a b m => exact RoundTrip.fnmaddD d a b m
  | fnmsubD d a b m => exact RoundTrip.fnmsubD d a b m
  | fmaddS d a b m => exact RoundTrip.fmaddS d a b m
  | fmsubS d a b m => exact RoundTrip.fmsubS d a b m
  | fnmaddS d a b m => exact RoundTrip.fnmaddS d a b m
  | fnmsubS d a b m => exact RoundTrip.fnmsubS d a b m
  | cvtDS d a => exact RoundTrip.cvtDS d a
  | cvtSD d a m => exact RoundTrip.cvtSD d a m
  | cvtDI64 d a m => exact RoundTrip.cvtDI64 d a m
  | cvtDN64 d a m => exact RoundTrip.cvtDN64 d a m
  | cvtSI64 d a m => exact RoundTrip.cvtSI64 d a m
  | cvtSN64 d a m => exact RoundTrip.cvtSN64 d a m
  | cvtI64D d a m => exact RoundTrip.cvtI64D d a m
  | cvtN64D d a m => exact RoundTrip.cvtN64D d a m
  | cvtI64S d a m => exact RoundTrip.cvtI64S d a m
  | cvtN64S d a m => exact RoundTrip.cvtN64S d a m
  | fcmpEqD d a b => exact RoundTrip.fcmpEqD d a b
  | fcmpLtD d a b => exact RoundTrip.fcmpLtD d a b
  | fcmpLeD d a b => exact RoundTrip.fcmpLeD d a b
  | fkindD d a => exact RoundTrip.fkindD d a
  | fcmpEqS d a b => exact RoundTrip.fcmpEqS d a b
  | fcmpLtS d a b => exact RoundTrip.fcmpLtS d a b
  | fcmpLeS d a b => exact RoundTrip.fcmpLeS d a b
  | fkindS d a => exact RoundTrip.fkindS d a
  | b i => exact RoundTrip.b i
  | call i => exact RoundTrip.call i
  | bcEq a b i => exact RoundTrip.bcEq a b i
  | bcNe a b i => exact RoundTrip.bcNe a b i
  | bcLt a b i => exact RoundTrip.bcLt a b i
  | bcGe a b i => exact RoundTrip.bcGe a b i
  | bcLtn a b i => exact RoundTrip.bcLtn a b i
  | bcGen a b i => exact RoundTrip.bcGen a b i
  | nop => exact RoundTrip.nop
  | calli a => exact RoundTrip.calli a
  | jmpi a => exact RoundTrip.jmpi a
  | ret a => exact RoundTrip.ret a
  | lpadC => exact RoundTrip.lpadC
  | lpadJ => exact RoundTrip.lpadJ
  | lpadR => exact RoundTrip.lpadR
  | lbrk n => exact RoundTrip.lbrk n
  | endThread => exact RoundTrip.endThread
  | waitT d a => exact RoundTrip.waitT d a
  | dline a => exact RoundTrip.dline a
  | lsplit a b => exact RoundTrip.lsplit a b
  | ljoin => exact RoundTrip.ljoin
  | loop n a i => exact RoundTrip.loop n a i
  | smb a i => exact RoundTrip.smb a i
  | smbcfg d z j => exact RoundTrip.smbcfg d z j
  | trap a => exact RoundTrip.trap a
  | eret => exact RoundTrip.eret
  | bkpt => exact RoundTrip.bkpt
  | ifence => exact RoundTrip.ifence
  | tlbinv a => exact RoundTrip.tlbinv a
  | halt a => exact RoundTrip.halt a
  | vqsave a => exact RoundTrip.vqsave a
  | vqrestore a => exact RoundTrip.vqrestore a
  | smplCnt d a => exact RoundTrip.smplCnt d a
  | smplMark => exact RoundTrip.smplMark
  | trc a => exact RoundTrip.trc a
  | tlbinvAll => exact RoundTrip.tlbinvAll
  | mfcM d n => exact RoundTrip.mfcM d n
  | mtcM a n => exact RoundTrip.mtcM a n
  | vadd w => exact RoundTrip.vadd w
  | vsub w => exact RoundTrip.vsub w
  | vrsub w => exact RoundTrip.vrsub w
  | vmul w => exact RoundTrip.vmul w
  | vmulh w => exact RoundTrip.vmulh w
  | vmacc w => exact RoundTrip.vmacc w
  | vsadd w => exact RoundTrip.vsadd w
  | vssub w => exact RoundTrip.vssub w
  | vsmul w => exact RoundTrip.vsmul w
  | vsll w => exact RoundTrip.vsll w
  | vsrl w => exact RoundTrip.vsrl w
  | vsra w => exact RoundTrip.vsra w
  | vror w => exact RoundTrip.vror w
  | vand w => exact RoundTrip.vand w
  | vor w => exact RoundTrip.vor w
  | vxor w => exact RoundTrip.vxor w
  | vandn w => exact RoundTrip.vandn w
  | vmin w => exact RoundTrip.vmin w
  | vmax w => exact RoundTrip.vmax w
  | vabs w => exact RoundTrip.vabs w
  | vcmpEq w => exact RoundTrip.vcmpEq w
  | vcmpNe w => exact RoundTrip.vcmpNe w
  | vcmpLt w => exact RoundTrip.vcmpLt w
  | vcmpLe w => exact RoundTrip.vcmpLe w
  | vcmpGt w => exact RoundTrip.vcmpGt w
  | vcmpGe w => exact RoundTrip.vcmpGe w
  | mand w => exact RoundTrip.mand w
  | mor w => exact RoundTrip.mor w
  | mxor w => exact RoundTrip.mxor w
  | mandn w => exact RoundTrip.mandn w
  | mnot w => exact RoundTrip.mnot w
  | mpop w => exact RoundTrip.mpop w
  | mfirst w => exact RoundTrip.mfirst w
  | vsel w => exact RoundTrip.vsel w
  | vbcast w => exact RoundTrip.vbcast w
  | vmv w => exact RoundTrip.vmv w
  | vmvsV w => exact RoundTrip.vmvsV w
  | vmvsX w => exact RoundTrip.vmvsX w
  | vfadd w => exact RoundTrip.vfadd w
  | vfsub w => exact RoundTrip.vfsub w
  | vfmul w => exact RoundTrip.vfmul w
  | vfmadd w => exact RoundTrip.vfmadd w
  | vfmsub w => exact RoundTrip.vfmsub w
  | vfnmadd w => exact RoundTrip.vfnmadd w
  | vfnmsub w => exact RoundTrip.vfnmsub w
  | vfmacc w => exact RoundTrip.vfmacc w
  | vfmin w => exact RoundTrip.vfmin w
  | vfmax w => exact RoundTrip.vfmax w
  | vfabs w => exact RoundTrip.vfabs w
  | vfneg w => exact RoundTrip.vfneg w
  | vfsignC w => exact RoundTrip.vfsignC w
  | vfsignN w => exact RoundTrip.vfsignN w
  | vfsignX w => exact RoundTrip.vfsignX w
  | vfcmpEq w => exact RoundTrip.vfcmpEq w
  | vfcmpNe w => exact RoundTrip.vfcmpNe w
  | vfcmpLt w => exact RoundTrip.vfcmpLt w
  | vfcmpLe w => exact RoundTrip.vfcmpLe w
  | vfcmpGt w => exact RoundTrip.vfcmpGt w
  | vfcmpGe w => exact RoundTrip.vfcmpGe w
  | vfcmpUn w => exact RoundTrip.vfcmpUn w
  | vredoAdd w => exact RoundTrip.vredoAdd w
  | vredoMin w => exact RoundTrip.vredoMin w
  | vredoMax w => exact RoundTrip.vredoMax w
  | vredtAdd w => exact RoundTrip.vredtAdd w
  | vredtMin w => exact RoundTrip.vredtMin w
  | vredtMax w => exact RoundTrip.vredtMax w
  | vredtAnd w => exact RoundTrip.vredtAnd w
  | vredtOr w => exact RoundTrip.vredtOr w
  | vredtXor w => exact RoundTrip.vredtXor w
  | vscanInAdd w => exact RoundTrip.vscanInAdd w
  | vscanInMin w => exact RoundTrip.vscanInMin w
  | vscanInMax w => exact RoundTrip.vscanInMax w
  | vscanExAdd w => exact RoundTrip.vscanExAdd w
  | vscanExMin w => exact RoundTrip.vscanExMin w
  | vscanExMax w => exact RoundTrip.vscanExMax w
  | vslipUp w => exact RoundTrip.vslipUp w
  | vslipDn w => exact RoundTrip.vslipDn w
  | vslipUpin w => exact RoundTrip.vslipUpin w
  | vslipDnin w => exact RoundTrip.vslipDnin w
  | vpick w => exact RoundTrip.vpick w
  | vcompress w => exact RoundTrip.vcompress w
  | vexpand w => exact RoundTrip.vexpand w
  | vcvt w => exact RoundTrip.vcvt w
  | vcvtEf w => exact RoundTrip.vcvtEf w
  | vpack w => exact RoundTrip.vpack w
  | vunpack w => exact RoundTrip.vunpack w
  | vscaleMul w => exact RoundTrip.vscaleMul w
  | vscaleDiv w => exact RoundTrip.vscaleDiv w
  | vfclass w => exact RoundTrip.vfclass w
  | vdiv w => exact RoundTrip.vdiv w
  | vrdiv w => exact RoundTrip.vrdiv w
  | vsqrt w => exact RoundTrip.vsqrt w
  | vrsq w => exact RoundTrip.vrsq w
  | vld w => exact RoundTrip.vld w
  | vldC w => exact RoundTrip.vldC w
  | vldQ w => exact RoundTrip.vldQ w
  | vlds w => exact RoundTrip.vlds w
  | vldx w => exact RoundTrip.vldx w
  | vldg w => exact RoundTrip.vldg w
  | vst w => exact RoundTrip.vst w
  | vstC w => exact RoundTrip.vstC w
  | vstQ w => exact RoundTrip.vstQ w
  | vsts w => exact RoundTrip.vsts w
  | vstx w => exact RoundTrip.vstx w
  | vstxo w => exact RoundTrip.vstxo w
  | vstg w => exact RoundTrip.vstg w
  | vpref w => exact RoundTrip.vpref w
  | scommit w => exact RoundTrip.scommit w
  | cutstep w => exact RoundTrip.cutstep w
  | mzero w => exact RoundTrip.mzero w
  | mouter w => exact RoundTrip.mouter w
  | mouteri w => exact RoundTrip.mouteri w
  | mouterc w => exact RoundTrip.mouterc w
  | mlacc w => exact RoundTrip.mlacc w
  | mdrain w => exact RoundTrip.mdrain w
  | mtov w => exact RoundTrip.mtov w
  | mscale w => exact RoundTrip.mscale w
  | bclr w => exact RoundTrip.bclr w
  | btload w => exact RoundTrip.btload w
  | btdrain w => exact RoundTrip.btdrain w
  | bqr w => exact RoundTrip.bqr w
  | bqra w => exact RoundTrip.bqra w
  | bqrD w => exact RoundTrip.bqrD w
  | bapply w => exact RoundTrip.bapply w
  | bapplyC0 w => exact RoundTrip.bapplyC0 w
  | bvec w => exact RoundTrip.bvec w
  | bangleD w => exact RoundTrip.bangleD w
  | bangleA w => exact RoundTrip.bangleA w
  | brot w => exact RoundTrip.brot w
  | vrotate w => exact RoundTrip.vrotate w
  | bgain w => exact RoundTrip.bgain w
  | bsolve w => exact RoundTrip.bsolve w
  | amoSwap w => exact RoundTrip.amoSwap w
  | amoAdd w => exact RoundTrip.amoAdd w
  | amoAnd w => exact RoundTrip.amoAnd w
  | amoOr w => exact RoundTrip.amoOr w
  | amoXor w => exact RoundTrip.amoXor w
  | amoMin w => exact RoundTrip.amoMin w
  | amoMax w => exact RoundTrip.amoMax w
  | amocas w => exact RoundTrip.amocas w
  | vamo w => exact RoundTrip.vamo w
  | vamoo w => exact RoundTrip.vamoo w
  | accw w => exact RoundTrip.accw w
  | vacc w => exact RoundTrip.vacc w
  | amerge w => exact RoundTrip.amerge w
  | accrel w => exact RoundTrip.accrel w
  | syncRd w => exact RoundTrip.syncRd w
  | syncWr w => exact RoundTrip.syncWr w
  | syncTas w => exact RoundTrip.syncTas w
  | syncFadd w => exact RoundTrip.syncFadd w
  | hudInit w => exact RoundTrip.hudInit w
  | hudArr w => exact RoundTrip.hudArr w
  | hudDrop w => exact RoundTrip.hudDrop w
  | hudWait w => exact RoundTrip.hudWait w
  | post w => exact RoundTrip.post w
  | postSet w => exact RoundTrip.postSet w
  | waiti w => exact RoundTrip.waiti w
  | fence w => exact RoundTrip.fence w
  | awInit w => exact RoundTrip.awInit w
  | awAdd w => exact RoundTrip.awAdd w
  | awWait w => exact RoundTrip.awWait w
  | cp w => exact RoundTrip.cp w
  | cp2 w => exact RoundTrip.cp2 w
  | cpx w => exact RoundTrip.cpx w
  | cpq w => exact RoundTrip.cpq w
  | cpw w => exact RoundTrip.cpw w
  | wdecl w => exact RoundTrip.wdecl w
  | wdeclRel w => exact RoundTrip.wdeclRel w
  | vldr w => exact RoundTrip.vldr w
  | vstr w => exact RoundTrip.vstr w
  | step w => exact RoundTrip.step w
  | stepAt w => exact RoundTrip.stepAt w
  | stepq w => exact RoundTrip.stepq w
  | fsbindRx w => exact RoundTrip.fsbindRx w
  | fsbindTx w => exact RoundTrip.fsbindTx w
  | fsbindU w => exact RoundTrip.fsbindU w
  | vcred w => exact RoundTrip.vcred w
  | setvl w => exact RoundTrip.setvl w
  | setvt w => exact RoundTrip.setvt w
  | setfmt w => exact RoundTrip.setfmt w
  | mshape w => exact RoundTrip.mshape w
  | tshape w => exact RoundTrip.tshape w
  | mmode w => exact RoundTrip.mmode w
  | _ => exact RoundTrip.ofEvent rfl

end Sys2Proof.Laws

namespace Sys2Proof.Claims

/-- Settles O1: the round trip of each constructor. -/
theorem decodeOfEncode : Obligations.DecodeOfEncode :=
  fun i e rest hw he => Laws.RoundTrip.statement i hw e rest he

/-- Settles O2: the row of a word names its instruction, and the encoding writes every bit of the word. -/
theorem encodeOfDecode : Obligations.EncodeOfDecode := by
  intro i bs rest h
  unfold decode at h
  dsimp only at h
  split at h
  case isTrue => cases h
  case isFalse h4 =>
    have hl4 : (bs.take 4).length = 4 := by have := List.length_take_le 4 bs; omega
    split at h
    case isTrue hlt =>
      split at h <;> cases h
      case h_1 hd =>
        obtain ⟨hwf, he⟩ := encode_of_decode32 (by rw [BitVec.toNat_ofNat]; omega) hd
        refine ⟨hwf, _, he, ?_⟩
        rw [Encoding.bytes, leBytes_ofNat_leNat hl4 (by decide), List.take_append_drop]
    case isFalse hge =>
      split at h
      case isTrue => cases h
      case isFalse h8 =>
        have hl8 : (bs.take 8).length = 8 := by have := List.length_take_le 8 bs; omega
        have hbit : (BitVec.ofNat 64 (leNat (bs.take 8))).extractLsb' 31 1 = 1#1 := by
          have h32 := leNat_take_four (bs := bs.take 8) (by omega)
          rw [List.take_take, show min 4 8 = 4 from rfl] at h32
          apply BitVec.eq_of_toNat_eq
          rw [BitVec.extractLsb'_toNat, BitVec.toNat_ofNat, Nat.shiftRight_eq_div_pow, BitVec.toNat_ofNat]
          omega
        split at h <;> cases h
        case h_1 hd =>
          obtain ⟨hwf, he⟩ := encode_of_decode64 hbit hd
          refine ⟨hwf, _, he, ?_⟩
          rw [Encoding.bytes, leBytes_ofNat_leNat hl8 (by decide), List.take_append_drop]

end Sys2Proof.Claims

end

section

/-! ## The step

Every meaning answers a next state, and a step of a running thread is the fetch of the word at spc and the run of what it decodes to. -/

namespace Sys2Proof.Machine

/-! ### Every step answers -/

/-- No instruction and no event stops the machine: what faults is an exception of the thread and not of the model (02 R43; 12 R349). -/
theorem exec_next (i : Instr) (s : State) : ∃ t, exec i s = .next t := by
  cases i <;> exact ⟨_, rfl⟩

theorem onNext_next {o : Host.Outcome State Fault Refusal} (f : State → State) (h : ∃ t, o = .next t) : ∃ t, onNext f o = .next t := by
  obtain ⟨t, rfl⟩ := h
  exact ⟨f t, rfl⟩

theorem runHalf_next (w : BitVec 32) (s : State) : ∃ t, runHalf w s = .next t := by
  unfold runHalf
  split
  · exact exec_next _ s
  · exact ⟨_, rfl⟩

theorem runWord_next (level : Nat) (w : BitVec 64) (s : State) : ∃ t, runWord level w s = .next t := by
  unfold runWord
  split
  · exact exec_next _ s
  · exact ⟨_, rfl⟩

theorem State.runFetched_next (s : State) (x : Fetched) : ∃ t, s.runFetched x = .next t := by
  cases x with
  | half w => exact onNext_next _ (onNext_next _ (runHalf_next w _))
  | wide w => exact onNext_next _ (onNext_next _ (runWord_next _ w _))
  | bad => exact ⟨_, rfl⟩
  | stop c => exact ⟨_, rfl⟩

theorem State.threadStep_next (s : State) : ∃ t, s.threadStep = .next t := by
  unfold State.threadStep
  dsimp only
  split
  · exact State.runFetched_next _ _
  · exact ⟨_, rfl⟩

/-- A step whose inputs are events answers a next state. -/
theorem step_next {s : State} (h : s.InputsOk) : ∃ t, step s = .next t := by
  unfold step
  split
  case h_1 i is hi =>
    rw [if_pos (h i (by simp [hi]))]
    exact exec_next i _
  case h_2 =>
    dsimp only
    split
    · exact onNext_next _ (State.threadStep_next _)
    · exact ⟨_, rfl⟩

/-! ### The word of a step -/

variable {s t u : State}

/-- With no schedule the current thread goes on while it runs (log 8). -/
theorem State.turn_of_running (hsched : s.sched = []) (hrun : s.th.life = .running) : s.turn = s := by
  simp [State.turn, hsched, hrun]

/-- Where the front's next word is due, a step runs what is fetched at spc, and time goes on. -/
theorem step_of_beforeWord (hin : s.inputs = []) (hsched : s.sched = []) (hrun : s.th.life = .running) (hb : s.beforeWord = (s, true)) :
    step s = onNext State.tick (s.fetchWord.1.runFetched s.fetchWord.2) := by
  simp [step, hin, State.turn_of_running hsched hrun, hrun, State.threadStep, hb]

theorem State.fetchWord_half {bs : List Byte} {w : BitVec 32} (hf : s.fetch s.th.fr.spc 4 = (t, .ok bs)) (hw : leNat bs = w.toNat)
    (hlen : w.toNat < 2 ^ 31) : s.fetchWord = (t, .half w) := by
  simp only [State.fetchWord, hf, hw, if_pos hlen, BitVec.ofNat_toNat, BitVec.setWidth_eq]

theorem State.fetchWord_wide {bs cs : List Byte} {w : BitVec 64} (hf : s.fetch s.th.fr.spc 4 = (u, .ok bs)) (hlen : 2 ^ 31 ≤ leNat bs)
    (halign : s.th.fr.spc.toNat % 8 = 0) (hend : u.splitsEnd s.th.fr.spc = false) (hg : u.fetch s.th.fr.spc 8 = (t, .ok cs))
    (hw : leNat cs = w.toNat) : s.fetchWord = (t, .wide w) := by
  simpa [State.fetchWord, hf, halign, hend, hg, hw] using hlen

end Sys2Proof.Machine

namespace Sys2Proof.Claims

open Sys2Proof.Machine

/-- Settles O4: each meaning is a next state by definition, and a step runs no more than one of them. -/
theorem everyStepAnswers : Obligations.EveryStepAnswers :=
  ⟨exec_next, fun _ => step_next⟩

/-- Settles O3: the word at spc, fetched and decoded, is what a step runs; an event of the inputs is run before it. -/
theorem stepRunsDecoded : Obligations.StepRunsDecoded := by
  refine ⟨fun s t hin hsched hrun hb => ⟨fun bs w hf hw hlen => ?_, fun u bs cs w hf hlen halign hend hg hw => ?_⟩, fun s i is hi he => ?_⟩
  · rw [step_of_beforeWord hin hsched hrun hb, State.fetchWord_half hf hw hlen]
    exact ⟨fun i hd => by simp [State.runFetched, runHalf, hd],
      fun x hd => by simp [State.runFetched, runHalf, hd, illegalWord, onNext]⟩
  · rw [step_of_beforeWord hin hsched hrun hb, State.fetchWord_wide hf hlen halign hend hg hw]
    exact ⟨fun i hd => by simp [State.runFetched, runWord, hd],
      fun x hd => by simp [State.runFetched, runWord, hd, illegalWord, onNext]⟩
  · simp [step, hi, he]

end Sys2Proof.Claims

end

section

/-! ## mfc

A word of the front that writes a scalar register leaves what `RegisterWord` says; mfc and mfc.m are such words, with the value of the
register they read (02 R48; 03 R74). -/

namespace Sys2Proof.Claims

open Sys2Proof.Machine

variable {s : State}

/-! ### A word that writes a scalar register -/

theorem wrFlags_unsafeOlder (d : RegNo) (x : Word) (fl : Flags) (hc : s.th.fr.curLane = none) :
    (s.wrFlags d x fl).unsafeOlder = s.unsafeOlder := by
  obtain ⟨h, e, -⟩ := wrFlags_form s d x fl hc
  rw [e]
  rfl

/-- The front writes s[d], raises flags and goes on in sequence (03 R57, R60; 04 R88). -/
theorem registerWord_wrFlags (d : RegNo) (x : Word) (fl : Flags) (hc : s.th.fr.curLane = none) :
    RegisterWord s ((s.wrFlags d x fl).seqNext 4) d x fl := by
  obtain ⟨h, e, hh⟩ := wrFlags_form s d x fl hc
  obtain ⟨h', z, e', hh', hz⟩ := seqNext_form (s.wrFlags d x fl) 4
  rw [wrFlags_unsafeOlder d x fl hc] at hh'
  have hspc : (s.wrFlags d x fl).th.fr.spc = s.th.fr.spc := by rw [e]; rfl
  have hregs : (s.wrFlags d x fl).th.fr.regs = s.th.fr.regs := by rw [e]; rfl
  obtain ⟨hpc, hloops⟩ := arrive_congr (s.wrFlags d x fl) s (s.th.fr.spc + word 4) hregs (by rw [e]; rfl)
  rw [hspc] at e' hz
  have hs : ((s.wrFlags d x fl).seqNext 4).th.fr.s = if d = 0 then s.th.fr.s else vecSet s.th.fr.s d.toNat x := by
    rw [e', e]; rfl
  have hlane : ((s.wrFlags d x fl).seqNext 4).th.fr.curLane = none := by rw [e', e]; exact hc
  constructor
  case result =>
    intro hd
    simp only [State.rd, if_neg hd, hlane, hs, vecGet_vecSet_same _ _ _ _ d.isLt]
  case others =>
    intro r hr
    have hne : d.toNat ≠ r.toNat := fun he => hr (BitVec.eq_of_toNat_eq he).symm
    simp only [State.rd, hlane, hs, hc]
    split
    · rfl
    · split
      · rfl
      · exact vecGet_vecSet_other _ _ _ hne
  case pc => rw [e']; exact hpc
  case loops => rw [e']; exact hz.trans hloops
  case flags => rw [e', e]; rfl
  case history =>
    intro hu
    rw [e', e, hh hu, hh' hu]
    simp
  case frame => rw [e', e]; rfl

theorem registerWord_wr (d : RegNo) (x : Word) (hc : s.th.fr.curLane = none) : RegisterWord s ((s.wr d x).seqNext 4) d x 0 :=
  registerWord_wrFlags d x 0 hc

/-! ### The tables of registers -/

theorem frontTable_read {k : Nat} {x : Word} (h : (k, x) ∈ frontTable s) :
    k < 0x800 ∧ (crClass k = some .front ∨ crClass k = some .immediate) ∧ s.crValue k = x :=
  (by simp [frontTable, crClass, State.crValue, State.fverWord, FrontRegs.smplcnt] :
    ∀ p ∈ frontTable s, p.1 < 0x800 ∧ (crClass p.1 = some .front ∨ crClass p.1 = some .immediate) ∧ s.crValue p.1 = p.2) _ h

theorem laneTable_read {k : Nat} {x : Word} (h : (k, x) ∈ laneTable s) : k < 0x800 ∧ k ≠ 0x204 ∧ crClass k = some .lane ∧ s.crValue k = x :=
  (by simp [laneTable, crClass, State.crValue, State.sstatWord, State.vxflagsWord, bit, bitNat, word, BitVec.ofNat_toNat] :
    ∀ p ∈ laneTable s, p.1 < 0x800 ∧ p.1 ≠ 0x204 ∧ crClass p.1 = some .lane ∧ s.crValue p.1 = p.2) _ h

theorem mTable_read {k : Nat} {x : Word} (h : (k, x) ∈ mTable s) : crClass k = some .m ∧ s.crValue k = x :=
  (by simp [mTable, crClass, State.crValue, MRegs.mstat, Bind.mctx, bit, bitNat] :
    ∀ p ∈ mTable s, crClass p.1 = some .m ∧ s.crValue p.1 = p.2) _ h

/-! ### Reading a register -/

theorem settle_of_older_nil (h : s.older = []) : s.settle = (s, .done) := by
  obtain ⟨hstepq, hlanes⟩ : s.th.fr.stepq = none ∧ s.inLanes = [] := by simpa [State.older] using h
  simp [State.settle, hlanes, hstepq]

/-- A register that the front holds, or that is read at once. -/
theorem readCr_at_once {k : Nat} {c : CrClass} (d : RegNo) (hc : crClass k = some c) (hl : c ≠ .lane) :
    s.readCr d k = (s.wr d (s.crValue k)).seqNext 4 := by
  cases c <;> simp_all [State.readCr]

/-- A lane register, where no older word is left to retire. -/
theorem readCr_lane {k : Nat} (d : RegNo) (hc : crClass k = some .lane) (hk : k ≠ 0x204) (ho : s.older = []) :
    s.readCr d k = (s.wr d (s.crValue k)).seqNext 4 := by
  simp [State.readCr, hc, settle_of_older_nil ho, hk]

/-- The registers of the thread that U may read. -/
theorem readCr_of_tables {k : Nat} {x : Word} (d : RegNo) (h : (k, x) ∈ frontTable s ∨ ((k, x) ∈ laneTable s ∧ s.older = [])) :
    k < 0x800 ∧ s.readCr d k = (s.wr d x).seqNext 4 := by
  rcases h with h | ⟨h, ho⟩
  · obtain ⟨hlt, hc | hc, rfl⟩ := frontTable_read h
    all_goals exact ⟨hlt, readCr_at_once d hc (by decide)⟩
  · obtain ⟨hlt, hk, hc, rfl⟩ := laneTable_read h
    exact ⟨hlt, readCr_lane d hc hk ho⟩

/-! ### The words -/

theorem exec_mfc (d : RegNo) (n : BitVec 12) :
    exec (.mfc d n) s = .next (if n.toNat < 0x800 then s.readCr d n.toNat else s.frontFault .illegal) := rfl

theorem exec_mfcM (d : RegNo) (n : BitVec 12) :
    exec (.mfcM d n) s = .next (if s.th.fr.m.lvl then s.readCr d n.toNat else s.frontFault .illegal) := rfl

/-- A number of M level, and one that Table 2.8 does not list, are illegal for mfc (02 R48; 12 R355). -/
theorem exec_mfc_illegal (d : RegNo) {n : BitVec 12} (ho : s.older = []) (hn : 0x800 ≤ n.toNat ∨ crClass n.toNat = none) :
    exec (.mfc d n) s = .next (faultsHere s .illegal) := by
  rw [exec_mfc, ← frontFault_of_older_nil ho]
  rcases hn with hn | hn
  · rw [if_neg (Nat.not_lt.mpr hn)]
  · simp [State.readCr, hn]

/-- Settles O23: a read is a word that writes the value of the register's table to s[d]. -/
theorem readControl : Obligations.ReadControl := by
  intro s d n hlane
  refine ⟨fun x hx => ?_, fun x hx hm => ?_, fun ho hn => exec_mfc_illegal d ho hn, fun ho hu => ?_⟩
  · obtain ⟨hlt, hr⟩ := readCr_of_tables d hx
    have hw := registerWord_wr (s := s) d x hlane
    exact ⟨⟨_, by rw [exec_mfc, if_pos hlt, hr], hw⟩, fun hm => ⟨_, by rw [exec_mfcM, if_pos hm, hr], hw⟩⟩
  · obtain ⟨hc, rfl⟩ := mTable_read hx
    exact ⟨_, by rw [exec_mfcM, if_pos hm, readCr_at_once d hc (by decide)], registerWord_wr d _ hlane⟩
  · rw [exec_mfcM, hu, ← frontFault_of_older_nil ho]
    rfl

end Sys2Proof.Claims

end

section

/-! ## Sending a word

A word of the VIQ is appended to the queue; its own part at the front, where it has one, touches no loop set and not the queue, so the front
goes on as it would without it (02 R36, R40; 03 R56; 04 R88). -/

namespace Sys2Proof.Claims

open Sys2Proof.Machine

variable {s t u : State} {op : Nat} {w : VWord}

/-! ### What an arrival rests on -/

theorem setZc_regs (n : Bool) (x : Word) :
    (s.setZc n x).th.fr.regs = { s.th.fr.regs with zc := vecSet s.th.fr.regs.zc (setIx n) x } := by
  obtain ⟨h, e, -⟩ := setZc_form s n x
  rw [e]
  rfl

/-- The registers on which an arrival rests (04 R88). -/
structure SameLoops (s t : State) : Prop where
  zs : t.th.fr.regs.zs = s.th.fr.regs.zs
  ze : t.th.fr.regs.ze = s.th.fr.regs.ze
  zc : t.th.fr.regs.zc = s.th.fr.regs.zc

namespace SameLoops

variable (h : SameLoops s t)
include h

theorem zsOf (n : Bool) : t.zs n = s.zs n := by simp only [State.zs, h.zs]

theorem zcOf (n : Bool) : t.zc n = s.zc n := by simp only [State.zc, h.zc]

theorem zeOf (n : Bool) : t.ze n = s.ze n := by simp only [State.ze, h.ze]

theorem endsAt (n : Bool) (a : Word) : t.endsAt n a = s.endsAt n a := by rw [State.endsAt, h.zcOf, h.zeOf, State.endsAt]

theorem innerSet : t.innerSet = s.innerSet := by simp only [State.innerSet, h.zcOf]

theorem setZc (n : Bool) (x : Word) : SameLoops (s.setZc n x) (t.setZc n x) := by
  constructor
  all_goals simp only [setZc_regs, h.zs, h.ze, h.zc]

theorem endOfBody (n : Bool) (a : Word) :
    SameLoops (s.endOfBody n a).1 (t.endOfBody n a).1 ∧ (t.endOfBody n a).2 = (s.endOfBody n a).2 := by
  simp only [State.endOfBody, h.zcOf, h.zsOf]
  split
  all_goals exact ⟨h.setZc _ _, rfl⟩

theorem arrive (hm : t.th.fr.m = s.th.fr.m) (a : Word) : (t.arrive a).2 = (s.arrive a).2 := by
  obtain ⟨hi, hgo⟩ := h.endOfBody s.innerSet a
  obtain ⟨-, hboth⟩ := hi.endOfBody (!s.innerSet) a
  obtain ⟨-, houter⟩ := h.endOfBody (!s.innerSet) a
  simp only [State.arrive, hm, h.innerSet, h.endsAt, hi.zcOf, hi.endsAt, apply_ite Prod.snd, hgo, hboth, houter]

end SameLoops

/-! ### The front's own part of a word -/

/-- What the front keeps while it closes a convoy or does its own part of a word: only its registers, its copies, its history and the
counters may change, and no loop set does. -/
structure FrontPart (s t : State) : Prop extends SameLoops s t where
  viq : t.th.fr.viq = s.th.fr.viq
  seq : t.th.fr.seq = s.th.fr.seq
  spc : t.th.fr.spc = s.th.fr.spc
  wait : t.th.fr.wait = s.th.fr.wait
  level : t.th.fr.m = s.th.fr.m
  lane : t.th.fr.curLane = s.th.fr.curLane
  rest : { t with th := { t.th with fr := s.th.fr, cnt := s.th.cnt } } = s

theorem FrontPart.refl (s : State) : FrontPart s s := ⟨⟨rfl, rfl, rfl⟩, rfl, rfl, rfl, rfl, rfl, rfl, rfl⟩

theorem FrontPart.trans (h : FrontPart s t) (h' : FrontPart t u) : FrontPart s u where
  zs := h'.zs.trans h.zs
  ze := h'.ze.trans h.ze
  zc := h'.zc.trans h.zc
  viq := h'.viq.trans h.viq
  seq := h'.seq.trans h.seq
  spc := h'.spc.trans h.spc
  wait := h'.wait.trans h.wait
  level := h'.level.trans h.level
  lane := h'.lane.trans h.lane
  rest := (congrArg (fun x : State => { x with th := { x.th with fr := s.th.fr, cnt := s.th.cnt } }) h'.rest).trans h.rest

theorem frontPart_log (s : State) (r : FrontReg) (o : Word) : FrontPart s (s.log r o) := by
  obtain ⟨h, e, -⟩ := log_form s r o
  rw [e]
  exact ⟨⟨rfl, rfl, rfl⟩, rfl, rfl, rfl, rfl, rfl, rfl, rfl⟩

theorem frontPart_onCopy (s : State) (f : Copies → Copies) : FrontPart s (s.onCopy f) :=
  ⟨⟨rfl, rfl, rfl⟩, rfl, rfl, rfl, rfl, rfl, rfl, rfl⟩

theorem frontPart_wr (d : RegNo) (x : Word) (hc : s.th.fr.curLane = none) : FrontPart s (s.wr d x) := by
  by_cases hd : d = 0
  · rw [State.wr, if_pos hd]
    exact .refl s
  · refine (frontPart_log s (.s d) (vecGet s.th.fr.s d.toNat 0)).trans ?_
    rw [State.wr, if_neg hd, hc]
    exact ⟨⟨rfl, rfl, rfl⟩, rfl, rfl, rfl, rfl, rfl, rfl, rfl⟩

theorem closeChain_fr (s : State) : s.closeChain.th.fr = { s.th.fr with chainOpen := false } := by
  unfold State.closeChain
  split
  · rfl
  · next h => rw [← Bool.not_eq_true _ |>.mp h]

theorem frontPart_closeChain (s : State) : FrontPart s s.closeChain := by
  unfold State.closeChain
  split
  · exact ⟨⟨rfl, rfl, rfl⟩, rfl, rfl, rfl, rfl, rfl, rfl, rfl⟩
  · exact .refl s

theorem newEntry_closeChain (s : State) (op : Nat) (w : VWord) (slot : Slot) :
    s.closeChain.newEntry op w slot = s.newEntry op w slot := by
  unfold State.closeChain
  split
  · rfl
  · rfl

/-- A part of the front's own: at the front it keeps what `FrontPart` says, and of the entry it gives the scalar, x0 and vl only. -/
def OwnPart (front : State → VEntry → State × VEntry) : Prop :=
  ∀ s e, s.th.fr.curLane = none → FrontPart s (front s e).1 ∧
    ∃ (sc x0 : Word) (vl : Nat), (front s e).2 = { e with sc := sc, x0 := x0, vl := vl }

theorem ownPart_none : OwnPart fun t e => (t, e) := fun s e _ => ⟨.refl s, e.sc, e.x0, e.vl, rfl⟩

theorem ownPart_setvl (w : VWord) : OwnPart (setvlFront w) := fun s e hc => by
  refine ⟨?_, e.sc, e.x0, _, rfl⟩
  have hg := fun n => (frontPart_log s .vlCopy (word s.th.fr.copy.vl)).trans (frontPart_onCopy _ fun c => { c with vl := n })
  exact (hg _).trans (frontPart_wr _ _ ((hg _).lane.trans hc))

theorem ownPart_tshape (w : VWord) : OwnPart (tshapeFront w) := fun s e hc => by
  refine ⟨?_, e.sc, _, e.vl, rfl⟩
  have hg := fun n => (frontPart_log s .tmCopy (word s.th.fr.copy.tm)).trans (frontPart_onCopy _ fun c => { c with tm := n })
  exact (hg _).trans (frontPart_wr _ _ ((hg _).lane.trans hc))

theorem ownPart_mmode (w : VWord) : OwnPart (mmodeFront w) := fun s e _ =>
  ⟨((frontPart_log s .mcfg (word (s.th.fr.copy.mcfg.toNat + s.th.fr.copy.kmax * 2 ^ 32))).trans
    (frontPart_log _ .tmCopy (word s.th.fr.copy.tm))).trans (frontPart_onCopy _ fun k =>
      { k with mcfg := BitVec.ofNat 7 w.fn.toNat, kmax := kmaxOf (BitVec.ofNat 7 w.fn.toNat), tm := 0 }), e.sc, e.x0, e.vl, rfl⟩

theorem ownPart_chunk (w : VWord) : OwnPart (chunkFront w) := fun s e _ =>
  ⟨(frontPart_log s .chunk s.th.fr.copy.chunk).trans (frontPart_onCopy _ fun k => { k with chunk := k.chunk + 1 }), _, _, e.vl, rfl⟩

theorem ownPart_scommit : OwnPart scommitFront := fun s e _ =>
  ⟨(frontPart_log s .sbase s.th.fr.regs.sbase).trans ⟨⟨rfl, rfl, rfl⟩, rfl, rfl, rfl, rfl, rfl, rfl, rfl⟩, e.sc, e.x0, e.vl, rfl⟩

/-! ### The entry takes its place -/

/-- Whether the convoy of a word stays open, for a word that joins the `n` members of one (02 R36). -/
def staysOpen (op : Nat) (w : VWord) (n : Nat) : Bool := w.chain && pipeOf op ≠ .none && pipeOf op ≠ .xp && n < 3

/-- An entry in its place in the queue: where its word goes next, whether it has joined, and its range of writes (03 R62; 04 R88). -/
def placed (s : State) (e : VEntry) (joined : Bool) : VEntry :=
  ({ e with after := (s.arrive (s.th.fr.spc + 8)).2, joined := joined,
            zcs := if e.op = 0x73 then some s.th.fr.regs.zc else none } : VEntry).ranged s.th.fr.copy.tm

theorem staysOpen_placed (s : State) (e : VEntry) (joined : Bool) (viq : List VEntry) (hs : e.slot = .word) :
    (e.w.chain && (lastConvoy (placed s e joined :: viq)).length < 4 && (placed s e joined).pipe ≠ .none && (placed s e joined).pipe ≠ .xp) =
      staysOpen e.op e.w (if joined then (lastConvoy viq).length else 0) := by
  have hpipe : (placed s e joined).pipe = pipeOf e.op := if_pos hs
  have hlen : ((lastConvoy (placed s e joined :: viq)).length < 4) ↔ ((if joined then (lastConvoy viq).length else 0) < 3) := by
    cases joined
    · exact ⟨fun _ => Nat.zero_lt_succ 2, fun _ => Nat.succ_lt_succ (Nat.zero_lt_succ 2)⟩
    · exact Nat.succ_lt_succ_iff
  simp only [hpipe, hlen, staysOpen, Bool.and_assoc, Bool.and_comm, Bool.and_left_comm]

/-- Appending a word's entry: it takes its place in the queue and the front goes on in sequence (02 R36; 04 R88). -/
theorem append_word (s : State) (e : VEntry) (joined : Bool) (hs : e.slot = .word) :
    ∃ (h : List HistEntry) (z : Vector Word 2) (c : Vector Word 41), (s.unsafeOlder = false → h = []) ∧
      { s.th.fr.regs with zc := z } = (s.arrive (s.th.fr.spc + 8)).1.th.fr.regs ∧ (e.w.chain = false → c = s.th.cnt) ∧
      s.append e joined e.w.chain (fun x => x.seqNext 8) = (s.onFr fun f =>
        { f with hist := f.hist ++ h, regs := { f.regs with zc := z }, spc := (s.arrive (s.th.fr.spc + 8)).2,
                 viq := f.viq ++ [placed s e joined], seq := e.seq,
                 chainOpen := staysOpen e.op e.w (if joined then (lastConvoy s.th.fr.viq.reverse).length else 0) }).onTh
        fun t => { t with cnt := c } := by
  obtain ⟨h, z, hn, hh, hz⟩ := seqNext_form s 8
  have hopen := staysOpen_placed s e joined s.th.fr.viq.reverse hs
  have happ : s.append e joined e.w.chain (fun x => x.seqNext 8) =
      (if e.w.chain && !staysOpen e.op e.w (if joined then (lastConvoy s.th.fr.viq.reverse).length else 0) then (s.seqNext 8).count 9
        else s.seqNext 8).onFr fun f =>
          { f with viq := f.viq ++ [placed s e joined], seq := e.seq,
                   chainOpen := staysOpen e.op e.w (if joined then (lastConvoy s.th.fr.viq.reverse).length else 0) } := by
    have hnext : s.append e joined e.w.chain (fun x => x.seqNext 8) = s.append e joined e.w.chain fun _ => s.seqNext 8 := rfl
    rw [← hopen, hnext, hn]
    rfl
  rw [happ, hn]
  generalize staysOpen e.op e.w (if joined then (lastConvoy s.th.fr.viq.reverse).length else 0) = stays
  split
  · next hclosed =>
    refine ⟨h, z, _, hh, hz, fun hc => ?_, rfl⟩
    rw [hc] at hclosed
    exact Bool.noConfusion hclosed
  · exact ⟨h, z, s.th.cnt, hh, hz, fun _ => rfl, rfl⟩

/-! ### What sending leaves -/

/-- A word that stands in the queue: its entry, and where the front has gone on (02 R36; 03 R56; 04 R88). -/
structure Queued (s : State) (op : Nat) (w : VWord) (wait : Wait) (t : State) (e : VEntry) : Prop where
  viq : t.th.fr.viq = s.th.fr.viq ++ [e]
  word : e.op = op ∧ e.w = w ∧ e.slot = .word
  place : e.seq = s.th.fr.seq + 1 ∧ e.addr = s.th.fr.spc ∧ e.after = t.th.fr.spc
  joined : e.joined = (s.th.fr.chainOpen && mayJoin s.th.fr.viq (entry s op w))
  fresh : e.first = true ∧ e.issued = false ∧ e.prog = 0 ∧ e.safe = false ∧ e.complete = false
  level : e.atM = s.th.fr.m.lvl
  seq : t.th.fr.seq = s.th.fr.seq + 1
  spc : t.th.fr.spc = (s.arrive (s.th.fr.spc + 8)).2
  chainOpen : t.th.fr.chainOpen = staysOpen op w
    (if s.th.fr.chainOpen && mayJoin s.th.fr.viq (entry s op w) then (lastConvoy s.th.fr.viq.reverse).length else 0)
  wait : t.th.fr.wait = wait
  mregs : t.th.fr.m = s.th.fr.m
  rest : { t with th := { t.th with fr := s.th.fr, cnt := s.th.cnt } } = s

/-- A word in which the front has no part carries its scalars and the front's vl; the front keeps its own (02 R40; 10 R297). -/
structure Carries (s : State) (op : Nat) (w : VWord) (t : State) (e : VEntry) : Prop where
  scalars : e.sc = s.rd w.vc ∧ e.sb = s.rd w.vb
  vl : e.vl = s.th.fr.copy.vl
  x0 : op = 0x69 ∨ op = 0x70 ∨ op = 0x73 → e.x0 = s.rd w.va
  more : op = 0x69 → e.x1 = s.rd w.vd ∧ e.x2 = s.rd (w.vb + 1)
  regs : t.th.fr.s = s.th.fr.s
  copies : t.th.fr.copy = s.th.fr.copy
  loops : { t.th.fr.regs with zc := s.th.fr.regs.zc } = s.th.fr.regs

/-- The wait that a word's result gives the front (05 R127). -/
def waitAfter (s : State) (op : Nat) (w : VWord) : Wait := if laneToScalar op w then .entry (s.th.fr.seq + 1) else s.th.fr.wait

/-- Whether a word sent now joins the open convoy (02 R36; 05 R118). -/
def joins (s : State) (op : Nat) (w : VWord) : Bool := s.th.fr.chainOpen && mayJoin s.th.fr.viq (entry s op w)

/-- The state in which a word takes its place: the open convoy has closed unless the word joins it (02 R36). -/
def atSend (s : State) (op : Nat) (w : VWord) : State := if joins s op w then s else s.closeChain

theorem frontPart_atSend (s : State) (op : Nat) (w : VWord) : FrontPart s (atSend s op w) := by
  unfold atSend
  split
  · exact .refl s
  · exact frontPart_closeChain s

theorem atSend_fr (s : State) (op : Nat) (w : VWord) : ∃ o, (atSend s op w).th.fr = { s.th.fr with chainOpen := o } := by
  unfold atSend
  split
  · exact ⟨s.th.fr.chainOpen, rfl⟩
  · exact ⟨false, closeChain_fr s⟩

theorem newEntry_atSend (s : State) (op : Nat) (w : VWord) : (atSend s op w).newEntry op w .word = s.newEntry op w .word := by
  unfold atSend
  split
  · rfl
  · exact newEntry_closeChain s op w .word

theorem FrontPart.prompt (h : FrontPart s t) : t.prompt = s.prompt := by
  have hrest := congrArg State.prompt h.rest
  exact hrest

theorem append_prompt (s : State) (e : VEntry) (joined : Bool) (hs : e.slot = .word) :
    (s.append e joined e.w.chain fun x => x.seqNext 8).prompt = s.prompt := by
  obtain ⟨h, z, c, -, -, -, e⟩ := append_word s e joined hs
  rw [e]
  rfl

/-- Where no word runs ahead and the queue has a place, sending appends the entry of the front's part, for which the front waits where
the word has a result for it (02 R36; 03 R56; 05 R127). -/
theorem sendEntry_of_room {front : State → VEntry → State × VEntry} (hfront : OwnPart front) (hp : s.prompt = false)
    (hc : s.th.fr.curLane = none) (hu : s.viqUsed < 64) {r : State × VEntry} (hrun : front (atSend s op w) (s.newEntry op w .word) = r) :
    s.sendEntry op w front = (r.1.append r.2 (joins s op w) w.chain fun x => x.seqNext 8).onFr
      fun f => { f with wait := if laneToScalar op w then .entry r.2.seq else f.wait } := by
  obtain ⟨o, hfr⟩ := atSend_fr s op w
  have hprompt := (frontPart_atSend s op w).prompt.trans hp
  have hroom : ¬ 64 ≤ (atSend s op w).viqUsed := by
    rw [State.viqUsed, hfr]
    exact Nat.not_le.mpr hu
  obtain ⟨hpart, sc, x0, vl, hr⟩ := hfront (atSend s op w) (s.newEntry op w .word) (by rw [hfr]; exact hc)
  rw [hrun] at hpart hr
  have hlast : (r.1.append r.2 (joins s op w) w.chain fun x => x.seqNext 8).prompt = false := by
    have hchain : w.chain = r.2.w.chain := by rw [hr]; rfl
    rw [hchain, append_prompt _ _ _ (by rw [hr]; rfl)]
    exact hpart.prompt.trans hprompt
  have hsend : s.sendEntry op w front =
      let q : State × Settled := if (atSend s op w).prompt && !joins s op w
        then (atSend s op w).runClosed ((atSend s op w).th.fr.viq.length + 1) else (atSend s op w, .done)
      if q.2 = .stopped || 64 ≤ q.1.viqUsed then q.1
      else
        let t := front q.1 (q.1.newEntry op w .word)
        let u := t.1.append t.2 (joins s op w) w.chain fun x => x.seqNext 8
        (if laneToScalar op w then u.onFr fun f => { f with wait := .entry t.2.seq } else u).runAhead := rfl
  rw [hsend]
  simp only [hprompt, newEntry_atSend, Bool.false_and, Bool.false_eq_true, if_false, reduceCtorEq, decide_false, Bool.false_or, decide_eq_true_eq,
    if_neg hroom, hrun]
  split
  · exact if_neg (by simpa using hlast)
  · rw [State.runAhead, if_neg (by simpa using hlast)]
    rfl

/-- What a word that is sent leaves, with the state and the entry that the front's part gives. -/
theorem sendEntry_queued {front : State → VEntry → State × VEntry} (hfront : OwnPart front) (hp : s.prompt = false)
    (hc : s.th.fr.curLane = none) (hu : s.viqUsed < 64) {r : State × VEntry} (hrun : front (atSend s op w) (s.newEntry op w .word) = r) :
    Queued s op w (waitAfter s op w) (s.sendEntry op w front) (placed r.1 r.2 (joins s op w)) ∧
      (s.sendEntry op w front).th.fr.s = r.1.th.fr.s ∧ (s.sendEntry op w front).th.fr.copy = r.1.th.fr.copy ∧
      ∃ z, (s.sendEntry op w front).th.fr.regs = { r.1.th.fr.regs with zc := z } := by
  have hsent := sendEntry_of_room hfront hp hc hu hrun
  obtain ⟨o, hfr⟩ := atSend_fr s op w
  obtain ⟨hpart, sc, x0, vl, hr⟩ := hfront (atSend s op w) (s.newEntry op w .word) (by rw [hfr]; exact hc)
  rw [hrun] at hpart hr
  have hkept : FrontPart s r.1 := (frontPart_atSend s op w).trans hpart
  obtain ⟨h, z, c, -, -, -, happ⟩ := append_word r.1 r.2 (joins s op w) (by rw [hr]; rfl)
  have hword : r.2.op = op ∧ r.2.w = w ∧ r.2.slot = .word ∧ r.2.seq = s.th.fr.seq + 1 ∧ r.2.addr = s.th.fr.spc ∧
      (r.2.first = true ∧ r.2.issued = false ∧ r.2.prog = 0 ∧ r.2.safe = false ∧ r.2.complete = false) ∧ r.2.atM = s.th.fr.m.lvl := by
    rw [hr]
    exact ⟨rfl, rfl, rfl, rfl, rfl, ⟨rfl, rfl, rfl, rfl, rfl⟩, rfl⟩
  obtain ⟨hop, hw, hslot, hseq, haddr, hfresh, hlevel⟩ := hword
  rw [hop, hw, hkept.viq, hkept.spc, hkept.arrive hkept.level] at happ
  rw [happ] at hsent
  rw [hsent]
  refine ⟨?_, rfl, rfl, z, rfl⟩
  constructor
  case viq => exact congrArg (· ++ _) hkept.viq
  case word => exact ⟨hop, hw, hslot⟩
  case place =>
    refine ⟨hseq, haddr, ?_⟩
    show (r.1.arrive (r.1.th.fr.spc + 8)).2 = _
    rw [hkept.spc, hkept.arrive hkept.level]
    rfl
  case joined => rfl
  case fresh => exact hfresh
  case level => exact hlevel
  case seq => exact hseq
  case spc => rfl
  case chainOpen => rfl
  case wait =>
    show (if laneToScalar op w then Wait.entry r.2.seq else r.1.th.fr.wait) = _
    rw [hseq, hkept.wait]
    rfl
  case mregs => exact hkept.level
  case rest => exact hkept.rest

/-- The entry of a word carries the scalars at its issue by the front (02 R40; 10 R297). -/
theorem newEntry_x0 (h : op = 0x69 ∨ op = 0x70 ∨ op = 0x73) (slot : Slot) : (s.newEntry op w slot).x0 = s.rd w.va :=
  if_pos (by simpa [scalarFields, or_assoc] using h)

theorem newEntry_more (slot : Slot) (h : op = 0x69) :
    (s.newEntry op w slot).x1 = s.rd w.vd ∧ (s.newEntry op w slot).x2 = s.rd (w.vb + 1) := ⟨if_pos h, if_pos h⟩

/-- A thread whose front may send the word: the checks of R43 that rest on the thread pass, no exception is parked, and the queue has a
place (02 R43; 03 R56; 12 R351). -/
structure MaySend (s : State) (op : Nat) (w : VWord) : Prop where
  behind : s.prompt = false
  granted : s.threadOk op w = true
  parked : s.th.fr.m.lvl = true → s.th.fr.m.pk = false
  front : s.th.fr.curLane = none
  room : s.viqUsed < 64

theorem sendWith_eq (front : State → VEntry → State × VEntry) (h : MaySend s op w) : s.sendWith op w front = s.sendEntry op w front := by
  have hpk : ¬ (s.th.fr.m.lvl && s.th.fr.m.pk) = true := fun hb => by
    obtain ⟨hl, hk⟩ := (Bool.and_eq_true _ _).mp hb
    exact Bool.noConfusion ((h.parked hl).symm.trans hk)
  rw [State.sendWith, if_neg (by simp [h.granted]), if_neg hpk]

theorem sendWith_queued {front : State → VEntry → State × VEntry} (hfront : OwnPart front) (h : MaySend s op w) :
    ∃ e, Queued s op w (waitAfter s op w) (s.sendWith op w front) e := by
  rw [sendWith_eq front h]
  exact ⟨_, (sendEntry_queued hfront h.behind h.front h.room rfl).1⟩

theorem send_queued (h : MaySend s op w) : ∃ e, Queued s op w (waitAfter s op w) (s.send op w) e ∧ Carries s op w (s.send op w) e := by
  rw [State.send, sendWith_eq _ h]
  obtain ⟨hq, hs, hcopy, z, hregs⟩ := sendEntry_queued ownPart_none h.behind h.front h.room (op := op) (w := w) rfl
  obtain ⟨o, hfr⟩ := atSend_fr s op w
  rw [hfr] at hs hcopy hregs
  exact ⟨_, hq, ⟨rfl, rfl⟩, rfl, fun hop => newEntry_x0 hop .word, fun hop => newEntry_more .word hop, hs, hcopy, by rw [hregs]⟩

theorem sendCpw_queued (h : MaySend s 0x69 w) :
    ∃ e, Queued s 0x69 w (.copies (s.rd w.va)) (s.sendCpw w) e ∧ Carries s 0x69 w (s.sendCpw w) e := by
  obtain ⟨e, hq, hc⟩ := send_queued h
  have hcpw : s.sendCpw w = (s.send 0x69 w).onFr fun f => { f with wait := .copies (s.rd w.va) } := by
    have hlife : (s.send 0x69 w).th.life = s.th.life := by
      have hrest := congrArg (·.th.life) hq.rest
      exact hrest
    exact if_pos ⟨hq.seq, by rw [hq.mregs], hlife⟩
  rw [hcpw]
  exact ⟨e, { hq with wait := rfl }, { hc with }⟩

/-! ### The words -/

/-- How exec sends an instruction, by what the front has to do with its word besides (02 Table 2.7). -/
inductive SentAs (i : Instr) (op : Nat) (w : VWord) : Nat → Prop
  | plain : laneToScalar op w = false → (∀ s, exec i s = .next (s.send op w)) → SentAs i op w 0
  | awaited : laneToScalar op w = true → (∀ s, (s.th.fr.m.lvl = true → op ≠ 0x73) → exec i s = .next (s.send op w)) → SentAs i op w 1
  | copies : op = 0x69 → (∀ s, exec i s = .next (s.sendCpw w)) → SentAs i op w 2
  | own (front : State → VEntry → State × VEntry) : laneToScalar op w = false → OwnPart front →
      (∀ s, (s.th.fr.m.lvl = true → op ≠ 0x4A) → exec i s = .next (s.sendWith op w front)) → SentAs i op w 3

/-- A word that U alone may send (12 R348). -/
theorem sendU_eq (front : State → VEntry → State × VEntry) (h : s.th.fr.m.lvl = false) : s.sendU op w front = s.sendWith op w front := by
  rw [State.sendU, h]
  rfl

theorem laneToScalar_mask {n : Nat} (h : (w.key == n) = true) : laneToScalar 0x07 w = (decide (n = 16) || decide (n = 17)) := by
  rw [← beq_iff_eq.mp h]
  simp [laneToScalar]

theorem laneToScalar_move {n : Nat} (h : (w.key == n) = true) : laneToScalar 0x09 w = decide (n = 3) := by
  rw [← beq_iff_eq.mp h]
  simp [laneToScalar]

theorem laneToScalar_window {n : Nat} (h : (w.key == n) = true) (hf : w.form = .vs) : laneToScalar 0x70 w = decide (n / 2 ^ 5 % 2 ^ 4 = 0) := by
  have hfn : w.fnFN = n / 2 ^ 5 % 2 ^ 4 := by
    rw [← beq_iff_eq.mp h, VWord.key, if_neg (by simp [hf])]
    rfl
  simp [laneToScalar, hfn]

theorem form_vs_of_formIn (h : w.formIn false true false = true) : w.form = .vs := by
  unfold VWord.formIn at h
  split at h
  case h_2 hf => exact hf
  all_goals exact absurd h (by decide)

theorem sentAs_of_viqWord {i : Instr} {k : Nat} (h : viqWord i = some (op, w, k)) (hw : i.wellFormed = true) : SentAs i op w k := by
  obtain ⟨hn, hchecks⟩ := (Bool.and_eq_true _ _).mp hw
  cases i
  case vldC => cases h; exact .own _ rfl (ownPart_chunk _) fun _ _ => rfl
  case vstC => cases h; exact .own _ rfl (ownPart_chunk _) fun _ _ => rfl
  case setvl => cases h; exact .own _ rfl (ownPart_setvl _) fun _ _ => rfl
  case tshape => cases h; exact .own _ rfl (ownPart_tshape _) fun _ _ => rfl
  case mmode => cases h; exact .own _ rfl (ownPart_mmode _) fun _ _ => rfl
  case scommit =>
    cases h
    exact .own _ rfl ownPart_scommit fun s hu => congrArg _ (sendU_eq _ (Bool.eq_false_iff.mpr fun hl => hu hl rfl))
  case cpw => cases h; exact .copies rfl fun _ => rfl
  case mpop => cases h; exact .awaited (laneToScalar_mask hn) fun _ _ => rfl
  case mfirst => cases h; exact .awaited (laneToScalar_mask hn) fun _ _ => rfl
  case vmvsX => cases h; exact .awaited (laneToScalar_move hn) fun _ _ => rfl
  case wdecl => cases h; exact .awaited (laneToScalar_window hn (by simp_all [Instr.checks, okWdecl, form_vs_of_formIn])) fun _ _ => rfl
  case step => cases h; exact .awaited rfl fun s hu => congrArg _ (sendU_eq _ (Bool.eq_false_iff.mpr fun hl => hu hl rfl))
  case stepAt => cases h; exact .awaited rfl fun s hu => congrArg _ (sendU_eq _ (Bool.eq_false_iff.mpr fun hl => hu hl rfl))
  case stepq => cases h; exact .awaited rfl fun s hu => congrArg _ (sendU_eq _ (Bool.eq_false_iff.mpr fun hl => hu hl rfl))
  case mand => cases h; exact .plain (laneToScalar_mask hn) fun _ => rfl
  case mor => cases h; exact .plain (laneToScalar_mask hn) fun _ => rfl
  case mxor => cases h; exact .plain (laneToScalar_mask hn) fun _ => rfl
  case mandn => cases h; exact .plain (laneToScalar_mask hn) fun _ => rfl
  case mnot => cases h; exact .plain (laneToScalar_mask hn) fun _ => rfl
  case vbcast => cases h; exact .plain (laneToScalar_move hn) fun _ => rfl
  case vmv => cases h; exact .plain (laneToScalar_move hn) fun _ => rfl
  case vmvsV => cases h; exact .plain (laneToScalar_move hn) fun _ => rfl
  case wdeclRel => cases h; exact .plain (laneToScalar_window hn (by simp_all [Instr.checks, okWdeclRel, form_vs_of_formIn])) fun _ => rfl
  all_goals
    cases h <;> exact .plain rfl fun _ => rfl

/-- What the front waits for after a word, by its kind (05 R127; 10 R301). -/
def waitOf (s : State) (w : VWord) : Nat → Wait
  | 1 => .entry (s.th.fr.seq + 1)
  | 2 => .copies (s.rd w.va)
  | _ => s.th.fr.wait

theorem SentAs.queued {i : Instr} {k : Nat} (h : SentAs i op w k) (hmay : MaySend s op w)
    (hu : s.th.fr.m.lvl = true → op ≠ 0x4A ∧ op ≠ 0x73) :
    ∃ t e, exec i s = .next t ∧ Queued s op w (waitOf s w k) t e ∧ (k < 3 → Carries s op w t e) := by
  have hnone : laneToScalar op w = false → waitAfter s op w = s.th.fr.wait := fun hl => if_neg (Bool.eq_false_iff.mp hl)
  cases h with
  | plain hl hexec =>
    obtain ⟨e, hq, hcar⟩ := send_queued hmay
    exact ⟨_, e, hexec s, { hq with wait := hq.wait.trans (hnone hl) }, fun _ => hcar⟩
  | awaited hl hexec =>
    obtain ⟨e, hq, hcar⟩ := send_queued hmay
    exact ⟨_, e, hexec s fun hm => (hu hm).2, { hq with wait := hq.wait.trans (if_pos hl) }, fun _ => hcar⟩
  | copies hop hexec =>
    subst hop
    obtain ⟨e, hq, hcar⟩ := sendCpw_queued hmay
    exact ⟨_, e, hexec s, hq, fun _ => hcar⟩
  | own front hl hfront hexec =>
    obtain ⟨e, hq⟩ := sendWith_queued hfront hmay
    exact ⟨_, e, hexec s fun hm => (hu hm).1, { hq with wait := hq.wait.trans (hnone hl) }, fun hk => absurd hk (Nat.lt_irrefl 3)⟩

/-- Settles O37: by how the instruction's word is sent. -/
theorem wordsAreSent : Obligations.WordsAreSent := by
  intro s i op w k hi hw hp hok hu hc hroom
  obtain ⟨t, e, hexec, hq, hcar⟩ := (sentAs_of_viqWord hi hw).queued ⟨hp, hok, fun hl => (hu hl).1, hc, hroom⟩ fun hl => (hu hl).2
  obtain ⟨hop, hww, hslot⟩ := hq.word
  obtain ⟨hseq, haddr, hafter⟩ := hq.place
  obtain ⟨hfirst, hissued, hprog, hsafe, hcomplete⟩ := hq.fresh
  refine ⟨t, e, hexec, hq.viq, hop, hww, hslot, hseq, haddr, hafter, hq.joined, hfirst, hissued, hprog, hsafe, hcomplete, hq.level, hq.seq,
    hq.spc, hq.chainOpen, hq.wait.trans ?_, fun hk => ?_, hq.rest⟩
  · rcases k with _ | _ | _ | k
    all_goals rfl
  · obtain ⟨⟨hsc, hsb⟩, hvl, hx0, hmore, hs, hcopies, hloops⟩ := hcar hk
    exact ⟨hsc, hsb, hvl, hx0, hmore, hs, hcopies, hloops⟩

end Sys2Proof.Claims

end

section

/-! ## A word alone in flight

A word that an idle thread sends is a convoy of its own. Where the lanes stop it, the convoy keeps what its groups below the stop have done, and
the exception is taken (05 R119, R121; 12 R349). -/

namespace Sys2Proof.Claims

open Sys2Proof.Machine

variable {s q : State} {op : Nat} {w : VWord} {e e1 : VEntry} {x : LStop}

/-! ### The convoy of one word -/

/-- A word's entry that has not issued. -/
structure FreshWord (e : VEntry) : Prop where
  slot : e.slot = .word
  joined : e.joined = false
  issued : e.issued = false
  complete : e.complete = false
  prog : e.prog = 0

/-- What the lanes give when they stop a word: nothing is left for its completion. -/
structure Stopped (o : LaneOut) (x : LStop) : Prop where
  stop : o.stop = some x
  pend : o.pend = 0
  note : o.note = 0

/-- An entry with the vtype that it takes at its first issue (05 R108). -/
def typed (q : State) (e : VEntry) : VEntry := { e with vtype := q.th.ln.vtype }

/-- The state of the lanes once a word has stopped: the progress of its destination is 0 where its first group has issued (05 R120). -/
def leftAt (q : State) (e e1 : VEntry) (o : LaneOut) (x : LStop) : State :=
  if o.reached = 0 && 0 < q.slotGroups (typed q e) && !decide (x.cause = .illegal) then o.st.zeroIndex e1 else o.st

/-- The groups that a word may run when nothing limits it. -/
def allGroups (q : State) (e : VEntry) : Nat := min (q.slotGroups (typed q e)) (2 ^ 32)

/-- The run of a convoy's only member, up to its stop, under a limit that leaves it all its groups (05 R119, R121). -/
theorem member_of_stop {o : LaneOut} {lim : Limit} (hf : FreshWord e) (hh : q.th.fr.hist = []) (vcp : Word) (cut : Nat → Bool)
    (hlim : ∀ g cycle, lim 0 0 g cycle = 2 ^ 32) (hfirst : q.firstIssue e vcp = (q, e1)) (hsamp : e1.sampled = false)
    (hword : e1.slot = .word ∧ e1.prog = 0 ∧ e1.complete = false ∧ e1.safe = false)
    (ho : laneRun e1 0 (allGroups q e) q = o) (hx : Stopped o x) :
    ((ConvoyRun.start q).member lim cut vcp 0 e).st = leftAt q e e1 o x ∧
      ((ConvoyRun.start q).member lim cut vcp 0 e).ran = [{ e1 with prog := o.reached }] ∧
      ∃ c, ((ConvoyRun.start q).member lim cut vcp 0 e).stops = [foundAt 0 x c e1] := by
  obtain ⟨hslot, hjoin, hiss, hcomp, hprog⟩ := hf
  obtain ⟨hslot1, hprog1, hcomp1, hsafe1⟩ := hword
  obtain ⟨hstop, hpend, hnote⟩ := hx
  have hv : (if e.issued then e else { e with vtype := (ConvoyRun.start q).st.th.ln.vtype }) = typed q e := if_neg (by simp [hiss])
  have hrun : slotRun e1 0 (allGroups q e) q = o := by rw [slotRun, hslot1, ho]
  have hran : (e1.touch q 0 o.reached).ran o (q.slotGroups (typed q e) ≤ o.reached && (o.stop.isNone || o.note ≠ 0)) =
      { e1 with prog := o.reached } := by
    simp [VEntry.touch, VEntry.ran, hsamp, hstop, hpend, hnote, hcomp1, hsafe1]
  have hfinish : ∀ u, VEntry.finish { e1 with prog := o.reached } u = (u, { e1 with prog := o.reached }) := fun u => by
    simp [VEntry.finish, hcomp1]
  have hlim' : ∀ cycle, lim 0 (typed q e).prog ((ConvoyRun.start q).st.slotGroups (typed q e)) cycle = 2 ^ 32 := fun c =>
    (congrArg (fun p => lim 0 p _ c) hprog).trans (hlim _ _)
  have hhi : min ((ConvoyRun.start q).fits (typed q e) ((ConvoyRun.start q).st.slotGroups (typed q e))) (2 ^ 32) = allGroups q e := rfl
  have hfirst' : (ConvoyRun.start q).st.firstIssue e vcp = (q, e1) := hfirst
  have hidle : ((ConvoyRun.start q).st.waitsSafe (typed q e) && !(ConvoyRun.start q).full || (ConvoyRun.start q).slotWaits (typed q e) ||
      (ConvoyRun.start q).st.logFull (typed q e) ||
      decide (allGroups q e ≤ (typed q e).prog) && decide (0 < (ConvoyRun.start q).st.slotGroups (typed q e)) ||
      decide ((ConvoyRun.start q).st.slotGroups (typed q e) = 0) && decide (2 ^ 32 = 0)) = false := by
    have hpos : (decide (allGroups q e ≤ (typed q e).prog) && decide (0 < q.slotGroups (typed q e))) = false := by
      rw [show (typed q e).prog = 0 from hprog, allGroups, ← Bool.decide_and, decide_eq_false_iff_not]
      omega
    have hstart : (ConvoyRun.start q).st = q ∧ (ConvoyRun.start q).full = true ∧ (ConvoyRun.start q).slotWaits (typed q e) = false :=
      ⟨rfl, rfl, by simp [ConvoyRun.slotWaits, ConvoyRun.start]⟩
    obtain ⟨hst, hfull, hslots⟩ := hstart
    have hlog : q.logFull (typed q e) = false := by simp [State.logFull, hh]
    rw [hst, hfull, hslots, hlog, hpos]
    simp
  rw [ConvoyRun.member, if_neg (by simp [hcomp]), hv]
  simp only [hlim', hhi, hfirst', hprog1, hrun, hidle, Bool.false_and, Bool.false_eq_true, if_false]
  rw [show (ConvoyRun.start q).st.slotGroups (typed q e) = q.slotGroups (typed q e) from rfl, hran, hfinish, hstop]
  exact ⟨rfl, rfl, _, rfl⟩

/-- The fault of a convoy's only member is the one found, whatever the cycle in which its group issued (05 R121). -/
theorem faultPoint_single (j c : Nat) (x : LStop) (e : VEntry) : faultPoint [foundAt j x c e] = some (c + detectOf e, j, x) := by
  simp [faultPoint, foundAt]

/-- A convoy of one word that the lanes stop: its fault is delivered from what its groups below the stop have left (05 R119, R121). -/
theorem issueConvoy_of_stop {o : LaneOut} (hf : FreshWord e) (hv : q.th.fr.viq = [e]) (hh : q.th.fr.hist = []) (hq : q.th.fr.storeQ = [])
    (hfirst : q.firstIssue e q.vcp = (q, e1)) (hsamp : e1.sampled = false)
    (hword : e1.slot = .word ∧ e1.prog = 0 ∧ e1.complete = false ∧ e1.safe = false)
    (ho : laneRun e1 0 (allGroups q e) q = o) (hx : Stopped o x) :
    q.issueConvoy noLimit = ((leftAt q e e1 o x).convoyFault [{ e1 with prog := o.reached }] 0 x, .stopped) := by
  have hrun := fun lim cut (hlim : ∀ g cycle, lim 0 0 g cycle = 2 ^ 32) =>
    member_of_stop (lim := lim) hf hh q.vcp cut hlim hfirst hsamp hword ho hx
  obtain ⟨-, -, c, hstops⟩ := hrun noLimit (fun _ => false) fun _ _ => rfl
  have hone : ∀ lim cut, runMembers lim cut q.vcp 1 0 [e] (ConvoyRun.start q) = (ConvoyRun.start q).member lim cut q.vcp 0 e :=
    fun _ _ => rfl
  obtain ⟨hst, hran, c', hstops'⟩ := hrun (q.faultLimit [e] ((ConvoyRun.start q).member noLimit (fun _ => false) q.vcp 0 e)
    (c + detectOf e1) 0 x.group noLimit) (((ConvoyRun.start q).member noLimit (fun _ => false) q.vcp 0 e).hadIssued (c + detectOf e1))
    fun _ _ => rfl
  have hfind : ([foundAt 0 x c' e1].find? fun z => z.member = 0) = some (foundAt 0 x c' e1) := rfl
  unfold State.issueConvoy
  simp only [State.storesBefore_of_nil hq, State.storesLeft_of_nil hq, hv, splitConvoy, List.takeWhile_nil, List.dropWhile_nil,
    List.length_singleton, hone, hstops, faultPoint_single, Bool.false_eq_true, if_false, hst, hran, hstops', hfind]
  rfl

/-- The fault of a convoy of one word at U: nothing is unwound, and the exception is taken with the pair after and at the word (12 R349). -/
theorem convoyFault_single {u : State} (hh : u.th.fr.hist = []) (hq : u.th.fr.storeQ = []) (hc : u.th.fr.chainOpen = false)
    (hu : u.th.fr.m.lvl = false) (hx : x.cause ≠ .skew) :
    u.convoyFault [e] 0 x = (u.onFr fun f => { f with viq := [e] }).takeException x.cause x.index e.after e.addr x.flags false := by
  have hunwind : u.unwind e.seq [e] = u.onFr fun f => { f with viq := [e] } := by
    simp [State.unwind, hh, hq, hc, restoreFrom, State.onFr]
  have hstep : (decide (x.cause = .skew) && decide (e.op = 0x73)) = false := by simp [hx]
  simp only [State.convoyFault, List.head?_cons, List.getLast?_singleton, List.getD_cons_zero, hstep, hu, Bool.false_and, Bool.false_or,
    Bool.false_eq_true, if_false, hunwind]
  have hhist : (u.onFr fun f => { f with viq := [e] }).th.fr.hist = [] := hh
  have hstores : (u.onFr fun f => { f with viq := [e] }).th.fr.storeQ = [] := hq
  rw [State.retireHistory_of_nil hhist, State.leaveStores_of_nil hstores]

theorem runClosed_of_stop {t : State} (hv : q.th.fr.viq = [e]) (hc : q.th.fr.chainOpen = false)
    (h : q.issueConvoy noLimit = (t, .stopped)) (k : Nat) : (State.runClosed (k + 1) q).1 = t := by
  simp [State.runClosed, hv, splitConvoy, hc, h]

/-! ### Sending the word -/

/-- The entry of a word that an idle thread sends, before it issues. -/
def queuedEntry (s : State) (op : Nat) (w : VWord) : VEntry := placed s (s.newEntry op w .word) false

/-- The state in which that word issues. -/
def queued (s : State) (op : Nat) (w : VWord) : State := s.onFr fun _ => { frontAfter s with viq := [queuedEntry s op w] }

/-- What an entry takes at its first issue: its replicated unit, and the slot of a group that it writes whole (01 R18; 05 R113, R116). -/
def taken (q : State) (e : VEntry) : VEntry :=
  { e with unit := q.unitOf e, held := (e.groupOf.map fun n => q.th.ln.group n).getD [],
           shape := (e.groupOf.map fun n => vecGet q.th.ln.shape n 0).getD 0 }

/-- The word's entry once it has issued (01 R18; 05 R108, R113, R116). -/
def issuedEntry (s : State) (op : Nat) (w : VWord) : VEntry := taken s { entry s op w with range := (queuedEntry s op w).range }

theorem freshWord_queuedEntry (s : State) (op : Nat) (w : VWord) : FreshWord (queuedEntry s op w) := ⟨rfl, rfl, rfl, rfl, rfl⟩

theorem queued_viq (s : State) (op : Nat) (w : VWord) : (queued s op w).th.fr.viq = [queuedEntry s op w] := rfl

theorem issuedEntry_place (s : State) (op : Nat) (w : VWord) : (issuedEntry s op w).sampled = false ∧ (issuedEntry s op w).slot = .word ∧
    (issuedEntry s op w).prog = 0 ∧ (issuedEntry s op w).complete = false ∧ (issuedEntry s op w).safe = false := ⟨rfl, rfl, rfl, rfl, rfl⟩

theorem queued_vcp (hi : Idle s) : (queued s op w).vcp = s.th.fr.spc := by
  have hstepq : (queued s op w).th.fr.stepq = none := hi.stepq
  rw [State.vcp, hstepq]
  rfl

theorem sampleIssue_of_off (e : VEntry) (h0 : q.th.fr.regs.smplcfg.getLsbD 0 = false) (h1 : q.th.fr.regs.mark = false) :
    q.sampleIssue e = (q, false) := by
  have hsame : ∀ b, q.th.fr.regs.mark = b → (q.onRegs fun r => { r with next := q.th.fr.regs.next, mark := b }) = q := by
    rintro _ rfl
    rfl
  unfold State.sampleIssue
  split
  · rfl
  · simp only [h0, h1, Bool.false_and, Bool.false_eq_true, if_false, Bool.or_false, hsame false h1]

theorem arrive_regs_sampling (s : State) (a : Word) :
    (s.arrive a).1.th.fr.regs.smplcfg = s.th.fr.regs.smplcfg ∧ (s.arrive a).1.th.fr.regs.mark = s.th.fr.regs.mark := by
  obtain ⟨h, z, e, -⟩ := arrive_form s a
  rw [e]
  exact ⟨rfl, rfl⟩

/-- An entry at its first issue is the one that the claims speak of, but for its range of writes. -/
theorem queuedEntry_issued (hu : s.th.fr.m.lvl = false) :
    ({ queuedEntry s op w with issued := true, vtype := s.th.ln.vtype, sampled := false,
                               issuedAt := ((s.arrive (s.th.fr.spc + 8)).2, s.th.fr.spc) } : VEntry) =
      { entry s op w with range := (queuedEntry s op w).range } := by
  simp [queuedEntry, placed, VEntry.ranged, State.newEntry, entry, hu, scalarFields, or_assoc]

theorem firstIssue_queued (hi : Idle s) (hu : s.th.fr.m.lvl = false) (hs : s.th.fr.regs.smplcfg.getLsbD 0 = false ∧ s.th.fr.regs.mark = false) :
    (queued s op w).firstIssue (queuedEntry s op w) (queued s op w).vcp = (queued s op w, issuedEntry s op w) := by
  obtain ⟨hcfg, hmark⟩ := arrive_regs_sampling s (s.th.fr.spc + 8)
  have hoff := sampleIssue_of_off (q := queued s op w) (queuedEntry s op w) ((congrArg (·.getLsbD 0) hcfg).trans hs.1) (hmark.trans hs.2)
  rw [State.firstIssue, if_neg (by simp [(freshWord_queuedEntry s op w).issued]), hoff, queued_vcp hi]
  exact congrArg (fun e => (queued s op w, taken s e)) (queuedEntry_issued hu)

theorem append_of_idle (hi : Idle s) (hc : w.chain = false) :
    s.append (s.newEntry op w .word) false w.chain (fun x => x.seqNext 8) = queued s op w := by
  obtain ⟨h, z, c, hh, hz, hcnt, happ⟩ := append_word s (s.newEntry op w .word) false rfl
  have hchain : staysOpen op w 0 = s.th.fr.chainOpen := by rw [hi.chain, staysOpen, hc]; rfl
  rw [hh (unsafeOlder_of_viq_nil hi.viq), hcnt hc] at happ
  rw [show w.chain = (s.newEntry op w .word).w.chain from rfl, happ, queued, frontAfter, ← hz, queuedEntry]
  simp [State.onFr, State.onTh, hi.viq, hchain, State.newEntry]

/-- A word that an idle thread sends, with C clear, is a convoy of its own that runs at once (03 R56; 05 R119). -/
theorem send_of_idle (hi : Idle s) (hu : s.th.fr.m.lvl = false) (hc : w.chain = false) (hok : s.threadOk op w = true)
    (hl : laneToScalar op w = false) : s.send op w = (State.runClosed 2 (queued s op w)).1 := by
  have hused : s.viqUsed = 0 := by simp [State.viqUsed, hi.viq, hi.stepq]
  have hclose : s.closeChain = s := by simp [State.closeChain, hi.chain]
  have happ := append_of_idle (op := op) hi hc
  have hprompt : (queued s op w).prompt = true := hi.prompt
  rw [State.send, State.sendWith, if_neg (by simp [hok]), if_neg (by simp [hu])]
  unfold State.sendEntry
  simp only [hi.chain, hi.prompt, Bool.false_and, Bool.false_eq_true, if_false, hclose, Bool.true_and, Bool.not_false, if_true,
    State.runClosed_of_nil hi.viq, hused, happ, hl]
  rw [if_neg (by decide), State.runAhead, if_pos hprompt]
  rfl

/-- A word that a thread at U may send alone, with sampling off (02 R43; 12 R375). -/
structure SentAlone (s : State) (op : Nat) (w : VWord) : Prop where
  idle : Idle s
  atU : s.th.fr.m.lvl = false
  chain : w.chain = false
  sent : s.threadOk op w = true
  samples : s.th.fr.regs.smplcfg.getLsbD 0 = false ∧ s.th.fr.regs.mark = false
  quiet : laneToScalar op w = false

/-- Where the lanes stop a word that is alone in flight, the exception is taken with the word kept in the VIQ at the groups it has done
(05 R121; 12 R349). -/
theorem send_stopsAt {o : LaneOut} {ln : Lanes} (h : SentAlone s op w)
    (ho : laneRun (issuedEntry s op w) 0 (allGroups (queued s op w) (queuedEntry s op w)) (queued s op w) = o) (hx : Stopped o x)
    (hskew : x.cause ≠ .skew)
    (hln : leftAt (queued s op w) (queuedEntry s op w) (issuedEntry s op w) o x = (queued s op w).onLn fun _ => ln) :
    StopsAt s op w o.reached x.cause x.index x.flags ln (s.send op w) := by
  obtain ⟨hi, hu, hc, hok, hs, hl⟩ := h
  have hhist : (queued s op w).th.fr.hist = [] := hi.hist
  have hstoreQ : (queued s op w).th.fr.storeQ = [] := hi.storeQ
  have hchain : (queued s op w).th.fr.chainOpen = false := hi.chain
  have hissue := issueConvoy_of_stop (freshWord_queuedEntry s op w) (queued_viq s op w) hhist hstoreQ (firstIssue_queued hi hu hs)
    (issuedEntry_place s op w).1 (issuedEntry_place s op w).2 ho hx
  have hfault := convoyFault_single (u := (queued s op w).onLn fun _ => ln) (e := { issuedEntry s op w with prog := o.reached }) (x := x)
    hi.hist hi.storeQ hi.chain hu hskew
  rw [send_of_idle hi hu hc hok hl, runClosed_of_stop (queued_viq s op w) hchain hissue, hln, hfault]
  refine ⟨s.unitOf { entry s op w with range := (queuedEntry s op w).range }, (issuedEntry s op w).held, (queuedEntry s op w).range,
    (issuedEntry s op w).shape, ?_⟩
  rfl

/-! ### A check that fails at the issue -/

theorem issueOk_issuedEntry (s : State) (op : Nat) (w : VWord) :
    (queued s op w).issueOk (issuedEntry s op w) = s.issueOk (entry s op w) := rfl

/-- A word that fails a check of R44 has no effect (02 R44; 05 R121). -/
theorem stopsAt_of_issueOk_false (h : SentAlone s op w) (hno : s.issueOk (entry s op w) = false) :
    StopsAt s op w 0 .illegal 0 0 s.th.ln (s.send op w) := by
  refine send_stopsAt (x := { cause := .illegal, index := 0, group := 0, flags := 0 }) (o := issueFail (queued s op w) 0) h ?_ ⟨rfl, rfl, rfl⟩
    (by decide) ?_
  · rw [laneRun, issueOk_issuedEntry, hno]
    rfl
  · rw [leftAt, if_neg (by simp)]
    rfl

theorem vectorFaults_issue {i : Instr} (hi : viqWord i = some (op, w, 0)) (hw : i.wellFormed = true) (hidle : Idle s)
    (hu : s.th.fr.m.lvl = false) (hc : w.chain = false) (hok : s.threadOk op w = true)
    (hs : s.th.fr.regs.smplcfg.getLsbD 0 = false ∧ s.th.fr.regs.mark = false) (hno : s.issueOk (entry s op w) = false) :
    ∃ t, exec i s = .next t ∧ StopsAt s op w 0 .illegal 0 0 s.th.ln t := by
  cases sentAs_of_viqWord hi hw with
  | plain hl hexec => exact ⟨_, hexec s, stopsAt_of_issueOk_false ⟨hidle, hu, hc, hok, hs, hl⟩ hno⟩

end Sys2Proof.Claims

end

section

/-! ## Elements of a register

A register is read and written in elements of b bits (05 R105); a result goes to the elements of a run of groups (05 R115), and a replicated
unit is a run of elements (02 R42). -/

namespace Sys2Proof.Claims

open Sys2Proof.Machine

/-! ### Reading and writing an element -/

theorem testBit_field {n : Nat} (x : BitVec n) (lo len k : Nat) : (field x lo len).testBit k = (decide (k < len) && x.toNat.testBit (lo + k)) := by
  rw [field, Nat.testBit_mod_two_pow, Nat.testBit_shiftRight]

theorem testBit_setField {n : Nat} (x : BitVec n) {lo len : Nat} (v p : Nat) (h : lo + len ≤ n) :
    (setField x lo len v).toNat.testBit p = if lo ≤ p ∧ p < lo + len then v.testBit (p - lo) else x.toNat.testBit p := by
  have hwide : (decide (p < n) && x.toNat.testBit p) = x.toNat.testBit p := by
    by_cases hp : p < n
    · simp [hp]
    · simp [hp, Nat.testBit_lt_two_pow (x.isLt.trans_le (Nat.pow_le_pow_right (by decide) (Nat.not_lt.mp hp)))]
  simp only [setField, BitVec.toNat_ofNat, Nat.testBit_mod_two_pow, Nat.testBit_xor, Nat.testBit_shiftLeft, Nat.testBit_shiftRight]
  by_cases hin : lo ≤ p ∧ p < lo + len
  · obtain ⟨hlo, hhi⟩ := hin
    have hp : p < n := by omega
    have hoff : p - lo < len := by omega
    simp [hlo, hhi, hp, hoff, Nat.add_sub_cancel' hlo]
  · rw [if_neg hin, ← hwide]
    by_cases hlo : lo ≤ p
    · have hout : ¬ p - lo < len := by omega
      simp [hout]
    · simp [hlo]

theorem elemAt_setElem {n b i : Nat} (x : BitVec n) (v j : Nat) (h : (i + 1) * b ≤ n) :
    elemAt (setElem x b i v) b j = if j = i then v % 2 ^ b else elemAt x b j := by
  have hle : i * b + b ≤ n := by rwa [Nat.add_mul, Nat.one_mul] at h
  refine Nat.eq_of_testBit_eq fun k => ?_
  rw [elemAt, testBit_field, setElem, testBit_setField x v _ hle]
  by_cases hk : k < b
  · by_cases hj : j = i
    · subst hj
      simp [hk, Nat.testBit_mod_two_pow]
    · have hout : ¬ (i * b ≤ j * b + k ∧ j * b + k < i * b + b) := by
        rintro ⟨hlo, hhi⟩
        rcases Nat.lt_or_gt_of_ne hj with hlt | hlt
        · have := Nat.mul_le_mul_right b hlt
          rw [Nat.succ_mul] at this
          omega
        · have := Nat.mul_le_mul_right b hlt
          rw [Nat.succ_mul] at this
          omega
      rw [if_neg hout, if_neg hj, elemAt, testBit_field]
  · by_cases hj : j = i
    · simp [hk, hj, Nat.testBit_mod_two_pow]
    · simp [hk, hj, elemAt, testBit_field]

/-- What a run of writes leaves: the elements that it gives, and the others as they were. -/
theorem elemAt_putElems {n b : Nat} (F : Nat → Option Nat) (x : BitVec n) (j : Nat) : ∀ m, m * b ≤ n →
    elemAt (putElems b 0 F m x) b j = if j < m then ((F j).map (· % 2 ^ b)).getD (elemAt x b j) else elemAt x b j := by
  intro m
  induction m with
  | zero => intro _; rfl
  | succ m ih =>
    intro hm
    have ih := ih ((Nat.mul_le_mul_right b (Nat.le_succ m)).trans hm)
    have hput : elemAt (putElems b 0 F (m + 1) x) b j =
        if j = m then ((F m).map (· % 2 ^ b)).getD (elemAt (putElems b 0 F m x) b j) else elemAt (putElems b 0 F m x) b j := by
      rw [putElems, Nat.zero_add]
      cases F m with
      | none => simp
      | some y => exact elemAt_setElem _ _ _ hm
    rw [hput, ih]
    by_cases hj : j = m
    · simp [hj]
    · have hlt : j < m + 1 ↔ j < m := by omega
      simp [hj, hlt]

/-- Element j of a unit of k elements, the r-th of its register (02 R42). -/
theorem field_unit {n : Nat} (x : BitVec n) (r b j : Nat) {k : Nat} (hj : j < k) :
    field x (r * (k * b)) (k * b) >>> (j * b) % 2 ^ b = elemAt x b (r * k + j) := by
  refine Nat.eq_of_testBit_eq fun p => ?_
  rw [Nat.testBit_mod_two_pow, Nat.testBit_shiftRight, testBit_field, elemAt, testBit_field]
  by_cases hp : p < b
  · have hin : j * b + p < k * b := by
      calc j * b + p < j * b + b := by omega
        _ = (j + 1) * b := by ring
        _ ≤ k * b := Nat.mul_le_mul_right b hj
    have hpos : r * (k * b) + (j * b + p) = (r * k + j) * b + p := by ring
    rw [hpos]
    simp [hp, hin]
  · simp [hp]

/-! ### The lowest index -/

theorem firstIx_eq_none {p : Nat → Bool} : ∀ {n : Nat}, (∀ k < n, p k = false) → firstIx p 0 n = none
  | 0, _ => rfl
  | n + 1, h => by
    rw [firstIx, firstIx_eq_none fun k hk => h k (Nat.lt_succ_of_lt hk), Nat.zero_add, h n (Nat.lt_succ_self n)]
    rfl

theorem firstIx_eq_some {p : Nat → Bool} {m : Nat} (hp : p m = true) (hb : ∀ k < m, p k = false) :
    ∀ {n : Nat}, m < n → firstIx p 0 n = some m
  | n + 1, h => by
    rcases Nat.lt_succ_iff_lt_or_eq.mp h with hlt | rfl
    · rw [firstIx, firstIx_eq_some hp hb hlt]
    · rw [firstIx, firstIx_eq_none hb, Nat.zero_add, hp]
      rfl

end Sys2Proof.Claims

end

section

/-! ## Operands of an element word

What the lanes read of an issued entry is what the claims say of the state: elements of registers, of the replicated unit, of the scalar and
of the immediate (02 R40 to R42; 05 R115, R116). -/

namespace Sys2Proof.Claims

open Sys2Proof.Machine

variable {s : State} {op : Nat} {w : VWord}

/-! ### The replicated unit -/

/-- The register that rsel names. -/
def selected (w : VWord) : RSel → RegNo
  | .none => 0
  | .a => w.va
  | .b => w.vb
  | .c => w.vc

/-- Bits of an element of the replicated unit of a word other than pack and unpack (02 R42; 06 R159). -/
def unitWidth (s : State) (op : Nat) (w : VWord) : Nat :=
  if op = 0x3B ∧ w.rsel = .b then (if w.fnBits 3 1 = 1 then 8 else 16) else eb s w

theorem unitBits_entry (hp : op ≠ 0x3A) (r : Option (Word × Nat)) : s.unitBits { entry s op w with range := r } = unitWidth s op w := by
  have hnot : ¬ (op = 0x3A ∧ w.fnBits 5 1 = 1) := fun h => hp h.1
  show (if op = 0x3B ∧ w.rsel = .b then _ else if op = 0x3A ∧ w.fnBits 5 1 = 1 then w.fnBits 0 4 else eb s w) = _
  rw [if_neg hnot]
  rfl

/-- Element i of the register that rsel names, from the unit that the entry has taken (02 R42; 05 R116). -/
theorem unitElem_issuedEntry (hp : op ≠ 0x3A) (hsel : w.rsel ≠ .none) (i : Nat) :
    (issuedEntry s op w).unitElem (unitWidth s op w) i = elemAt (vecGet s.th.ln.v (selected w w.rsel).toNat 0) (unitWidth s op w)
      (w.ridx.toNat * 4 ^ w.rsz.toNat + i % 4 ^ w.rsz.toNat) := by
  have hunit : (issuedEntry s op w).unit = field (vecGet s.th.ln.v (selected w w.rsel).toNat 0)
      (w.ridx.toNat * (4 ^ w.rsz.toNat * unitWidth s op w)) (4 ^ w.rsz.toNat * unitWidth s op w) := by
    have htaken : (issuedEntry s op w).unit = s.unitOf { entry s op w with range := (queuedEntry s op w).range } := rfl
    have hw : (entry s op w).w = w := rfl
    rw [htaken, State.unitOf, unitBits_entry hp]
    cases hr : w.rsel with
    | none => exact absurd hr hsel
    | a => simp only [hw, hr, selected]
    | b => simp only [hw, hr, selected]
    | c => simp only [hw, hr, selected]
  have hi : i % 4 ^ w.rsz.toNat < 4 ^ w.rsz.toNat := Nat.mod_lt _ (Nat.pow_pos (by decide))
  rw [← field_unit _ _ _ _ hi, ← hunit]
  rfl

/-! ### The operands -/

/-- An operand in the word's own type, replicated where rsel names it. -/
theorem code_issuedEntry (hp : op ≠ 0x3A) {sel : RSel} (hsel : sel ≠ .none) (hs : op = 0x3B → sel ≠ .b) (i : Nat) :
    (queued s op w).code (issuedEntry s op w) (if w.rsel = sel then (issuedEntry s op w).unitElem (eb s w) i
      else elemAt (vecGet s.th.ln.v (selected w sel).toNat 0) (eb s w) i) = src s w sel (selected w sel) i := by
  rw [src, elt]
  split
  · next hr =>
    have hwidth : unitWidth s op w = eb s w := if_neg fun h => hs h.1 (hr.symm.trans h.2)
    have helem := unitElem_issuedEntry (s := s) hp (hr ▸ hsel) i
    rw [hwidth, hr] at helem
    rw [helem]
    rfl
  · rfl

theorem opA_issuedEntry (hp : op ≠ 0x3A) (i : Nat) : (queued s op w).opA (issuedEntry s op w) (eb s w) i = srcA s w i :=
  code_issuedEntry (sel := .a) hp RSel.noConfusion (fun _ => RSel.noConfusion) i

theorem sext_fn (x : BitVec 12) : sext 12 x.toNat = x.toInt := by
  rw [sext, BitVec.toInt, Nat.mod_eq_of_lt x.isLt]
  have := x.isLt
  split <;> split <;> omega

theorem opB_issuedEntry (hp : op ≠ 0x3A) (hs : op ≠ 0x3B) (i : Nat) :
    (queued s op w).opB (issuedEntry s op w) (eb s w) i = srcB s w i := by
  have hw : (issuedEntry s op w).w = w := rfl
  unfold State.opB srcB
  rw [hw]
  cases w.form with
  | vv => exact code_issuedEntry (sel := .b) hp RSel.noConfusion (fun h => absurd h hs) i
  | vs => rfl
  | vi =>
    simp only [immOf, sext_fn]
    rfl

theorem opC_issuedEntry (hp : op ≠ 0x3A) (hs : op ≠ 0x3B) (i : Nat) :
    (queued s op w).opC (issuedEntry s op w) (eb s w) i = srcC s w i := by
  have hw : (issuedEntry s op w).w = w := rfl
  unfold State.opC srcC
  rw [hw]
  cases w.form with
  | vv => exact code_issuedEntry (sel := .c) hp RSel.noConfusion (fun h => absurd h hs) i
  | vs => rfl
  | vi => rfl

theorem opD_issuedEntry (i : Nat) : (queued s op w).opD (issuedEntry s op w) (eb s w) i = old s w i := rfl

/-- The block scale of element i (06 R159). -/
theorem scaleCode_issuedEntry (i : Nat) : (queued s 0x3B w).scaleCode (issuedEntry s 0x3B w) i = scaleOf s w i := by
  have hw : (issuedEntry s 0x3B w).w = w := rfl
  unfold State.scaleCode scaleOf
  rw [hw]
  cases hform : w.form with
  | vv =>
    simp only
    split
    · next hsel =>
      have hwidth : unitWidth s 0x3B w = if w.fnBits 3 1 = 1 then 8 else 16 := if_pos ⟨rfl, hsel⟩
      have hnone : w.rsel ≠ .none := fun h => RSel.noConfusion (h.symm.trans hsel)
      have helem := unitElem_issuedEntry (s := s) (op := 0x3B) (by decide) hnone (i / scaleBlock (w.fnBits 1 2))
      rw [hwidth, hsel] at helem
      rw [helem]
      rfl
    · rfl
  | vs => rfl
  | vi => rfl

end Sys2Proof.Claims

end

section

/-! ## The floating-point words at the lanes

Each floating-point word is an element word whose element i is the one that its form gives (05 R129; 06 R159, R162). -/

namespace Sys2Proof.Claims

open Sys2Proof.Machine

variable {s : State} {op : Nat} {w : VWord} {lo hi : Nat}

/-! ### The shapes of the words -/

/-- The run of an issued entry as an element word that gives F. -/
def elementRun (s : State) (op : Nat) (w : VWord) (F : Nat → Elt) (lo hi : Nat) : LaneOut :=
  (queued s op w).eltWord (issuedEntry s op w) ((queued s op w).view (issuedEntry s op w)) F lo hi

theorem fpWord_issuedEntry (hp : op ≠ 0x3A) (hs : op ≠ 0x3B) (F : Fmt → Nat → Nat → Nat → Elt) :
    (queued s op w).fpWord (issuedEntry s op w) lo hi F = elementRun s op w (fop2 s op w F).at_ lo hi := by
  refine congrArg (fun G => elementRun s op w G lo hi) (funext fun i => ?_)
  exact congrArg₂ (F (ef s w) (vtFrm s.th.ln.vtype)) (opA_issuedEntry hp i) (opB_issuedEntry hp hs i)

theorem fp1Word_issuedEntry (hp : op ≠ 0x3A) (F : Fmt → Nat → Nat → Elt) :
    (queued s op w).fp1Word (issuedEntry s op w) lo hi F = elementRun s op w (fop2 s op w fun f m a _ => F f m a).at_ lo hi := by
  refine congrArg (fun G => elementRun s op w G lo hi) (funext fun i => ?_)
  exact congrArg (F (ef s w) (vtFrm s.th.ln.vtype)) (opA_issuedEntry hp i)

/-- A fused word, whose third operand is C or the old destination. -/
theorem fused_issuedEntry (hp : op ≠ 0x3A) (hs : op ≠ 0x3B) (np nc : Bool) {c c' : Nat → Nat} (hc : ∀ i, c i = c' i) :
    elementRun s op w (fun i => (ef s w).fma (vtFrm s.th.ln.vtype) np nc ((queued s op w).opA (issuedEntry s op w) (eb s w) i)
      ((queued s op w).opB (issuedEntry s op w) (eb s w) i) (c i)) lo hi = elementRun s op w (fused3 s op w np nc c').at_ lo hi := by
  refine congrArg (fun G => elementRun s op w G lo hi) (funext fun i => ?_)
  rw [opA_issuedEntry hp, opB_issuedEntry hp hs, hc]
  rfl

theorem fmaWord_issuedEntry (hp : op ≠ 0x3A) (hs : op ≠ 0x3B) (np nc : Bool) :
    (queued s op w).fmaWord (issuedEntry s op w) lo hi np nc = elementRun s op w (fused3 s op w np nc (srcC s w)).at_ lo hi :=
  fused_issuedEntry hp hs np nc (opC_issuedEntry hp hs)

theorem vfmacc_issuedEntry (hp : op ≠ 0x3A) (hs : op ≠ 0x3B) :
    laneVfmacc (issuedEntry s op w) lo hi (queued s op w) = elementRun s op w (fused3 s op w false false (old s w)).at_ lo hi :=
  fused_issuedEntry hp hs false false opD_issuedEntry

theorem signWord_issuedEntry (hf : (ef s w).sgn = true) (F : Fmt → Nat → Nat → Bool) :
    (queued s 0x22 w).signWord (issuedEntry s 0x22 w) lo hi (fun f x y => f.withSign x (F f x y)) = elementRun s 0x22 w (sign2 s w F).at_ lo hi := by
  have hsign : ((queued s 0x22 w).efmt (issuedEntry s 0x22 w)).sgn = true := hf
  rw [State.signWord, if_pos hsign]
  refine congrArg (fun G => elementRun s 0x22 w G lo hi) (funext fun i => ?_)
  exact congrArg₂ (fun x y => ((ef s w).withSign x (F (ef s w) x y), (0 : Flags))) (opA_issuedEntry (by decide) i)
    (opB_issuedEntry (by decide) (by decide) i)

theorem scale_issuedEntry (dv : Bool) :
    elementRun s 0x3B w (fun i => ((queued s 0x3B w).efmt (issuedEntry s 0x3B w)).scale ((queued s 0x3B w).view (issuedEntry s 0x3B w)).frm dv
      (w.fnBits 3 1) ((queued s 0x3B w).scaleCode (issuedEntry s 0x3B w) i)
      ((queued s 0x3B w).opA (issuedEntry s 0x3B w) ((queued s 0x3B w).view (issuedEntry s 0x3B w)).b i)) lo hi =
      elementRun s 0x3B w (scaled s w dv).at_ lo hi := by
  refine congrArg (fun G => elementRun s 0x3B w G lo hi) (funext fun i => ?_)
  exact congrArg₂ ((ef s w).scale (vtFrm s.th.ln.vtype) dv (w.fnBits 3 1)) (scaleCode_issuedEntry i) (opA_issuedEntry (by decide) i)

/-! ### The word of each instruction -/

/-- The majors of the floating-point words. -/
def floatMajors : List Nat := [0x20, 0x21, 0x22, 0x3B, 0x3D]

/-- An instruction whose word is an element word of its form. -/
structure LaneForm (s : State) (i : Instr) (f : EltForm) : Prop where
  form : f = { plain s f.op f.w f.at_ with checks := f.checks }
  major : f.op ∈ floatMajors
  sent : viqWord i = some (f.op, f.w, 0)
  lanes : ∀ lo hi, laneOf (issuedEntry s f.op f.w) lo hi (queued s f.op f.w) = elementRun s f.op f.w f.at_ lo hi

variable {n : Nat} {q : State}

theorem laneOf_add (h : (w.key == n) = true) : laneOf (issuedEntry s 0x20 w) lo hi q =
    if n == 0 then laneVfadd (issuedEntry s 0x20 w) lo hi q else if n == 1 then laneVfsub (issuedEntry s 0x20 w) lo hi q
    else laneVfmul (issuedEntry s 0x20 w) lo hi q := by
  rw [← beq_iff_eq.mp h]
  rfl

theorem laneOf_fused (h : (w.key == n) = true) : laneOf (issuedEntry s 0x21 w) lo hi q =
    if n == 0 then laneVfmadd (issuedEntry s 0x21 w) lo hi q else if n == 1 then laneVfmsub (issuedEntry s 0x21 w) lo hi q
    else if n == 2 then laneVfnmadd (issuedEntry s 0x21 w) lo hi q else if n == 3 then laneVfnmsub (issuedEntry s 0x21 w) lo hi q
    else laneVfmacc (issuedEntry s 0x21 w) lo hi q := by
  rw [← beq_iff_eq.mp h]
  rfl

theorem laneOf_minMaxSign (h : (w.key == n) = true) : laneOf (issuedEntry s 0x22 w) lo hi q =
    if n == 0 then laneVfmin (issuedEntry s 0x22 w) lo hi q else if n == 1 then laneVfmax (issuedEntry s 0x22 w) lo hi q
    else if n == 2 then laneVfabs (issuedEntry s 0x22 w) lo hi q else if n == 3 then laneVfneg (issuedEntry s 0x22 w) lo hi q
    else if n == 4 then laneVfsignC (issuedEntry s 0x22 w) lo hi q else if n == 5 then laneVfsignN (issuedEntry s 0x22 w) lo hi q
    else laneVfsignX (issuedEntry s 0x22 w) lo hi q := by
  rw [← beq_iff_eq.mp h]
  rfl

theorem laneOf_divide (h : (w.key == n) = true) : laneOf (issuedEntry s 0x3D w) lo hi q =
    if n == 0 then laneVdiv (issuedEntry s 0x3D w) lo hi q else if n == 1 then laneVrdiv (issuedEntry s 0x3D w) lo hi q
    else if n == 2 then laneVsqrt (issuedEntry s 0x3D w) lo hi q else laneVrsq (issuedEntry s 0x3D w) lo hi q := by
  rw [← beq_iff_eq.mp h]
  rfl

theorem laneOf_scale (h : (w.fnBits 0 1 == n) = true) : laneOf (issuedEntry s 0x3B w) lo hi q =
    if n == 0 then laneVscaleMul (issuedEntry s 0x3B w) lo hi q else laneVscaleDiv (issuedEntry s 0x3B w) lo hi q := by
  rw [← beq_iff_eq.mp h]
  rfl

theorem laneForm_fp {i : Instr} {F : Fmt → Nat → Nat → Nat → Elt} (op : Nat) (hm : op ∈ [0x20, 0x22, 0x3D])
    (hi : viqWord i = some (op, w, 0))
    (h : ∀ lo hi, laneOf (issuedEntry s op w) lo hi (queued s op w) = (queued s op w).fpWord (issuedEntry s op w) lo hi F) :
    LaneForm s i (fop2 s op w F) where
  form := rfl
  major := (by decide : ∀ x ∈ [0x20, 0x22, 0x3D], x ∈ floatMajors) op hm
  sent := hi
  lanes lo hi := (h lo hi).trans (fpWord_issuedEntry ((by decide : ∀ x ∈ [0x20, 0x22, 0x3D], x ≠ 0x3A) op hm)
    ((by decide : ∀ x ∈ [0x20, 0x22, 0x3D], x ≠ 0x3B) op hm) F)

theorem laneForm_fp1 {i : Instr} {F : Fmt → Nat → Nat → Elt} (hi : viqWord i = some (0x3D, w, 0))
    (h : ∀ lo hi, laneOf (issuedEntry s 0x3D w) lo hi (queued s 0x3D w) = (queued s 0x3D w).fp1Word (issuedEntry s 0x3D w) lo hi F) :
    LaneForm s i (fop2 s 0x3D w fun f m a _ => F f m a) where
  form := rfl
  major := (by decide : 0x3D ∈ floatMajors)
  sent := hi
  lanes lo hi := (h lo hi).trans (fp1Word_issuedEntry (by decide) F)

theorem laneForm_fused {i : Instr} {np nc : Bool} {c : Nat → Nat} (hi : viqWord i = some (0x21, w, 0))
    (h : ∀ lo hi, laneOf (issuedEntry s 0x21 w) lo hi (queued s 0x21 w) = elementRun s 0x21 w (fused3 s 0x21 w np nc c).at_ lo hi) :
    LaneForm s i (fused3 s 0x21 w np nc c) where
  form := rfl
  major := (by decide : 0x21 ∈ floatMajors)
  sent := hi
  lanes := h

theorem laneForm_sign {i : Instr} {F : Fmt → Nat → Nat → Bool} (hf : (sign2 s w F).checks = true) (hi : viqWord i = some (0x22, w, 0))
    (h : ∀ lo hi, laneOf (issuedEntry s 0x22 w) lo hi (queued s 0x22 w) =
      (queued s 0x22 w).signWord (issuedEntry s 0x22 w) lo hi fun f x y => f.withSign x (F f x y)) : LaneForm s i (sign2 s w F) where
  form := rfl
  major := (by decide : 0x22 ∈ floatMajors)
  sent := hi
  lanes lo hi := (h lo hi).trans (signWord_issuedEntry hf F)

theorem laneForm_scaled {i : Instr} {dv : Bool} (hi : viqWord i = some (0x3B, w, 0))
    (h : ∀ lo hi, laneOf (issuedEntry s 0x3B w) lo hi (queued s 0x3B w) = elementRun s 0x3B w (scaled s w dv).at_ lo hi) :
    LaneForm s i (scaled s w dv) where
  form := rfl
  major := (by decide : 0x3B ∈ floatMajors)
  sent := hi
  lanes := h

theorem laneForm_of_floatForm {i : Instr} {f : EltForm} (h : floatForm s i = some f) (hw : i.wellFormed = true) (hc : f.checks = true) :
    LaneForm s i f := by
  obtain ⟨hn, -⟩ := (Bool.and_eq_true _ _).mp hw
  cases i
  case vfadd => cases h; exact laneForm_fp 0x20 (by decide) rfl fun _ _ => laneOf_add hn
  case vfsub => cases h; exact laneForm_fp 0x20 (by decide) rfl fun _ _ => laneOf_add hn
  case vfmul => cases h; exact laneForm_fp 0x20 (by decide) rfl fun _ _ => laneOf_add hn
  case vfmadd => cases h; exact laneForm_fused rfl fun _ _ => (laneOf_fused hn).trans (fmaWord_issuedEntry (by decide) (by decide) _ _)
  case vfmsub => cases h; exact laneForm_fused rfl fun _ _ => (laneOf_fused hn).trans (fmaWord_issuedEntry (by decide) (by decide) _ _)
  case vfnmadd => cases h; exact laneForm_fused rfl fun _ _ => (laneOf_fused hn).trans (fmaWord_issuedEntry (by decide) (by decide) _ _)
  case vfnmsub => cases h; exact laneForm_fused rfl fun _ _ => (laneOf_fused hn).trans (fmaWord_issuedEntry (by decide) (by decide) _ _)
  case vfmacc => cases h; exact laneForm_fused rfl fun _ _ => (laneOf_fused hn).trans (vfmacc_issuedEntry (by decide) (by decide))
  case vfmin => cases h; exact laneForm_fp 0x22 (by decide) rfl fun _ _ => laneOf_minMaxSign hn
  case vfmax => cases h; exact laneForm_fp 0x22 (by decide) rfl fun _ _ => laneOf_minMaxSign hn
  case vfabs => cases h; exact laneForm_sign hc rfl fun _ _ => laneOf_minMaxSign hn
  case vfneg => cases h; exact laneForm_sign hc rfl fun _ _ => laneOf_minMaxSign hn
  case vfsignC => cases h; exact laneForm_sign hc rfl fun _ _ => laneOf_minMaxSign hn
  case vfsignN => cases h; exact laneForm_sign hc rfl fun _ _ => laneOf_minMaxSign hn
  case vfsignX => cases h; exact laneForm_sign hc rfl fun _ _ => laneOf_minMaxSign hn
  case vdiv => cases h; exact laneForm_fp 0x3D (by decide) rfl fun _ _ => laneOf_divide hn
  case vrdiv => cases h; exact laneForm_fp 0x3D (by decide) rfl fun _ _ => laneOf_divide hn
  case vsqrt => cases h; exact laneForm_fp1 rfl fun _ _ => laneOf_divide hn
  case vrsq => cases h; exact laneForm_fp1 rfl fun _ _ => laneOf_divide hn
  case vscaleMul => cases h; exact laneForm_scaled rfl fun _ _ => (laneOf_scale hn).trans (scale_issuedEntry false)
  case vscaleDiv => cases h; exact laneForm_scaled rfl fun _ _ => (laneOf_scale hn).trans (scale_issuedEntry true)
  all_goals cases h

end Sys2Proof.Claims

end

section

/-! ## An element that traps

The lowest active element that raises an enabled flag stops its word: the groups below its own are written with their flags, and the word stays
at that group (05 R121, R123). -/

namespace Sys2Proof.Claims

open Sys2Proof.Machine

variable {s : State} {op : Nat} {w : VWord} {F : Nat → Elt} {hi m : Nat}

/-! ### Groups and elements -/

/-- The elements of a word and the groups that hold them, within a register (05 R105, R111). -/
structure Sized (wid b vl : Nat) : Prop where
  clusters : 0 < wid ∧ wid ≤ 4
  divides : b ∣ 512
  fits : vl * b ≤ wid * 32768

namespace Sized

variable {wid b vl : Nat} (h : Sized wid b vl)
include h

theorem bits_pos : 0 < b := Nat.pos_of_dvd_of_pos h.divides (by decide)

/-- Elements of a group fill its line. -/
theorem per_mul : perGroup wid b * b = wid * 512 := Nat.div_mul_cancel (h.divides.mul_left wid)

/-- The groups of a word hold all its elements. -/
theorem vl_le_groups : vl ≤ ceilDiv (vl * b) (wid * 512) * perGroup wid b := by
  have hline : 0 < wid * 512 := Nat.mul_pos h.clusters.1 (by decide)
  have hceil := Nat.lt_div_mul_add hline (a := vl * b + wid * 512 - 1)
  have hbits : vl * b ≤ ceilDiv (vl * b) (wid * 512) * perGroup wid b * b := by
    rw [Nat.mul_assoc, h.per_mul, ceilDiv]
    omega
  exact Nat.le_of_mul_le_mul_right hbits h.bits_pos

theorem group_bits (hm : m < vl) : m / perGroup wid b * (wid * 512) < vl * b := by
  calc m / perGroup wid b * (wid * 512) = m / perGroup wid b * perGroup wid b * b := by rw [Nat.mul_assoc, h.per_mul]
    _ ≤ m * b := Nat.mul_le_mul_right b (Nat.div_mul_le_self m _)
    _ < vl * b := Nat.mul_lt_mul_of_pos_right hm h.bits_pos

theorem div_lt_groups (hm : m < vl) : m / perGroup wid b < ceilDiv (vl * b) (wid * 512) := by
  have hline : 0 < wid * 512 := Nat.mul_pos h.clusters.1 (by decide)
  have hbits := h.group_bits hm
  refine (Nat.le_div_iff_mul_le hline).mpr ?_
  rw [Nat.succ_mul]
  omega

theorem groups_le : ceilDiv (vl * b) (wid * 512) ≤ 2 ^ 32 := by
  have hfits := h.fits
  obtain ⟨-, hw⟩ := h.clusters
  refine (Nat.div_le_self _ _).trans ?_
  omega

theorem done_bits (hm : m < vl) : m / perGroup wid b * perGroup wid b * b ≤ vregBits := by
  have hbits := h.group_bits hm
  have hfits := h.fits
  obtain ⟨-, hw⟩ := h.clusters
  rw [Nat.mul_assoc, h.per_mul, vregBits]
  omega

end Sized

theorem bits_dvd (l : Lanes) (fs : Nat) (e : EType) : l.bits fs e ∣ 512 := by
  unfold Lanes.bits
  split
  · split <;> decide
  · cases e <;> decide

theorem mem_floatMajors (hm : op ∈ floatMajors) : op = 0x20 ∨ op = 0x21 ∨ op = 0x22 ∨ op = 0x3B ∨ op = 0x3D := by
  simpa [floatMajors] using hm

/-- A floating-point word is bound by vl, has the groups of its own type, and writes v[vd] and no more. -/
theorem floatMajor_facts (hm : op ∈ floatMajors) (e : VEntry) (he : e.op = op) :
    boundsVl e = true ∧ (∀ t : State, t.laneGroups e = t.plainGroups e) ∧ writesOf e = [e.w.vd.toNat] ∧ e.groupOf = none ∧
      maskWrittenBy e = none ∧ shapesOf e = [] := by
  rcases mem_floatMajors hm with rfl | rfl | rfl | rfl | rfl
  all_goals simp [boundsVl, State.laneGroups, writesOf, VEntry.groupOf, maskWrittenBy, shapesOf, he]

theorem sized_of_ready (h : Ready s op w) (hm : op ∈ floatMajors) : Sized s.width (eb s w) s.th.fr.copy.vl := by
  have hwidth : 0 < s.width ∧ s.width ≤ 4 := by
    have hwc : 2 ^ s.th.bind.wc ≤ 2 ^ 2 := Nat.pow_le_pow_right (by decide) h.width
    exact ⟨Nat.pow_pos (by decide), hwc⟩
  have hissue := h.issues
  simp only [State.issueOk, (floatMajor_facts hm (entry s op w) rfl).1, Bool.and_eq_true, Bool.not_true, Bool.false_or, decide_eq_true_eq] at hissue
  obtain ⟨-, hvl⟩ := hissue
  exact ⟨hwidth, bits_dvd _ _ _, (Nat.le_div_iff_mul_le (Nat.pos_of_dvd_of_pos (bits_dvd _ _ _) (by decide))).mp hvl⟩

/-! ### The run that stops -/

/-- The view of the issued entry of a word. -/
def viewAt (s : State) (op : Nat) (w : VWord) : View := (queued s op w).view (issuedEntry s op w)

theorem act_viewAt (i : Nat) : (viewAt s op w).act i = active s w i := by
  have hv : (viewAt s op w).act i = (!decide (w.mask ≠ 0) || (vecGet s.th.ln.m w.mask.toNat 0).toNat.testBit i) := rfl
  rw [hv, active]
  by_cases h : w.mask = 0
  · simp [h]
  · simp

theorem fl_viewAt (F : Nat → Elt) (i : Nat) : (viewAt s op w).fl F i = if active s w i then (F i).2 else 0 := by rw [View.fl, act_viewAt]

theorem put_viewAt (F : Nat → Elt) (i : Nat) :
    (viewAt s op w).put F i = if active s w i then some (F i).1 else if vtMp s.th.ln.vtype then some 0 else none := by
  rw [View.put, act_viewAt]
  rfl

/-- Element m is the lowest active one that raises an enabled flag (05 R123). -/
structure Traps (s : State) (w : VWord) (F : Nat → Elt) (m : Nat) : Prop where
  below : m < s.th.fr.copy.vl
  act : active s w m = true
  raised : (F m).2 &&& s.th.ln.traps ≠ 0
  lowest : ∀ k < m, active s w k = true → (F k).2 &&& s.th.ln.traps = 0

/-- The stop at element m (05 R121, R123). -/
def trapStop (s : State) (w : VWord) (F : Nat → Elt) (m : Nat) : LStop :=
  { cause := .arithmetic, index := word m, group := m / perGroup s.width (eb s w), flags := (F m).2 &&& s.th.ln.traps }

theorem reach_of_traps (hz : Sized s.width (eb s w) s.th.fr.copy.vl) (h : Traps s w F m)
    (hhi : ceilDiv (s.th.fr.copy.vl * eb s w) (s.width * 512) ≤ hi) :
    (viewAt s op w).reach F 0 hi = (m / perGroup s.width (eb s w), some (trapStop s w F m)) := by
  obtain ⟨hbelow, hact, hraised, hlowest⟩ := h
  have hspan : (viewAt s op w).span 0 (min hi (viewAt s op w).groups) = (0, s.th.fr.copy.vl) := by
    have hv : (viewAt s op w).span 0 (min hi (viewAt s op w).groups) =
        (0 * perGroup s.width (eb s w), min (min hi (ceilDiv (s.th.fr.copy.vl * eb s w) (s.width * 512)) * perGroup s.width (eb s w))
          s.th.fr.copy.vl - 0 * perGroup s.width (eb s w)) := rfl
    rw [hv, Nat.min_eq_right hhi, Nat.min_eq_right hz.vl_le_groups, Nat.zero_mul, Nat.sub_zero]
  have htraps : (viewAt s op w).traps = s.th.ln.traps := rfl
  have hfirst : firstIx (fun i => decide ((viewAt s op w).fl F i &&& (viewAt s op w).traps ≠ 0)) 0 s.th.fr.copy.vl = some m := by
    refine firstIx_eq_some ?_ (fun k hk => ?_) hbelow
    · simp only [fl_viewAt, htraps, hact, if_true, decide_eq_true_eq]
      exact hraised
    · rw [fl_viewAt, htraps, decide_eq_false_iff_not, not_not]
      by_cases hk' : active s w k = true
      · rw [if_pos hk']
        exact hlowest k hk hk'
      · rw [if_neg hk']
        exact BitVec.zero_and
  have hflags : (viewAt s op w).fl F m = (F m).2 := by rw [fl_viewAt, if_pos hact]
  unfold View.reach
  simp only [hspan, hfirst, hflags]
  rfl

/-- The elements of the groups that are done (05 R121). -/
def doneElems (s : State) (w : VWord) (m : Nat) : Nat := m / perGroup s.width (eb s w) * perGroup s.width (eb s w)

theorem doneElems_le (m : Nat) : doneElems s w m ≤ m := Nat.div_mul_le_self m _

/-- The destination with the elements of the groups that are done. -/
def trapped (s : State) (op : Nat) (w : VWord) (F : Nat → Elt) (m : Nat) : VReg :=
  putElems (eb s w) 0 ((viewAt s op w).put F) (doneElems s w m) (vecGet s.th.ln.v w.vd.toNat 0)

/-- The lanes once element m has trapped (05 R120, R121, R123). -/
def trapLanes (s : State) (op : Nat) (w : VWord) (F : Nat → Elt) (m : Nat) : Lanes :=
  { s.th.ln with v := vecSet s.th.ln.v w.vd.toNat (trapped s op w F m),
                 vprog := vecSet s.th.ln.vprog w.vd.toNat (m / perGroup s.width (eb s w)),
                 flags := s.th.ln.flags ||| orFlags (fun i => if active s w i then (F i).2 else 0) 0 (doneElems s w m) }

/-- What the run of a word gives whose element m traps. -/
def trapOut (s : State) (op : Nat) (w : VWord) (F : Nat → Elt) (m : Nat) : LaneOut :=
  { st := (queued s op w).onLn fun _ => trapLanes s op w F m, reached := m / perGroup s.width (eb s w), stop := some (trapStop s w F m) }

theorem elementRun_of_traps (hz : Sized s.width (eb s w) s.th.fr.copy.vl) (h : Traps s w F m)
    (hhi : ceilDiv (s.th.fr.copy.vl * eb s w) (s.width * 512) ≤ hi) : elementRun s op w F 0 hi = trapOut s op w F m := by
  have hreach := reach_of_traps (op := op) hz h hhi
  have hspan : (viewAt s op w).span 0 (m / perGroup s.width (eb s w)) = (0, doneElems s w m) := by
    have hv : (viewAt s op w).span 0 (m / perGroup s.width (eb s w)) = (0 * perGroup s.width (eb s w),
      min (doneElems s w m) s.th.fr.copy.vl - 0 * perGroup s.width (eb s w)) := rfl
    rw [hv, Nat.min_eq_left ((doneElems_le m).trans h.below.le), Nat.zero_mul, Nat.sub_zero]
  have hgroups : ¬ (viewAt s op w).groups ≤ m / perGroup s.width (eb s w) := Nat.not_le.mpr (hz.div_lt_groups h.below)
  have hprog : progressOf (m / perGroup s.width (eb s w)) (viewAt s op w).groups 64 = m / perGroup s.width (eb s w) := if_neg hgroups
  have hwhole : (viewAt s op w).whole (m / perGroup s.width (eb s w)) = false := by
    rw [View.whole, decide_eq_false hgroups, Bool.and_false]
  have hflags : (viewAt s op w).fl F = fun i => if active s w i then (F i).2 else 0 := funext fun i => fl_viewAt F i
  have hrun : elementRun s op w F 0 hi = (queued s op w).eltWord (issuedEntry s op w) (viewAt s op w) F 0 hi := rfl
  rw [hrun, State.eltWord]
  simp only [hreach, hspan, hprog, hwhole, hflags]
  rfl

/-- What the groups that are done have written: each active element its result, and zero or nothing elsewhere (05 R115). -/
theorem elemAt_trapped (hz : Sized s.width (eb s w) s.th.fr.copy.vl) (hm : m < s.th.fr.copy.vl) (i : Nat) :
    elemAt (trapped s op w F m) (eb s w) i =
      if i < doneElems s w m ∧ active s w i then (F i).1 % 2 ^ eb s w else if i < doneElems s w m ∧ vtMp s.th.ln.vtype then 0
      else elemAt (vecGet s.th.ln.v w.vd.toNat 0) (eb s w) i := by
  have hbits : doneElems s w m * eb s w ≤ vregBits := hz.done_bits hm
  rw [trapped, elemAt_putElems _ _ _ _ hbits, put_viewAt]
  by_cases hi : i < doneElems s w m
  · cases active s w i <;> cases vtMp s.th.ln.vtype <;> simp [hi]
  · simp [hi]

/-! ### The word at the lanes -/

theorem streamAt_queued (h : Ready s op w) (r : Nat) : (queued s op w).streamAt r = none := by
  have hs : (vecGet (queued s op w).th.fab.fs (r - 56) .reset).bound = false := h.streams (r - 56)
  simp [State.streamAt, hs]

theorem streamsIn_queued (h : Ready s op w) (rs : List Nat) : (queued s op w).streamsIn rs = [] := by
  simp [State.streamsIn, streamAt_queued h]

/-- Nothing but its own effect stands before a word that is ready (02 R44; 11 R339; 14 R421). -/
theorem laneRun_of_ready (h : Ready s op w) (hm : op ∈ floatMajors) :
    laneRun (issuedEntry s op w) 0 hi (queued s op w) = laneOf (issuedEntry s op w) 0 hi (queued s op w) := by
  have hshapes := (floatMajor_facts hm (issuedEntry s op w) rfl).2.2.2.2.2
  have hstream : (queued s op w).streamOk (issuedEntry s op w) = true := by simp [State.streamOk, streamsIn_queued h]
  have hissue : (queued s op w).issueOk (issuedEntry s op w) = true := (issueOk_issuedEntry s op w).trans h.issues
  have hbad : (queued s op w).th.ln.bad = [] := h.marks
  have hmarked : (queued s op w).markedElem (issuedEntry s op w) 0 = none := by simp [State.markedElem, hbad]
  have hatM : (issuedEntry s op w).atM = false := rfl
  rw [laneRun, hissue, hstream, hatM, laneParts, hmarked]
  simp [lanePlain, streamsIn_queued h]

theorem vecSet_vecSet {α : Type} {n : Nat} (v : Vector α n) (i : Nat) (x y : α) : vecSet (vecSet v i x) i y = vecSet v i y := by
  simp [vecSet, Vector.setIfInBounds_setIfInBounds]

/-- The first group of a word that writes one register and no mask has issued: the register's progress is 0 (05 R120). -/
theorem zeroIndex_of_one {t : State} {e : VEntry} {d : Nat} (hwrites : writesOf e = [d]) (hgroup : e.groupOf = none)
    (hmask : maskWrittenBy e = none) (hstream : t.streamAt d = none) :
    t.zeroIndex e = t.onLn fun l => { l with vprog := vecSet l.vprog d 0 } := by
  simp [State.zeroIndex, hwrites, hgroup, hmask, hstream]

/-- The first group of the word has issued, so its destination shows the progress that its run has set. -/
theorem leftAt_of_traps (h : Ready s op w) (hm : op ∈ floatMajors) :
    leftAt (queued s op w) (queuedEntry s op w) (issuedEntry s op w) (trapOut s op w F m) (trapStop s w F m) =
      (queued s op w).onLn fun _ => trapLanes s op w F m := by
  obtain ⟨-, -, hwrites, hgroup, hmask, -⟩ := floatMajor_facts hm (issuedEntry s op w) rfl
  have hstream : (trapOut s op w F m).st.streamAt w.vd.toNat = none := streamAt_queued h _
  unfold leftAt
  split
  · next hfirst =>
    have hreached : m / perGroup s.width (eb s w) = 0 := by simp_all [trapOut]
    rw [zeroIndex_of_one hwrites hgroup hmask hstream]
    show (queued s op w).onLn (fun _ => { trapLanes s op w F m with
      vprog := vecSet (vecSet s.th.ln.vprog w.vd.toNat (m / perGroup s.width (eb s w))) w.vd.toNat 0 }) = _
    rw [vecSet_vecSet, trapLanes, hreached]
  · rfl

theorem allGroups_of_ready (h : Ready s op w) (hm : op ∈ floatMajors) :
    ceilDiv (s.th.fr.copy.vl * eb s w) (s.width * 512) ≤ allGroups (queued s op w) (queuedEntry s op w) := by
  have hgroups := (floatMajor_facts hm (typed (queued s op w) (queuedEntry s op w)) rfl).2.1 (queued s op w)
  have hslots : (queued s op w).slotGroups (typed (queued s op w) (queuedEntry s op w)) = ceilDiv (s.th.fr.copy.vl * eb s w) (512 * s.width) :=
    hgroups
  rw [allGroups, hslots, Nat.mul_comm 512]
  exact Nat.le_min.mpr ⟨le_rfl, (sized_of_ready h hm).groups_le⟩

/-- A word whose element m traps stays in the VIQ at m's group (05 R121, R123; 12 R349). -/
theorem stopsAt_of_traps (h : Ready s op w) (hm : op ∈ floatMajors) (hl : laneToScalar op w = false) (htr : Traps s w F m)
    (hrun : ∀ hi, laneOf (issuedEntry s op w) 0 hi (queued s op w) = elementRun s op w F 0 hi) :
    StopsAt s op w (m / perGroup s.width (eb s w)) .arithmetic (word m) ((F m).2 &&& s.th.ln.traps) (trapLanes s op w F m) (s.send op w) := by
  have hrun' := (laneRun_of_ready h hm).trans ((hrun _).trans (elementRun_of_traps (sized_of_ready h hm) htr (allGroups_of_ready h hm)))
  exact send_stopsAt ⟨h.idle, h.atU, h.alone, h.sent, h.samples, hl⟩ hrun' ⟨rfl, rfl, rfl⟩ ExcCause.noConfusion (leftAt_of_traps h hm)

/-- Settles O38: by the check that stops the word at its issue, and by the lowest element that traps. -/
theorem vectorFaults : Obligations.VectorFaults := by
  refine ⟨fun s i op w k hi hk hw hidle hu _ hc hok _ hs _ hno => ?_, fun s i f m hf hw hready hc hm hact hraised hlow => ?_⟩
  · subst hk
    exact vectorFaults_issue hi hw hidle hu hc hok hs hno
  · obtain ⟨hform, hmajor, hsent, hlanes⟩ := laneForm_of_floatForm hf hw hc
    have hbits : f.bits = eb s f.w := by rw [hform]; rfl
    have hact' : f.act = active s f.w := by rw [hform]; rfl
    have hzeros : f.zeros = vtMp s.th.ln.vtype := by rw [hform]; rfl
    have hn : f.n = s.th.fr.copy.vl := by rw [hform]; rfl
    rw [hact'] at hact hlow
    rw [hn] at hm
    simp only [hbits, hact', hzeros]
    cases sentAs_of_viqWord hsent hw with
    | plain hl hexec =>
      exact ⟨_, trapped s f.op f.w f.at_ m, hexec s, elemAt_trapped (sized_of_ready hready hmajor) hm,
        stopsAt_of_traps hready hmajor hl ⟨hm, hact, hraised, hlow⟩ (hlanes 0)⟩

end Sys2Proof.Claims

end

section

/-! ## The words that the spec writes out -/

namespace Sys2Proof.Claims

open Sys2Proof.Machine

/-- Settles O60, by running the decoder on each of the words. -/
theorem sampleWords : Obligations.SampleWords := by
  unfold Obligations.SampleWords
  decide +kernel

end Sys2Proof.Claims

end

section

/-! ## Scalar words

A scalar word of majors 0x00 to 0x0A and 0x20 to 0x24 ends in one shared operation, `State.resultFlags`, with the destination, the value and
the flags of its row of the tables (03 R57, R66 to R69, R75 to R79). At the front that operation writes them and goes on in sequence, or
raises Arithmetic for a flag whose trap is enabled (03 R75). -/

namespace Sys2Proof.Claims

open Sys2Proof.Machine

variable {s : State} {i : Instr} {d d' : RegNo} {x y z : Word} {fl : Flags}

/-! ### The shared end of the words -/

/-- A result without flags is one with the flags 0, which no trap meets. -/
theorem result_eq_resultFlags (d : RegNo) (x : Word) : s.result d x = s.resultFlags d x 0 := by
  have h : s.trapped 0 = 0 := BitVec.zero_and
  rw [State.resultFlags, if_neg (not_not.mpr h)]
  rfl

/-- Outside a lane a word goes on in sequence. -/
theorem advance_of_front (hc : s.th.fr.curLane = none) (n : Nat) : s.advance n = s.seqNext n := by
  rw [State.advance, hc]

theorem wrFlags_curLane (hc : s.th.fr.curLane = none) (d : RegNo) (x : Word) (fl : Flags) : (s.wrFlags d x fl).th.fr.curLane = none := by
  obtain ⟨h, e, -⟩ := wrFlags_form s d x fl hc
  rw [e]
  exact hc

theorem resultFlags_of_untrapped (hc : s.th.fr.curLane = none) (hf : fl &&& s.th.fr.copy.traps = 0) :
    s.resultFlags d x fl = (s.wrFlags d x fl).seqNext 4 := by
  have hf' : s.trapped fl = 0 := hf
  rw [State.resultFlags, if_neg (not_not.mpr hf'), advance_of_front (wrFlags_curLane hc d x fl)]

/-! ### The rows of the tables -/

/-- A row without flags. -/
theorem row_plain (h : some (d', y, (0 : Flags)) = some (d, x, fl)) (he : exec i s = .next (s.result d' y)) :
    exec i s = .next (s.resultFlags d x fl) := by
  cases h
  rw [he, result_eq_resultFlags]

/-- A row whose value the model chooses by a Boolean test and the table by the condition tested. -/
theorem row_test {p : Prop} [Decidable p] (h : some (d', if p then y else z, (0 : Flags)) = some (d, x, fl))
    (he : exec i s = .next (s.result d' (if decide p = true then y else z))) : exec i s = .next (s.resultFlags d x fl) :=
  row_plain h (by simpa only [decide_eq_true_eq] using he)

/-- A row of Table 3.4 that divides: a zero divisor raises DZ. -/
theorem row_divide {a b : RegNo} {f : Word → Word → Word}
    (h : (if s.rd b = 0 then some (d', y, fDZ) else some (d', z, 0)) = some (d, x, fl))
    (hf : f (s.rd a) (s.rd b) = if s.rd b = 0 then y else z) (he : exec i s = .next (s.divide f d' a b)) :
    exec i s = .next (s.resultFlags d x fl) := by
  rw [he, State.divide, hf]
  by_cases hb : s.rd b = 0
  · rw [if_pos hb] at h
    cases h
    rw [if_pos hb, if_pos hb]
  · rw [if_neg hb] at h
    cases h
    rw [if_neg hb, if_neg hb]

/-- The integer words (03 R66 to R69). -/
theorem exec_of_intResult (h : intResult s i = some (d, x, fl)) : exec i s = .next (s.resultFlags d x fl) := by
  cases i
  case add | sub | and | or | xor | andn | sll | srl | sra | ror | clz | ctz | cpop | mul | mulh | mulhn | addi | andi | ori | xori
      | slli | srli | srai | lui | addpc => exact row_plain h rfl
  case slt | sltn | min | max | minn | maxn | sltin => exact row_test h rfl
  case slti d a k =>
    have hk : (s.rd a).slt (k.signExtend 64) = decide ((s.rd a).toInt < k.toInt) := by
      rw [BitVec.slt, BitVec.toInt_signExtend_of_le (by decide)]
    exact row_test h (congrArg (fun b => Host.Outcome.next (s.result d (flagWord b))) hk)
  case div | divn | rem | remn => exact row_divide h rfl rfl
  all_goals cases h

/-- The fused word of the model is that of the statements, for the formats with a sign bit (03 R77). -/
theorem fmaReg_eq_fusedCode {f : Fmt} (hf : f.width - 1 = f.e + f.m) (d a b : RegNo) (m : BitVec 3) (np nc : Bool) :
    f.fmaReg m.toNat np nc (s.fpIn f a) (s.fpIn f b) (s.fpIn f d) = fusedCode f s d a b m np nc := by
  have hm : m.toNat = 0 ↔ m = 0 := (BitVec.toNat_eq (y := 0)).symm
  simp only [Fmt.fmaReg, fusedCode, hf, Bool.and_eq_true, decide_eq_true_eq, hm, and_assoc]
  rfl

theorem row_fused {f : Fmt} (hf : f.width - 1 = f.e + f.m) {d' a b : RegNo} {m : BitVec 3} {np nc : Bool}
    (h : fused f s d' a b m np nc = some (d, x, fl)) (he : exec i s = .next (s.fpFma f np nc m d' a b)) :
    exec i s = .next (s.resultFlags d x fl) := by
  cases h
  rw [he, State.fpFma, fmaReg_eq_fusedCode hf]
  rfl

/-- The floating-point words (03 R75 to R79). -/
theorem exec_of_fpResult (h : fpResult s i = some (d, x, fl)) : exec i s = .next (s.resultFlags d x fl) := by
  cases i
  case fmaddD | fmsubD | fnmaddD | fnmsubD | fmaddS | fmsubS | fnmaddS | fnmsubS => exact row_fused rfl h rfl
  case fkindD | fkindS => exact row_plain h rfl
  all_goals cases h
  all_goals rfl

/-! ### At the front -/

/-- A word that raises no enabled flag writes its result and goes on (03 R57, R60, R75). -/
theorem registerWord_of_resultFlags (he : exec i s = .next (s.resultFlags d x fl)) (hc : s.th.fr.curLane = none)
    (hf : fl &&& s.th.fr.copy.traps = 0) : ∃ t, exec i s = .next t ∧ RegisterWord s t d x fl :=
  ⟨_, he.trans (congrArg _ (resultFlags_of_untrapped hc hf)), registerWord_wrFlags d x fl hc⟩

theorem exec_of_intResult_untrapped (hc : s.th.fr.curLane = none) (hf : fl &&& s.th.fr.copy.traps = 0)
    (h : intResult s i = some (d, x, fl)) : exec i s = .next ((s.wrFlags d x fl).seqNext 4) := by
  rw [exec_of_intResult h, resultFlags_of_untrapped hc hf]

theorem exec_of_intResult_noFlags (hc : s.th.fr.curLane = none) (h : intResult s i = some (d, x, 0)) :
    exec i s = .next ((s.wr d x).seqNext 4) := by
  have hw : s.wrFlags d x 0 = s.wr d x := if_pos rfl
  rw [exec_of_intResult_untrapped (fl := 0) hc BitVec.zero_and h, hw]

theorem exec_of_fpResult_untrapped {r : Nat × Flags} (hc : s.th.fr.curLane = none) (h : fpResult s i = some (d, word r.1, r.2))
    (hf : untrapped s r) : exec i s = .next (written s d r) := by
  rw [exec_of_fpResult h, resultFlags_of_untrapped hc hf, written]

/-- Settles O8: every word ends in the shared operation with its row of the tables, and no flag that it raises has its trap enabled. -/
theorem scalarWords : Obligations.ScalarWords := by
  refine ⟨⟨fun i s d x fl h hc hf => registerWord_of_resultFlags (exec_of_intResult h) hc hf, fun s d a b hc => ?_⟩,
    fun i s d x fl h hc hf => registerWord_of_resultFlags (exec_of_fpResult h) hc hf, fun s d a b m hc => ?_⟩
  · refine ⟨?_, ?_, fun k => ?_, fun k => ?_, fun k => ?_, fun hb => ?_, fun hb hf => ?_⟩
    case refine_6 => and_intros <;> exact exec_of_intResult_noFlags hc (if_neg hb)
    case refine_7 => and_intros <;> exact exec_of_intResult_untrapped hc hf (if_pos hb)
    all_goals and_intros <;> exact exec_of_intResult_noFlags hc rfl
  · and_intros <;> exact exec_of_fpResult_untrapped hc rfl

end Sys2Proof.Claims
end

section

/-! ## Faults of scalar words

A fault of a scalar word at the front, with no older word left in the VIQ, is taken at the word's own address (03 R64, R75). The checks of a
scalar access come in the order of R71: what a DS page adds, the alignment, the translation, the place. -/

namespace Sys2Proof.Claims

open Sys2Proof.Machine

variable {s t : State} {i : Instr} {d a b : RegNo} {n pa : Nat} {va : Word} {acc : Access} {c : ExcCause}

/-! ### The loads and stores -/

theorem sext_eq_toInt (k x : Nat) : sext k x = (BitVec.ofNat k x).toInt := by
  have hk : x % 2 ^ k < 2 ^ (k - 1) ↔ 2 * (x % 2 ^ k) < 2 ^ k := by
    cases k with
    | zero => simp [Nat.mod_one]
    | succ k => rw [Nat.add_sub_cancel, pow_succ]; omega
  rw [sext, BitVec.toInt_eq_toNat_cond, BitVec.toNat_ofNat]
  simp only [hk]

theorem signBytes_eq (n x : Nat) : signBytes n x = (BitVec.ofNat (8 * n) x).signExtend 64 := by
  rw [signBytes, sext_eq_toInt]
  rfl

theorem exec_of_loadForm {ext : Nat → Word} {k : BitVec 13} (h : loadForm i = some (n, ext, d, a, k)) :
    exec i s = .next (s.load n ext d a k) := by
  have hsign : ∀ n, signBytes n = fun x => (BitVec.ofNat (8 * n) x).signExtend 64 := fun n => funext (signBytes_eq n)
  cases i
  case ldI8 => cases h; exact congrArg (fun f => Host.Outcome.next (s.load 1 f d a k)) (hsign 1)
  case ldI16 => cases h; exact congrArg (fun f => Host.Outcome.next (s.load 2 f d a k)) (hsign 2)
  case ldI32 => cases h; exact congrArg (fun f => Host.Outcome.next (s.load 4 f d a k)) (hsign 4)
  case ldI64 | ldN8 | ldN16 | ldN32 => cases h; rfl
  all_goals cases h

theorem exec_of_storeForm {k : BitVec 13} (h : storeForm i = some (n, a, b, k)) : exec i s = .next (s.store n a b k) := by
  cases i
  case stI8 | stI16 | stI32 | stI64 => cases h; rfl
  all_goals cases h

/-! ### A fault at the front -/

/-- With no older word in the VIQ the fault is taken at once, at the word's own address (03 R64). -/
theorem scalarFault_of_front (hc : s.th.fr.curLane = none) (ho : s.older = []) (c : ExcCause) (idx : Word) (fl : Flags) :
    s.scalarFault c idx fl = s.takeException c idx s.th.fr.spc s.th.fr.spc fl false := by
  rw [State.scalarFault, hc]
  show s.frontStop c idx fl = _
  rw [State.frontStop, settle_of_older_nil ho]

theorem resultFlags_of_trapped {x : Word} {fl : Flags} (hc : s.th.fr.curLane = none) (ho : s.older = []) (hf : fl &&& s.th.fr.copy.traps ≠ 0) :
    s.resultFlags d x fl = s.takeException .arithmetic noIndex s.th.fr.spc s.th.fr.spc (fl &&& s.th.fr.copy.traps) false := by
  have hf' : s.trapped fl ≠ 0 := hf
  rw [State.resultFlags, if_pos hf', scalarFault_of_front hc ho]
  rfl

/-- A cause at the front other than Skew has index "−" (03 R71). -/
theorem faultIndex_of_ne_skew (h : c ≠ .skew) : faultIndex c = noIndex := if_neg h

theorem load_of_error {ext : Nat → Word} {k : BitVec 13} (h : s.scalarCheck (s.rd a + k.signExtend 64) n .read = (t, .error c))
    (hc : c ≠ .preemption) : s.load n ext d a k = t.scalarFault c (faultIndex c) 0 := by
  rw [State.load, addOffset, h]
  cases c
  case preemption => exact absurd rfl hc
  all_goals rfl

theorem store_of_error {k : BitVec 13} (h : s.scalarCheck (s.rd a + k.signExtend 64) n .write = (t, .error c))
    (hc : c ≠ .preemption) : s.store n a b k = t.scalarFault c (faultIndex c) 0 := by
  rw [State.store, addOffset, h]
  cases c
  case preemption => exact absurd rfl hc
  all_goals rfl

/-! ### The checks of a scalar access -/

/-- Where no stepq is pending and no Skew is taken, a DS page adds at most Misaligned (11 R308). -/
theorem dsFirst_or_misaligned {cl : Nat} (hp : s.pending = false) (hs : s.skewed = false) (part : Bool) :
    s.dsFirst cl va n part acc = none ∨ s.dsFirst cl va n part acc = some .misaligned := by
  unfold State.dsFirst
  simp only [hp, hs]
  repeat' split
  all_goals simp_all

theorem scalarCheck_of_first (h : (s.dsFirst s.scalarCluster va n false acc).or (if va.toNat % n ≠ 0 then some .misaligned else none) = some c) :
    s.scalarCheck va n acc = (s, .error c) := by
  rw [State.scalarCheck, h]

theorem scalarCheck_of_misaligned (hp : s.pending = false) (hs : s.skewed = false) (hva : va.toNat % n ≠ 0) :
    s.scalarCheck va n acc = (s, .error .misaligned) := by
  apply scalarCheck_of_first
  rw [if_pos hva]
  rcases dsFirst_or_misaligned (va := va) (n := n) (acc := acc) (cl := s.scalarCluster) hp hs false with h | h <;> rw [h] <;> rfl

theorem scalarCheck_of_window {w : Window} (hp : s.pending = false) (hs : s.skewed = false) (hpage : s.pageSeen s.scalarCluster va = some (pa, 3))
    (hw : s.windowAt s.th.bind.ctx pa = some w) (hn : n ≠ w.elemBytes) : s.scalarCheck va n .write = (s, .error .misaligned) := by
  apply scalarCheck_of_first
  simp [State.dsFirst, hpage, hp, hs, hw, hn]

theorem scalarCheck_of_xlate_error (hva : va.toNat % n = 0) (hc : s.th.fr.curLane = none) (hd : s.dsFirst 0 va n false acc = none)
    (hx : s.xlate 0 va acc = .error c) : s.scalarCheck va n acc = (s, .error c) := by
  have hcl : s.scalarCluster = 0 := by rw [State.scalarCluster, hc]
  simp [State.scalarCheck, hcl, hd, hva, hx]

/-- Settles O9: a scalar fault at the front is taken at once, and the first check that fails gives its cause. -/
theorem scalarFaults : Obligations.ScalarFaults := by
  refine ⟨fun i s d x fl h hc ho hf => ?_, fun s va n acc hp hs hva => scalarCheck_of_misaligned hp hs hva,
    fun s va n pa w hp hs hpage hw hn => scalarCheck_of_window hp hs hpage hw hn,
    fun s va n acc c hva hc hd hx => scalarCheck_of_xlate_error hva hc hd hx,
    fun i s t n ext d a b k c hlane ho hfr hpre hskew h => ?_⟩
  · rw [h.elim exec_of_intResult exec_of_fpResult, resultFlags_of_trapped hc ho hf]
  · have hfault : t.scalarFault c (faultIndex c) 0 = t.takeException c noIndex s.th.fr.spc s.th.fr.spc 0 false := by
      rw [faultIndex_of_ne_skew hskew, scalarFault_of_front (hfr ▸ hlane) ho, hfr]
    rcases h with ⟨hi, hcheck⟩ | ⟨hi, hcheck⟩
    · rw [exec_of_loadForm hi, load_of_error hcheck hpre, hfault]
    · rw [exec_of_storeForm hi, store_of_error hcheck hpre, hfault]

end Sys2Proof.Claims

end

section

/-! ## What an access moves in the L2 and the banks behind it

An access of HBM touches its lines in the L2 and opens rows of banks (07 R168, R193, R194; log 54). `BanksMoved s t` says that t is s but for
those; every operation that reads or writes through the L2 gives it. -/

namespace Sys2Proof.Claims

open Sys2Proof.Machine

variable {s t u : State}

/-- The state t is s but for the L2 and the banks behind it. -/
def BanksMoved (s t : State) : Prop := t.onUnc (cold s) = s

theorem BanksMoved.refl (s : State) : BanksMoved s s := rfl

theorem BanksMoved.trans (h : BanksMoved s t) (h' : BanksMoved t u) : BanksMoved s u := by
  have hcold : u.onUnc (cold s) = (u.onUnc (cold t)).onUnc (cold s) := rfl
  rw [BanksMoved, hcold, show u.onUnc (cold t) = t from h']
  exact h

namespace BanksMoved

variable (h : BanksMoved s t)

include h

theorem eq_onUnc : t = s.onUnc fun _ => t.unc := by
  have hs : (t.onUnc (cold s)).onUnc (fun _ => t.unc) = s.onUnc fun _ => t.unc := by rw [show t.onUnc (cold s) = s from h]
  exact hs

theorem back : t.onUnc (cold s) = s := h

/-- What changes the L2 or the banks alone comes on top. -/
theorem onUnc {f : Uncore → Uncore} (hf : ∀ u, cold s (f u) = cold s u) : BanksMoved s (t.onUnc f) :=
  (congrArg (fun u => t.onUnc fun _ => u) (hf t.unc) : _).trans h.back

theorem mem : t.mem = s.mem := (congrArg State.mem h.back :)

theorem th : t.th = s.th := (congrArg State.th h.back :)

theorem poison : t.poison = s.poison := (congrArg State.poison h.back :)

theorem fmtWins : t.unc.fmtWins = s.unc.fmtWins := (congrArg (fun u => u.unc.fmtWins) h.back :)

theorem dcache : t.unc.dcache = s.unc.dcache := (congrArg (fun u => u.unc.dcache) h.back :)

end BanksMoved

theorem banksMoved_setBank (b : Bank) (s : State) : BanksMoved s (s.setBank b) := rfl

theorem banksMoved_hbmAccess (pa : Nat) (s : State) : BanksMoved s (s.hbmAccess pa) := by
  unfold State.hbmAccess
  simp only
  split <;> rfl

theorem banksMoved_l2Fill (pa : Nat) (s : State) : BanksMoved s (s.l2Fill pa) := by
  have hread := banksMoved_hbmAccess pa s
  unfold State.l2Fill
  simp only
  split
  · exact .refl s
  split
  · exact hread
  refine BanksMoved.onUnc ?_ fun _ => rfl
  split
  · split
    · exact hread.trans (banksMoved_hbmAccess _ _)
    · exact hread
  · exact hread

theorem banksMoved_l2Touch (stream : Bool) (a : Nat) (s : State) : BanksMoved s (s.l2Touch stream a) := by
  unfold State.l2Touch
  split
  · split
    · exact .refl s
    · exact banksMoved_hbmAccess a s
  · exact banksMoved_l2Fill a s

theorem banksMoved_l2Span (stream : Bool) (a n : Nat) (s : State) : BanksMoved s (s.l2Span stream a n) :=
  forUpTo_keeps (P := BanksMoved s) (fun _ u hu => hu.trans (banksMoved_l2Touch stream _ u)) _ _ (.refl s)

theorem banksMoved_l2Read (stream : Bool) (a n : Nat) (s : State) : BanksMoved s (s.l2Read stream a n) := by
  unfold State.l2Read
  split
  · exact .refl s
  · exact banksMoved_l2Span stream a n s

theorem banksMoved_l2Write (stream : Bool) (a n : Nat) (s : State) : BanksMoved s (s.l2Write stream a n) :=
  (banksMoved_l2Span stream a n s).onUnc fun _ => rfl

end Sys2Proof.Claims

end

section

/-! ## Scalar loads

A load at the front touches the data cache and the L2 and is then a word that writes its value to s[d] (03 R58, R70 to R72). With nothing of
the thread before plain HBM the value is the little-endian number of its bytes. -/

namespace Sys2Proof.Claims

open Sys2Proof.Machine

variable {s t : State} {i : Instr} {d a : RegNo} {n pa kind : Nat} {x : Word} {fl : Flags}

/-! ### Memory-side structures -/

theorem dcacheTouch_form (pa kind : Nat) (s : State) : ∃ u, s.dcacheTouch pa kind = s.onUnc (fun _ => u) ∧ u.fmtWins = s.unc.fmtWins := by
  have hread : ∀ a n, ∃ u, s.l2Read false a n = s.onUnc (fun _ => u) ∧ u.fmtWins = s.unc.fmtWins := fun a n =>
    ⟨_, (banksMoved_l2Read false a n s).eq_onUnc, (banksMoved_l2Read false a n s).fmtWins⟩
  unfold State.dcacheTouch
  split
  · split
    · exact ⟨s.unc, rfl, rfl⟩
    · obtain ⟨u, hu, hw⟩ := hread (pa / 256 * 256) 256
      simp only [hu]
      exact ⟨_, rfl, hw⟩
  · exact hread pa 1

/-- A word that writes a scalar register does so over other memory-side structures as well. -/
theorem RegisterWord.of_onUnc {f : Uncore → Uncore} (h : RegisterWord (s.onUnc f) t d x fl) : RegisterWord s { t with unc := s.unc } d x fl where
  result := h.result
  others := h.others
  pc := h.pc.trans (arrive_congr (s.onUnc f) s _ rfl rfl).1
  loops := h.loops.trans (arrive_congr (s.onUnc f) s _ rfl rfl).2
  flags := h.flags
  history := h.history
  frame := congrArg (fun u => { u with unc := s.unc }) h.frame

theorem RegisterWord.mem (h : RegisterWord s t d x fl) : t.mem = s.mem := (congrArg State.mem h.frame :)

theorem RegisterWord.unc (h : RegisterWord s t d x fl) : t.unc = s.unc := (congrArg State.unc h.frame :)

theorem byteAt_congr (hm : t.mem = s.mem) (hw : t.unc.fmtWins = s.unc.fmtWins) (c : Nat) : t.byteAt c = s.byteAt c := by
  rw [State.byteAt, State.byteAt, hm, hw]

/-! ### The word -/

/-- Nothing orders a load on an SO page before the strip when the strip is empty (07 R179, R187). -/
theorem soGate_of_entries_nil (h : s.th.st.entries = []) (kind : Nat) : s.soGate kind = s := by
  simp [State.soGate, h]

theorem soWaits_eq_false (h : kind = 1 → s.th.st.entries = []) : s.soWaits kind = false := by
  by_cases hk : kind = 1 <;> simp [State.soWaits, hk, h]

theorem load_of_ok {ext : Nat → Word} {k : BitVec 13} (hlane : s.th.fr.curLane = none)
    (hcheck : s.scalarCheck (s.rd a + k.signExtend 64) n .read = (s, .ok (pa, kind))) (hwait : s.loadWaits kind (s.rd a + k.signExtend 64) n = false)
    (hpoison : s.loadPoison pa kind n = false) (hso : kind = 1 → s.th.st.entries = []) :
    s.load n ext d a k = ((s.dcacheTouch pa kind).wr d (ext (s.loadValue pa kind n))).advance 4 := by
  have hgate : (if kind = 1 then s.soGate 1 else s) = s := by
    split
    · next hk => exact soGate_of_entries_nil (hso hk) 1
    · rfl
  simp only [State.load, addOffset, hcheck, hwait, hgate, soWaits_eq_false hso, hpoison, hlane]
  rfl

/-! ### The value -/

theorem memBytes_eq_map (m : Memory) (a n : Nat) : memBytes m a n = (List.range n).map fun i => memGet m (a + i) := by
  induction n generalizing a with
  | zero => rfl
  | succ n ih =>
    rw [memBytes, ih, List.range_succ_eq_map, List.map_cons, List.map_map]
    simp [Function.comp_def, Nat.add_assoc, Nat.add_comm 1]

theorem PlainHbm.target (h : PlainHbm s pa n) (ctx : Nat) {k : Nat} (hk : k < n) : s.target ctx (pa + k) = .cell (pa + k) := by
  obtain ⟨hlt, hbank, hw⟩ := h
  have hmod : (pa + k) % 2 ^ 38 < 2 ^ 37 := by omega
  have hhbm : pa + k < 2 ^ 40 := by omega
  have hview : viewHit (pa + k) s.unc.fmtWins ≠ .packed := by rw [hw, viewHit]; exact ViewHit.noConfusion
  rw [State.target, if_pos hhbm, if_pos ⟨hmod, hview⟩]

theorem PlainHbm.cellOf (h : PlainHbm s pa n) {k : Nat} (hk : k < n) : s.cellOf (pa + k) = pa + k := by
  rw [State.cellOf, h.target _ hk]

theorem frontByte_of_noBuffers (h : NoBuffers s) (kind pa : Nat) : s.frontByte kind pa = s.byteAt (s.cellOf pa) := by
  obtain ⟨hqueue, hentries, hparked, hcache⟩ := h
  simp [State.frontByte, State.cachedByte, hqueue, queueByte, Strip.seen, hentries, hparked, stripByte, cacheFind, hcache]

theorem loadValue_plain (hlane : s.th.fr.curLane = none) (hplain : PlainHbm s pa n) (hnone : NoBuffers s) (hn : 0 < n) (kind : Nat) :
    s.loadValue pa kind n = leNat (memBytes s.mem pa n) := by
  have htarget : s.target s.th.bind.ctx pa = .cell pa := hplain.target _ hn
  have hbyte : ∀ i ∈ List.range n, s.frontByte kind (pa + i) = memGet s.mem (pa + i) := fun i hi => by
    rw [frontByte_of_noBuffers hnone, hplain.cellOf (List.mem_range.mp hi), State.byteAt_plain hplain.2.2]
  rw [memBytes_eq_map, ← List.map_congr_left hbyte, State.loadValue, htarget, hlane]
  rfl

theorem loadForm_bytes_pos {ext : Nat → Word} {k : BitVec 13} (h : loadForm i = some (n, ext, d, a, k)) : 0 < n := by
  cases i
  case ldI8 | ldI16 | ldI32 | ldI64 | ldN8 | ldN16 | ldN32 => cases h; decide
  all_goals cases h

/-- Settles O11: once its checks have passed a load touches the caches and writes its value as any word of the front does. -/
theorem scalarLoads : Obligations.ScalarLoads := by
  intro i s n ext d a k pa kind hi hlane hcheck hwait hpoison hso
  obtain ⟨u, hu, hw⟩ := dcacheTouch_form pa kind s
  let v := ext (s.loadValue pa kind n)
  have hword : RegisterWord (s.onUnc fun _ => u) (((s.onUnc fun _ => u).wr d v).seqNext 4) d v 0 := registerWord_wr d v hlane
  refine ⟨((s.onUnc fun _ => u).wr d v).seqNext 4, ?_, hword.of_onUnc, fun c => byteAt_congr (s := s) hword.mem ((congrArg Uncore.fmtWins hword.unc).trans hw) c,
    fun hplain hnone => loadValue_plain hlane hplain hnone (loadForm_bytes_pos hi) kind⟩
  have hadv : ((s.onUnc fun _ => u).wr d v).advance 4 = ((s.onUnc fun _ => u).wr d v).seqNext 4 :=
    advance_of_front (wrFlags_curLane (s := s.onUnc fun _ => u) hlane d v 0) 4
  rw [exec_of_loadForm hi, load_of_ok hlane hcheck hwait hpoison hso, hu, hadv]

end Sys2Proof.Claims

end

section

/-! ## What a store performed at its home changes

A store changes memory, and beside it caches, the L2, banks and poison marks only; with no format window enabled its bytes are those written
(07 R168, R178, R192). -/

namespace Sys2Proof.Claims

open Sys2Proof.Machine

variable {s t u : State}

/-- The state t is s but for memory, the memory-side structures and the poison marks, with the same format windows. -/
structure OnlyMemory (s t : State) : Prop where
  rest : { t with mem := s.mem, unc := s.unc, poison := s.poison } = s
  fmtWins : t.unc.fmtWins = s.unc.fmtWins

namespace OnlyMemory

theorem refl (s : State) : OnlyMemory s s := ⟨rfl, rfl⟩

theorem trans (h : OnlyMemory s t) (h' : OnlyMemory t u) : OnlyMemory s u where
  rest := by
    have hover : ({ u with mem := s.mem, unc := s.unc, poison := s.poison } : State) =
      { ({ u with mem := t.mem, unc := t.unc, poison := t.poison } : State) with mem := s.mem, unc := s.unc, poison := s.poison } := rfl
    rw [hover, h'.rest]
    exact h.rest
  fmtWins := h'.fmtWins.trans h.fmtWins

theorem th (h : OnlyMemory s t) : t.th = s.th := (congrArg State.th h.rest :)

theorem copies (h : OnlyMemory s t) : t.copies = s.copies := (congrArg State.copies h.rest :)

theorem of_banksMoved (h : BanksMoved s t) : OnlyMemory s t where
  rest := (congrArg (fun v => { v with unc := s.unc, poison := s.poison, mem := s.mem }) h.back :)
  fmtWins := h.fmtWins

theorem eq_update (h : OnlyMemory s t) : t = { s with mem := t.mem, unc := t.unc, poison := t.poison } :=
  (congrArg (fun v => { v with mem := t.mem, unc := t.unc, poison := t.poison }) h.rest :)

end OnlyMemory

/-! ### The steps of a store -/

theorem onlyMemory_healGranule (lo n g : Nat) (s : State) : OnlyMemory s (s.healGranule lo n g) := by
  unfold State.healGranule
  repeat' split
  all_goals exact ⟨rfl, rfl⟩

theorem onlyMemory_heal (a n : Nat) (s : State) : OnlyMemory s (s.heal a n) := by
  have hstep : ∀ lo n g u, OnlyMemory s u → OnlyMemory s (u.healGranule lo n g) := fun lo n g u hu =>
    hu.trans (onlyMemory_healGranule lo n g u)
  unfold State.heal
  split
  · exact forUpTo_keeps (P := OnlyMemory s) (fun _ u hu => hstep _ _ _ u hu) _ _ (.refl s)
  · exact forUpTo_keeps (P := OnlyMemory s) (fun _ u hu => hstep _ _ _ u hu) _ _ (.refl s)
  · exact foldl_keeps (P := OnlyMemory s) (fun u _ hu => hstep _ _ _ u hu) _ _ (.refl s)

theorem forUpTo_eq_self {α : Type} {f : Nat → α → α} {a : α} : ∀ {n : Nat}, (∀ i < n, f i a = a) → forUpTo n f a = a
  | 0, _ => rfl
  | n + 1, h => by
    rw [forUpTo, forUpTo_eq_self fun i hi => h i (Nat.lt_succ_of_lt hi)]
    exact h n (Nat.lt_succ_self n)

theorem healGranule_of_clean {g : Nat} (lo n : Nat) (h : g ∉ s.poison) : s.healGranule lo n g = s :=
  if_neg (by simpa using h)

/-- A store to clean granules leaves the poison marks and their counters alone. -/
theorem heal_of_clean {a n : Nat} (hw : s.unc.fmtWins = []) (hn : 0 < n) (h : ∀ g, a / 32 ≤ g → g ≤ (a + n - 1) / 32 → g ∉ s.poison) :
    s.heal a n = s := by
  have hplain : s.heal a n = forUpTo ((a + n - 1) / 32 - a / 32 + 1) (fun i t => t.healGranule a n (a / 32 + i)) s := by
    simp [State.heal, hw, viewHit]
  rw [hplain]
  exact forUpTo_eq_self fun i hi => healGranule_of_clean a n (h _ (Nat.le_add_right _ _) (by omega))

theorem onlyMemory_dcacheStore (core a : Nat) (bs : List Byte) (s : State) : OnlyMemory s (s.dcacheStore core a bs) := ⟨rfl, rfl⟩

theorem onlyMemory_putByte (a : Nat) (b : Byte) (s : State) : OnlyMemory s (s.putByte a b) := by
  unfold State.putByte
  split <;> exact ⟨rfl, rfl⟩

theorem onlyMemory_putBytes (a : Nat) (bs : List Byte) (s : State) : OnlyMemory s (State.putBytes a bs s) := by
  induction bs generalizing a s with
  | nil => exact .refl s
  | cons b bs ih => exact (onlyMemory_putByte a b s).trans (ih (a + 1) (s.putByte a b))

theorem onlyMemory_performAs (stream : Bool) (a : Nat) (bs : List Byte) (s : State) : OnlyMemory s (s.performAs stream a bs) := by
  unfold State.performAs
  split
  · exact .refl s
  · exact ((OnlyMemory.of_banksMoved (banksMoved_l2Write stream a bs.length s)).trans (onlyMemory_heal a bs.length _)).trans
      (onlyMemory_putBytes a bs _)

theorem performAs_mem (hw : s.unc.fmtWins = []) (stream : Bool) (a : Nat) (bs : List Byte) :
    (s.performAs stream a bs).mem = memPut s.mem a bs := by
  unfold State.performAs
  split
  · next h => rw [List.isEmpty_iff.mp h, memPut]
  · have h := (OnlyMemory.of_banksMoved (banksMoved_l2Write stream a bs.length s)).trans (onlyMemory_heal a bs.length _)
    rw [State.putBytes_plain (h.fmtWins.trans hw), State.heal_mem, State.l2Write_mem]

/-- Bytes written to canonical memory are there, and no other byte has changed. -/
theorem bytesWritten_of_memPut {a : Nat} {bs : List Byte} (hok : s.MemOk) (h : t.mem = memPut s.mem a bs) : BytesWritten s t a bs where
  canonical := by rw [State.MemOk, h]; exact memPut_wf a bs hok
  written k hk := by rw [h]; exact memGet_memPut bs hok hk
  others b hb := by rw [h]; exact memGet_memPut_other bs hok hb

end Sys2Proof.Claims

end

section

/-! ## Scalar stores

A store at the front takes an entry of the store queue and leaves it at once unless an older word can still fault (03 R61, R63). With an empty
strip an entry leaves to its home: memory, a sync register, or the deferred write buffer of a window (10 R282; 11 R308). -/

namespace Sys2Proof.Claims

open Sys2Proof.Machine

variable {s t : State} {i : Instr} {a b : RegNo} {n pa kind : Nat} {e : StoreEntry} {w : Window}

/-! ### Going on in sequence after an update that the front does not see -/

/-- The front goes on as before an update that leaves its place, its registers and its level. -/
theorem seqNext_spc (hregs : t.th.fr.regs = s.th.fr.regs) (hm : t.th.fr.m = s.th.fr.m) (hspc : t.th.fr.spc = s.th.fr.spc) (k : Nat) :
    (t.seqNext k).th.fr.spc = (s.arrive (s.th.fr.spc + word k)).2 := by
  obtain ⟨h, z, e, -⟩ := seqNext_form t k
  rw [e, ← hspc]
  exact (arrive_congr t s _ hregs hm).1

/-- With no older word that can still fault, going on moves the front's place and its loop sets only. -/
theorem seqNext_of_safe (hu : s.unsafeOlder = false) (k : Nat) :
    ∃ z, s.seqNext k = s.onFr fun f => { f with regs := { f.regs with zc := z }, spc := (s.arrive (s.th.fr.spc + word k)).2 } := by
  obtain ⟨h, z, e, hh, -⟩ := seqNext_form s k
  refine ⟨z, ?_⟩
  rw [e, hh hu]
  simp [State.onFr]

/-! ### The store queue -/

/-- The entry that a store of the front takes (03 R61; 11 R308). -/
def storeEntry (s : State) (pa kind : Nat) (bs : List Byte) : StoreEntry :=
  ⟨pa, bs, kind, s.th.fr.seq, if kind = 3 then s.scalarOrder else 0, s.th.fr.m.lvl⟩

/-- The state with the store counted and its entry alone in the queue. -/
def enqueued (s : State) (pa kind : Nat) (bs : List Byte) : State :=
  (s.countDs kind).onFr fun f => { f with storeQ := [storeEntry s pa kind bs] }

theorem countDs_fr (kind : Nat) : (s.countDs kind).th.fr = s.th.fr := by
  unfold State.countDs
  split <;> rfl

theorem store_of_ok {k : BitVec 13} (hlane : s.th.fr.curLane = none) (hqueue : s.th.fr.storeQ = [])
    (hcheck : s.scalarCheck (s.rd a + k.signExtend 64) n .write = (s, .ok (pa, kind))) :
    s.store n a b k = (enqueued s pa kind (leBytes n (s.rd b).toNat)).leaveStores.advance 4 := by
  rw [State.store, addOffset, hcheck]
  simp [hlane, State.enqueue, enqueued, storeEntry, State.onFr, countDs_fr, hqueue]

theorem leaveStores_held (hq : s.th.fr.storeQ = [e]) (h : ∃ v ∈ s.inLanes, v.safe = false ∧ v.seq ≤ e.seq) : s.leaveStores = s := by
  obtain ⟨v, hv, hsafe, hseq⟩ := h
  have hall : s.inLanes.all (fun v => v.safe ∨ e.seq < v.seq) = false := by
    refine List.all_eq_false.mpr ⟨v, hv, ?_⟩
    simp [hsafe, hseq]
  simp only [State.leaveStores, hq, List.foldl_cons, List.foldl_nil, hall]
  simp

/-- With no strip entry, the only store leaves for its home once no older word can fault. -/
theorem leaveStores_leaves (hq : s.th.fr.storeQ = [e]) (hentries : s.th.st.entries = [])
    (h : ∀ v ∈ s.inLanes, v.safe = true ∨ e.seq < v.seq) :
    s.leaveStores = (s.leaveStore e).onFr fun f => { f with storeQ := [] } := by
  have hall : s.inLanes.all (fun v => v.safe ∨ e.seq < v.seq) = true := List.all_eq_true.mpr fun v hv => by simpa using h v hv
  have hgate : (if e.atM then s else s.soGate e.kind) = s := by
    rw [soGate_of_entries_nil hentries]
    exact ite_self s
  have hso : s.soWaits e.kind = false := soWaits_eq_false fun _ => hentries
  have hdrain : s.behindDrain e = false := by simp [State.behindDrain, Strip.draining, hentries]
  simp only [State.leaveStores, hq, List.foldl_cons, List.foldl_nil, hall]
  simp [State.leaveHead, hq, hgate, hso, hdrain]

/-- Where a store leaves for when no strip entry holds its bytes (03 R63; 10 R282; 11 R308). -/
theorem leaveStore_of_entries_nil (hentries : s.th.st.entries = []) :
    s.leaveStore e = match s.target s.th.bind.ctx e.pa with
      | .sync die k _ => s.syncPut die k (word (leNat e.bytes))
      | _ => if e.kind = 3 then s.dsWrite e.order e.pa e.bytes
        else (s.dcacheStore s.th.bind.coreNo e.pa e.bytes).perform (s.cellOf e.pa) e.bytes := by
  simp only [State.leaveStore, hentries, List.find?_nil, ite_self] <;> rfl

/-! ### The word -/

theorem enqueued_of_ne_window (h : kind ≠ 3) (bs : List Byte) :
    enqueued s pa kind bs = s.onFr fun f => { f with storeQ := [storeEntry s pa kind bs] } := by
  rw [enqueued, State.countDs, if_neg h]

theorem enqueued_fr (bs : List Byte) : (enqueued s pa kind bs).th.fr = { s.th.fr with storeQ := [storeEntry s pa kind bs] } := by
  rw [enqueued, State.onFr_th_fr, countDs_fr]

theorem enqueued_inLanes (bs : List Byte) : (enqueued s pa kind bs).inLanes = s.inLanes := by
  rw [State.inLanes, enqueued_fr, State.inLanes]

theorem enqueued_st (bs : List Byte) : (enqueued s pa kind bs).th.st = s.th.st := by
  unfold enqueued State.countDs
  split <;> rfl

theorem exec_store {k : BitVec 13} (hi : storeForm i = some (n, a, b, k)) (hlane : s.th.fr.curLane = none) (hqueue : s.th.fr.storeQ = [])
    (hcheck : s.scalarCheck (s.rd a + k.signExtend 64) n .write = (s, .ok (pa, kind))) :
    exec i s = .next ((enqueued s pa kind (leBytes n (s.rd b).toNat)).leaveStores.advance 4) := by
  rw [exec_of_storeForm hi, store_of_ok hlane hqueue hcheck]

/-- Behind a word that can still fault the store stays in the queue (03 R61). -/
theorem exec_store_held {k : BitVec 13} (hi : storeForm i = some (n, a, b, k)) (hlane : s.th.fr.curLane = none) (hqueue : s.th.fr.storeQ = [])
    (hcheck : s.scalarCheck (s.rd a + k.signExtend 64) n .write = (s, .ok (pa, kind)))
    (hheld : ∃ v ∈ s.inLanes, v.safe = false ∧ v.seq ≤ s.th.fr.seq) :
    ∃ t, exec i s = .next t ∧ t.mem = s.mem ∧ t.th.fr.storeQ = [storeEntry s pa kind (leBytes n (s.rd b).toNat)] := by
  let q := enqueued s pa kind (leBytes n (s.rd b).toNat)
  have hq : q.th.fr = { s.th.fr with storeQ := [storeEntry s pa kind (leBytes n (s.rd b).toNat)] } := enqueued_fr _
  have hleave : q.leaveStores = q := leaveStores_held (e := storeEntry s pa kind (leBytes n (s.rd b).toNat)) (by rw [hq]) (by rwa [enqueued_inLanes])
  have hmem : q.mem = s.mem := by
    show (s.countDs kind).mem = s.mem
    unfold State.countDs
    split <;> rfl
  obtain ⟨h, z, hnext, -⟩ := seqNext_form q 4
  refine ⟨q.seqNext 4, ?_, by rw [hnext]; exact hmem, by rw [hnext, State.onFr_th_fr, hq]⟩
  rw [exec_store hi hlane hqueue hcheck, hleave, advance_of_front (by rw [hq]; exact hlane)]

/-- The store has left as v says, and the front has gone on in sequence. -/
def StoreLeft (s v t : State) : Prop :=
  ∃ z, t = v.onFr fun f => { f with storeQ := [], regs := { f.regs with zc := z }, spc := (s.arrive (s.th.fr.spc + 4)).2 }

theorem exec_store_leaves {k : BitVec 13} {v : State} (hi : storeForm i = some (n, a, b, k)) (hlane : s.th.fr.curLane = none)
    (hqueue : s.th.fr.storeQ = []) (hentries : s.th.st.entries = [])
    (hcheck : s.scalarCheck (s.rd a + k.signExtend 64) n .write = (s, .ok (pa, kind))) (hu : s.unsafeOlder = false)
    (hv : (enqueued s pa kind (leBytes n (s.rd b).toNat)).leaveStore (storeEntry s pa kind (leBytes n (s.rd b).toNat)) = v)
    (hfr : v.th.fr = { s.th.fr with storeQ := [storeEntry s pa kind (leBytes n (s.rd b).toNat)] }) :
    ∃ t, exec i s = .next t ∧ StoreLeft s v t := by
  let v' := v.onFr fun f => { f with storeQ := [] }
  have hfr' : v'.th.fr = { s.th.fr with storeQ := [] } := by rw [State.onFr_th_fr, hfr]
  have hsafe : ∀ x ∈ s.inLanes, x.safe = true ∨ s.th.fr.seq < x.seq := fun x hx => by
    have hall := List.any_eq_false.mp hu x hx
    exact .inl (by simpa using hall)
  have hleave : (enqueued s pa kind (leBytes n (s.rd b).toNat)).leaveStores = v' := by
    rw [leaveStores_leaves (by rw [enqueued_fr]) (by rw [enqueued_st, hentries]) (by rwa [enqueued_inLanes]), hv]
  have hu' : v'.unsafeOlder = false := by
    rw [← hu, State.unsafeOlder, State.inLanes, hfr', State.unsafeOlder, State.inLanes]
  obtain ⟨z, hz⟩ := seqNext_of_safe hu' 4
  have hpc : (v'.arrive (v'.th.fr.spc + word 4)).2 = (s.arrive (s.th.fr.spc + 4)).2 := by
    rw [hfr']
    exact (arrive_congr v' s _ (by rw [hfr']) (by rw [hfr'])).1
  refine ⟨v'.seqNext 4, ?_, z, by rw [hz, hpc]; rfl⟩
  rw [exec_store hi hlane hqueue hcheck, hleave, advance_of_front (by rw [hfr']; exact hlane)]

/-! ### Where the store goes -/

theorem storeForm_bytes_pos {k : BitVec 13} (h : storeForm i = some (n, a, b, k)) : 0 < n := by
  cases i
  case stI8 | stI16 | stI32 | stI64 => cases h; decide
  all_goals cases h

/-- To memory: the bytes are at the cells of the store's address. -/
theorem leaveStore_cells {c : Nat} {bs : List Byte} (hentries : s.th.st.entries = []) (hkind : kind < 3) (hcells : Cells s pa bs.length c)
    (hlen : 0 < bs.length) : let v := (enqueued s pa kind bs).leaveStore (storeEntry s pa kind bs)
      OnlyMemory (enqueued s pa kind bs) v ∧ v.mem = memPut s.mem c bs := by
  obtain ⟨hw, hcell⟩ := hcells
  have hc : s.target s.th.bind.ctx pa = .cell c := hcell 0 hlen
  have hne : kind ≠ 3 := Nat.ne_of_lt hkind
  let q := enqueued s pa kind bs
  have hq : q = s.onFr fun f => { f with storeQ := [storeEntry s pa kind bs] } := enqueued_of_ne_window hne bs
  have htarget : q.target q.th.bind.ctx (storeEntry s pa kind bs).pa = .cell c := by rw [hq]; exact hc
  have hcellOf : q.cellOf (storeEntry s pa kind bs).pa = c := by rw [State.cellOf, htarget]
  have hqw : q.unc.fmtWins = [] := by rw [hq]; exact hw
  have hqmem : q.mem = s.mem := by rw [hq]; rfl
  have hleave : q.leaveStore (storeEntry s pa kind bs) = (q.dcacheStore q.th.bind.coreNo pa bs).perform c bs := by
    rw [leaveStore_of_entries_nil (by rw [enqueued_st]; exact hentries), htarget, hcellOf]
    exact if_neg hne
  have hcache := onlyMemory_dcacheStore q.th.bind.coreNo pa bs q
  show OnlyMemory q (q.leaveStore _) ∧ (q.leaveStore _).mem = _
  rw [hleave]
  refine ⟨hcache.trans (onlyMemory_performAs false c bs _), ?_⟩
  rw [← hqmem]
  exact performAs_mem (hcache.fmtWins.trans hqw) false c bs

/-- To a sync window: the home register takes the 8 bytes (10 R282). -/
theorem leaveStore_sync {die r o : Nat} {bs : List Byte} (hentries : s.th.st.entries = [])
    (ht : s.target s.th.bind.ctx pa = .sync die r o) :
    (enqueued s pa 1 bs).leaveStore (storeEntry s pa 1 bs) = (enqueued s pa 1 bs).syncPut die r (word (leNat bs)) := by
  have htarget : (enqueued s pa 1 bs).target (enqueued s pa 1 bs).th.bind.ctx (storeEntry s pa 1 bs).pa = .sync die r o := ht
  rw [leaveStore_of_entries_nil (by rw [enqueued_st]; exact hentries), htarget]
  rfl

theorem syncPut_home_same (die r : Nat) (x : Word) :
    (s.syncPut die r x).sync.home.find? (fun e => e.1 = die * 512 + r) = some (die * 512 + r, x) :=
  List.find?_cons_of_pos (by simp)

theorem syncPut_home_other (die r : Nat) (x : Word) {k : Nat} (hk : k ≠ die * 512 + r) :
    (s.syncPut die r x).sync.home.find? (fun e => e.1 = k) = s.sync.home.find? (fun e => e.1 = k) := by
  have hsame : ∀ e : Nat × Word, decide (decide (e.1 ≠ die * 512 + r) = true ∧ decide (e.1 = k) = true) = decide (e.1 = k) := fun e => by
    by_cases he : e.1 = k <;> simp [he, hk]
  simp only [State.syncPut]
  rw [List.find?_cons_of_neg (by simpa using hk.symm), List.find?_filter]
  exact congrArg (fun p => s.sync.home.find? p) (funext hsame)

/-- Only 8 bytes pass the checks of an access in a sync window (10 R282). -/
theorem bytes_of_scalarCheck_sync {va : Word} {acc : Access} {die r o : Nat} (h : s.scalarCheck va n acc = (s, .ok (pa, kind)))
    (ht : s.target s.th.bind.ctx pa = .sync die r o) : n = 8 := by
  unfold State.scalarCheck at h
  split at h
  · cases h
  split at h
  · cases h
  next x _ =>
  split at h
  · next hx =>
    by_contra hn
    simp [hn] at h
  · next hx =>
    split at h
    · cases h
    · cases h
      exact absurd ht (hx die r o)

/-- The deferred write of a store of the front to a window of its own package (11 R308). -/
def deferredWrite (s : State) (w : Window) (pa : Nat) (bs : List Byte) : DefEntry :=
  ⟨w.offsetOf pa / w.elemBytes, word (leNat bs), (s.dev.rank, s.th.bind.place), s.th.bind.launch, s.scalarOrder⟩

/-- The windows once w has taken an entry. -/
def windowsWith (s : State) (w : Window) (e : DefEntry) : List Window :=
  s.windows.map fun x => if x.ctx = w.ctx ∧ x.handle = w.handle then (w.enter e).1 else x

/-- To a DS page: the write is entered in the window that holds the address (11 R308). -/
theorem leaveStore_window {c : Nat} {bs : List Byte} (hentries : s.th.st.entries = []) (hcells : Cells s pa bs.length c)
    (hlen : 0 < bs.length) (hw : s.windowAt s.th.bind.ctx pa = some w) (hskew : s.skewed = false) :
    ∃ f, (enqueued s pa 3 bs).leaveStore (storeEntry s pa 3 bs) =
      ({ enqueued s pa 3 bs with windows := windowsWith s w (deferredWrite s w pa bs) } : State).onFab f := by
  have htarget : (enqueued s pa 3 bs).target (enqueued s pa 3 bs).th.bind.ctx (storeEntry s pa 3 bs).pa = .cell c := hcells.2 0 hlen
  have hctx : w.ctx = s.th.bind.ctx := by
    have hfound := List.find?_some hw
    simp only [decide_eq_true_eq] at hfound
    exact hfound.1
  have hnoskew : (enqueued s pa 3 bs).ctxSkewed w.ctx = false := by rw [hctx]; exact hskew
  have hat : (enqueued s pa 3 bs).windowAt (enqueued s pa 3 bs).th.bind.ctx pa = some w := hw
  refine ⟨fun f => { f with
    overflow := f.overflow || (w.enter (deferredWrite s w pa bs)).2.1
    conflict := f.conflict || (w.enter (deferredWrite s w pa bs)).2.2 }, ?_⟩
  rw [leaveStore_of_entries_nil (by rw [enqueued_st]; exact hentries), htarget]
  show (enqueued s pa 3 bs).dsWrite s.scalarOrder pa bs = _
  rw [State.dsWrite, hat]
  simp only [State.enterWrite, hnoskew]
  rfl

/-! ### The clauses -/

theorem stored_in_memory {c : Nat} {bs : List Byte} {v : State} (hq : s.th.fr.storeQ = []) (hw : s.unc.fmtWins = []) (hok : s.MemOk) (hkind : kind ≠ 3)
    (hv : OnlyMemory (enqueued s pa kind bs) v) (hmem : v.mem = memPut s.mem c bs) (ht : StoreLeft s v t) :
    t.bytesAt c bs.length = bs ∧ (∀ x, x < c ∨ c + bs.length ≤ x → t.byteAt x = s.byteAt x) ∧
      t.th.fr.spc = (s.arrive (s.th.fr.spc + 4)).2 ∧
      { t.onFr (fun f => { f with spc := s.th.fr.spc, regs := s.th.fr.regs }) with mem := s.mem, unc := s.unc, poison := s.poison } = s := by
  obtain ⟨z, ht⟩ := ht
  have htw : t.unc.fmtWins = [] := by
    rw [ht, State.onFr_unc, hv.fmtWins, enqueued_of_ne_window hkind]
    exact hw
  have htm : t.mem = memPut s.mem c bs := by rw [ht, State.onFr_mem, hmem]
  refine ⟨?_, fun x hx => ?_, by rw [ht]; rfl, ?_⟩
  · rw [State.bytesAt_plain htw, htm]
    exact memBytes_memPut c bs hok
  · rw [State.byteAt_plain htw, State.byteAt_plain hw, htm]
    exact memGet_memPut_other bs hok hx
  · have hs : s.onFr (fun f => { f with storeQ := [] }) = s := by rw [← hq]; rfl
    rw [ht, hv.eq_update, enqueued_of_ne_window hkind]
    exact hs

/-- Settles O12: the store stays in the queue, or leaves it for the place that its address names. -/
theorem scalarStores : Obligations.ScalarStores := by
  intro i s n a b k pa kind hi hlane ⟨hqueue, hentries, hparked, hcache⟩ hok hcheck
  have hlen : (leBytes n (s.rd b).toNat).length = n := Laws.length_leBytes n _
  have hpos : 0 < (leBytes n (s.rd b).toNat).length := hlen.symm ▸ storeForm_bytes_pos hi
  have hleaves := fun hu v hv hfr => exec_store_leaves (v := v) hi hlane hqueue hentries hcheck hu hv hfr
  refine ⟨exec_store_held hi hlane hqueue hcheck, fun c hcells hkind hu => ?_, fun die r o ht hkind hu => ?_, fun w hkind ⟨c, hcells⟩ hw hskew hu => ?_⟩
  · obtain ⟨hv, hmem⟩ := leaveStore_cells hentries hkind (hlen.symm ▸ hcells) hpos
    obtain ⟨t, ht, hleft⟩ := hleaves hu _ rfl (by rw [hv.th]; exact enqueued_fr _)
    have hstored := stored_in_memory hqueue hcells.1 hok (Nat.ne_of_lt hkind) hv hmem hleft
    rw [hlen] at hstored
    exact ⟨t, ht, hstored⟩
  · subst hkind
    have hn := bytes_of_scalarCheck_sync hcheck ht
    obtain ⟨t, hexec, z, rfl⟩ := hleaves hu _ (leaveStore_sync hentries ht) rfl
    have hword : word (leNat (leBytes n (s.rd b).toNat)) = s.rd b := by
      have hmod : (s.rd b).toNat % 256 ^ 8 = (s.rd b).toNat := Nat.mod_eq_of_lt (s.rd b).isLt
      rw [Laws.leNat_leBytes, hn, hmod, word, BitVec.ofNat_toNat, BitVec.setWidth_eq]
    exact ⟨_, hexec, hn, (syncPut_home_same die r _).trans (by rw [hword]), fun x hx => syncPut_home_other die r _ hx, rfl, rfl⟩
  · subst hkind
    obtain ⟨f, hf⟩ := leaveStore_window hentries (hlen.symm ▸ hcells) hpos hw hskew
    obtain ⟨t, hexec, z, rfl⟩ := hleaves hu _ hf rfl
    exact ⟨_, hexec, rfl, rfl, rfl, rfl⟩

end Sys2Proof.Claims

end

section

/-! ## The history buffer

Behind a word that can still fault each write of the front logs the value that it replaces; going back through the entries, youngest first,
gives the registers back (03 R60, R64). `Undone k s t` says so of the writes between s and t; each logged write keeps it. -/

namespace Sys2Proof.Claims

open Sys2Proof.Machine

variable {s t u : State} {k : Nat} {d : RegNo} {x : Word} {fl : Flags}

/-! ### Restoring -/

theorem vecSet_vecSet_vecGet {α : Type} {n : Nat} (v : Vector α n) (i : Nat) (x d : α) : vecSet (vecSet v i x) i (vecGet v i d) = v := by
  rw [vecSet_vecSet, vecSet, vecGet]
  refine Vector.ext fun j hj => ?_
  rw [Vector.getElem_setIfInBounds]
  split
  · next h =>
    subst h
    simp [hj]
  · rfl

theorem restoreFrom_append (k : Nat) (as bs : List HistEntry) (f : Front) :
    restoreFrom k (as ++ bs) f = restoreFrom k as (restoreFrom k bs f) := by
  induction as with
  | nil => rfl
  | cons a as ih => rw [List.cons_append, restoreFrom, ih, restoreFrom]

/-- Entries of words older than the point are not restored. -/
theorem restoreFrom_of_older {as : List HistEntry} (h : ∀ e ∈ as, e.seq < k) (f : Front) : restoreFrom k as f = f := by
  induction as with
  | nil => rfl
  | cons a as ih =>
    have ha : ¬ k ≤ a.seq := Nat.not_le.mpr (h a List.mem_cons_self)
    rw [restoreFrom, ih fun e he => h e (List.mem_cons_of_mem a he)]
    exact if_neg ha

theorem restoreFrom_single {e : HistEntry} (h : k ≤ e.seq) (f : Front) : restoreFrom k [e] f = f.restore e := if_pos h

/-! ### Writes that can be undone -/

/-- The writes between s and t are logged after what s has logged, from point k on, and their entries give s's registers back. -/
structure Undone (k : Nat) (s t : State) : Prop where
  logs : t.unsafeOlder = true
  place : k ≤ t.th.fr.seq
  lanes : t.th.ln = s.th.ln
  entries : ∃ h, t.th.fr.hist = s.th.fr.hist ++ h ∧ (∀ e ∈ h, k ≤ e.seq) ∧ ∀ f : Front, f.s = t.th.fr.s → f.regs = t.th.fr.regs →
    (restoreFrom k h f).s = s.th.fr.s ∧ (restoreFrom k h f).regs = s.th.fr.regs

namespace Undone

theorem refl (hu : s.unsafeOlder = true) (hk : k ≤ s.th.fr.seq) : Undone k s s :=
  ⟨hu, hk, rfl, [], by simp, by simp, fun _ hs hr => ⟨hs, hr⟩⟩

/-- One more logged write. -/
theorem logged (h : Undone k s t) (e : HistEntry) (g : Front → Front) (he : e.seq = t.th.fr.seq) (hm : (g t.th.fr).m = t.th.fr.m)
    (hv : (g t.th.fr).viq = t.th.fr.viq) (hseq : (g t.th.fr).seq = t.th.fr.seq) (hh : (g t.th.fr).hist = t.th.fr.hist ++ [e])
    (hback : ∀ f : Front, f.s = (g t.th.fr).s → f.regs = (g t.th.fr).regs → (f.restore e).s = t.th.fr.s ∧ (f.restore e).regs = t.th.fr.regs) :
    Undone k s (t.onFr g) where
  logs := (unsafeOlder_onFr t g hm hv).trans h.logs
  place := h.place.trans_eq hseq.symm
  lanes := h.lanes
  entries := by
    obtain ⟨as, has, hk, hr⟩ := h.entries
    have hke : k ≤ e.seq := h.place.trans_eq he.symm
    refine ⟨as ++ [e], ?_, ?_, fun f hs hregs => ?_⟩
    · rw [State.onFr_th_fr, hh, has, List.append_assoc]
    · simpa [or_imp, forall_and] using ⟨hk, hke⟩
    · rw [restoreFrom_append, restoreFrom_single hke]
      obtain ⟨hs', hregs'⟩ := hback f hs hregs
      exact hr _ hs' hregs'

theorem onSpc (h : Undone k s t) (a : Word) : Undone k s (t.onFr fun f => { f with spc := a }) :=
  ⟨h.logs, h.place, h.lanes, h.entries⟩

theorem setZc (h : Undone k s t) (n : Bool) (x : Word) : Undone k s (t.setZc n x) := by
  have hform : t.setZc n x = t.onFr fun f => { f with
      hist := f.hist ++ [{ reg := .zc n, old := t.zc n, flags := 0, seq := f.seq }]
      regs := { f.regs with zc := vecSet f.regs.zc (setIx n) x } } := by
    rw [State.setZc, State.log, if_pos h.logs]
    rfl
  rw [hform]
  refine h.logged _ _ rfl rfl rfl rfl rfl fun f hs hr => ⟨hs, ?_⟩
  simp only [Front.restore, hr, State.zc, vecSet_vecSet_vecGet]

/-- The front writes s[d] and raises flags. -/
theorem wrFlags (hu : s.unsafeOlder = true) (hk : k ≤ s.th.fr.seq) (hc : s.th.fr.curLane = none) : Undone k s (s.wrFlags d x fl) := by
  have h := refl hu hk
  by_cases hd : d = 0#6
  · by_cases hf : fl = 0#6
    · simpa [State.wrFlags, State.wr, hd, hf] using h
    · have hform : s.wrFlags d x fl = s.onFr fun f => { f with hist := f.hist ++ [{ reg := .flagsOnly, old := 0, flags := fl, seq := f.seq }] } := by
        simp [State.wrFlags, State.wr, State.raiseFlags, hd, hf, hu, hc]
      rw [hform]
      exact h.logged _ _ rfl rfl rfl rfl rfl fun f hs hr => ⟨hs, hr⟩
  · have hform : s.wrFlags d x fl = s.onFr fun f => { f with
        hist := f.hist ++ [{ reg := .s d, old := vecGet f.s d.toNat 0, flags := fl, seq := f.seq }]
        s := vecSet f.s d.toNat x } := by
      by_cases hf : fl = 0#6 <;> simp [State.wrFlags, State.wr, State.log, hd, hf, hu, hc, State.onFr]
    rw [hform]
    refine h.logged _ _ rfl rfl rfl rfl rfl fun f hs hr => ⟨?_, hr⟩
    simp only [Front.restore, hs, vecSet_vecSet_vecGet]

end Undone

/-- Arriving writes loop counts and nothing else (04 R88). -/
theorem arrive_induct {P : State → Prop} (hset : ∀ u n x, P u → P (u.setZc n x)) (h : P s) (a : Word) : P (s.arrive a).1 := by
  have hend : ∀ u n, P u → P (u.endOfBody n a).1 := fun u n hu => by
    unfold State.endOfBody
    simp only
    split <;> exact hset _ _ _ hu
  unfold State.arrive
  simp only
  split
  · exact h
  split
  · split
    · exact hend _ _ h
    split
    · exact hend _ _ (hend _ _ h)
    · exact hend _ _ h
  split
  · exact hend _ _ h
  · exact h

theorem Undone.seqNext (h : Undone k s t) (n : Nat) : Undone k s (t.seqNext n) :=
  (arrive_induct (fun _ _ _ hu => hu.setZc _ _) h _).onSpc _

/-- Unwinding gives back what the logged writes replaced. -/
theorem Undone.unwind (h : Undone k s t) (hold : ∀ e ∈ s.th.fr.hist, e.seq < k) (keep : List VEntry) :
    (t.unwind k keep).th.fr.s = s.th.fr.s ∧ (t.unwind k keep).th.fr.regs = s.th.fr.regs ∧
      (t.unwind k keep).th.fr.hist = s.th.fr.hist ∧ (t.unwind k keep).th.ln = s.th.ln := by
  obtain ⟨as, has, hk, hr⟩ := h.entries
  obtain ⟨hs, hregs⟩ := hr t.th.fr rfl rfl
  have hrestore : restoreFrom k t.th.fr.hist t.th.fr = restoreFrom k as t.th.fr := by
    rw [has, restoreFrom_append, restoreFrom_of_older hold]
  have hfilter : (t.th.fr.hist.filter fun e => decide (e.seq < k)) = s.th.fr.hist := by
    have h1 : (s.th.fr.hist.filter fun e => decide (e.seq < k)) = s.th.fr.hist := List.filter_eq_self.mpr fun e he => decide_eq_true (hold e he)
    have h2 : (as.filter fun e => decide (e.seq < k)) = [] := List.filter_eq_nil_iff.mpr fun e he => by simpa using hk e he
    rw [has, List.filter_append, h1, h2, List.append_nil]
  refine ⟨?_, ?_, hfilter, h.lanes⟩
  · exact (congrArg Front.s hrestore).trans hs
  · exact (congrArg Front.regs hrestore).trans hregs

/-- Settles O13: each write of the word and of the front's going on is logged, and the log gives back what they replaced. -/
theorem historyRestores : Obligations.HistoryRestores := by
  intro i s t d x fl k keep h hc hu hf hold hk he
  have hexec : exec i s = .next ((s.wrFlags d x fl).seqNext 4) := by
    rw [h.elim exec_of_intResult exec_of_fpResult, resultFlags_of_untrapped hc hf]
  cases hexec.symm.trans he
  exact ((Undone.wrFlags hu hk hc).seqNext 4).unwind hold keep

end Sys2Proof.Claims

end

section

/-! ## The drain of a strip entry

A drain performs the marked bytes of an entry at their home: the whole block in one store, or granule by granule, or byte by byte (07 R185,
R192). Whichever it is, a byte marked whole is written as the entry holds it, and a byte without a mark is left alone. -/

namespace Sys2Proof.Claims

open Sys2Proof.Machine

variable {s t : State} {e : StripEntry} {stream : Bool} {j k g : Nat}

/-! ### The bytes of an entry -/

/-- The mark of byte k of an entry: its two nibbles. -/
def markOf (e : StripEntry) (k : Nat) : Nat := field e.marks (2 * k) 2

/-- Byte k of an entry. -/
def byteOf (e : StripEntry) (k : Nat) : Byte := BitVec.ofNat 8 (field e.data (8 * k) 8)

theorem byteOf_toNat (e : StripEntry) (k : Nat) : (byteOf e k).toNat = field e.data (8 * k) 8 := by
  rw [byteOf, BitVec.toNat_ofNat, field, Nat.mod_mod]

theorem mem_marked {m : Nat × Nat × Byte} : m ∈ e.marked ↔ m.1 < 64 ∧ markOf e m.1 ≠ 0 ∧ m = (m.1, markOf e m.1, byteOf e m.1) := by
  simp only [StripEntry.marked, List.mem_filterMap, List.mem_range]
  constructor
  · rintro ⟨k, hk, h⟩
    split at h
    · cases h
    · next hm => cases h; exact ⟨hk, hm, rfl⟩
  · rintro ⟨hk, hm, he⟩
    exact ⟨m.1, hk, (if_neg hm).trans (congrArg some he.symm)⟩

/-- A byte marked whole replaces what it is written over. -/
theorem mixNibbles_whole (new old : Byte) : mixNibbles 3 new old = new := by
  have hand : new &&& 255#8 = new := BitVec.and_allOnes
  simpa [mixNibbles] using hand

/-- A filter that keeps all of a list only maps it. -/
theorem filterMap_of_length {α β : Type} {f : α → β} {p : α → Prop} [DecidablePred p] {l : List α}
    (h : (l.filterMap fun a => if p a then some (f a) else none).length = l.length) :
    (l.filterMap fun a => if p a then some (f a) else none) = l.map f ∧ ∀ a ∈ l, p a := by
  have hall : ∀ a ∈ l, p a := fun a ha => by
    have hsome := List.filterMap_length_eq_length.mp h a ha
    by_contra hp
    simp [hp] at hsome
  exact ⟨List.filterMap_eq_map_iff_forall_eq_some.mpr fun a ha => if_pos (hall a ha), hall⟩

/-- The bytes of granule g that are marked whole. -/
def wholeIn (e : StripEntry) (g : Nat) : List Byte :=
  e.marked.filterMap fun x => if x.1 / 32 = g ∧ x.2.1 = 3 then some x.2.2 else none

theorem wholeIn_eq (hg : g < 2) :
    wholeIn e g = (List.range 32).filterMap fun i => if markOf e (32 * g + i) = 3 then some (byteOf e (32 * g + i)) else none := by
  have hflat : wholeIn e g = (List.range (32 + 32)).filterMap fun k => if k / 32 = g ∧ markOf e k = 3 then some (byteOf e k) else none := by
    rw [wholeIn, StripEntry.marked, List.filterMap_filterMap]
    refine List.filterMap_congr fun k _ => ?_
    by_cases hk : markOf e k = 3
    · have hne : ¬ field e.marks (2 * k) 2 = 0 := fun h0 => by simp [markOf, h0] at hk
      simp only [if_neg hne]
      rfl
    · by_cases h0 : field e.marks (2 * k) 2 = 0
      · simp [h0, hk]
      · simp only [if_neg h0]
        rfl
  rw [hflat, List.range_add, List.filterMap_append, List.filterMap_map]
  have hlow : ∀ i ∈ List.range 32, i / 32 = 0 := fun i hi => Nat.div_eq_of_lt (List.mem_range.mp hi)
  have hhigh : ∀ i ∈ List.range 32, (32 + i) / 32 = 1 := fun i hi => by have := List.mem_range.mp hi; omega
  obtain rfl | rfl : g = 0 ∨ g = 1 := by omega
  · have hnone : (List.range 32).filterMap ((fun k => if k / 32 = 0 ∧ markOf e k = 3 then some (byteOf e k) else none) ∘ fun i => 32 + i) = [] :=
      List.filterMap_eq_nil_iff.mpr fun i _ => by simp
    rw [hnone, List.append_nil]
    exact List.filterMap_congr fun i hi => by simp [hlow i hi]
  · have hnone : (List.range 32).filterMap (fun k => if k / 32 = 1 ∧ markOf e k = 3 then some (byteOf e k) else none) = [] :=
      List.filterMap_eq_nil_iff.mpr fun i hi => by simp [hlow i hi]
    rw [hnone, List.nil_append]
    exact List.filterMap_congr fun i hi => by simp [hhigh i hi]

/-- A granule that is marked whole is there whole, in order. -/
theorem wholeIn_of_length (hg : g < 2) (h : (wholeIn e g).length = 32) :
    wholeIn e g = (List.range 32).map (fun i => byteOf e (32 * g + i)) ∧ ∀ i < 32, markOf e (32 * g + i) = 3 := by
  rw [wholeIn_eq hg] at h ⊢
  obtain ⟨hmap, hall⟩ := filterMap_of_length (h.trans List.length_range.symm)
  exact ⟨hmap, fun i hi => hall i (List.mem_range.mpr hi)⟩

/-! ### One store of a drain -/

/-- The store that a drain makes for a marked byte, in the state it has come to. -/
def drainStep (e : StripEntry) (stream : Bool) (t : State) (m : Nat × Nat × Byte) : State :=
  if (wholeIn e (m.1 / 32)).length = 32 then
    if m.1 % 32 = 0 then t.performAs stream (t.cellOf (e.block * 64 + m.1)) (wholeIn e (m.1 / 32)) else t
  else t.performAs stream (t.cellOf (e.block * 64 + m.1)) [mixNibbles m.2.1 m.2.2 (t.byteAt (t.cellOf (e.block * 64 + m.1)))]

/-- How many bytes that store has. -/
def drainWidth (e : StripEntry) (m : Nat × Nat × Byte) : Nat :=
  if (wholeIn e (m.1 / 32)).length = 32 then (if m.1 % 32 = 0 then 32 else 0) else 1

/-- The store writes marked bytes of the entry at their places, and those marked whole as the entry holds them. -/
structure DrainStore (e : StripEntry) (t u : State) (m : Nat × Nat × Byte) (bs : List Byte) : Prop where
  only : OnlyMemory t u
  mem : u.mem = memPut t.mem (e.block * 64 + m.1) bs
  length : bs.length = drainWidth e m
  inside : m.1 + bs.length ≤ 64
  marked : ∀ i < bs.length, markOf e (m.1 + i) ≠ 0
  whole : ∀ i < bs.length, markOf e (m.1 + i) = 3 → bs.getD i blank = byteOf e (m.1 + i)

theorem PlainHbm.onlyMemory {pa n : Nat} (h : PlainHbm s pa n) (ho : OnlyMemory s t) : PlainHbm t pa n :=
  ⟨h.1, h.2.1, ho.fmtWins.trans h.2.2⟩

theorem drainStore_drainStep (hp : PlainHbm t (e.block * 64) 64) {m : Nat × Nat × Byte} (hm : m ∈ e.marked) (stream : Bool) :
    ∃ bs, DrainStore e t (drainStep e stream t m) m bs := by
  obtain ⟨hk, hne, hm⟩ := mem_marked.mp hm
  have hcell : t.cellOf (e.block * 64 + m.1) = e.block * 64 + m.1 := hp.cellOf hk
  have hw : t.unc.fmtWins = [] := hp.2.2
  unfold drainStep
  rw [hcell]
  by_cases hwhole : (wholeIn e (m.1 / 32)).length = 32
  · rw [if_pos hwhole]
    obtain ⟨hbytes, hmarks⟩ := wholeIn_of_length (by omega) hwhole
    by_cases hfirst : m.1 % 32 = 0
    · have hat : 32 * (m.1 / 32) = m.1 := by omega
      rw [hat] at hbytes hmarks
      rw [if_pos hfirst]
      refine ⟨_, onlyMemory_performAs _ _ _ _, performAs_mem hw _ _ _, by rw [drainWidth, if_pos hwhole, if_pos hfirst, hwhole], by omega,
        fun i hi => ?_, fun i hi _ => ?_⟩
      · rw [hmarks i (hwhole ▸ hi)]
        decide
      · rw [hwhole] at hi
        rw [hbytes, List.getD_eq_getElem _ _ (by simpa using hi), List.getElem_map, List.getElem_range]
    · rw [if_neg hfirst]
      exact ⟨[], .refl t, rfl, by rw [drainWidth, if_pos hwhole, if_neg hfirst]; rfl, hk.le, by simp, by simp⟩
  · rw [if_neg hwhole]
    refine ⟨_, onlyMemory_performAs _ _ _ _, performAs_mem hw _ _ _, by rw [drainWidth, if_neg hwhole]; rfl, by simp; omega,
      fun i hi => ?_, fun i hi h3 => ?_⟩
    · obtain rfl : i = 0 := by simpa using hi
      exact hne
    · obtain rfl : i = 0 := by simpa using hi
      have hmark : m.2.1 = 3 := by rw [hm]; exact h3
      have hbyte : m.2.2 = byteOf e m.1 := by rw [hm]
      rw [hmark, mixNibbles_whole, hbyte]
      rfl

/-! ### The drain -/

/-- The drain of an entry has come from s to t: bytes without a mark and bytes outside the block are as they were. -/
structure Drains (e : StripEntry) (s t : State) : Prop where
  only : OnlyMemory s t
  canonical : t.MemOk
  unmarked : ∀ j < 64, markOf e j = 0 → memGet t.mem (e.block * 64 + j) = memGet s.mem (e.block * 64 + j)
  others : ∀ a, a < e.block * 64 ∨ e.block * 64 + 64 ≤ a → memGet t.mem a = memGet s.mem a

namespace Drains

variable {u : State} {m : Nat × Nat × Byte} {bs : List Byte}

theorem refl (h : s.MemOk) : Drains e s s := ⟨.refl s, h, fun _ _ _ => rfl, fun _ _ => rfl⟩

theorem store (h : Drains e s t) (hs : DrainStore e t u m bs) : Drains e s u where
  only := h.only.trans hs.only
  canonical := by rw [State.MemOk, hs.mem]; exact memPut_wf _ _ h.canonical
  unmarked j hj h0 := by
    have hout : e.block * 64 + j < e.block * 64 + m.1 ∨ e.block * 64 + m.1 + bs.length ≤ e.block * 64 + j := by
      by_contra hin
      refine hs.marked (j - m.1) (by omega) ?_
      rwa [Nat.add_sub_cancel' (by omega)]
    rw [hs.mem, memGet_memPut_other bs h.canonical hout, h.unmarked j hj h0]
  others a ha := by
    have hin := hs.inside
    rw [hs.mem, memGet_memPut_other bs h.canonical (by omega), h.others a ha]

end Drains

/-- A byte marked whole stays as the entry holds it, and is so once the store that covers it is made. -/
theorem DrainStore.byte {u : State} {m : Nat × Nat × Byte} {bs : List Byte} (hs : DrainStore e t u m bs) (hok : t.MemOk) (h3 : markOf e j = 3)
    (h : memGet t.mem (e.block * 64 + j) = byteOf e j ∨ (m.1 ≤ j ∧ j < m.1 + drainWidth e m)) :
    memGet u.mem (e.block * 64 + j) = byteOf e j := by
  rw [hs.mem]
  by_cases hin : m.1 ≤ j ∧ j < m.1 + bs.length
  · have hi : j - m.1 < bs.length := by omega
    have hj : m.1 + (j - m.1) = j := Nat.add_sub_cancel' hin.1
    have hput := memGet_memPut (a := e.block * 64 + m.1) bs hok hi
    have hwhole := hs.whole (j - m.1) hi (by rw [hj]; exact h3)
    rw [Nat.add_assoc, hj] at hput
    rw [hput, hwhole, hj]
  · have hbefore := h.resolve_right (by rw [← hs.length]; exact hin)
    rw [memGet_memPut_other bs hok (by omega), hbefore]

theorem drains_foldl (hp : PlainHbm s (e.block * 64) 64) (stream : Bool) (l : List (Nat × Nat × Byte)) :
    ∀ t, (∀ m ∈ l, m ∈ e.marked) → Drains e s t → Drains e s (l.foldl (drainStep e stream) t) ∧
      ∀ j < 64, markOf e j = 3 → (memGet t.mem (e.block * 64 + j) = byteOf e j ∨ ∃ m ∈ l, m.1 ≤ j ∧ j < m.1 + drainWidth e m) →
        memGet (l.foldl (drainStep e stream) t).mem (e.block * 64 + j) = byteOf e j := by
  induction l with
  | nil => exact fun t _ h => ⟨h, fun j _ _ hj => hj.resolve_right (by simp)⟩
  | cons m l ih =>
    intro t hl h
    obtain ⟨bs, hs⟩ := drainStore_drainStep (hp.onlyMemory h.only) (hl m List.mem_cons_self) stream
    obtain ⟨hd, hbytes⟩ := ih (drainStep e stream t m) (fun x hx => hl x (List.mem_cons_of_mem m hx)) (h.store hs)
    refine ⟨hd, fun j hj h3 hcase => hbytes j hj h3 ?_⟩
    rcases hcase with hbyte | ⟨x, hx, hcover⟩
    · exact .inl (hs.byte h.canonical h3 (.inl hbyte))
    · rcases List.mem_cons.mp hx with rfl | hx
      · exact .inl (hs.byte h.canonical h3 (.inr hcover))
      · exact .inr ⟨x, hx, hcover⟩

/-- Every byte marked whole has a store of the drain that covers it. -/
theorem exists_drain_of_whole (hj : j < 64) (h3 : markOf e j = 3) : ∃ m ∈ e.marked, m.1 ≤ j ∧ j < m.1 + drainWidth e m := by
  by_cases hwhole : (wholeIn e (j / 32)).length = 32
  · obtain ⟨-, hmarks⟩ := wholeIn_of_length (by omega) hwhole
    have h0 : markOf e (32 * (j / 32)) = 3 := hmarks 0 (by decide)
    refine ⟨(32 * (j / 32), markOf e (32 * (j / 32)), byteOf e (32 * (j / 32))), mem_marked.mpr ⟨by simp; omega, by simp [h0], rfl⟩, by simp; omega, ?_⟩
    have hg : 32 * (j / 32) / 32 = j / 32 := by omega
    rw [drainWidth, hg, if_pos hwhole, if_pos (Nat.mul_mod_right 32 _)]
    simp only
    omega
  · refine ⟨(j, markOf e j, byteOf e j), mem_marked.mpr ⟨hj, by simp [h3], rfl⟩, le_rfl, ?_⟩
    rw [drainWidth, if_neg hwhole]
    exact Nat.lt_succ_self j

/-- A block that is marked whole is performed in one store. -/
theorem drains_whole_block (hp : PlainHbm s (e.block * 64) 64) (hok : s.MemOk) (stream : Bool) (hlen : e.marked.length = 64) :
    let t := s.performAs stream (s.cellOf (e.block * 64)) (e.marked.map (·.2.2))
    Drains e s t ∧ ∀ j < 64, memGet t.mem (e.block * 64 + j) = byteOf e j := by
  have hbytes : e.marked = (List.range 64).map fun k => (k, markOf e k, byteOf e k) := by
    have hform : e.marked = (List.range 64).filterMap fun k => if markOf e k ≠ 0 then some (k, markOf e k, byteOf e k) else none :=
      List.filterMap_congr fun k _ => (ite_not (markOf e k = 0) _ _).symm
    rw [hform] at hlen ⊢
    exact (filterMap_of_length (hlen.trans List.length_range.symm)).1
  have hcell : s.cellOf (e.block * 64) = e.block * 64 := hp.cellOf (k := 0) (by decide)
  have hmap : e.marked.map (·.2.2) = (List.range 64).map (byteOf e) := by rw [hbytes, List.map_map]; rfl
  have hmarks : ∀ j < 64, markOf e j ≠ 0 := fun j hj => by
    have hin : (j, markOf e j, byteOf e j) ∈ e.marked := by rw [hbytes]; exact List.mem_map_of_mem (List.mem_range.mpr hj)
    exact (mem_marked.mp hin).2.1
  have hw := hp.2.2
  intro t
  have hmem : t.mem = memPut s.mem (e.block * 64) ((List.range 64).map (byteOf e)) := by
    show (s.performAs stream _ _).mem = _
    rw [performAs_mem hw, hcell, hmap]
  refine ⟨⟨onlyMemory_performAs _ _ _ _, ?_, fun j hj h0 => absurd h0 (hmarks j hj), fun a ha => ?_⟩, fun j hj => ?_⟩
  · rw [State.MemOk, hmem]
    exact memPut_wf _ _ hok
  · rw [hmem, memGet_memPut_other _ hok (by simpa using ha)]
  · rw [hmem, memGet_memPut _ hok (by simpa using hj), List.getD_eq_getElem _ _ (by simpa using hj), List.getElem_map, List.getElem_range]

/-- The drain of an entry's marked bytes in plain HBM (07 R185). -/
theorem drains_performMarked (hp : PlainHbm s (e.block * 64) 64) (hok : s.MemOk) (stream : Bool) :
    Drains e s (s.performMarked stream e.block e.marked) ∧
      ∀ j < 64, markOf e j = 3 → memGet (s.performMarked stream e.block e.marked).mem (e.block * 64 + j) = byteOf e j := by
  unfold State.performMarked
  split
  · next h =>
    obtain ⟨hd, hb⟩ := drains_whole_block hp hok stream h.1
    exact ⟨hd, fun j hj _ => hb j hj⟩
  · obtain ⟨hd, hb⟩ := drains_foldl hp stream e.marked s (fun _ hm => hm) (.refl hok)
    exact ⟨hd, fun j hj h3 => hb j hj h3 (.inr (exists_drain_of_whole hj h3))⟩

theorem Drains.of_onlyMemory {u : State} (ho : OnlyMemory s t) (hm : t.mem = s.mem) (h : Drains e t u) : Drains e s u where
  only := ho.trans h.only
  canonical := h.canonical
  unmarked j hj h0 := by rw [h.unmarked j hj h0, hm]
  others a ha := by rw [h.others a ha, hm]

/-- The drain of an entry of a plain page, the core's data cache taking the bytes as well (03 R58; 07 R185). -/
theorem drains_drainEntry (hkind : e.kind = 0) (hremote : e.remote = none) (hp : PlainHbm s (e.block * 64) 64) (hok : s.MemOk) :
    Drains e s (s.drainEntry e) ∧ ∀ j < 64, markOf e j = 3 → memGet (s.drainEntry e).mem (e.block * 64 + j) = byteOf e j := by
  have hlow : e.block * 64 < 2 ^ 40 := by have := hp.1; omega
  have hshared : inShared (e.block * 64) = false := by
    rw [inShared, decide_eq_false (Nat.not_le.mpr hlow), Bool.false_and]
  let cached := e.marked.foldl (fun t m => t.dcacheStore t.th.bind.coreNo (e.block * 64 + m.1)
    [mixNibbles m.2.1 m.2.2 (t.byteAt (t.cellOf (e.block * 64 + m.1)))]) s
  obtain ⟨ho, hm⟩ : OnlyMemory s cached ∧ cached.mem = s.mem :=
    foldl_keeps (P := fun t : State => OnlyMemory s t ∧ t.mem = s.mem)
      (fun t m h => ⟨h.1.trans (onlyMemory_dcacheStore _ _ _ t), h.2⟩) _ _ ⟨.refl s, rfl⟩
  have hdrain : s.drainEntry e = cached.performMarked e.stream e.block e.marked := by
    simp only [State.drainEntry, hremote, hkind, hshared]
    rfl
  rw [hdrain]
  obtain ⟨hd, hb⟩ := drains_performMarked (hp.onlyMemory ho) (show Memory.wf cached.mem = true by rw [hm]; exact hok) e.stream
  exact ⟨hd.of_onlyMemory ho hm, hb⟩

end Sys2Proof.Claims

end

section

/-! ## Events of memory: a thread's stores, walks and registers

A store that leaves the queue is performed at its home, a strip entry drains by its marked bytes, and a walk fills a TLB (03 R61; 07 R176,
R177, R185, R437; 14 R421). -/

namespace Sys2Proof.Claims

open Sys2Proof.Machine

variable {s t : State} {e : StoreEntry} {p k : Nat}

/-! ### The thread of a place -/

/-- An event of a place acts on the current thread where that stands there. -/
theorem at_of_isAt {f : State → State} (h : s.th.isAt p = true) : s.at p f = f s := if_pos h

theorem whenRunning_of_isAt {f : State → State} (h : s.th.isAt p = true) (hlife : s.th.life = .running) : s.whenRunning p f = f s :=
  (at_of_isAt h).trans (if_pos hlife)

/-! ### Stores that leave the queue -/

/-- A word that can still fault and is not younger holds the oldest store (03 R61). -/
theorem leaveOneStore_held {es : List StoreEntry} (hq : s.th.fr.storeQ = e :: es) (h : ∃ v ∈ s.inLanes, v.safe = false ∧ v.seq ≤ e.seq) :
    s.leaveOneStore = s := by
  obtain ⟨v, hv, hsafe, hseq⟩ := h
  have hall : (s.inLanes.all fun v => v.safe || e.seq < v.seq) = false := List.all_eq_false.mpr ⟨v, hv, by simp [hsafe, hseq]⟩
  simp [State.leaveOneStore, hq, hall]

/-- With no strip entry the oldest store leaves for its home once no word before it can fault (03 R61, R63). -/
theorem leaveOneStore_leaves {es : List StoreEntry} (hq : s.th.fr.storeQ = e :: es) (hentries : s.th.st.entries = [])
    (h : ∀ v ∈ s.inLanes, v.safe = true ∨ e.seq < v.seq) : s.leaveOneStore = (s.leaveStore e).onFr fun f => { f with storeQ := es } := by
  have hall : (s.inLanes.all fun v => v.safe || e.seq < v.seq) = true := List.all_eq_true.mpr fun v hv => by simpa using h v hv
  have hgate : (if e.atM then s else s.soGate e.kind) = s := by
    rw [soGate_of_entries_nil hentries]
    exact ite_self s
  have hso : s.soWaits e.kind = false := soWaits_eq_false fun _ => hentries
  have hdrain : s.behindDrain e = false := by simp [State.behindDrain, Strip.draining, hentries]
  simp only [State.leaveOneStore, hq, hall]
  simp [State.leaveHead, hq, hgate, hso, hdrain]

/-- Plain HBM lies in no sync window. -/
theorem PlainHbm.target_ne_sync {pa n : Nat} (h : PlainHbm s pa n) (ctx die r o : Nat) : s.target ctx pa ≠ .sync die r o := by
  obtain ⟨htop, -, -⟩ := h
  unfold State.target
  split
  · split <;> exact Target.noConfusion
  have hpa : pa = 2 ^ 40 := by omega
  subst hpa
  simp
  split <;> exact Target.noConfusion

/-- A store to plain HBM is performed there (03 R63). -/
theorem leaveStore_plain (hkind : e.kind = 0) (hentries : s.th.st.entries = []) (hp : PlainHbm s e.pa e.bytes.length) :
    OnlyMemory s (s.leaveStore e) ∧ (s.leaveStore e).mem = memPut s.mem e.pa e.bytes := by
  have hleave : s.leaveStore e = (s.dcacheStore s.th.bind.coreNo e.pa e.bytes).perform (s.cellOf e.pa) e.bytes := by
    rw [leaveStore_of_entries_nil hentries]
    split
    · next die r o ht => exact absurd ht (hp.target_ne_sync _ die r o)
    · rw [if_neg (by rw [hkind]; decide)]
  have hcache := onlyMemory_dcacheStore s.th.bind.coreNo e.pa e.bytes s
  have hw := hcache.fmtWins.trans hp.2.2
  rw [hleave]
  refine ⟨hcache.trans (onlyMemory_performAs false _ _ _), (performAs_mem hw false _ _).trans ?_⟩
  cases hb : e.bytes with
  | nil => rfl
  | cons b bs =>
    have hcell : s.cellOf e.pa = e.pa := hp.cellOf (k := 0) (by rw [hb]; exact Nat.succ_pos _)
    rw [hcell]
    rfl

theorem storeQueueLeave_leaves {es : List StoreEntry} (hat : s.th.isAt p = true) (hlife : s.th.life = .running) (hok : s.MemOk)
    (hq : s.th.fr.storeQ = e :: es) (h : ∀ v ∈ s.inLanes, v.safe = true ∨ e.seq < v.seq) (hkind : e.kind = 0)
    (hentries : s.th.st.entries = []) (hp : PlainHbm s e.pa e.bytes.length) :
    ∃ t, exec (.storeQueueLeave p) s = .next t ∧ BytesWritten s t e.pa e.bytes ∧
      t.th = { s.th with fr := { s.th.fr with storeQ := es } } := by
  obtain ⟨ho, hm⟩ := leaveStore_plain hkind hentries hp
  refine ⟨(s.leaveStore e).onFr fun f => { f with storeQ := es }, ?_, bytesWritten_of_memPut hok hm, ?_⟩
  · exact congrArg Host.Outcome.next ((whenRunning_of_isAt hat hlife).trans (leaveOneStore_leaves hq hentries h))
  · exact congrArg (fun x : Thread => { x with fr := { x.fr with storeQ := es } }) ho.th

/-! ### Strip entries that drain -/

/-- A record of a plain page whose block no older record holds may drain (07 R185). -/
theorem mayDrain_of_alone {es : List StripEntry} {x : StripEntry} (hx : es[k]? = some x) (hkind : x.kind = 0) (hremote : x.remote = none)
    (h : ∀ y ∈ es.take k, y.block ≠ x.block ∨ y.remote ≠ none) : mayDrain es k = true := by
  rw [mayDrain, hx]
  refine List.all_eq_true.mpr fun y hy => ?_
  have hother : (decide (y.block = x.block) && decide (y.remote = x.remote)) = false := by
    rw [hremote, ← Bool.decide_and, decide_eq_false_iff_not]
    exact fun hboth => (h y hy).elim (· hboth.1) (· hboth.2)
  simp [hother, hkind]

theorem stripEntryDrain_drains {x : StripEntry} (hat : s.th.isAt p = true) (hok : s.MemOk) (hx : s.th.st.draining[k]? = some x)
    (hkind : x.kind = 0) (hremote : x.remote = none) (hp : PlainHbm s (x.block * 64) 64)
    (h : ∀ y ∈ s.th.st.draining.take k, y.block ≠ x.block ∨ y.remote ≠ none) :
    ∃ t, exec (.stripEntryDrain p k) s = .next t ∧ t.MemOk ∧
      t.th = { s.th with st := { s.th.st with entries := s.th.st.entries.erase x, unacked := s.th.st.unacked ++ [x.slot] } } ∧
      (∀ b < 64, field x.marks (2 * b) 2 = 3 → (memGet t.mem (x.block * 64 + b)).toNat = field x.data (8 * b) 8) ∧
      (∀ b < 64, field x.marks (2 * b) 2 = 0 → memGet t.mem (x.block * 64 + b) = memGet s.mem (x.block * 64 + b)) ∧
      ∀ a, a < x.block * 64 ∨ x.block * 64 + 64 ≤ a → memGet t.mem a = memGet s.mem a := by
  obtain ⟨hd, hbytes⟩ := drains_drainEntry hkind hremote hp hok
  refine ⟨(s.drainEntry x).onSt fun y => { y with entries := y.entries.erase x, unacked := y.unacked ++ [x.slot] }, ?_, hd.canonical, ?_,
    fun b hb h3 => ?_, hd.unmarked, hd.others⟩
  · refine congrArg Host.Outcome.next ((at_of_isAt hat).trans ?_)
    simp only [hx, mayDrain_of_alone hx hkind hremote h]
    rfl
  · exact congrArg (fun y : Thread => { y with st := { y.st with entries := y.st.entries.erase x, unacked := y.st.unacked ++ [x.slot] } }) hd.only.th
  · rw [← byteOf_toNat]
    exact congrArg BitVec.toNat (hbytes b hb h3)

/-! ### Walks -/

theorem keyLine_th (key line : Nat) (s : State) : (s.keyLine key line).th = s.th := by
  unfold State.keyLine
  split <;> rfl

theorem reach_th (key pa : Nat) (s : State) : (s.reach key pa).th = s.th :=
  foldl_keeps (P := fun u : State => u.th = s.th) (fun u _ hu => (keyLine_th _ _ u).trans hu) _ _ rfl

theorem walkReads_th (w : Walker) (va : Word) (s : State) : (s.walkReads w va).th = s.th := by
  have h := fun a n (u : State) => (banksMoved_l2Read false a n u).th
  unfold State.walkReads
  simp only
  split <;> simp only [h]

/-- A check that passes gives what it is before. -/
theorem eq_of_ite_ok {α β : Type} {c : Prop} [Decidable c] {a b : α} {x : β} (h : (if c then Except.ok a else Except.error x) = Except.ok b) :
    a = b := by
  by_cases hc : c
  · exact Except.ok.inj ((if_pos hc).symm.trans h)
  · cases (if_neg hc).symm.trans h

theorem translate_th {core cluster : Nat} {w : Walker} {va : Word} {acc : Access} {x : Xlate} (h : s.translate core cluster w va acc = .ok x) :
    x.st.th = s.th := by
  unfold State.translate at h
  split at h
  · cases h
  split at h
  · rw [← eq_of_ite_ok h]
    exact reach_th _ _ s
  · unfold State.walkFill at h
    split at h
    · cases h
    · next hwalk =>
      cases h
      split at hwalk
      · cases hwalk
      split at hwalk
      · cases hwalk
        exact (reach_th _ _ _).trans (walkReads_th w va s)
      · cases hwalk

/-- A walk that fails leaves the state; one that passes is the access's own, and the thread stays (07 R176, R177). -/
theorem exec_tlbWalk {cl : Nat} {va : Word} {acc : Access} (hat : s.th.isAt p = true) (hlife : s.th.life = .running) (hcl : cl < s.width) :
    (∀ c, s.xlate cl va acc = .error c → exec (.tlbWalk p cl va acc) s = .next s) ∧
      ∀ x, s.xlate cl va acc = .ok x → exec (.tlbWalk p cl va acc) s = .next x.st ∧ x.st.th = s.th := by
  have hexec : exec (.tlbWalk p cl va acc) s = .next (match s.xlate cl va acc with | .ok x => x.st | .error _ => s) :=
    congrArg Host.Outcome.next ((whenRunning_of_isAt hat hlife).trans (if_pos hcl))
  exact ⟨fun c hc => by rw [hexec, hc], fun x hx => ⟨by rw [hexec, hx], translate_th hx⟩⟩

/-! ### Scrubs -/

/-- What a scrub counts is telemetry (14 R420, R421). -/
theorem scrubbed_scrubbed (bad : Bool) (s : State) : Scrubbed s (s.scrubbed bad) bad := by
  cases bad with
  | true => exact ⟨rfl, le_rfl, le_rfl, rfl⟩
  | false =>
    have hbit : Config.freeChoice s.freeCount % 2 ≤ 1 := Nat.le_of_lt_succ (Nat.mod_lt _ (by decide))
    exact ⟨rfl, Nat.le_add_right _ _, Nat.add_le_add_left hbit _, rfl⟩

theorem scrubbed_rest (bad : Bool) (s : State) : { s.scrubbed bad with tele := s.tele, freeCount := s.freeCount } = s := by
  cases bad <;> rfl

theorem exec_registerFileScrub {r b : Nat} (hat : s.th.isAt p = true) (hr : r < 64) (hb : b < 4096 * s.width) (bad : Bool) :
    ∃ t, exec (.registerFileScrub p r b bad) s = .next t ∧ Scrubbed s t bad ∧
      { t with tele := s.tele, freeCount := s.freeCount } =
        if bad ∧ (r, b) ∉ s.th.ln.bad then s.onLn fun l => { l with bad := (r, b) :: l.bad } else s := by
  have hexec : exec (.registerFileScrub p r b bad) s = .next (if bad && !s.th.ln.bad.contains (r, b) then
      (s.scrubbed bad).onLn fun l => { l with bad := (r, b) :: l.bad } else s.scrubbed bad) :=
    congrArg Host.Outcome.next ((at_of_isAt hat).trans (if_pos (by simp [hr, hb])))
  have hcond : (bad && !s.th.ln.bad.contains (r, b)) = decide (bad ∧ (r, b) ∉ s.th.ln.bad) := by
    cases bad <;> simp
  rw [hcond] at hexec
  refine ⟨_, hexec, ?_, ?_⟩
  · split <;> exact scrubbed_scrubbed bad s
  · by_cases h : bad = true ∧ (r, b) ∉ s.th.ln.bad
    · simp only [h]
      exact congrArg (fun u => u.onLn fun l => { l with bad := (r, b) :: l.bad }) (scrubbed_rest true s)
    · simp only [h, decide_false]
      exact scrubbed_rest bad s

end Sys2Proof.Claims

end

section

/-! ## Events of memory: the L2 and the banks behind it

A fill puts its line in the victim's way and leaves every other line (07 R168, R170); a refresh acts on its own bank (07 R193). -/

namespace Sys2Proof.Claims

open Sys2Proof.Machine

variable {s t : State} {die slice set way line k pa stack bank : Nat} {x : L2Line}

/-! ### The class of a line -/

theorem cutCovers_iff {c : CutEntry} (hc : c ∈ s.unc.cuts) : s.cutCovers die line c = true ↔ CutHolds s die line c := by
  simp [State.cutCovers, CutHolds, hc, and_assoc]

/-- The class is that of the covering entry with the least index (07 R170). -/
theorem lineClass_eq_argmin (s : State) (die line : Nat) :
    s.lineClass die line = ((s.unc.cuts.filter fun c => s.cutCovers die line c).argmin (·.index)).elim 0 fun c => field c.bits 117 3 := by
  rw [State.lineClass, List.argmin]
  congr 2
  funext a c
  cases a <;> rfl

/-- No two entries of a die's cut list have one number. -/
theorem eq_of_cut_index {c d : CutEntry} (hd : (s.unc.cuts.map fun c => (c.die, c.index)).Nodup) (hc : CutHolds s die line c)
    (hd' : CutHolds s die line d) (h : c.index = d.index) : c = d :=
  List.inj_on_of_nodup_map hd hc.1 hd'.1 (Prod.ext (hc.2.1.trans hd'.2.1.symm) h)

theorem lineClass_of_classIs (hd : (s.unc.cuts.map fun c => (c.die, c.index)).Nodup) (h : ClassIs s die line k) : s.lineClass die line = k := by
  have hmem : ∀ c, c ∈ (s.unc.cuts.filter fun c => s.cutCovers die line c) ↔ CutHolds s die line c := fun c => by
    rw [List.mem_filter]
    exact ⟨fun hc => (cutCovers_iff hc.1).mp hc.2, fun hc => ⟨hc.1, (cutCovers_iff hc.1).mpr hc⟩⟩
  rw [lineClass_eq_argmin]
  rcases h with ⟨hnone, rfl⟩ | ⟨c, hc, rfl, hleast⟩
  · rw [List.eq_nil_iff_forall_not_mem.mpr fun c hc => hnone c ((hmem c).mp hc)]
    rfl
  · cases hlow : (s.unc.cuts.filter fun c => s.cutCovers die line c).argmin (·.index) with
    | none => exact absurd ((hmem c).mpr hc) (by rw [List.argmin_eq_none.mp hlow]; exact List.not_mem_nil)
    | some m =>
      have hm := (hmem m).mp (List.argmin_mem hlow)
      have hle : m.index ≤ c.index := List.le_of_mem_argmin ((hmem c).mpr hc) hlow
      rw [eq_of_cut_index hd hm hc (Nat.le_antisymm hle (hleast m hm))]
      rfl

/-! ### The victim -/

/-- A line lies in a set of a slice. -/
def InSet (die slice set : Nat) (x : L2Line) : Prop := x.die = die ∧ x.slice = slice ∧ x.set = set

/-- The line that a way of a set holds. -/
def heldWay (s : State) (die slice set w : Nat) : Option L2Line :=
  s.unc.l2.find? fun x => x.die = die ∧ x.slice = slice ∧ x.set = set ∧ x.way = w

/-- The rank of a way as a victim: a free way comes first (07 R170). -/
def victimRank (s : State) (die slice set w : Nat) : Nat :=
  match heldWay s die slice set w with | none => 0 | some x => 1 + s.lineClass die x.line

theorem victimWay_eq_argmin (s : State) (die slice set : Nat) : s.victimWay die slice set = (s.l2Ways die).argmin (victimRank s die slice set) := by
  have hstep : (fun (a : Option Nat) w => match a with
        | none => some w | some v => if decide (victimRank s die slice set w < victimRank s die slice set v) then some w else a) =
      List.argAux fun b c => victimRank s die slice set b < victimRank s die slice set c := by
    funext a c
    cases a <;> simp [List.argAux]
  exact congrArg (fun f => (s.l2Ways die).foldl f none) hstep

theorem heldWay_of_mem (hd : (s.unc.l2.map fun x => (x.die, x.slice, x.set, x.way)).Nodup) (hx : x ∈ s.unc.l2) (h : InSet die slice set x) :
    heldWay s die slice set x.way = some x := by
  obtain ⟨hdie, hslice, hset⟩ := h
  cases hfound : heldWay s die slice set x.way with
  | none => exact absurd (List.find?_eq_none.mp hfound x hx) (by simp [hdie, hslice, hset])
  | some y =>
    have hy := List.find?_some hfound
    simp only [decide_eq_true_eq] at hy
    obtain ⟨h1, h2, h3, h4⟩ := hy
    have hsame : (y.die, y.slice, y.set, y.way) = (x.die, x.slice, x.set, x.way) := by rw [h1, h2, h3, h4, hdie, hslice, hset]
    rw [List.inj_on_of_nodup_map hd (List.mem_of_find?_eq_some hfound) hx hsame]

/-- A way is free exactly where its rank is least of all. -/
theorem victimRank_eq_zero {w : Nat} : victimRank s die slice set w = 0 ↔ ∀ x ∈ s.unc.l2, InSet die slice set x → x.way ≠ w := by
  have hnone : heldWay s die slice set w = none ↔ ∀ x ∈ s.unc.l2, InSet die slice set x → x.way ≠ w := by
    simp [heldWay, InSet]
  rw [← hnone, victimRank]
  split
  · next h => simp [h]
  · next h => simp [h]

/-- With a free way the victim is free. -/
theorem victim_free (hv : s.victimWay die slice set = some way) (h : ∃ w ∈ s.l2Ways die, ∀ x ∈ s.unc.l2, InSet die slice set x → x.way ≠ w) :
    ∀ x ∈ s.unc.l2, InSet die slice set x → x.way ≠ way := by
  obtain ⟨w, hw, hfree⟩ := h
  have hle := List.le_of_mem_argmin hw ((victimWay_eq_argmin s die slice set).symm.trans hv)
  rw [victimRank_eq_zero.mpr hfree] at hle
  exact victimRank_eq_zero.mp (Nat.le_zero.mp hle)

/-- The ways of a die come in order. -/
theorem le_of_idxOf_l2Ways {a b : Nat} (ha : a ∈ s.l2Ways die) (hb : b ∈ s.l2Ways die) (h : (s.l2Ways die).idxOf a ≤ (s.l2Ways die).idxOf b) : a ≤ b := by
  have hsorted : (s.l2Ways die).Pairwise (· < ·) := List.Pairwise.filter _ List.pairwise_lt_range
  rcases h.lt_or_eq with hlt | heq
  · have hlast := List.idxOf_lt_length_of_mem hb
    have := List.pairwise_iff_getElem.mp hsorted _ _ (hlt.trans hlast) hlast hlt
    simpa using this.le
  · exact ((List.idxOf_inj ha).mp heq).le

/-- A held victim has the least class of the set, ties to the lowest way (07 R170). -/
theorem victim_least {y : L2Line} {k m : Nat} (hv : s.victimWay die slice set = some way)
    (hcuts : (s.unc.cuts.map fun c => (c.die, c.index)).Nodup) (hlines : (s.unc.l2.map fun x => (x.die, x.slice, x.set, x.way)).Nodup)
    (hx : x ∈ s.unc.l2) (hin : InSet die slice set x) (hway : x.way = way) (hy : y ∈ s.unc.l2) (hin' : InSet die slice set y)
    (hways : y.way ∈ s.l2Ways die) (hk : ClassIs s die x.line k) (hm : ClassIs s die y.line m) : k ≤ m ∧ (k = m → way ≤ y.way) := by
  have hrank : ∀ z ∈ s.unc.l2, InSet die slice set z → victimRank s die slice set z.way = 1 + s.lineClass die z.line := fun z hz hzin => by
    rw [victimRank, heldWay_of_mem hlines hz hzin]
  have hxr := hrank x hx hin
  have hyr := hrank y hy hin'
  rw [lineClass_of_classIs hcuts hk, hway] at hxr
  rw [lineClass_of_classIs hcuts hm] at hyr
  have hmin := (victimWay_eq_argmin s die slice set).symm.trans hv
  have hle := List.le_of_mem_argmin hways hmin
  exact ⟨by omega, fun hkm => le_of_idxOf_l2Ways (List.argmin_mem hmin) hways (List.index_of_argmin hmin hways (by omega))⟩

/-! ### The fill -/

theorem hbmAccess_l2 (pa : Nat) (s : State) : (s.hbmAccess pa).unc.l2 = s.unc.l2 := by
  unfold State.hbmAccess
  simp only
  split <;> rfl

/-- Only the banks behind the L2 have moved, so that what a fill looks up is as it was. -/
theorem victimWay_of_banks (h : BanksMoved s t) (hl2 : t.unc.l2 = s.unc.l2) : t.victimWay die slice set = s.victimWay die slice set := by
  have hback := h.back
  have ht : t = s.onUnc fun u => { u with banks := t.unc.banks, forced := t.unc.forced } := by
    rw [h.eq_onUnc]
    have hunc : t.unc = { s.unc with banks := t.unc.banks, forced := t.unc.forced } := by
      have := congrArg State.unc hback
      calc t.unc = { (t.onUnc (cold s)).unc with l2 := t.unc.l2, banks := t.unc.banks, forced := t.unc.forced } := rfl
        _ = _ := by rw [this, hl2]
    exact congrArg (fun u => s.onUnc fun _ => u) hunc
  rw [ht]
  rfl

/-- A line that leaves is written back when it is dirty. -/
def writeBack (old : Option L2Line) (s : State) : State :=
  match old with
  | some x => if x.dirty then s.hbmAccess (256 * x.line) else s
  | none => s

theorem writeBack_l2 (old : Option L2Line) (s : State) : (writeBack old s).unc.l2 = s.unc.l2 := by
  cases old with
  | none => rfl
  | some x =>
    rw [writeBack]
    split
    · exact hbmAccess_l2 _ s
    · rfl

/-- The line that a fill puts in its way. -/
def filledLine (pa way : Nat) : L2Line :=
  { die := pa / 2 ^ 38, slice := pa % 2 ^ 38 / 256 % 56, set := pa % 2 ^ 38 / 256 / 56 % 384, way := way, line := pa / 256, dirty := false }

/-- A fill of a line that is missing puts it in the victim's way (07 R168, R170). -/
theorem l2Fill_miss (hpa : pa < 2 ^ 40) (hlow : pa % 2 ^ 38 < 2 ^ 37) (hmiss : ∀ x ∈ s.unc.l2, x.line ≠ pa / 256)
    (hv : s.victimWay (pa / 2 ^ 38) (pa % 2 ^ 38 / 256 % 56) (pa % 2 ^ 38 / 256 / 56 % 384) = some way) :
    (s.l2Fill pa).unc.l2 = filledLine pa way :: s.unc.l2.filter fun x => ¬ (x.die = pa / 2 ^ 38 ∧ x.slice = pa % 2 ^ 38 / 256 % 56 ∧
      x.set = pa % 2 ^ 38 / 256 / 56 % 384 ∧ x.way = way) := by
  have hdie : pa / 2 ^ 38 % 4 = pa / 2 ^ 38 := Nat.mod_eq_of_lt (by omega)
  have hguard : (decide (2 ^ 40 ≤ pa) || decide (2 ^ 37 ≤ pa % 2 ^ 38) || s.unc.l2.any fun x => decide (x.line = pa / 256)) = false := by
    have hany : (s.unc.l2.any fun x => decide (x.line = pa / 256)) = false := List.any_eq_false.mpr fun x hx => by simpa using hmiss x hx
    rw [hany, decide_eq_false (Nat.not_le.mpr hpa), decide_eq_false (Nat.not_le.mpr hlow)]
    rfl
  have hv' := (victimWay_of_banks (banksMoved_hbmAccess pa s) (hbmAccess_l2 pa s)).trans hv
  unfold State.l2Fill
  simp only [hdie, hguard, hv', Bool.false_eq_true, if_false]
  exact congrArg (fun l => filledLine pa way :: l.filter fun x => ¬ (x.die = pa / 2 ^ 38 ∧ x.slice = pa % 2 ^ 38 / 256 % 56 ∧
      x.set = pa % 2 ^ 38 / 256 / 56 % 384 ∧ x.way = way)) ((writeBack_l2 _ _).trans (hbmAccess_l2 pa s))

/-- A fill of a line that the L2 holds changes nothing. -/
theorem l2Fill_hit (h : ∃ x ∈ s.unc.l2, x.line = pa / 256) : s.l2Fill pa = s := by
  have hany : (s.unc.l2.any fun x => decide (x.line = pa / 256)) = true := by simpa using h
  simp [State.l2Fill, hany]

theorem exec_l2Fill_miss (hpa : pa < 2 ^ 40) (hlow : pa % 2 ^ 38 < 2 ^ 37) (hmiss : ∀ x ∈ s.unc.l2, x.line ≠ pa / 256)
    (hv : s.victimWay (pa / 2 ^ 38) (pa % 2 ^ 38 / 256 % 56) (pa % 2 ^ 38 / 256 / 56 % 384) = some way) :
    ∃ t, exec (.l2Fill pa) s = .next t ∧ filledLine pa way ∈ t.unc.l2 ∧
      (∀ x, ¬ (InSet (pa / 2 ^ 38) (pa % 2 ^ 38 / 256 % 56) (pa % 2 ^ 38 / 256 / 56 % 384) x ∧ x.way = way) → (x ∈ t.unc.l2 ↔ x ∈ s.unc.l2)) ∧
      { t with unc := { t.unc with l2 := s.unc.l2, banks := s.unc.banks, forced := s.unc.forced } } = s := by
  have hl2 := l2Fill_miss hpa hlow hmiss hv
  refine ⟨s.l2Fill pa, rfl, by rw [hl2]; exact List.mem_cons_self, fun x hx => ?_, (banksMoved_l2Fill pa s).back⟩
  have hne : x ≠ filledLine pa way := fun h => hx (by rw [h]; exact ⟨⟨rfl, rfl, rfl⟩, rfl⟩)
  have hkept : ¬ (x.die = pa / 2 ^ 38 ∧ x.slice = pa % 2 ^ 38 / 256 % 56 ∧ x.set = pa % 2 ^ 38 / 256 / 56 % 384 ∧ x.way = way) :=
    fun ⟨h1, h2, h3, h4⟩ => hx ⟨⟨h1, h2, h3⟩, h4⟩
  rw [hl2, List.mem_cons, List.mem_filter]
  exact ⟨fun h => (h.resolve_left hne).1, fun h => .inr ⟨h, decide_eq_true hkept⟩⟩

/-- An L2 with ways has a victim. -/
theorem exists_victim (h : s.l2Ways die ≠ []) : ∃ way ∈ s.l2Ways die, s.victimWay die slice set = some way := by
  cases hv : s.victimWay die slice set with
  | none => exact absurd (List.argmin_eq_none.mp ((victimWay_eq_argmin s die slice set).symm.trans hv)) h
  | some way => exact ⟨way, List.argmin_mem ((victimWay_eq_argmin s die slice set).symm.trans hv), rfl⟩

/-! ### Refreshes -/

theorem bankAt_place (s : State) (die stack bank : Nat) :
    (s.bankAt die stack bank).die = die ∧ (s.bankAt die stack bank).stack = stack ∧ (s.bankAt die stack bank).bank = bank := by
  unfold State.bankAt
  cases h : s.unc.banks.find? fun b => b.die = die ∧ b.stack = stack ∧ b.bank = bank with
  | none => exact ⟨rfl, rfl, rfl⟩
  | some b =>
    have hb := List.find?_some h
    simp only [decide_eq_true_eq] at hb
    exact hb

/-- A recorded bank reads as recorded. -/
theorem bankAt_setBank_same (b : Bank) (s : State) : (s.setBank b).bankAt b.die b.stack b.bank = b := by
  simp [State.bankAt, State.setBank, State.onUnc]

/-- An entry put before a list in place of those of its key is not seen by a search for another key. -/
theorem find?_replace {α : Type} {key other : α → Prop} [DecidablePred key] [DecidablePred other] {a : α} {l : List α}
    (ha : ¬ other a) (h : ∀ x, other x → ¬ key x) : (a :: l.filter fun x => ¬ key x).find? (fun x => other x) = l.find? fun x => other x := by
  refine (List.find?_cons_of_neg (by simpa using ha)).trans ?_
  rw [List.find?_filter]
  refine congrArg (fun p => l.find? p) (funext fun x => ?_)
  by_cases hx : other x
  · simp [hx, h x hx]
  · simp [hx]

/-- Every other bank reads as before. -/
theorem bankAt_setBank_other {b : Bank} (h : (die, stack, bank) ≠ (b.die, b.stack, b.bank)) (s : State) :
    (s.setBank b).bankAt die stack bank = s.bankAt die stack bank := by
  have hne : ¬ (b.die = die ∧ b.stack = stack ∧ b.bank = bank) := fun ⟨h1, h2, h3⟩ => h (by rw [h1, h2, h3])
  have hfind : (s.setBank b).unc.banks.find? (fun x => x.die = die ∧ x.stack = stack ∧ x.bank = bank) =
      s.unc.banks.find? fun x => x.die = die ∧ x.stack = stack ∧ x.bank = bank :=
    find?_replace hne fun x ⟨h1, h2, h3⟩ ⟨e1, e2, e3⟩ => hne ⟨e1.symm.trans h1, e2.symm.trans h2, e3.symm.trans h3⟩
  rw [State.bankAt, hfind, State.bankAt]

/-- A bank of its own place recorded: that bank has changed and nothing else (07 R193). -/
theorem setBank_effect {b : Bank} (hdie : b.die = die) (hstack : b.stack = stack) (hbank : b.bank = bank) (s : State) :
    (∀ d k n, (d, k, n) ≠ (die, stack, bank) → (s.setBank b).bankAt d k n = s.bankAt d k n) ∧
      { s.setBank b with unc := { (s.setBank b).unc with banks := s.unc.banks } } = s ∧ (s.setBank b).bankAt die stack bank = b := by
  subst hdie hstack hbank
  exact ⟨fun d k n h => bankAt_setBank_other h s, rfl, bankAt_setBank_same b s⟩

end Sys2Proof.Claims

end

section

/-! ## Events of memory: requests at a slice, mirrors and posts

A request at a slice's ALU is one read and one write of its place (10 R267, R269); an update in flight reaches its mirror (10 R283), and a post
its core (10 R289). -/

namespace Sys2Proof.Claims

open Sys2Proof.Machine

variable {s t : State} {a n pa : Nat} {bs : List Byte}

/-! ### Requests at a slice -/

/-- A store to clean granules moves the L2 and the banks and writes its bytes. -/
theorem performAs_clean (hw : s.unc.fmtWins = []) (hlen : 0 < bs.length)
    (hclean : ∀ g, a / 32 ≤ g → g ≤ (a + bs.length - 1) / 32 → g ∉ s.poison) (stream : Bool) :
    s.performAs stream a bs = { s.l2Write stream a bs.length with mem := memPut s.mem a bs } := by
  have hmoved := banksMoved_l2Write stream a bs.length s
  have hbs : ¬ bs.isEmpty := fun h => by simp [List.isEmpty_iff.mp h] at hlen
  rw [State.performAs, if_neg hbs, heal_of_clean (hmoved.fmtWins.trans hw) hlen (by rwa [hmoved.poison]),
    State.putBytes_plain (hmoved.fmtWins.trans hw), State.l2Write_mem]

/-- The granules of n bytes are those that their bytes lie in. -/
theorem clean_granules (hn : 0 < n) (h : ∀ k < n, (pa + k) / 32 ∉ s.poison) :
    ∀ g, pa / 32 ≤ g → g ≤ (pa + n - 1) / 32 → g ∉ s.poison := by
  intro g hlo hhi
  have hg : (pa + (32 * g - pa)) / 32 = g := by omega
  have hin := h (32 * g - pa) (by omega)
  rwa [hg] at hin

theorem poisoned_plain (hw : s.unc.fmtWins = []) (a : Nat) : s.poisoned a = true ↔ a / 32 ∈ s.poison := by
  simp [State.poisoned, State.dataCells, hw, viewHit]

/-- The place of a request that Table 10.3 allows has whole bytes (10 R269). -/
theorem aluRequest_ok {r : AluRequest} (hop : (r.ety ∈ [.i32, .i64, .n32, .n64] ∧ r.op ≤ 6) ∨ (r.ety ∈ [.fp32, .fp64] ∧ r.op ∈ [0, 1, 5, 6]))
    (hbytes : r.bytes = r.ety.fixedBits / 8) (halign : r.pa % r.bytes = 0) : AluRequest.ok r = true ∧ 0 < r.bytes ∧ r.ety.fixedBits = 8 * r.bytes := by
  simp only [List.mem_cons, List.not_mem_nil, or_false] at hop
  have hsize : 0 < r.bytes ∧ r.ety.fixedBits = 8 * r.bytes := by
    rw [hbytes]
    rcases hop with ⟨h | h | h | h, -⟩ | ⟨h | h, -⟩ <;> rw [h] <;> decide
  refine ⟨?_, hsize⟩
  have hok : AluRequest.ok r = ((((decide (r.ety = .i32) || decide (r.ety = .i64) || decide (r.ety = .n32) || decide (r.ety = .n64)) && decide (r.op ≤ 6)) ||
      ((decide (r.ety = .fp32) || decide (r.ety = .fp64)) && (decide (r.op = 0) || decide (r.op = 1) || decide (r.op = 5) || decide (r.op = 6)))) &&
      decide (r.bytes = r.ety.fixedBits / 8) && decide (r.pa % r.bytes = 0)) := rfl
  rw [hok, decide_eq_true hbytes, decide_eq_true halign, Bool.and_true, Bool.and_true]
  simpa [or_assoc] using hop

/-- The value that a request leaves at its place (10 Table 10.3). -/
def aluNew (s : State) (r : AluRequest) : Nat :=
  (aluOp r.op r.ety 0 (leNat (memBytes s.mem r.pa r.bytes)) (r.operand.toNat % 2 ^ (8 * r.bytes))).1

theorem exec_sliceAluRequest {r : AluRequest} (hok : AluRequest.ok r = true) (hpos : 0 < r.bytes) (hbits : r.ety.fixedBits = 8 * r.bytes)
    (hp : PlainHbm s r.pa r.bytes) : exec (.sliceAluRequest r) s =
      .next (if s.poisoned r.pa then s else s.perform r.pa (leBytes r.bytes (aluNew s r))) := by
  have htarget : s.target s.th.bind.ctx r.pa = .cell r.pa := hp.target _ hpos
  show execSliceAluRequest r s = _
  rw [execSliceAluRequest, if_pos hok, htarget]
  simp only [State.bytesAt_plain hp.2.2, operandOf, hbits]
  rfl

theorem sliceAluRequest_performs {r : AluRequest} (hok : AluRequest.ok r = true) (hpos : 0 < r.bytes) (hbits : r.ety.fixedBits = 8 * r.bytes)
    (hm : s.MemOk) (hp : PlainHbm s r.pa r.bytes) (hclean : ∀ k < r.bytes, (r.pa + k) / 32 ∉ s.poison) :
    ∃ t, exec (.sliceAluRequest r) s = .next t ∧
      PlacesWritten s t 1 r.bytes (fun _ => true) (fun _ => r.pa) fun _ x => aluOp r.op r.ety 0 x (r.operand.toNat % 2 ^ (8 * r.bytes)) := by
  have hw := hp.2.2
  have hlen : (leBytes r.bytes (aluNew s r)).length = r.bytes := Laws.length_leBytes _ _
  have hmoved := banksMoved_l2Write false r.pa (leBytes r.bytes (aluNew s r)).length s
  have hnot : ¬ s.poisoned r.pa = true := fun h => hclean 0 hpos ((poisoned_plain hw r.pa).mp h)
  have ht : s.perform r.pa (leBytes r.bytes (aluNew s r)) = _ :=
    performAs_clean hw (by rwa [hlen]) (by rw [hlen]; exact clean_granules hpos hclean) false
  refine ⟨{ s.l2Write false r.pa (leBytes r.bytes (aluNew s r)).length with mem := memPut s.mem r.pa (leBytes r.bytes (aluNew s r)) },
    by rw [exec_sliceAluRequest hok hpos hbits hp, if_neg hnot, ht], ?_, fun k hk _ => ?_, fun b hb => ?_,
    (congrArg (fun u => { u.unc with dcache := s.unc.dcache }) hmoved.back :),
    (congrArg (fun u => { u with mem := s.mem, unc := s.unc, th := s.th }) hmoved.back :)⟩
  · exact memPut_wf _ _ hm
  · show leNat (memBytes (memPut _ _ _) _ _) = _
    have hread := memBytes_memPut r.pa (leBytes r.bytes (aluNew s r)) hm
    rw [hlen] at hread
    rw [hread, Laws.leNat_leBytes, show 256 ^ r.bytes = 2 ^ (8 * r.bytes) from (pow_mul 2 8 r.bytes).symm]
    simp [placeBefore, aluNew]
  · exact memGet_memPut_other _ hm (by rw [hlen]; exact hb 0 Nat.one_pos rfl)

/-! ### Mirrors -/

theorem find?_append_of_forall_not {α : Type} {p : α → Bool} {before after : List α} {x : α} (h : ∀ y ∈ before, ¬ p y = true) (hx : p x = true) :
    (before ++ x :: after).find? p = some x := by
  rw [List.find?_append, List.find?_eq_none.mpr h, Option.none_or, List.find?_cons_of_pos hx]

/-- With no update in flight from a home to a die nothing happens there. -/
theorem mirrorApply_none {die home : Nat} (h : ∀ e ∈ s.sync.flying, ¬ (e.1 = die ∧ e.2.1 = home)) : s.mirrorApply die home = s := by
  rw [State.mirrorApply, List.find?_eq_none.mpr fun e he => by simpa using h e he]

/-- The oldest update in flight from a home reaches its mirror, and no other register is seen otherwise (10 R283). -/
theorem exec_syncMirrorUpdate {die home : Nat} {before after : List (Nat × Nat × Nat × Word)} {e : Nat × Nat × Nat × Word}
    (hsplit : s.sync.flying = before ++ e :: after) (hdie : e.1 = die) (hhome : e.2.1 = home) (hbefore : ∀ x ∈ before, ¬ (x.1 = die ∧ x.2.1 = home)) :
    ∃ t, exec (.syncMirrorUpdate die home) s = .next t ∧ t.sync.flying = before ++ after ∧
      (∀ k d n, n < 512 → k ≠ d → t.syncSeen k d n = if k = die ∧ d * 512 + n = e.2.2.1 then e.2.2.2 else s.syncSeen k d n) ∧
      { t with sync := { t.sync with flying := s.sync.flying, mirror := s.sync.mirror } } = s := by
  have hfound : s.sync.flying.find? (fun e => e.1 = die ∧ e.2.1 = home) = some e := by
    rw [hsplit]
    exact find?_append_of_forall_not (fun x hx => by simpa using hbefore x hx) (by simp [hdie, hhome])
  have herase : s.sync.flying.erase e = before ++ after := by
    rw [hsplit, List.erase_append_right _ fun he => hbefore e he ⟨hdie, hhome⟩, List.erase_cons_head]
  have happly : s.mirrorApply die home = { s with sync := { s.sync with
      mirror := (die, e.2.2.1, e.2.2.2) :: s.sync.mirror.filter (fun m => ¬ (m.1 = die ∧ m.2.1 = e.2.2.1)), flying := before ++ after } } := by
    rw [State.mirrorApply, hfound, ← herase]
  refine ⟨_, congrArg Host.Outcome.next happly, rfl, fun k d n _ hkd => ?_, rfl⟩
  simp only [State.syncSeen, if_neg hkd]
  split
  · next h =>
    obtain ⟨rfl, hn⟩ := h
    rw [List.find?_cons_of_pos (by simp [hn])]
    rfl
  · next h =>
    have hother : ((die, e.2.2.1, e.2.2.2) :: s.sync.mirror.filter fun m => ¬ (m.1 = die ∧ m.2.1 = e.2.2.1)).find?
        (fun m => m.1 = k ∧ m.2.1 = d * 512 + n) = s.sync.mirror.find? fun m => m.1 = k ∧ m.2.1 = d * 512 + n :=
      find?_replace (fun ⟨h1, h2⟩ => h ⟨h1.symm, h2.symm⟩) fun m ⟨h1, h2⟩ ⟨e1, e2⟩ => h ⟨h1.symm.trans e1, h2.symm.trans e2⟩
    rw [hother]

/-! ### Posts -/

theorem postPut_same (core tag : Nat) (v : BitVec 48) : (s.postPut core tag v).postGet core tag = v := by
  simp [State.postGet, State.postPut]

theorem postPut_other {core tag k tag' : Nat} (h : ¬ (k = core ∧ tag' = tag)) (v : BitVec 48) :
    (s.postPut core tag v).postGet k tag' = s.postGet k tag' := by
  have hfind : (s.postPut core tag v).sync.post.find? (fun e => e.1 = k ∧ e.2.1 = tag') = s.sync.post.find? fun e => e.1 = k ∧ e.2.1 = tag' :=
    find?_replace (fun ⟨h1, h2⟩ => h ⟨h1.symm, h2.symm⟩) fun e ⟨h1, h2⟩ ⟨e1, e2⟩ => h ⟨h1.symm.trans e1, h2.symm.trans e2⟩
  rw [State.postGet, hfind, State.postGet]

/-- The oldest post that a core still waits for goes past it. -/
theorem postPasses_append {die src core : Nat} {q : RingPost} {after : List RingPost} (hq : q.die = die ∧ q.src = src ∧ core ∈ q.left) :
    ∀ before : List RingPost, (∀ x ∈ before, ¬ (x.die = die ∧ x.src = src ∧ core ∈ x.left)) →
      postPasses die src core (before ++ q :: after) = before ++ { q with left := q.left.erase core } :: after
  | [], _ => by simp [postPasses, hq]
  | x :: xs, h => by
    have hx : ¬ (x.die = die ∧ x.src = src ∧ x.left.contains core = true) := by simpa using h x List.mem_cons_self
    rw [List.cons_append, postPasses, if_neg hx, postPasses_append hq xs fun y hy => h y (List.mem_cons_of_mem x hy)]
    rfl

/-- A post reaches its core: the entry takes its value, or the larger of the two, and the post goes on to the cores that are left
(10 R289). -/
theorem exec_postRingArrival {die src core : Nat} {before after : List RingPost} {q : RingPost} (hsplit : s.sync.ring = before ++ q :: after)
    (hdie : q.die = die) (hsrc : q.src = src) (hleft : core ∈ q.left) (hbefore : ∀ x ∈ before, ¬ (x.die = die ∧ x.src = src ∧ core ∈ x.left)) :
    ∃ t, exec (.postRingArrival die src core) s = .next t ∧
      (∀ k tag, t.postGet k tag = if k = 56 * die + core ∧ tag = q.tag then
        (if q.set ∨ (s.postGet k tag).toNat ≤ q.value.toNat then q.value else s.postGet k tag) else s.postGet k tag) ∧
      t.sync.ring = (before ++ { q with left := q.left.erase core } :: after).filter (fun x => x.left ≠ []) ∧
      { t with sync := { t.sync with post := s.sync.post, ring := s.sync.ring } } = s := by
  let c := 56 * die + core
  let v := postNew q.set (s.postGet c q.tag) q.value
  have hfound : s.sync.ring.find? (fun p => p.die = die ∧ p.src = src ∧ p.left.contains core) = some q := by
    rw [hsplit]
    exact find?_append_of_forall_not (fun x hx => by simpa using hbefore x hx) (by simp [hdie, hsrc, hleft])
  have hpass : postPasses die src core (s.postPut c q.tag v).sync.ring = before ++ { q with left := q.left.erase core } :: after :=
    (congrArg (postPasses die src core) hsplit).trans (postPasses_append ⟨hdie, hsrc, hleft⟩ before hbefore)
  have harrive : s.postArrive die src core = { s.postPut c q.tag v with sync := { (s.postPut c q.tag v).sync with
      ring := (before ++ { q with left := q.left.erase core } :: after).filter fun x => x.left ≠ [] } } := by
    rw [State.postArrive, hfound, ← hpass]
  refine ⟨_, congrArg Host.Outcome.next harrive, fun k tag => ?_, rfl, rfl⟩
  show (s.postPut c q.tag v).postGet k tag = _
  split
  · next h =>
    obtain ⟨rfl, rfl⟩ := h
    rw [postPut_same]
    simp [v, c, postNew, BitVec.le_def]
  · next h => exact postPut_other h v

end Sys2Proof.Claims

end

section

/-! ## Events of memory: the copy engine

A chunk is translated byte by byte, moved and delivered (10 R296); a delivery updates an arrival word (10 R294), and a command that is abandoned
sets ERR for its thread (10 R300, R303). -/

namespace Sys2Proof.Claims

open Sys2Proof.Machine

variable {s t : State} {c : CopyCmd} {core slot n k a ps pd : Nat}

/-! ### The command of a slot -/

theorem onSlot_of_inSlot (h : InSlot s core slot c) {p : CopyCmd → Bool} (hp : p c = true) (f : CopyCmd → State → State) :
    s.onSlot core slot p f = (f c s).readmitCopies := by
  obtain ⟨hslot, hpaused⟩ := h
  have hmem : c ∈ s.copies := (List.mem_filter.mp (hslot ▸ List.mem_singleton_self c)).1
  have hfound : s.copies.find? (fun x => x.core = core ∧ x.slot = slot ∧ (!x.paused || x.stopping) ∧ p x) = some c := by
    have hsplit : (fun x : CopyCmd => decide (x.core = core ∧ x.slot = slot ∧ (!x.paused || x.stopping) = true ∧ p x = true)) =
        fun x => decide (decide (x.core = core ∧ x.slot = slot) = true ∧ ((!x.paused || x.stopping) && p x) = true) :=
      funext fun x => by simp [and_assoc]
    rw [hsplit, ← List.find?_filter, hslot, List.find?_cons_of_pos (by simp [hpaused c hmem, hp])]
  rw [State.onSlot, hfound]

/-- With no command paused no slot is given. -/
theorem readmitCopies_of_none_paused (h : ∀ x ∈ s.copies, x.paused = false) : s.readmitCopies = s := by
  have hfold : ∀ l : List CopyCmd, (∀ x ∈ l, x.paused = false) → l.foldl (fun (t : State) c => if c.paused && t.mayReadmit c then
      match t.copySlot c.core with
      | some k => t.onCopyCmd c fun x => { x with paused := false, slot := k }
      | none => t
    else t) s = s := by
    intro l
    induction l with
    | nil => exact fun _ => rfl
    | cons x l ih =>
      intro hl
      rw [List.foldl_cons, if_neg (by simp [hl x List.mem_cons_self])]
      exact ih fun y hy => hl y (List.mem_cons_of_mem x hy)
  exact hfold s.copies h

theorem withoutCopy_not_paused (h : ∀ x ∈ s.copies, x.paused = false) : ∀ x ∈ withoutCopy s c, x.paused = false :=
  fun x hx => h x (List.mem_filter.mp hx).1

theorem dropCopy_mem (c : CopyCmd) (s : State) : (s.dropCopy c).mem = s.mem := rfl

/-- A command that ends leaves its slot, and no other waits for it. -/
theorem readmit_dropCopy (h : ∀ x ∈ s.copies, x.paused = false) (hc : t.copies = s.copies) :
    (t.dropCopy c).readmitCopies = t.dropCopy c ∧ (t.dropCopy c).copies = withoutCopy s c := by
  have hcopies : (t.dropCopy c).copies = withoutCopy s c := congrArg (fun l => l.filter fun x => ¬ (x.owner = c.owner ∧ x.seq = c.seq)) hc
  exact ⟨readmitCopies_of_none_paused (hcopies ▸ withoutCopy_not_paused h), hcopies⟩

/-! ### The bytes of a chunk -/

theorem toNat_add_word {x : Word} (h : x.toNat + k < 2 ^ 64) : (x + word k).toNat = x.toNat + k := by
  rw [BitVec.toNat_add, word, BitVec.toNat_ofNat, Nat.mod_eq_of_lt (show k < 2 ^ 64 by omega), Nat.mod_eq_of_lt h]

/-- A command of cp that its destination's block holds has one chunk (10 R296). -/
theorem chunkLen_of_oneBlock (hfn : c.fn = 0) (h : c.dst.toNat % 4096 + c.b0.toNat ≤ 4096) (n : Nat) : chunkLen c 0 n = min n c.b0.toNat := by
  have htotal : c.total = c.b0.toNat := by simp [CopyCmd.total, hfn]
  have hdst : ∀ k, c.dstAt k = c.dst + word k := fun k => by simp [CopyCmd.dstAt, hfn]
  have htop := c.dst.isLt
  induction n with
  | zero => simp [chunkLen]
  | succ n ih =>
    rw [chunkLen, ih, htotal]
    simp only [hdst, Nat.zero_add]
    rcases Nat.lt_or_ge n c.b0.toNat with hn | hn
    · have hblock : (c.dst + word n).toNat / 4096 = (c.dst + word 0).toNat / 4096 := by
        rw [toNat_add_word (by omega), toNat_add_word (by omega)]
        omega
      rw [if_pos ⟨Nat.min_eq_left hn.le, hn, hblock⟩]
      omega
    · rw [if_neg (by omega)]
      omega

/-- Byte k of a chunk of plain pages, to be moved. -/
def moveOf (c : CopyCmd) (ps pd k : Nat) : Move :=
  { src := ps + k, dst := pd + k, open_ := c.writes (c.srcAt 0 k) && c.srcAt 0 k ≠ c.dstAt k }

/-- Every byte of a chunk whose pages are there is found (10 R296). -/
theorem chunkMoves_seen (hfn : c.fn = 0) (hsrc : EngineSees s c.core c.ctx c.src n .read ps)
    (hdst : EngineSees s c.core c.ctx c.dst n .write pd) :
    ∀ m ≤ n, chunkMoves c 0 m (s, [], none) = (s, (List.range m).map (moveOf c ps pd), none)
  | 0, _ => rfl
  | m + 1, hm => by
    have hrest := chunkMoves_seen hfn hsrc hdst m (Nat.le_of_succ_le hm)
    obtain ⟨-, -, hread⟩ := hsrc
    obtain ⟨-, -, hwrite⟩ := hdst
    have hs : s.engineXlate c.core c.ctx (c.srcAt 0 m) .read = (s, .cell (ps + m)) := by
      simpa [CopyCmd.srcAt, hfn] using hread m hm
    have hd : s.engineXlate c.core c.ctx (c.dstAt m) .write = (s, .cell (pd + m)) := by
      simpa [CopyCmd.dstAt, hfn] using hwrite m hm
    rw [chunkMoves, hrest]
    simp [hfn, hs, hd, List.range_succ, moveOf]

theorem putByte_getByte (hw : t.unc.fmtWins = []) (a b : Nat) : t.putByte a (t.byteAt b) = { t with mem := memSet t.mem a (memGet t.mem b) } := by
  rw [State.putByte_plain hw, State.byteAt_plain hw]

/-- Bytes that move to cells which none of them comes from leave the source's bytes there, whatever the order. -/
theorem moveBytes_apart (hw : t.unc.fmtWins = []) (hok : t.MemOk) (hapart : ps + n ≤ pd ∨ pd + n ≤ ps) :
    ∀ m j, j + m ≤ n → moveBytes ((List.range' j m).map (moveOf c ps pd)) t = { t with mem := memPut t.mem (pd + j) (memBytes t.mem (ps + j) m) } := by
  intro m
  induction m generalizing t with
  | zero => exact fun _ _ => rfl
  | succ m ih =>
    intro j hj
    rw [List.range'_succ, List.map_cons, moveBytes, memBytes, memPut]
    let u : State := { t with mem := memSet t.mem (pd + j) (memGet t.mem (ps + j)) }
    have hstep : t.putByte (moveOf c ps pd j).dst (t.byteAt (moveOf c ps pd j).src) = u := putByte_getByte hw _ _
    have hu : u.MemOk := memPut_wf (pd + j) [memGet t.mem (ps + j)] hok
    have hsame : memBytes u.mem (ps + j + 1) m = memBytes t.mem (ps + j + 1) m := by
      rw [memBytes_eq_map, memBytes_eq_map]
      refine List.map_congr_left fun i hi => ?_
      have hi' := List.mem_range.mp hi
      exact memGet_memPut_other [memGet t.mem (ps + j)] hok (by rw [List.length_singleton]; omega)
    have hnext := ih (t := u) hw hu (j + 1) (by omega)
    rw [hstep, hnext, ← Nat.add_assoc, ← Nat.add_assoc, hsame]

/-! ### Moving and delivering -/

theorem banksMoved_touchChunk (c : CopyCmd) (ms : List Move) (s : State) : BanksMoved s (s.touchChunk c ms) :=
  foldl_keeps (P := BanksMoved s) (fun u l hu => hu.trans (banksMoved_l2Write c.stream (256 * l) 256 u)) _ _
    (foldl_keeps (P := BanksMoved s) (fun u l hu => hu.trans (banksMoved_l2Touch c.stream (256 * l) u)) _ _ (.refl s))

/-- Copying poison changes no byte and no command. -/
theorem movePoison_keeps (old : List Nat) (ms : List Move) (s : State) :
    (movePoison old ms s).mem = s.mem ∧ (movePoison old ms s).copies = s.copies := by
  refine foldl_keeps (P := fun u : State => u.mem = s.mem ∧ u.copies = s.copies) (fun u g hu => ?_) _ _ ⟨rfl, rfl⟩
  simp only
  repeat' split
  all_goals exact hu

/-- A command whose source and destination are apart reads no byte that it writes (10 R297). -/
theorem mayOverlap_of_apart (hfn : c.fn = 0) (hs : c.src.toNat + c.b0.toNat ≤ 2 ^ 64) (hd : c.dst.toNat + c.b0.toNat ≤ 2 ^ 64)
    (h : c.src.toNat + c.b0.toNat ≤ c.dst.toNat ∨ c.dst.toNat + c.b0.toNat ≤ c.src.toNat) (hpos : 0 < c.b0.toNat) : c.mayOverlap = false := by
  have h1 : ¬ (c.src - c.dst).toNat < c.b0.toNat := by rw [BitVec.toNat_sub]; omega
  have h2 : ¬ (c.dst - c.src).toNat < c.b0.toNat := by rw [BitVec.toNat_sub]; omega
  have htotal : c.total = c.b0.toNat := by simp [CopyCmd.total, hfn]
  rw [CopyCmd.mayOverlap, htotal, decide_eq_false h1, decide_eq_false h2, hfn]
  rfl

/-- The only chunk of a command of cp is moved, and the command ends (10 R296). -/
theorem copyChunk_moves (hfn : c.fn = 0) (hheld : c.held = false) (hstop : c.stopping = false) (hpaused : c.paused = false) (haw : c.aw = none)
    (hpos : c.pos = 0) (hlen : 0 < c.b0.toNat) (hblock : c.dst.toNat % 4096 + c.b0.toNat ≤ 4096) (htop : c.src.toNat + c.b0.toNat ≤ 2 ^ 64)
    (hok : s.MemOk) (hva : c.src.toNat + c.b0.toNat ≤ c.dst.toNat ∨ c.dst.toNat + c.b0.toNat ≤ c.src.toNat)
    (hpa : ps + c.b0.toNat ≤ pd ∨ pd + c.b0.toNat ≤ ps) (hsrc : EngineSees s c.core c.ctx c.src c.b0.toNat .read ps)
    (hdst : EngineSees s c.core c.ctx c.dst c.b0.toNat .write pd) :
    ∃ u : State, s.copyChunk c = u.dropCopy c ∧ u.copies = s.copies ∧ u.mem = memPut s.mem pd (memBytes s.mem ps c.b0.toNat) := by
  have hw : s.unc.fmtWins = [] := hdst.1.2.2
  have hn : chunkLen c c.pos 4096 = c.b0.toNat := by rw [hpos, chunkLen_of_oneBlock hfn hblock]; omega
  have hmoves : chunkMoves c c.pos c.b0.toNat (s, [], none) = (s, (List.range c.b0.toNat).map (moveOf c ps pd), none) := by
    rw [hpos]
    exact chunkMoves_seen hfn hsrc hdst _ le_rfl
  let ms := (List.range c.b0.toNat).map (moveOf c ps pd)
  have htouch := banksMoved_touchChunk c ms s
  have hover : c.mayOverlap = false := mayOverlap_of_apart hfn htop (by have := c.dst.isLt; omega) hva hlen
  have hmoved : s.moveChunk c ms = ({ s.touchChunk c ms with mem := memPut s.mem pd (memBytes s.mem ps c.b0.toNat) }, c.olds) := by
    have hbytes := moveBytes_apart (c := c) (htouch.fmtWins.trans hw) (show (s.touchChunk c ms).MemOk by rw [State.MemOk, htouch.mem]; exact hok) hpa
      c.b0.toNat 0 (Nat.zero_add _).le
    rw [← List.range_eq_range', htouch.mem] at hbytes
    rw [State.moveChunk]
    simp only [hover]
    exact congrArg (·, c.olds) hbytes
  obtain ⟨hmem, hcopies⟩ := movePoison_keeps s.poison ms { s.touchChunk c ms with mem := memPut s.mem pd (memBytes s.mem ps c.b0.toNat) }
  refine ⟨_, ?_, hcopies.trans (congrArg State.copies htouch.back :), hmem⟩
  have htotal : c.total ≤ c.pos + c.b0.toNat := by simp [CopyCmd.total, hfn]
  rw [State.copyChunk]
  simp only [hstop, hpaused, hheld, hfn, hn, hmoves, Bool.or_self, Bool.false_eq_true, if_false, (by decide : ¬ (0 = 3)), hmoved, State.deliverCopy,
    haw, if_pos htotal, ms]

/-! ### Arrival words -/

theorem leNat_append (l r : List Byte) : leNat (l ++ r) = leNat l + 256 ^ l.length * leNat r := by
  induction l with
  | nil => simp [leNat]
  | cons b l ih =>
    rw [List.cons_append, leNat, ih, leNat, List.length_cons]
    ring

theorem memBytes_length (m : Memory) (a n : Nat) : (memBytes m a n).length = n := by rw [memBytes_eq_map, List.length_map, List.length_range]

theorem memBytes_add (m : Memory) (a k n : Nat) : memBytes m a (k + n) = memBytes m a k ++ memBytes m (a + k) n := by
  rw [memBytes_eq_map, memBytes_eq_map, memBytes_eq_map, List.range_add, List.map_append, List.map_map]
  simp [Function.comp_def, Nat.add_assoc]

theorem word_toNat_mod (x : Nat) : (word x).toNat = x % 2 ^ 64 := BitVec.toNat_ofNat x 64

/-- Two doubles' bytes are those of their pair. -/
theorem leBytes_pair (x y : Word) : leBytes 8 x.toNat ++ leBytes 8 y.toNat = leBytes 16 (pair x.toNat y.toNat) := by
  have hlen : (leBytes 8 x.toNat ++ leBytes 8 y.toNat).length = 16 := by rw [List.length_append, Laws.length_leBytes, Laws.length_leBytes]
  have hval : leNat (leBytes 8 x.toNat ++ leBytes 8 y.toNat) = pair x.toNat y.toNat := by
    rw [leNat_append, Laws.leNat_leBytes, Laws.leNat_leBytes, Laws.length_leBytes, pair]
    omega
  rw [← hval, ← hlen, leBytes_leNat]

/-- A delivery adds its bytes to an arrival word's COUNT (10 R294). -/
theorem awDeliver_eq_awAdded (n : Nat) {x : Nat} (hx : x < 2 ^ 128) :
    pair (awDeliver n (word (x % 2 ^ 64)) (word (x / 2 ^ 64))).1.toNat (awDeliver n (word (x % 2 ^ 64)) (word (x / 2 ^ 64))).2.toNat = awAdded n x := by
  have hlow : (word (x % 2 ^ 64)).toNat = x % 2 ^ 64 := by rw [word_toNat_mod]; omega
  have hhigh : (word (x / 2 ^ 64)).toNat = x / 2 ^ 64 := by rw [word_toNat_mod]; omega
  have htarget : awTarget (word (x % 2 ^ 64)) = x % 2 ^ 40 := by rw [awTarget, bitsOf, hlow]; omega
  have hcount : bitsOf (word (x / 2 ^ 64)) 39 0 = x / 2 ^ 64 % 2 ^ 40 := by rw [bitsOf, hhigh]; omega
  have hgen : bitsOf (word (x / 2 ^ 64)) 59 40 = x / 2 ^ 104 % 2 ^ 20 := by rw [bitsOf, hhigh]; omega
  have hovr : bitsOf (word (x / 2 ^ 64)) 60 60 = x / 2 ^ 124 % 2 := by rw [bitsOf, hhigh]; omega
  have herr : bitsOf (word (x / 2 ^ 64)) 61 61 = x / 2 ^ 125 % 2 := by rw [bitsOf, hhigh]; omega
  have hpack : ∀ (t g m : Nat) (e o : Bool), pair (awPack t e o g m).1.toNat (awPack t e o g m).2.toNat =
      pair (t % 2 ^ 40) (m % 2 ^ 40 + g % 2 ^ 20 * 2 ^ 40 + o.toNat * 2 ^ 60 + e.toNat * 2 ^ 61) := fun t g m e o => by
    cases e <;> cases o <;> simp only [awPack, word_toNat_mod, pair, Bool.toNat_false, Bool.toNat_true, Bool.false_eq_true, if_false, if_true] <;> omega
  have hbit : ∀ b : Nat, (decide (b % 2 = 1)).toNat = b % 2 := fun b => by
    rcases Nat.mod_two_eq_zero_or_one b with h | h <;> rw [h] <;> rfl
  unfold awDeliver awAdded
  simp only [htarget, hcount, hgen, hovr, herr]
  split
  · rw [hpack, hbit]
    by_cases hlt : x % 2 ^ 40 < x / 2 ^ 64 % 2 ^ 40 + n
    · rw [decide_eq_true hlt, Bool.or_true, if_pos hlt, Nat.mod_mod]
      simp
    · rw [decide_eq_false hlt, Bool.or_false, if_neg hlt, hbit, Nat.mod_mod]
  · next hlt =>
    rw [hpack, hbit, hbit, Nat.mod_mod, Nat.mod_mod, Nat.mod_eq_of_lt (show x / 2 ^ 64 % 2 ^ 40 + n < 2 ^ 40 by omega)]

/-- An update of an arrival word performs the two doubles that come of those read (10 R293). -/
theorem awUpdate_eq (f : Word → Word → Word × Word) (s : State) : s.awUpdate a f =
    s.performAs false a (leBytes 8 (f (s.awRead a).1 (s.awRead a).2).1.toNat ++ leBytes 8 (f (s.awRead a).1 (s.awRead a).2).2.toNat) := by
  rw [State.awUpdate, State.perform]

/-- An update of an arrival word in plain HBM writes its 16 bytes (10 R293, R294). -/
theorem awUpdate_deliver (hw : s.unc.fmtWins = []) (n : Nat) :
    (s.awUpdate a (awDeliver n)).mem = memPut s.mem a (leBytes 16 (awAdded n (leNat (memBytes s.mem a 16)))) := by
  have hsplit : leNat (memBytes s.mem a 16) = leNat (memBytes s.mem a 8) + 2 ^ 64 * leNat (memBytes s.mem (a + 8) 8) := by
    rw [memBytes_add s.mem a 8 8, leNat_append, memBytes_length]
    norm_num
  have hlt : ∀ b, leNat (memBytes s.mem b 8) < 2 ^ 64 := fun b => by simpa [memBytes_length] using leNat_lt (memBytes s.mem b 8)
  have h0 := hlt a
  have h1 := hlt (a + 8)
  have hlow : leNat (memBytes s.mem a 16) % 2 ^ 64 = leNat (memBytes s.mem a 8) := by omega
  have hhigh : leNat (memBytes s.mem a 16) / 2 ^ 64 = leNat (memBytes s.mem (a + 8) 8) := by omega
  have hread : s.awRead a = (word (leNat (memBytes s.mem a 16) % 2 ^ 64), word (leNat (memBytes s.mem a 16) / 2 ^ 64)) := by
    rw [State.awRead, State.bytesAt_plain hw, State.bytesAt_plain hw, hlow, hhigh]
  rw [awUpdate_eq, performAs_mem hw, hread, leBytes_pair, awDeliver_eq_awAdded n (by omega)]

theorem onlyMemory_awUpdate (f : Word → Word → Word × Word) : OnlyMemory s (s.awUpdate a f) := by
  rw [awUpdate_eq]
  exact onlyMemory_performAs false a _ s

/-- cpq, once no older command of its thread is out, delivers its count to its arrival word and ends (10 R297). -/
theorem copyChunk_delivers {va : Word} (hfn : c.fn = 3) (hheld : c.held = false) (hstop : c.stopping = false) (hpaused : c.paused = false)
    (haw : c.aw = some va) (hfirst : ∀ x ∈ s.copies, ¬ (x.owner = c.owner ∧ x.seq < c.seq)) (hsees : EngineSees s c.core c.ctx va 16 .write a) :
    s.copyChunk c = (s.awUpdate a (awDeliver c.b0.toNat)).dropCopy c := by
  obtain ⟨-, -, hcells⟩ := hsees
  have hx : s.engineXlate c.core c.ctx va .write = (s, .cell a) := by simpa [word] using hcells 0 (by decide)
  have holder : s.olderCopy c = false := List.any_eq_false.mpr fun x hx => by simpa using hfirst x hx
  rw [State.copyChunk, if_neg (by simp [hstop]), if_neg (by simp [hpaused, hheld]), if_pos hfn, if_neg (by simp [holder]), State.deliverCopy, haw]
  simp only [hx]

/-! ### Abandoning, and mapping a page -/

/-- A command that is abandoned leaves ERR with its thread, in its slot (10 R300). -/
theorem abandonCopy_of_thread (haw : c.aw = none) (hplace : c.owner = s.th.bind.place) (hlow : c.owner < 4096) (hslot : s.th.life.inSlot = true) :
    s.abandonCopy c = { s.onLn fun l => { l with cpErr := true } with copies := withoutCopy s c } := by
  have hat : s.th.isAt c.owner = true := by simp [Thread.isAt, hplace, hslot]
  have himages : (s.images.map fun t => if imageOwner t.bind = c.owner then { t with ln := { t.ln with cpErr := true } } else t) = s.images :=
    (List.map_congr_left fun t _ => if_neg (show ¬ imageOwner t.bind = c.owner by unfold imageOwner; omega)).trans (List.map_id _)
  have hs : (s.at c.owner fun t => t.onTh fun t => { t with ln := { t.ln with cpErr := true } }) = s.onLn fun l => { l with cpErr := true } :=
    if_pos hat
  rw [State.abandonCopy]
  simp only [hs, haw]
  exact congrArg (fun l => { s.onLn (fun l => { l with cpErr := true }) with copies := withoutCopy s c, images := l }) himages

theorem mapEntry_keeps (w : Walker) (va : Word) (s : State) : (s.mapEntry w va).th = s.th ∧ (s.mapEntry w va).copies = s.copies := by
  unfold State.mapEntry
  split
  · exact ⟨rfl, rfl⟩
  · next p _ =>
    have h := onlyMemory_performAs false (s.draw.2.cellOf p) (leBytes 8 (Config.freeWord s.draw.1 ||| 1).toNat) s.draw.2
    exact ⟨h.th, h.copies⟩

/-- Mapping a page leaves the thread and the commands (10 R300). -/
theorem mapPage_keeps (w : Walker) (s : State) : (s.mapPage w).th = s.th ∧ (s.mapPage w).copies = s.copies :=
  forUpTo_keeps (P := fun u : State => u.th = s.th ∧ u.copies = s.copies)
    (fun _ u hu => ⟨(mapEntry_keeps w _ u).1.trans hu.1, (mapEntry_keeps w _ u).2.trans hu.2⟩) _ _ ⟨rfl, rfl⟩

/-- A free value drawn makes no entry missing. -/
theorem missingPte_draw (w : Walker) (va : Word) (s : State) : s.draw.2.missingPte w va = s.missingPte w va := by
  have hread : s.draw.2.readPte = s.readPte := rfl
  unfold State.missingPte
  rw [hread]

/-- Where no entry is missing Eloaler maps nothing. -/
theorem mapPage_of_none_missing {w : Walker} (h : ∀ va, s.missingPte w va = none) : s.mapPage w = s.draw.2 := by
  refine forUpTo_eq_self fun _ _ => ?_
  rw [State.mapEntry, missingPte_draw, h]

/-- A page that a waiting command needs is mapped, and it goes on (10 R300). -/
theorem exec_copyPageMapped (h : InSlot s core slot c) (hheld : c.held = true) :
    ∃ t, exec (.copyPageMapped core slot) s = .next t ∧
      t.copies = s.copies.map (fun x => if x.owner = c.owner ∧ x.seq = c.seq then { x with held := false } else x) ∧ t.th = s.th ∧
      ((∀ va, s.missingPte (s.walkerOf c.ctx) va = none) → t.mem = s.mem) := by
  obtain ⟨hth, hcopies⟩ := mapPage_keeps (s.walkerOf c.ctx) s
  let t := (s.mapPage (s.walkerOf c.ctx)).onCopyCmd c fun x => { x with held := false }
  have ht : t.copies = s.copies.map fun x => if x.owner = c.owner ∧ x.seq = c.seq then { x with held := false } else x :=
    congrArg (fun l => l.map fun x : CopyCmd => if x.owner = c.owner ∧ x.seq = c.seq then { x with held := false } else x) hcopies
  have hpaused : ∀ x ∈ t.copies, x.paused = false := fun x hx => by
    rw [ht] at hx
    obtain ⟨y, hy, rfl⟩ := List.mem_map.mp hx
    split <;> exact h.2 y hy
  refine ⟨t, congrArg Host.Outcome.next ?_, ht, hth, fun hnone => ?_⟩
  · exact (onSlot_of_inSlot (p := (·.held)) h hheld _).trans (readmitCopies_of_none_paused hpaused)
  · exact (congrArg State.mem (mapPage_of_none_missing hnone) :)

end Sys2Proof.Claims

end

section

/-! ## Events of memory

Scrubs, and the settling of O56 from the parts above. -/

namespace Sys2Proof.Claims

open Sys2Proof.Machine

variable {s t : State} {die stack slice g : Nat}

/-! ### Scrubs of memory -/

/-- Poisoning a granule marks it and no other, and changes nothing else (07 R192). -/
theorem poisonGranule_effect (g : Nat) (s : State) : g ∈ (s.poisonGranule g).poison ∧
    (∀ x, x ≠ g → (x ∈ (s.poisonGranule g).poison ↔ x ∈ s.poison)) ∧ { s.poisonGranule g with poison := s.poison } = s := by
  unfold State.poisonGranule
  split
  · next h => exact ⟨by simpa using h, fun _ _ => .rfl, rfl⟩
  · exact ⟨List.mem_cons_self, fun x hx => by simp [hx], rfl⟩

/-- The state with the patrol of a stack gone on by a line. -/
def patrolled (s : State) (die stack : Nat) : State :=
  { s with dev := { s.dev with patrol := s.dev.patrol.modify (2 * die + stack) fun k => (k + 1) % 2 ^ 28 } }

/-- Whether the bank of a stack's next line owes a refresh. -/
def patrolOwes (s : State) (die stack : Nat) : Nat :=
  let b := bankOf (patrolLine die stack (s.dev.patrol.getD (2 * die + stack) 0))
  (s.bankAt b.1 b.2.1 b.2.2.1).owed

theorem exec_patrolScrub (hdie : die < 4) (hstack : stack < 2) (bad : Bool) : exec (.patrolScrub die stack bad) s = .next
    (if 0 < patrolOwes s die stack then s else if bad then
      let d := ((patrolled s die stack).scrubbed bad).draw
      d.2.poisonGranule (patrolLine die stack (s.dev.patrol.getD (2 * die + stack) 0) / 32 + Config.freeChoice d.1 % 8)
      else (patrolled s die stack).scrubbed bad) := by
  show execPatrolScrub die stack bad s = _
  unfold execPatrolScrub patrolOwes patrolled
  rw [if_neg (by omega)]

/-- An uncorrectable error of the patrol poisons one of the line's eight granules (14 R420, R421). -/
theorem patrolScrub_poisons (hdie : die < 4) (hstack : stack < 2) (howed : patrolOwes s die stack = 0) :
    let line := patrolLine die stack (s.dev.patrol.getD (2 * die + stack) 0)
    ∃ t g, exec (.patrolScrub die stack true) s = .next t ∧ Scrubbed s t true ∧ line / 32 ≤ g ∧ g < line / 32 + 8 ∧ g ∈ t.poison ∧
      (∀ x, x ≠ g → (x ∈ t.poison ↔ x ∈ s.poison)) ∧ { t with poison := s.poison, tele := s.tele, freeCount := s.freeCount } = patrolled s die stack := by
  intro line
  let u := ((patrolled s die stack).scrubbed true).draw.2
  let g := line / 32 + Config.freeChoice ((patrolled s die stack).scrubbed true).draw.1 % 8
  obtain ⟨hin, hothers, hrest⟩ := poisonGranule_effect g u
  have height : Config.freeChoice ((patrolled s die stack).scrubbed true).draw.1 % 8 < 8 := Nat.mod_lt _ (by decide)
  have htele : (u.poisonGranule g).tele = u.tele := (congrArg State.tele hrest :)
  refine ⟨u.poisonGranule g, g, ?_, ?_, Nat.le_add_right _ _, Nat.add_lt_add_left height _, hin, hothers, ?_⟩
  · rw [exec_patrolScrub hdie hstack, if_neg (by rw [howed]; decide), if_pos rfl]
  · rw [Scrubbed, htele]
    exact scrubbed_scrubbed true s
  · exact (congrArg (fun v : State => { v with tele := s.tele, freeCount := s.freeCount }) hrest :)

theorem patrolScrub_corrects (hdie : die < 4) (hstack : stack < 2) (howed : patrolOwes s die stack = 0) :
    ∃ t, exec (.patrolScrub die stack false) s = .next t ∧ Scrubbed s t false ∧
      { t with tele := s.tele, freeCount := s.freeCount } = patrolled s die stack := by
  refine ⟨(patrolled s die stack).scrubbed false, ?_, scrubbed_scrubbed false s, rfl⟩
  rw [exec_patrolScrub hdie hstack, if_neg (by rw [howed]; decide), if_neg Bool.false_ne_true]

/-- A scrub of shared store goes on by a granule, and an uncorrectable error may poison one (14 R420, R421). -/
theorem exec_sharedStoreScrub (hdie : die < 4) (hslice : slice < 56) (bad : Bool) : ∃ t, exec (.sharedStoreScrub die slice bad) s = .next t ∧
    Scrubbed s t bad ∧ t.dev.scrub = s.dev.scrub.modify (56 * die + slice) (fun k => (k + 1) % 49152) ∧ (bad = false → t.poison = s.poison) ∧
    (∀ x ∈ s.poison, x ∈ t.poison) ∧
    { t with poison := s.poison, tele := s.tele, freeCount := s.freeCount, dev := { t.dev with scrub := s.dev.scrub } } = s := by
  let on : State := { s with dev := { s.dev with scrub := s.dev.scrub.modify (56 * die + slice) fun k => (k + 1) % 49152 } }
  have hexec : exec (.sharedStoreScrub die slice bad) s = .next (match s.sliceGranule die slice (s.dev.scrub.getD (56 * die + slice) 0) with
      | some g => if bad then (on.scrubbed bad).poisonGranule g else on.scrubbed bad
      | none => on.scrubbed bad) := congrArg Host.Outcome.next (if_neg (by omega))
  have hplain : Scrubbed s (on.scrubbed bad) bad ∧ (on.scrubbed bad).dev = on.dev ∧ (on.scrubbed bad).poison = s.poison ∧
      { on.scrubbed bad with poison := s.poison, tele := s.tele, freeCount := s.freeCount, dev := s.dev } = s := by
    cases bad with
    | true => exact ⟨scrubbed_scrubbed true on, rfl, rfl, rfl⟩
    | false => exact ⟨scrubbed_scrubbed false on, rfl, rfl, rfl⟩
  obtain ⟨hscrub, hdev, hpoison, hrest⟩ := hplain
  have hkeep : ∀ u : State, { u with poison := (on.scrubbed bad).poison } = on.scrubbed bad → (bad = false → u.poison = s.poison) →
      (∀ x ∈ s.poison, x ∈ u.poison) → Scrubbed s u bad ∧ u.dev.scrub = on.dev.scrub ∧ (bad = false → u.poison = s.poison) ∧
        (∀ x ∈ s.poison, x ∈ u.poison) ∧
        { u with poison := s.poison, tele := s.tele, freeCount := s.freeCount, dev := { u.dev with scrub := s.dev.scrub } } = s :=
    fun u hu hclean hmore => by
    have htele : u.tele = (on.scrubbed bad).tele := (congrArg State.tele hu :)
    have hscrubbed : u.dev = (on.scrubbed bad).dev := (congrArg State.dev hu :)
    have hudev := hscrubbed.trans hdev
    refine ⟨by rw [Scrubbed, htele]; exact hscrub, by rw [hudev], hclean, hmore, ?_⟩
    rw [hudev]
    exact (congrArg (fun v : State => { v with poison := s.poison, tele := s.tele, freeCount := s.freeCount, dev := s.dev }) hu :).trans hrest
  have hscrubbed := hkeep (on.scrubbed bad) rfl (fun _ => hpoison) fun x hx => hpoison ▸ hx
  rw [hexec]
  split
  · next g _ =>
    split
    · next hbad =>
      obtain ⟨hin, hothers, hsame⟩ := poisonGranule_effect g (on.scrubbed bad)
      refine ⟨_, rfl, hkeep _ hsame (fun h => absurd (h.symm.trans hbad) (by decide)) fun x hx => ?_⟩
      by_cases hxg : x = g
      · rwa [hxg]
      · exact (hothers x hxg).mpr (hpoison ▸ hx)
    · exact ⟨_, rfl, hscrubbed⟩
  · exact ⟨_, rfl, hscrubbed⟩

/-! ### The clauses -/

theorem refreshes (hdie : die < 4) (hstack : stack < 2) {bank : Nat} (hbank : bank < 1024) :
    let b := s.bankAt die stack bank
    let same := fun (t : State) => ∀ d k n, (d, k, n) ≠ (die, stack, bank) → t.bankAt d k n = s.bankAt d k n
    (∀ idle, ∃ t, exec (.refreshDue die stack bank idle) s = .next t ∧ same t ∧ { t with unc := { t.unc with banks := s.unc.banks } } = s ∧
      (t.bankAt die stack bank).owed = (if idle then b.owed else b.owed + 1) ∧
      (t.bankAt die stack bank).row = if idle then none else b.row) ∧
    (b.owed = 0 → exec (.owedRefresh die stack bank) s = .next s) ∧
    (0 < b.owed → ∃ t, exec (.owedRefresh die stack bank) s = .next t ∧ same t ∧ { t with unc := { t.unc with banks := s.unc.banks } } = s ∧
      (t.bankAt die stack bank).owed = b.owed - 1 ∧ (t.bankAt die stack bank).row = none) := by
  intro b same
  obtain ⟨hd, hk, hn⟩ := bankAt_place s die stack bank
  refine ⟨fun idle => ?_, fun h0 => congrArg Host.Outcome.next (if_neg (by rw [h0]; decide)), fun hpos => ?_⟩
  · let new : Bank := if idle then { b with row := none } else { b with owed := b.owed + 1 }
    have hplace : new.die = die ∧ new.stack = stack ∧ new.bank = bank := by cases idle <;> exact ⟨hd, hk, hn⟩
    obtain ⟨hother, hrest, hnew⟩ := setBank_effect hplace.1 hplace.2.1 hplace.2.2 s
    have hbank : isBank die stack bank = true := by simp [isBank, hdie, hstack, hbank]
    refine ⟨s.setBank new, congrArg Host.Outcome.next (if_pos hbank), hother, hrest, ?_⟩
    rw [hnew]
    cases idle <;> exact ⟨rfl, rfl⟩
  · obtain ⟨hother, hrest, hnew⟩ := setBank_effect (b := { b with owed := b.owed - 1, row := none }) hd hk hn s
    exact ⟨_, congrArg Host.Outcome.next (if_pos hpos), hother, hrest, by rw [hnew], by rw [hnew]⟩

theorem fills (pa : Nat) (hpa : pa < 2 ^ 40) (hlow : pa % 2 ^ 38 < 2 ^ 37) (hways : s.l2Ways (pa / 2 ^ 38) ≠ [])
    (hmiss : ∀ x ∈ s.unc.l2, x.line ≠ pa / 256) :
    let die := pa / 2 ^ 38
    let slice := pa % 2 ^ 38 / 256 % 56
    let set := pa % 2 ^ 38 / 256 / 56 % 384
    let here := fun (x : L2Line) => x.die = die ∧ x.slice = slice ∧ x.set = set
    ∃ t way, exec (.l2Fill pa) s = .next t ∧ way ∈ s.l2Ways die ∧
      { die := die, slice := slice, set := set, way := way, line := pa / 256, dirty := false } ∈ t.unc.l2 ∧
      (∀ x, ¬ (here x ∧ x.way = way) → (x ∈ t.unc.l2 ↔ x ∈ s.unc.l2)) ∧
      ((∃ w ∈ s.l2Ways die, ∀ x ∈ s.unc.l2, here x → x.way ≠ w) → ∀ x ∈ s.unc.l2, here x → x.way ≠ way) ∧
      ((∀ w ∈ s.l2Ways die, ∃ x ∈ s.unc.l2, here x ∧ x.way = w) → (s.unc.cuts.map fun c => (c.die, c.index)).Nodup →
        (s.unc.l2.map fun x => (x.die, x.slice, x.set, x.way)).Nodup → ∀ x ∈ s.unc.l2, here x → x.way = way →
        ∀ y ∈ s.unc.l2, here y → y.way ∈ s.l2Ways die → ∀ k m, ClassIs s die x.line k → ClassIs s die y.line m →
          k ≤ m ∧ (k = m → way ≤ y.way)) ∧
      { t with unc := { t.unc with l2 := s.unc.l2, banks := s.unc.banks, forced := s.unc.forced } } = s := by
  intro die slice set here
  obtain ⟨way, hway, hv⟩ := exists_victim (slice := slice) (set := set) hways
  obtain ⟨t, hexec, hfilled, hothers, hrest⟩ := exec_l2Fill_miss hpa hlow hmiss hv
  exact ⟨t, way, hexec, hway, hfilled, hothers, victim_free hv,
    fun _ hcuts hlines x hx hin hxw y hy hyin hyw k m => victim_least hv hcuts hlines hx hin hxw hy hyin hyw, hrest⟩

theorem copyEvents {core slot : Nat} {c : CopyCmd} (h : InSlot s core slot c) :
    (∀ (ps pd : Nat), c.fn = 0 → c.held = false → c.stopping = false → c.aw = none → c.pos = 0 → c.olds = [] → 0 < c.b0.toNat →
      c.dst.toNat % 4096 + c.b0.toNat ≤ 4096 → c.src.toNat + c.b0.toNat ≤ 2 ^ 64 → s.MemOk →
      (c.src.toNat + c.b0.toNat ≤ c.dst.toNat ∨ c.dst.toNat + c.b0.toNat ≤ c.src.toNat) →
      (ps + c.b0.toNat ≤ pd ∨ pd + c.b0.toNat ≤ ps) →
      EngineSees s c.core c.ctx c.src c.b0.toNat .read ps → EngineSees s c.core c.ctx c.dst c.b0.toNat .write pd →
      ∃ t, exec (.copyChunkDelivery core slot) s = .next t ∧ t.copies = withoutCopy s c ∧
        BytesWritten s t pd (memBytes s.mem ps c.b0.toNat)) ∧
    (∀ va a, c.fn = 3 → c.held = false → c.stopping = false → c.aw = some va → (∀ x ∈ s.copies, ¬ (x.owner = c.owner ∧ x.seq < c.seq)) →
      s.MemOk → EngineSees s c.core c.ctx va 16 .write a → c.b0.toNat < 2 ^ 40 →
      ∃ t, exec (.cpqDelivery core slot) s = .next t ∧ t.copies = withoutCopy s c ∧
        BytesWritten s t a (leBytes 16 (awAdded c.b0.toNat (leNat (memBytes s.mem a 16))))) ∧
    (c.held = true ∨ c.stopping = true → c.aw = none → c.owner = s.th.bind.place → c.owner < 4096 → s.th.life.inSlot = true →
      exec (.copyAbandon core slot) s = .next { s.onLn fun l => { l with cpErr := true } with copies := withoutCopy s c }) := by
  have hin : c ∈ s.copies := (List.mem_filter.mp (h.1 ▸ List.mem_singleton_self c)).1
  have hpaused := h.2 c hin
  refine ⟨fun ps pd hfn hheld hstop haw hpos _ hlen hblock htop hok hva hpa hsrc hdst => ?_,
    fun va a hfn hheld hstop haw hfirst hok hsees _ => ?_, fun hend haw hplace hlow hslot => ?_⟩
  · obtain ⟨u, hu, hcopies, hmem⟩ := copyChunk_moves hfn hheld hstop hpaused haw hpos hlen hblock htop hok hva hpa hsrc hdst
    obtain ⟨hreadmit, hleft⟩ := readmit_dropCopy (c := c) h.2 hcopies
    refine ⟨u.dropCopy c, congrArg Host.Outcome.next ?_, hleft, bytesWritten_of_memPut hok hmem⟩
    rw [onSlot_of_inSlot h (by simp [hfn]), hu, hreadmit]
  · obtain ⟨hreadmit, hleft⟩ := readmit_dropCopy (c := c) (t := s.awUpdate a (awDeliver c.b0.toNat)) h.2 (onlyMemory_awUpdate _).copies
    have hmem := (dropCopy_mem c (s.awUpdate a (awDeliver c.b0.toNat))).trans (awUpdate_deliver hsees.1.2.2 _)
    refine ⟨(s.awUpdate a (awDeliver c.b0.toNat)).dropCopy c, congrArg Host.Outcome.next ?_, hleft, bytesWritten_of_memPut hok hmem⟩
    rw [onSlot_of_inSlot h (by simp [hfn]), copyChunk_delivers hfn hheld hstop hpaused haw hfirst hsees, hreadmit]
  · refine congrArg Host.Outcome.next ?_
    rw [onSlot_of_inSlot h (by simpa using hend), abandonCopy_of_thread haw hplace hlow hslot]
    exact readmitCopies_of_none_paused (withoutCopy_not_paused h.2)

/-- Settles O56: each event of memory by the lemma of its part. -/
theorem memoryEvents : Obligations.MemoryEvents := by
  refine ⟨fun s p hat hok => ⟨fun e es hlife hq => ⟨fun hheld => ?_, storeQueueLeave_leaves hat hlife hok hq⟩,
      fun e k hk _ hkind hremote hp halone => stripEntryDrain_drains hat hok hk hkind hremote hp halone,
      fun k => congrArg Host.Outcome.next (at_of_isAt hat), fun hlife cl hcl va acc => exec_tlbWalk hat hlife hcl,
      fun r b bad hr hb => exec_registerFileScrub hat hr hb bad⟩,
    fun s pa hpa hlow => ⟨fun hhit => congrArg Host.Outcome.next (l2Fill_hit hhit), fun hmiss hways => fills pa hpa hlow hways hmiss⟩,
    fun s die stack bank hdie hstack hbank => refreshes hdie hstack hbank,
    fun s r hop hbytes halign hok hp => ?_,
    fun s die home => ⟨fun hnone => congrArg Host.Outcome.next (mirrorApply_none hnone),
      fun before e after hsplit hdie hhome hbefore => exec_syncMirrorUpdate hsplit hdie hhome hbefore⟩,
    fun s die src core before after q hsplit hdie hsrc hleft hbefore => exec_postRingArrival hsplit hdie hsrc hleft hbefore,
    fun s core slot c h => ?_,
    fun s die stack hdie hstack => ⟨fun howed bad => ?_, fun howed => ⟨patrolScrub_corrects hdie hstack howed, patrolScrub_poisons hdie hstack howed⟩⟩,
    fun s die slice bad hdie hslice => exec_sharedStoreScrub hdie hslice bad⟩
  · exact congrArg Host.Outcome.next ((whenRunning_of_isAt hat hlife).trans (leaveOneStore_held hq hheld))
  · obtain ⟨hreq, hpos, hbits⟩ := aluRequest_ok hop hbytes halign
    refine ⟨fun hpoison => ?_, sliceAluRequest_performs hreq hpos hbits hok hp⟩
    rw [exec_sliceAluRequest hreq hpos hbits hp, if_pos ((poisoned_plain hp.2.2 r.pa).mpr hpoison)]
  · obtain ⟨hchunk, hcpq, habandon⟩ := copyEvents h
    exact ⟨hchunk, hcpq, habandon, exec_copyPageMapped h⟩
  · exact (exec_patrolScrub hdie hstack bad).trans (congrArg Host.Outcome.next (if_pos howed))

end Sys2Proof.Claims

end

section

/-! ## Events of a thread where two threads stand at one place

An event names its thread by the place where it stands. O55 asks nothing about the other threads of the package, so that one of another launch
may stand at the same place. A word whose fault ends the thread then leaves that one for the next event of the place: the retirement that comes
after the word's issue in a lagging model retires the neighbour's convoy, where a prompt model leaves the neighbour alone. -/

namespace Sys2Proof.Claims

open Sys2Proof.Machine

/-- The state that an instruction or an event leaves. -/
def afterExec (i : Instr) (s : State) : State := match exec i s with | .next t => t | _ => s

theorem afterExec_of_next {i : Instr} {s t : State} (h : exec i s = .next t) : afterExec i s = t := by rw [afterExec, h]

/-- `vcvt v2, v1` from i8 to the type of a format register that holds no valid format: its checks at the lanes fail (06 R141, R151). -/
def unformattedWord : VWord := { plainWord with fn := 14, vd := 2, va := 1 }

/-- A thread at place 0 that runs at U without a handler, with vl = 1. -/
def bareThread : Thread :=
  { Thread.reset with life := .running, fr := { Front.reset with copy := { Copies.reset with vl := 1 } }, ln := { Lanes.reset with vl := 1 } }

/-- A thread of another launch at the same place, whose only word is complete and has not retired. -/
def neighbour : Thread :=
  let s : State := { State.reset with th := bareThread }
  { bareThread with
    bind := { bareThread.bind with launch := 1 }
    fr := { bareThread.fr with viq := [{ entry s 0x00 plainWord with safe := true, complete := true }] } }

/-- Two threads of different launches at one place. -/
def doubled : State := { State.reset with th := bareThread, others := [neighbour] }

/-- How many words the threads that are not current have in the VIQ. -/
def neighbourWords (s : State) : List Nat := s.others.map fun t => t.fr.viq.length

theorem doubled_streams (n : Nat) : (vecGet doubled.th.fab.fs n .reset).bound = false := by
  by_cases hn : n < 8
  · exact (by decide +kernel : ∀ k < 8, (vecGet doubled.th.fab.fs k .reset).bound = false) n hn
  · simp [vecGet, hn]
    rfl

theorem unformattedWord_ready : Ready doubled 0x38 unformattedWord where
  idle := ⟨rfl, rfl, rfl, rfl, rfl, rfl, rfl⟩
  atU := rfl
  width := by decide +kernel
  alone := rfl
  sent := by decide +kernel
  issues := by decide +kernel
  vl := by decide +kernel
  marks := rfl
  samples := by decide +kernel
  streams := doubled_streams

/-- In a prompt model the word faults and ends its thread, and the neighbour stays as it is (12 R350, R352). -/
theorem neighbour_kept_by_prompt_word : neighbourWords (afterExec (.vcvt unformattedWord) doubled) = [1] := by decide +kernel

/-- In a lagging model the issue ends the thread, and the retirement that follows finds the neighbour at its place (05 R119). -/
theorem neighbour_retired_by_event : neighbourWords
    (afterExec (.convoyRetire 0) (afterExec (.convoyIssue 0 (2 ^ 32)) (afterExec (.vcvt unformattedWord) (lagging doubled)))) = [0] := by
  decide +kernel

/-- Refutes O55: with two threads at one place, a word that ends its thread does not leave in a lagging model what it leaves in a prompt one,
since the convoy that its retirement event retires is the other thread's. -/
theorem not_threadEvents : ¬ Obligations.ThreadEvents := by
  intro h
  have hat : doubled.th.isAt 0 = true := by decide +kernel
  have hformed : (Instr.vcvt unformattedWord).wellFormed = true := by decide +kernel
  obtain ⟨-, -, hevents, -⟩ := h
  obtain ⟨hwords, -⟩ := hevents doubled 0 hat rfl
  obtain ⟨hlanes, -⟩ := hwords (.vcvt unformattedWord) 0x38 unformattedWord 0 (2 ^ 32) rfl (by decide) hformed unformattedWord_ready le_rfl
  obtain ⟨a, b, c, t, ha, -, hb, hc, ht, hct⟩ := hlanes (by decide)
  have hretired := neighbour_retired_by_event
  rw [afterExec_of_next ha, afterExec_of_next hb, afterExec_of_next hc, hct] at hretired
  have hkept := neighbour_kept_by_prompt_word
  rw [afterExec_of_next ht] at hkept
  have hsame : neighbourWords (lagging t) = neighbourWords t := rfl
  rw [hsame, hkept] at hretired
  exact absurd hretired (by decide)

end Sys2Proof.Claims

end

section

/-! ## Fields of a word

A field of a word is read and replaced as a run of bits (02 Table 2.4). -/

namespace Sys2Proof.Claims

open Sys2Proof.Machine

theorem bitsOf_eq_field (x : Word) (hi lo : Nat) : bitsOf x hi lo = field x lo (hi + 1 - lo) := by
  rw [bitsOf, field, Nat.shiftRight_eq_div_pow]

/-- A number is what stands above a field, the field, and what stands below it. -/
theorem field_split (x lo n : Nat) : x = 2 ^ lo * (2 ^ n * (x / 2 ^ lo / 2 ^ n) + x / 2 ^ lo % 2 ^ n) + x % 2 ^ lo := by
  rw [Nat.div_add_mod, Nat.div_add_mod]

theorem testBit_putBits (x : Word) {lo n : Nat} (v p : Nat) (h : lo + n ≤ 64) :
    (putBits x lo n v).toNat.testBit p = if lo ≤ p ∧ p < lo + n then v.testBit (p - lo) else x.toNat.testBit p := by
  have hlow : x.toNat % 2 ^ lo < 2 ^ lo := Nat.mod_lt _ (Nat.two_pow_pos lo)
  have hmid : x.toNat / 2 ^ lo % 2 ^ n < 2 ^ n := Nat.mod_lt _ (Nat.two_pow_pos n)
  have hnew : v % 2 ^ n < 2 ^ n := Nat.mod_lt _ (Nat.two_pow_pos n)
  have hsplit := field_split x.toNat lo n
  have hput : x.toNat - x.toNat / 2 ^ lo % 2 ^ n * 2 ^ lo + v % 2 ^ n * 2 ^ lo =
      2 ^ lo * (2 ^ n * (x.toNat / 2 ^ lo / 2 ^ n) + v % 2 ^ n) + x.toNat % 2 ^ lo := by
    generalize x.toNat / 2 ^ lo / 2 ^ n = a at *
    generalize x.toNat / 2 ^ lo % 2 ^ n = m at *
    generalize x.toNat % 2 ^ lo = l at *
    rw [hsplit, Nat.mul_add, Nat.mul_add, Nat.mul_comm m, Nat.mul_comm (v % 2 ^ n)]
    omega
  have hbits : ∀ m, m < 2 ^ n → (2 ^ lo * (2 ^ n * (x.toNat / 2 ^ lo / 2 ^ n) + m) + x.toNat % 2 ^ lo).testBit p =
      if p < lo then (x.toNat % 2 ^ lo).testBit p
      else if p - lo < n then m.testBit (p - lo) else (x.toNat / 2 ^ lo / 2 ^ n).testBit (p - lo - n) := fun m hm => by
    rw [Nat.testBit_two_pow_mul_add _ hlow, Nat.testBit_two_pow_mul_add _ hm]
  have hold := congrArg (·.testBit p) hsplit
  simp only [hbits _ hmid] at hold
  have hwide : (decide (p < 64) && x.toNat.testBit p) = x.toNat.testBit p := by
    by_cases hp : p < 64
    · simp [hp]
    · simp [hp, Nat.testBit_lt_two_pow (x.isLt.trans_le (Nat.pow_le_pow_right (by decide) (Nat.not_lt.mp hp)))]
  rw [putBits, BitVec.toNat_ofNat, Nat.testBit_mod_two_pow, hput, hbits _ hnew]
  by_cases hin : lo ≤ p ∧ p < lo + n
  · have hlo : ¬ p < lo := by omega
    have hn : p - lo < n := by omega
    have hp : p < 64 := by omega
    simp [hlo, hn, hp, hin, Nat.testBit_mod_two_pow]
  · rw [if_neg hin, ← hwide, hold]
    by_cases hlo : p < lo
    · simp [hlo]
    · have hn : ¬ p - lo < n := by omega
      simp [hlo, hn]

/-- A field inside the bits that are replaced. -/
theorem bitsOf_putBits_inside (x : Word) {lo n hi l : Nat} (v : Nat) (h : lo + n ≤ 64) (hlo : lo ≤ l) (hhi : hi < lo + n) :
    bitsOf (putBits x lo n v) hi l = v / 2 ^ (l - lo) % 2 ^ (hi + 1 - l) := by
  rw [bitsOf_eq_field]
  refine Nat.eq_of_testBit_eq fun k => ?_
  rw [testBit_field, testBit_putBits x v _ h, Nat.testBit_mod_two_pow, Nat.testBit_div_two_pow]
  by_cases hk : k < hi + 1 - l
  · have hin : lo ≤ l + k ∧ l + k < lo + n := by omega
    have hat : l + k - lo = k + (l - lo) := by omega
    rw [if_pos hin, hat]
  · simp [hk]

/-- A field outside the bits that are replaced. -/
theorem bitsOf_putBits_outside (x : Word) {lo n hi l : Nat} (v : Nat) (h : lo + n ≤ 64) (hout : hi < lo ∨ lo + n ≤ l) :
    bitsOf (putBits x lo n v) hi l = bitsOf x hi l := by
  rw [bitsOf_eq_field, bitsOf_eq_field]
  refine Nat.eq_of_testBit_eq fun k => ?_
  rw [testBit_field, testBit_field, testBit_putBits x v _ h]
  by_cases hk : k < hi + 1 - l
  · rw [if_neg (by omega)]
  · simp [hk]

end Sys2Proof.Claims

end

section

/-! ## The loop sets

A set's registers are read and written by number (04 Tables 4.4 to 4.6); going on in sequence and taken branches write COUNT, A and N of the
sets and nothing else of them (04 R88, R89). -/

namespace Sys2Proof.Claims

open Sys2Proof.Machine

variable {s : State} {k : Bool} {a : Word}

/-! ### COUNT, A and N -/

theorem zcCount_lt (z : Word) : zcCount z < 2 ^ 48 := Nat.mod_lt _ (by decide)

/-- A set that has ended keeps its COUNT alone. -/
theorem zcEnd_zcCount (z : Word) : zcEnd (zcCount z) = word (zcCount z) := by
  rw [zcEnd, Nat.mod_eq_of_lt (zcCount_lt z)]

theorem zcCount_putBits (z : Word) {c : Nat} (h : c < 2 ^ 48) : zcCount (putBits z 0 48 c) = c := by
  rw [zcCount, bitsOf_putBits_inside z c (by decide) (by decide) (by decide)]
  simpa using Nat.mod_eq_of_lt h

theorem zcA_putBits (z : Word) (c : Nat) : zcA (putBits z 0 48 c) = zcA z := by
  rw [zcA, bitsOf_putBits_outside z c (by decide) (by decide), zcA]

theorem zcN_putBits (z : Word) (c : Nat) : zcN (putBits z 0 48 c) = zcN z := by
  rw [zcN, bitsOf_putBits_outside z c (by decide) (by decide), zcN]

/-! ### Writing a set -/

theorem setIx_lt (n : Bool) : setIx n < 2 := by cases n <;> decide

theorem setIx_ne_not (n : Bool) : setIx n ≠ setIx (!n) := by cases n <;> decide

@[simp] theorem zc_setZc_same (n : Bool) (x : Word) : (s.setZc n x).zc n = x := by
  rw [State.zc, setZc_regs, vecGet_vecSet_same _ _ _ _ (setIx_lt n)]

@[simp] theorem zc_setZc_not (n : Bool) (x : Word) : (s.setZc n x).zc (!n) = s.zc (!n) := by
  rw [State.zc, setZc_regs, vecGet_vecSet_other _ _ _ (setIx_ne_not n), State.zc]

@[simp] theorem zs_setZc (n m : Bool) (x : Word) : (s.setZc n x).zs m = s.zs m := by
  rw [State.zs, setZc_regs, State.zs]

@[simp] theorem ze_setZc (n m : Bool) (x : Word) : (s.setZc n x).ze m = s.ze m := by
  rw [State.ze, setZc_regs, State.ze]

theorem endsAt_setZc_not (n : Bool) (x : Word) : (s.setZc n x).endsAt (!n) a = s.endsAt (!n) a := by
  rw [State.endsAt, zc_setZc_not, ze_setZc, State.endsAt]

@[simp] theorem setZc_m (n : Bool) (x : Word) : (s.setZc n x).th.fr.m = s.th.fr.m := by
  obtain ⟨h, e, -⟩ := setZc_form s n x
  rw [e]
  rfl

/-! ### The end of a body -/

/-- While COUNT remains the front goes to the set's start (04 R88). -/
theorem endOfBody_goesOn (h : 1 < zcCount (s.zc k)) (a : Word) :
    s.endOfBody k a = (s.setZc k (putBits (s.zc k) 0 48 (zcCount (s.zc k) - 1)), s.zs k) :=
  if_pos (Nat.sub_pos_of_lt h)

/-- The last pass ends the set, and the front goes on (04 R88). -/
theorem endOfBody_ends (h : zcCount (s.zc k) ≤ 1) (a : Word) : s.endOfBody k a = (s.setZc k 0, a) := by
  have hc : zcCount (s.zc k) - 1 = 0 := Nat.sub_eq_zero_of_le h
  simp only [State.endOfBody, hc]
  rfl

/-! ### Arriving in sequence -/

theorem arrive_of_none (hm : s.th.fr.m.lvl = false) (h : ∀ n, s.endsAt n a = false) : s.arrive a = (s, a) := by
  simp [State.arrive, hm, h]

/-- One set ends at the address (04 R88). -/
theorem arrive_of_one (hm : s.th.fr.m.lvl = false) (hk : s.endsAt k a = true) (ho : s.endsAt (!k) a = false) :
    s.arrive a = s.endOfBody k a := by
  have hother : (s.endOfBody k a).1.endsAt (!k) a = false := by
    rw [← ho]
    rcases Nat.lt_or_ge 1 (zcCount (s.zc k)) with h | h
    · rw [endOfBody_goesOn h, endsAt_setZc_not]
    · rw [endOfBody_ends h, endsAt_setZc_not]
  by_cases hi : s.innerSet = k
  · simp [State.arrive, hm, hi, hk, hother]
  · have hi' : s.innerSet = !k := Bool.eq_not_of_ne hi
    simp [State.arrive, hm, hi', ho, hk]

/-- Both sets end at the address, and the inner one goes on (04 R88). -/
theorem arrive_of_both_goesOn (hm : s.th.fr.m.lvl = false) (hi : s.innerSet = k) (hk : s.endsAt k a = true)
    (h : 1 < zcCount (s.zc k)) : s.arrive a = s.endOfBody k a := by
  have hA : zcA (s.zc k) = true := (Bool.and_eq_true_iff.mp hk).1
  have hA' : zcA ((s.endOfBody k a).1.zc k) = true := by
    rw [endOfBody_goesOn h, zc_setZc_same, zcA_putBits, hA]
  simp [State.arrive, hm, hi, hk, hA']

/-- Both sets end at the address, and the inner one ends: the outer one is updated next (04 R88). -/
theorem arrive_of_both_ends (hm : s.th.fr.m.lvl = false) (hi : s.innerSet = k) (hk : s.endsAt k a = true) (ho : s.endsAt (!k) a = true)
    (h : zcCount (s.zc k) ≤ 1) : s.arrive a = (s.setZc k 0).endOfBody (!k) a := by
  have hA : zcA 0#64 = false := by decide
  simp [State.arrive, hm, hi, hk, endOfBody_ends h, endsAt_setZc_not, ho, hA]

theorem seqNext_of_arrive {n : Nat} {t : State} {b : Word} (h : s.arrive (s.th.fr.spc + word n) = (t, b)) :
    s.seqNext n = t.onFr fun f => { f with spc := b } := by
  rw [State.seqNext, h]

/-- Of two sets that end at one address the one with N is inner; with neither or both it is set 1 (04 R88; log 59). -/
theorem innerSet_eq (h : (zcN (s.zc k) = true ∧ zcN (s.zc (!k)) = false) ∨ (zcN (s.zc k) = zcN (s.zc (!k)) ∧ k = true)) :
    s.innerSet = k := by
  rcases h with ⟨hk, ho⟩ | ⟨he, rfl⟩
  · cases k <;> simp_all [State.innerSet]
  · rw [Bool.not_true] at he
    simp [State.innerSet, he]

/-! ### Taken branches -/

theorem zc_dropSet_same (n : Bool) : (s.dropSet n).zc n = if zcA (s.zc n) then word (zcCount (s.zc n)) else s.zc n := by
  unfold State.dropSet
  split
  · rw [zc_setZc_same, zcEnd_zcCount]
  · rfl

theorem zc_dropSet_not (n : Bool) : (s.dropSet n).zc (!n) = s.zc (!n) := by
  unfold State.dropSet
  split
  · exact zc_setZc_not n _
  · rfl

/-- Whether an active set's body does not hold the target of a branch (04 R89). -/
def leftBy (s : State) (target : Word) (k : Bool) : Bool := zcA (s.zc k) && !(decide (s.zs k ≤ target) && decide (target < s.ze k))

/-- Whether a branch ends a set: it leaves its body, or that of the set it is inner to (04 R89). -/
def endedBy (s : State) (target : Word) (k : Bool) : Bool := leftBy s target k || (leftBy s target (!k) && zcN (s.zc k))

theorem leaveSets_eq (hm : s.th.fr.m.lvl = false) (target : Word) :
    s.leaveSets target =
      (let t := if endedBy s target false then s.dropSet false else s
       if endedBy s target true then t.dropSet true else t) := by
  rw [State.leaveSets, hm]
  rfl

theorem zc_leaveSets (hm : s.th.fr.m.lvl = false) (target : Word) (k : Bool) :
    (s.leaveSets target).zc k = if zcA (s.zc k) ∧ endedBy s target k = true then word (zcCount (s.zc k)) else s.zc k := by
  have hfalse : ∀ u : State, (u.dropSet true).zc false = u.zc false := fun u => zc_dropSet_not (s := u) true
  have htrue : (s.dropSet false).zc true = s.zc true := zc_dropSet_not false
  rw [leaveSets_eq hm]
  cases k
  case false =>
    by_cases h0 : endedBy s target false = true <;> by_cases h1 : endedBy s target true = true <;>
      simp [h0, h1, hfalse, zc_dropSet_same]
  case true =>
    by_cases h0 : endedBy s target false = true <;> by_cases h1 : endedBy s target true = true <;>
      simp [h0, h1, htrue, zc_dropSet_same]

/-! ### Where a pass over a body leaves its set -/

@[simp] theorem zc_onSpc (b : Word) (k : Bool) : (s.onFr fun f => { f with spc := b }).zc k = s.zc k := rfl

/-- A pass over the body of set k has come to its end at a: the front is at the set's start while COUNT remains, and else goes on with the
set ended (04 R88). -/
structure PassDone (s t : State) (k : Bool) (a : Word) : Prop where
  more : 1 < zcCount (s.zc k) → t.th.fr.spc = s.zs k ∧ zcCount (t.zc k) = zcCount (s.zc k) - 1 ∧ zcA (t.zc k) = true ∧
    zcN (t.zc k) = zcN (s.zc k)
  last : zcCount (s.zc k) ≤ 1 → t.th.fr.spc = a ∧ t.zc k = 0
  other : t.zc (!k) = s.zc (!k)

theorem passDone_of_arrive {n : Nat} {u : State} (hA : zcA (u.zc k) = true) (h : s.arrive (s.th.fr.spc + word n) = u.endOfBody k a) :
    PassDone u (s.seqNext n) k a := by
  rcases Nat.lt_or_ge 1 (zcCount (u.zc k)) with hc | hc
  · rw [seqNext_of_arrive (h.trans (endOfBody_goesOn hc a))]
    have hlt : zcCount (u.zc k) - 1 < 2 ^ 48 := (Nat.sub_le _ _).trans_lt (zcCount_lt _)
    refine ⟨fun _ => ⟨rfl, ?_⟩, fun hle => absurd hc (Nat.not_lt.mpr hle), zc_setZc_not k _⟩
    rw [zc_onSpc, zc_setZc_same]
    exact ⟨zcCount_putBits _ hlt, (zcA_putBits _ _).trans hA, zcN_putBits _ _⟩
  · rw [seqNext_of_arrive (h.trans (endOfBody_ends hc a))]
    exact ⟨fun hlt => absurd hlt (Nat.not_lt.mpr hc), fun _ => ⟨rfl, zc_setZc_same k 0⟩, zc_setZc_not k 0⟩

theorem zcA_of_endsAt (h : s.endsAt k a = true) : zcA (s.zc k) = true := (Bool.and_eq_true_iff.mp h).1

/-! ### The clauses -/

/-- Settles O18: which sets end at the address says what an arrival does, and which bodies hold the target what a branch does. -/
theorem loopBounds : Obligations.LoopBounds := by
  refine ⟨fun s n hm => ?_, fun s target => ⟨rfl, fun hm => ?_, fun hm k => ?_⟩⟩
  · refine ⟨fun h0 h1 => ?_, fun k hk ho => ?_, fun k hk ho hi => ?_⟩
    · exact seqNext_of_arrive (arrive_of_none hm fun k => by cases k <;> assumption)
    · obtain ⟨hmore, hlast, hother⟩ := passDone_of_arrive (zcA_of_endsAt hk) (arrive_of_one hm hk ho)
      exact ⟨hother, hmore, hlast⟩
    · have hinner := innerSet_eq hi
      refine ⟨fun hc => ?_, fun hc => ?_⟩
      · obtain ⟨hmore, -, hother⟩ := passDone_of_arrive (zcA_of_endsAt hk) (arrive_of_both_goesOn hm hinner hk hc)
        obtain ⟨hspc, hcount, -⟩ := hmore hc
        exact ⟨hspc, hcount, hother⟩
      · have hA : zcA ((s.setZc k 0).zc (!k)) = true := by rw [zc_setZc_not]; exact zcA_of_endsAt ho
        obtain ⟨hmore, hlast, hother⟩ := passDone_of_arrive hA (arrive_of_both_ends hm hinner hk ho hc)
        rw [zc_setZc_not] at hmore hlast
        rw [Bool.not_not, zc_setZc_same] at hother
        exact ⟨hother, fun hc' => ⟨(hmore hc').1.trans (zs_setZc k _ 0), (hmore hc').2.1⟩, hlast⟩
  · rw [State.branchTo, State.leaveSets, hm]
    rfl
  · have h := zc_leaveSets hm target k
    simp only [endedBy, Bool.or_eq_true, Bool.and_eq_true] at h
    exact h

end Sys2Proof.Claims

end

section

/-! ## Words in a lane

In a lane a scalar register is the lane's element of a vector register, a result writes that element alone, and going on moves the lane's PC
(04 R96). -/

namespace Sys2Proof.Claims

open Sys2Proof.Machine

variable {s : State} {i : Instr} {j : Nat} {d r : RegNo} {x : Word} {fl : Flags}

/-! ### Reading and writing a register -/

theorem rd_of_lane (hc : s.th.fr.curLane = some j) (hr : r ≠ 0) : s.rd r = word (elemAt (vecGet s.th.ln.v r.toNat 0) 64 j) := by
  simp only [State.rd, if_neg hr, hc]

theorem wr_of_lane (hc : s.th.fr.curLane = some j) (hd : d ≠ 0) (x : Word) :
    s.wr d x = s.onLn fun l => { l with v := vecSet l.v d.toNat (setElem (vecGet l.v d.toNat 0) 64 j x.toNat) } := by
  simp only [State.wr, if_neg hd, hc]

theorem wr_zero (x : Word) : s.wr 0 x = s := rfl

theorem wr_curLane (d : RegNo) (x : Word) : (s.wr d x).th.fr.curLane = s.th.fr.curLane := by
  by_cases hd : d = 0
  · rw [hd, wr_zero]
  · cases hc : s.th.fr.curLane with
    | none => exact wrFlags_curLane (fl := 0) hc d x
    | some j => rw [wr_of_lane hc hd, State.onLn_th_fr, hc]

/-- Element j of a register, where j names a lane of a cluster of the thread (05 R105). -/
theorem elemAt_setElem_lane (v : VReg) (hj : j < 2048) (x k : Nat) :
    elemAt (setElem v 64 j x) 64 k = if k = j then x % 2 ^ 64 else elemAt v 64 k := by
  have hfits : (j + 1) * 64 ≤ vregBits := Nat.mul_le_mul_right 64 hj
  exact elemAt_setElem v x k hfits

theorem rd_wr_same_of_lane (hc : s.th.fr.curLane = some j) (hj : j < 2048) (hd : d ≠ 0) (x : Word) : (s.wr d x).rd d = x := by
  have hc' : (s.wr d x).th.fr.curLane = some j := (wr_curLane d x).trans hc
  rw [rd_of_lane hc' hd, wr_of_lane hc hd, State.onLn_th_ln]
  simp only [vecGet_vecSet_same _ _ _ _ d.isLt, elemAt_setElem_lane _ hj, if_true, word, Nat.mod_eq_of_lt x.isLt, BitVec.ofNat_toNat,
    BitVec.setWidth_eq]

theorem rd_wr_other_of_lane (hc : s.th.fr.curLane = some j) (hr : r ≠ d) (x : Word) : (s.wr d x).rd r = s.rd r := by
  by_cases hd : d = 0
  · rw [hd, wr_zero]
  · by_cases h0 : r = 0
    · simp only [State.rd, if_pos h0]
    · have hne : d.toNat ≠ r.toNat := fun he => hr (BitVec.eq_of_toNat_eq he).symm
      have hc' : (s.wr d x).th.fr.curLane = some j := (wr_curLane d x).trans hc
      rw [rd_of_lane hc' h0, rd_of_lane hc h0, wr_of_lane hc hd, State.onLn_th_ln]
      simp only [vecGet_vecSet_other _ _ _ hne]

/-- A write of a lane changes no other lane's element. -/
theorem elemAt_wr_of_lane (hc : s.th.fr.curLane = some j) (hj : j < 2048) (d : RegNo) (x : Word) (r : Nat) {k : Nat} (hk : k ≠ j) :
    elemAt (vecGet (s.wr d x).th.ln.v r 0) 64 k = elemAt (vecGet s.th.ln.v r 0) 64 k := by
  by_cases hd : d = 0
  · rw [hd, wr_zero]
  · rw [wr_of_lane hc hd, State.onLn_th_ln]
    by_cases hr : d.toNat = r
    · subst hr
      simp only [vecGet_vecSet_same _ _ _ _ d.isLt, elemAt_setElem_lane _ hj, if_neg hk]
    · simp only [vecGet_vecSet_other _ _ _ hr]

theorem wr_frame_of_lane (hc : s.th.fr.curLane = some j) (d : RegNo) (x : Word) : ∃ v, s.wr d x = s.onLn fun l => { l with v := v } := by
  by_cases hd : d = 0
  · exact ⟨s.th.ln.v, by rw [hd, wr_zero]; rfl⟩
  · exact ⟨_, wr_of_lane hc hd x⟩

@[simp] theorem rd_onSpc (b : Word) (r : RegNo) : (s.onFr fun f => { f with spc := b }).rd r = s.rd r := rfl

/-! ### A word that writes a register -/

theorem advance_of_lane (hc : s.th.fr.curLane = some j) (n : Nat) : s.advance n = s.onFr fun f => { f with spc := f.spc + word n } := by
  rw [State.advance, hc]

/-- In a lane the flags of a result join vxflags at once (04 R96; 06 R150). -/
theorem wrFlags_of_lane (hc : s.th.fr.curLane = some j) (d : RegNo) (x : Word) (fl : Flags) :
    s.wrFlags d x fl = (s.onLn fun l => { l with flags := l.flags ||| fl }).wr d x := by
  have hlane : ¬ s.th.fr.curLane.isNone = true := by rw [hc]; exact Bool.false_ne_true
  by_cases hf : fl = 0
  · have hnone : (s.onLn fun l => { l with flags := l.flags ||| fl }) = s := by
      have hor : s.th.ln.flags ||| (0 : Flags) = s.th.ln.flags := BitVec.or_zero
      rw [State.onLn, hf, hor]
    rw [hnone, State.wrFlags, if_pos hf]
  · rw [State.wrFlags, if_neg hf, if_neg fun h => hlane h.2.1, State.raiseFlags, if_neg hf]
    simp [hc]

/-- A word of a lane writes its element of v[d], raises flags and moves the lane's PC (04 R96). -/
theorem laneRegisterWord_wrFlags (hc : s.th.fr.curLane = some j) (hj : j < 2048) (d : RegNo) (x : Word) (fl : Flags) :
    LaneRegisterWord s ((s.wrFlags d x fl).advance 4) j d x fl := by
  let u := s.onLn fun l => { l with flags := l.flags ||| fl }
  have hu : u.th.fr.curLane = some j := hc
  obtain ⟨v, hv⟩ := wr_frame_of_lane hu d x
  rw [wrFlags_of_lane hc, advance_of_lane ((wr_curLane (s := u) d x).trans hu)]
  exact {
    result := fun hd => rd_wr_same_of_lane hu hj hd x
    others := fun r hr => rd_wr_other_of_lane hu hr x
    lanes := fun r k hk => elemAt_wr_of_lane hu hj d x r hk
    pc := by rw [hv]; rfl
    flags := by rw [hv]; rfl
    frame := by rw [hv]; rfl }

theorem laneRegisterWord_wr (hc : s.th.fr.curLane = some j) (hj : j < 2048) (d : RegNo) (x : Word) :
    LaneRegisterWord s ((s.wr d x).advance 4) j d x 0 :=
  laneRegisterWord_wrFlags hc hj d x 0

/-- A word that raises no enabled flag writes its result in the lane (03 R75; 04 R96). -/
theorem laneRegisterWord_of_resultFlags (he : exec i s = .next (s.resultFlags d x fl)) (hc : s.th.fr.curLane = some j) (hj : j < 2048)
    (hf : fl &&& s.th.fr.copy.traps = 0) : ∃ t, exec i s = .next t ∧ LaneRegisterWord s t j d x fl := by
  have hf' : s.trapped fl = 0 := hf
  refine ⟨_, he.trans ?_, laneRegisterWord_wrFlags hc hj d x fl⟩
  rw [State.resultFlags, if_neg (not_not.mpr hf')]

end Sys2Proof.Claims

end

section

/-! ## Branches

A taken branch goes to its target: at the front it may end loop sets (04 R89), in a lane it moves the lane's PC alone (04 R96). A branch with
link writes s1 first. -/

namespace Sys2Proof.Claims

open Sys2Proof.Machine

variable {s : State} {i : Instr} {j : Nat} {taken link : Bool} {target : Word}

/-! ### Going to the target -/

theorem goTo_of_front (hc : s.th.fr.curLane = none) (target : Word) : s.goTo target = s.branchTo target := by
  rw [State.goTo, hc]

theorem goTo_of_lane (hc : s.th.fr.curLane = some j) (target : Word) : s.goTo target = s.onFr fun f => { f with spc := target } := by
  rw [State.goTo, hc]

/-- Write s1 where the branch links, then go to the target (04 R81, R84). -/
def linkAndGo (s : State) (link : Bool) (target : Word) : State := (if link then s.link else s).goTo target

theorem linkAndGo_of_front (hc : s.th.fr.curLane = none) (link : Bool) (target : Word) :
    linkAndGo s link target = (if link then s.wr 1 (s.th.fr.spc + 4) else s).branchTo target := by
  cases link
  case false => exact goTo_of_front hc target
  case true => exact goTo_of_front ((wr_curLane 1 _).trans hc) target

/-- What a taken branch of a lane leaves: the lane's PC at the target, and s1 where it links (04 R96). -/
structure LaneBranch (s t : State) (link : Bool) (target : Word) : Prop where
  pc : t.th.fr.spc = target
  linked : link = true → t.rd 1 = s.th.fr.spc + 4 ∧ ∀ r, r ≠ 1 → t.rd r = s.rd r
  frame : link = false → t.onFr (fun f => { f with spc := s.th.fr.spc }) = s

theorem laneBranch_linkAndGo (hc : s.th.fr.curLane = some j) (hj : j < 2048) (link : Bool) (target : Word) :
    LaneBranch s (linkAndGo s link target) link target := by
  cases link
  case false =>
    have h : linkAndGo s false target = s.onFr fun f => { f with spc := target } := goTo_of_lane hc target
    rw [h]
    exact ⟨rfl, fun h => absurd h Bool.false_ne_true, fun _ => rfl⟩
  case true =>
    have h : linkAndGo s true target = (s.wr 1 (s.th.fr.spc + 4)).onFr fun f => { f with spc := target } :=
      goTo_of_lane ((wr_curLane 1 _).trans hc) target
    rw [h]
    exact ⟨rfl, fun _ => ⟨rd_wr_same_of_lane hc hj (by decide) _, fun r hr => rd_wr_other_of_lane hc hr _⟩, fun h => absurd h.symm Bool.false_ne_true⟩

theorem laneBranch_advance (hc : s.th.fr.curLane = some j) : LaneBranch s (s.advance 4) false (s.th.fr.spc + 4) := by
  rw [advance_of_lane hc]
  exact ⟨rfl, fun h => absurd h Bool.false_ne_true, fun _ => rfl⟩

/-! ### Direct branches -/

/-- A direct branch goes to its target where it is taken, and else on in sequence; it links only where it is always taken (04 R81, R82). -/
structure DirectBranch (s : State) (i : Instr) (taken : Bool) (target : Word) (link : Bool) : Prop where
  goes : exec i s = .next (if taken then linkAndGo s link target else s.advance 4)
  takes : link = true → taken = true

/-- A compare-branch tests the relation of its row of Table 4.1 (04 R82). -/
theorem directBranch_compare {p : Prop} [Decidable p] {R : Word → Word → Bool} {a b : RegNo} {k : BitVec 13}
    (hR : R (s.rd a) (s.rd b) = decide p) (h : some (decide p, s.branchTarget k, false) = some (taken, target, link))
    (he : exec i s = .next (s.branchIf R a b k)) : DirectBranch s i taken target link := by
  cases h
  refine ⟨?_, fun h => absurd h Bool.false_ne_true⟩
  rw [he, State.branchIf, hR]
  rfl

theorem directBranch_of_branchForm (h : branchForm s i = some (taken, target, link)) : DirectBranch s i taken target link := by
  cases i
  case b | call => cases h; exact ⟨rfl, fun _ => rfl⟩
  case bcEq | bcLt | bcLtn => exact directBranch_compare rfl h rfl
  case bcNe => exact directBranch_compare (decide_not (p := s.rd _ = s.rd _)).symm h rfl
  case bcGe =>
    refine directBranch_compare ?_ h rfl
    rw [BitVec.slt, ← decide_not, decide_eq_decide]
    exact Int.not_lt
  case bcGen =>
    refine directBranch_compare ?_ h rfl
    rw [BitVec.ult, ← decide_not, decide_eq_decide]
    exact Nat.not_lt
  all_goals cases h

/-- Settles O15: each direct branch tests its relation and goes to its target, as a front or as a lane goes. -/
theorem directBranches : Obligations.DirectBranches := by
  intro i s taken target link h
  obtain ⟨hgoes, htakes⟩ := directBranch_of_branchForm h
  refine ⟨fun hc => ?_, fun j hj hc => ⟨_, hgoes, ?_⟩⟩
  · rw [hgoes, linkAndGo_of_front hc, advance_of_front hc]
  · cases taken
    case false =>
      have hlink : link = false := Bool.eq_false_iff.mpr fun hl => Bool.false_ne_true (htakes hl)
      subst hlink
      obtain ⟨hpc, hlinked, hframe⟩ := laneBranch_advance hc
      exact ⟨hpc, hlinked, hframe⟩
    case true =>
      obtain ⟨hpc, hlinked, hframe⟩ := laneBranch_linkAndGo hc hj link target
      exact ⟨hpc, hlinked, hframe⟩

/-! ### Indirect branches -/

variable {a : RegNo} {pad : Nat} {w : BitVec 32} {u : State} {bs : List Byte}

theorem exec_of_indirectForm (h : indirectForm i = some (a, pad, link)) :
    exec i s = .next (s.indirect (BitVec.ofNat 32 pad) link a) ∧ pad < 2 ^ 32 := by
  cases i
  case calli | jmpi | ret => cases h; exact ⟨rfl, by decide⟩
  all_goals cases h

theorem indirect_of_misaligned (h : (s.rd a).toNat % 4 ≠ 0) (p : BitVec 32) (link : Bool) :
    s.indirect p link a = s.scalarFault .controlFlow noIndex 0 := if_pos h

/-- The branch stands where the word at its target is the landing pad of its kind (04 R84). -/
theorem indirect_of_pad (h : (s.rd a).toNat % 4 = 0) (ht : s.targetWord (s.rd a) = (u, some w)) (link : Bool) :
    s.indirect w link a = linkAndGo u link (s.rd a) := by
  simp only [State.indirect, h, ht, Option.getD_some, ne_eq, not_true_eq_false, if_false, linkAndGo]

/-- Any other word there raises ControlFlow (04 R84). -/
theorem indirect_of_other (h : (s.rd a).toNat % 4 = 0) (ht : s.targetWord (s.rd a) = (u, some w)) {p : BitVec 32} (hp : w ≠ p)
    (link : Bool) : s.indirect p link a = u.scalarFault .controlFlow noIndex 0 := by
  simp only [State.indirect, h, ht, Option.getD_some, ne_eq, not_true_eq_false, if_false, hp, not_false_eq_true, if_true]

theorem targetWord_of_front (hc : s.th.fr.curLane = none) {target : Word} (hf : s.fetchFresh target 4 = (u, .ok bs)) :
    s.targetWord target = (u, some (BitVec.ofNat 32 (leNat bs))) := by
  unfold State.targetWord
  rw [hc]
  simp only [hf]

/-- The word at the target of a branch at the front: the branch stands where it is the landing pad (04 R84). -/
theorem exec_indirect_pad (hi : indirectForm i = some (a, pad, link)) (hc : s.th.fr.curLane = none) (ha : (s.rd a).toNat % 4 = 0)
    (hf : s.fetchFresh (s.rd a) 4 = (u, .ok bs)) (hu : u.th.fr.curLane = none) (hp : leNat bs = pad) :
    exec i s = .next ((if link then u.wr 1 (u.th.fr.spc + 4) else u).branchTo (s.rd a)) := by
  subst hp
  rw [(exec_of_indirectForm hi).1, indirect_of_pad ha (targetWord_of_front hc hf), linkAndGo_of_front hu]

theorem exec_indirect_other (hi : indirectForm i = some (a, pad, link)) (hc : s.th.fr.curLane = none) (ha : (s.rd a).toNat % 4 = 0)
    (hf : s.fetchFresh (s.rd a) 4 = (u, .ok bs)) (hu : u.th.fr.curLane = none) (hlen : bs.length ≤ 4) (hp : leNat bs ≠ pad)
    (ho : u.older = []) : exec i s = .next (faultsHere u .controlFlow) := by
  obtain ⟨hexec, hpad⟩ := exec_of_indirectForm (s := s) hi
  have hw : leNat bs < 2 ^ 32 := (leNat_lt bs).trans_le (Nat.pow_le_pow_right (by decide) hlen)
  have hne : BitVec.ofNat 32 (leNat bs) ≠ BitVec.ofNat 32 pad := fun h => by
    have h := congrArg BitVec.toNat h
    rw [BitVec.toNat_ofNat, BitVec.toNat_ofNat, Nat.mod_eq_of_lt hw, Nat.mod_eq_of_lt hpad] at h
    exact hp h
  rw [hexec, indirect_of_other ha (targetWord_of_front hc hf) hne, scalarFault_of_front hu ho]
  rfl

/-- Settles O16: the word fetched at the target is the landing pad of the branch's kind, or the branch faults. -/
theorem indirectBranches : Obligations.IndirectBranches := by
  refine ⟨fun i s a pad link hi hc => ⟨fun ha ho => ?_, fun u bs ha hf hu hlen => ⟨fun hp => ?_, fun hp ho => ?_⟩⟩,
    fun s u a bs hc ha hf hu _ => ⟨fun hp => ?_, fun hp => ?_, fun hp => ?_⟩⟩
  · rw [(exec_of_indirectForm hi).1, indirect_of_misaligned ha, scalarFault_of_front hc ho]
    rfl
  · exact exec_indirect_pad hi hc ha hf hu hp
  · exact exec_indirect_other hi hc ha hf hu hlen hp ho
  · exact exec_indirect_pad (i := .calli a) (link := true) rfl hc ha hf hu hp
  · exact exec_indirect_pad (i := .jmpi a) (link := false) rfl hc ha hf hu hp
  · exact exec_indirect_pad (i := .ret a) (link := false) rfl hc ha hf hu hp

end Sys2Proof.Claims

end

section

/-! ## Waiting words and loop words

Words of the front that write its own registers: a logged write, then on in sequence (04 R83, R87, R90, R100, R101). -/

namespace Sys2Proof.Claims

open Sys2Proof.Machine

variable {s t u : State}

/-! ### Writes of the front's registers -/

/-- Only the history buffer and the registers of the front have changed. -/
def OnlyRegs (s u : State) : Prop := u.onFr (fun f => { f with hist := s.th.fr.hist, regs := s.th.fr.regs }) = s

theorem OnlyRegs.refl (s : State) : OnlyRegs s s := rfl

theorem OnlyRegs.trans (h : OnlyRegs s t) (h' : OnlyRegs t u) : OnlyRegs s u := by
  have hover : (u.onFr fun f => { f with hist := t.th.fr.hist, regs := t.th.fr.regs }).onFr
      (fun f => { f with hist := s.th.fr.hist, regs := s.th.fr.regs }) =
      u.onFr fun f => { f with hist := s.th.fr.hist, regs := s.th.fr.regs } := rfl
  rw [OnlyRegs, ← hover, show u.onFr _ = t from h']
  exact h

theorem onlyRegs_logged (reg : FrontReg) (old : Word) (g : FrontRegs → FrontRegs) (s : State) : OnlyRegs s ((s.log reg old).onRegs g) := by
  obtain ⟨h, e, -⟩ := log_form s reg old
  rw [e]
  rfl

theorem onlyRegs_setZc (n : Bool) (x : Word) (s : State) : OnlyRegs s (s.setZc n x) := onlyRegs_logged _ _ _ s

theorem onlyRegs_dropSet (n : Bool) (s : State) : OnlyRegs s (s.dropSet n) := by
  unfold State.dropSet
  split
  · exact onlyRegs_setZc n _ s
  · exact .refl s

/-! ### wait.t and dline -/

/-- wait.t returns gtime once it has come (04 R100). -/
theorem timeReturn_of_le (hw : s.th.fr.wait = .none) {d : RegNo} {x : Word} (h : x ≤ s.gtime) :
    s.timeReturn d x = (s.wr d s.gtime).seqNext 4 := by
  have hs : (s.onFr fun f => { f with wait := .none }) = s := by rw [← hw]; rfl
  rw [State.timeReturn, if_pos h, hs]

theorem timeReturn_of_lt {d : RegNo} {x : Word} (h : s.gtime < x) : s.timeReturn d x = s.onFr fun f => { f with wait := .time d x } :=
  if_neg (BitVec.not_le.mpr h)

/-- dline moves the deadline earlier and nothing else (04 R101). -/
theorem dline_form (a : RegNo) : ∃ u : State, exec (.dline a) s = .next (u.seqNext 4) ∧
    u.th.fr.regs.dline = (if s.rd a ≤ s.th.fr.regs.dline then s.rd a else s.th.fr.regs.dline) ∧
    u.onFr (fun f => { f with hist := s.th.fr.hist, regs := { f.regs with dline := s.th.fr.regs.dline } }) = s := by
  obtain ⟨h, e, -⟩ := log_form s .dline s.th.fr.regs.dline
  refine ⟨_, rfl, congrArg FrontRegs.dline (onRegs_log_regs _ _ _), ?_⟩
  rw [e]
  rfl

/-- Settles O17: each of the words at the front, by its own meaning. -/
theorem waitingWords : Obligations.WaitingWords := by
  refine ⟨fun s hc i hi => ?_, fun s d a hc => ⟨fun hw h => ?_, fun h => ?_, dline_form a⟩⟩
  · have hgo : Host.Outcome.next (s.advance 4) = (Host.Outcome.next (s.seqNext 4) : Host.Outcome State Fault Refusal) := by
      rw [advance_of_front hc]
    simp only [List.mem_cons, List.not_mem_nil, or_false] at hi
    rcases hi with rfl | rfl | rfl | rfl <;> exact hgo
  · exact ⟨_, congrArg Host.Outcome.next (timeReturn_of_le hw h), registerWord_wr d s.gtime hc⟩
  · exact congrArg Host.Outcome.next (timeReturn_of_lt h)

/-! ### loop -/

variable {n : Bool} {a : RegNo} {k : BitVec 13} {c e : Word}

/-- What R87 forbids of a loop word over the words up to e with count c. -/
def LoopForbidden (s : State) (n : Bool) (c : Word) (k : BitVec 13) (e : Word) : Prop :=
  s.th.fr.m.lvl = true ∨ k.toInt < 2 ∨ 2 ^ 48 ≤ c.toNat ∨ zcA (s.zc n) = true ∨
    (zcA (s.zc (!n)) = true ∧ ¬ (s.zs (!n) ≤ s.th.fr.spc + 4 ∧ e ≤ s.ze (!n)))

theorem bitsOf_high_eq_zero (c : Word) : bitsOf c 63 48 = 0 ↔ c.toNat < 2 ^ 48 := by
  have hc := c.isLt
  rw [bitsOf]
  omega

theorem loopBad_iff : s.loopBad n c k = true ↔ LoopForbidden s n c k (s.branchTarget k) := by
  simp only [State.loopBad, LoopForbidden, Bool.or_eq_true, Bool.and_eq_true, decide_eq_true_eq, ne_eq, bitsOf_high_eq_zero, Nat.not_lt,
    or_assoc, Bool.not_eq_true', Bool.and_eq_false_iff, decide_eq_false_iff_not, not_and_or]

/-- What starting a loop set leaves: its bounds, its count with A, and N where the other set is active (04 R87). -/
structure LoopStarted (s u : State) (n : Bool) (c e : Word) : Prop where
  start : vecGet u.th.fr.regs.zs (setIx n) 0 = s.th.fr.spc + 4
  stop : vecGet u.th.fr.regs.ze (setIx n) 0 = e
  count : u.zc n = word (c.toNat + 2 ^ 48 + (if zcA (s.zc (!n)) then 2 ^ 49 else 0))
  other : u.zc (!n) = s.zc (!n)
  frame : OnlyRegs s u

theorem loopStarted_startLoop (n : Bool) (c e : Word) : LoopStarted s (s.startLoop n c e) n c e := by
  let t := (s.log (.zs n) (vecGet s.th.fr.regs.zs (setIx n) 0)).onRegs fun r => { r with zs := vecSet r.zs (setIx n) (s.th.fr.spc + 4) }
  let u := (t.log (.ze n) (vecGet t.th.fr.regs.ze (setIx n) 0)).onRegs fun r => { r with ze := vecSet r.ze (setIx n) e }
  let z := word (c.toNat + 2 ^ 48 + bitNat (zcA (s.zc (!n))) * 2 ^ 49)
  have hstart : s.startLoop n c e = u.setZc n z := rfl
  have ht : t.th.fr.regs = { s.th.fr.regs with zs := vecSet s.th.fr.regs.zs (setIx n) (s.th.fr.spc + 4) } := onRegs_log_regs _ _ _
  have hu : u.th.fr.regs = { t.th.fr.regs with ze := vecSet t.th.fr.regs.ze (setIx n) e } := onRegs_log_regs _ _ _
  rw [hstart]
  constructor
  case start => rw [setZc_regs, hu, ht, vecGet_vecSet_same _ _ _ _ (setIx_lt n)]
  case stop => rw [setZc_regs, hu, vecGet_vecSet_same _ _ _ _ (setIx_lt n)]
  case count =>
    rw [zc_setZc_same]
    cases h : zcA (s.zc (!n)) <;> simp [z, h, bitNat]
  case other => rw [zc_setZc_not, State.zc, hu, ht, State.zc]
  case frame =>
    exact ((onlyRegs_logged _ _ _ s).trans (onlyRegs_logged _ _ _ t)).trans (onlyRegs_setZc n z u)

/-! ### lbrk -/

/-- What breaking a loop set leaves: its A and N are cleared, and those of the set inner to it (04 R90). -/
structure LoopBroken (s u : State) (n : Bool) : Prop where
  set : u.zc n = if zcA (s.zc n) then word (zcCount (s.zc n)) else s.zc n
  other : u.zc (!n) =
    if zcA (s.zc n) ∧ zcN (s.zc (!n)) ∧ zcA (s.zc (!n)) then word (zcCount (s.zc (!n))) else s.zc (!n)
  frame : OnlyRegs s u

theorem loopBroken_breakLoop (n : Bool) : LoopBroken s (s.breakLoop n) n := by
  have hset : (s.dropSet n).zc n = if zcA (s.zc n) then word (zcCount (s.zc n)) else s.zc n := zc_dropSet_same n
  have hother : (s.dropSet n).zc (!n) = s.zc (!n) := zc_dropSet_not n
  have hback : ∀ t : State, (t.dropSet (!n)).zc n = t.zc n := fun t => by
    have h := zc_dropSet_not (s := t) (!n)
    rwa [Bool.not_not] at h
  by_cases hA : zcA (s.zc n) = true
  · by_cases hN : zcN (s.zc (!n)) = true
    · have h : s.breakLoop n = (s.dropSet n).dropSet (!n) := by simp [State.breakLoop, hA, hother, hN]
      rw [h]
      refine ⟨(hback _).trans hset, ?_, (onlyRegs_dropSet n s).trans (onlyRegs_dropSet (!n) _)⟩
      rw [zc_dropSet_same, hother]
      simp [hA, hN]
    · have h : s.breakLoop n = s.dropSet n := by simp [State.breakLoop, hA, hother, hN]
      rw [h]
      exact ⟨hset, by simp [hother, hN], onlyRegs_dropSet n s⟩
  · have h : s.breakLoop n = s := by simp [State.breakLoop, hA]
    rw [h]
    exact ⟨by simp [hA], by simp [hA], .refl s⟩

/-! ### The words -/

theorem exec_loop (b : BitVec 1) : exec (.loop b a k) s = .next (s.loopWord (b == 1#1) a k) := rfl

theorem exec_lbrk (b : BitVec 1) : exec (.lbrk b) s = .next ((s.breakLoop (b == 1#1)).seqNext 4) := rfl

theorem loopWord_of_forbidden (h : LoopForbidden s n (s.rd a) k (s.branchTarget k)) (ho : s.older = []) :
    s.loopWord n a k = faultsHere s .illegal := by
  rw [← frontFault_of_older_nil ho]
  exact if_pos (loopBad_iff.mpr h)

/-- A count of zero goes to the end of the body (04 R87). -/
theorem loopWord_of_zero (h : ¬ LoopForbidden s n (s.rd a) k (s.branchTarget k)) (h0 : s.rd a = 0) :
    s.loopWord n a k = (s.arrive (s.branchTarget k)).1.onFr fun f => { f with spc := (s.arrive (s.branchTarget k)).2 } := by
  rw [State.loopWord, if_neg fun hb => h (loopBad_iff.mp hb), if_pos h0]

theorem loopWord_starts (h : ¬ LoopForbidden s n (s.rd a) k (s.branchTarget k)) (h0 : s.rd a ≠ 0) :
    s.loopWord n a k = (s.startLoop n (s.rd a) (s.branchTarget k)).seqNext 4 := by
  rw [State.loopWord, if_neg fun hb => h (loopBad_iff.mp hb), if_neg h0]

/-- Settles O19: loop by what R87 forbids and by its count, lbrk by what it clears. -/
theorem loopWords : Obligations.LoopWords := by
  intro s b a k hc
  refine ⟨fun hbad ho => ?_, fun hbad h0 => ?_, fun hbad h0 => ⟨s.startLoop (b == 1#1) (s.rd a) (s.branchTarget k), ?_, ?_⟩,
    ⟨_, exec_lbrk b, ?_⟩⟩
  · rw [exec_loop, loopWord_of_forbidden hbad ho]
  · rw [exec_loop, loopWord_of_zero hbad h0]
    rfl
  · rw [exec_loop, loopWord_starts hbad h0]
  · obtain ⟨hstart, hstop, hcount, hother, hframe⟩ := loopStarted_startLoop (s := s) (b == 1#1) (s.rd a) (s.branchTarget k)
    exact ⟨hstart, hstop, hcount, hother, hframe⟩
  · obtain ⟨hset, hother, hframe⟩ := loopBroken_breakLoop (s := s) (b == 1#1)
    exact ⟨hset, hother, hframe⟩

end Sys2Proof.Claims

end

section

/-! ## Lane sections

lsplit checks its extent, waits for the lanes and fetches the code; ljoin ends a lane, and with the last one the section (04 R95, R99). -/

namespace Sys2Proof.Claims

open Sys2Proof.Machine

variable {s u : State} {a b : RegNo} {j : Nat} {l : LaneSection} {code : List Byte}

/-- An extent of lane code that R95 refuses. -/
def BadExtent (start : Word) (len : Nat) : Prop := start.toNat % 4 ≠ 0 ∨ len % 4 ≠ 0 ∨ len < 4 ∨ 8192 < len

theorem badExtent_iff (start : Word) (len : Nat) :
    (decide (start.toNat % 4 ≠ 0) || decide (len % 4 ≠ 0) || decide (len < 4) || decide (8192 < len)) = true ↔ BadExtent start len := by
  simp only [Bool.or_eq_true, decide_eq_true_eq, or_assoc, BadExtent]

theorem lsplitWord_of_bad (hm : s.th.fr.m.lvl = false) (ho : s.older = []) (h : BadExtent (s.rd a) (s.rd b).toNat) :
    s.lsplitWord a b = faultsHere s .illegal := by
  rw [State.lsplitWord, if_neg (Bool.eq_false_iff.mp hm), if_pos ((badExtent_iff _ _).mpr h), frontFault_of_older_nil ho]

/-- With nothing older in flight the code is fetched, and every lane stands at its first word (04 R95). -/
theorem lsplitWord_of_fetched (hm : s.th.fr.m.lvl = false) (ho : s.older = []) (h : ¬ BadExtent (s.rd a) (s.rd b).toNat)
    (hf : fetchCode (s.rd a) ((s.rd b).toNat / 4) s = (u, .ok code)) :
    s.lsplitWord a b = u.onFr fun f => { f with lanes := some (newSection s.th.fr.spc (s.rd a) (s.rd b).toNat code s.width) } := by
  rw [State.lsplitWord, if_neg (Bool.eq_false_iff.mp hm), if_neg fun hb => h ((badExtent_iff _ _).mp hb), settle_of_older_nil ho]
  simp only [hf]

/-- A lane that joins while another goes on (04 R99). -/
theorem ljoinWord_of_more (hc : s.th.fr.curLane = some j) (hl : s.th.fr.lanes = some l) (h : (l.joined.set j true).all id = false) :
    s.ljoinWord = s.onFr fun f => { f with lanes := some (l.join j) } := by
  have h' : (l.join j).joined.all id = false := h
  simp only [State.ljoinWord, hc, hl, h', Bool.false_eq_true, if_false]

/-- The last lane that joins ends the section (04 R99). -/
theorem ljoinWord_of_last (hc : s.th.fr.curLane = some j) (hl : s.th.fr.lanes = some l) (h : (l.joined.set j true).all id = true) :
    s.ljoinWord = (s.onFr fun f => { f with lanes := none, curLane := none, spc := l.origin }).seqNext 4 := by
  have h' : (l.join j).joined.all id = true := h
  simp only [State.ljoinWord, hc, hl, h', if_true]

theorem ljoinWord_of_front (hc : s.th.fr.curLane = none) : s.ljoinWord = s.frontFault .illegal := by
  rw [State.ljoinWord, hc]

/-- Settles O21: lsplit by its extent, ljoin by whether another lane goes on. -/
theorem laneSections : Obligations.LaneSections := by
  refine ⟨fun s a b hc hm ho => ⟨fun hbad => ?_, fun u code hbad hf => ?_⟩, fun s j l hc hl => ⟨fun h => ?_, fun h => ?_⟩, fun s hc ho => ?_⟩
  · exact congrArg Host.Outcome.next (lsplitWord_of_bad hm ho hbad)
  · exact congrArg Host.Outcome.next (lsplitWord_of_fetched hm ho hbad hf)
  · exact congrArg Host.Outcome.next (ljoinWord_of_more hc hl h)
  · exact congrArg Host.Outcome.next (ljoinWord_of_last hc hl h)
  · exact congrArg Host.Outcome.next ((ljoinWord_of_front hc).trans (frontFault_of_older_nil ho .illegal))

end Sys2Proof.Claims

end

section

/-! ## The end of a thread

With nothing of the thread in flight an end waits for nothing, and the thread leaves its slot in good order (04 R103; 13 R397, R399). -/

namespace Sys2Proof.Claims

open Sys2Proof.Machine

variable {s : State}

/-! ### The slot-table entry -/

/-- No status word lies over the first word of an entry of its own number (14 R403). -/
theorem slotStatus_disjoint (die k : Nat) :
    slotEntry die k + 8 ≤ slotStatus die k ∨ slotStatus die k + 8 ≤ slotEntry die k := by
  unfold slotEntry slotStatus
  omega

/-- Bytes written beside a word of memory leave it. -/
theorem memBytes_memPut_other {m : Memory} {a b n : Nat} (bs : List Byte) (h : Memory.wf m = true) (hd : a + n ≤ b ∨ b + bs.length ≤ a) :
    memBytes (memPut m b bs) a n = memBytes m a n := by
  rw [memBytes_eq_map, memBytes_eq_map]
  refine List.map_congr_left fun k hk => ?_
  have hk := List.mem_range.mp hk
  exact memGet_memPut_other bs h (by omega)

/-- Dispatch clears V of the entry of a thread that leaves its slot (13 R399). -/
theorem freeSlot_clears (hok : s.MemOk) :
    leNat (memBytes s.freeSlot.mem (slotEntry s.th.bind.die (4 * s.th.bind.core + s.th.bind.slot)) 8) % 2 = 0 := by
  let e := slotEntry s.th.bind.die (4 * s.th.bind.core + s.th.bind.slot)
  let d := leNat (memBytes s.mem e 8)
  have hlen : ∀ x, (leBytes 8 x).length = 8 := Laws.length_leBytes 8
  have hentry := memBytes_memPut e (leBytes 8 (d - d % 2)) hok
  rw [hlen] at hentry
  have hread : memBytes s.freeSlot.mem e 8 = leBytes 8 (d - d % 2) := by
    rw [← hentry]
    exact memBytes_memPut_other _ (memPut_wf _ _ hok) (by rw [hlen]; exact slotStatus_disjoint _ _)
  rw [show slotEntry _ _ = e from rfl, hread, Laws.leNat_leBytes]
  omega

/-! ### The word -/

theorem openAtEnd_eq_false (ho : s.th.st.isOpen = false) (hu : s.th.st.unc = false) : s.th.st.openAtEnd = false := by
  rw [Strip.openAtEnd, ho, hu]
  rfl

/-- Nothing is outstanding that an end waits for (04 R103; 11 R321, R346). -/
theorem endReady_of_quiet (hviq : s.th.fr.viq = []) (hstoreQ : s.th.fr.storeQ = []) (hstores : s.storesDone = true)
    (hpending : s.pending = false) (hcopies : s.copies = []) (hstage : ∀ k < 8, (vecGet s.th.fab.fs k .reset).stage = []) :
    s.endReady = true := by
  have hstreams : (s.th.fab.fs.toList.all fun t => !(t.bound && t.send) || t.stage.all fun c => !c.admitted) = true := by
    refine List.all_eq_true.mpr fun t ht => ?_
    obtain ⟨k, hk, rfl⟩ := List.mem_iff_getElem.mp ht
    have hk8 : k < 8 := by simpa using hk
    have h := hstage k hk8
    simp only [vecGet, Vector.getElem?_eq_getElem hk8, Option.getD_some] at h
    rw [Vector.getElem_toList, h]
    simp
  rw [State.endReady, State.endQuiet, hstreams, hstores, hpending, hcopies]
  simp [hviq, hstoreQ]

theorem endWord_of_quiet (hm : s.th.fr.m.lvl = false) (hviq : s.th.fr.viq = []) (hstepq : s.th.fr.stepq = none)
    (hstoreQ : s.th.fr.storeQ = []) (hopen : s.th.st.openAtEnd = false) (hready : s.endReady = true) : s.endWord = s.finishThread := by
  have ho : s.older = [] := by simp [State.older, State.inLanes, hviq, hstepq]
  rw [State.endWord, if_neg (Bool.eq_false_iff.mp hm), settle_of_older_nil ho]
  simp only [State.leaveStores_of_nil hstoreQ, hopen, hready, Bool.false_eq_true, if_false, if_true]

/-- The state in which a thread that ends has given its copies away and its launch has counted it (10 R303; 13 R397). -/
def endCounted (s : State) : State :=
  (s.disownCopies s.th.bind.place false).onLaunch s.th.bind.launch fun l => { l with ended := l.ended + 1, flags := l.flags ||| s.th.ln.flags }

/-- A thread that has left its slot in good order (04 R103; 10 R280; 11 R346). -/
def endedThread (t : Thread) : Thread :=
  { t with life := .ended
           fr := { t.fr with wait := .none, fbuf := none, chainOpen := false, m := { t.fr.m with preq := none } }
           ln := { t.ln with win := { cfg := 0, copies := [] } }
           fab := { t.fab with fs := Vector.replicate 8 .reset } }

theorem finishThread_eq (s : State) : s.finishThread = (endCounted s).freeSlot.onTh endedThread := rfl

/-- What a thread that ends leaves, besides its entry in the slot table (13 R397, R399). -/
theorem finishThread_rest (s : State) :
    s.finishThread.th = endedThread s.th ∧ s.finishThread.others = s.others ∧
      s.finishThread.hub.launches = s.hub.launches.map fun l =>
        if l.number = s.th.bind.launch then { l with ended := l.ended + 1, flags := l.flags ||| s.th.ln.flags } else l := by
  have hfree : ∀ u : State, u.freeSlot = { u with mem := u.freeSlot.mem } := fun _ => rfl
  rw [finishThread_eq, State.onTh_th, State.onTh_others, State.onTh_hub, hfree]
  exact ⟨rfl, rfl, rfl⟩

theorem finishThread_clears (hok : s.MemOk) :
    leNat (memBytes s.finishThread.mem (slotEntry s.th.bind.die (4 * s.th.bind.core + s.th.bind.slot)) 8) % 2 = 0 := by
  have hok' : (endCounted s).MemOk := hok
  have hbind : (endCounted s).th.bind = s.th.bind := rfl
  rw [finishThread_eq, State.onTh_mem, ← hbind]
  exact freeSlot_clears hok'

/-- Settles O22: an end at M is illegal, and one at U with nothing in flight finishes the thread at once. -/
theorem endOfThread : Obligations.EndOfThread := by
  refine fun s hc => ⟨fun hm ho => ?_, fun hm hok hviq hstepq hstoreQ hopen hunc hstores hpending hcopies hstage => ?_⟩
  · have h : s.endWord = faultsHere s .illegal := by rw [State.endWord, if_pos hm, frontFault_of_older_nil ho]
    exact congrArg Host.Outcome.next h
  · have hready := endReady_of_quiet hviq hstoreQ hstores hpending hcopies hstage
    have hend := endWord_of_quiet hm hviq hstepq hstoreQ (openAtEnd_eq_false hopen hunc) hready
    obtain ⟨hth, hothers, hlaunches⟩ := finishThread_rest s
    exact ⟨_, congrArg Host.Outcome.next hend, by rw [hth]; rfl, finishThread_clears hok, hlaunches, by rw [hth]; rfl, hothers⟩

end Sys2Proof.Claims

end

section

/-! ## smb and smbcfg

A thread with nothing in flight sends, runs and retires the commit entry of smb in its own step (04 R94); the strip that it commits is empty
(07 R185). -/

namespace Sys2Proof.Claims

open Sys2Proof.Machine

variable {s : State} {e : VEntry} {vl : Option Nat} {d r : RegNo} {x : Word}

/-! ### The commit of an empty strip -/

/-- A commit with no entries leaves nothing to drain (07 R185, R186). -/
theorem commit_of_entries_nil (hp : s.prompt = true) (he : s.th.st.entries = []) :
    s.commit = s.onSt fun t => { t with open_ := t.open_ + 1, unacked := [], unc := false } := by
  have hp' : (s.onSt fun t => { t with open_ := t.open_ + 1 }).prompt = true := hp
  have hnone : (s.onSt fun t => { t with open_ := t.open_ + 1 }).th.st.draining = [] := by
    rw [Strip.draining, State.onSt_th_st, he]
    rfl
  rw [State.commit, State.closeStrip]
  simp only [hp', if_true, State.drainAll, hnone]
  simp [State.onSt, he]

/-- What a commit entry does at the lanes (04 R94). -/
def committed (vl : Option Nat) (s : State) : State :=
  match vl with
  | none => s.commit
  | some n => s.commit.onLn fun l => { l with vl := n }

theorem committed_of_entries_nil (hp : s.prompt = true) (he : s.th.st.entries = []) : committed vl s =
    (s.onSt fun t => { t with open_ := t.open_ + 1, unacked := [], unc := false }).onLn fun l => { l with vl := vl.getD l.vl } := by
  cases vl with
  | none => exact commit_of_entries_nil hp he
  | some n => rw [committed, commit_of_entries_nil hp he]; rfl

/-! ### The lanes run a commit entry -/

/-- A commit entry that has not issued. -/
structure FreshCommit (e : VEntry) (vl : Option Nat) : Prop where
  slot : e.slot = .commit vl
  op : e.op = 0
  joined : e.joined = false
  issued : e.issued = false
  complete : e.complete = false
  prog : e.prog = 0

/-- A commit entry once it has run. -/
structure RanCommit (e : VEntry) (vl : Option Nat) : Prop where
  slot : e.slot = .commit vl
  joined : e.joined = false
  complete : e.complete = true
  sampled : e.sampled = false

theorem member_of_freshCommit (h : FreshCommit e vl) (vcp : Word) (cut : Nat → Bool) :
    ∃ a, (ConvoyRun.start s).member noLimit cut vcp 0 e = a ∧ a.st = committed vl s ∧ a.full = true ∧ a.stops = [] ∧
      ∃ x, RanCommit x vl ∧ a.ran = [x] := by
  obtain ⟨hslot, hop, hjoin, hiss, hcomp, hprog⟩ := h
  refine ⟨_, rfl, ?_⟩
  unfold ConvoyRun.member
  simp [ConvoyRun.start, hcomp, hiss, hprog, hslot, hop, State.slotGroups, noLimit, ConvoyRun.fits, State.waitsSafe, ConvoyRun.slotWaits,
    State.logFull, State.firstIssue, State.sampleIssue, samples, VEntry.groupOf, slotRun, laneDone, VEntry.touch, VEntry.ran,
    VEntry.finish, VEntry.pending]
  exact ⟨by cases vl <;> rfl, rfl, hjoin, rfl, rfl⟩

section

variable (hq : s.th.fr.storeQ = [])
include hq

theorem issueConvoy_of_freshCommit (h : FreshCommit e vl) (hv : s.th.fr.viq = [e]) :
    ∃ x, RanCommit x vl ∧ s.issueConvoy noLimit = ((committed vl s).onFr fun f => { f with viq := [x] }, .done) := by
  obtain ⟨a, ha, hst, hfull, hstops, x, hx, hran⟩ := member_of_freshCommit (s := s) h s.vcp (fun _ => false)
  refine ⟨x, hx, ?_⟩
  unfold State.issueConvoy
  simp [State.storesBefore_of_nil hq, hv, splitConvoy, State.storesLeft_of_nil hq, runMembers, ConvoyRun.memberOn, ha, hstops, faultPoint,
    hfull, hran, hst]

variable (hh : s.th.fr.hist = [])
include hh

theorem retireFront_of_ranCommit (hx : RanCommit e vl) (hv : s.th.fr.viq = [e]) : s.retireFront = s.onFr fun f => { f with viq := [] } := by
  obtain ⟨hslot, hjoin, hcomp, hsamp⟩ := hx
  have h1 := State.retireHistory_of_nil (s := s.onFr fun f => { f with viq := [] }) hh
  have h2 := State.leaveStores_of_nil (s := s.onFr fun f => { f with viq := [] }) hq
  simp [State.retireFront, hv, splitConvoy, hcomp, State.retireConvoy, State.awaits, hslot, hsamp, h1, h2]

/-- The queue that holds a commit entry alone runs it and is empty again. -/
theorem runClosed_of_freshCommit (h : FreshCommit e vl) (hv : s.th.fr.viq = [e]) (hc : s.th.fr.chainOpen = false)
    (hp : s.prompt = true) (he : s.th.st.entries = []) (k : Nat) :
    State.runClosed (k + 2) s = ((committed vl s).onFr fun f => { f with viq := [] }, .done) := by
  obtain ⟨x, hx, hissue⟩ := issueConvoy_of_freshCommit hq h hv
  have hfr : (committed vl s).th.fr = s.th.fr := by rw [committed_of_entries_nil hp he]; rfl
  have hr := retireFront_of_ranCommit (s := (committed vl s).onFr fun f => { f with viq := [x] }) (by simpa [hfr] using hq)
    (by simpa [hfr] using hh) hx rfl
  rw [State.runClosed]
  simp only [hv, splitConvoy, hc, hissue, hr]
  simp [State.runClosed_of_nil, State.onFr]

end

/-! ### A commit entry that an idle thread sends -/

theorem append_of_freshCommit {next : State → State} (h : FreshCommit e vl) : ∃ x, FreshCommit x vl ∧
    s.append e false false next = (next s).onFr fun f => { f with viq := f.viq ++ [x], seq := e.seq, chainOpen := false } := by
  refine ⟨({ e with after := (next s).th.fr.spc, joined := false, zcs := if e.op = 0x73 then some s.th.fr.regs.zc else none }).ranged
    s.th.fr.copy.tm, ⟨h.slot, h.op, rfl, h.issued, h.complete, h.prog⟩, ?_⟩
  simp [State.append]

theorem runAhead_append_commit {next : State → State} (h : FreshCommit e vl) (hi : Idle (next s)) (he : (next s).th.st.entries = []) :
    (s.append e false false next).runAhead = (committed vl (next s)).onFr fun f => { f with seq := e.seq } := by
  obtain ⟨hprompt, hviq, -, hhist, hstoreQ, hchain, -⟩ := hi
  obtain ⟨x, hx, happ⟩ := append_of_freshCommit (s := s) (next := next) h
  have hp : (s.append e false false next).prompt = true := by rw [happ]; exact hprompt
  have hE : (s.append e false false next).th.st.entries = [] := by rw [happ]; exact he
  have hv : (s.append e false false next).th.fr.viq = [x] := by simp [happ, hviq]
  have hrun := runClosed_of_freshCommit (by simp [happ, hstoreQ]) (by simp [happ, hhist]) hx hv (by simp [happ]) hp hE 0
  rw [State.runAhead, if_pos hp, hv]
  change (State.runClosed (0 + 2) _).1 = _
  rw [hrun, committed_of_entries_nil hp hE, committed_of_entries_nil hprompt he, happ]
  simp [State.onFr, State.onSt, State.onLn, hviq, hchain]

/-- At U with nothing in flight, a commit entry is sent, runs and retires in its own step (04 R94). -/
theorem sendSlot_commit_of_idle {half : Nat} {next front : State → State} (hi : Idle s) (hu : s.th.fr.m.lvl = false)
    (hn : Idle (next (front s))) (he : (next (front s)).th.st.entries = []) :
    s.sendSlot (.commit vl) half x next front =
      (committed vl (next (front s))).onFr fun f => { f with seq := (front s).th.fr.seq + 1 } := by
  have hclose : s.closeChain = s := by simp [State.closeChain, hi.chain]
  have hused : s.viqUsed = 0 := by simp [State.viqUsed, hi.viq, hi.stepq]
  unfold State.sendSlot
  rw [if_neg (by simp [hu])]
  simp only [hclose, hi.prompt, State.runClosed_of_nil hi.viq, if_true]
  rw [if_neg (by simp [hused])]
  exact runAhead_append_commit ⟨rfl, rfl, rfl, rfl, rfl, rfl⟩ hn he

/-! ### The scalar registers of an idle thread -/

theorem wr_of_idle (hi : Idle s) (d : RegNo) (x : Word) :
    s.wr d x = s.onFr fun f => { f with s := if d = 0 then f.s else vecSet f.s d.toNat x } := by
  by_cases hd : d = 0
  · rw [State.wr, if_pos hd]
    simp only [if_pos hd]
    rfl
  · rw [State.wr, if_neg hd, hi.lane, log_of_viq_nil hi.viq]
    simp only [if_neg hd]

theorem rd_wr_same_of_idle (hi : Idle s) (hd : d ≠ 0) (x : Word) : (s.wr d x).rd d = x := by
  rw [wr_of_idle hi]
  simp only [State.rd, if_neg hd, State.onFr_th_fr, hi.lane, vecGet_vecSet_same _ _ _ _ d.isLt]

theorem rd_wr_other_of_idle (hi : Idle s) (hr : r ≠ d) (x : Word) : (s.wr d x).rd r = s.rd r := by
  have hne : d.toNat ≠ r.toNat := fun he => hr (BitVec.eq_of_toNat_eq he).symm
  rw [wr_of_idle hi]
  by_cases hd : d = 0
  · simp only [State.rd, if_pos hd, State.onFr_th_fr, hi.lane]
  · simp only [State.rd, if_neg hd, State.onFr_th_fr, hi.lane, vecGet_vecSet_other _ _ _ hne]

/-- Only the front's scalar registers have changed. -/
def OnlyScalars (s u : State) : Prop := ∃ v, u = s.onFr fun f => { f with s := v }

theorem OnlyScalars.idle {u : State} (h : OnlyScalars s u) (hi : Idle s) : Idle u := by
  obtain ⟨v, rfl⟩ := h
  exact ⟨hi.prompt, hi.viq, hi.stepq, hi.hist, hi.storeQ, hi.chain, hi.lane⟩

theorem OnlyScalars.wr {u : State} (h : OnlyScalars s u) (hi : Idle s) (d : RegNo) (x : Word) : OnlyScalars s (u.wr d x) := by
  have hu := h.idle hi
  obtain ⟨v, rfl⟩ := h
  exact ⟨_, wr_of_idle hu d x⟩

/-! ### The scalar part of smb -/

/-- What slot j of smbc adds to register r for a strip of n elements (04 R94). -/
def slotAdd (c : Word) (n : Nat) (r : RegNo) (j : Nat) : Word :=
  if smbSize c j ≠ 0 ∧ smbReg c j = r then word (n * 2 ^ (smbSize c j - 1)) else 0

theorem rd_smbAdvance (hi : Idle s) (hr : r ≠ 0) (n j : Nat) :
    (s.smbAdvance n j).rd r = s.rd r + slotAdd s.th.fr.regs.smbc n r j := by
  by_cases hz : smbSize s.th.fr.regs.smbc j = 0
  · simp [State.smbAdvance, slotAdd, hz]
  · by_cases hreg : smbReg s.th.fr.regs.smbc j = r
    · subst hreg
      simp [State.smbAdvance, slotAdd, hz, rd_wr_same_of_idle hi hr]
    · simp [State.smbAdvance, slotAdd, hz, hreg, rd_wr_other_of_idle hi (Ne.symm hreg)]

/-- The first k slots advance their registers one after another; a register that two of them name takes both. -/
theorem smbAdvance_upTo (hi : Idle s) (n : Nat) : ∀ k, OnlyScalars s (forUpTo k (fun j t => t.smbAdvance n j) s) ∧
    ∀ r ≠ 0, (forUpTo k (fun j t => t.smbAdvance n j) s).rd r = s.rd r + ((List.range k).map (slotAdd s.th.fr.regs.smbc n r)).sum
  | 0 => ⟨⟨s.th.fr.s, rfl⟩, fun r _ => (BitVec.add_zero _).symm⟩
  | k + 1 => by
    obtain ⟨honly, hrd⟩ := smbAdvance_upTo hi n k
    have hsmbc : (forUpTo k (fun j t => t.smbAdvance n j) s).th.fr.regs.smbc = s.th.fr.regs.smbc := by
      obtain ⟨v, hv⟩ := honly
      rw [hv]
      rfl
    refine ⟨?_, fun r hr => ?_⟩
    · rw [forUpTo, State.smbAdvance]
      split
      · exact honly
      · exact honly.wr hi _ _
    · rw [forUpTo, rd_smbAdvance (honly.idle hi) hr, hrd r hr, hsmbc, List.range_succ, List.map_append, List.sum_append]
      simp [BitVec.add_assoc]

theorem slotsAdd_of_unnamed {c : Word} {a : RegNo} (h : ∀ j < 4, smbSize c j ≠ 0 → smbReg c j ≠ a) (n : Nat) : slotsAdd c n a = 0 := by
  refine List.sum_eq_zero fun x hx => ?_
  obtain ⟨j, hj, rfl⟩ := List.mem_map.mp hx
  rw [if_neg fun hb => h j (List.mem_range.mp hj) hb.1 hb.2]

/-- The front after its own part of smb, before it goes on: the scalar registers, sbase and its copy of vl (04 R94; 05 R107). -/
def stripFront (s : State) (v : Vector Word 64) (b : Word) (n : Nat) : State :=
  s.onFr fun f => { f with s := v, regs := { f.regs with sbase := b }, copy := { f.copy with vl := n } }

theorem smbScalar_form (hi : Idle s) (a : RegNo) (n : Int) (k : Nat) :
    ∃ v, s.smbScalar a n k = stripFront s v (s.th.fr.regs.sbase + word k) s.th.fr.copy.vl ∧
      ((∀ j < 4, smbSize s.th.fr.regs.smbc j ≠ 0 → smbReg s.th.fr.regs.smbc j ≠ a) → a ≠ 0 →
        (s.smbScalar a n k).rd a = BitVec.ofInt 64 n) ∧
      ∀ r, r ≠ 0 → r ≠ a → (s.smbScalar a n k).rd r = s.rd r + slotsAdd s.th.fr.regs.smbc k r := by
  have hcount : OnlyScalars s (s.wr a (BitVec.ofInt 64 n)) := ⟨_, wr_of_idle hi a _⟩
  have hsmbc : (s.wr a (BitVec.ofInt 64 n)).th.fr.regs.smbc = s.th.fr.regs.smbc := by rw [wr_of_idle hi]; rfl
  obtain ⟨honly, hrd⟩ := smbAdvance_upTo (hcount.idle hi) k 4
  have hidle := honly.idle (hcount.idle hi)
  have hrd' : ∀ r ≠ 0, (s.smbScalar a n k).rd r = (s.wr a (BitVec.ofInt 64 n)).rd r + slotsAdd s.th.fr.regs.smbc k r := fun r hr => by
    rw [← hsmbc, State.smbScalar, log_of_viq_nil hidle.viq]
    exact hrd r hr
  refine ⟨(s.smbScalar a n k).th.fr.s, ?_, fun hslots ha => ?_, fun r hr hra => ?_⟩
  · rw [State.smbScalar, log_of_viq_nil hidle.viq]
    obtain ⟨v, hv⟩ := hcount
    rw [hv] at honly ⊢
    obtain ⟨w, hw⟩ := honly
    rw [hw]
    rfl
  · rw [hrd' a ha, rd_wr_same_of_idle hi ha, slotsAdd_of_unnamed hslots]
    exact BitVec.add_zero _
  · rw [hrd' r hr, rd_wr_other_of_idle hi hra]

/-! ### Where the front goes on -/

theorem dropSet_of_idle (hv : s.th.fr.viq = []) (n : Bool) : ∃ z, s.dropSet n = s.onFr fun f => { f with regs := { f.regs with zc := z } } := by
  unfold State.dropSet
  split
  · obtain ⟨h, e, hh⟩ := setZc_form s n (zcEnd (zcCount (s.zc n)))
    rw [hh (unsafeOlder_of_viq_nil hv)] at e
    exact ⟨_, by rw [e]; simp [State.onFr]; rfl⟩
  · exact ⟨s.th.fr.regs.zc, rfl⟩

theorem branchTo_of_idle (hv : s.th.fr.viq = []) (hu : s.th.fr.m.lvl = false) (target : Word) :
    ∃ z, s.branchTo target = s.onFr fun f => { f with spc := target, regs := { f.regs with zc := z } } := by
  obtain ⟨z, hz⟩ : ∃ z, (if endedBy s target false then s.dropSet false else s) = s.onFr fun f => { f with regs := { f.regs with zc := z } } := by
    split
    · exact dropSet_of_idle hv false
    · exact ⟨s.th.fr.regs.zc, rfl⟩
  rw [State.branchTo, leaveSets_eq hu]
  simp only [hz]
  split
  · obtain ⟨z', hz'⟩ := dropSet_of_idle (s := s.onFr fun f => { f with regs := { f.regs with zc := z } }) hv true
    exact ⟨z', by rw [hz']; rfl⟩
  · exact ⟨z, rfl⟩

theorem seqNext_of_idle (hv : s.th.fr.viq = []) : ∃ z, s.seqNext 4 =
    s.onFr fun f => { f with spc := (s.arrive (s.th.fr.spc + 4)).2, regs := { f.regs with zc := z } } := by
  obtain ⟨h, z, e, hh, -⟩ := seqNext_form s 4
  rw [hh (unsafeOlder_of_viq_nil hv)] at e
  exact ⟨z, by rw [e]; simp [State.onFr, word]⟩

/-! ### smb -/

/-- How many elements remain once the strip is counted off (04 R94). -/
def leftAfter (s : State) (a : RegNo) : Int := (s.rd a).toInt - s.th.fr.copy.vl

/-- What smb grants to the next strip (04 R94; 05 R107). -/
def nextVl (s : State) (a : RegNo) : Option Nat :=
  if 0 < leftAfter s a then some (min (leftAfter s a).toNat (vlmax s.width (Machine.sizeOf (vtEsz s.th.ln.vtype)))) else none

theorem nextVl_of_left {a : RegNo} (h : 0 < leftAfter s a) :
    nextVl s a = some (min (leftAfter s a).toNat (vlmax s.width (Machine.sizeOf (vtEsz s.th.ln.vtype)))) := if_pos h

theorem nextVl_of_done {a : RegNo} (h : ¬ 0 < leftAfter s a) : nextVl s a = none := if_neg h

/-- What an idle thread's smb leaves: the front moved on, the strip committed, and the next vl in the copy and the lanes. -/
def stripDone (s : State) (v : Vector Word 64) (z : Vector Word 2) (p : Word) (next : Option Nat) : State :=
  ((s.onFr fun f => { f with
    s := v, spc := p, regs := { f.regs with sbase := f.regs.sbase + word f.copy.vl, zc := z },
    copy := { f.copy with vl := next.getD f.copy.vl }, seq := f.seq + 1 }).onSt fun t =>
      { t with open_ := t.open_ + 1, unacked := [], unc := false }).onLn fun l => { l with vl := next.getD l.vl }

theorem grantVl_stripFront (hi : Idle s) (v : Vector Word 64) (b : Word) (m n : Nat) :
    (stripFront s v b m).grantVl n = stripFront s v b n := by
  rw [State.grantVl, log_of_viq_nil (show (stripFront s v b m).th.fr.viq = [] from hi.viq)]
  rfl

/-- The front's own part of smb, then on: back to the strip's start while elements remain. -/
theorem smb_front (hi : Idle s) (hu : s.th.fr.m.lvl = false) (v : Vector Word 64) (b target : Word) (n : Nat) (taken : Bool) :
    ∃ z, (if taken then (stripFront s v b n).branchTo target else (stripFront s v b n).seqNext 4) =
      (stripFront s v b n).onFr fun f =>
        { f with spc := if taken then target else (s.arrive (s.th.fr.spc + 4)).2, regs := { f.regs with zc := z } } := by
  have hv : (stripFront s v b n).th.fr.viq = [] := hi.viq
  cases taken with
  | true => exact branchTo_of_idle hv hu target
  | false =>
    have hsame : SameLoops s (stripFront s v b n) := ⟨rfl, rfl, rfl⟩
    obtain ⟨z, hz⟩ := seqNext_of_idle hv
    exact ⟨z, hz.trans (by rw [hsame.arrive rfl]; rfl)⟩

theorem frontEsz_of_viq_nil (h : s.th.fr.viq = []) : s.frontEsz = vtEsz s.th.ln.vtype := by
  simp [State.frontEsz, h]

/-- The front's own part of smb (04 R94). -/
theorem smb_ownPart (hi : Idle s) (a : RegNo) : ∃ v, (let u := s.smbScalar a (leftAfter s a) s.th.fr.copy.vl
      if decide (0 < leftAfter s a) then
        u.grantVl (min (leftAfter s a).toNat (vlmax s.width (Machine.sizeOf (vtEsz s.th.ln.vtype)))) else u) =
      stripFront s v (s.th.fr.regs.sbase + word s.th.fr.copy.vl) ((nextVl s a).getD s.th.fr.copy.vl) ∧
    v = (s.smbScalar a (leftAfter s a) s.th.fr.copy.vl).th.fr.s := by
  obtain ⟨v, hv, -⟩ := smbScalar_form hi a (leftAfter s a) s.th.fr.copy.vl
  refine ⟨v, ?_, by rw [hv]; rfl⟩
  by_cases hn : 0 < leftAfter s a
  · simp only [hv, nextVl_of_left hn, decide_eq_true hn, if_true, grantVl_stripFront hi, Option.getD_some]
  · simp only [hv, nextVl_of_done hn, decide_eq_false hn, Bool.false_eq_true, if_false, Option.getD_none]

theorem exec_smb (hi : Idle s) (hu : s.th.fr.m.lvl = false) (he : s.th.st.entries = []) {a : RegNo}
    (hslots : ∀ j < 4, smbSize s.th.fr.regs.smbc j ≠ 0 → smbReg s.th.fr.regs.smbc j ≠ a) (k : BitVec 13) :
    ∃ z, exec (.smb a k) s = .next (stripDone s (s.smbScalar a (leftAfter s a) s.th.fr.copy.vl).th.fr.s z
        (if 0 < leftAfter s a then s.th.fr.spc + (k.signExtend 64 <<< 2) else (s.arrive (s.th.fr.spc + 4)).2) (nextVl s a)) := by
  obtain ⟨v, hfront, rfl⟩ := smb_ownPart hi a
  obtain ⟨z, hz⟩ := smb_front hi hu (s.smbScalar a (leftAfter s a) s.th.fr.copy.vl).th.fr.s (s.th.fr.regs.sbase + word s.th.fr.copy.vl)
    (s.th.fr.spc + (k.signExtend 64 <<< 2)) ((nextVl s a).getD s.th.fr.copy.vl) (decide (0 < leftAfter s a))
  refine ⟨z, congrArg Host.Outcome.next ?_⟩
  have hlegal : ((List.range 4).any fun j => smbSize s.th.fr.regs.smbc j ≠ 0 && smbReg s.th.fr.regs.smbc j = a) = false := by
    simpa using hslots
  have hnext : (if decide (0 < leftAfter s a) then
      some (min (leftAfter s a).toNat (vlmax s.width (Machine.sizeOf (vtEsz s.th.ln.vtype)))) else none) = nextVl s a := by
    simp [nextVl]
  rw [State.smbWord]
  simp only [hu, Bool.false_eq_true, if_false, hlegal, frontEsz_of_viq_nil hi.viq]
  rw [← leftAfter, hnext]
  have hz' := (congrArg (fun t : State => if decide (0 < leftAfter s a) then t.branchTo (t.branchTarget k) else t.seqNext 4) hfront).trans hz
  rw [sendSlot_commit_of_idle hi hu]
  · rw [hz', hfront]
    refine (congrArg (State.onFr _) (committed_of_entries_nil ?_ ?_)).trans ?_
    · exact hi.prompt
    · exact he
    · simp only [decide_eq_true_eq]
      rfl
  · rw [hz']
    exact ⟨hi.prompt, hi.viq, hi.stepq, hi.hist, hi.storeQ, hi.chain, hi.lane⟩
  · rw [hz']
    exact he

/-! ### smbcfg -/

/-- smbcfg writes one slot of smbc and no other (04 R93). -/
theorem smbcfg_form (s : State) (d : RegNo) (z : BitVec 3) (j : BitVec 2) : ∃ u : State, exec (.smbcfg d z j) s = .next (u.seqNext 4) ∧
    smbSize u.th.fr.regs.smbc j.toNat = z.toNat ∧ smbReg u.th.fr.regs.smbc j.toNat = d ∧
    (∀ i < 4, i ≠ j.toNat → smbSize u.th.fr.regs.smbc i = smbSize s.th.fr.regs.smbc i ∧
      smbReg u.th.fr.regs.smbc i = smbReg s.th.fr.regs.smbc i) ∧
    u.onFr (fun f => { f with hist := s.th.fr.hist, regs := { f.regs with smbc := s.th.fr.regs.smbc } }) = s := by
  have hj := j.isLt
  have hd := d.isLt
  have hz := z.isLt
  have hfit : 16 * j.toNat + 16 ≤ 64 := by omega
  refine ⟨_, rfl, ?_, ?_, fun i hi hij => ?_, ?_⟩
  · rw [onRegs_log_regs, smbSize, bitsOf_putBits_inside _ _ hfit (by omega) (by omega)]
    rw [show 16 * j.toNat + 6 - 16 * j.toNat = 6 by omega, show 16 * j.toNat + 8 + 1 - (16 * j.toNat + 6) = 3 by omega]
    omega
  · rw [onRegs_log_regs, smbReg, bitsOf_putBits_inside _ _ hfit (by omega) (by omega)]
    rw [show 16 * j.toNat - 16 * j.toNat = 0 by omega, show 16 * j.toNat + 5 + 1 - 16 * j.toNat = 6 by omega]
    refine BitVec.eq_of_toNat_eq ?_
    rw [BitVec.toNat_ofNat]
    omega
  · simp only [onRegs_log_regs, smbSize, smbReg]
    rw [bitsOf_putBits_outside _ _ hfit (by omega), bitsOf_putBits_outside _ _ hfit (by omega)]
    exact ⟨rfl, rfl⟩
  · obtain ⟨h, e, -⟩ := log_form s .smbc s.th.fr.regs.smbc
    rw [e]
    rfl

/-! ### The clauses -/

theorem rd_stripDone (hi : Idle s) (u : State) (hu : u.th.fr.curLane = none) (z : Vector Word 2) (p : Word) (next : Option Nat) (r : RegNo) :
    (stripDone s u.th.fr.s z p next).rd r = u.rd r := by
  have hc : (stripDone s u.th.fr.s z p next).th.fr.curLane = none := hi.lane
  rw [State.rd, State.rd, hc, hu]
  rfl

/-- What an idle thread's smb leaves, with the scalar registers of its scalar part. -/
theorem smb_form (hi : Idle s) (hu : s.th.fr.m.lvl = false) (he : s.th.st.entries = []) {a : RegNo}
    (hslots : ∀ j < 4, smbSize s.th.fr.regs.smbc j ≠ 0 → smbReg s.th.fr.regs.smbc j ≠ a) (k : BitVec 13) :
    ∃ v z p, exec (.smb a k) s = .next (stripDone s v z p (nextVl s a)) ∧
      p = (if 0 < leftAfter s a then s.th.fr.spc + (k.signExtend 64 <<< 2) else (s.arrive (s.th.fr.spc + 4)).2) ∧
      (a ≠ 0 → (stripDone s v z p (nextVl s a)).rd a = BitVec.ofInt 64 (leftAfter s a)) ∧
      ∀ r, r ≠ 0 → r ≠ a →
        (stripDone s v z p (nextVl s a)).rd r = s.rd r + slotsAdd s.th.fr.regs.smbc s.th.fr.copy.vl r := by
  obtain ⟨z, hexec⟩ := exec_smb hi hu he hslots k
  obtain ⟨v, hfront, hcount, hother⟩ := smbScalar_form hi a (leftAfter s a) s.th.fr.copy.vl
  have hlane : (s.smbScalar a (leftAfter s a) s.th.fr.copy.vl).th.fr.curLane = none := by rw [hfront]; exact hi.lane
  exact ⟨_, z, _, hexec, rfl, fun ha => (rd_stripDone hi _ hlane _ _ _ a).trans (hcount hslots ha),
    fun r hr hra => (rd_stripDone hi _ hlane _ _ _ r).trans (hother r hr hra)⟩

/-- Settles O20: an idle thread's smb runs its commit entry in its own step; smbcfg writes one field of smbc. -/
theorem stripWords : Obligations.StripWords := by
  refine ⟨fun s a k hi hu he hslots => ?_, fun s d z j _ => smbcfg_form s d z j⟩
  obtain ⟨v, z, p, hexec, hp, hcount, hother⟩ := smb_form hi hu he hslots k
  refine ⟨_, hexec, hcount, hother, ?_, ?_, ?_, ?_, fun hn => ?_, fun hn => ?_, ?_, ?_⟩
  · rfl
  · rfl
  · rfl
  · rfl
  · have hn' : 0 < leftAfter s a := hn
    rw [if_pos hn'] at hp
    have hgrant := fun m => congrArg (Option.getD · m) (nextVl_of_left hn')
    exact ⟨hgrant _, hgrant _, hp⟩
  · have hn' : ¬ 0 < leftAfter s a := Int.not_lt.mpr hn
    rw [if_neg hn'] at hp
    have hkeep := fun m => congrArg (Option.getD · m) (nextVl_of_done hn')
    exact ⟨hkeep _, hkeep _, hp⟩
  · rfl
  · rfl

end Sys2Proof.Claims

end

section

/-! ## Loads and stores of a lane

A lane's load sees its cluster's strip store buffer, then memory; its store enters that buffer (04 R98; 07 R184). -/

namespace Sys2Proof.Claims

open Sys2Proof.Machine

variable {s t : State} {i : Instr} {d a b : RegNo} {j n m pa kind c : Nat} {x : Word} {fl : Flags} {e : StripEntry} {es : List StripEntry}

/-! ### A load -/

/-- A word that writes a lane's register does so over other memory-side structures as well. -/
theorem laneRegisterWord_of_onUnc {f : Uncore → Uncore} (h : LaneRegisterWord (s.onUnc f) t j d x fl) :
    LaneRegisterWord s { t with unc := s.unc } j d x fl where
  result := h.result
  others := h.others
  lanes := h.lanes
  pc := h.pc
  flags := h.flags
  frame := congrArg (fun u => { u with unc := s.unc }) h.frame

theorem soGate_when_so (hso : kind = 1 → s.th.st.entries = []) : (if kind = 1 then s.soGate 1 else s) = s := by
  split
  · next hk => exact soGate_of_entries_nil (hso hk) 1
  · rfl

/-- A lane's load reads through the L2 and writes its value to the lane's element (04 R98; 03 R62). -/
theorem load_of_ok_in_lane {ext : Nat → Word} {k : BitVec 13} (hc : s.th.fr.curLane = some j)
    (hcheck : s.scalarCheck (s.rd a + k.signExtend 64) n .read = (s, .ok (pa, kind)))
    (hpoison : s.loadPoison pa kind n = false) (hso : kind = 1 → s.th.st.entries = []) :
    s.load n ext d a k = ((s.l2Read false (s.cellOf pa) n).wr d (ext (s.loadValue pa kind n))).advance 4 := by
  have hwait : s.loadWaits kind (s.rd a + k.signExtend 64) n = false := by simp [State.loadWaits, hc]
  simp only [State.load, addOffset, hcheck, hwait, soGate_when_so hso, soWaits_eq_false hso, hpoison, hc]
  rfl

theorem lane_load {ext : Nat → Word} {k : BitVec 13} (hi : loadForm i = some (n, ext, d, a, k)) (hc : s.th.fr.curLane = some j)
    (hj : j < 2048) (hcheck : s.scalarCheck (s.rd a + k.signExtend 64) n .read = (s, .ok (pa, kind)))
    (hso : kind = 1 → s.th.st.entries = []) (hpoison : s.loadPoison pa kind n = false) :
    ∃ t, exec i s = .next t ∧ LaneRegisterWord s { t with unc := s.unc } j d (ext (s.loadValue pa kind n)) 0 := by
  obtain ⟨u, hu⟩ : ∃ u, s.l2Read false (s.cellOf pa) n = s.onUnc fun _ => u := ⟨_, (banksMoved_l2Read false _ n s).eq_onUnc⟩
  refine ⟨_, by rw [exec_of_loadForm hi, load_of_ok_in_lane hc hcheck hpoison hso, hu], ?_⟩
  exact laneRegisterWord_of_onUnc (laneRegisterWord_wr (s := s.onUnc fun _ => u) hc hj d _)

/-! ### The value of a load -/

theorem loadForm_bytes_dvd {ext : Nat → Word} {k : BitVec 13} (h : loadForm i = some (n, ext, d, a, k)) : n ∣ 64 := by
  cases i
  case ldI8 | ldI16 | ldI32 | ldI64 | ldN8 | ldN16 | ldN32 => cases h; decide
  all_goals cases h

theorem storeForm_bytes_dvd {k : BitVec 13} (h : storeForm i = some (n, a, b, k)) : n ∣ 64 := by
  cases i
  case stI8 | stI16 | stI32 | stI64 => cases h; decide
  all_goals cases h

/-- A naturally aligned access lies in one block. -/
theorem aligned_fits_block (hn : n ∣ 64) (ha : pa % n = 0) (hm : m < n) : pa % 64 + m < 64 := by
  obtain ⟨q, hq⟩ := hn
  have hmod : pa % 64 % n = 0 := by rw [hq, Nat.mod_mul_right_mod, ha]
  obtain ⟨r, hr⟩ := Nat.dvd_of_mod_eq_zero hmod
  have hlt : pa % 64 < 64 := Nat.mod_lt _ (by decide)
  have hrq : r < q := Nat.lt_of_mul_lt_mul_left (a := n) (by omega)
  have hstep : n * r + n ≤ n * q := by
    rw [← Nat.mul_succ]
    exact Nat.mul_le_mul_left n hrq
  omega

theorem stripByte_eq_none (h : ∀ e ∈ es, e.remote = none → e.block ≠ c / 64) : stripByte c es = none := by
  induction es with
  | nil => rfl
  | cons e es ih =>
    have hes := ih fun e he => h e (List.mem_cons_of_mem _ he)
    have hout : ¬ (e.remote.isNone = true ∧ e.block = c / 64) := fun hin =>
      h e List.mem_cons_self (Option.isNone_iff_eq_none.mp hin.1) hin.2
    simp only [stripByte, hes, if_neg hout]

/-- With none of the cluster's writes in the block a lane's load of plain memory reads memory (04 R98). -/
theorem loadValue_plain_in_lane (hc : s.th.fr.curLane = some j) (hplain : PlainHbm s pa n) (hkind : kind < 3) (hn : n ∣ 64) (hpos : 0 < n)
    (ha : pa % n = 0) (hblock : ∀ e ∈ s.th.st.entries, e.cluster = j / 8 → e.remote = none → e.block ≠ pa / 64) :
    s.loadValue pa kind n = leNat (memBytes s.mem pa n) := by
  have htarget : s.target s.th.bind.ctx pa = .cell pa := hplain.target _ hpos
  have hcluster : s.scalarCluster = j / 8 := by rw [State.scalarCluster, hc]
  have hbyte : ∀ i ∈ List.range n, s.laneByte s.scalarCluster (pa + i) = memGet s.mem (pa + i) := fun i hi => by
    have hin := List.mem_range.mp hi
    have hfits := aligned_fits_block hn ha hin
    have hnone : stripByte (pa + i) (s.th.st.entries.filter fun e => e.cluster = s.scalarCluster) = none :=
      stripByte_eq_none fun e he hr => by
        obtain ⟨hmem, hcl⟩ := List.mem_filter.mp he
        have hne := hblock e hmem ((of_decide_eq_true hcl).trans hcluster) hr
        omega
    rw [State.laneByte, hnone, hplain.cellOf hin, State.byteAt_plain hplain.2.2]
  have hkind' : kind ≠ 3 := Nat.ne_of_lt hkind
  rw [memBytes_eq_map, ← List.map_congr_left hbyte, State.loadValue, htarget]
  simp [hc, hkind']

/-! ### What a lane's buffer holds of a byte -/

theorem stripByte_append_whole {young : List StripEntry} {y : Byte} (h : stripByte c young = some (3, y)) :
    stripByte c (es ++ young) = some (3, y) := by
  induction es with
  | nil => exact h
  | cons e es ih =>
    rw [List.cons_append, stripByte, ih]
    rfl

theorem stripByte_append_none {young : List StripEntry} (h : stripByte c young = none) : stripByte c (es ++ young) = stripByte c es := by
  induction es with
  | nil => exact h
  | cons e es ih => rw [List.cons_append, stripByte, stripByte, ih]

theorem stripByte_singleton (e : StripEntry) (c : Nat) : stripByte c [e] =
    if e.remote.isNone ∧ e.block = c / 64 then (if markOf e (c % 64) = 0 then none else some (markOf e (c % 64), byteOf e (c % 64))) else none :=
  rfl

theorem field_setField_unit {w : Nat} (x : BitVec w) {b k : Nat} (v l : Nat) (h : (k + 1) * b ≤ w) :
    field (setField x (b * k) b v) (b * l) b = if l = k then v % 2 ^ b else field x (b * l) b := by
  rw [Nat.mul_comm b k, Nat.mul_comm b l]
  exact elemAt_setElem x v l h

/-! ### A store's bytes enter the buffer one after another -/

/-- How a lane's store enters the buffer of its cluster. -/
def laneAs (cluster kind order : Nat) : PutAs :=
  { cluster := cluster, kind := kind, mark := 3, release := false, stream := false, remote := none, order := order }

/-- The entry of the open strip for the bytes of a block that a lane writes, which holds those bytes from address a on and no other. -/
structure HoldsBytes (p : PutAs) (strip pa : Nat) (bs : List Byte) (e : StripEntry) : Prop where
  slot : e.slot = { cluster := p.cluster, strip := strip, block := pa / 64, remote := none }
  order : e.order = p.place
  marks : ∀ k < 64, markOf e k = if pa % 64 ≤ k ∧ k < pa % 64 + bs.length then 3 else 0
  data : ∀ x < bs.length, byteOf e (pa % 64 + x) = bs.getD x 0

namespace HoldsBytes

variable {p : PutAs} {strip : Nat} {bs : List Byte} (h : HoldsBytes p strip pa bs e)
include h

theorem cluster : e.cluster = p.cluster := congrArg StripSlot.cluster h.slot

theorem block : e.block = pa / 64 := congrArg StripSlot.block h.slot

theorem remote : e.remote = none := congrArg StripSlot.remote h.slot

theorem stripByte_inside {x : Nat} (hx : x < bs.length) (hfit : pa % 64 + x < 64) : stripByte (pa + x) [e] = some (3, bs.getD x 0) := by
  have hblock : (pa + x) / 64 = pa / 64 := by omega
  have hoff : (pa + x) % 64 = pa % 64 + x := by omega
  have hmark : markOf e (pa % 64 + x) = 3 := by rw [h.marks _ hfit, if_pos ⟨Nat.le_add_right _ _, Nat.add_lt_add_left hx _⟩]
  rw [stripByte_singleton, if_pos ⟨by rw [h.remote]; rfl, by rw [h.block, hblock]⟩, hoff, hmark, h.data x hx]
  rfl

theorem stripByte_outside (hout : c < pa ∨ pa + bs.length ≤ c) : stripByte c [e] = none := by
  rw [stripByte_singleton]
  split
  · next hin =>
    have hblock : pa / 64 = c / 64 := h.block.symm.trans hin.2
    have hmark : markOf e (c % 64) = 0 := by
      rw [h.marks _ (Nat.mod_lt _ (by decide)), if_neg (by omega)]
    rw [if_pos hmark]
  · rfl

end HoldsBytes

section

variable {p : PutAs} {strip : Nat} {bs : List Byte} {y : Byte} {u : Strip}

/-- No record of the cluster's open strip holds the block yet. -/
theorem mergeAt_of_absent (h : ∀ e ∈ u.entries, e.slot ≠ { cluster := p.cluster, strip := u.open_, block := c / 64, remote := p.remote }) :
    u.mergeAt p c = none := by
  unfold Strip.mergeAt
  have hlen : u.entries.reverse.findIdx (fun e => decide (e.slot =
      { cluster := p.cluster, strip := u.open_, block := c / 64, remote := p.remote })) = u.entries.length := by
    rw [← List.length_reverse, List.findIdx_eq_length]
    exact fun e he => decide_eq_false (h e (List.mem_reverse.mp he))
  simp only [hlen, le_refl, if_true]

/-- The youngest record takes the byte where it is of the byte's entry and place. -/
theorem mergeAt_of_last (hu : u.entries = es ++ [e])
    (hslot : e.slot = { cluster := p.cluster, strip := u.open_, block := c / 64, remote := p.remote }) (horder : e.order = p.place) :
    u.mergeAt p c = some es.length := by
  simp [Strip.mergeAt, hu, List.findIdx_cons, hslot, horder]

/-- The record that a byte takes where none of its entry stands (07 R184). -/
def firstRecord (p : PutAs) (strip c : Nat) (y : Byte) : StripEntry :=
  { cluster := p.cluster, block := c / 64, marks := setField 0 (2 * (c % 64)) 2 p.mark, data := setField 0 (8 * (c % 64)) 8 y.toNat,
    strip := strip, kind := p.kind + (if p.release then 8 else 0), remote := p.remote, stream := p.stream, order := p.place }

/-- A record with a byte merged into it (07 R184, R185). -/
def mergedRecord (p : PutAs) (c : Nat) (y : Byte) (e : StripEntry) : StripEntry :=
  { e with
    kind := max e.kind (p.kind + (if p.release then 8 else 0)), stream := e.stream && p.stream,
    marks := setField e.marks (2 * (c % 64)) 2 (markOf e (c % 64) ||| p.mark),
    data := setField e.data (8 * (c % 64)) 8 (mixNibbles p.mark y (byteOf e (c % 64))).toNat }

theorem putByte_of_absent (h : u.mergeAt p c = none) (y : Byte) :
    u.putByte p c y = { u with entries := u.entries ++ [firstRecord p u.open_ c y] } := by
  rw [Strip.putByte, h]
  rfl

theorem putByte_of_last (hu : u.entries = es ++ [e]) (h : u.mergeAt p c = some es.length) (y : Byte) :
    u.putByte p c y = { u with entries := es ++ [mergedRecord p c y e] } := by
  have hmodify : ∀ f : StripEntry → StripEntry, (es ++ [e]).modify es.length f = es ++ [f e] := fun f => by
    simp [List.modify_eq_set_getElem?]
  rw [Strip.putByte, h]
  simp only [hu, hmodify]
  rfl

theorem markOf_firstRecord (p : PutAs) (strip c : Nat) (y : Byte) (k : Nat) :
    markOf (firstRecord p strip c y) k = if k = c % 64 then p.mark % 2 ^ 2 else 0 := by
  have hzero : field (0 : BitVec 128) (2 * k) 2 = 0 := by simp [field]
  rw [markOf, firstRecord, field_setField_unit _ _ _ (by omega), hzero]

theorem byteOf_firstRecord (p : PutAs) (strip c : Nat) (y : Byte) : byteOf (firstRecord p strip c y) (c % 64) = y := by
  have hlt : y.toNat < 2 ^ 8 := y.isLt
  rw [byteOf, firstRecord, field_setField_unit _ _ _ (by omega), if_pos rfl, Nat.mod_eq_of_lt hlt, BitVec.ofNat_toNat, BitVec.setWidth_eq]

theorem markOf_mergedRecord (p : PutAs) (c : Nat) (y : Byte) (e : StripEntry) (k : Nat) :
    markOf (mergedRecord p c y e) k = if k = c % 64 then (markOf e k ||| p.mark) % 2 ^ 2 else markOf e k := by
  rw [markOf, mergedRecord, field_setField_unit _ _ _ (by omega)]
  split
  · next hk => rw [hk]
  · rfl

theorem byteOf_mergedRecord (p : PutAs) (c : Nat) (y : Byte) (e : StripEntry) (k : Nat) :
    byteOf (mergedRecord p c y e) k = if k = c % 64 then mixNibbles p.mark y (byteOf e k) else byteOf e k := by
  have hlt : ∀ z : Byte, z.toNat % 2 ^ 8 = z.toNat := fun z => Nat.mod_eq_of_lt z.isLt
  rw [byteOf, mergedRecord, field_setField_unit _ _ _ (by omega)]
  split
  · next hk => rw [hk, hlt, BitVec.ofNat_toNat, BitVec.setWidth_eq]
  · rfl

/-- The first byte of a store takes a new entry. -/
theorem putByte_first (hp : p.mark = 3) (hr : p.remote = none) (hu : ∀ e ∈ u.entries, e.cluster = p.cluster → e.block ≠ pa / 64) (y : Byte) :
    ∃ e, u.putByte p pa y = { u with entries := u.entries ++ [e] } ∧ HoldsBytes p u.open_ pa [y] e := by
  have hnone : u.mergeAt p pa = none := mergeAt_of_absent fun e he hs =>
    hu e he (congrArg StripSlot.cluster hs) (congrArg StripSlot.block hs)
  refine ⟨_, putByte_of_absent hnone y, ?_⟩
  constructor
  case slot => rw [← hr]; rfl
  case order => rfl
  case marks =>
    intro k _
    have hin : k = pa % 64 ↔ pa % 64 ≤ k ∧ k < pa % 64 + 1 := by omega
    rw [markOf_firstRecord, hp]
    simp only [hin, List.length_singleton]
    rfl
  case data =>
    intro x hx
    obtain rfl : x = 0 := Nat.lt_one_iff.mp hx
    exact byteOf_firstRecord p _ pa y

/-- Every later byte of the block merges into it. -/
theorem putByte_next (hp : p.mark = 3) (hr : p.remote = none) (hu : u.entries = es ++ [e]) (h : HoldsBytes p u.open_ pa bs e)
    (hfit : pa % 64 + bs.length < 64) (y : Byte) :
    ∃ e', u.putByte p (pa + bs.length) y = { u with entries := es ++ [e'] } ∧ HoldsBytes p u.open_ pa (bs ++ [y]) e' := by
  have hblock : (pa + bs.length) / 64 = pa / 64 := by omega
  have hoff : (pa + bs.length) % 64 = pa % 64 + bs.length := by omega
  have hmerge : u.mergeAt p (pa + bs.length) = some es.length := mergeAt_of_last hu (by rw [h.slot, hblock, hr]) h.order
  refine ⟨_, putByte_of_last hu hmerge y, ?_⟩
  constructor
  case slot => exact h.slot
  case order => exact h.order
  case marks =>
    intro k hk
    rw [markOf_mergedRecord, hoff, hp, h.marks k hk, List.length_append, List.length_singleton]
    by_cases hlast : k = pa % 64 + bs.length
    · rw [if_pos hlast, if_neg (by omega), if_pos (by omega)]
      rfl
    · have hin : (pa % 64 ≤ k ∧ k < pa % 64 + (bs.length + 1)) ↔ pa % 64 ≤ k ∧ k < pa % 64 + bs.length := by omega
      simp only [if_neg hlast, hin]
  case data =>
    intro x hx
    rw [List.length_append, List.length_singleton] at hx
    rw [byteOf_mergedRecord, hoff, hp, mixNibbles_whole]
    by_cases hlast : x = bs.length
    · subst hlast
      simp
    · have hlt : x < bs.length := by omega
      rw [if_neg (by omega), h.data x hlt, List.getD_append _ _ _ _ hlt]

/-- The later bytes of a store, each on its own page kind's terms, merge into the entry of the first. -/
theorem enterBytes_next {q : PutAs} (hq : { q with kind := p.kind } = p) (hr : p.remote = none) (hp : p.mark = 3) (rest : List Byte) :
    ∀ {bs : List Byte} {e : StripEntry} {u : Strip}, u.entries = es ++ [e] → HoldsBytes p u.open_ pa bs e →
    pa % 64 + bs.length + rest.length ≤ 64 →
    ∃ e', enterBytes q (spanBytes (pa + bs.length) p.kind rest.length) rest u = { u with entries := es ++ [e'] } ∧
      HoldsBytes p u.open_ pa (bs ++ rest) e' := by
  induction rest with
  | nil => exact fun {bs e u} hu h _ => ⟨e, by rw [← hu]; rfl, by rwa [List.append_nil]⟩
  | cons y rest ih =>
    intro bs e u hu h hfit
    rw [List.length_cons] at hfit
    obtain ⟨e1, hput, h1⟩ := putByte_next hp hr hu h (by omega) y
    have hlen : (bs ++ [y]).length = bs.length + 1 := by simp
    obtain ⟨e2, hall, h2⟩ := ih (u := { u with entries := es ++ [e1] }) rfl h1 (by omega)
    refine ⟨e2, ?_, by simpa using h2⟩
    rw [hlen] at hall
    rw [List.length_cons, spanBytes, enterBytes, hq, hput]
    exact hall

/-- The strip store buffer with a store of one block entered: all of its bytes stand in one new entry (07 R184). -/
theorem enterBytes_block {q : PutAs} (hq : { q with kind := p.kind } = p) (hr : p.remote = none) (hp : p.mark = 3) (hpos : 0 < bs.length)
    (hfit : pa % 64 + bs.length ≤ 64) (hu : ∀ e ∈ u.entries, e.cluster = p.cluster → e.block ≠ pa / 64) :
    ∃ e, enterBytes q (spanBytes pa p.kind bs.length) bs u = { u with entries := u.entries ++ [e] } ∧ HoldsBytes p u.open_ pa bs e := by
  cases bs with
  | nil => exact absurd hpos (Nat.lt_irrefl 0)
  | cons y rest =>
    rw [List.length_cons] at hfit
    obtain ⟨e1, hput, h1⟩ := putByte_first hp hr hu y
    have hlen : [y].length = 1 := rfl
    obtain ⟨e2, hall, h2⟩ := enterBytes_next hq hr hp rest (u := { u with entries := u.entries ++ [e1] }) rfl h1 (by omega)
    refine ⟨e2, ?_, h2⟩
    rw [List.length_cons, spanBytes, enterBytes, hq, hput]
    exact hall

end

/-! ### A store -/

theorem spanBytes_eq_map (pa kind n : Nat) : spanBytes pa kind n = (List.range n).map fun x => (pa + x, kind) := by
  induction n generalizing pa with
  | zero => rfl
  | succ n ih =>
    rw [spanBytes, ih, List.range_succ_eq_map, List.map_cons, List.map_map]
    simp [Function.comp_def, Nat.add_assoc, Nat.add_comm 1]

/-- The write of a lane's store. -/
def laneWrite (s : State) (j pa kind : Nat) (bs : List Byte) : ElemWrite :=
  { index := 0, cluster := j / 8, bytes := spanBytes pa kind bs.length, value := bs, mark := 3, order := s.scalarOrder }

theorem enterGroup_of_room {ws : List ElemWrite} (hroom : s.overAllowance none ws = false) (hlack : s.lacksEntries none ws = false) :
    s.enterGroup ws false false none = (ws.foldl (fun u w => u.onSt fun b => enterBytes
      { cluster := w.cluster, kind := 0, mark := w.mark, release := false, stream := false, remote := none, order := w.order }
      w.bytes w.value b) s, true) := by
  simp only [State.enterGroup, hroom, hlack, Bool.false_eq_true, if_false]

/-- The buffer that a lane's store leaves. -/
theorem laneStore_of_room {bs : List Byte} (hc : s.th.fr.curLane = some j) (hso : kind = 1 → s.th.st.entries = [])
    (hroom : s.overAllowance none [laneWrite s j pa kind bs] = false) (hlack : s.lacksEntries none [laneWrite s j pa kind bs] = false)
    (hpos : 0 < bs.length) (hfit : pa % 64 + bs.length ≤ 64) (hblock : ∀ e ∈ s.th.st.entries, e.cluster = j / 8 → e.block ≠ pa / 64) :
    ∃ e, s.laneStore pa kind bs = ((s.onSt fun t => { t with entries := t.entries ++ [e] }).countDs kind).advance 4 ∧
      HoldsBytes (laneAs (j / 8) kind s.scalarOrder) s.th.st.open_ pa bs e := by
  have hcluster : s.scalarCluster = j / 8 := by rw [State.scalarCluster, hc]
  obtain ⟨e, hent, h⟩ := enterBytes_block (p := laneAs (j / 8) kind s.scalarOrder) (q := laneAs (j / 8) 0 s.scalarOrder) rfl rfl rfl hpos
    hfit hblock
  refine ⟨e, ?_, h⟩
  have hstore : s.laneStore pa kind bs = (let t := s.enterGroup [laneWrite s j pa kind bs] false false none
      if t.2 then (t.1.countDs kind).advance 4 else t.1) := by
    rw [State.laneStore, hcluster, soGate_when_so hso]
    rfl
  have hbuffer : (s.onSt fun b => enterBytes (laneAs (j / 8) 0 s.scalarOrder) (spanBytes pa kind bs.length) bs b) =
      s.onSt fun t => { t with entries := t.entries ++ [e] } :=
    congrArg (fun b => s.onSt fun _ => b) hent
  rw [hstore, enterGroup_of_room hroom hlack, ← hbuffer]
  rfl

/-- The buffer of every cluster after a lane's store: its bytes in its own cluster, and every other byte as before (04 R98). -/
theorem stripByte_of_stored {p : PutAs} {strip : Nat} {bs : List Byte} (h : HoldsBytes p strip pa bs e) (hfit : pa % 64 + bs.length ≤ 64) :
    (∀ x < bs.length, stripByte (pa + x) ((es ++ [e]).filter fun e => e.cluster = p.cluster) = some (3, bs.getD x 0)) ∧
    ∀ c cl, c < pa ∨ pa + bs.length ≤ c →
      stripByte c ((es ++ [e]).filter fun e => e.cluster = cl) = stripByte c (es.filter fun e => e.cluster = cl) := by
  refine ⟨fun x hx => ?_, fun c cl hout => ?_⟩
  · have hone : [e].filter (fun e => e.cluster = p.cluster) = [e] := by simp [h.cluster]
    rw [List.filter_append, hone]
    exact stripByte_append_whole (h.stripByte_inside hx (by omega))
  · rw [List.filter_append]
    refine stripByte_append_none ?_
    by_cases hcl : e.cluster = cl
    · simpa [hcl] using h.stripByte_outside hout
    · simp [hcl, stripByte]

end Sys2Proof.Claims

end

section

/-! ## The words of a lane

A lane runs the words that R96 names, each on its own elements; every other word, and a fetch outside the code, stops the section with the
lane's number (04 R96, R99). -/

namespace Sys2Proof.Claims

open Sys2Proof.Machine

variable {s : State} {i : Instr} {a b : RegNo} {j n pa kind pad : Nat} {link : Bool} {l : LaneSection} {w : BitVec 32} {k : BitVec 13}

/-! ### Stores -/

theorem countDs_form (kind : Nat) (s : State) : ∃ o, s.countDs kind = s.onFab fun f => { f with dsOrder := o } := by
  unfold State.countDs
  split
  · exact ⟨_, rfl⟩
  · exact ⟨s.th.fab.dsOrder, rfl⟩

theorem store_of_ok_in_lane (hc : s.th.fr.curLane = some j)
    (hcheck : s.scalarCheck (s.rd a + k.signExtend 64) n .write = (s, .ok (pa, kind))) :
    s.store n a b k = s.laneStore pa kind (leBytes n (s.rd b).toNat) := by
  simp only [State.store, addOffset, hcheck, hc]
  rfl

/-- What a lane's store leaves with a new entry in the buffer: the lane's PC moved and, on a DS page, the store counted. -/
def laneStored (s : State) (e : StripEntry) (o : Nat) : State :=
  ((s.onSt fun t => { t with entries := t.entries ++ [e] }).onFab fun f => { f with dsOrder := o }).onFr fun f => { f with spc := f.spc + 4 }

theorem laneStored_entries (e : StripEntry) (o : Nat) : (laneStored s e o).th.st.entries = s.th.st.entries ++ [e] := rfl

theorem laneStored_frame (e : StripEntry) (o : Nat) : (((laneStored s e o).onFr fun f => { f with spc := s.th.fr.spc }).onFab fun f =>
    { f with dsOrder := s.th.fab.dsOrder }).onSt (fun _ => s.th.st) = s := by
  simp [laneStored, State.onFr, State.onFab, State.onSt]

/-- A lane's store leaves its bytes in one new entry of the buffer. -/
theorem lane_store (hi : storeForm i = some (n, a, b, k)) (hc : s.th.fr.curLane = some j) (ha : pa % n = 0)
    (hcheck : s.scalarCheck (s.rd a + k.signExtend 64) n .write = (s, .ok (pa, kind))) (hso : kind = 1 → s.th.st.entries = [])
    (hblock : ∀ e ∈ s.th.st.entries, e.cluster = j / 8 → e.block ≠ pa / 64)
    (hroom : s.overAllowance none [laneWrite s j pa kind (leBytes n (s.rd b).toNat)] = false)
    (hlack : s.lacksEntries none [laneWrite s j pa kind (leBytes n (s.rd b).toNat)] = false) :
    ∃ e o, exec i s = .next (laneStored s e o) ∧
      (∀ x < n, stripByte (pa + x) ((laneStored s e o).th.st.entries.filter fun e => e.cluster = j / 8) =
        some (3, (leBytes n (s.rd b).toNat).getD x 0)) ∧
      ∀ c cl, c < pa ∨ pa + n ≤ c → stripByte c ((laneStored s e o).th.st.entries.filter fun e => e.cluster = cl) =
        stripByte c (s.th.st.entries.filter fun e => e.cluster = cl) := by
  have hlen : (leBytes n (s.rd b).toNat).length = n := Laws.length_leBytes n _
  have hpos : 0 < n := storeForm_bytes_pos hi
  have hfit : pa % 64 + n ≤ 64 := by
    have := aligned_fits_block (storeForm_bytes_dvd hi) ha (Nat.sub_lt hpos Nat.one_pos)
    omega
  obtain ⟨e, hstore, h⟩ := laneStore_of_room hc hso hroom hlack (hlen.symm ▸ hpos) (by rwa [hlen]) hblock
  obtain ⟨o, ho⟩ := countDs_form kind (s.onSt fun t => { t with entries := t.entries ++ [e] })
  obtain ⟨hin, hout⟩ := stripByte_of_stored (es := s.th.st.entries) h (by rwa [hlen])
  rw [hlen] at hin hout
  refine ⟨e, o, ?_, hin, hout⟩
  rw [exec_of_storeForm hi, store_of_ok_in_lane hc hcheck, hstore, ho]
  refine congrArg Host.Outcome.next ((advance_of_lane (j := j) ?_ 4).trans rfl)
  exact hc

/-! ### Words that only go on -/

theorem exec_passing_in_lane (hc : s.th.fr.curLane = some j) (hi : i ∈ [Instr.nop, .lpadC, .lpadJ, .lpadR]) :
    exec i s = .next (s.onFr fun f => { f with spc := s.th.fr.spc + 4 }) := by
  have hgo : Host.Outcome.next (s.advance 4) =
      (Host.Outcome.next (s.onFr fun f => { f with spc := s.th.fr.spc + 4 }) : Host.Outcome State Fault Refusal) := by
    rw [advance_of_lane hc]
    rfl
  simp only [List.mem_cons, List.not_mem_nil, or_false] at hi
  rcases hi with rfl | rfl | rfl | rfl <;> exact hgo

/-! ### Faults in a lane -/

/-- A fault of a lane stops the section, with the lane's number at its PC (04 R99). -/
theorem scalarFault_of_lane (hc : s.th.fr.curLane = some j) (hl : s.th.fr.lanes = some l) (c : ExcCause) (idx : Word) (fl : Flags) :
    s.scalarFault c idx fl = s.takeException c (word j) s.th.fr.spc l.origin fl true := by
  rw [State.scalarFault, hc, hl]

/-! ### Indirect branches -/

theorem targetWord_of_lane (hc : s.th.fr.curLane = some j) (hl : s.th.fr.lanes = some l) (target : Word) :
    s.targetWord target = (s, l.wordAt target) := by
  rw [State.targetWord, hc, hl]

/-- The branch stands where the word of the section's code at its target is the landing pad of its kind (04 R84, R96). -/
theorem exec_indirect_pad_in_lane (hi : indirectForm i = some (a, pad, link)) (hc : s.th.fr.curLane = some j)
    (hl : s.th.fr.lanes = some l) (ha : (s.rd a).toNat % 4 = 0) (hw : l.wordAt (s.rd a) = some w) (hp : w.toNat = pad) :
    exec i s = .next (linkAndGo s link (s.rd a)) := by
  obtain ⟨hexec, -⟩ := exec_of_indirectForm (s := s) hi
  have hpad : BitVec.ofNat 32 pad = w := by rw [← hp, BitVec.ofNat_toNat, BitVec.setWidth_eq]
  rw [hexec, hpad, indirect_of_pad ha (by rw [targetWord_of_lane hc hl, hw])]

theorem exec_indirect_fault_in_lane (hi : indirectForm i = some (a, pad, link)) (hc : s.th.fr.curLane = some j)
    (hl : s.th.fr.lanes = some l) (h : (s.rd a).toNat % 4 ≠ 0 ∨ (l.wordAt (s.rd a) = some w ∧ w.toNat ≠ pad)) :
    exec i s = .next (s.takeException .controlFlow (word j) s.th.fr.spc l.origin 0 true) := by
  obtain ⟨hexec, hpad⟩ := exec_of_indirectForm (s := s) hi
  rw [hexec, ← scalarFault_of_lane hc hl .controlFlow noIndex 0]
  by_cases ha : (s.rd a).toNat % 4 = 0
  · obtain ⟨hw, hne⟩ := h.resolve_left (not_not.mpr ha)
    have hne' : w ≠ BitVec.ofNat 32 pad := fun he => hne (by rw [he, BitVec.toNat_ofNat, Nat.mod_eq_of_lt hpad])
    rw [indirect_of_other ha (by rw [targetWord_of_lane hc hl, hw]) hne']
  · rw [indirect_of_misaligned ha]

/-! ### The words that no lane runs -/

/-- A word that R96 does not name reads no register of the lane and is illegal. -/
theorem laneExec_of_not_legal (h : laneLegal s i = false) :
    laneSources i = [] ∧ laneExec i s = .next (s.scalarFault .illegal noIndex 0) := by
  cases i
  case add | sub | and | or | xor | andn | sll | srl | sra | ror | slt | sltn | min | max | minn | maxn | clz | ctz | cpop | mul | mulh
      | mulhn | addi | andi | ori | xori | slli | srli | srai | slti | sltin | lui | addpc => cases h
  case ldI8 | ldI16 | ldI32 | ldI64 | ldN8 | ldN16 | ldN32 | stI8 | stI16 | stI32 | stI64 => cases h
  case faddD | fsubD | fmulD | fdivD | fsqrtD | fminD | fmaxD | fsignCD | fsignND | fsignXD | fmaddD | fmsubD | fnmaddD | fnmsubD | fcmpEqD
      | fcmpLtD | fcmpLeD | fkindD => cases h
  case faddS | fsubS | fmulS | fdivS | fsqrtS | fminS | fmaxS | fsignCS | fsignNS | fsignXS | fmaddS | fmsubS | fnmaddS | fnmsubS | fcmpEqS
      | fcmpLtS | fcmpLeS | fkindS => cases h
  case cvtDS | cvtSD | cvtDI64 | cvtDN64 | cvtSI64 | cvtSN64 | cvtI64D | cvtN64D | cvtI64S | cvtN64S => cases h
  case b | call | bcEq | bcNe | bcLt | bcGe | bcLtn | bcGen | calli | jmpi | ret => cases h
  case div | divn | rem | remn => simp [laneLegal, intResult, apply_ite Option.isSome] at h
  case nop | lpadC | lpadJ | lpadR | ljoin => simp [laneLegal] at h
  all_goals exact ⟨rfl, rfl⟩

theorem laneWord_outside {pc : Word} (h : l.wordAt pc = none) : s.laneWord l pc = s.scalarFault .controlFlow noIndex 0 := by
  rw [State.laneWord, h]

/-- What R96 calls illegal in a lane: a 64-bit word, one that does not decode, and one that it does not name. -/
theorem laneWord_illegal {pc : Word} (hw : l.wordAt pc = some w)
    (h : 2 ^ 31 ≤ w.toNat ∨ (∃ x, decode32 w = .error x) ∨ ∃ i, decode32 w = .ok i ∧ laneLegal s i = false) :
    s.laneWord l pc = s.scalarFault .illegal noIndex 0 := by
  rw [State.laneWord, hw]
  by_cases hwide : w.getLsbD 31 = true
  · simp only [hwide, if_true]
  · simp only [hwide, if_false, Bool.false_eq_true]
    rcases h with hlong | ⟨x, hx⟩ | ⟨i, hi, hlegal⟩
    · have htop : w.getLsbD 31 = true := by
        have hmsb : w.msb = true := by rw [BitVec.msb_eq_decide]; exact decide_eq_true hlong
        exact hmsb
      exact absurd htop hwide
    · rw [hx]
    · obtain ⟨hsources, hexec⟩ := laneExec_of_not_legal hlegal
      have hmarked : s.laneMarked i = false := by
        cases hc : s.th.fr.curLane <;> simp [State.laneMarked, hsources, hc]
      rw [hi]
      simp only [hmarked, hexec, Bool.false_eq_true, if_false]

/-! ### The clauses -/

/-- Settles O10: each word of a lane has its meaning on the lane's elements, its cluster's buffer or its section's code. -/
theorem laneWords : Obligations.LaneWords := by
  refine ⟨fun i s j d x fl h hc hj hf => ?_, fun i s j n ext d a k pa kind hi hc hj hcheck hso hpoison => ?_,
    fun i s j n a b k pa kind hi hc ha hcheck hso hblock => ?_, fun s j hc i hi => exec_passing_in_lane hc hi,
    fun i s j l a pad link w hi hc hl => ⟨exec_indirect_fault_in_lane hi hc hl, fun hj ha hw hp => ?_⟩,
    fun s j l pc hc hl => ⟨fun h => ?_, fun w hw h => ?_⟩⟩
  · exact laneRegisterWord_of_resultFlags (h.elim exec_of_intResult exec_of_fpResult) hc hj hf
  · obtain ⟨t, hexec, hword⟩ := lane_load hi hc hj hcheck hso hpoison
    exact ⟨t, hexec, hword, fun hplain hkind hblock ha =>
      loadValue_plain_in_lane hc hplain hkind (loadForm_bytes_dvd hi) (loadForm_bytes_pos hi) ha hblock⟩
  · intro bs ws hroom hlack
    have hlen : bs.length = n := Laws.length_leBytes n _
    have hws : ws = [laneWrite s j pa kind bs] := by rw [laneWrite, spanBytes_eq_map, hlen]
    rw [hws] at hroom hlack
    obtain ⟨e, o, hexec, hin, hout⟩ := lane_store hi hc ha hcheck hso hblock hroom hlack
    exact ⟨_, hexec, rfl, hin, hout, laneStored_frame e o⟩
  · obtain ⟨hpc, hlinked, hframe⟩ := laneBranch_linkAndGo hc hj link (s.rd a)
    exact ⟨_, exec_indirect_pad_in_lane hi hc hl ha hw hp, hpc, hlinked, hframe⟩
  · rw [laneWord_outside h, scalarFault_of_lane hc hl]
  · rw [laneWord_illegal hw h, scalarFault_of_lane hc hl]

end Sys2Proof.Claims

end

section

/-! ## A word alone that completes

A word that a thread with nothing in flight sends is a convoy of its own; where the lanes complete it, it retires in the step that sends it
(02 R36; 03 R56; 05 R119). -/

namespace Sys2Proof.Claims

open Sys2Proof.Machine

variable {s t q u : State} {op : Nat} {w : VWord} {e e0 : VEntry} {f : Front}

/-! ### The convoy runs and retires -/

/-- A word's entry that has not issued and stands in the queue of a prompt model by itself, with sampling off. -/
structure LoneEntry (q : State) (e : VEntry) : Prop extends FreshWord e where
  prompt : q.prompt = true
  viq : q.th.fr.viq = [e]
  hist : q.th.fr.hist = []
  storeQ : q.th.fr.storeQ = []
  chain : q.th.fr.chainOpen = false
  cfg : q.th.fr.regs.smplcfg.getLsbD 0 = false
  mark : q.th.fr.regs.mark = false
  unheld : e.pending = 0

/-- An entry once it has issued (05 R108, R116). -/
def issuedOf (q : State) (e : VEntry) : VEntry :=
  taken q { e with issued := true, vtype := q.th.ln.vtype, sampled := false, issuedAt := (q.th.fr.spc, q.vcp) }

/-- The lanes run all groups of an entry and leave u (05 R119). -/
def CompletesTo (q : State) (e : VEntry) (u : State) : Prop :=
  ∃ g, q.slotGroups (typed q e) ≤ g ∧ laneRun (issuedOf q e) 0 (allGroups q e) q = { st := u, reached := g, stop := none }

theorem firstIssue_of_alone (h : LoneEntry q e) : q.firstIssue e q.vcp = (q, issuedOf q e) := by
  rw [State.firstIssue, if_neg (by simp [h.issued]), sampleIssue_of_off e h.cfg h.mark]
  rfl

/-- Nothing holds the only member of a convoy back (05 R119). -/
theorem member_not_idle (h : LoneEntry q e) (c : Nat → Nat) :
    (q.waitsSafe (typed q e) && !(ConvoyRun.start q).full || (ConvoyRun.start q).slotWaits (typed q e) || q.logFull (typed q e) ||
      decide (allGroups q e ≤ (typed q e).prog) && decide (0 < q.slotGroups (typed q e)) ||
      decide (q.slotGroups (typed q e) = 0) && decide (noLimit 0 (typed q e).prog (q.slotGroups (typed q e)) c = 0)) = false := by
  have hlog : q.logFull (typed q e) = false := by simp [State.logFull, h.hist]
  have hprog : (typed q e).prog = 0 := h.prog
  have hpos : (decide (allGroups q e ≤ 0) && decide (0 < q.slotGroups (typed q e))) = false := by
    rw [allGroups, ← Bool.decide_and, decide_eq_false_iff_not]
    omega
  rw [hlog, hprog, hpos]
  simp [ConvoyRun.start, ConvoyRun.slotWaits, noLimit]

theorem member_of_completes (h : LoneEntry q e) (hc : CompletesTo q e u) (cut : Nat → Bool) :
    ∃ x, (x.slot = .word ∧ x.op = e.op ∧ x.complete = true ∧ x.sampled = false) ∧
      ((ConvoyRun.start q).member noLimit cut q.vcp 0 e).st = u ∧ ((ConvoyRun.start q).member noLimit cut q.vcp 0 e).ran = [x] ∧
      ((ConvoyRun.start q).member noLimit cut q.vcp 0 e).full = true ∧ ((ConvoyRun.start q).member noLimit cut q.vcp 0 e).stops = [] := by
  obtain ⟨g, hg, hrun⟩ := hc
  obtain ⟨hslot, -, hiss, hcomp, hprog⟩ := h.toFreshWord
  have hslot1 : (issuedOf q e).slot = .word := hslot
  have hprog1 : (issuedOf q e).prog = 0 := hprog
  have hv : (if e.issued then e else { e with vtype := (ConvoyRun.start q).st.th.ln.vtype }) = typed q e := if_neg (by simp [hiss])
  have hstart : (ConvoyRun.start q).st = q := rfl
  have hhi : ∀ c : Nat → Nat, min ((ConvoyRun.start q).fits (typed q e) (q.slotGroups (typed q e)))
    (noLimit 0 (typed q e).prog (q.slotGroups (typed q e)) c) = allGroups q e := fun _ => rfl
  have hslotRun : slotRun (issuedOf q e) 0 (allGroups q e) q = { st := u, reached := g, stop := none } := by rw [slotRun, hslot1, hrun]
  have hran : ((issuedOf q e).touch q 0 g).ran { st := u, reached := g, stop := none } true =
      { issuedOf q e with prog := g, complete := true, safe := true } := by
    simp [VEntry.touch, VEntry.ran, issuedOf, taken]
  have hfinish : VEntry.finish { issuedOf q e with prog := g, complete := true, safe := true } u =
      (u, { issuedOf q e with prog := g, complete := true, safe := true }) := by
    have hunheld : ({ issuedOf q e with prog := g, complete := true, safe := true } : VEntry).pending = 0 := h.unheld
    rw [VEntry.finish, hunheld]
    rfl
  have hleft : (decide (g = 0) && decide (0 < q.slotGroups (typed q e))) = false := by
    rw [← Bool.decide_and, decide_eq_false_iff_not]
    omega
  refine ⟨{ issuedOf q e with prog := g, complete := true, safe := true }, ⟨hslot, rfl, rfl, rfl⟩, ?_⟩
  rw [ConvoyRun.member, if_neg (by simp [hcomp]), hv]
  simp only [hstart, hhi, member_not_idle h, Bool.false_and, Bool.false_eq_true, if_false, firstIssue_of_alone h, hprog1, hslotRun, hleft, hg,
    decide_true, Option.isNone_none, Bool.true_or, Bool.and_true, hran, hfinish]
  exact ⟨trivial, rfl, rfl, rfl⟩

/-- The convoy of a word that the lanes complete is done. -/
theorem issueConvoy_of_completes (h : LoneEntry q e) (hc : CompletesTo q e u) :
    ∃ x, (x.slot = .word ∧ x.op = e.op ∧ x.complete = true ∧ x.sampled = false) ∧
      q.issueConvoy noLimit = (u.onFr fun f => { f with viq := [x] }, .done) := by
  obtain ⟨x, hx, hst, hran, hfull, hstops⟩ := member_of_completes h hc fun _ => false
  refine ⟨x, hx, ?_⟩
  have hone : runMembers noLimit (fun _ => false) q.vcp 1 0 [e] (ConvoyRun.start q) =
    (ConvoyRun.start q).member noLimit (fun _ => false) q.vcp 0 e := rfl
  unfold State.issueConvoy
  simp only [State.storesBefore_of_nil h.storeQ, State.storesLeft_of_nil h.storeQ, h.viq, splitConvoy, List.takeWhile_nil, List.dropWhile_nil,
    List.length_singleton, hone, hst, hran, hfull, hstops, faultPoint, Bool.false_eq_true, if_false, if_true, List.append_nil]

/-- A word that is complete retires: it is counted, and it leaves the queue (05 R119; 12 Table 12.13). -/
theorem retireFront_of_complete {x : VEntry} (hv : u.th.fr.viq = [x]) (hh : u.th.fr.hist = []) (hq : u.th.fr.storeQ = [])
    (hslot : x.slot = .word) (hop : x.op ≠ 0x73) (hcomp : x.complete = true) (hsamp : x.sampled = false) :
    u.retireFront = (u.count 39).onFr fun f => { f with viq := [] } := by
  have hawaits : u.awaits x = false := by simp [State.awaits, hop]
  have h1 := State.retireHistory_of_nil (s := (u.count 39).onFr fun f => { f with viq := [] }) hh
  have h2 := State.leaveStores_of_nil (s := (u.count 39).onFr fun f => { f with viq := [] }) hq
  simp [State.retireFront, hv, splitConvoy, hcomp, State.retireConvoy, hawaits, hslot, hsamp, h1, h2]

/-- The queue that holds a word alone runs it and is empty again. -/
theorem runClosed_of_completes (h : LoneEntry q e) (hop : e.op ≠ 0x73) (hc : CompletesTo q e u) (hh : u.th.fr.hist = [])
    (hq : u.th.fr.storeQ = []) : 
    State.runClosed 2 q = ((u.count 39).onFr fun f => { f with viq := [] }, .done) := by
  obtain ⟨x, ⟨hslot, hopx, hcomp, hsamp⟩, hissue⟩ := issueConvoy_of_completes h hc
  have hretire := retireFront_of_complete (u := u.onFr fun f => { f with viq := [x] }) rfl hh hq hslot (hopx ▸ hop) hcomp hsamp
  rw [State.runClosed]
  simp only [h.viq, splitConvoy, h.chain, hissue, hretire]
  simp [State.runClosed_of_nil, State.onFr, State.count, State.onTh]

/-! ### Sending the word -/

theorem SameLoops.arrive_fst (h : SameLoops s t) (hm : t.th.fr.m = s.th.fr.m) (a : Word) : SameLoops (s.arrive a).1 (t.arrive a).1 := by
  obtain ⟨hi, -⟩ := h.endOfBody s.innerSet a
  obtain ⟨hboth, -⟩ := hi.endOfBody (!s.innerSet) a
  obtain ⟨houter, -⟩ := h.endOfBody (!s.innerSet) a
  simp only [State.arrive, hm, h.innerSet, h.endsAt, hi.zcOf, hi.endsAt]
  repeat' split
  all_goals assumption

/-- The front `f`, with its own part of a word done, goes on in sequence from the word at spc (04 R88). -/
def movedOn (s : State) (f : Front) : Front :=
  { f with spc := (s.arrive (s.th.fr.spc + 8)).2, seq := s.th.fr.seq + 1
           regs := { f.regs with zc := (s.arrive (s.th.fr.spc + 8)).1.th.fr.regs.zc } }

theorem movedOn_self (s : State) : movedOn s s.th.fr = frontAfter s := by
  obtain ⟨h, z, e, -⟩ := arrive_form s (s.th.fr.spc + 8)
  rw [movedOn, frontAfter, e]
  rfl

/-- The state in which a word stands in the queue by itself, the front `f` having gone on. -/
def lone (s : State) (f : Front) (e : VEntry) : State := s.onFr fun _ => { movedOn s f with viq := [e] }

theorem queued_eq_lone (s : State) (op : Nat) (w : VWord) : queued s op w = lone s s.th.fr (queuedEntry s op w) := by
  rw [lone, movedOn_self, queued]

/-- A front's own part of a word, in an idle thread: it keeps the queue, the loop sets and the level, and nothing is in flight after it. -/
structure OwnFront (s : State) (f : Front) : Prop where
  viq : f.viq = []
  hist : f.hist = []
  storeQ : f.storeQ = []
  chain : f.chainOpen = false
  seq : f.seq = s.th.fr.seq
  spc : f.spc = s.th.fr.spc
  m : f.m = s.th.fr.m
  zs : f.regs.zs = s.th.fr.regs.zs
  ze : f.regs.ze = s.th.fr.regs.ze
  zc : f.regs.zc = s.th.fr.regs.zc
  cfg : f.regs.smplcfg = s.th.fr.regs.smplcfg
  mark : f.regs.mark = s.th.fr.regs.mark

/-- The entry that a front's own part gives takes its place, and the front goes on. -/
theorem append_of_ownFront (hf : OwnFront s f) (hs : e.slot = .word) (hc : e.w.chain = false) (hq : e.seq = s.th.fr.seq + 1) :
    (s.onFr fun _ => f).append e false e.w.chain (fun x => x.seqNext 8) = lone s f (placed (s.onFr fun _ => f) e false) := by
  obtain ⟨h, z, c, hh, hz, hcnt, happ⟩ := append_word (s.onFr fun _ => f) e false hs
  have hloops : SameLoops s (s.onFr fun _ => f) := ⟨hf.zs, hf.ze, hf.zc⟩
  have hspc : (s.onFr fun _ => f).th.fr.spc = s.th.fr.spc := hf.spc
  have hm : (s.onFr fun _ => f).th.fr.m = s.th.fr.m := hf.m
  have hopen : staysOpen e.op e.w 0 = f.chainOpen := by rw [hf.chain, staysOpen, hc]; rfl
  have hzc : z = (s.arrive (s.th.fr.spc + 8)).1.th.fr.regs.zc := by
    rw [← (hloops.arrive_fst hm _).zc, ← hspc, ← hz]
  rw [happ, hh (unsafeOlder_of_viq_nil hf.viq), hcnt hc, hspc, hloops.arrive hm, hzc, lone, movedOn, hq]
  simp [State.onFr, State.onTh, hf.viq, hopen]

/-- What the front's own part of a word gives: the front, and the scalar, x0 and vl of the entry. -/
structure Own where
  front : Front
  sc : Word
  x0 : Word
  vl : Nat

/-- The entry of a word with what the front's own part gives it. -/
def Own.fill (p : Own) (e : VEntry) : VEntry := { e with sc := p.sc, x0 := p.x0, vl := p.vl }

/-- That entry in its place in the queue. -/
def sentEntry (s : State) (op : Nat) (w : VWord) (p : Own) : VEntry := placed (s.onFr fun _ => p.front) (p.fill (s.newEntry op w .word)) false

/-- The front with the wait of a word that gives a scalar register (05 R127). -/
def awaiting (s : State) (op : Nat) (w : VWord) (f : Front) : Front :=
  { f with wait := if laneToScalar op w then .entry (s.th.fr.seq + 1) else f.wait }

/-- The state in which the word issues. -/
def issuing (s : State) (op : Nat) (w : VWord) (p : Own) : State := lone s (awaiting s op w p.front) (sentEntry s op w p)

/-- The entry once it has issued. -/
def issuedAs (s : State) (op : Nat) (w : VWord) (p : Own) : VEntry := issuedOf (issuing s op w p) (sentEntry s op w p)

variable {front : State → VEntry → State × VEntry} {p : Own}

theorem pending_sentEntry (s : State) (op : Nat) (w : VWord) (p : Own) : (sentEntry s op w p).pending = 0 := by
  by_cases hop : op = 0x69
  · subst hop
    rfl
  · have hx : (sentEntry s op w p).x1 = 0 := if_neg hop
    rw [VEntry.pending, hx]
    split <;> rfl

theorem loneEntry_of_ownFront (h : Sendable s op w) (hf : OwnFront s p.front) : LoneEntry (issuing s op w p) (sentEntry s op w p) where
  slot := rfl
  joined := rfl
  issued := rfl
  complete := rfl
  prog := rfl
  prompt := h.idle.prompt
  viq := rfl
  hist := hf.hist
  storeQ := hf.storeQ
  chain := hf.chain
  cfg := (congrArg (·.getLsbD 0) hf.cfg).trans h.samples.1
  mark := hf.mark.trans h.samples.2
  unheld := pending_sentEntry s op w p

/-- A word that an idle thread sends, with C clear, runs at once (03 R56; 05 R119). -/
theorem sendWith_of_idle (h : Sendable s op w) (hf : OwnFront s p.front)
    (hrun : front s (s.newEntry op w .word) = (s.onFr fun _ => p.front, p.fill (s.newEntry op w .word))) :
    s.sendWith op w front = (State.runClosed 2 (issuing s op w p)).1 := by
  have hi := h.idle
  have hused : s.viqUsed = 0 := by simp [State.viqUsed, hi.viq, hi.stepq]
  have hclose : s.closeChain = s := by simp [State.closeChain, hi.chain]
  have happ : (s.onFr fun _ => p.front).append (p.fill (s.newEntry op w .word)) false w.chain (fun x => x.seqNext 8) =
      lone s p.front (sentEntry s op w p) := append_of_ownFront hf rfl h.alone rfl
  have hwait : (if laneToScalar op w then (lone s p.front (sentEntry s op w p)).onFr fun f => { f with wait := .entry (s.th.fr.seq + 1) }
      else lone s p.front (sentEntry s op w p)) = issuing s op w p := by
    unfold issuing awaiting
    split <;> rfl
  have hprompt : (issuing s op w p).prompt = true := hi.prompt
  rw [State.sendWith, if_neg (by simp [h.sent]), if_neg (by simp [h.atU])]
  unfold State.sendEntry
  simp only [hi.chain, hi.prompt, Bool.false_and, Bool.false_eq_true, if_false, hclose, Bool.true_and, Bool.not_false, if_true,
    State.runClosed_of_nil hi.viq, hused, hrun, happ]
  rw [if_neg (by decide)]
  exact (congrArg State.runAhead hwait).trans (if_pos hprompt)

/-- A word that the lanes complete when an idle thread sends it: it is counted, and the queue is empty again. -/
theorem sendWith_of_completes (h : Sendable s op w) (hop : op ≠ 0x73) (hf : OwnFront s p.front)
    (hrun : front s (s.newEntry op w .word) = (s.onFr fun _ => p.front, p.fill (s.newEntry op w .word)))
    (hc : CompletesTo (issuing s op w p) (sentEntry s op w p) u) (hh : u.th.fr.hist = []) (hq : u.th.fr.storeQ = []) :
    s.sendWith op w front = (u.count 39).onFr fun f => { f with viq := [] } := by
  rw [sendWith_of_idle h hf hrun, runClosed_of_completes (loneEntry_of_ownFront h hf) hop hc hh hq]

/-! ### A word at the lanes -/

/-- Nothing but its own effect stands before a word that is ready (02 R44; 11 R339; 14 R421). -/
theorem laneRun_of_unmarked {hi : Nat} (hstreams : ∀ n, (vecGet q.th.fab.fs n .reset).bound = false) (hbad : q.th.ln.bad = [])
    (hm : e.atM = false) (hok : q.issueOk e = true) : laneRun e 0 hi q = laneOf e 0 hi q := by
  have hat : ∀ r, q.streamAt r = none := fun r => by simp [State.streamAt, hstreams]
  have hin : ∀ rs, q.streamsIn rs = [] := fun rs => by simp [State.streamsIn, hat]
  have hstream : q.streamOk e = true := by simp [State.streamOk, hin]
  have hmarked : q.markedElem e 0 = none := by simp [State.markedElem, hbad]
  rw [laneRun, hok, hstream, hm, laneParts, hmarked]
  simp [lanePlain, hin]

theorem issueOk_issuedAs (h : Ready s op w) (hvl : boundsVl (entry s op w) = false ∨ p.vl = s.th.fr.copy.vl) :
    (issuing s op w p).issueOk (issuedAs s op w p) = true := by
  have hissue := h.issues
  rcases hvl with hb | hvl
  · have hb' : boundsVl (issuedAs s op w p) = false := hb
    rw [State.issueOk, hb] at hissue
    rw [State.issueOk, hb']
    exact hissue
  · have hvl' : (issuedAs s op w p).vl = (entry s op w).vl := hvl
    rw [State.issueOk] at hissue ⊢
    rw [hvl']
    exact hissue

/-- The groups that the word may run when it issues alone. -/
def groupsOf (s : State) (op : Nat) (w : VWord) (p : Own) : Nat := min ((issuing s op w p).laneGroups (issuedAs s op w p)) (2 ^ 32)

/-- A word whose issue checks pass and whose groups the lanes run to the end leaves what they leave. -/
theorem completesTo_of_laneOf {g : Nat} (h : Ready s op w) (hvl : boundsVl (entry s op w) = false ∨ p.vl = s.th.fr.copy.vl)
    (hg : (issuing s op w p).laneGroups (issuedAs s op w p) ≤ g)
    (hrun : laneOf (issuedAs s op w p) 0 (groupsOf s op w p) (issuing s op w p) = { st := u, reached := g, stop := none }) :
    CompletesTo (issuing s op w p) (sentEntry s op w p) u := by
  refine ⟨g, hg, ?_⟩
  rw [← hrun]
  exact laneRun_of_unmarked h.streams h.marks h.atU (issueOk_issuedAs h hvl)

/-! ### A word in which the front has no part -/

/-- Such a word carries its scalars and the front's vl (02 R40). -/
def noPart (s : State) (op : Nat) (w : VWord) : Own :=
  { front := s.th.fr, sc := (s.newEntry op w .word).sc, x0 := (s.newEntry op w .word).x0, vl := s.th.fr.copy.vl }

theorem ownFront_self (hi : Idle s) : OwnFront s s.th.fr := ⟨hi.viq, hi.hist, hi.storeQ, hi.chain, rfl, rfl, rfl, rfl, rfl, rfl, rfl, rfl⟩

theorem issuedAs_noPart (h : Sendable s op w) : issuedAs s op w (noPart s op w) = issuedEntry s op w := by
  have hvcp : (issuing s op w (noPart s op w)).vcp = s.th.fr.spc := queued_vcp h.idle
  rw [issuedAs, issuedOf, hvcp]
  exact congrArg (taken s) (queuedEntry_issued h.atU)

/-- The state in which such a word issues. -/
def sentAt (s : State) (op : Nat) (w : VWord) : State := issuing s op w (noPart s op w)

theorem sentAt_of_quiet (hl : laneToScalar op w = false) : sentAt s op w = queued s op w := by
  rw [queued_eq_lone, sentAt, issuing, awaiting, hl]
  rfl

/-- The groups of such a word. -/
def groupsAt (s : State) (op : Nat) (w : VWord) : Nat := (queued s op w).laneGroups (issuedEntry s op w)

/-- A word in which the front has no part, which the lanes complete. -/
theorem send_of_laneOf {g : Nat} (h : Ready s op w) (hop : op ≠ 0x73) (hg : groupsAt s op w ≤ g)
    (hrun : laneOf (issuedEntry s op w) 0 (min (groupsAt s op w) (2 ^ 32)) (sentAt s op w) = { st := u, reached := g, stop := none })
    (hh : u.th.fr.hist = []) (hq : u.th.fr.storeQ = []) : s.send op w = (u.count 39).onFr fun f => { f with viq := [] } := by
  have hentry := issuedAs_noPart h.toSendable
  have hgroups : (issuing s op w (noPart s op w)).laneGroups (issuedAs s op w (noPart s op w)) = groupsAt s op w := by rw [hentry]; rfl
  refine sendWith_of_completes h.toSendable hop (ownFront_self h.idle) rfl (completesTo_of_laneOf h (.inr rfl) (hgroups ▸ hg) ?_) hh hq
  rw [groupsOf, hgroups, hentry]
  exact hrun

/-- A word that changes the lane registers and no more. -/
theorem send_of_lanes {g : Nat} {ln : Lanes} (h : Ready s op w) (hop : op ≠ 0x73) (hl : laneToScalar op w = false) (hg : groupsAt s op w ≤ g)
    (hrun : laneOf (issuedEntry s op w) 0 (min (groupsAt s op w) (2 ^ 32)) (queued s op w) =
      { st := (queued s op w).onLn fun _ => ln, reached := g, stop := none }) : s.send op w = (ran s).onLn fun _ => ln := by
  have hviq : { frontAfter s with viq := [] } = frontAfter s := by
    have hv : (frontAfter s).viq = [] := h.idle.viq
    rw [← hv]
  rw [← sentAt_of_quiet hl] at hrun
  rw [send_of_laneOf h hop hg hrun (by rw [sentAt_of_quiet hl]; exact h.idle.hist) (by rw [sentAt_of_quiet hl]; exact h.idle.storeQ),
    sentAt_of_quiet hl]
  exact congrArg (fun f => { s with th := { s.th with fr := f, ln := ln, cnt := countAfter s } }) hviq

end Sys2Proof.Claims
end

section

/-! ## An element word that completes

A word whose active elements raise no enabled flag runs all its groups: each active element below vl has its result, the others zero or what
they held (05 R115, R122, R123). -/

namespace Sys2Proof.Claims

open Sys2Proof.Machine

variable {s : State} {op : Nat} {w : VWord} {F : Nat → Elt} {hi : Nat} {v : View} {f : EltForm} {x : VReg} {fl : Flags} {whole : Bool}

/-! ### A run that no element stops -/

/-- A view whose groups hold the elements below vl, in a run that reaches them all. -/
structure AllGroups (v : View) (hi : Nat) : Prop where
  reached : v.groups ≤ hi
  held : v.vl ≤ v.groups * v.per

theorem AllGroups.span (h : AllGroups v hi) : v.span 0 v.groups = (0, v.vl) := by
  rw [View.span, Nat.min_eq_right h.held, Nat.zero_mul, Nat.sub_zero]

theorem reach_of_quiet (h : AllGroups v hi) (hq : ∀ i < v.vl, v.act i = true → (F i).2 &&& v.traps = 0) :
    v.reach F 0 hi = (v.groups, none) := by
  have hnone : firstIx (fun i => decide (v.fl F i &&& v.traps ≠ 0)) 0 v.vl = none := by
    refine firstIx_eq_none fun i hi => ?_
    rw [decide_eq_false_iff_not, not_not, View.fl]
    split
    · next hact => exact hq i hi hact
    · exact BitVec.zero_and
  simp only [View.reach, Nat.min_eq_right h.reached, h.span, hnone]

theorem eltWord_of_quiet (q : State) (e : VEntry) (h : AllGroups v hi) (hq : ∀ i < v.vl, v.act i = true → (F i).2 &&& v.traps = 0) :
    q.eltWord e v F 0 hi =
      { st := (q.setV e.w.vd.toNat (putElems v.b 0 (v.put F) v.vl (vecGet q.th.ln.v e.w.vd.toNat 0)) 64 (v.whole v.groups)).orLaneFlags
          (orFlags (v.fl F) 0 v.vl), reached := v.groups, stop := none } := by
  have hprog : progressOf v.groups v.groups 64 = 64 := if_pos le_rfl
  simp only [State.eltWord, reach_of_quiet h hq, h.span, hprog]

/-! ### What the lanes hold -/

/-- The lane registers with a vector register written and flags raised. -/
def wroteVector (s : State) (w : VWord) (x : VReg) (fl : Flags) : Lanes :=
  { s.th.ln with v := vecSet s.th.ln.v w.vd.toNat x, vprog := vecSet s.th.ln.vprog w.vd.toNat 64, flags := s.th.ln.flags ||| fl }

theorem setV_of_unmarked (hm : s.th.ln.bad = []) (q : State) (hq : q.th.ln = s.th.ln) :
    (q.setV w.vd.toNat x 64 whole).orLaneFlags fl = q.onLn fun _ => wroteVector s w x fl := by
  have hbad : (if whole then s.th.ln.bad.filter fun m => m.1 ≠ w.vd.toNat else s.th.ln.bad) = s.th.ln.bad := by simp [hm]
  simp only [State.setV, State.orLaneFlags, State.onLn, hq, hbad]
  rfl

theorem orLaneFlags_zero (q : State) : q.orLaneFlags 0 = q := by simp [State.orLaneFlags, State.onLn]

/-- The elements that R115 asks for. -/
def Elements (s : State) (f : EltForm) (x : VReg) : Prop :=
  ∀ i, elemAt x f.bits i =
    if i < f.n ∧ f.act i then (f.at_ i).1 % 2 ^ f.bits else if i < f.n ∧ f.zeros then 0
    else elemAt (vecGet s.th.ln.v f.w.vd.toNat 0) f.bits i

theorem lanesOnly_onLn (s : State) (ln : Lanes) : LanesOnly s ((ran s).onLn fun _ => ln) := ⟨rfl, rfl, rfl⟩

/-- A word that has written its destination, and raised the flags of its elements, is what its form says. -/
theorem elementWord_of_run {g : Nat} (h : Ready s op w) (hop : op ≠ 0x73) (hl : laneToScalar op w = false) (hw : f.w = w)
    (hefc : f.efc = s.th.ln.efc) (hg : groupsAt s op w ≤ g)
    (hrun : laneOf (issuedEntry s op w) 0 (min (groupsAt s op w) (2 ^ 32)) (queued s op w) =
      { st := ((queued s op w).setV w.vd.toNat x 64 whole).orLaneFlags f.flags, reached := g, stop := none })
    (hx : Elements s f x) : ElementWord s (s.send op w) f := by
  subst hw
  rw [setV_of_unmarked h.marks (queued s op f.w) rfl] at hrun
  rw [send_of_lanes h hop hl hg hrun]
  refine ⟨lanesOnly_onLn s _, x, ?_, hx⟩
  rw [hefc]
  rfl

/-! ### Words bound by vl -/

theorem sized_of_bounded (h : Sendable s op w) (hb : boundsVl (entry s op w) = true) : Sized s.width (eb s w) s.th.fr.copy.vl := by
  have hwidth : 0 < s.width ∧ s.width ≤ 4 := by
    have hwc : 2 ^ s.th.bind.wc ≤ 2 ^ 2 := Nat.pow_le_pow_right (by decide) h.width
    exact ⟨Nat.pow_pos (by decide), hwc⟩
  have hissue := h.issues
  simp only [State.issueOk, hb, Bool.and_eq_true, Bool.not_true, Bool.false_or, decide_eq_true_eq] at hissue
  obtain ⟨-, hvl⟩ := hissue
  exact ⟨hwidth, bits_dvd _ _ _, (Nat.le_div_iff_mul_le (Nat.pos_of_dvd_of_pos (bits_dvd _ _ _) (by decide))).mp hvl⟩

theorem Sized.vl_bits {wid b vl : Nat} (h : Sized wid b vl) : vl * b ≤ vregBits := by
  obtain ⟨-, hw⟩ := h.clusters
  have hfits := h.fits
  rw [vregBits]
  omega

/-- A word of plain groups: bound by vl, and complete after the groups of its own type (05 R111). -/
structure PlainWord (s : State) (op : Nat) (w : VWord) : Prop where
  bounded : boundsVl (entry s op w) = true
  groups : groupsAt s op w = ceilDiv (s.th.fr.copy.vl * eb s w) (512 * s.width)
  quiet : laneToScalar op w = false
  noStep : op ≠ 0x73

theorem PlainWord.sized (hp : PlainWord s op w) (h : Sendable s op w) : Sized s.width (eb s w) s.th.fr.copy.vl :=
  sized_of_bounded h hp.bounded

theorem PlainWord.groups_le (hp : PlainWord s op w) (h : Sendable s op w) : groupsAt s op w ≤ 2 ^ 32 := by
  rw [hp.groups, Nat.mul_comm 512]
  exact (hp.sized h).groups_le

/-! ### Element words -/

/-- The view of a word, with what its own operation makes of mask, policy and traps. -/
structure FormView (s : State) (w : VWord) (f : EltForm) (v : View) : Prop where
  b : v.b = eb s w
  vl : v.vl = s.th.fr.copy.vl
  per : v.per = perGroup s.width (eb s w)
  groups : v.groups = ceilDiv (s.th.fr.copy.vl * eb s w) (s.width * 512)
  act : ∀ i, v.act i = f.act i
  zeros : ∀ i, f.act i = false → v.mp = f.zeros

/-- The same elements in b bits, with the same flags. -/
def SameElts (b : Nat) (F G : Nat → Elt) : Prop := ∀ i, (F i).1 % 2 ^ b = (G i).1 % 2 ^ b ∧ (F i).2 = (G i).2

/-- Elements F under a view are those of a word's form. -/
structure GivesForm (s : State) (op : Nat) (w : VWord) (f : EltForm) (v : View) (F : Nat → Elt) : Prop where
  word : PlainWord s op w
  dest : f.w = w
  bits : f.bits = eb s w
  n : f.n = s.th.fr.copy.vl
  efc : f.efc = s.th.ln.efc
  view : FormView s w f v
  same : SameElts (eb s w) F f.at_

/-- A word that the lanes run as an element word which gives the elements of its form, none of which traps. -/
structure RunsAs (s : State) (op : Nat) (w : VWord) (f : EltForm) (v : View) (F : Nat → Elt) : Prop extends GivesForm s op w f v F where
  quiet : ∀ i < s.th.fr.copy.vl, f.act i = true → (F i).2 &&& v.traps = 0
  lanes : ∀ hi, laneOf (issuedEntry s op w) 0 hi (queued s op w) = (queued s op w).eltWord (issuedEntry s op w) v F 0 hi

/-- What a run of writes leaves is what R115 asks for. -/
theorem elements_putElems (h : GivesForm s op w f v F) (hz : Sized s.width (eb s w) s.th.fr.copy.vl) :
    Elements s f (putElems (eb s w) 0 (v.put F) s.th.fr.copy.vl (vecGet s.th.ln.v w.vd.toNat 0)) := by
  intro i
  rw [h.bits, h.n, h.dest, elemAt_putElems _ _ _ _ hz.vl_bits, View.put, h.view.act]
  by_cases hi : i < s.th.fr.copy.vl
  · cases hact : f.act i with
    | true => simp [hi, (h.same i).1]
    | false => cases hmp : f.zeros <;> simp [hi, h.view.zeros i hact, hmp]
  · simp [hi]

theorem flags_of_givesForm (h : GivesForm s op w f v F) : orFlags (v.fl F) 0 s.th.fr.copy.vl = f.flags := by
  have hfl : v.fl F = fun i => if f.act i then (f.at_ i).2 else 0 := funext fun i => by rw [View.fl, h.view.act, (h.same i).2]
  rw [hfl, EltForm.flags, h.n]

theorem PlainWord.reached (hp : PlainWord s op w) (h : Sendable s op w) : groupsAt s op w ≤ min (groupsAt s op w) (2 ^ 32) :=
  Nat.le_min.mpr ⟨le_rfl, hp.groups_le h⟩

/-- A word whose run has written the elements of its form. -/
theorem elementWord_of_givesForm (hr : Ready s op w) (h : GivesForm s op w f v F)
    (hrun : ∀ hi, groupsAt s op w ≤ hi → laneOf (issuedEntry s op w) 0 hi (queued s op w) =
      { st := ((queued s op w).setV w.vd.toNat (putElems (eb s w) 0 (v.put F) s.th.fr.copy.vl (vecGet s.th.ln.v w.vd.toNat 0)) 64
          whole).orLaneFlags (orFlags (v.fl F) 0 s.th.fr.copy.vl), reached := groupsAt s op w, stop := none }) :
    ElementWord s (s.send op w) f := by
  have hrun' := hrun _ (h.word.reached hr.toSendable)
  rw [flags_of_givesForm h] at hrun'
  exact elementWord_of_run hr h.word.noStep h.word.quiet h.dest h.efc le_rfl hrun' (elements_putElems h (h.word.sized hr.toSendable))

theorem elementWord_of_runsAs (hr : Ready s op w) (h : RunsAs s op w f v F) : ElementWord s (s.send op w) f := by
  have hgroups : v.groups = groupsAt s op w := by rw [h.word.groups, h.view.groups, Nat.mul_comm 512]
  refine elementWord_of_givesForm (whole := v.whole (groupsAt s op w)) hr h.toGivesForm fun hi hle => ?_
  have hall : AllGroups v hi := by
    refine ⟨hgroups ▸ hle, ?_⟩
    rw [h.view.vl, h.view.groups, h.view.per]
    exact (h.word.sized hr.toSendable).vl_le_groups
  have hrun := (h.lanes hi).trans (eltWord_of_quiet _ _ hall fun i hi hact => h.quiet i (h.view.vl ▸ hi) (h.view.act i ▸ hact))
  rw [h.view.b, h.view.vl, hgroups] at hrun
  exact hrun

end Sys2Proof.Claims

end

section

/-! ## The integer words and the moves

Each is an element word whose element i is the one that its form gives, none of which traps (05 R124, R128; Tables 5.7, 5.10). -/

namespace Sys2Proof.Claims

open Sys2Proof.Machine

variable {s : State} {op : Nat} {w : VWord} {lo hi n : Nat} {q : State}

/-! ### Words of plain groups -/

/-- The majors whose words have the groups of their own type. -/
def plainMajors : List Nat :=
  [0x00, 0x01, 0x02, 0x03, 0x04, 0x05, 0x06, 0x08, 0x20, 0x21, 0x22, 0x23, 0x30, 0x31, 0x32, 0x33, 0x34, 0x35, 0x3B, 0x3C, 0x3D]

theorem plainWord_of_mem (hm : op ∈ plainMajors) : PlainWord s op w := by
  simp only [plainMajors, List.mem_cons, List.not_mem_nil, or_false] at hm
  rcases hm with rfl | rfl | rfl | rfl | rfl | rfl | rfl | rfl | rfl | rfl | rfl | rfl | rfl | rfl | rfl | rfl | rfl | rfl | rfl | rfl | rfl
  all_goals exact ⟨rfl, rfl, rfl, by decide⟩

theorem plainWord_of_move (h : (w.key == n) = true) (hn : n < 2) : PlainWord s 0x09 w where
  bounded := rfl
  groups := if_pos (beq_iff_eq.mp h ▸ hn)
  quiet := by rw [laneToScalar_move h, decide_eq_false_iff_not]; omega
  noStep := by decide

/-! ### Elements as integers -/

theorem elemAt_lt {k : Nat} (x : BitVec k) (b i : Nat) : elemAt x b i < 2 ^ b := Nat.mod_lt _ (Nat.two_pow_pos b)

theorem codeOf_lt {x : Nat} (hx : x < 2 ^ eb s w) : codeOf s w x < 2 ^ eb s w := by
  rw [codeOf]
  split
  · exact (Nat.mod_le _ _).trans_lt hx
  · exact hx

theorem elt_lt (r : RegNo) (i : Nat) : elt s w r i < 2 ^ eb s w := codeOf_lt (elemAt_lt _ _ _)

theorem srcA_lt (i : Nat) : srcA s w i < 2 ^ eb s w := elt_lt _ _

theorem isFp_of_isInt {t : EType} (h : t.isInt = true) : t.isFp = false := by
  simp_all [EType.isInt, EType.isFp]

theorem srcB_lt (hint : w.ety.isFp = false) (i : Nat) : srcB s w i < 2 ^ eb s w := by
  unfold srcB
  split
  · exact elt_lt _ _
  · exact codeOf_lt (Nat.mod_lt _ (Nat.two_pow_pos _))
  · rw [hint]
    have hpos : (0 : Int) < (2 ^ eb s w : Nat) := Int.natCast_pos.mpr (Nat.two_pow_pos _)
    have hlt := Int.emod_lt_of_pos w.fn.toInt hpos
    have hge := Int.emod_nonneg w.fn.toInt hpos.ne'
    simp only [Bool.false_eq_true, if_false]
    omega

/-- An element as the integer that the lanes read (05 R122). -/
theorem eltInt_eq_num {x : Nat} (hx : x < 2 ^ eb s w) : eltInt w.ety (eb s w) x = num s w x := by
  rw [eltInt, num, sext, Nat.mod_eq_of_lt hx]
  by_cases hs : w.ety.isSignedInt = true
  · by_cases hlt : x < 2 ^ (eb s w - 1)
    · simp [hs, hlt]
    · simp [hs, hlt, Nat.not_lt.mp hlt]
  · simp [hs]

/-- The sign-extended element of a shift (05 Table 5.7). -/
theorem sext_of_lt {b x : Nat} (hx : x < 2 ^ b) : sext b x = if 2 ^ (b - 1) ≤ x then (x : Int) - (2 ^ b : Nat) else x := by
  rw [sext, Nat.mod_eq_of_lt hx]
  by_cases hlt : x < 2 ^ (b - 1)
  · simp [hlt]
  · simp [hlt, Nat.not_lt.mp hlt]

theorem opA_num (hp : op ≠ 0x3A) (i : Nat) :
    eltInt w.ety (eb s w) ((queued s op w).opA (issuedEntry s op w) (eb s w) i) = num s w (srcA s w i) := by
  rw [opA_issuedEntry hp, eltInt_eq_num (srcA_lt i)]

theorem opB_num (hp : op ≠ 0x3A) (hs : op ≠ 0x3B) (hint : w.ety.isFp = false) (i : Nat) :
    eltInt w.ety (eb s w) ((queued s op w).opB (issuedEntry s op w) (eb s w) i) = num s w (srcB s w i) := by
  rw [opB_issuedEntry hp hs, eltInt_eq_num (srcB_lt hint i)]

/-! ### The shapes of the words -/

theorem formView_viewAt (s : State) (op : Nat) (w : VWord) (F : Nat → Elt) : FormView s w (plain s op w F) (viewAt s op w) where
  b := rfl
  vl := rfl
  per := rfl
  groups := rfl
  act := act_viewAt
  zeros _ _ := rfl

/-- The view of an integer word, in which no flag traps (05 R124). -/
theorem formView_noTraps (s : State) (op : Nat) (w : VWord) (F : Nat → Elt) :
    FormView s w (plain s op w F) { viewAt s op w with traps := 0 } where
  b := rfl
  vl := rfl
  per := rfl
  groups := rfl
  act := act_viewAt
  zeros _ _ := rfl

/-- A plain element word of the form's own elements, none of which traps. -/
theorem runsAs_plain {F G : Nat → Elt} (hp : PlainWord s op w) (hF : SameElts (eb s w) F G)
    (hq : ∀ i < s.th.fr.copy.vl, active s w i = true → (F i).2 &&& s.th.ln.traps = 0)
    (h : ∀ hi, laneOf (issuedEntry s op w) 0 hi (queued s op w) = elementRun s op w F 0 hi) :
    RunsAs s op w (plain s op w G) (viewAt s op w) F where
  word := hp
  dest := rfl
  bits := rfl
  n := rfl
  efc := rfl
  view := formView_viewAt s op w G
  same := hF
  quiet := hq
  lanes := h

theorem runsAs_intWord {F : Nat → Int → Int → Elt} {G : Int → Int → Elt} (hp : PlainWord s op w) (hint : w.ety.isFp = false)
    (h3A : op ≠ 0x3A) (h3B : op ≠ 0x3B) (hF : ∀ a b, F (eb s w) a b = G a b)
    (h : ∀ hi, laneOf (issuedEntry s op w) 0 hi (queued s op w) = (queued s op w).intWord (issuedEntry s op w) 0 hi F) :
    RunsAs s op w (plain s op w fun i => G (num s w (srcA s w i)) (num s w (srcB s w i))) { viewAt s op w with traps := 0 }
      fun i => G (num s w (srcA s w i)) (num s w (srcB s w i)) where
  word := hp
  dest := rfl
  bits := rfl
  n := rfl
  efc := rfl
  view := formView_noTraps s op w _
  same _ := ⟨rfl, rfl⟩
  quiet _ _ _ := BitVec.and_zero
  lanes hi := by
    refine (h hi).trans (congrArg (fun E => (queued s op w).eltWord (issuedEntry s op w) { viewAt s op w with traps := 0 } E 0 hi)
      (funext fun i => ?_))
    rw [← hF, ← opA_num h3A, ← opB_num h3A h3B hint]
    rfl

theorem runsAs_bitWord {F : Nat → Nat → Nat → Nat} {G : Nat → Nat → Nat} (hp : PlainWord s op w) (hint : w.ety.isFp = false)
    (h3A : op ≠ 0x3A) (h3B : op ≠ 0x3B)
    (hF : ∀ a < 2 ^ eb s w, ∀ b < 2 ^ eb s w, F (eb s w) a b % 2 ^ eb s w = G a b % 2 ^ eb s w)
    (h : ∀ hi, laneOf (issuedEntry s op w) 0 hi (queued s op w) = (queued s op w).bitWord (issuedEntry s op w) 0 hi F) :
    RunsAs s op w (bit2 s op w G) (viewAt s op w) fun i => (F (eb s w) (srcA s w i) (srcB s w i), 0) := by
  refine runsAs_plain hp (fun i => ⟨hF _ (srcA_lt i) _ (srcB_lt hint i), rfl⟩) (fun _ _ _ => BitVec.zero_and) fun hi => ?_
  rw [h hi]
  refine congrArg (fun E => elementRun s op w E 0 hi) (funext fun i => ?_)
  rw [← opA_issuedEntry h3A, ← opB_issuedEntry h3A h3B]
  rfl

/-! ### The operations -/

theorem eb_pos (s : State) (w : VWord) : 0 < eb s w := Nat.pos_of_dvd_of_pos (bits_dvd _ _ _) (by decide)

/-- A value clamped to a type, with SAT where it is clamped (02 R38). -/
theorem satInt_eq_clamp (signed : Bool) (b : Nat) (x : Int) :
    satInt signed b x =
      let hi : Int := if signed then 2 ^ (b - 1) - 1 else 2 ^ b - 1
      let lo : Int := if signed then -(2 ^ (b - 1)) else 0
      ((max lo (min hi x) % (2 ^ b : Nat)).toNat, if x < lo ∨ hi < x then fSAT else 0) := by
  have hhalf : (0 : Int) < 2 ^ (b - 1) := by positivity
  have hfull : (0 : Int) < 2 ^ b := by positivity
  have hclamp : ∀ lo hi : Int, lo ≤ hi → (if x < lo then (wrap b lo, fSAT) else if hi < x then (wrap b hi, fSAT) else (wrap b x, 0)) =
      ((max lo (min hi x) % (2 ^ b : Nat)).toNat, if x < lo ∨ hi < x then fSAT else 0) := fun lo hi hle => by
    by_cases hlo : x < lo
    · rw [if_pos hlo, if_pos (.inl hlo), min_eq_right (hlo.le.trans hle), max_eq_left hlo.le]
      rfl
    · by_cases hhi : hi < x
      · rw [if_neg hlo, if_pos hhi, if_pos (.inr hhi), min_eq_left hhi.le, max_eq_right hle]
        rfl
      · rw [if_neg hlo, if_neg hhi, if_neg (by simp [hlo, hhi]), min_eq_right (Int.not_lt.mp hhi), max_eq_right (Int.not_lt.mp hlo)]
        rfl
  cases signed
  · exact hclamp 0 (2 ^ b - 1) (by omega)
  · exact hclamp (-(2 ^ (b - 1))) (2 ^ (b - 1) - 1) (by omega)

theorem rotate_eq_add {b x k : Nat} (hx : x < 2 ^ b) (hk : k ≤ b) : x >>> k ||| x <<< (b - k) = x / 2 ^ k + x * 2 ^ (b - k) := by
  have hlow : x >>> k < 2 ^ (b - k) := by
    rw [Nat.shiftRight_eq_div_pow]
    refine Nat.div_lt_of_lt_mul ?_
    rwa [← Nat.pow_add, Nat.add_sub_cancel' hk]
  rw [Nat.lor_comm, ← Nat.shiftLeft_add_eq_or_of_lt hlow, Nat.shiftLeft_eq, Nat.shiftRight_eq_div_pow, Nat.add_comm]

theorem isFp_of_okVadd (h : okVadd w = true) : w.ety.isFp = false := by
  simp only [okVadd, Bool.and_eq_true] at h
  exact isFp_of_isInt h.1.1.2

theorem isFp_of_okVmulh (h : okVmulh w = true) : w.ety.isFp = false := by
  simp only [okVmulh, Bool.and_eq_true] at h
  exact isFp_of_isInt h.1.1.2

theorem isFp_of_okVabs (h : okVabs w = true) : w.ety.isFp = false := by
  simp only [okVabs, Bool.and_eq_true, EType.isSignedInt, decide_eq_true_eq] at h
  obtain ⟨⟨⟨-, hsigned⟩, -⟩, -⟩ := h
  simp only [EType.isFp, decide_eq_false_iff_not]
  omega

/-! ### The word of each instruction -/

theorem laneOf_add_sub (h : (w.key == n) = true) : laneOf (issuedEntry s 0x00 w) lo hi q =
    if n == 0 then laneVadd (issuedEntry s 0x00 w) lo hi q else if n == 1 then laneVsub (issuedEntry s 0x00 w) lo hi q
    else laneVrsub (issuedEntry s 0x00 w) lo hi q := by
  rw [← beq_iff_eq.mp h]
  rfl

theorem laneOf_multiply (h : (w.key == n) = true) : laneOf (issuedEntry s 0x01 w) lo hi q =
    if n == 0 then laneVmul (issuedEntry s 0x01 w) lo hi q else if n == 1 then laneVmulh (issuedEntry s 0x01 w) lo hi q
    else laneVmacc (issuedEntry s 0x01 w) lo hi q := by
  rw [← beq_iff_eq.mp h]
  rfl

theorem laneOf_saturating (h : (w.key == n) = true) : laneOf (issuedEntry s 0x02 w) lo hi q =
    if n == 0 then laneVsadd (issuedEntry s 0x02 w) lo hi q else if n == 1 then laneVssub (issuedEntry s 0x02 w) lo hi q
    else laneVsmul (issuedEntry s 0x02 w) lo hi q := by
  rw [← beq_iff_eq.mp h]
  rfl

theorem laneOf_shift (h : (w.key == n) = true) : laneOf (issuedEntry s 0x03 w) lo hi q =
    if n == 0 then laneVsll (issuedEntry s 0x03 w) lo hi q else if n == 1 then laneVsrl (issuedEntry s 0x03 w) lo hi q
    else if n == 2 then laneVsra (issuedEntry s 0x03 w) lo hi q else laneVror (issuedEntry s 0x03 w) lo hi q := by
  rw [← beq_iff_eq.mp h]
  rfl

theorem laneOf_logic (h : (w.key == n) = true) : laneOf (issuedEntry s 0x04 w) lo hi q =
    if n == 0 then laneVand (issuedEntry s 0x04 w) lo hi q else if n == 1 then laneVor (issuedEntry s 0x04 w) lo hi q
    else if n == 2 then laneVxor (issuedEntry s 0x04 w) lo hi q else laneVandn (issuedEntry s 0x04 w) lo hi q := by
  rw [← beq_iff_eq.mp h]
  rfl

theorem laneOf_minMaxAbs (h : (w.key == n) = true) : laneOf (issuedEntry s 0x05 w) lo hi q =
    if n == 0 then laneVmin (issuedEntry s 0x05 w) lo hi q else if n == 1 then laneVmax (issuedEntry s 0x05 w) lo hi q
    else laneVabs (issuedEntry s 0x05 w) lo hi q := by
  rw [← beq_iff_eq.mp h]
  rfl

theorem laneOf_move (h : (w.key == n) = true) : laneOf (issuedEntry s 0x09 w) lo hi q =
    if n == 0 then laneVbcast (issuedEntry s 0x09 w) lo hi q else if n == 1 then laneVmv (issuedEntry s 0x09 w) lo hi q
    else if n == 2 then laneVmvsV (issuedEntry s 0x09 w) lo hi q else laneVmvsX (issuedEntry s 0x09 w) lo hi q := by
  rw [← beq_iff_eq.mp h]
  rfl

/-- A word that the lanes run as the element word of a form leaves what the form says. -/
theorem elementWord_of_intWord {F : Nat → Int → Int → Elt} {G : Int → Int → Elt} (hr : Ready s op w) (hm : op ∈ [0x00, 0x01, 0x02, 0x05])
    (hint : w.ety.isFp = false) (hF : ∀ a b, F (eb s w) a b = G a b)
    (h : ∀ hi, laneOf (issuedEntry s op w) 0 hi (queued s op w) = (queued s op w).intWord (issuedEntry s op w) 0 hi F) :
    ElementWord s (s.send op w) (plain s op w fun i => G (num s w (srcA s w i)) (num s w (srcB s w i))) :=
  elementWord_of_runsAs hr (runsAs_intWord
    (plainWord_of_mem ((by decide : ∀ x ∈ [0x00, 0x01, 0x02, 0x05], x ∈ plainMajors) op hm)) hint
    ((by decide : ∀ x ∈ [0x00, 0x01, 0x02, 0x05], x ≠ 0x3A) op hm) ((by decide : ∀ x ∈ [0x00, 0x01, 0x02, 0x05], x ≠ 0x3B) op hm) hF h)

theorem elementWord_of_int2 (op : Nat) (f : Int → Int → Int) (hr : Ready s op w) (hm : op ∈ [0x00, 0x01, 0x02, 0x05])
    (hint : w.ety.isFp = false) (h : ∀ hi, laneOf (issuedEntry s op w) 0 hi (queued s op w) =
      (queued s op w).intWord (issuedEntry s op w) 0 hi fun b x y => (wrap b (f x y), 0)) : ElementWord s (s.send op w) (int2 s op w f) :=
  elementWord_of_intWord (G := fun a b => ((f a b % (2 ^ eb s w : Nat)).toNat, 0)) hr hm hint (fun _ _ => rfl) h

theorem elementWord_of_sat2 (f : Int → Int → Int) (hr : Ready s 0x02 w) (hint : w.ety.isFp = false)
    (h : ∀ hi, laneOf (issuedEntry s 0x02 w) 0 hi (queued s 0x02 w) =
      (queued s 0x02 w).intWord (issuedEntry s 0x02 w) 0 hi fun b x y => satInt w.ety.isSignedInt b (f x y)) :
    ElementWord s (s.send 0x02 w) (sat2 s 0x02 w f) := by
  have hword := elementWord_of_intWord (G := fun a b => satInt w.ety.isSignedInt (eb s w) (f a b)) hr (by decide) hint (fun _ _ => rfl) h
  simp only [satInt_eq_clamp] at hword
  exact hword

theorem elementWord_of_bitWord (op : Nat) (w : VWord) (F : Nat → Nat → Nat → Nat) (G : Nat → Nat → Nat) (hr : Ready s op w)
    (hm : op ∈ [0x03, 0x04]) (hint : w.ety.isFp = false)
    (hF : ∀ a < 2 ^ eb s w, ∀ b < 2 ^ eb s w, F (eb s w) a b % 2 ^ eb s w = G a b % 2 ^ eb s w)
    (h : ∀ hi, laneOf (issuedEntry s op w) 0 hi (queued s op w) = (queued s op w).bitWord (issuedEntry s op w) 0 hi F) :
    ElementWord s (s.send op w) (bit2 s op w G) :=
  elementWord_of_runsAs hr (runsAs_bitWord (plainWord_of_mem ((by decide : ∀ x ∈ [0x03, 0x04], x ∈ plainMajors) op hm)) hint
    ((by decide : ∀ x ∈ [0x03, 0x04], x ≠ 0x3A) op hm) ((by decide : ∀ x ∈ [0x03, 0x04], x ≠ 0x3B) op hm) hF h)

/-- A word that moves elements: no element raises a flag (05 R128). -/
theorem elementWord_of_moves {F : Nat → Nat} (hr : Ready s op w) (hp : PlainWord s op w)
    (h : ∀ hi, laneOf (issuedEntry s op w) 0 hi (queued s op w) = elementRun s op w (fun i => (F i, 0)) 0 hi) :
    ElementWord s (s.send op w) (plain s op w fun i => (F i, 0)) :=
  elementWord_of_runsAs hr (runsAs_plain hp (fun _ => ⟨rfl, rfl⟩) (fun _ _ _ => BitVec.zero_and) h)

theorem laneVmacc_issuedEntry (hint : w.ety.isFp = false) : laneVmacc (issuedEntry s 0x01 w) lo hi (queued s 0x01 w) =
    elementRun s 0x01 w (fun i => (((num s w (old s w i) + num s w (srcA s w i) * num s w (srcB s w i)) % (2 ^ eb s w : Nat)).toNat, 0))
      lo hi := by
  refine congrArg (fun E => elementRun s 0x01 w E lo hi) (funext fun i => ?_)
  have hold : num s w (old s w i) = eltInt w.ety (eb s w) (old s w i) := (eltInt_eq_num (elt_lt w.vd i)).symm
  rw [← opA_num (op := 0x01) (by decide), ← opB_num (op := 0x01) (by decide) (by decide) hint, hold]
  rfl

theorem laneVabs_issuedEntry : laneVabs (issuedEntry s 0x05 w) lo hi q =
    q.intWord (issuedEntry s 0x05 w) lo hi fun b x _ => (wrap b |x|, 0) := by
  simp only [laneVabs, Int.abs_eq_natAbs]

theorem laneVbcast_issuedEntry : laneVbcast (issuedEntry s 0x09 w) lo hi (queued s 0x09 w) =
    elementRun s 0x09 w (fun i => (srcB s w i, 0)) lo hi :=
  congrArg (fun E => elementRun s 0x09 w E lo hi) (funext fun i => congrArg (·, (0 : Flags)) (opB_issuedEntry (by decide) (by decide) i))

theorem laneVmv_issuedEntry : laneVmv (issuedEntry s 0x09 w) lo hi (queued s 0x09 w) =
    elementRun s 0x09 w (fun i => (srcA s w i, 0)) lo hi :=
  congrArg (fun E => elementRun s 0x09 w E lo hi) (funext fun i => congrArg (·, (0 : Flags)) (opA_issuedEntry (by decide) i))

/-- What vsel gives at element i (05 R128). -/
def selectedElt (s : State) (w : VWord) (i : Nat) : Elt :=
  (if (vecGet s.th.ln.m w.mask.toNat 0).toNat.testBit i then srcA s w i else srcB s w i, 0)

/-- vsel writes every element below vl (05 R128). -/
theorem runsAs_vsel : RunsAs s 0x08 w { plain s 0x08 w (selectedElt s w) with act := fun _ => true }
    { viewAt s 0x08 w with masked := false, mp := false } (selectedElt s w) where
  word := plainWord_of_mem (by decide)
  dest := rfl
  bits := rfl
  n := rfl
  efc := rfl
  view := ⟨rfl, rfl, rfl, rfl, fun _ => rfl, fun _ h => Bool.noConfusion h⟩
  same _ := ⟨rfl, rfl⟩
  quiet _ _ _ := BitVec.zero_and
  lanes hi := by
    refine congrArg (fun E => (queued s 0x08 w).eltWord (issuedEntry s 0x08 w) { viewAt s 0x08 w with masked := false, mp := false } E 0 hi)
      (funext fun i => ?_)
    rw [selectedElt, ← opA_issuedEntry (op := 0x08) (by decide), ← opB_issuedEntry (op := 0x08) (by decide) (by decide)]
    rfl

/-- A form that writes element 0 and no other (05 R128, R130). -/
structure OneElement (s : State) (w : VWord) (f : EltForm) : Prop where
  dest : f.w = w
  bits : f.bits = eb s w
  n : f.n = 1
  act : ∀ i, f.act i = true

theorem elements_setElem_zero {f : EltForm} (h : OneElement s w f) :
    Elements s f (setElem (vecGet s.th.ln.v w.vd.toNat 0) (eb s w) 0 (f.at_ 0).1) := by
  have hbits : (0 + 1) * eb s w ≤ vregBits := by
    have hle := Nat.le_of_dvd (by decide) (bits_dvd s.th.ln (vtFsel s.th.ln.vtype) w.ety)
    rw [eb, vregBits]
    omega
  intro i
  rw [h.bits, h.dest, h.n, h.act, elemAt_setElem _ _ _ hbits]
  by_cases hi : i = 0
  · simp [hi]
  · simp [hi]

theorem flags_of_oneElement {f : EltForm} (h : OneElement s w f) : f.flags = (f.at_ 0).2 := by
  simp [EltForm.flags, h.n, h.act, orFlags]

/-- vmvs.v writes element 0, even where vl is 0 (05 R128). -/
theorem elementWord_vmvsV (hr : Ready s 0x09 w) (hk : (w.key == 2) = true) (hform : w.form = .vs) :
    ElementWord s (s.send 0x09 w)
      { plain s 0x09 w fun _ => (codeOf s w ((s.rd w.vc).toNat % 2 ^ eb s w), 0) with act := fun _ => true, n := 1 } := by
  have hone : OneElement s w { plain s 0x09 w fun _ => (codeOf s w ((s.rd w.vc).toNat % 2 ^ eb s w), 0) with act := fun _ => true, n := 1 } :=
    ⟨rfl, rfl, rfl, fun _ => rfl⟩
  have hgroups : groupsAt s 0x09 w = 1 := by
    have hkey : ¬ w.key < 2 := by rw [beq_iff_eq.mp hk]; decide
    exact if_neg hkey
  have hB : (queued s 0x09 w).opB (issuedEntry s 0x09 w) (eb s w) 0 = codeOf s w ((s.rd w.vc).toNat % 2 ^ eb s w) := by
    rw [opB_issuedEntry (by decide) (by decide), srcB, hform]
  refine elementWord_of_run (whole := false) hr (by decide) ((laneToScalar_move hk).trans rfl) rfl rfl hgroups.le ?_ (elements_setElem_zero hone)
  rw [flags_of_oneElement hone, ← hB]
  exact (laneOf_move hk).trans (congrArg (fun t => ({ st := t, reached := 1, stop := none } : LaneOut)) (orLaneFlags_zero _).symm)

theorem form_vs_of_okVmvsV (h : okVmvsV w = true) : w.form = .vs := by
  simp only [okVmvsV, Bool.and_eq_true] at h
  exact form_vs_of_formIn h.1.1.1.1

/-- An instruction of the VIQ in which the front has no part sends its word. -/
theorem exec_of_viqWord {i : Instr} (hi : viqWord i = some (op, w, 0)) (hw : i.wellFormed = true) (s : State) :
    exec i s = .next (s.send op w) := by
  cases sentAs_of_viqWord hi hw with
  | plain _ hexec => exact hexec s

theorem elementWord_of_integerForm {i : Instr} {f : EltForm} (h : integerForm s i = some f) (hw : i.wellFormed = true)
    (hr : Ready s f.op f.w) : viqWord i = some (f.op, f.w, 0) ∧ ElementWord s (s.send f.op f.w) f := by
  obtain ⟨hn, hc⟩ := (Bool.and_eq_true _ _).mp hw
  cases i
  case vadd =>
    cases h
    exact ⟨rfl, elementWord_of_int2 0x00 (fun a b => a + b) hr (by decide) (isFp_of_okVadd hc) fun _ => laneOf_add_sub hn⟩
  case vsub =>
    cases h
    exact ⟨rfl, elementWord_of_int2 0x00 (fun a b => a - b) hr (by decide) (isFp_of_okVadd hc) fun _ => laneOf_add_sub hn⟩
  case vrsub =>
    cases h
    exact ⟨rfl, elementWord_of_int2 0x00 (fun a b => b - a) hr (by decide) (isFp_of_okVadd hc) fun _ => laneOf_add_sub hn⟩
  case vmul =>
    cases h
    exact ⟨rfl, elementWord_of_int2 0x01 (fun a b => a * b) hr (by decide) (isFp_of_okVadd hc) fun _ => laneOf_multiply hn⟩
  case vmulh w =>
    cases h
    exact ⟨rfl, elementWord_of_intWord (op := 0x01) (F := fun b x y => (wrap b (x * y / (2 ^ b : Nat)), 0))
      (G := fun x y => ((x * y / (2 ^ eb s w : Nat) % (2 ^ eb s w : Nat)).toNat, 0)) hr (by decide) (isFp_of_okVmulh hc)
      (fun _ _ => rfl) fun _ => laneOf_multiply hn⟩
  case vmacc =>
    cases h
    exact ⟨rfl, elementWord_of_moves (op := 0x01) hr (plainWord_of_mem (by decide)) fun _ => (laneOf_multiply hn).trans
      (laneVmacc_issuedEntry (isFp_of_okVmulh hc))⟩
  case vsadd =>
    cases h
    exact ⟨rfl, elementWord_of_sat2 (fun a b => a + b) hr (isFp_of_okVadd hc) fun _ => laneOf_saturating hn⟩
  case vssub =>
    cases h
    exact ⟨rfl, elementWord_of_sat2 (fun a b => a - b) hr (isFp_of_okVadd hc) fun _ => laneOf_saturating hn⟩
  case vsmul =>
    cases h
    exact ⟨rfl, elementWord_of_sat2 (fun a b => a * b) hr (isFp_of_okVadd hc) fun _ => laneOf_saturating hn⟩
  case vsll w =>
    cases h
    exact ⟨rfl, elementWord_of_bitWord 0x03 w (fun b x y => (x <<< (y % b)) % 2 ^ b) (fun a b => a * 2 ^ (b % eb s w))
      hr (by decide) (isFp_of_okVadd hc)
      (fun _ ha _ hb => by rw [Nat.mod_mod, Nat.shiftLeft_eq]) fun _ => laneOf_shift hn⟩
  case vsrl w =>
    cases h
    exact ⟨rfl, elementWord_of_bitWord 0x03 w (fun b x y => x >>> (y % b)) (fun a b => a / 2 ^ (b % eb s w)) hr (by decide) (isFp_of_okVadd hc)
      (fun _ ha _ hb => by rw [Nat.shiftRight_eq_div_pow]) fun _ => laneOf_shift hn⟩
  case vsra w =>
    cases h
    exact ⟨rfl, elementWord_of_bitWord 0x03 w (fun b x y => wrap b (sext b x / (2 ^ (y % b) : Nat)))
      (fun a b => ((if 2 ^ (eb s w - 1) ≤ a then (a : Int) - (2 ^ eb s w : Nat) else a) / (2 ^ (b % eb s w) : Nat) % (2 ^ eb s w : Nat)).toNat)
      hr (by decide) (isFp_of_okVadd hc)
      (fun _ ha _ hb => by rw [sext_of_lt ha]; rfl) fun _ => laneOf_shift hn⟩
  case vror w =>
    cases h
    exact ⟨rfl, elementWord_of_bitWord 0x03 w (fun b x y => (x >>> (y % b) ||| x <<< (b - y % b)) % 2 ^ b)
      (fun a b => a / 2 ^ (b % eb s w) + a * 2 ^ (eb s w - b % eb s w))
      hr (by decide) (isFp_of_okVadd hc)
      (fun _ ha _ hb => by rw [Nat.mod_mod, rotate_eq_add ha (Nat.mod_lt _ (eb_pos s w)).le]) fun _ => laneOf_shift hn⟩
  case vand w =>
    cases h
    exact ⟨rfl, elementWord_of_bitWord 0x04 w (fun _ x y => x &&& y) (fun a b => a &&& b) hr (by decide) (isFp_of_okVadd hc)
      (fun _ ha _ hb => rfl) fun _ => laneOf_logic hn⟩
  case vor w =>
    cases h
    exact ⟨rfl, elementWord_of_bitWord 0x04 w (fun _ x y => x ||| y) (fun a b => a ||| b) hr (by decide) (isFp_of_okVadd hc)
      (fun _ ha _ hb => rfl) fun _ => laneOf_logic hn⟩
  case vxor w =>
    cases h
    exact ⟨rfl, elementWord_of_bitWord 0x04 w (fun _ x y => x ^^^ y) (fun a b => a ^^^ b) hr (by decide) (isFp_of_okVadd hc)
      (fun _ ha _ hb => rfl) fun _ => laneOf_logic hn⟩
  case vandn w =>
    cases h
    exact ⟨rfl, elementWord_of_bitWord 0x04 w (fun b x y => x &&& (2 ^ b - 1 - y % 2 ^ b)) (fun a b => a &&& (2 ^ eb s w - 1 - b))
      hr (by decide) (isFp_of_okVadd hc)
      (fun _ ha _ hb => by rw [Nat.mod_eq_of_lt hb]) fun _ => laneOf_logic hn⟩
  case vmin =>
    cases h
    exact ⟨rfl, elementWord_of_int2 0x05 (fun a b => min a b) hr (by decide) (isFp_of_okVadd hc) fun _ => laneOf_minMaxAbs hn⟩
  case vmax =>
    cases h
    exact ⟨rfl, elementWord_of_int2 0x05 (fun a b => max a b) hr (by decide) (isFp_of_okVadd hc) fun _ => laneOf_minMaxAbs hn⟩
  case vabs =>
    cases h
    exact ⟨rfl, elementWord_of_int2 0x05 (fun a _ => |a|) hr (by decide) (isFp_of_okVabs hc) fun _ =>
      (laneOf_minMaxAbs hn).trans laneVabs_issuedEntry⟩
  case vbcast =>
    cases h
    exact ⟨rfl, elementWord_of_moves hr (plainWord_of_move hn (by decide)) fun _ => (laneOf_move hn).trans laneVbcast_issuedEntry⟩
  case vmv =>
    cases h
    exact ⟨rfl, elementWord_of_moves hr (plainWord_of_move hn (by decide)) fun _ => (laneOf_move hn).trans laneVmv_issuedEntry⟩
  case vsel => cases h; exact ⟨rfl, elementWord_of_runsAs hr runsAs_vsel⟩
  case vmvsV => cases h; exact ⟨rfl, elementWord_vmvsV hr hn (form_vs_of_okVmvsV hc)⟩
  all_goals cases h

/-- Settles O32: each word by the element that its operation gives. -/
theorem integerElements : Obligations.IntegerElements := by
  intro s i f hf hw hr
  obtain ⟨hsent, hword⟩ := elementWord_of_integerForm hf hw hr
  exact ⟨_, exec_of_viqWord hsent hw s, hword⟩

end Sys2Proof.Claims

end

section

/-! ## The floating-point words that no element traps

Each runs all its groups as the element word of its form (05 R129; 06 R159, R162). -/

namespace Sys2Proof.Claims

open Sys2Proof.Machine

variable {s : State} {i : Instr} {f : EltForm}

theorem plainWord_of_floatMajor {op : Nat} {w : VWord} (hm : op ∈ floatMajors) : PlainWord s op w :=
  plainWord_of_mem ((by decide : ∀ x ∈ floatMajors, x ∈ plainMajors) op hm)

theorem runsAs_of_laneForm (h : LaneForm s i f) (hq : f.quiet s) : RunsAs s f.op f.w f (viewAt s f.op f.w) f.at_ := by
  obtain ⟨hform, hmajor, -, hlanes⟩ := h
  have hbits : f.bits = eb s f.w := by rw [hform]; rfl
  have hn : f.n = s.th.fr.copy.vl := by rw [hform]; rfl
  have hact : f.act = active s f.w := by rw [hform]; rfl
  have hzeros : f.zeros = vtMp s.th.ln.vtype := by rw [hform]; rfl
  have hefc : f.efc = s.th.ln.efc := by rw [hform]; rfl
  exact {
    word := plainWord_of_floatMajor hmajor
    dest := rfl
    bits := hbits
    n := hn
    efc := hefc
    view := ⟨rfl, rfl, rfl, rfl, fun k => (act_viewAt k).trans (congrFun hact k).symm, fun _ _ => hzeros.symm⟩
    same := fun _ => ⟨rfl, rfl⟩
    quiet := fun k hk => hq k (hn.symm ▸ hk)
    lanes := hlanes 0 }

/-- Settles O33: no element of the word traps, so it runs all its groups as the element word of its form. -/
theorem floatElements : Obligations.FloatElements := by
  intro s i f hf hw hr hc hq
  have hlane := laneForm_of_floatForm hf hw hc
  exact ⟨_, exec_of_viqWord hlane.sent hw s, elementWord_of_runsAs hr (runsAs_of_laneForm hlane hq)⟩

end Sys2Proof.Claims

end

section

/-! ## Reductions and scans

An ordered fold takes the active elements in order, a tree joins neighbours level by level, and a scan writes the running value
(05 R130, R131; Table 5.12). -/

namespace Sys2Proof.Claims

open Sys2Proof.Machine

variable {s : State} {op : Nat} {w : VWord} {f : RedOp} {lo hi n : Nat} {q : State}

/-! ### The ordered fold -/

theorem folded_succ (n : Nat) : folded s op w f (n + 1) =
    if active s w n then ((s.redOp (entry s op w) f (folded s op w f n).1 (srcA s w n)).1,
      (folded s op w f n).2 ||| (s.redOp (entry s op w) f (folded s op w f n).1 (srcA s w n)).2)
    else folded s op w f n := by
  unfold folded
  rw [List.range_succ, List.filter_append, List.foldl_append]
  cases h : active s w n <;> simp [h]

theorem redOrdered_issuedEntry (hp : op ≠ 0x3A) (hs : op ≠ 0x3B) (n : Nat) :
    (queued s op w).redOrdered (issuedEntry s op w) f (viewAt s op w) n = folded s op w f n := by
  induction n with
  | zero => exact congrArg (·, (0 : Flags)) (opB_issuedEntry hp hs 0)
  | succ n ih =>
    have hA : (queued s op w).opA (issuedEntry s op w) (viewAt s op w).b n = srcA s w n := opA_issuedEntry hp n
    rw [State.redOrdered, ih, act_viewAt, hA, folded_succ]
    rfl

/-! ### The tree -/

/-- Two neighbours of a level, of which either may be missing (05 R130). -/
def joinTwo (g : Nat → Nat → Elt) : Option Elt → Option Elt → Option Elt
  | some x, some y => some ((g x.1 y.1).1, x.2 ||| y.2 ||| (g x.1 y.1).2)
  | some x, none => some x
  | none, y => y

theorem joinPairs_cons_cons (g : Nat → Nat → Elt) (x y : Option Elt) (zs : List (Option Elt)) :
    joinPairs g (x :: y :: zs) = joinTwo g x y :: joinPairs g zs := by
  cases x with
  | none => rfl
  | some x => cases y <;> rfl

theorem joinPairs_map (g : Nat → Nat → Elt) (n : Nat) : ∀ h : Nat → Option Elt,
    joinPairs g ((List.range (2 * n)).map h) = (List.range n).map fun j => joinTwo g (h (2 * j)) (h (2 * j + 1)) := by
  induction n with
  | zero => exact fun _ => rfl
  | succ n ih =>
    intro h
    have hpair : List.range (2 * (n + 1)) = 0 :: 1 :: (List.range (2 * n)).map (· + 2) := by
      rw [Nat.mul_succ, List.range_succ_eq_map, List.range_succ_eq_map]
      simp
    rw [hpair, List.map_cons, List.map_cons, joinPairs_cons_cons, List.map_map, ih, List.range_succ_eq_map, List.map_cons, List.map_map]
    rfl

/-- The tree over the elements from lo on (05 R130). -/
def subtree (s : State) (op : Nat) (w : VWord) (f : RedOp) (k lo : Nat) : Option Elt :=
  (queued s op w).redTree (issuedEntry s op w) f (viewAt s op w) k lo

theorem subtree_zero (hp : op ≠ 0x3A) (i : Nat) :
    subtree s op w f 0 i = if i < s.th.fr.copy.vl ∧ active s w i then some (srcA s w i, 0) else none := by
  have hA : (queued s op w).opA (issuedEntry s op w) (viewAt s op w).b i = srcA s w i := opA_issuedEntry hp i
  have hvl : (viewAt s op w).vl = s.th.fr.copy.vl := rfl
  rw [subtree, State.redTree, act_viewAt, hA, hvl]

theorem subtree_of_beyond (k : Nat) (h : s.th.fr.copy.vl ≤ lo) : subtree s op w f k lo = none := by
  cases k with
  | zero => exact if_neg fun hlt => absurd hlt.1 (Nat.not_lt.mpr h)
  | succ k => exact if_pos h

theorem subtree_succ (k lo : Nat) :
    subtree s op w f (k + 1) lo = joinTwo (s.redOp (entry s op w) f) (subtree s op w f k lo) (subtree s op w f k (lo + 2 ^ k)) := by
  by_cases hlo : s.th.fr.copy.vl ≤ lo
  · rw [subtree_of_beyond _ hlo, subtree_of_beyond _ hlo, subtree_of_beyond _ (hlo.trans (Nat.le_add_right _ _))]
    rfl
  · have hstep : subtree s op w f (k + 1) lo = match subtree s op w f k lo, subtree s op w f k (lo + 2 ^ k) with
      | none, y => y
      | some x, none => some x
      | some x, some y => some ((s.redOp (entry s op w) f x.1 y.1).1, x.2 ||| y.2 ||| (s.redOp (entry s op w) f x.1 y.1).2) := if_neg hlo
    rw [hstep]
    cases subtree s op w f k lo with
    | none => rfl
    | some x => cases subtree s op w f k (lo + 2 ^ k) <;> rfl

/-- k levels above the trees of 2^t elements stand those of 2^(t + k). -/
theorem treeLevels_subtrees (k : Nat) : ∀ t n, treeLevels (s.redOp (entry s op w) f) k
    ((List.range (n * 2 ^ k)).map fun j => subtree s op w f t (j * 2 ^ t)) =
      (List.range n).map fun j => subtree s op w f (t + k) (j * 2 ^ (t + k)) := by
  induction k with
  | zero => intro t n; simp [treeLevels]
  | succ k ih =>
    intro t n
    have hlen : n * 2 ^ (k + 1) = 2 * (n * 2 ^ k) := by ring
    have hlevel : ∀ j, joinTwo (s.redOp (entry s op w) f) (subtree s op w f t (2 * j * 2 ^ t)) (subtree s op w f t ((2 * j + 1) * 2 ^ t)) =
        subtree s op w f (t + 1) (j * 2 ^ (t + 1)) := fun j => by
      have hleft : 2 * j * 2 ^ t = j * 2 ^ (t + 1) := by ring
      have hright : (2 * j + 1) * 2 ^ t = j * 2 ^ (t + 1) + 2 ^ t := by ring
      rw [hleft, hright, subtree_succ]
    rw [treeLevels, hlen, joinPairs_map]
    simp only [hlevel]
    rw [ih, Nat.add_right_comm, Nat.add_assoc]

/-- A register holds a power of two of elements (01 R19). -/
theorem vlmax_eq_two_pow (h : s.th.bind.wc ≤ 2) : ∃ k, vlmax s.width (eb s w) = 2 ^ k := by
  have hdvd : eb s w ∣ 2 ^ 9 := bits_dvd _ _ _
  obtain ⟨j, hj, hb⟩ := (Nat.dvd_prime_pow Nat.prime_two).mp hdvd
  have hwidth : s.width = 2 ^ s.th.bind.wc := rfl
  refine ⟨s.th.bind.wc + 15 - j, ?_⟩
  rw [vlmax, hwidth, hb, show 32768 = 2 ^ 15 from rfl, ← Nat.pow_add, Nat.pow_div (by omega) (by decide)]

theorem treed_eq (hp : op ≠ 0x3A) (h : s.th.bind.wc ≤ 2) : treed s op w f =
    match subtree s op w f (Nat.log2 (vlmax s.width (eb s w))) 0 with
    | none => (srcB s w 0, 0)
    | some x => ((s.redOp (entry s op w) f (srcB s w 0) x.1).1, x.2 ||| (s.redOp (entry s op w) f (srcB s w 0) x.1).2) := by
  obtain ⟨k, hk⟩ := vlmax_eq_two_pow (w := w) h
  have hlevels := treeLevels_subtrees (s := s) (op := op) (w := w) (f := f) k 0 1
  simp only [subtree_zero hp, Nat.one_mul, Nat.pow_zero, Nat.mul_one, Nat.zero_add, List.range_one, List.map_cons, List.map_nil,
    Nat.zero_mul] at hlevels
  rw [treed, hk, Nat.log2_two_pow]
  simp only [hlevels]
  cases subtree s op w f k 0 <;> rfl

/-! ### The reductions -/

/-- The groups of a word that has its own type's. -/
theorem view_groups (hp : PlainWord s op w) : (viewAt s op w).groups = groupsAt s op w := by
  rw [hp.groups, Nat.mul_comm 512]
  rfl

/-- A reduction that raises no enabled flag writes element 0 (05 R130). -/
theorem redWrite_of_quiet {r : Elt} (hp : PlainWord s op w) (hle : groupsAt s op w ≤ hi) (hq : r.2 &&& s.th.ln.traps = 0) :
    (queued s op w).redWrite (issuedEntry s op w) (viewAt s op w) hi r =
      { st := ((queued s op w).setV w.vd.toNat (setElem (vecGet s.th.ln.v w.vd.toNat 0) (eb s w) 0 r.1) 64 false).orLaneFlags r.2,
        reached := groupsAt s op w, stop := none } := by
  have hgroups := view_groups hp
  have htraps : r.2 &&& (viewAt s op w).traps = 0 := hq
  rw [State.redWrite, if_neg (by omega), if_neg (by simp [htraps]), hgroups]
  rfl

theorem elementWord_of_redWrite {r : Elt} (hr : Ready s op w) (hp : PlainWord s op w) (hq : (reduced s op w r).quiet s)
    (h : ∀ hi, laneOf (issuedEntry s op w) 0 hi (queued s op w) =
      (queued s op w).redWrite (issuedEntry s op w) (viewAt s op w) hi r) : ElementWord s (s.send op w) (reduced s op w r) := by
  have hone : OneElement s w (reduced s op w r) := ⟨rfl, rfl, rfl, fun _ => rfl⟩
  have hrun := (h _).trans (redWrite_of_quiet hp (hp.reached hr.toSendable) (hq 0 Nat.one_pos rfl))
  have hflags : (reduced s op w r).flags = r.2 := flags_of_oneElement hone
  rw [← hflags] at hrun
  exact elementWord_of_run hr hp.noStep hp.quiet rfl rfl le_rfl hrun (elements_setElem_zero hone)

theorem elementWord_of_redo (hr : Ready s 0x30 w) (hq : (reduced s 0x30 w (folded s 0x30 w f s.th.fr.copy.vl)).quiet s)
    (h : ∀ hi, laneOf (issuedEntry s 0x30 w) 0 hi (queued s 0x30 w) = (queued s 0x30 w).redo (issuedEntry s 0x30 w) f hi) :
    ElementWord s (s.send 0x30 w) (reduced s 0x30 w (folded s 0x30 w f s.th.fr.copy.vl)) := by
  refine elementWord_of_redWrite hr (plainWord_of_mem (by decide)) hq fun hi => ?_
  rw [h, ← redOrdered_issuedEntry (by decide) (by decide)]
  rfl

theorem elementWord_of_redt (hr : Ready s 0x31 w) (hq : (reduced s 0x31 w (treed s 0x31 w f)).quiet s)
    (h : ∀ hi, laneOf (issuedEntry s 0x31 w) 0 hi (queued s 0x31 w) = (queued s 0x31 w).redt (issuedEntry s 0x31 w) f hi) :
    ElementWord s (s.send 0x31 w) (reduced s 0x31 w (treed s 0x31 w f)) := by
  refine elementWord_of_redWrite hr (plainWord_of_mem (by decide)) hq fun hi => ?_
  rw [h, treed_eq (by decide) hr.width, ← opB_issuedEntry (op := 0x31) (by decide) (by decide)]
  rfl

/-! ### The scans -/

/-- What a scan gives at element i (05 R131). -/
def scanElt (s : State) (w : VWord) (f : RedOp) (excl : Bool) (i : Nat) : Elt :=
  ((folded s 0x32 w f (if excl then i else i + 1)).1, (s.redOp (entry s 0x32 w) f (folded s 0x32 w f i).1 (srcA s w i)).2)

theorem givesForm_scan (s : State) (w : VWord) (f : RedOp) (excl : Bool) :
    GivesForm s 0x32 w (scanned s w f excl) (viewAt s 0x32 w) (scanElt s w f excl) where
  word := plainWord_of_mem (by decide)
  dest := rfl
  bits := rfl
  n := rfl
  efc := rfl
  view := formView_viewAt s 0x32 w _
  same _ := ⟨rfl, rfl⟩

/-- A scan over n elements that raise no enabled flag: the running value, the elements written, and the flags (05 R131). -/
theorem scanTo_of_quiet {excl : Bool} (n : Nat)
    (hq : ∀ i < n, active s w i = true → (scanElt s w f excl i).2 &&& s.th.ln.traps = 0) :
    (queued s 0x32 w).scanTo (issuedEntry s 0x32 w) f excl (viewAt s 0x32 w) n =
      { c := (folded s 0x32 w f n).1,
        d := putElems (eb s w) 0 ((viewAt s 0x32 w).put (scanElt s w f excl)) n (vecGet s.th.ln.v w.vd.toNat 0),
        fl := orFlags ((viewAt s 0x32 w).fl (scanElt s w f excl)) 0 n, stop := none } := by
  induction n with
  | zero =>
    have hinit : (queued s 0x32 w).redInit (issuedEntry s 0x32 w) = (folded s 0x32 w f 0).1 := opB_issuedEntry (by decide) (by decide) 0
    rw [State.scanTo, hinit]
    rfl
  | succ n ih =>
    have hA : (queued s 0x32 w).opA (issuedEntry s 0x32 w) (eb s w) n = srcA s w n := opA_issuedEntry (by decide) n
    have hop : ∀ x y, (queued s 0x32 w).redOp (issuedEntry s 0x32 w) f x y = s.redOp (entry s 0x32 w) f x y := fun _ _ => rfl
    have htraps : (viewAt s 0x32 w).traps = s.th.ln.traps := rfl
    have hbits : (viewAt s 0x32 w).b = eb s w := rfl
    rw [State.scanTo, ih fun i hi => hq i (Nat.lt_succ_of_lt hi)]
    simp only [Option.isSome_none, Bool.false_eq_true, if_false, act_viewAt, hA, hop, htraps, hbits, putElems, orFlags, Nat.zero_add,
      put_viewAt, fl_viewAt]
    cases hact : active s w n with
    | true =>
      have hquiet := hq n (Nat.lt_succ_self n) hact
      simp only [scanElt] at hquiet
      cases excl <;> simp [hquiet, scanElt, folded_succ, hact]
    | false =>
      have hmp : (viewAt s 0x32 w).mp = vtMp s.th.ln.vtype := rfl
      rw [hmp, folded_succ, hact]
      cases vtMp s.th.ln.vtype <;> simp

theorem elementWord_of_scan {excl : Bool} (hr : Ready s 0x32 w) (hq : (scanned s w f excl).quiet s)
    (h : ∀ hi, laneOf (issuedEntry s 0x32 w) 0 hi (queued s 0x32 w) = (queued s 0x32 w).scan (issuedEntry s 0x32 w) f excl hi) :
    ElementWord s (s.send 0x32 w) (scanned s w f excl) := by
  have hform := givesForm_scan s w f excl
  have hgroups := view_groups hform.word
  have hscan := scanTo_of_quiet (s := s) (w := w) (f := f) (excl := excl) s.th.fr.copy.vl hq
  refine elementWord_of_givesForm (whole := (viewAt s 0x32 w).whole (groupsAt s 0x32 w)) hr hform fun hi hle => ?_
  have hrun : (queued s 0x32 w).scan (issuedEntry s 0x32 w) f excl hi =
      if hi < (viewAt s 0x32 w).groups then xpHold (queued s 0x32 w)
      else
        let a := (queued s 0x32 w).scanTo (issuedEntry s 0x32 w) f excl (viewAt s 0x32 w) s.th.fr.copy.vl
        match a.stop with
        | some (i, fl) => { st := queued s 0x32 w, reached := 0,
                            stop := some { cause := .arithmetic, index := word i, group := i / (viewAt s 0x32 w).per, flags := fl } }
        | none => { st := ((queued s 0x32 w).setV w.vd.toNat a.d 64 ((viewAt s 0x32 w).whole (viewAt s 0x32 w).groups)).orLaneFlags a.fl,
                    reached := (viewAt s 0x32 w).groups, stop := none } := rfl
  rw [h, hrun, if_neg (by omega), hscan, hgroups]

/-! ### The word of each instruction -/

theorem laneOf_ordered (h : (w.key == n) = true) : laneOf (issuedEntry s 0x30 w) lo hi q =
    if n == 0 then laneVredoAdd (issuedEntry s 0x30 w) lo hi q else if n == 1 then laneVredoMin (issuedEntry s 0x30 w) lo hi q
    else laneVredoMax (issuedEntry s 0x30 w) lo hi q := by
  rw [← beq_iff_eq.mp h]
  rfl

theorem laneOf_tree (h : (w.key == n) = true) : laneOf (issuedEntry s 0x31 w) lo hi q =
    if n == 0 then laneVredtAdd (issuedEntry s 0x31 w) lo hi q else if n == 1 then laneVredtMin (issuedEntry s 0x31 w) lo hi q
    else if n == 2 then laneVredtMax (issuedEntry s 0x31 w) lo hi q else if n == 3 then laneVredtAnd (issuedEntry s 0x31 w) lo hi q
    else if n == 4 then laneVredtOr (issuedEntry s 0x31 w) lo hi q else laneVredtXor (issuedEntry s 0x31 w) lo hi q := by
  rw [← beq_iff_eq.mp h]
  rfl

theorem laneOf_scan (h : (w.key == n) = true) : laneOf (issuedEntry s 0x32 w) lo hi q =
    if n == 0 then laneVscanInAdd (issuedEntry s 0x32 w) lo hi q else if n == 1 then laneVscanInMin (issuedEntry s 0x32 w) lo hi q
    else if n == 2 then laneVscanInMax (issuedEntry s 0x32 w) lo hi q else if n == 8 then laneVscanExAdd (issuedEntry s 0x32 w) lo hi q
    else if n == 9 then laneVscanExMin (issuedEntry s 0x32 w) lo hi q else laneVscanExMax (issuedEntry s 0x32 w) lo hi q := by
  rw [← beq_iff_eq.mp h]
  rfl

theorem elementWord_of_foldForm {i : Instr} {r : EltForm} (h : foldForm s i = some r) (hw : i.wellFormed = true) (hr : Ready s r.op r.w)
    (hq : r.quiet s) : viqWord i = some (r.op, r.w, 0) ∧ ElementWord s (s.send r.op r.w) r := by
  obtain ⟨hn, -⟩ := (Bool.and_eq_true _ _).mp hw
  cases i
  case vredoAdd => cases h; exact ⟨rfl, elementWord_of_redo hr hq fun _ => laneOf_ordered hn⟩
  case vredoMin => cases h; exact ⟨rfl, elementWord_of_redo hr hq fun _ => laneOf_ordered hn⟩
  case vredoMax => cases h; exact ⟨rfl, elementWord_of_redo hr hq fun _ => laneOf_ordered hn⟩
  case vredtAdd => cases h; exact ⟨rfl, elementWord_of_redt hr hq fun _ => laneOf_tree hn⟩
  case vredtMin => cases h; exact ⟨rfl, elementWord_of_redt hr hq fun _ => laneOf_tree hn⟩
  case vredtMax => cases h; exact ⟨rfl, elementWord_of_redt hr hq fun _ => laneOf_tree hn⟩
  case vredtAnd => cases h; exact ⟨rfl, elementWord_of_redt hr hq fun _ => laneOf_tree hn⟩
  case vredtOr => cases h; exact ⟨rfl, elementWord_of_redt hr hq fun _ => laneOf_tree hn⟩
  case vredtXor => cases h; exact ⟨rfl, elementWord_of_redt hr hq fun _ => laneOf_tree hn⟩
  case vscanInAdd => cases h; exact ⟨rfl, elementWord_of_scan hr hq fun _ => laneOf_scan hn⟩
  case vscanInMin => cases h; exact ⟨rfl, elementWord_of_scan hr hq fun _ => laneOf_scan hn⟩
  case vscanInMax => cases h; exact ⟨rfl, elementWord_of_scan hr hq fun _ => laneOf_scan hn⟩
  case vscanExAdd => cases h; exact ⟨rfl, elementWord_of_scan hr hq fun _ => laneOf_scan hn⟩
  case vscanExMin => cases h; exact ⟨rfl, elementWord_of_scan hr hq fun _ => laneOf_scan hn⟩
  case vscanExMax => cases h; exact ⟨rfl, elementWord_of_scan hr hq fun _ => laneOf_scan hn⟩
  all_goals cases h

end Sys2Proof.Claims

end

section

/-! ## Slides, pick, compress and expand

A permute takes element i from another place, and no element of it traps (05 R132 to R134). -/

namespace Sys2Proof.Claims

open Sys2Proof.Machine

variable {s : State} {op : Nat} {w : VWord} {lo hi n : Nat} {q : State} {G : Nat → Nat} {x : VReg}

/-! ### Words that raise no flag -/

theorem orFlags_eq_zero {F : Nat → Flags} (h : ∀ i, F i = 0) (n : Nat) : orFlags F 0 n = 0 := by
  induction n with
  | zero => rfl
  | succ n ih => rw [orFlags, ih, h, BitVec.or_self]

/-- A form whose elements raise no flag. -/
def Flagless (f : EltForm) : Prop := ∀ i, (f.at_ i).2 = 0

theorem flags_of_flagless {f : EltForm} (h : Flagless f) : f.flags = 0 := orFlags_eq_zero (fun i => by simp [h i]) f.n

/-- A word that writes the elements of its form once all its groups may issue (05 R121). -/
theorem elementWord_of_setV {f : EltForm} {whole : Bool} (hr : Ready s op w) (hp : PlainWord s op w) (hw : f.w = w)
    (hefc : f.efc = s.th.ln.efc) (hno : Flagless f) (hx : Elements s f x)
    (h : ∀ hi, groupsAt s op w ≤ hi → laneOf (issuedEntry s op w) 0 hi (queued s op w) =
      { st := (queued s op w).setV w.vd.toNat x 64 whole, reached := groupsAt s op w, stop := none }) : ElementWord s (s.send op w) f := by
  have hrun := h _ (hp.reached hr.toSendable)
  have hflags : (queued s op w).setV w.vd.toNat x 64 whole = ((queued s op w).setV w.vd.toNat x 64 whole).orLaneFlags f.flags := by
    rw [flags_of_flagless hno, orLaneFlags_zero]
  rw [hflags] at hrun
  exact elementWord_of_run hr hp.noStep hp.quiet hw hefc le_rfl hrun hx

/-! ### Slides and pick -/

/-- Where each active element receives what its form says, none leaving it as it stands, the register holds the form's elements. -/
theorem elements_permuted {P : Nat → Option Nat} (hz : Sized s.width (eb s w) s.th.fr.copy.vl)
    (hP : ∀ i, ((P i).map (· % 2 ^ eb s w)).getD (elemAt (vecGet s.th.ln.v w.vd.toNat 0) (eb s w) i) = G i % 2 ^ eb s w) :
    Elements s (plain s op w fun i => (G i, 0)) (putElems (eb s w) 0
      (fun i => if active s w i then P i else if vtMp s.th.ln.vtype then some 0 else none) s.th.fr.copy.vl (vecGet s.th.ln.v w.vd.toNat 0)) := by
  intro i
  have hbits : (plain s op w fun i => (G i, 0)).bits = eb s w := rfl
  rw [hbits, elemAt_putElems _ _ _ _ hz.vl_bits]
  by_cases hi : i < s.th.fr.copy.vl
  · cases hact : active s w i with
    | true => simpa [plain, hi, hact] using hP i
    | false => cases hmp : vtMp s.th.ln.vtype <;> simp [plain, hi, hact, hmp]
  · simp [plain, hi]

theorem elementWord_of_permWord (F : View → Nat → Option Nat) (hr : Ready s op w) (hp : PlainWord s op w)
    (hF : ∀ i, ((F (viewAt s op w) i).map (· % 2 ^ eb s w)).getD (elemAt (vecGet s.th.ln.v w.vd.toNat 0) (eb s w) i) = G i % 2 ^ eb s w)
    (h : ∀ hi, laneOf (issuedEntry s op w) 0 hi (queued s op w) = (queued s op w).permWord (issuedEntry s op w) hi F) :
    ElementWord s (s.send op w) (plain s op w fun i => (G i, 0)) := by
  have hgroups := view_groups hp
  refine elementWord_of_setV (whole := (viewAt s op w).whole (groupsAt s op w) && (F (viewAt s op w) 0).isSome) hr hp rfl rfl (fun _ => rfl)
    (elements_permuted (hp.sized hr.toSendable) hF) fun hi hle => ?_
  have hview : (queued s op w).view (issuedEntry s op w) = viewAt s op w := rfl
  rw [h, State.permWord, hview, if_neg (by omega), hgroups]
  simp only [act_viewAt]
  rfl

theorem slideBy_issuedEntry : slideBy (issuedEntry s op w) = distance s w := rfl

theorem pickA_issuedEntry (hp : op ≠ 0x3A) (i : Nat) : (queued s op w).pickA (issuedEntry s op w) (viewAt s op w) i = fromA s w i := by
  rw [fromA, ← opA_issuedEntry hp]
  rfl

theorem getD_map_mod (b x y : Nat) : ((some x).map (· % 2 ^ b)).getD y = x % 2 ^ b := rfl

/-- Elements that no operand gives stay as they are (05 R132). -/
theorem getD_map_mod_ite (b y : Nat) (hy : y < 2 ^ b) (c : Prop) [Decidable c] (x : Nat) :
    (((if c then some x else none).map (· % 2 ^ b)).getD y) = (if c then x else y) % 2 ^ b := by
  split
  · rfl
  · exact (Nat.mod_eq_of_lt hy).symm

theorem laneOf_slide (h : (w.key == n) = true) : laneOf (issuedEntry s 0x33 w) lo hi q =
    if n == 0 then laneVslipUp (issuedEntry s 0x33 w) lo hi q else if n == 1 then laneVslipDn (issuedEntry s 0x33 w) lo hi q
    else if n == 2 then laneVslipUpin (issuedEntry s 0x33 w) lo hi q else laneVslipDnin (issuedEntry s 0x33 w) lo hi q := by
  rw [← beq_iff_eq.mp h]
  rfl

theorem laneOf_pack (h : (w.key == n) = true) : laneOf (issuedEntry s 0x35 w) lo hi q =
    if n == 0 then laneVcompress (issuedEntry s 0x35 w) lo hi q else laneVexpand (issuedEntry s 0x35 w) lo hi q := by
  rw [← beq_iff_eq.mp h]
  rfl

/-- Element i of A as a permute reads it. -/
theorem opA_viewAt (hp : op ≠ 0x3A) (i : Nat) : (queued s op w).opA (issuedEntry s op w) (viewAt s op w).b i = srcA s w i := opA_issuedEntry hp i

theorem opB_viewAt (hp : op ≠ 0x3A) (hs : op ≠ 0x3B) (i : Nat) :
    (queued s op w).opB (issuedEntry s op w) (viewAt s op w).b i = srcB s w i := opB_issuedEntry hp hs i

theorem elementWord_vslipUp (hr : Ready s 0x33 w) (hk : (w.key == 0) = true) : ElementWord s (s.send 0x33 w) (plain s 0x33 w fun i =>
    (if distance s w ≤ i then srcA s w (i - distance s w) else elemAt (vecGet s.th.ln.v w.vd.toNat 0) (eb s w) i, 0)) := by
  refine elementWord_of_permWord (fun v i => if slideBy (issuedEntry s 0x33 w) ≤ i then
      some ((queued s 0x33 w).opA (issuedEntry s 0x33 w) v.b (i - slideBy (issuedEntry s 0x33 w))) else none)
    hr (plainWord_of_mem (by decide)) (fun i => ?_) fun _ => laneOf_slide hk
  rw [slideBy_issuedEntry, opA_viewAt (by decide)]
  exact getD_map_mod_ite _ _ (elemAt_lt _ _ _) _ _

theorem elementWord_vslipDn (hr : Ready s 0x33 w) (hk : (w.key == 1) = true) :
    ElementWord s (s.send 0x33 w) (plain s 0x33 w fun i => (fromA s w (i + distance s w), 0)) := by
  refine elementWord_of_permWord (fun v i =>
      some ((queued s 0x33 w).pickA (issuedEntry s 0x33 w) v (i + slideBy (issuedEntry s 0x33 w))))
    hr (plainWord_of_mem (by decide)) (fun i => ?_) fun _ => laneOf_slide hk
  rw [slideBy_issuedEntry, pickA_issuedEntry (by decide)]
  rfl

theorem elementWord_vslipUpin (hr : Ready s 0x33 w) (hk : (w.key == 2) = true) :
    ElementWord s (s.send 0x33 w) (plain s 0x33 w fun i => (if i = 0 then srcB s w 0 else srcA s w (i - 1), 0)) := by
  refine elementWord_of_permWord (fun v i => some (if i = 0 then (queued s 0x33 w).opB (issuedEntry s 0x33 w) v.b 0
      else (queued s 0x33 w).opA (issuedEntry s 0x33 w) v.b (i - 1)))
    hr (plainWord_of_mem (by decide)) (fun i => ?_) fun _ => laneOf_slide hk
  rw [opA_viewAt (by decide), opB_viewAt (by decide) (by decide)]
  rfl

theorem elementWord_vslipDnin (hr : Ready s 0x33 w) (hk : (w.key == 3) = true) :
    ElementWord s (s.send 0x33 w) (plain s 0x33 w fun i => (if i + 1 = s.th.fr.copy.vl then srcB s w 0 else srcA s w (i + 1), 0)) := by
  refine elementWord_of_permWord (fun v i => some (if i + 1 = v.vl then (queued s 0x33 w).opB (issuedEntry s 0x33 w) v.b 0
      else (queued s 0x33 w).opA (issuedEntry s 0x33 w) v.b (i + 1)))
    hr (plainWord_of_mem (by decide)) (fun i => ?_) fun _ => laneOf_slide hk
  rw [opA_viewAt (by decide), opB_viewAt (by decide) (by decide)]
  rfl

/-- What vpick gives element i (05 R133). -/
def pickFrom (s : State) (w : VWord) (v : View) (i : Nat) : Option Nat :=
  some ((queued s 0x34 w).pickA (issuedEntry s 0x34 w) v (match (issuedEntry s 0x34 w).w.form with
    | .vv => elemAt (vecGet (queued s 0x34 w).th.ln.v (issuedEntry s 0x34 w).w.vb.toNat 0) v.b i
    | _ => slideBy (issuedEntry s 0x34 w)))

theorem elementWord_vpick (hr : Ready s 0x34 w) : ElementWord s (s.send 0x34 w) (plain s 0x34 w fun i =>
    (fromA s w (if w.form = .vv then elemAt (vecGet s.th.ln.v w.vb.toNat 0) (eb s w) i else distance s w), 0)) := by
  refine elementWord_of_permWord (pickFrom s w) hr (plainWord_of_mem (by decide)) (fun i => ?_) fun _ => rfl
  rw [pickFrom, pickA_issuedEntry (by decide), slideBy_issuedEntry]
  have hindex : (match (issuedEntry s 0x34 w).w.form with
      | .vv => elemAt (vecGet (queued s 0x34 w).th.ln.v (issuedEntry s 0x34 w).w.vb.toNat 0) (viewAt s 0x34 w).b i
      | _ => distance s w) = if w.form = .vv then elemAt (vecGet s.th.ln.v w.vb.toNat 0) (eb s w) i else distance s w := by
    have hform : (issuedEntry s 0x34 w).w.form = w.form := rfl
    rw [hform]
    cases w.form <;> rfl
  rw [hindex]
  rfl

/-! ### Compress and expand -/

/-- The active elements below n. -/
def activesTo (s : State) (w : VWord) (n : Nat) : List Nat := (List.range n).filter (active s w)

theorem activesTo_succ (n : Nat) : activesTo s w (n + 1) = if active s w n then activesTo s w n ++ [n] else activesTo s w n := by
  unfold activesTo
  rw [List.range_succ, List.filter_append]
  cases h : active s w n <;> simp [h]

theorem length_activesTo_le (n : Nat) : (activesTo s w n).length ≤ n := (List.length_filter_le _ _).trans (List.length_range).le

/-- vcompress over n elements: the next place, and the active ones in front (05 R134). -/
theorem compressTo_spec (hz : n * eb s w ≤ vregBits) :
    ((queued s 0x35 w).compressTo (issuedEntry s 0x35 w) (viewAt s 0x35 w) n).1 = (activesTo s w n).length ∧
      ∀ j, elemAt ((queued s 0x35 w).compressTo (issuedEntry s 0x35 w) (viewAt s 0x35 w) n).2 (eb s w) j =
        if j < (activesTo s w n).length then srcA s w ((activesTo s w n).getD j 0) % 2 ^ eb s w
        else elemAt (vecGet s.th.ln.v w.vd.toNat 0) (eb s w) j := by
  induction n with
  | zero => exact ⟨rfl, fun _ => rfl⟩
  | succ n ih =>
    obtain ⟨hcount, helems⟩ := ih ((Nat.mul_le_mul_right _ n.le_succ).trans hz)
    have hA : (queued s 0x35 w).opA (issuedEntry s 0x35 w) (viewAt s 0x35 w).b n = srcA s w n := opA_issuedEntry (by decide) n
    have hb : (viewAt s 0x35 w).b = eb s w := rfl
    rw [State.compressTo, act_viewAt, hA, hb, activesTo_succ, hcount]
    cases active s w n with
    | false => simpa using ⟨hcount, helems⟩
    | true =>
      have hfit : ((activesTo s w n).length + 1) * eb s w ≤ vregBits :=
        (Nat.mul_le_mul_right _ (Nat.succ_le_succ (length_activesTo_le n))).trans hz
      refine ⟨by simp, fun j => ?_⟩
      simp only [if_true, elemAt_setElem _ _ _ hfit, helems, List.length_append, List.length_singleton]
      rcases Nat.lt_trichotomy j (activesTo s w n).length with hj | hj | hj
      · simp [hj, hj.ne, Nat.lt_succ_of_lt hj]
      · simp [hj]
      · simp [hj.ne', Nat.not_lt.mpr hj.le, Nat.not_lt.mpr (Nat.succ_le_of_lt hj)]

/-- vexpand over n elements: the next source, and the elements written (05 R134). -/
theorem expandTo_eq (n : Nat) : (queued s 0x35 w).expandTo (issuedEntry s 0x35 w) (viewAt s 0x35 w) n =
    ((activesTo s w n).length, putElems (eb s w) 0
      (fun i => if active s w i then some (srcA s w (activesTo s w i).length) else if vtMp s.th.ln.vtype then some 0 else none) n
      (vecGet s.th.ln.v w.vd.toNat 0)) := by
  induction n with
  | zero => rfl
  | succ n ih =>
    have hA : ∀ k, (queued s 0x35 w).opA (issuedEntry s 0x35 w) (viewAt s 0x35 w).b k = srcA s w k := opA_issuedEntry (by decide)
    have hb : (viewAt s 0x35 w).b = eb s w := rfl
    have hmp : (viewAt s 0x35 w).mp = vtMp s.th.ln.vtype := rfl
    rw [State.expandTo, ih, act_viewAt, hA, hb, hmp, activesTo_succ, putElems, Nat.zero_add]
    cases active s w n with
    | true => simp
    | false => cases vtMp s.th.ln.vtype <;> simp

theorem elementWord_vcompress (hr : Ready s 0x35 w) (hk : (w.key == 0) = true) : ElementWord s (s.send 0x35 w)
    { plain s 0x35 w fun j => (srcA s w ((actives s w).getD j 0), 0) with act := fun j => j < (actives s w).length, zeros := false } := by
  have hp : PlainWord s 0x35 w := plainWord_of_mem (by decide)
  have hgroups := view_groups hp
  obtain ⟨-, helems⟩ := compressTo_spec (hp.sized hr.toSendable).vl_bits
  refine elementWord_of_setV (whole := !(viewAt s 0x35 w).masked && (viewAt s 0x35 w).whole (groupsAt s 0x35 w)) hr hp rfl rfl (fun _ => rfl)
    (x := ((queued s 0x35 w).compressTo (issuedEntry s 0x35 w) (viewAt s 0x35 w) s.th.fr.copy.vl).2) (fun j => ?_) fun hi hle => ?_
  · have hcount : j < (actives s w).length → j < s.th.fr.copy.vl := fun hj => hj.trans_le (length_activesTo_le _)
    refine (helems j).trans ?_
    by_cases hj : j < (actives s w).length
    · have hj' : j < (activesTo s w s.th.fr.copy.vl).length := hj
      rw [if_pos hj']
      exact (if_pos ⟨hcount hj, decide_eq_true hj⟩).symm
    · have hj' : ¬ j < (activesTo s w s.th.fr.copy.vl).length := hj
      simp [plain, hj, hj']
  · have hview : (queued s 0x35 w).view (issuedEntry s 0x35 w) = viewAt s 0x35 w := rfl
    rw [laneOf_pack hk]
    show laneVcompress (issuedEntry s 0x35 w) 0 hi (queued s 0x35 w) = _
    rw [laneVcompress, hview, if_neg (by omega), hgroups]
    rfl

theorem elementWord_vexpand (hr : Ready s 0x35 w) (hk : (w.key == 1) = true) : ElementWord s (s.send 0x35 w)
    (plain s 0x35 w fun i => (srcA s w ((List.range i).filter (active s w)).length, 0)) := by
  have hp : PlainWord s 0x35 w := plainWord_of_mem (by decide)
  have hgroups := view_groups hp
  refine elementWord_of_setV (whole := (viewAt s 0x35 w).whole (groupsAt s 0x35 w)) hr hp rfl rfl (fun _ => rfl)
    (elements_permuted (P := fun i => some (srcA s w (activesTo s w i).length)) (hp.sized hr.toSendable) fun _ => rfl) fun hi hle => ?_
  have hview : (queued s 0x35 w).view (issuedEntry s 0x35 w) = viewAt s 0x35 w := rfl
  have hvl : (viewAt s 0x35 w).vl = s.th.fr.copy.vl := rfl
  rw [laneOf_pack hk]
  show laneVexpand (issuedEntry s 0x35 w) 0 hi (queued s 0x35 w) = _
  rw [laneVexpand, hview, if_neg (by omega), hgroups, hvl, expandTo_eq]
  rfl

/-! ### The word of each instruction -/

theorem elementWord_of_permuteForm {i : Instr} {f : EltForm} (h : permuteForm s i = some f) (hw : i.wellFormed = true)
    (hr : Ready s f.op f.w) : viqWord i = some (f.op, f.w, 0) ∧ ElementWord s (s.send f.op f.w) f := by
  obtain ⟨hn, -⟩ := (Bool.and_eq_true _ _).mp hw
  cases i
  case vslipUp => cases h; exact ⟨rfl, elementWord_vslipUp hr hn⟩
  case vslipDn => cases h; exact ⟨rfl, elementWord_vslipDn hr hn⟩
  case vslipUpin => cases h; exact ⟨rfl, elementWord_vslipUpin hr hn⟩
  case vslipDnin => cases h; exact ⟨rfl, elementWord_vslipDnin hr hn⟩
  case vpick => cases h; exact ⟨rfl, elementWord_vpick hr⟩
  case vcompress => cases h; exact ⟨rfl, elementWord_vcompress hr hn⟩
  case vexpand => cases h; exact ⟨rfl, elementWord_vexpand hr hn⟩
  all_goals cases h

/-- Settles O35: reductions and scans by the running value of their fold, permutes by the place that each element comes from. -/
theorem foldsAndPermutes : Obligations.FoldsAndPermutes := by
  refine ⟨fun s i f hf hw hr hq => ?_, fun s i f hf hw hr => ?_⟩
  · obtain ⟨hsent, hword⟩ := elementWord_of_foldForm hf hw hr hq
    exact ⟨_, exec_of_viqWord hsent hw s, hword⟩
  · obtain ⟨hsent, hword⟩ := elementWord_of_permuteForm hf hw hr
    exact ⟨_, exec_of_viqWord hsent hw s, hword⟩

end Sys2Proof.Claims

end

section

/-! ## Compares, mask logic and words with a scalar result

A word that writes a mask gives bit i of md to active element i, the others zero or what they held (05 R115, R125, R126); mpop, mfirst and
vmvs.x give a scalar register (05 R127, R128). -/

namespace Sys2Proof.Claims

open Sys2Proof.Machine

variable {s : State} {op : Nat} {w : VWord} {lo hi n p : Nat} {q : State} {f : MaskForm} {x : MReg} {fl : Flags} {T : Nat → Bool × Flags}

/-! ### What the lanes hold -/

/-- The lane registers with a mask register written and flags raised. -/
def wroteMask (s : State) (w : VWord) (x : MReg) (p : Nat) (fl : Flags) : Lanes :=
  { s.th.ln with m := vecSet s.th.ln.m w.vd.toNat x, mprog := vecSet s.th.ln.mprog w.vd.toNat p, flags := s.th.ln.flags ||| fl }

theorem setM_of_lanes (q : State) (hq : q.th.ln = s.th.ln) : (q.setM w.vd.toNat x p).orLaneFlags fl = q.onLn fun _ => wroteMask s w x p fl := by
  simp only [State.setM, State.orLaneFlags, State.onLn, hq]
  rfl

/-- The flags of the active elements of a mask word. -/
def flagsOf (s : State) (f : MaskForm) : Flags := orFlags (fun i => if f.act i then (f.at_ i).2 else 0) 0 s.th.fr.copy.vl

/-- The bits that R115 asks for. -/
def MaskBits (s : State) (f : MaskForm) (x : MReg) : Prop :=
  ∀ i, x.toNat.testBit i =
    if i < s.th.fr.copy.vl ∧ f.act i then (f.at_ i).1
    else if i < s.th.fr.copy.vl ∧ f.zeros then false
    else (vecGet s.th.ln.m f.w.vd.toNat 0).toNat.testBit i

theorem elemAt_one (x : MReg) (i : Nat) : elemAt x 1 i = (x.toNat.testBit i).toNat := by
  rw [elemAt, Nat.mul_one, Nat.toNat_testBit, field, Nat.shiftRight_eq_div_pow]
  rfl

/-- A mask register has a bit for each element below vl (05 R106). -/
theorem vl_le_mregBits (h : Sendable s op w) : s.th.fr.copy.vl * 1 ≤ mregBits := by
  have hwidth : s.width ≤ 2 ^ 2 := Nat.pow_le_pow_right (by decide) h.width
  have hvl := h.vl
  rw [mregBits]
  omega

/-- What a run of writes leaves, where each writes the bit of its element. -/
theorem maskBits_putElems {P : Nat → Option Nat} (hvl : s.th.fr.copy.vl * 1 ≤ mregBits)
    (hP : ∀ i, P i = if f.act i then some (f.at_ i).1.toNat else if f.zeros then some 0 else none) :
    MaskBits s f (putElems 1 0 P s.th.fr.copy.vl (vecGet s.th.ln.m f.w.vd.toNat 0)) := by
  intro i
  have helem := elemAt_putElems P (vecGet s.th.ln.m f.w.vd.toNat 0) i _ hvl
  rw [elemAt_one, elemAt_one, hP] at helem
  refine Function.LeftInverse.injective Bool.ofNat_toNat (helem.trans ?_)
  by_cases hi : i < s.th.fr.copy.vl
  · cases f.act i with
    | true => cases (f.at_ i).1 <;> simp [hi]
    | false => cases f.zeros <;> simp [hi]
  · simp [hi]

/-- A word that has written the bits of its form, and raised their flags, is what its form says. -/
theorem maskWord_of_run {g : Nat} (h : Ready s op w) (hop : op ≠ 0x73) (hl : laneToScalar op w = false) (hw : f.w = w)
    (hg : groupsAt s op w ≤ g)
    (hrun : laneOf (issuedEntry s op w) 0 (min (groupsAt s op w) (2 ^ 32)) (queued s op w) =
      { st := ((queued s op w).setM w.vd.toNat x p).orLaneFlags (flagsOf s f), reached := g, stop := none })
    (hx : MaskBits s f x) : MaskWord s (s.send op w) f := by
  subst hw
  rw [setM_of_lanes (s := s) (queued s op f.w) rfl] at hrun
  rw [send_of_lanes h hop hl hg hrun]
  exact ⟨lanesOnly_onLn s _, x, p, rfl, hx⟩

/-! ### Compares and class tests -/

theorem maskWord_of_quiet {v : View} {F : Nat → Elt} (q : State) (e : VEntry) (h : AllGroups v hi)
    (hq : ∀ i < v.vl, v.act i = true → (F i).2 &&& v.traps = 0) :
    q.maskWord e v F 0 hi =
      { st := (q.setM e.w.vd.toNat (putElems 1 0 (v.put F) v.vl (vecGet q.th.ln.m e.w.vd.toNat 0)) (vlmax v.wid v.b)).orLaneFlags
          (orFlags (v.fl F) 0 v.vl), reached := v.groups, stop := none } := by
  have hprog : (if v.groups ≤ v.groups then vlmax v.wid v.b else min (v.groups * v.per) v.vl) = vlmax v.wid v.b := if_pos le_rfl
  simp only [State.maskWord, reach_of_quiet h hq, h.span, hprog]

/-- A word that tests each active element. -/
def tested (s : State) (op : Nat) (w : VWord) (T : Nat → Bool × Flags) : MaskForm :=
  { op := op, w := w, act := active s w, zeros := vtMp s.th.ln.vtype, at_ := T }

/-- The bit and flags of a test as an element. -/
def bitElt (T : Nat → Bool × Flags) (i : Nat) : Elt := ((T i).1.toNat, (T i).2)

theorem maskWord_of_tested (hr : Ready s op w) (hp : PlainWord s op w)
    (hq : ∀ k < s.th.fr.copy.vl, active s w k = true → (T k).2 &&& s.th.ln.traps = 0)
    (h : ∀ hi, laneOf (issuedEntry s op w) 0 hi (queued s op w) =
      (queued s op w).maskWord (issuedEntry s op w) (viewAt s op w) (bitElt T) 0 hi) : MaskWord s (s.send op w) (tested s op w T) := by
  have hgroups := view_groups hp
  have hall : AllGroups (viewAt s op w) (min (groupsAt s op w) (2 ^ 32)) :=
    ⟨hgroups ▸ hp.reached hr.toSendable, (hp.sized hr.toSendable).vl_le_groups⟩
  have hrun := (h _).trans (maskWord_of_quiet _ _ hall fun i hi hact => hq i hi (act_viewAt (op := op) i ▸ hact))
  have hflags : orFlags ((viewAt s op w).fl (bitElt T)) 0 (viewAt s op w).vl = flagsOf s (tested s op w T) :=
    congrArg (orFlags · 0 s.th.fr.copy.vl) (funext (fl_viewAt _))
  rw [hflags, hgroups] at hrun
  exact maskWord_of_run hr hp.noStep hp.quiet rfl le_rfl hrun (maskBits_putElems (vl_le_mregBits hr.toSendable) (put_viewAt _))

theorem laneOf_compare (h : (w.key == n) = true) : laneOf (issuedEntry s 0x06 w) lo hi q =
    if n == 0 then laneVcmpEq (issuedEntry s 0x06 w) lo hi q else if n == 1 then laneVcmpNe (issuedEntry s 0x06 w) lo hi q
    else if n == 2 then laneVcmpLt (issuedEntry s 0x06 w) lo hi q else if n == 3 then laneVcmpLe (issuedEntry s 0x06 w) lo hi q
    else if n == 4 then laneVcmpGt (issuedEntry s 0x06 w) lo hi q else laneVcmpGe (issuedEntry s 0x06 w) lo hi q := by
  rw [← beq_iff_eq.mp h]
  rfl

theorem laneOf_fcompare (h : (w.key == n) = true) : laneOf (issuedEntry s 0x23 w) lo hi q =
    if n == 0 then laneVfcmpEq (issuedEntry s 0x23 w) lo hi q else if n == 1 then laneVfcmpNe (issuedEntry s 0x23 w) lo hi q
    else if n == 2 then laneVfcmpLt (issuedEntry s 0x23 w) lo hi q else if n == 3 then laneVfcmpLe (issuedEntry s 0x23 w) lo hi q
    else if n == 4 then laneVfcmpGt (issuedEntry s 0x23 w) lo hi q else if n == 5 then laneVfcmpGe (issuedEntry s 0x23 w) lo hi q
    else laneVfcmpUn (issuedEntry s 0x23 w) lo hi q := by
  rw [← beq_iff_eq.mp h]
  rfl

/-- The bit that a test writes (05 R125). -/
theorem ite_eq_toNat (b : Bool) : (if b then 1 else 0) = b.toNat := (Bool.cond_eq_ite b 1 0).symm

theorem isFp_of_okVcmpEq (h : okVcmpEq w = true) : w.ety.isFp = false := by
  simp only [okVcmpEq, Bool.and_eq_true] at h
  obtain ⟨⟨⟨⟨-, hint⟩, -⟩, -⟩, -⟩ := h
  exact isFp_of_isInt hint

theorem maskWord_of_compare (R : Int → Int → Bool) (hr : Ready s 0x06 w) (hint : w.ety.isFp = false)
    (h : ∀ hi, laneOf (issuedEntry s 0x06 w) 0 hi (queued s 0x06 w) = (queued s 0x06 w).cmpWord (issuedEntry s 0x06 w) 0 hi R) :
    MaskWord s (s.send 0x06 w) (compare2 s w R) := by
  refine maskWord_of_tested hr (plainWord_of_mem (by decide)) (fun _ _ _ => BitVec.zero_and) fun hi => (h hi).trans ?_
  refine congrArg (fun E => (queued s 0x06 w).maskWord (issuedEntry s 0x06 w) (viewAt s 0x06 w) E 0 hi) (funext fun i => ?_)
  rw [bitElt, ← opA_num (op := 0x06) (by decide), ← opB_num (op := 0x06) (by decide) (by decide) hint, ← ite_eq_toNat]
  rfl

theorem maskWord_of_fcompare (R : FVal → FVal → Bool) (un loud : Bool) (hr : Ready s 0x23 w)
    (hq : ∀ k < s.th.fr.copy.vl, active s w k = true → ((fcompare2 s w R un loud).at_ k).2 &&& s.th.ln.traps = 0)
    (h : ∀ hi, laneOf (issuedEntry s 0x23 w) 0 hi (queued s 0x23 w) =
      (queued s 0x23 w).fcmpWord (issuedEntry s 0x23 w) 0 hi R un loud) : MaskWord s (s.send 0x23 w) (fcompare2 s w R un loud) := by
  refine maskWord_of_tested hr (plainWord_of_mem (by decide)) hq fun hi => (h hi).trans ?_
  refine congrArg (fun E => (queued s 0x23 w).maskWord (issuedEntry s 0x23 w) (viewAt s 0x23 w) E 0 hi) (funext fun i => ?_)
  have hfmt : (queued s 0x23 w).efmt (issuedEntry s 0x23 w) = ef s w := rfl
  have hview : (queued s 0x23 w).view (issuedEntry s 0x23 w) = viewAt s 0x23 w := rfl
  simp only [hview, opA_viewAt (show 0x23 ≠ 0x3A by decide), opB_viewAt (show 0x23 ≠ 0x3A by decide) (show 0x23 ≠ 0x3B by decide), hfmt, bitElt,
    Bool.or_eq_true, ite_eq_toNat, or_assoc]
  split
  · rfl
  · rfl

theorem classOf_lt (f : Fmt) (a : Nat) : f.classOf a < 10 := by
  unfold Fmt.classOf
  repeat' split
  all_goals decide

/-- vfclass tests the class of each element against the set that the word names (06 R160). -/
theorem maskWord_vfclass (hr : Ready s 0x3C w) :
    MaskWord s (s.send 0x3C w) (tested s 0x3C w fun i => (w.fn.toNat.testBit ((ef s w).classOf (srcA s w i)), 0)) := by
  refine maskWord_of_tested hr (plainWord_of_mem (by decide)) (fun _ _ _ => BitVec.zero_and) fun hi => ?_
  refine congrArg (fun E => (queued s 0x3C w).maskWord (issuedEntry s 0x3C w) (viewAt s 0x3C w) E 0 hi) (funext fun i => ?_)
  have hclass : (w.fnBits 0 10).testBit ((ef s w).classOf (srcA s w i)) = w.fn.toNat.testBit ((ef s w).classOf (srcA s w i)) := by
    rw [VWord.fnBits, Nat.pow_zero, Nat.div_one, Nat.testBit_mod_two_pow, decide_eq_true (classOf_lt _ _), Bool.true_and]
  rw [bitElt, ← hclass, ← ite_eq_toNat, ← opA_viewAt (op := 0x3C) (by decide)]
  rfl

/-! ### Mask logic -/

theorem laneOf_masks (h : (w.key == n) = true) : laneOf (issuedEntry s 0x07 w) lo hi q =
    if n == 0 then laneMand (issuedEntry s 0x07 w) lo hi q else if n == 1 then laneMor (issuedEntry s 0x07 w) lo hi q
    else if n == 2 then laneMxor (issuedEntry s 0x07 w) lo hi q else if n == 3 then laneMandn (issuedEntry s 0x07 w) lo hi q
    else if n == 4 then laneMnot (issuedEntry s 0x07 w) lo hi q else if n == 16 then laneMpop (issuedEntry s 0x07 w) lo hi q
    else laneMfirst (issuedEntry s 0x07 w) lo hi q := by
  rw [← beq_iff_eq.mp h]
  rfl

/-- A word of mask logic has a group for each 512 W elements (05 Table 5.13). -/
theorem groupsAt_logic (h : (w.key == n) = true) (hn : n < 5) : groupsAt s 0x07 w = ceilDiv s.th.fr.copy.vl (512 * s.width) :=
  if_pos (beq_iff_eq.mp h ▸ hn)

theorem le_ceilDiv_mul {d : Nat} (hd : 0 < d) (m : Nat) : m ≤ ceilDiv m d * d := by
  have hlt := Nat.lt_div_mul_add hd (a := m + d - 1)
  rw [ceilDiv]
  omega

theorem maskWord_of_logic (F : Bool → Bool → Bool) (hr : Ready s 0x07 w) (hk : (w.key == n) = true) (hn : n < 5)
    (h : ∀ hi, laneOf (issuedEntry s 0x07 w) 0 hi (queued s 0x07 w) = (queued s 0x07 w).maskLogic (issuedEntry s 0x07 w) 0 hi F) :
    MaskWord s (s.send 0x07 w) (logic2 s w F) := by
  have hvl := vl_le_mregBits hr.toSendable
  have hgroups := groupsAt_logic (s := s) hk hn
  have hsteps : maskSteps (queued s 0x07 w) (issuedEntry s 0x07 w) = groupsAt s 0x07 w := hgroups.symm
  have hwidth : 0 < s.width := Nat.pow_pos (by decide)
  have hspan : min (groupsAt s 0x07 w * (512 * s.width)) s.th.fr.copy.vl = s.th.fr.copy.vl := by
    rw [hgroups]
    exact min_eq_right (le_ceilDiv_mul (by omega) _)
  have hfew : groupsAt s 0x07 w ≤ 2 ^ 32 := by
    rw [hgroups, ceilDiv]
    rw [mregBits] at hvl
    refine (Nat.div_le_self _ _).trans ?_
    have hwide : s.width ≤ 2 ^ 2 := Nat.pow_le_pow_right (by decide) hr.width
    omega
  refine maskWord_of_run (p := vlmax s.width (eb s w)) hr (by decide) ?_ rfl le_rfl ?_
    (maskBits_putElems (f := logic2 s w F) (P := fun i => some (if F ((vecGet s.th.ln.m w.va.toNat 0).toNat.testBit i)
      ((vecGet s.th.ln.m w.vb.toNat 0).toNat.testBit i) then 1 else 0)) hvl fun i => congrArg some (ite_eq_toNat _))
  · rw [laneToScalar_mask hk]
    simp only [Bool.or_eq_false_iff, decide_eq_false_iff_not]
    omega
  · have hflags : flagsOf s (logic2 s w F) = 0 := orFlags_eq_zero (fun _ => by simp [logic2]) _
    have hvl' : (issuedEntry s 0x07 w).vl = s.th.fr.copy.vl := rfl
    have hwid : (queued s 0x07 w).width = s.width := rfl
    rw [h, hflags, orLaneFlags_zero, State.maskLogic]
    simp only [hsteps, min_eq_left hfew, min_self, hvl', hwid, hspan, Nat.zero_mul, Nat.sub_zero, le_refl, if_true]
    rfl

/-! ### The mask word of each instruction -/

theorem maskWord_of_maskForm {i : Instr} {f : MaskForm} (h : maskForm s i = some f) (hw : i.wellFormed = true) (hr : Ready s f.op f.w)
    (hq : ∀ k < s.th.fr.copy.vl, f.act k = true → (f.at_ k).2 &&& s.th.ln.traps = 0) :
    viqWord i = some (f.op, f.w, 0) ∧ MaskWord s (s.send f.op f.w) f := by
  obtain ⟨hn, hc⟩ := (Bool.and_eq_true _ _).mp hw
  cases i
  case vcmpEq => cases h; exact ⟨rfl, maskWord_of_compare _ hr (isFp_of_okVcmpEq hc) fun _ => laneOf_compare hn⟩
  case vcmpNe => cases h; exact ⟨rfl, maskWord_of_compare _ hr (isFp_of_okVcmpEq hc) fun _ => laneOf_compare hn⟩
  case vcmpLt => cases h; exact ⟨rfl, maskWord_of_compare _ hr (isFp_of_okVcmpEq hc) fun _ => laneOf_compare hn⟩
  case vcmpLe => cases h; exact ⟨rfl, maskWord_of_compare _ hr (isFp_of_okVcmpEq hc) fun _ => laneOf_compare hn⟩
  case vcmpGt => cases h; exact ⟨rfl, maskWord_of_compare _ hr (isFp_of_okVcmpEq hc) fun _ => laneOf_compare hn⟩
  case vcmpGe => cases h; exact ⟨rfl, maskWord_of_compare _ hr (isFp_of_okVcmpEq hc) fun _ => laneOf_compare hn⟩
  case vfcmpEq => cases h; exact ⟨rfl, maskWord_of_fcompare _ _ _ hr hq fun _ => laneOf_fcompare hn⟩
  case vfcmpNe => cases h; exact ⟨rfl, maskWord_of_fcompare _ _ _ hr hq fun _ => laneOf_fcompare hn⟩
  case vfcmpLt => cases h; exact ⟨rfl, maskWord_of_fcompare _ _ _ hr hq fun _ => laneOf_fcompare hn⟩
  case vfcmpLe => cases h; exact ⟨rfl, maskWord_of_fcompare _ _ _ hr hq fun _ => laneOf_fcompare hn⟩
  case vfcmpGt => cases h; exact ⟨rfl, maskWord_of_fcompare _ _ _ hr hq fun _ => laneOf_fcompare hn⟩
  case vfcmpGe => cases h; exact ⟨rfl, maskWord_of_fcompare _ _ _ hr hq fun _ => laneOf_fcompare hn⟩
  case vfcmpUn => cases h; exact ⟨rfl, maskWord_of_fcompare _ _ _ hr hq fun _ => laneOf_fcompare hn⟩
  case vfclass => cases h; exact ⟨rfl, maskWord_vfclass hr⟩
  case mand => cases h; exact ⟨rfl, maskWord_of_logic _ hr hn (by decide) fun _ => laneOf_masks hn⟩
  case mor => cases h; exact ⟨rfl, maskWord_of_logic _ hr hn (by decide) fun _ => laneOf_masks hn⟩
  case mxor => cases h; exact ⟨rfl, maskWord_of_logic _ hr hn (by decide) fun _ => laneOf_masks hn⟩
  case mandn => cases h; exact ⟨rfl, maskWord_of_logic _ hr hn (by decide) fun _ => laneOf_masks hn⟩
  case mnot => cases h; exact ⟨rfl, maskWord_of_logic _ hr hn (by decide) fun _ => laneOf_masks hn⟩
  all_goals cases h

/-! ### Words with a scalar result -/

/-- The front after a word that has given s[vd] the value x, for which it waited (05 R127). -/
def frontGiven (s : State) (w : VWord) (x : Word) : Front :=
  { frontAfter s with s := if w.vd = 0 then s.th.fr.s else vecSet s.th.fr.s w.vd.toNat x, wait := .entry (s.th.fr.seq + 1) }

theorem sentAt_of_toScalar (hl : laneToScalar op w = true) :
    sentAt s op w = s.onFr fun _ => { frontAfter s with wait := .entry (s.th.fr.seq + 1), viq := [queuedEntry s op w] } := by
  have hmoved : movedOn s (awaiting s op w s.th.fr) = { frontAfter s with wait := .entry (s.th.fr.seq + 1) } := by
    rw [← movedOn_self, awaiting, hl]
    rfl
  exact congrArg (fun f => s.onFr fun _ => { f with viq := [queuedEntry s op w] }) hmoved

/-- The only word in flight is the one that writes, so the old value is not kept (03 R60). -/
theorem wrWord_sentAt (hl : laneToScalar op w = true) (x : Word) :
    (sentAt s op w).wrWord (issuedEntry s op w).seq w.vd x = s.onFr fun _ => { frontGiven s w x with viq := [queuedEntry s op w] } := by
  have hseq : (queuedEntry s op w).seq = (issuedEntry s op w).seq := rfl
  rw [sentAt_of_toScalar hl, State.wrWord]
  by_cases hd : w.vd = 0
  · rw [if_pos hd, frontGiven, if_pos hd]
    rfl
  · have hnone : ([queuedEntry s op w].any fun e => e.seq < (issuedEntry s op w).seq && !e.safe) = false := by simp [hseq]
    rw [if_neg hd, frontGiven, if_neg hd]
    simp only [State.onFr, hnone, Bool.false_eq_true, if_false]
    rfl

theorem send_of_scalar {x : Word} (hr : Ready s op w) (hop : op ≠ 0x73) (hl : laneToScalar op w = true) (hg : groupsAt s op w = 1)
    (h : ∀ hi, laneOf (issuedEntry s op w) 0 hi (sentAt s op w) =
      laneDone ((sentAt s op w).wrWord (issuedEntry s op w).seq w.vd x)) :
    s.send op w = { s with th := { s.th with fr := frontGiven s w x, cnt := countAfter s } } := by
  have hwr := wrWord_sentAt (s := s) hl x
  have hviq : (frontGiven s w x).viq = [] := hr.idle.viq
  rw [send_of_laneOf hr hop hg.le (h _) (by rw [hwr]; exact hr.idle.hist) (by rw [hwr]; exact hr.idle.storeQ), hwr]
  have hfront : { frontGiven s w x with viq := [] } = frontGiven s w x := by rw [← hviq]
  exact congrArg (fun f => { s with th := { s.th with fr := f, cnt := countAfter s } }) hfront

theorem countBits_eq_countP (x : MReg) (n : Nat) : countBits x n = (List.range n).countP fun i => x.toNat.testBit i := by
  induction n with
  | zero => rfl
  | succ n ih =>
    rw [countBits, ih, List.range_succ, List.countP_append, List.countP_singleton]
    rfl

theorem firstIx_eq_find (p : Nat → Bool) (n : Nat) : firstIx p 0 n = (List.range n).find? p := by
  induction n with
  | zero => rfl
  | succ n ih =>
    rw [firstIx, ih, List.range_succ, List.find?_append, Nat.zero_add]
    cases (List.range n).find? p with
    | some i => rfl
    | none => cases h : p n <;> simp [h]

theorem groupsAt_count (h : (w.key == n) = true) (hn : 5 ≤ n) : groupsAt s 0x07 w = 1 :=
  if_neg (beq_iff_eq.mp h ▸ Nat.not_lt.mpr hn)

theorem send_mpop (hr : Ready s 0x07 w) (hk : (w.key == 16) = true) : s.send 0x07 w = { s with th := { s.th with
    fr := frontGiven s w (word ((List.range s.th.fr.copy.vl).countP fun i => (vecGet s.th.ln.m w.va.toNat 0).toNat.testBit i)),
    cnt := countAfter s } } := by
  refine send_of_scalar hr (by decide) (laneToScalar_mask hk) (groupsAt_count hk (by decide)) fun hi => (laneOf_masks hk).trans ?_
  rw [← countBits_eq_countP]
  rfl

theorem send_mfirst (hr : Ready s 0x07 w) (hk : (w.key == 17) = true) : s.send 0x07 w = { s with th := { s.th with
    fr := frontGiven s w ((((List.range s.th.fr.copy.vl).find? fun i => (vecGet s.th.ln.m w.va.toNat 0).toNat.testBit i).map word).getD
      (BitVec.allOnes 64)), cnt := countAfter s } } := by
  refine send_of_scalar hr (by decide) (laneToScalar_mask hk) (groupsAt_count hk (by decide)) fun hi => (laneOf_masks hk).trans ?_
  rw [← firstIx_eq_find]
  show laneMfirst (issuedEntry s 0x07 w) 0 hi (sentAt s 0x07 w) = _
  rw [laneMfirst]
  refine congrArg (fun x => laneDone ((sentAt s 0x07 w).wrWord (issuedEntry s 0x07 w).seq w.vd x)) ?_
  show (match firstIx (fun i => (vecGet s.th.ln.m w.va.toNat 0).toNat.testBit i) 0 s.th.fr.copy.vl with
    | some i => word i | none => BitVec.allOnes 64) = _
  cases firstIx (fun i => (vecGet s.th.ln.m w.va.toNat 0).toNat.testBit i) 0 s.th.fr.copy.vl <;> rfl

/-- Element 0 as a scalar, extended by its type (05 R128). -/
theorem send_vmvsX (hr : Ready s 0x09 w) (hk : (w.key == 3) = true) : s.send 0x09 w = { s with th := { s.th with
    fr := frontGiven s w (BitVec.ofInt 64 (num s w (srcA s w 0))), cnt := countAfter s } } := by
  have hkey : ¬ w.key < 2 := by rw [beq_iff_eq.mp hk]; decide
  have hA : (sentAt s 0x09 w).opA (issuedEntry s 0x09 w) ((sentAt s 0x09 w).ebits (issuedEntry s 0x09 w)) 0 = srcA s w 0 :=
    opA_issuedEntry (op := 0x09) (by decide) 0
  refine send_of_scalar hr (by decide) (laneToScalar_move hk) (if_neg hkey) fun hi => (laneOf_move hk).trans ?_
  show laneVmvsX (issuedEntry s 0x09 w) 0 hi (sentAt s 0x09 w) = _
  rw [laneVmvsX, hA, ← eltInt_eq_num (srcA_lt 0), eltInt]
  refine congrArg (fun x => laneDone ((sentAt s 0x09 w).wrWord (issuedEntry s 0x09 w).seq w.vd x)) ?_
  show (if w.ety.isSignedInt then BitVec.ofInt 64 (sext (eb s w) (srcA s w 0)) else word (srcA s w 0)) = _
  cases w.ety.isSignedInt with
  | true => rfl
  | false =>
    rw [if_neg Bool.false_ne_true, if_neg Bool.false_ne_true, BitVec.ofInt_natCast, Nat.mod_eq_of_lt (srcA_lt 0)]
    rfl

/-- An instruction of the VIQ for whose scalar the front waits sends its word (05 R127). -/
theorem exec_of_awaited {i : Instr} (hi : viqWord i = some (op, w, 1)) (hw : i.wellFormed = true) (hu : s.th.fr.m.lvl = false) :
    exec i s = .next (s.send op w) := by
  cases sentAs_of_viqWord hi hw with
  | awaited _ hexec => exact hexec s fun hm => absurd (hu.symm.trans hm) Bool.false_ne_true

theorem send_of_scalarForm {i : Instr} {x : Word} (h : scalarForm s i = some (op, w, x)) (hw : i.wellFormed = true) (hr : Ready s op w) :
    viqWord i = some (op, w, 1) ∧ s.send op w = { s with th := { s.th with fr := frontGiven s w x, cnt := countAfter s } } := by
  obtain ⟨hn, -⟩ := (Bool.and_eq_true _ _).mp hw
  cases i
  case mpop => cases h; exact ⟨rfl, send_mpop hr hn⟩
  case mfirst => cases h; exact ⟨rfl, send_mfirst hr hn⟩
  case vmvsX => cases h; exact ⟨rfl, send_vmvsX hr hn⟩
  all_goals cases h

/-- Settles O36: a mask word by the bit that each element's test gives, the others by the scalar that the lanes write while the front waits. -/
theorem maskAndScalarResults : Obligations.MaskAndScalarResults := by
  refine ⟨fun s i f hf hw hr hq => ?_, fun s i op w x hf hw hr => ?_⟩
  · obtain ⟨hsent, hword⟩ := maskWord_of_maskForm hf hw hr hq
    exact ⟨_, exec_of_viqWord hsent hw s, hword⟩
  · obtain ⟨hsent, hgives⟩ := send_of_scalarForm hf hw hr
    exact ⟨_, (exec_of_awaited hsent hw hr.atU).trans (congrArg Host.Outcome.next hgives), rfl, rfl, rfl⟩

end Sys2Proof.Claims

end

section

/-! ## The configuration words

Each is one step of the lanes, which takes what the word carries; setvl, tshape, mmode and scommit have the front do a part of them first
(05 R107 to R114; 06 R141; 07 R203, R204; 08 R212 to R215). -/

namespace Sys2Proof.Claims

open Sys2Proof.Machine

variable {s : State} {op : Nat} {w : VWord} {lo hi n : Nat} {q u : State} {i : Instr} {p : Own}
  {front : State → VEntry → State × VEntry}

/-! ### Words of one step -/

/-- The majors of the configuration words. -/
def configMajors : List Nat := [0x4A, 0x4B, 0x78, 0x79, 0x7A, 0x7B]

/-- A configuration word is one step, and vl does not bound it (05 R111, Table 5.13). -/
structure OneStep (op : Nat) (w : VWord) : Prop where
  groups : ∀ (q : State) (e : VEntry), e.op = op → q.laneGroups e = 1
  unbounded : ∀ s, boundsVl (entry s op w) = false
  quiet : laneToScalar op w = false
  noStep : op ≠ 0x73

theorem oneStep_of_mem (hm : op ∈ configMajors) : OneStep op w := by
  simp only [configMajors, List.mem_cons, List.not_mem_nil, or_false] at hm
  rcases hm with rfl | rfl | rfl | rfl | rfl | rfl
  all_goals exact ⟨fun q e he => by rw [State.laneGroups, he]; rfl, fun _ => rfl, rfl, by decide⟩

theorem exec_of_onLn {f : Lanes → Lanes} (hi : viqWord i = some (op, w, 0)) (hw : i.wellFormed = true) (hm : op ∈ configMajors)
    (hr : Ready s op w) (h : ∀ hi, laneOf (issuedEntry s op w) 0 hi (queued s op w) = laneDone ((queued s op w).onLn f)) :
    exec i s = .next ((ran s).onLn f) := by
  have hone : OneStep op w := oneStep_of_mem hm
  exact (exec_of_viqWord hi hw s).trans (congrArg Host.Outcome.next
    (send_of_lanes hr hone.noStep hone.quiet (hone.groups _ _ rfl).le (ln := f s.th.ln) (h _)))

/-- A word whose value the lanes refuse (02 R44). -/
theorem stopsAt_of_issueFail (hi : viqWord i = some (op, w, 0)) (hw : i.wellFormed = true) (hm : op ∈ configMajors) (hr : Ready s op w)
    (h : ∀ hi, laneOf (issuedEntry s op w) 0 hi (queued s op w) = issueFail (queued s op w) 0) :
    ∃ t, exec i s = .next t ∧ StopsAt s op w 0 .illegal 0 0 s.th.ln t := by
  have hone : OneStep op w := oneStep_of_mem hm
  have hissue : (queued s op w).issueOk (issuedEntry s op w) = true := (issueOk_issuedEntry s op w).trans hr.issues
  have hlanes := (laneRun_of_unmarked (q := queued s op w) (hi := allGroups (queued s op w) (queuedEntry s op w))
    hr.streams hr.marks rfl hissue).trans (h _)
  refine ⟨_, exec_of_viqWord hi hw s, send_stopsAt (x := { cause := .illegal, index := 0, group := 0, flags := 0 })
    (o := issueFail (queued s op w) 0) ⟨hr.idle, hr.atU, hr.alone, hr.sent, hr.samples, hone.quiet⟩ hlanes ⟨rfl, rfl, rfl⟩ (by decide) ?_⟩
  rw [leftAt, if_neg (by simp)]
  rfl

/-! ### setvt, setfmt and mshape -/

theorem laneOf_vtype (h : (w.key == 16) = true) : laneOf (issuedEntry s 0x78 w) lo hi q = laneSetvt (issuedEntry s 0x78 w) lo hi q := by
  have hkey : ¬ (issuedEntry s 0x78 w).w.key < 5 := (beq_iff_eq.mp h : w.key = 16) ▸ (by decide)
  exact if_neg hkey

/-- The value of setvt (05 R110). -/
def vtypeValue (s : State) (w : VWord) : Word := if w.form = .vi then w.fn.signExtend 64 else s.rd w.vc

/-- The lanes take the value of setvt, or refuse it (05 R110). -/
def takeVtype (q : State) (x : Word) : LaneOut :=
  if x.toNat < 1024 ∧ x.toNat % 8 = 0 ∧ x.toNat / 64 % 8 ≤ 4 then
    laneDone (q.onLn fun l => { l with vtype := BitVec.ofNat 10 (x.toNat + l.vtype.toNat % 8) })
  else issueFail q 0

theorem takeVtype_of_bits (q : State) (x : Word) :
    (if bitsOf x 2 0 ≠ 0 || bitsOf x 63 10 ≠ 0 || 4 < bitsOf x 8 6 then issueFail q 0
     else laneDone (q.onLn fun l => { l with vtype := BitVec.ofNat 10 (bitsOf x 9 3 * 8 + l.vtype.toNat % 8) })) = takeVtype q x := by
  have hlt := x.isLt
  rw [takeVtype]
  by_cases hok : x.toNat < 1024 ∧ x.toNat % 8 = 0 ∧ x.toNat / 64 % 8 ≤ 4
  · obtain ⟨hsmall, hsize, hround⟩ := hok
    have hsum : bitsOf x 9 3 * 8 = x.toNat := by rw [bitsOf]; omega
    rw [if_neg, if_pos ⟨hsmall, hsize, hround⟩, hsum]
    simp only [Bool.or_eq_true, decide_eq_true_eq]
    simp only [bitsOf]
    omega
  · rw [if_pos, if_neg hok]
    simp only [Bool.or_eq_true, decide_eq_true_eq]
    simp only [bitsOf]
    omega

theorem laneSetvt_issuedEntry : laneSetvt (issuedEntry s 0x78 w) 0 hi q = takeVtype q (vtypeValue s w) := by
  have hform : (issuedEntry s 0x78 w).w.form = w.form := rfl
  have himm : immOf (issuedEntry s 0x78 w).w = w.fn.toInt := sext_fn w.fn
  rw [laneSetvt, vtypeValue, hform, himm]
  cases w.form <;> exact takeVtype_of_bits q _

theorem exec_setvt (hw : (Instr.setvt w).wellFormed = true) (hr : Ready s 0x78 w)
    (hx : (vtypeValue s w).toNat < 1024 ∧ (vtypeValue s w).toNat % 8 = 0 ∧ (vtypeValue s w).toNat / 64 % 8 ≤ 4) :
    exec (.setvt w) s = .next ((ran s).onLn fun l => { l with vtype := BitVec.ofNat 10 ((vtypeValue s w).toNat + l.vtype.toNat % 8) }) := by
  obtain ⟨hn, -⟩ := (Bool.and_eq_true _ _).mp hw
  exact exec_of_onLn rfl hw (by decide) hr fun _ => (laneOf_vtype hn).trans (laneSetvt_issuedEntry.trans (if_pos hx))

theorem stopsAt_setvt (hw : (Instr.setvt w).wellFormed = true) (hr : Ready s 0x78 w)
    (hx : ¬ ((vtypeValue s w).toNat < 1024 ∧ (vtypeValue s w).toNat % 8 = 0 ∧ (vtypeValue s w).toNat / 64 % 8 ≤ 4)) :
    ∃ t, exec (.setvt w) s = .next t ∧ StopsAt s 0x78 w 0 .illegal 0 0 s.th.ln t := by
  obtain ⟨hn, -⟩ := (Bool.and_eq_true _ _).mp hw
  exact stopsAt_of_issueFail rfl hw (by decide) hr fun _ => (laneOf_vtype hn).trans (laneSetvt_issuedEntry.trans (if_neg hx))

theorem fmtAccept_iff (x : Word) : fmtAccept x = true ↔ x = 0 ∨ fmtValid x = true := by
  rw [fmtAccept, Bool.or_eq_true, decide_eq_true_eq]

theorem exec_setfmt (hw : (Instr.setfmt w).wellFormed = true) (hr : Ready s 0x79 w) (hx : s.rd w.vc = 0 ∨ fmtValid (s.rd w.vc) = true) :
    exec (.setfmt w) s = .next ((ran s).onLn fun l => { l with fmt := vecSet l.fmt w.vd.toNat (s.rd w.vc) }) :=
  exec_of_onLn rfl hw (by decide) hr fun _ => if_pos ((fmtAccept_iff _).mpr hx)

theorem stopsAt_setfmt (hw : (Instr.setfmt w).wellFormed = true) (hr : Ready s 0x79 w)
    (hx : ¬ (s.rd w.vc = 0 ∨ fmtValid (s.rd w.vc) = true)) :
    ∃ t, exec (.setfmt w) s = .next t ∧ StopsAt s 0x79 w 0 .illegal 0 0 s.th.ln t :=
  stopsAt_of_issueFail rfl hw (by decide) hr fun _ => if_neg (mt (fmtAccept_iff _).mp hx)

theorem laneOf_shape (h : (w.key == n) = true) : laneOf (issuedEntry s 0x7A w) lo hi q =
    if n == 0 then laneMshape (issuedEntry s 0x7A w) lo hi q else laneTshape (issuedEntry s 0x7A w) lo hi q := by
  rw [← beq_iff_eq.mp h]
  rfl

/-- What R114 asks of a shape. -/
def ShapeOk (s : State) (w : VWord) : Prop :=
  (s.rd w.vc).toNat / 2 ^ 16 < 2 ^ 16 ∧ (s.rd w.vc).toNat / 2 ^ 16 ≠ 0 ∧ (s.rd w.vc).toNat % 2 ^ 16 ≠ 0 ∧
    (s.rd w.vc).toNat / 2 ^ 16 * ((s.rd w.vc).toNat % 2 ^ 16) * eb s w ≤ s.width * 131072

theorem rows_of_lt {x : Word} (h : x.toNat / 2 ^ 16 < 2 ^ 16) : bitsOf x 31 16 = x.toNat / 2 ^ 16 := Nat.mod_eq_of_lt h

/-- The test of the lanes is that of R114. -/
theorem shapeOk_iff (s : State) (w : VWord) : ShapeOk s w ↔
    ¬ (bitsOf (s.rd w.vc) 63 32 ≠ 0 || bitsOf (s.rd w.vc) 31 16 = 0 || bitsOf (s.rd w.vc) 15 0 = 0 ||
      s.width * 131072 < bitsOf (s.rd w.vc) 31 16 * bitsOf (s.rd w.vc) 15 0 * eb s w) = true := by
  have hlt := (s.rd w.vc).isLt
  have hcols : bitsOf (s.rd w.vc) 15 0 = (s.rd w.vc).toNat % 2 ^ 16 := by rw [bitsOf]; omega
  have hhigh : bitsOf (s.rd w.vc) 63 32 = 0 ↔ (s.rd w.vc).toNat / 2 ^ 16 < 2 ^ 16 := by rw [bitsOf]; omega
  by_cases hrows : (s.rd w.vc).toNat / 2 ^ 16 < 2 ^ 16
  · simp only [ShapeOk, Bool.or_eq_true, decide_eq_true_eq]
    rw [hhigh.mpr hrows, rows_of_lt hrows, hcols]
    omega
  · have hne : bitsOf (s.rd w.vc) 63 32 ≠ 0 := mt hhigh.mp hrows
    simp only [ShapeOk, hrows, Bool.or_eq_true, decide_eq_true_eq, false_and, false_iff, not_not]
    exact .inl (.inl (.inl hne))

/-- The shape entry that mshape writes (05 R114). -/
def shapeEntry (s : State) (w : VWord) : Word :=
  word (w.ety.code + (s.rd w.vc).toNat % 2 ^ 16 * 2 ^ 4 + (s.rd w.vc).toNat / 2 ^ 16 * 2 ^ 20 + vtFsel s.th.ln.vtype * 2 ^ 36)

theorem exec_mshape (hw : (Instr.mshape w).wellFormed = true) (hr : Ready s 0x7A w) (hx : ShapeOk s w) :
    exec (.mshape w) s = .next ((ran s).onLn fun l => { l with shape := vecSet l.shape (w.vd.toNat / 4) (shapeEntry s w) }) := by
  obtain ⟨hn, -⟩ := (Bool.and_eq_true _ _).mp hw
  refine exec_of_onLn rfl hw (by decide) hr fun _ => (laneOf_shape hn).trans ((if_neg ((shapeOk_iff s w).mp hx)).trans ?_)
  have hcols : bitsOf (s.rd w.vc) 15 0 = (s.rd w.vc).toNat % 2 ^ 16 := by rw [bitsOf]; omega
  rw [shapeEntry, ← hcols, ← rows_of_lt hx.1]
  rfl

theorem stopsAt_mshape (hw : (Instr.mshape w).wellFormed = true) (hr : Ready s 0x7A w) (hx : ¬ ShapeOk s w) :
    ∃ t, exec (.mshape w) s = .next t ∧ StopsAt s 0x7A w 0 .illegal 0 0 s.th.ln t := by
  obtain ⟨hn, -⟩ := (Bool.and_eq_true _ _).mp hw
  exact stopsAt_of_issueFail rfl hw (by decide) hr fun _ =>
    (laneOf_shape hn).trans (if_pos (not_not.mp (mt (shapeOk_iff s w).mpr hx)))

/-! ### cutstep -/

/-- The schedule pointers with the one of a die raised to at least x (07 R204). -/
def raisedTo (d x : Nat) (sched : List (Nat × Nat)) : List (Nat × Nat) :=
  (d, max (((sched.find? fun p => p.1 = d).map (·.2)).getD 0) x) :: sched.filter fun p => p.1 ≠ d

/-- A context whose pointer of a die has been raised. -/
def raised (d x : Nat) (c : Ctx) : Ctx := { c with sched := raisedTo d x c.sched }

theorem pointer_raisedTo (d x k : Nat) (sched : List (Nat × Nat)) :
    (((raisedTo d x sched).find? fun p => p.1 = k).map (·.2)).getD 0 =
      (let p := ((sched.find? fun p => p.1 = k).map (·.2)).getD 0
       if k = d then max p x else p) := by
  by_cases hk : k = d
  · simp [raisedTo, hk]
  · have hother : ∀ p ∈ sched, decide (decide (p.1 ≠ d) = true ∧ decide (p.1 = k) = true) = decide (p.1 = k) := by
      intro p _
      by_cases hp : p.1 = k <;> simp [hp, hk]
    rw [raisedTo, List.find?_cons_of_neg (by simpa using Ne.symm hk), List.find?_filter, List.find?_congr hother, if_neg hk]

/-- The state in which a context's pointer of the thread's die has been raised (07 R204). -/
def cutTo (s : State) (x : Nat) : State := (ran s).onCtx s.th.bind.ctx (raised s.th.bind.die x)

theorem exec_cutstep (hw : (Instr.cutstep w).wellFormed = true) (hr : Ready s 0x4B w) (hx : (s.rd w.vc).toNat < 2 ^ 16) :
    exec (.cutstep w) s = .next (cutTo s (s.rd w.vc).toNat) := by
  have hone : OneStep 0x4B w := oneStep_of_mem (by decide)
  have hlow : bitsOf (s.rd w.vc) 15 0 = (s.rd w.vc).toNat := by rw [bitsOf]; omega
  have hhigh : ¬ bitsOf (s.rd w.vc) 63 16 ≠ 0 := by rw [bitsOf]; omega
  have hlanes : ∀ hi, laneOf (issuedEntry s 0x4B w) 0 hi (queued s 0x4B w) =
      laneDone ((queued s 0x4B w).onCtx s.th.bind.ctx (raised s.th.bind.die (s.rd w.vc).toNat)) := fun hi => by
    rw [← hlow]
    exact if_neg hhigh
  rw [← sentAt_of_quiet hone.quiet] at hlanes
  have hsent := send_of_laneOf hr hone.noStep (hone.groups _ _ rfl).le (hlanes _) (by rw [sentAt_of_quiet hone.quiet]; exact hr.idle.hist)
    (by rw [sentAt_of_quiet hone.quiet]; exact hr.idle.storeQ)
  rw [sentAt_of_quiet hone.quiet] at hsent
  have hfront : { frontAfter s with viq := [] } = frontAfter s := by rw [← (show (frontAfter s).viq = [] from hr.idle.viq)]
  exact (exec_of_viqWord rfl hw s).trans (congrArg Host.Outcome.next (hsent.trans (congrArg (fun f =>
    ({ s with th := { s.th with fr := f, cnt := countAfter s } } : State).onCtx s.th.bind.ctx (raised s.th.bind.die (s.rd w.vc).toNat)) hfront)))

theorem stopsAt_cutstep (hw : (Instr.cutstep w).wellFormed = true) (hr : Ready s 0x4B w) (hx : 2 ^ 16 ≤ (s.rd w.vc).toNat) :
    ∃ t, exec (.cutstep w) s = .next t ∧ StopsAt s 0x4B w 0 .illegal 0 0 s.th.ln t := by
  have hlt := (s.rd w.vc).isLt
  have hhigh : bitsOf (s.rd w.vc) 63 16 ≠ 0 := by rw [bitsOf]; omega
  exact stopsAt_of_issueFail rfl hw (by decide) hr fun _ => if_pos hhigh

/-- The pointer of the thread's die grows in the thread's context, and nothing else changes (07 R204). -/
theorem cutTo_spec (s : State) (x : Nat) : { cutTo s x with ctxs := s.ctxs } = ran s ∧ (cutTo s x).ctxs.length = s.ctxs.length ∧
    ∀ (n : Nat) (a b : Ctx), s.ctxs[n]? = some a → (cutTo s x).ctxs[n]? = some b →
      { b with sched := a.sched } = a ∧ (a.id ≠ s.th.bind.ctx → b = a) ∧
      (a.id = s.th.bind.ctx → ∀ d, ((b.sched.find? fun p => p.1 = d).map (·.2)).getD 0 =
        (let p := ((a.sched.find? fun p => p.1 = d).map (·.2)).getD 0
         if d = s.th.bind.die then max p x else p)) := by
  refine ⟨rfl, List.length_map _, fun n a b ha hb => ?_⟩
  have hmap : (cutTo s x).ctxs[n]? = some (if a.id = s.th.bind.ctx then raised s.th.bind.die x a else a) :=
    List.getElem?_map.trans (congrArg (Option.map _) ha)
  obtain rfl := Option.some.inj (hmap.symm.trans hb)
  by_cases hid : a.id = s.th.bind.ctx
  · rw [if_pos hid]
    exact ⟨rfl, fun hne => absurd hid hne, fun _ d => pointer_raisedTo s.th.bind.die x d a.sched⟩
  · rw [if_neg hid]
    exact ⟨rfl, fun _ => rfl, fun h => absurd h hid⟩

/-! ### Words in which the front has a part -/

/-- A configuration word that the front shares: what its own part has left goes on in sequence, and the lanes change their registers, the Truss or
the store buffer. -/
theorem sendWith_of_ownFront {ln : Lanes} {tr : Truss} {st : Strip} (hr : Ready s op w) (hm : op ∈ configMajors) (hf : OwnFront s p.front)
    (hrun : front s (s.newEntry op w .word) = (s.onFr fun _ => p.front, p.fill (s.newEntry op w .word)))
    (hlanes : ∀ hi, laneOf (issuedAs s op w p) 0 hi (issuing s op w p) =
      laneDone { issuing s op w p with th := { (issuing s op w p).th with ln := ln, tr := tr, st := st } }) :
    s.sendWith op w front = { s with th := { s.th with fr := movedOn s p.front, ln := ln, tr := tr, st := st, cnt := countAfter s } } := by
  have hone : OneStep op w := oneStep_of_mem hm
  have hawait : awaiting s op w p.front = p.front := by rw [awaiting, hone.quiet]; rfl
  have hc := completesTo_of_laneOf hr (.inl (hone.unbounded s)) (hone.groups _ (issuedAs s op w p) rfl).le (hlanes _)
  rw [sendWith_of_completes hr.toSendable hone.noStep hf hrun hc hf.hist hf.storeQ]
  have hviq : (movedOn s p.front).viq = [] := hf.viq
  have hfront : { movedOn s (awaiting s op w p.front) with viq := [] } = movedOn s p.front := by rw [hawait, ← hviq]
  exact congrArg (fun f => { s with th := { s.th with fr := f, ln := ln, tr := tr, st := st, cnt := countAfter s } }) hfront


/-- The front's own part of a word that gives a scalar and changes the front's copies of lane state. -/
def granted (s : State) (r : RegNo) (x : Word) (c : Copies) : Front :=
  { s.th.fr with s := if r = 0 then s.th.fr.s else vecSet s.th.fr.s r.toNat x, copy := c }

theorem ownFront_granted (hi : Idle s) (r : RegNo) (x : Word) (c : Copies) : OwnFront s (granted s r x c) :=
  ⟨hi.viq, hi.hist, hi.storeQ, hi.chain, rfl, rfl, rfl, rfl, rfl, rfl, rfl, rfl⟩

theorem movedOn_granted (s : State) (r : RegNo) (x : Word) (c : Copies) :
    movedOn s (granted s r x c) = { (gave s r x).th.fr with copy := c } := by
  obtain ⟨h, z, e, -⟩ := arrive_form s (s.th.fr.spc + 8)
  rw [movedOn, gave, ran, frontAfter, e]
  rfl

theorem onCopy_wr (hi : Idle s) (f : Copies → Copies) (r : RegNo) (x : Word) :
    (s.onCopy f).wr r x = s.onFr fun _ => granted s r x (f s.th.fr.copy) :=
  wr_of_idle (s := s.onCopy f) ⟨hi.prompt, hi.viq, hi.stepq, hi.hist, hi.storeQ, hi.chain, hi.lane⟩ r x

/-! ### setvl -/

theorem laneOf_vl {e : VEntry} (hop : e.op = 0x78) (hk : e.w.key < 5) : laneOf e lo hi q = laneSetvl e lo hi q := by
  rw [laneOf, hop]
  exact if_pos hk

/-- The vl that setvl grants (05 R107, R109). -/
def grantedVl (s : State) (w : VWord) : Nat :=
  min (if w.form = .vi then w.fn.toNat else (s.rd w.vc).toNat) (vlmax s.width (Machine.sizeOf w.key))

/-- What the front's part of setvl gives. -/
def setvlPart (s : State) (w : VWord) : Own :=
  { noPart s 0x78 w with front := granted s w.vd (word (grantedVl s w)) { s.th.fr.copy with vl := grantedVl s w }, vl := grantedVl s w }

theorem exec_setvl (hw : (Instr.setvl w).wellFormed = true) (hr : Ready s 0x78 w) :
    exec (.setvl w) s = .next (((gave s w.vd (word (grantedVl s w))).onCopy fun c => { c with vl := grantedVl s w }).onLn fun l =>
      { l with vl := grantedVl s w, vtype := BitVec.ofNat 10 (l.vtype.toNat / 8 * 8 + w.key) }) := by
  obtain ⟨hn, -⟩ := (Bool.and_eq_true _ _).mp hw
  have hkey : w.key < 5 := of_decide_eq_true hn
  have hmod : w.key % 8 = w.key := Nat.mod_eq_of_lt (by omega)
  have hrun : setvlFront w s (s.newEntry 0x78 w .word) =
      (s.onFr fun _ => (setvlPart s w).front, (setvlPart s w).fill (s.newEntry 0x78 w .word)) := by
    refine Prod.ext ?_ rfl
    rw [← show _ = s.onFr fun _ => (setvlPart s w).front from onCopy_wr hr.idle (fun c => { c with vl := grantedVl s w }) w.vd _]
    rw [setvlFront, State.grantVl, log_of_viq_nil hr.idle.viq]
    rfl
  have hsent := sendWith_of_ownFront (ln := { s.th.ln with vl := grantedVl s w, vtype := BitVec.ofNat 10 (s.th.ln.vtype.toNat / 8 * 8 + w.key) })
    (tr := s.th.tr) (st := s.th.st) hr (by decide) (ownFront_granted hr.idle _ _ _) hrun fun hi => by
      rw [laneOf_vl rfl hkey, ← hmod]
      rfl
  refine congrArg Host.Outcome.next (hsent.trans ?_)
  rw [setvlPart, movedOn_granted]
  rfl

/-! ### tshape -/

/-- The extents that tshape grants, and what the lanes read of them (08 R215). -/
def packExtents (g : Nat × Nat × Nat) : Word := word (g.2.2 + g.2.1 * 2 ^ 16 + g.1 * 2 ^ 32)

theorem tileGrant_lt (c : BitVec 7) (k : Nat) (x : Word) :
    (tileGrant c k x).1 < 2 ^ 16 ∧ (tileGrant c k x).2.1 < 2 ^ 16 ∧ (tileGrant c k x).2.2 < 2 ^ 16 := by
  have hk : min (bitsOf x 15 0) k < 2 ^ 16 := (Nat.min_le_left _ _).trans_lt (Nat.mod_lt _ (by decide))
  unfold tileGrant
  refine ⟨(Nat.min_le_right _ _).trans_lt (by decide), (Nat.min_le_right _ _).trans_lt (by decide), ?_⟩
  simp only
  split <;> split <;> omega

theorem bitsOf_packExtents {g : Nat × Nat × Nat} (h : g.1 < 2 ^ 16 ∧ g.2.1 < 2 ^ 16 ∧ g.2.2 < 2 ^ 16) :
    bitsOf (packExtents g) 47 32 = g.1 ∧ bitsOf (packExtents g) 31 16 = g.2.1 ∧ bitsOf (packExtents g) 15 0 = g.2.2 := by
  obtain ⟨hm, hn, hk⟩ := h
  have hval : (packExtents g).toNat = g.2.2 + g.2.1 * 2 ^ 16 + g.1 * 2 ^ 32 := by
    rw [packExtents, word, BitVec.toNat_ofNat, Nat.mod_eq_of_lt (by omega)]
  simp only [bitsOf, hval]
  omega

theorem packExtents_eq (m n k : Nat) : packExtents (m, n, k) = word (m * 2 ^ 32 + n * 2 ^ 16 + k) := by
  rw [packExtents]
  exact congrArg word (by simp only; omega)

/-- The grant by the bits of the request and of mcfg. -/
theorem tileGrant_eq (c : BitVec 7) (kmax : Nat) (x : Word) : tileGrant c kmax x =
    (min (x.toNat / 2 ^ 32 % 2 ^ 16) 128, min (x.toNat / 2 ^ 16 % 2 ^ 16) 128,
      let k := min (x.toNat % 2 ^ 16) kmax
      let k := if c.toNat / 4 % 4 ≠ 0 then k / 48 * 48 else k
      if c.toNat / 16 % 4 ≠ 0 then k / 32 * 32 else k) := by
  have hlow : bitsOf x 15 0 = x.toNat % 2 ^ 16 := by rw [bitsOf]; omega
  rw [tileGrant, hlow]
  rfl

/-- What the front's part of tshape gives. -/
def tshapePart (s : State) (w : VWord) (g : Nat × Nat × Nat) : Own :=
  { noPart s 0x7A w with front := granted s w.vd (packExtents g) { s.th.fr.copy with tm := g.1 }, x0 := packExtents g }

theorem exec_tshape (hw : (Instr.tshape w).wellFormed = true) (hr : Ready s 0x7A w) {g : Nat × Nat × Nat}
    (hg : tileGrant s.th.fr.copy.mcfg s.th.fr.copy.kmax (s.rd w.vc) = g) :
    exec (.tshape w) s = .next (((gave s w.vd (packExtents g)).onCopy fun c => { c with tm := g.1 }).onTr fun t =>
      { t with tm := g.1, tn := g.2.1, tk := g.2.2 }) := by
  obtain ⟨hn, -⟩ := (Bool.and_eq_true _ _).mp hw
  have hkey : ¬ (w.key == 0) = true := by rw [beq_iff_eq.mp hn]; decide
  have hrun : tshapeFront w s (s.newEntry 0x7A w .word) =
      (s.onFr fun _ => (tshapePart s w g).front, (tshapePart s w g).fill (s.newEntry 0x7A w .word)) := by
    rw [← hg]
    refine Prod.ext ?_ rfl
    rw [tshapeFront, log_of_viq_nil hr.idle.viq]
    exact onCopy_wr hr.idle (fun c => { c with tm := (tileGrant s.th.fr.copy.mcfg s.th.fr.copy.kmax (s.rd w.vc)).1 }) w.vd _
  have hbits := bitsOf_packExtents (hg ▸ tileGrant_lt s.th.fr.copy.mcfg s.th.fr.copy.kmax (s.rd w.vc))
  obtain ⟨hm, hn', hk⟩ := hbits
  have hsent := sendWith_of_ownFront (ln := s.th.ln) (tr := { s.th.tr with tm := g.1, tn := g.2.1, tk := g.2.2 })
    (st := s.th.st) hr (by decide) (ownFront_granted hr.idle _ _ _) hrun fun hi => (if_neg hkey).trans (by
      rw [← hm, ← hn', ← hk]
      rfl)
  refine congrArg Host.Outcome.next (hsent.trans ?_)
  rw [tshapePart, movedOn_granted]
  rfl

/-! ### mmode -/

/-- What the front's part of mmode gives. -/
def mmodePart (s : State) (w : VWord) : Own :=
  { noPart s 0x7B w with
    front := granted s 0 0 { s.th.fr.copy with mcfg := BitVec.ofNat 7 w.fn.toNat, kmax := kmaxOf (BitVec.ofNat 7 w.fn.toNat), tm := 0 } }

theorem exec_mmode (hr : Ready s 0x7B w) :
    exec (.mmode w) s = .next (((ran s).onCopy fun k =>
        { k with mcfg := BitVec.ofNat 7 w.fn.toNat, kmax := kmaxOf (BitVec.ofNat 7 w.fn.toNat), tm := 0 }).onTr fun t =>
      { t with mcfg := BitVec.ofNat 7 w.fn.toNat, mvl := word (128 * 2 ^ 24 + 128 * 2 ^ 16 + kmaxOf (BitVec.ofNat 7 w.fn.toNat)),
               tm := 0, tn := 0, tk := 0 }) := by
  have hrun : mmodeFront w s (s.newEntry 0x7B w .word) =
      (s.onFr fun _ => (mmodePart s w).front, (mmodePart s w).fill (s.newEntry 0x7B w .word)) := by
    refine Prod.ext ?_ rfl
    simp only [mmodeFront, log_of_viq_nil hr.idle.viq]
    rfl
  have hsent := sendWith_of_ownFront (ln := s.th.ln) (tr := { s.th.tr with
      mcfg := BitVec.ofNat 7 w.fn.toNat, mvl := word (128 * 2 ^ 24 + 128 * 2 ^ 16 + kmaxOf (BitVec.ofNat 7 w.fn.toNat)), tm := 0, tn := 0, tk := 0 })
    (st := s.th.st) hr (by decide) (ownFront_granted hr.idle _ _ _) hrun fun hi => rfl
  refine congrArg Host.Outcome.next (hsent.trans ?_)
  rw [mmodePart, movedOn_granted]
  rfl

theorem kmaxOf_fn (w : VWord) : kmaxOf (BitVec.ofNat 7 w.fn.toNat) =
    if w.fn.toNat / 4 % 4 = 0 then 256 * 2 ^ (w.fn.toNat % 4) else 256 * 2 ^ (w.fn.toNat % 4) / 48 * 48 := by
  have hcls : mcCls (BitVec.ofNat 7 w.fn.toNat) = w.fn.toNat % 4 := by rw [mcCls, BitVec.toNat_ofNat]; omega
  have hspn : mcSpn (BitVec.ofNat 7 w.fn.toNat) = w.fn.toNat / 4 % 4 := by rw [mcSpn, BitVec.toNat_ofNat]; omega
  rw [kmaxOf, mcG, hcls, hspn]

/-! ### scommit -/

/-- What the front's part of scommit gives. -/
def scommitPart (s : State) (w : VWord) : Own :=
  { noPart s 0x4A w with front :=
      { s.th.fr with regs := { s.th.fr.regs with sbase := s.th.fr.regs.sbase + word s.th.fr.copy.vl } } }

theorem exec_scommit (hr : Ready s 0x4A w) (he : s.th.st.entries = []) :
    exec (.scommit w) s = .next (((ran s).onRegs fun r => { r with sbase := r.sbase + word s.th.fr.copy.vl }).onSt fun t =>
      { t with open_ := t.open_ + 1, unacked := [], unc := false }) := by
  have hi := hr.idle
  have hrun : scommitFront s (s.newEntry 0x4A w .word) =
      (s.onFr fun _ => (scommitPart s w).front, (scommitPart s w).fill (s.newEntry 0x4A w .word)) := by
    refine Prod.ext ?_ rfl
    rw [scommitFront, log_of_viq_nil hi.viq]
    rfl
  have hsent := sendWith_of_ownFront (ln := s.th.ln) (tr := s.th.tr)
    (st := { s.th.st with open_ := s.th.st.open_ + 1, unacked := [], unc := false }) hr (by decide)
    ⟨hi.viq, hi.hist, hi.storeQ, hi.chain, rfl, rfl, rfl, rfl, rfl, rfl, rfl, rfl⟩ hrun fun _ =>
      congrArg laneDone (commit_of_entries_nil hi.prompt he)
  refine congrArg Host.Outcome.next ((sendU_eq _ hr.atU).trans (hsent.trans ?_))
  obtain ⟨h, z, e, -⟩ := arrive_form s (s.th.fr.spc + 8)
  rw [scommitPart, movedOn, ran, frontAfter, e]
  rfl

/-- Settles O42: each word by what the lanes take of it, and by the part that the front does. -/
theorem configurationWords : Obligations.ConfigurationWords := by
  refine ⟨fun s w hw hr => exec_setvl hw hr, fun s w hw hr => ⟨exec_setvt hw hr, stopsAt_setvt hw hr⟩,
    fun s w hw hr => ⟨exec_setfmt hw hr, stopsAt_setfmt hw hr⟩, fun s w hw hr => ⟨exec_mshape hw hr, stopsAt_mshape hw hr⟩,
    fun s w hw hr => ?_, fun s w _ hr => ?_, fun s w _ hr he => exec_scommit hr he,
    fun s w hw hr => ⟨fun hx => ⟨_, exec_cutstep hw hr hx, cutTo_spec s _⟩, stopsAt_cutstep hw hr⟩⟩
  · have h := exec_tshape hw hr (tileGrant_eq s.th.fr.copy.mcfg s.th.fr.copy.kmax (s.rd w.vc))
    rw [packExtents_eq] at h
    exact h
  · have h := exec_mmode hr
    rw [kmaxOf_fn] at h
    exact h

end Sys2Proof.Claims

end
